-- ==== Sys2Proof/Word.lean ====
section
/-! DEFINITION. The word types of the machine: a byte, a 32-bit register lane, a 64-bit value (R2, R158, R243). -/

namespace Sys2Proof

/-- A byte of memory. -/
abbrev Byte := BitVec 8

/-- A 32-bit register, mask or register-file word. -/
abbrev Word := BitVec 32

/-- A 64-bit value: an address, CYCLE, a register pair (even register low, R270). -/
abbrev DWord := BitVec 64

end Sys2Proof
end

