-- ==== Sys2Proof/Syntax.lean ====
section
/-! DEFINITION. The syntax: one constructor of Instr per row of the opcode table. A Phidin instruction carries the
fields of its layout (R268, R269); a row that is an operation or event of the part carries what the outside or the
acting agent supplies. Indices (die, slice, core, queue, function) are natural numbers: function 0 is the PF, function
n is VF n, slice 16 is the PF, and a core is numbered die * 36 + physical core (R8). -/

namespace Sys2Proof

/-- The 16-bit form (R268) without OP4, which the constructor gives. -/
structure H16 where
  b : BitVec 5
  d : BitVec 5
  w : Bool
  deriving DecidableEq, Repr

/-- Layout RI (R269) without OPT4, which the constructor gives. -/
structure RI where
  i : BitVec 16
  d : BitVec 6
  w : BitVec 3
  deriving DecidableEq, Repr

/-- Layouts RG, MR and CS (R269), which share their fields, without OP5. -/
structure RG where
  b : BitVec 6
  a : BitVec 6
  d : BitVec 6
  x : BitVec 2
  w : BitVec 3
  s : Bool
  deriving DecidableEq, Repr

/-- Layout MO (R269) without OP5. -/
structure MO where
  off : BitVec 8
  a : BitVec 6
  d : BitVec 6
  w : BitVec 3
  s : Bool
  deriving DecidableEq, Repr

/-- Layout MA (R269) without OP5. -/
structure MA where
  o : BitVec 2
  a : BitVec 6
  d : BitVec 6
  sc : BitVec 4
  x : BitVec 2
  w : BitVec 3
  s : Bool
  deriving DecidableEq, Repr

/-- Layout CB (R269) without OP5. -/
structure CB where
  off : BitVec 16
  n : Bool
  p : BitVec 3
  w : BitVec 3
  s : Bool
  deriving DecidableEq, Repr

/-- The issue slots of a partition (R123). -/
inductive Slot where
  | v | m | c
  deriving DecidableEq, Repr

/-- What an access does at its address (R198, R204). -/
inductive Access where
  | load | store | fetch
  deriving DecidableEq, Repr

/-- A host access through BAR2, with the PCIe atomics of R33. -/
inductive HostOp where
  | read | write | fetchAdd | swap | cas
  deriving DecidableEq, Repr

/-- What a peer request asks (R40, R45, R48). -/
inductive PeerOp where
  /-- A load of the request's size. -/
  | load
  /-- A store of the request's size. -/
  | store
  /-- An atomic or reduction, by OP5 (0x10 to 0x13) and X (R328, R331). -/
  | atomic (op5 x : Nat)
  /-- A multicast store to a group, at an offset (R46). -/
  | mcStore (group : Nat)
  /-- A reducing load of a group, at an offset (R46, R47). -/
  | mcLoad (group : Nat)
  /-- A vendor-defined request of unknown form (R48, code 7). -/
  | unknown
  deriving DecidableEq, Repr

/-- An inbound peer request with the stamps of R42. -/
structure PeerIn where
  modid : Nat
  pslice : Nat
  slice : Nat
  op : PeerOp
  addr : DWord
  size : Nat
  /-- It is copy traffic: a run of bytes at any address. -/
  copy : Bool
  /-- The bytes of a store or of a copy's write, or the operand of an atomic. -/
  data : List Byte
  data2 : DWord
  ctx : Nat
  wmark : Word
  lane : Nat
  /-- Watermarks whose operations the initiator has completed: their entries leave the windows (R183). -/
  freed : List Word
  deriving DecidableEq, Repr

/-- What returns to an initiator: the value, or a NAK with its code (R48). -/
inductive PeerResp where
  | ok (v : BitVec 128)
  | nak (code : Nat)
  /-- To a multicast request that the sending port expands (R45): a NAK code or 0, and a word, of each member in order. -/
  | members (l : List (Nat × Word))
  /-- To a read of a copy piece: its bytes. -/
  | bytes (l : List Byte)
  deriving DecidableEq, Repr

/-- A collective tile that lands: its member and number in that member's contribution, the contributions to it of members of
other modules by member, and the NAK or other error that met it, as a CAUSE and NAK code of R94. -/
structure CollTile where
  member : Nat
  index : Nat
  remote : List (Nat × List Byte)
  error : Option (Nat × Nat)
  deriving DecidableEq, Repr

/-- TDISP messages that change or report the TDI state (R36, R73). -/
inductive TdispMsg where
  | lockInterface | startInterface | stopInterface | getState | getReport
  deriving DecidableEq, Repr

/-- What a RoCEv2 peer sends to a queue pair (R38). -/
inductive RdmaOp where
  | write (qp : Nat) (addr : DWord) (data : List Byte)
  | read (qp : Nat) (addr : DWord) (len : Nat)
  | send (qp : Nat) (data : List Byte)
  deriving DecidableEq, Repr

/-- What the matrix array got wrong (R107): for output row i and column j of the tile and K-block b, by how much its block sum,
in units of the block's fixed-point step, is off. Row 128 and column 64 stand for the checksum row and column. -/
structure ArrayFault where
  core : Nat
  i : Nat
  j : Nat
  b : Nat
  delta : Int
  deriving DecidableEq, Repr

/-- Where an uncorrectable error strikes (R100): an HBM line, by number; a 64-bit word of a core's scratchpad or tile store, of
a line in a core's L1 (by virtual word) or of L2 data (by device word). -/
inductive ErrSite where
  | line (n : Nat)
  | spad (core word : Nat)
  | tile (core word : Nat)
  | l1 (core word : Nat)
  | l2 (word : Nat)
  deriving DecidableEq, Repr

/-- The instructions and operations of the opcode table, one constructor a row: the words of Phidin first, then the
steps of the part that the machine takes of itself, then the other operations and events. -/
inductive Instr where
  /-- NOP_H (R268). -/
  | nopH
  /-- MOV (R318). -/
  | mov16 (f : H16)
  /-- ADD_I32_16 (R318). -/
  | addI3216 (f : H16)
  /-- SUB_I32_16 (R318). -/
  | subI3216 (f : H16)
  /-- ADD_F32_16 (R318). -/
  | addF3216 (f : H16)
  /-- SUB_F32_16 (R318). -/
  | subF3216 (f : H16)
  /-- MUL_F32_16 (R318). -/
  | mulF3216 (f : H16)
  /-- MAX_F32_16 (R318). -/
  | maxF3216 (f : H16)
  /-- MIN_F32_16 (R318). -/
  | minF3216 (f : H16)
  /-- AND_16 (R318). -/
  | and16 (f : H16)
  /-- OR_16 (R318). -/
  | or16 (f : H16)
  /-- XOR_16 (R318). -/
  | xor16 (f : H16)
  /-- SHL_16 (R318). -/
  | shl16 (f : H16)
  /-- SHR_16 (R318). -/
  | shr16 (f : H16)
  /-- MUL_I32_16 (R318). -/
  | mulI3216 (f : H16)
  /-- MAX_I32_16 (R318). -/
  | maxI3216 (f : H16)
  /-- ADD_F16X2_16 (R318). -/
  | addF16x216 (f : H16)
  /-- MOVI (R317). -/
  | movi (f : RI)
  /-- MOVHI (R317). -/
  | movhi (f : RI)
  /-- ADDI_I32 (R317). -/
  | addiI32 (f : RI)
  /-- MULI_I32 (R317). -/
  | muliI32 (f : RI)
  /-- ANDI (R317). -/
  | andi (f : RI)
  /-- ORI (R317). -/
  | ori (f : RI)
  /-- XORI (R317). -/
  | xori (f : RI)
  /-- SHLI (R317). -/
  | shli (f : RI)
  /-- ADDI_F32 (R317). -/
  | addiF32 (f : RI)
  /-- MULI_F32 (R317). -/
  | muliF32 (f : RI)
  /-- MOVI_F16X2 (R317). -/
  | moviF16x2 (f : RI)
  /-- ADDI_F16X2 (R317). -/
  | addiF16x2 (f : RI)
  /-- MULI_F16X2 (R317). -/
  | muliF16x2 (f : RI)
  /-- ADDI_BF16X2 (R317). -/
  | addiBf16x2 (f : RI)
  /-- MULI_BF16X2 (R317). -/
  | muliBf16x2 (f : RI)
  /-- MOVI_F8X4 (R317). -/
  | moviF8x4 (f : RI)
  /-- ADD (R295). -/
  | add (f : RG)
  /-- SUB (R295). -/
  | sub (f : RG)
  /-- MUL (R295). -/
  | mul (f : RG)
  /-- FMA (R296). -/
  | fma (f : RG)
  /-- MIN (R297). -/
  | minL (f : RG)
  /-- MAX (R297). -/
  | maxL (f : RG)
  /-- AND (R298). -/
  | andL (f : RG)
  /-- OR (R298). -/
  | orL (f : RG)
  /-- XOR (R298). -/
  | xorL (f : RG)
  /-- ANDN (R298). -/
  | andn (f : RG)
  /-- SHL (R298). -/
  | shl (f : RG)
  /-- SHR (R298). -/
  | shr (f : RG)
  /-- SAR (R298). -/
  | sar (f : RG)
  /-- ROL (R298). -/
  | rol (f : RG)
  /-- MULH_HI (R299). -/
  | mulhHi (f : RG)
  /-- MULH_WIDE (R299). -/
  | mulhWide (f : RG)
  /-- RCP (R300). -/
  | rcp (f : RG)
  /-- RSQ (R300). -/
  | rsq (f : RG)
  /-- SQRT (R300). -/
  | sqrt (f : RG)
  /-- EXP2 (R300). -/
  | exp2 (f : RG)
  /-- LOG2 (R300). -/
  | log2 (f : RG)
  /-- SIN (R300). -/
  | sin (f : RG)
  /-- COS (R300). -/
  | cos (f : RG)
  /-- TANH (R300). -/
  | tanh (f : RG)
  /-- CVT (R301). -/
  | cvt (f : RG)
  /-- PK (R302). -/
  | pk (f : RG)
  /-- UPK (R303). -/
  | upk (f : RG)
  /-- CMP_I32 (R304). -/
  | cmpI32 (f : RG)
  /-- CMP_N32 (R304). -/
  | cmpN32 (f : RG)
  /-- CMP_F32 (R304). -/
  | cmpF32 (f : RG)
  /-- CMPX_F32 (R304). -/
  | cmpxF32 (f : RG)
  /-- SEL (R305). -/
  | sel (f : RG)
  /-- DP4 (R306). -/
  | dp4 (f : RG)
  /-- DP2 (R307). -/
  | dp2 (f : RG)
  /-- POPC (R308). -/
  | popc (f : RG)
  /-- CLZ (R308). -/
  | clz (f : RG)
  /-- BREV (R308). -/
  | brev (f : RG)
  /-- FFS (R308). -/
  | ffs (f : RG)
  /-- BFE (R309). -/
  | bfe (f : RG)
  /-- BFI (R309). -/
  | bfi (f : RG)
  /-- PERM (R310). -/
  | perm (f : RG)
  /-- SHFL (R311). -/
  | shfl (f : RG)
  /-- VOTE_ALL (R312). -/
  | voteAll (f : RG)
  /-- VOTE_ANY (R312). -/
  | voteAny (f : RG)
  /-- VOTE_BALLOT (R312). -/
  | voteBallot (f : RG)
  /-- VOTE_EQ (R312). -/
  | voteEq (f : RG)
  /-- GRED (R313). -/
  | gred (f : RG)
  /-- XMOV_VS (R314). -/
  | xmovVs (f : RG)
  /-- XMOV_SV (R314). -/
  | xmovSv (f : RG)
  /-- XMOV_VP (R314). -/
  | xmovVp (f : RG)
  /-- XMOV_PV (R314). -/
  | xmovPv (f : RG)
  /-- SADD (R315). -/
  | sadd (f : RG)
  /-- SSUB (R315). -/
  | ssub (f : RG)
  /-- SMUL (R315). -/
  | smul (f : RG)
  /-- SAND (R315). -/
  | sand (f : RG)
  /-- SOR (R315). -/
  | sor (f : RG)
  /-- SXOR (R315). -/
  | sxor (f : RG)
  /-- SSHL (R315). -/
  | sshl (f : RG)
  /-- SSHR (R315). -/
  | sshr (f : RG)
  /-- SCMP (R315). -/
  | scmp (f : RG)
  /-- ADD64 (R316). -/
  | add64 (f : RG)
  /-- SUB64 (R316). -/
  | sub64 (f : RG)
  /-- SADD64 (R316). -/
  | sadd64 (f : RG)
  /-- MAD64 (R316). -/
  | mad64 (f : RG)
  /-- LD_B (R323). -/
  | ldB (f : MO)
  /-- LD_BN (R323). -/
  | ldBn (f : MO)
  /-- LD_H (R323). -/
  | ldH (f : MO)
  /-- LD_HN (R323). -/
  | ldHn (f : MO)
  /-- LD_W (R323). -/
  | ldW (f : MO)
  /-- LD_D (R323). -/
  | ldD (f : MO)
  /-- LD_Q (R323). -/
  | ldQ (f : MO)
  /-- ST_B (R324). -/
  | stB (f : MO)
  /-- ST_H (R324). -/
  | stH (f : MO)
  /-- ST_W (R324). -/
  | stW (f : MO)
  /-- ST_D (R324). -/
  | stD (f : MO)
  /-- ST_Q (R324). -/
  | stQ (f : MO)
  /-- LDS_W (R326). -/
  | ldsW (f : MO)
  /-- LDS_D (R326). -/
  | ldsD (f : MO)
  /-- STS_W (R326). -/
  | stsW (f : MO)
  /-- PF (R327). -/
  | pf (f : MO)
  /-- ATOM_A (R328). -/
  | atomA (f : MA)
  /-- ATOM_B (R328). -/
  | atomB (f : MA)
  /-- ATOM_C (R328). -/
  | atomC (f : MA)
  /-- RED (R331). -/
  | red (f : MA)
  /-- FENCE (R332). -/
  | fence (f : MA)
  /-- PHASE_CLOSE (R333). -/
  | phaseClose (f : MA)
  /-- PHASE_OPEN (R334). -/
  | phaseOpen (f : MA)
  /-- PHASE_CYCLE (R333). -/
  | phaseCycle (f : MA)
  /-- PHASE_TEST (R334). -/
  | phaseTest (f : MA)
  /-- BAR_ARRIVE (R336). -/
  | barArrive (f : MA)
  /-- BAR_WAIT (R336). -/
  | barWait (f : MA)
  /-- BAR_ARRIVE_WAIT (R336). -/
  | barArriveWait (f : MA)
  /-- BAR_COUNT (R336). -/
  | barCount (f : MA)
  /-- ARR_ARRIVE (R339). -/
  | arrArrive (f : RG)
  /-- ARR_EXPECT (R339). -/
  | arrExpect (f : RG)
  /-- ARR_TEST (R340). -/
  | arrTest (f : RG)
  /-- ARR_WAIT (R341). -/
  | arrWait (f : RG)
  /-- CP_ISSUE (R366). -/
  | cpIssue (f : RG)
  /-- CP_ISSUE2D (R366). -/
  | cpIssue2d (f : RG)
  /-- CP_REKEY (R369). -/
  | cpRekey (f : RG)
  /-- CP_CANCEL (R370). -/
  | cpCancel (f : RG)
  /-- ST_MC (R345). -/
  | stMc (f : MA)
  /-- LD_RED_ADD_F32 (R346). -/
  | ldRedAddF32 (f : MA)
  /-- LD_RED_ADD_BF16 (R346). -/
  | ldRedAddBf16 (f : MA)
  /-- LD_RED_MAX_F32 (R346). -/
  | ldRedMaxF32 (f : MA)
  /-- CNT_ADD (R342). -/
  | cntAdd (f : MA)
  /-- CNT_RD (R342). -/
  | cntRd (f : MA)
  /-- CNT_WAIT (R343). -/
  | cntWait (f : MA)
  /-- CNT_TEST (R342). -/
  | cntTest (f : MA)
  /-- TILE_TLD (R363). -/
  | tileTld (f : RG)
  /-- TILE_TST (R363). -/
  | tileTst (f : RG)
  /-- TILE_TZERO (R364). -/
  | tileTzero (f : RG)
  /-- TILE_TCVT (R365). -/
  | tileTcvt (f : RG)
  /-- MMA_ISSUE_CORE (R356). -/
  | mmaIssueCore (f : RG)
  /-- MMA_ISSUE_CL (R356). -/
  | mmaIssueCl (f : RG)
  /-- MMA_WAIT (R361). -/
  | mmaWait (f : RG)
  /-- MMA_FENCE (R360). -/
  | mmaFence (f : RG)
  /-- COLL_ISSUE (R371). -/
  | collIssue (f : RG)
  /-- COLL_WAIT (R373). -/
  | collWait (f : RG)
  /-- COLL_TEST (R373). -/
  | collTest (f : RG)
  /-- COLL_SIGNAL (R372). -/
  | collSignal (f : RG)
  /-- CONT_EMIT (R374). -/
  | contEmit (f : RG)
  /-- CONT_FLUSH (R375). -/
  | contFlush (f : RG)
  /-- BRA (R379). -/
  | bra (f : CB)
  /-- BR_P (R379). -/
  | brP (f : CB)
  /-- BR_ANY (R379). -/
  | brAny (f : CB)
  /-- BR_ALL (R379). -/
  | brAll (f : CB)
  /-- CALL (R381). -/
  | call (f : CB)
  /-- RET (R381). -/
  | ret (f : RG)
  /-- JMP_R (R381). -/
  | jmpR (f : RG)
  /-- RCV (R382). -/
  | rcv (f : RG)
  /-- YIELD (R382). -/
  | yieldSplit (f : RG)
  /-- RESYNC (R382). -/
  | resync (f : RG)
  /-- EXIT (R383). -/
  | exitLanes (f : RG)
  /-- TRAP (R385). -/
  | swTrap (f : RG)
  /-- SLEEP_UNTIL (R384). -/
  | sleepUntil (f : RG)
  /-- SLEEP_NS (R384). -/
  | sleepNs (f : RG)
  /-- SLEEP_YIELD (R384). -/
  | sleepYield (f : RG)
  /-- SR_RD (R388). -/
  | srRd (f : RG)
  /-- SR_WR (R388). -/
  | srWr (f : RG)
  /-- CTR_RD (R389). -/
  | ctrRd (f : RG)
  /-- CTR_START (R389). -/
  | ctrStart (f : RG)
  /-- CTR_STOP (R389). -/
  | ctrStop (f : RG)
  /-- CTR_MARK (R389). -/
  | ctrMark (f : RG)
  /-- BRK (R385). -/
  | brk (f : RG)
  /-- BOOST_CLAIM (R390). -/
  | boostClaim (f : RG)
  /-- BOOST_RELEASE (R390). -/
  | boostRelease (f : RG)
  /-- BOOST_QUERY (R390). -/
  | boostQuery (f : RG)
  /-- RFE (R386). -/
  | rfe (f : RG)
  /-- NOP (R392). -/
  | nop (f : RG)
  /-- NOP_WAITSB (R392). -/
  | nopWaitsb (f : RG)
  /-- MASK_RD (R387). -/
  | maskRd (f : RG)
  /-- MASK_WR (R387). -/
  | maskWr (f : RG)
  /-- PAND (R391). -/
  | pand (f : RG)
  /-- POR (R391). -/
  | por (f : RG)
  /-- PXOR (R391). -/
  | pxor (f : RG)
  /-- PNOT (R391). -/
  | pnot (f : RG)
  /-- CHART_SEL (R393). -/
  | chartSel (f : RG)
  /-- CHART_RD (R394). -/
  | chartRd (f : RG)
  /-- HOST_STATE_TRANSITION_DONE (R20). -/
  | hostStateTransitionDone (die : Nat)
  /-- VF_CHANGE_DONE (R20). -/
  | vfChangeDone (die : Nat)
  /-- L2_WAY_DISABLE_DONE (R16). -/
  | l2WayDisableDone (die : Nat)
  /-- PERMIT_DEBIT (R23). -/
  | permitDebit (die : Nat)
  /-- FALL_TO_NOMINAL (R24). -/
  | fallToNominal (die : Nat)
  /-- FALL_COMPLETE (R24). -/
  | fallComplete (die : Nat)
  /-- PERMIT_REFILL (R25). -/
  | permitRefill (die : Nat)
  /-- CURRENT_SLOPE_TICK (R27). -/
  | currentSlopeTick (die : Nat)
  /-- MERIDIAN_REFILL (R127). -/
  | meridianRefill (die : Nat)
  /-- FABRIC_METER_TICK (R44). -/
  | fabricMeterTick
  /-- COLL_TILE_LAND (R51). -/
  | collTileLand (die id : Nat) (t : CollTile)
  /-- ACTIVATE_DONE (R59). -/
  | activateDone (slice : Nat)
  /-- DISSOLVE_DONE (R59). -/
  | dissolveDone (slice : Nat)
  /-- OWNCMD_DONE (R65). -/
  | owncmdDone
  /-- FLR_COMPLETE (R70). -/
  | flrComplete (vf : Nat)
  /-- LAUNCH (R86). -/
  | pktLaunch (slice k : Nat)
  /-- COPY (R87). -/
  | pktCopy (slice k : Nat)
  /-- COPY2D (R87). -/
  | pktCopy2d (slice k : Nat)
  /-- COLL (R88). -/
  | pktColl (slice k : Nat)
  /-- CWAIT (R89). -/
  | pktCwait (slice k : Nat)
  /-- CADD (R89). -/
  | pktCadd (slice k : Nat)
  /-- MARKER (R89). -/
  | pktMarker (slice k : Nat)
  /-- WG_DEAL (R116). -/
  | wgDeal (slice launch : Nat)
  /-- WG_RESIDENT (R117). -/
  | wgResident (core : Nat)
  /-- COPY_PIECE_START (R208). -/
  | copyPieceStart (die eng : Nat)
  /-- COPY_PIECE_LAND (R97). -/
  | copyPieceLand (die eng : Nat)
  /-- KILL_COMPLETE (R103). -/
  | killComplete (slice : Nat)
  /-- SLOT_ISSUE (R125). -/
  | slotIssue (core part : Nat) (slot : Slot)
  /-- CLUSTER_IDLE (R132). -/
  | clusterIdle (die cl : Nat)
  /-- ADMISSION_GRANT (R132). -/
  | admissionGrant (die : Nat)
  /-- BIN_FORM (R120). -/
  | binForm (die bin : Nat)
  /-- GATHERED_RESIDENT (R122). -/
  | gatheredResident (slice launch : Nat)
  /-- GROUP_RESTORE (R136). -/
  | groupRestore (gid : Nat)
  /-- SWITCH_TICK (R142). -/
  | switchTick (slice : Nat)
  /-- TICK_SAVE_DEADLINE (R143). -/
  | tickSaveDeadline (slice : Nat)
  /-- LADDER_GRACE_EXPIRY (R144). -/
  | ladderGraceExpiry (slice : Nat)
  /-- LADDER_KILL_EXPIRY (R144). -/
  | ladderKillExpiry (slice : Nat)
  /-- I2_DRAIN_TIMEOUT (R185). -/
  | i2DrainTimeout (gid : Nat)
  /-- FREEZE_COMPLETE (R106). -/
  | freezeComplete (gid : Nat)
  /-- QUIESCE_DONE (R148). -/
  | quiesceDone (slice : Nat)
  /-- SPLIT_MERGE (R163). -/
  | splitMerge (gid : Nat)
  /-- GROUP_SAVE (R175). -/
  | groupSave (gid : Nat)
  /-- GROUP_RETIRE (R165). -/
  | groupRetire (gid : Nat)
  /-- ENTRY_COMPLETE (R179). -/
  | entryComplete (gid ent : Nat)
  /-- I1_HOME_REQUEST (R183). -/
  | i1HomeRequest (gid ent lane : Nat)
  /-- SCRUB_DONE (R160). -/
  | scrubDone (core : Nat)
  /-- TLBINV_DONE (R201). -/
  | tlbinvDone (slice : Nat) (host : Bool)
  /-- REPORT_GRANT (R203). -/
  | reportGrant
  /-- WAIT_WAKE (R347). -/
  | waitWake (gid born : Nat)
  /-- PROMISE_DEADLINE (R341). -/
  | promiseDeadline (gid born : Nat)
  /-- SLEEP_DEADLINE (R384). -/
  | sleepDeadline (gid born : Nat)
  /-- MMA_OP_START (R352). -/
  | mmaOpStart (core : Nat)
  /-- ARRAY_TILE_WRITE (R356). -/
  | arrayTileWrite (core : Nat) (faults : List ArrayFault)
  /-- PF_REGISTER_WRITE (R5). -/
  | pfRegisterWrite (off : Nat) (v : Word)
  /-- COUNTER_LO_READ (R241). -/
  | counterLoRead (fn off : Nat)
  /-- COUNTER_HI_READ (R241). -/
  | counterHiRead (fn off : Nat)
  /-- PWRCTL_WRITE (R20). -/
  | pwrctlWrite (die : Nat) (v : Word)
  /-- L2WAYDIS_WRITE (R16). -/
  | l2waydisWrite (die : Nat) (v : Word)
  /-- BOOST_RISE (R23). -/
  | boostRise (die : Nat)
  /-- THERM_UPDATE (R29). -/
  | thermUpdate (die : Nat) (tdie : Byte)
  /-- THERM_WRITE (R29). -/
  | thermWrite (die : Nat) (v : Word)
  /-- POWER_CAP_TICK (R30). -/
  | powerCapTick (watts : Nat)
  /-- BAR2_ACCESS (R34). -/
  | bar2Access (op : HostOp) (off size : Nat) (data data2 : DWord)
  /-- VF_WINDOW_ACCESS (R34). -/
  | vfWindowAccess (slice : Nat) (write : Bool) (off : Nat) (v : Word)
  /-- PFERR_WRITE (R35). -/
  | pferrWrite (v : Word)
  /-- TDI_STOP (R36). -/
  | tdiStop (vf : Nat)
  /-- VF_TLP_RECEIVE (R37). -/
  | vfTlpReceive (vf : Nat) (onStream intact posted : Bool)
  /-- PTP_CORRECTION (R39). -/
  | ptpCorrection (rho : Int) (offset : Int)
  /-- PTP_LOCK_LOSS (R39). -/
  | ptpLockLoss (port : Nat)
  /-- FABRIC_PACKET_SEND (R44). -/
  | fabricPacketSend (slice : Nat) (ual : Bool)
  /-- INBOUND_PEER_REQUEST (R48). -/
  | inboundPeerRequest (r : PeerIn)
  /-- PEER_RESPONSE (R48). -/
  | peerResponse (req : Nat) (r : PeerResp)
  /-- PEER_TIMEOUT (R49). -/
  | peerTimeout (req : Nat)
  /-- MCJOIN_WRITE (R46). -/
  | mcjoinWrite (slice entry word : Nat) (v : Word)
  /-- UCIE_RETRAIN (R53). -/
  | ucieRetrain (pair module failed : Nat)
  /-- UCIE_FLIT_FAIL (R53). -/
  | ucieFlitFail (pair : Nat) (slices : List Nat)
  /-- CREATE (R56). -/
  | createSlice (slice : Nat)
  /-- ACTIVATE (R59). -/
  | activateSlice (slice : Nat)
  /-- DISSOLVE (R59). -/
  | dissolveSlice (slice : Nat)
  /-- DECKLE_WRITE (R56). -/
  | deckleWrite (slice off : Nat) (v : Word)
  /-- ASSIGN (R65). -/
  | assignFrame (frame owner : Nat)
  /-- REKEY (R65). -/
  | rekeyFrame (frame owner : Nat)
  /-- RELEASE (R65). -/
  | releaseFrame (frame : Nat)
  /-- QUERY (R65). -/
  | queryFrame (frame : Nat)
  /-- BW_WINDOW (R67): bytes asked by 0 to 15 a slice on the channels its deckle names, 16 the PF, 32 + n slice n on others. -/
  | bwWindow (stack : Nat) (want : List (Nat × Nat))
  /-- HBM_THERMAL_LEVEL_CHANGE (R69). -/
  | hbmThermalLevelChange (stack : Nat) (temp : Byte)
  /-- FUNCTION_LEVEL_RESET (R70). -/
  | functionLevelReset (vf : Nat)
  /-- VF_ENABLE_CLEAR (R72). -/
  | vfEnableClear
  /-- VF_ENABLE_SET (R72). -/
  | vfEnableSet (num : Nat)
  /-- GET_VERSION (R73). -/
  | getVersion (fn : Nat)
  /-- GET_CAPABILITIES (R73). -/
  | getCapabilities (fn : Nat)
  /-- NEGOTIATE_ALGORITHMS (R73). -/
  | negotiateAlgorithms (fn : Nat)
  /-- GET_DIGESTS (R73). -/
  | getDigests (fn : Nat)
  /-- GET_CERTIFICATE (R73). -/
  | getCertificate (fn slot off len : Nat)
  /-- CHALLENGE (R73). -/
  | spdmChallenge (fn slot : Nat) (nonce : List Byte)
  /-- GET_MEASUREMENTS (R74). -/
  | getMeasurements (fn index : Nat)
  /-- KEY_EXCHANGE (R73). -/
  | keyExchange (fn slot : Nat) (body : List Byte)
  /-- FINISH (R73). -/
  | spdmFinish (fn : Nat)
  /-- HEARTBEAT (R73). -/
  | spdmHeartbeat (fn : Nat)
  /-- END_SESSION (R73). -/
  | spdmEndSession (fn : Nat)
  /-- IDE_KM (R73). -/
  | ideKm (fn : Nat) (body : List Byte)
  /-- TDISP_MESSAGE (R73). -/
  | tdispMessage (fn : Nat) (m : TdispMsg)
  /-- GET_EXPORT_KEY (R150). -/
  | getExportKey (fn : Nat) (body : List Byte)
  /-- SET_IMPORT_KEY (R150). -/
  | setImportKey (fn : Nat) (body : List Byte)
  /-- MODULE_RESET (R76). -/
  | moduleReset
  /-- FWLOAD_WRITE (R77). -/
  | fwloadWrite (len : Nat)
  /-- QTAB_CTL_WRITE (R80). -/
  | qtabCtlWrite (slice k : Nat) (v : Word)
  /-- REGION (R92). -/
  | pktRegion (slice k : Nat)
  /-- PATROL_SCRUB (R101). -/
  | patrolScrub (site : ErrSite) (uncorrectable : Bool)
  /-- DKILL (R102). -/
  | dkill (slice : Nat) (v : Word)
  /-- STRIKE_REPORT (R105). -/
  | strikeReport (die cl : Nat)
  /-- STRIKE_RESUME (R105). -/
  | strikeResume (die cl : Nat)
  /-- ENGINE_COMPARE_MISMATCH (R109). -/
  | engineCompareMismatch (slice eng : Nat)
  /-- CORRECTED_ERROR (R111). -/
  | correctedError (stack ch bank row col : Nat)
  /-- REPAIR_DONE (R111). -/
  | repairDone (stack : Nat)
  /-- BANK_RETIRE (R112). -/
  | bankRetire (stack : Nat) (v : Word)
  /-- INFIELD_TEST_START (R113). -/
  | infieldTestStart (core : Nat)
  /-- INFIELD_TEST_DONE (R113). -/
  | infieldTestDone (core : Nat) (result : List Byte)
  /-- STARVATION_FLAG (R130). -/
  | starvationFlag (gid born : Nat)
  /-- EVICTION (R135). -/
  | evictFor (core wg : Nat)
  /-- QUIESCE (R148). -/
  | quiesce (slice : Nat)
  /-- EXPORT (R149). -/
  | exportReam (slice : Nat)
  /-- IMPORT (R153). -/
  | importReam (slice : Nat)
  /-- MIG_RESUME (R148). -/
  | migResume (slice : Nat)
  /-- RESHAPE (R154). -/
  | reshape (slice : Nat)
  /-- MERGE (R155). -/
  | mergeSlices (slice peer : Nat)
  /-- SPLIT (R156). -/
  | splitSlice (slice peer : Nat)
  /-- PAGE_WALK (R199). -/
  | pageWalk (core : Nat) (va : DWord) (acc : Access)
  /-- TLBINV (R201). -/
  | tlbinvStart (slice : Nat) (host : Bool)
  /-- RING_CTL_WRITE (R202). -/
  | ringCtlWrite (fn ring : Nat) (v : Word)
  /-- RING_HEAD_WRITE (R202). -/
  | ringHeadWrite (fn ring : Nat) (v : Word)
  /-- RING_BASE_WRITE (R202). -/
  | ringBaseWrite (fn ring : Nat) (hi : Bool) (v : Word)
  /-- FAULTACK_RETRY (R206). -/
  | faultackRetry (fn token : Nat)
  /-- FAULTACK_FAIL (R206). -/
  | faultackFail (fn token : Nat)
  /-- DBG_RESUME (R232). -/
  | dbgResume (slice : Nat)
  /-- DBG_STEP (R232). -/
  | dbgStep (slice : Nat)
  /-- DBG_DUMP (R233). -/
  | dbgDump (slice : Nat)
  /-- RESUME_ALL (R232). -/
  | dbgResumeAll (slice : Nat)
  /-- DUMP_TIMEOUT (R233). -/
  | dumpTimeout (gid : Nat)
  /-- EVSEL_WRITE (R240). -/
  | evselWrite (slice k : Nat) (v : Word)
  /-- ALLOW_WRITE (R240). -/
  | allowWrite (slice : Nat) (mode : Bool) (w : Nat) (v : Word)
  /-- BAD_TYPE (R83). -/
  | pktBadType (slice k : Nat)
  /-- RDMA_INBOUND (R38). -/
  | rdmaInbound (slice : Nat) (r : RdmaOp)
  deriving DecidableEq, Repr

end Sys2Proof
end

