-- ==== Sys2Proof/Machine/Form.lean ====
section
/-! DEFINITION. The opcode map (R266 to R278, R317, R318): one View a row, giving the encoding fields, the issue slot
(R123), the price (R126), the latency class (R273), the operand codes of R270 and the KIND of the logbook entry the form
creates (R181). Decoding, encoding, the checks of R278 and the issue of an instruction all read this one table. -/

namespace Sys2Proof.Machine

/-- The layouts of R268 and R269; `event` is no instruction word. -/
inductive Lay where
  | h16 | ri | rg | mo | mr | ma | cb | cs | event
  deriving DecidableEq, Repr

/-- The latency classes of R273. -/
inductive Lat where
  | f | v | n
  deriving DecidableEq, Repr

/-- The operand codes of R270; `k5` is the lane constant of xmov.sv, `vk k` covers v(field) to v(field + k). -/
inductive Opd where
  | z | v | vk (k : Nat) | vk4 (k : Nat) | vp | vq | s | sp | p | a | ap | sap | k6 | k5
  deriving DecidableEq, Repr

/-- What the map says of one instruction word, its fields as numbers. -/
structure View where
  lay : Lay := .event
  op : Nat := 0
  slot : Slot := .c
  tk : Nat := 0
  lat : Lat := .n
  dk : Opd := .z
  ak : Opd := .z
  bk : Opd := .z
  /-- How many registers from D are written. -/
  dw : Nat := 0
  /-- The registers read from D: first offset and count. -/
  dr : Nat × Nat := (0, 0)
  d : Nat := 0
  a : Nat := 0
  b : Nat := 0
  x : Nat := 0
  w : Nat := 0
  stop : Bool := false
  sc : Nat := 0
  o : Nat := 0
  /-- IMM16 of RI, OFF of MO, OFFSET of CB, as encoded. -/
  imm : Nat := 0
  n : Bool := false
  p : Nat := 0
  /-- X has a value of the form's list. -/
  xok : Bool := true
  /-- The map requires O = 0 (MA), or P and N zero (CB). -/
  zero : Bool := false
  /-- KIND of the entry the form creates, 0 for none; 3 stands for a store, whose target gives 2 to 5 or 14. -/
  kind : Nat := 0
  deriving DecidableEq, Repr

/-- A price that depends on X (R276). -/
def px (x : BitVec 2) (p0 p1 p2 p3 : Nat) : Nat :=
  if x = 0 then p0 else if x = 1 then p1 else if x = 2 then p2 else p3

/-- The D operand of atom.c (R276, OP5 0x12): cas v+2, incw and decw v+1, add64 an even register and v+3. -/
def atomCOpd (x : BitVec 2) : Opd := if x = 0 then .vk 2 else if x = 3 then .vk4 3 else .vk 1

/-- View of a 16-bit form (R268): D = A = D5, B = B5, W1 stands for W = 0 or 4. -/
def h16 (f : H16) (op tk : Nat) (reads : Bool) : View :=
  { lay := .h16, op := op, slot := .v, tk := tk, lat := .f, dk := .v, bk := .v, dw := 1,
    dr := if reads then (0, 1) else (0, 0), d := f.d.toNat, b := f.b.toNat, w := if f.w then 4 else 0 }

/-- View of an RI form (R271). -/
def ri (f : RI) (op tk : Nat) (reads : Bool) : View :=
  { lay := .ri, op := op, slot := .v, tk := tk, lat := .f, dk := .v, dw := 1,
    dr := if reads then (0, 1) else (0, 0), d := f.d.toNat, w := f.w.toNat, imm := f.i.toNat }

/-- View of a form of layout RG, MR or CS. -/
def rg (f : RG) (lay : Lay) (op : Nat) (xok : Bool) (slot : Slot) (tk : Nat) (lat : Lat) (dk ak bk : Opd)
    (dw : Nat) (dr : Nat × Nat) (kind : Nat) : View :=
  { lay := lay, op := op, slot := slot, tk := tk, lat := lat, dk := dk, ak := ak, bk := bk, dw := dw, dr := dr,
    d := f.d.toNat, a := f.a.toNat, b := f.b.toNat, x := f.x.toNat, w := f.w.toNat, stop := f.s, xok := xok,
    kind := kind }

/-- View of a form of layout MO. -/
def mo (f : MO) (op tk : Nat) (lat : Lat) (dk ak : Opd) (dw : Nat) (dr : Nat × Nat) (kind : Nat) : View :=
  { lay := .mo, op := op, slot := .m, tk := tk, lat := lat, dk := dk, ak := ak, dw := dw, dr := dr,
    d := f.d.toNat, a := f.a.toNat, w := f.w.toNat, stop := f.s, imm := f.off.toNat, kind := kind }

/-- View of a form of layout MA. -/
def ma (f : MA) (op : Nat) (xok : Bool) (tk : Nat) (lat : Lat) (dk ak : Opd) (dw : Nat) (dr : Nat × Nat)
    (kind : Nat) (oz : Bool) : View :=
  { lay := .ma, op := op, slot := .m, tk := tk, lat := lat, dk := dk, ak := ak, dw := dw, dr := dr,
    d := f.d.toNat, a := f.a.toNat, x := f.x.toNat, w := f.w.toNat, stop := f.s, sc := f.sc.toNat, o := f.o.toNat,
    xok := xok, zero := oz, kind := kind }

/-- View of a form of layout CB. -/
def cb (f : CB) (op : Nat) (zero : Bool) : View :=
  { lay := .cb, op := op, slot := .c, lat := if op = 4 then .f else .n, w := f.w.toNat, stop := f.s,
    imm := f.off.toNat, n := f.n, p := f.p.toNat, zero := zero }

/-- The 64-bit special registers of R280. -/
def srWide (num : Nat) : Bool :=
  num ≤ 2 || (0x44 ≤ num && num ≤ 0x46) || (0x80 ≤ num && num ≤ 0x83)

/-- The assigned special-register numbers of R280. -/
def srAssigned (num : Nat) : Bool :=
  num ≤ 2 || (8 ≤ num && num ≤ 0xC) || (0x10 ≤ num && num ≤ 0x13) || num == 0x20 || num == 0x21 ||
  (0x30 ≤ num && num ≤ 0x33) || (0x40 ≤ num && num ≤ 0x47) || (0x80 ≤ num && num ≤ 0x83) ||
  (0x100 ≤ num && num ≤ 0x18F)

/-- View of sr.rd and sr.wr: D is decoded by the register's number (R281). -/
def sr (f : RG) (op : Nat) (rd : Bool) : View :=
  let num := f.a.toNat * 64 + f.b.toNat
  let wide := srWide num
  { lay := .cs, op := op, slot := .c, lat := if rd then .v else .n,
    dk := if num = 8 then .v else if wide then .sp else .s, ak := .k6, bk := .k6,
    dw := if rd then (if wide then 2 else 1) else 0,
    dr := if rd then (0, 0) else (0, if wide then 2 else 1),
    d := f.d.toNat, a := f.a.toNat, b := f.b.toNat, x := f.x.toNat, w := f.w.toNat, stop := f.s, xok := f.x == 0 }

/-- The view of an operation or event of the part: no instruction word. -/
def event : View := {}

/-- The opcode map. -/
def view : Instr → View
  | .nopH => { slot := .v, op := 0, lay := .h16 }
  | .mov16 f => h16 f 0 1 false
  | .addI3216 f => h16 f 1 2 true
  | .subI3216 f => h16 f 2 2 true
  | .addF3216 f => h16 f 3 4 true
  | .subF3216 f => h16 f 4 4 true
  | .mulF3216 f => h16 f 5 4 true
  | .maxF3216 f => h16 f 6 4 true
  | .minF3216 f => h16 f 7 4 true
  | .and16 f => h16 f 8 2 true
  | .or16 f => h16 f 9 2 true
  | .xor16 f => h16 f 10 2 true
  | .shl16 f => h16 f 11 2 true
  | .shr16 f => h16 f 12 2 true
  | .mulI3216 f => h16 f 13 2 true
  | .maxI3216 f => h16 f 14 2 true
  | .addF16x216 f => h16 f 15 4 true
  | .movi f => ri f 0 1 false
  | .movhi f => ri f 1 1 true
  | .addiI32 f => ri f 2 2 true
  | .muliI32 f => ri f 3 2 true
  | .andi f => ri f 4 2 true
  | .ori f => ri f 5 2 true
  | .xori f => ri f 6 2 true
  | .shli f => ri f 7 2 true
  | .addiF32 f => ri f 8 4 true
  | .muliF32 f => ri f 9 4 true
  | .moviF16x2 f => ri f 10 1 false
  | .addiF16x2 f => ri f 11 4 true
  | .muliF16x2 f => ri f 12 4 true
  | .addiBf16x2 f => ri f 13 4 true
  | .muliBf16x2 f => ri f 14 4 true
  | .moviF8x4 f => ri f 15 1 false
  | .add f => rg f .rg 0 true .v (px f.x 2 4 4 4) .f .v .v .v 1 (0, 0) 0
  | .sub f => rg f .rg 1 true .v (px f.x 2 4 4 4) .f .v .v .v 1 (0, 0) 0
  | .mul f => rg f .rg 2 true .v (px f.x 2 4 4 4) .f .v .v .v 1 (0, 0) 0
  | .fma f => rg f .rg 3 true .v (px f.x 4 4 4 2) .f .v .v .v 1 (0, 1) 0
  | .minL f => rg f .rg 4 true .v (px f.x 2 2 4 4) .f .v .v .v 1 (0, 0) 0
  | .maxL f => rg f .rg 5 true .v (px f.x 2 2 4 4) .f .v .v .v 1 (0, 0) 0
  | .andL f => rg f .rg 6 (f.x == 0) .v 2 .f .v .v .v 1 (0, 0) 0
  | .orL f => rg f .rg 6 (f.x == 1) .v 2 .f .v .v .v 1 (0, 0) 0
  | .xorL f => rg f .rg 6 (f.x == 2) .v 2 .f .v .v .v 1 (0, 0) 0
  | .andn f => rg f .rg 6 (f.x == 3) .v 2 .f .v .v .v 1 (0, 0) 0
  | .shl f => rg f .rg 7 (f.x == 0) .v 2 .f .v .v .v 1 (0, 0) 0
  | .shr f => rg f .rg 7 (f.x == 1) .v 2 .f .v .v .v 1 (0, 0) 0
  | .sar f => rg f .rg 7 (f.x == 2) .v 2 .f .v .v .v 1 (0, 0) 0
  | .rol f => rg f .rg 7 (f.x == 3) .v 2 .f .v .v .v 1 (0, 0) 0
  | .mulhHi f => rg f .rg 8 (f.x.toNat / 2 == 0) .v 4 .f .v .v .v 1 (0, 0) 0
  | .mulhWide f => rg f .rg 8 (f.x.toNat / 2 == 1) .v 4 .f .vp .v .v 2 (0, 0) 0
  | .rcp f => rg f .rg 9 (f.x == 0) .v 6 .v .v .v .z 1 (0, 0) 0
  | .rsq f => rg f .rg 9 (f.x == 1) .v 6 .v .v .v .z 1 (0, 0) 0
  | .sqrt f => rg f .rg 9 (f.x == 2) .v 6 .v .v .v .z 1 (0, 0) 0
  | .exp2 f => rg f .rg 9 (f.x == 3) .v 6 .v .v .v .z 1 (0, 0) 0
  | .log2 f => rg f .rg 10 (f.x == 0) .v 6 .v .v .v .z 1 (0, 0) 0
  | .sin f => rg f .rg 10 (f.x == 1) .v 6 .v .v .v .z 1 (0, 0) 0
  | .cos f => rg f .rg 10 (f.x == 2) .v 6 .v .v .v .z 1 (0, 0) 0
  | .tanh f => rg f .rg 10 (f.x == 3) .v 6 .v .v .v .z 1 (0, 0) 0
  | .cvt f => rg f .rg 11 true .v 4 .f .v .v .k6 1 (0, 0) 0
  | .pk f => rg f .rg 12 true .v 4 .f .v .v .v 1 (0, 0) 0
  | .upk f => rg f .rg 13 true .v 4 .f .v .v .k6 1 (0, 0) 0
  | .cmpI32 f => rg f .rg 14 true .v 2 .f .p .v .v 1 (0, 0) 0
  | .cmpN32 f => rg f .rg 15 true .v 2 .f .p .v .v 1 (0, 0) 0
  | .cmpF32 f => rg f .rg 16 true .v 4 .f .p .v .v 1 (0, 0) 0
  | .cmpxF32 f => rg f .rg 17 true .v 4 .f .p .v .v 1 (0, 0) 0
  | .sel f => rg f .rg 18 true .v 2 .f .v .v .v 1 (0, 0) 0
  | .dp4 f => rg f .rg 19 true .v 6 .f .v .v .v 1 (0, 1) 0
  | .dp2 f => rg f .rg 20 true .v 6 .f .v .v .v 1 (0, 1) 0
  | .popc f => rg f .rg 21 (f.x == 0) .v 2 .f .v .v .z 1 (0, 0) 0
  | .clz f => rg f .rg 21 (f.x == 1) .v 2 .f .v .v .z 1 (0, 0) 0
  | .brev f => rg f .rg 21 (f.x == 2) .v 2 .f .v .v .z 1 (0, 0) 0
  | .ffs f => rg f .rg 21 (f.x == 3) .v 2 .f .v .v .z 1 (0, 0) 0
  | .bfe f => rg f .rg 22 (f.x.toNat / 2 == 0) .v 2 .f .v .v .v 1 (0, 0) 0
  | .bfi f => rg f .rg 22 (f.x == 2) .v 2 .f .v .v .v 1 (0, 1) 0
  | .perm f => rg f .rg 22 (f.x == 3) .v 2 .f .v .v .v 1 (0, 0) 0
  | .shfl f => rg f .rg 23 true .v 6 .f .v .v .v 1 (0, 0) 0
  | .voteAll f => rg f .rg 24 (f.x == 0) .v 2 .f .p .p .z 1 (0, 0) 0
  | .voteAny f => rg f .rg 24 (f.x == 1) .v 2 .f .p .p .z 1 (0, 0) 0
  | .voteBallot f => rg f .rg 24 (f.x == 2) .v 2 .f .s .p .z 1 (0, 0) 0
  | .voteEq f => rg f .rg 24 (f.x == 3) .v 2 .f .p .v .z 1 (0, 0) 0
  | .gred f => rg f .rg 25 true .v 8 .v .s .v .z 1 (0, 0) 0
  | .xmovVs f => rg f .rg 26 (f.x == 0) .v 2 .f .v .s .z 1 (0, 0) 0
  | .xmovSv f => rg f .rg 26 (f.x == 1) .v 2 .f .s .v .k5 1 (0, 0) 0
  | .xmovVp f => rg f .rg 26 (f.x == 2) .v 2 .f .v .p .z 1 (0, 0) 0
  | .xmovPv f => rg f .rg 26 (f.x == 3) .v 2 .f .p .v .z 1 (0, 0) 0
  | .sadd f => rg f .rg 27 (f.x == 0) .c 0 .f .s .s .s 1 (0, 0) 0
  | .ssub f => rg f .rg 27 (f.x == 1) .c 0 .f .s .s .s 1 (0, 0) 0
  | .smul f => rg f .rg 27 (f.x == 2) .c 0 .f .s .s .s 1 (0, 0) 0
  | .sand f => rg f .rg 27 (f.x == 3) .c 0 .f .s .s .s 1 (0, 0) 0
  | .sor f => rg f .rg 28 (f.x == 0) .c 0 .f .s .s .s 1 (0, 0) 0
  | .sxor f => rg f .rg 28 (f.x == 1) .c 0 .f .s .s .s 1 (0, 0) 0
  | .sshl f => rg f .rg 28 (f.x == 2) .c 0 .f .s .s .s 1 (0, 0) 0
  | .sshr f => rg f .rg 28 (f.x == 3) .c 0 .f .s .s .s 1 (0, 0) 0
  | .scmp f => rg f .rg 29 true .c 0 .f .s .s .s 1 (0, 0) 0
  | .add64 f => rg f .rg 30 (f.x == 0) .c 0 .f .vp .vp .vp 2 (0, 0) 0
  | .sub64 f => rg f .rg 30 (f.x == 1) .c 0 .f .vp .vp .vp 2 (0, 0) 0
  | .sadd64 f => rg f .rg 30 (f.x == 2) .c 0 .f .sp .sp .sp 2 (0, 0) 0
  | .mad64 f => rg f .rg 30 (f.x == 3) .c 0 .f .vp .v .v 2 (0, 2) 0
  | .ldB f => mo f 0 2 .v .v .ap 1 (0, 0) 1
  | .ldBn f => mo f 1 2 .v .v .ap 1 (0, 0) 1
  | .ldH f => mo f 2 2 .v .v .ap 1 (0, 0) 1
  | .ldHn f => mo f 3 2 .v .v .ap 1 (0, 0) 1
  | .ldW f => mo f 4 2 .v .v .ap 1 (0, 0) 1
  | .ldD f => mo f 5 3 .v .vp .ap 2 (0, 0) 1
  | .ldQ f => mo f 6 4 .v .vq .ap 4 (0, 0) 1
  | .stB f => mo f 7 2 .n .v .ap 0 (0, 1) 3
  | .stH f => mo f 8 2 .n .v .ap 0 (0, 1) 3
  | .stW f => mo f 9 2 .n .v .ap 0 (0, 1) 3
  | .stD f => mo f 10 3 .n .vp .ap 0 (0, 2) 3
  | .stQ f => mo f 11 4 .n .vq .ap 0 (0, 4) 3
  | .ldsW f => mo f 12 2 .v .s .sap 1 (0, 0) 1
  | .ldsD f => mo f 13 3 .v .sp .sap 2 (0, 0) 1
  | .stsW f => mo f 14 2 .n .s .sap 0 (0, 1) 3
  | .pf f => mo f 15 2 .n .k6 .ap 0 (0, 0) 0
  | .atomA f => ma f 16 true 4 .v (.vk 1) .ap 1 (1, 1) 6 false
  | .atomB f => ma f 17 true 4 .v (.vk 1) .ap 1 (1, 1) 6 false
  | .atomC f => ma f 18 true 4 .v (atomCOpd f.x) .ap (if f.x = 3 then 2 else 1) (if f.x = 0 then (1, 2) else if f.x = 3 then (2, 2) else (1, 1)) 6 false
  | .red f => ma f 19 true 4 .n .v .ap 0 (0, 1) 6 false
  | .fence f => ma f 20 true 1 .n .z .z 0 (0, 0) 0 true
  | .phaseClose f => ma f 21 (f.x == 0) 1 .n .z .z 0 (0, 0) 7 true
  | .phaseOpen f => ma f 21 (f.x == 1) 1 .n .z .z 0 (0, 0) 0 true
  | .phaseCycle f => ma f 21 (f.x == 2) 1 .n .z .z 0 (0, 0) 7 true
  | .phaseTest f => ma f 21 (f.x == 3) 1 .v .p .z 1 (0, 0) 0 true
  | .barArrive f => ma f 22 (f.x == 0) 1 .v .s .ap 1 (0, 0) 8 false
  | .barWait f => ma f 22 (f.x == 1) 1 .n .s .ap 0 (0, 1) 0 false
  | .barArriveWait f => ma f 22 (f.x == 2) 1 .n .z .ap 0 (0, 0) 8 false
  | .barCount f => ma f 22 (f.x == 3) 1 .v .s .ap 1 (0, 0) 0 false
  | .arrArrive f => rg f .mr 23 (f.x == 0) .m 1 .n .v .ap .z 0 (0, 1) 8
  | .arrExpect f => rg f .mr 23 (f.x == 1) .m 1 .n .v .ap .z 0 (0, 1) 8
  | .arrTest f => rg f .mr 23 (f.x == 2) .m 1 .v .p .ap .s 1 (0, 0) 0
  | .arrWait f => rg f .mr 23 (f.x == 3) .m 1 .n .s .ap .sp 0 (0, 1) 0
  | .cpIssue f => rg f .mr 24 (f.x == 0) .m 2 .v .sp .ap .s 2 (0, 0) 9
  | .cpIssue2d f => rg f .mr 24 (f.x == 1) .m 2 .v .sp .ap .s 2 (0, 0) 9
  | .cpRekey f => rg f .mr 24 (f.x == 2) .m 2 .v .sp .ap .s 2 (0, 0) 0
  | .cpCancel f => rg f .mr 24 (f.x == 3) .m 2 .v .sp .ap .s 2 (0, 0) 0
  | .stMc f => ma f 25 (f.x == 0) 4 .n .v .ap 0 (0, 1) 14 true
  | .ldRedAddF32 f => ma f 25 (f.x == 1) 4 .v .v .ap 1 (0, 0) 1 true
  | .ldRedAddBf16 f => ma f 25 (f.x == 2) 4 .v .v .ap 1 (0, 0) 1 true
  | .ldRedMaxF32 f => ma f 25 (f.x == 3) 4 .v .v .ap 1 (0, 0) 1 true
  | .cntAdd f => ma f 26 (f.x == 0) 1 .n .sp .ap 0 (0, 2) 8 true
  | .cntRd f => ma f 26 (f.x == 1) 1 .v .sp .ap 2 (0, 0) 1 true
  | .cntWait f => ma f 26 (f.x == 2) 1 .n .sp .ap 0 (0, 2) 0 true
  | .cntTest f => ma f 26 (f.x == 3) 1 .v .sp .ap 2 (0, 2) 0 true
  | .tileTld f => rg f .mr 27 (f.x == 0) .m 4 .v .a .ap .s 1 (0, 0) 12
  | .tileTst f => rg f .mr 27 (f.x == 1) .m 4 .v .a .ap .s 0 (0, 1) 12
  | .tileTzero f => rg f .mr 27 (f.x == 2) .m 2 .v .a .z .z 1 (0, 0) 0
  | .tileTcvt f => rg f .mr 27 (f.x == 3) .m 4 .v .a .ap .s 0 (0, 1) 0
  | .mmaIssueCore f => rg f .mr 28 (f.x == 0) .m 2 .n .a .ap .z 0 (0, 1) 12
  | .mmaIssueCl f => rg f .mr 28 (f.x == 1) .m 2 .n .a .ap .z 0 (0, 4) 12
  | .mmaWait f => rg f .mr 28 (f.x == 2) .m 1 .n .a .z .z 0 (0, 1) 0
  | .mmaFence f => rg f .mr 28 (f.x == 3) .m 1 .n .z .z .k6 0 (0, 0) 0
  | .collIssue f => rg f .mr 29 (f.x == 0) .m 2 .v .sp .ap .z 2 (0, 0) 11
  | .collWait f => rg f .mr 29 (f.x == 1) .m 2 .n .z .ap .z 0 (0, 0) 0
  | .collTest f => rg f .mr 29 (f.x == 2) .m 2 .v .p .ap .z 1 (0, 0) 0
  | .collSignal f => rg f .mr 29 (f.x == 3) .m 2 .n .z .ap .s 0 (0, 0) 11
  | .contEmit f => rg f .mr 30 (f.x == 0) .m 2 .n (.vk 13) .sap .z 0 (0, 14) 13
  | .contFlush f => rg f .mr 30 (f.x == 1) .m 2 .n .z .z .z 0 (0, 0) 0
  | .bra f => cb f 0 true
  | .brP f => cb f 1 false
  | .brAny f => cb f 2 false
  | .brAll f => cb f 3 false
  | .call f => cb f 4 true
  | .ret f => rg f .cs 5 (f.x == 0) .c 0 .n .z .z .z 0 (0, 0) 0
  | .jmpR f => rg f .cs 6 (f.x == 0) .c 0 .n .z .sp .z 0 (0, 0) 0
  | .rcv f => rg f .cs 7 (f.x == 0) .c 0 .n .z .z .z 0 (0, 0) 0
  | .yieldSplit f => rg f .cs 7 (f.x == 1) .c 0 .n .z .z .z 0 (0, 0) 0
  | .resync f => rg f .cs 7 (f.x == 2) .c 0 .n .z .z .z 0 (0, 0) 0
  | .exitLanes f => rg f .cs 8 (f.x == 0) .c 0 .n .z .z .z 0 (0, 0) 0
  | .swTrap f => rg f .cs 9 (f.x == 0) .c 0 .n .z .z .z 0 (0, 0) 0
  | .sleepUntil f => rg f .cs 10 (f.x == 0) .c 0 .n .z .sp .z 0 (0, 0) 0
  | .sleepNs f => rg f .cs 10 (f.x == 1) .c 0 .n .z .sp .z 0 (0, 0) 0
  | .sleepYield f => rg f .cs 10 (f.x == 2) .c 0 .n .z .z .z 0 (0, 0) 0
  | .srRd f => sr f 11 true
  | .srWr f => sr f 12 false
  | .ctrRd f => rg f .cs 13 (f.x == 0) .c 0 .v .sp .k6 .k6 2 (0, 0) 0
  | .ctrStart f => rg f .cs 13 (f.x == 1) .c 0 .n .z .k6 .k6 0 (0, 0) 0
  | .ctrStop f => rg f .cs 13 (f.x == 2) .c 0 .n .z .k6 .k6 0 (0, 0) 0
  | .ctrMark f => rg f .cs 13 (f.x == 3) .c 0 .n .s .z .z 0 (0, 1) 0
  | .brk f => rg f .cs 14 (f.x == 0) .c 0 .n .z .z .z 0 (0, 0) 0
  | .boostClaim f => rg f .cs 15 (f.x == 0) .c 0 .n .z .z .z 0 (0, 0) 0
  | .boostRelease f => rg f .cs 15 (f.x == 1) .c 0 .n .z .z .z 0 (0, 0) 0
  | .boostQuery f => rg f .cs 15 (f.x == 2) .c 0 .v .s .z .z 1 (0, 0) 0
  | .rfe f => rg f .cs 16 (f.x == 0) .c 0 .n .z .z .z 0 (0, 0) 0
  | .nop f => rg f .cs 17 (f.x == 0) .c 0 .n .z .z .z 0 (0, 0) 0
  | .nopWaitsb f => rg f .cs 17 (f.x == 1) .c 0 .n .z .z .z 0 (0, 0) 0
  | .maskRd f => rg f .cs 18 (f.x == 0) .c 0 .f .s .z .z 1 (0, 0) 0
  | .maskWr f => rg f .cs 18 (f.x == 1) .c 0 .f .z .s .z 0 (0, 0) 0
  | .pand f => rg f .cs 19 (f.x == 0) .c 0 .f .p .p .p 1 (0, 0) 0
  | .por f => rg f .cs 19 (f.x == 1) .c 0 .f .p .p .p 1 (0, 0) 0
  | .pxor f => rg f .cs 19 (f.x == 2) .c 0 .f .p .p .p 1 (0, 0) 0
  | .pnot f => rg f .cs 19 (f.x == 3) .c 0 .f .p .p .z 1 (0, 0) 0
  | .chartSel f => rg f .cs 20 (f.x == 0) .c 0 .v .sp .s .s 2 (0, 0) 0
  | .chartRd f => rg f .cs 20 (f.x == 1) .c 0 .v .s .s .s 1 (0, 0) 0
  | .pfRegisterWrite _ _ => event
  | .counterLoRead _ _ => event
  | .counterHiRead _ _ => event
  | .pwrctlWrite _ _ => event
  | .hostStateTransitionDone _ => event
  | .vfChangeDone _ => event
  | .l2waydisWrite _ _ => event
  | .l2WayDisableDone _ => event
  | .boostRise _ => event
  | .permitDebit _ => event
  | .fallToNominal _ => event
  | .fallComplete _ => event
  | .permitRefill _ => event
  | .currentSlopeTick _ => event
  | .thermUpdate _ _ => event
  | .thermWrite _ _ => event
  | .powerCapTick _ => event
  | .meridianRefill _ => event
  | .bar2Access _ _ _ _ _ => event
  | .vfWindowAccess _ _ _ _ => event
  | .pferrWrite _ => event
  | .tdiStop _ => event
  | .vfTlpReceive _ _ _ _ => event
  | .ptpCorrection _ _ => event
  | .ptpLockLoss _ => event
  | .fabricMeterTick => event
  | .fabricPacketSend _ _ => event
  | .inboundPeerRequest _ => event
  | .peerResponse _ _ => event
  | .peerTimeout _ => event
  | .mcjoinWrite _ _ _ _ => event
  | .collTileLand _ _ _ => event
  | .ucieRetrain _ _ _ => event
  | .ucieFlitFail _ _ => event
  | .createSlice _ => event
  | .activateSlice _ => event
  | .activateDone _ => event
  | .dissolveSlice _ => event
  | .dissolveDone _ => event
  | .deckleWrite _ _ _ => event
  | .assignFrame _ _ => event
  | .rekeyFrame _ _ => event
  | .releaseFrame _ => event
  | .queryFrame _ => event
  | .owncmdDone => event
  | .bwWindow _ _ => event
  | .hbmThermalLevelChange _ _ => event
  | .functionLevelReset _ => event
  | .flrComplete _ => event
  | .vfEnableClear => event
  | .vfEnableSet _ => event
  | .getVersion _ => event
  | .getCapabilities _ => event
  | .negotiateAlgorithms _ => event
  | .getDigests _ => event
  | .getCertificate _ _ _ _ => event
  | .spdmChallenge _ _ _ => event
  | .getMeasurements _ _ => event
  | .keyExchange _ _ _ => event
  | .spdmFinish _ => event
  | .spdmHeartbeat _ => event
  | .spdmEndSession _ => event
  | .ideKm _ _ => event
  | .tdispMessage _ _ => event
  | .getExportKey _ _ => event
  | .setImportKey _ _ => event
  | .moduleReset => event
  | .fwloadWrite _ => event
  | .qtabCtlWrite _ _ _ => event
  | .pktLaunch _ _ => event
  | .pktCopy _ _ => event
  | .pktCopy2d _ _ => event
  | .pktColl _ _ => event
  | .pktCwait _ _ => event
  | .pktCadd _ _ => event
  | .pktMarker _ _ => event
  | .pktRegion _ _ => event
  | .wgDeal _ _ => event
  | .wgResident _ => event
  | .copyPieceStart _ _ => event
  | .copyPieceLand _ _ => event
  | .patrolScrub _ _ => event
  | .dkill _ _ => event
  | .killComplete _ => event
  | .strikeReport _ _ => event
  | .strikeResume _ _ => event
  | .engineCompareMismatch _ _ => event
  | .correctedError _ _ _ _ _ => event
  | .repairDone _ => event
  | .bankRetire _ _ => event
  | .infieldTestStart _ => event
  | .infieldTestDone _ _ => event
  | .slotIssue _ _ _ => event
  | .starvationFlag _ _ => event
  | .clusterIdle _ _ => event
  | .admissionGrant _ => event
  | .binForm _ _ => event
  | .gatheredResident _ _ => event
  | .evictFor _ _ => event
  | .groupRestore _ => event
  | .switchTick _ => event
  | .tickSaveDeadline _ => event
  | .ladderGraceExpiry _ => event
  | .ladderKillExpiry _ => event
  | .i2DrainTimeout _ => event
  | .freezeComplete _ => event
  | .quiesce _ => event
  | .quiesceDone _ => event
  | .exportReam _ => event
  | .importReam _ => event
  | .migResume _ => event
  | .reshape _ => event
  | .mergeSlices _ _ => event
  | .splitSlice _ _ => event
  | .splitMerge _ => event
  | .groupSave _ => event
  | .groupRetire _ => event
  | .entryComplete _ _ => event
  | .i1HomeRequest _ _ _ => event
  | .scrubDone _ => event
  | .pageWalk _ _ _ => event
  | .tlbinvStart _ _ => event
  | .tlbinvDone _ _ => event
  | .ringCtlWrite _ _ _ => event
  | .ringHeadWrite _ _ _ => event
  | .ringBaseWrite _ _ _ _ => event
  | .reportGrant => event
  | .faultackRetry _ _ => event
  | .faultackFail _ _ => event
  | .dbgResume _ => event
  | .dbgStep _ => event
  | .dbgDump _ => event
  | .dbgResumeAll _ => event
  | .dumpTimeout _ => event
  | .evselWrite _ _ _ => event
  | .allowWrite _ _ _ _ => event
  | .waitWake _ _ => event
  | .promiseDeadline _ _ => event
  | .sleepDeadline _ _ => event
  | .mmaOpStart _ => event
  | .arrayTileWrite _ _ => event
  | .pktBadType _ _ => event
  | .rdmaInbound _ _ => event

/-! ## The checks of R270, R271, R277 and R278

A check gives the DETAIL of its failure; of several failures the lowest is reported. -/

/-- The lower of two DETAIL values, where 0 stands for no failure. -/
def lowDetail (a b : Nat) : Nat := if a = 0 then b else if b = 0 then a else min a b

/-- The lowest DETAIL of a list. -/
def lowOf (l : List Nat) : Nat := l.foldr lowDetail 0

/-- DETAIL d when the condition fails. -/
def need (c : Bool) (d : Nat) : Nat := if c then 0 else d

/-- R270, the part that the opcode map fixes: the reserved bits of one field. -/
def opdFixed (k : Opd) (f : Nat) : Nat :=
  match k with
  | .z => need (f == 0) 2
  | .s | .sp | .k5 => need (f < 32) 2
  | .p | .a => need (f < 8) 2
  | .sap => need (f % 2 == 1) 1
  | .v | .vk _ | .vk4 _ | .vp | .vq | .ap | .k6 => 0

/-- R270, the part that depends on the register number and on REGS. -/
def opdRegs (k : Opd) (regs f : Nat) : Nat :=
  match k with
  | .v => need (f < regs) 3
  | .vk k => need (f + k < regs) 3
  | .vk4 k => lowDetail (need (f + k < regs) 3) (need (f % 2 == 0) 4)
  | .vp => lowDetail (need (f + 1 < regs) 3) (need (f % 2 == 0) 4)
  | .vq => lowDetail (need (f + 3 < regs) 3) (need (f % 4 == 0) 4)
  | .sp => need (f % 2 == 0) 4
  | .ap => if f % 2 = 0 then need (f + 1 < regs) 3 else need (f / 2 % 2 == 0) 4
  | .sap => need (f / 2 % 2 == 0) 4
  | .z | .s | .p | .a | .k6 | .k5 => 0

/-- The fixed fields of a word: X, the fields marked 0, O, SC, P and N (R276, R278). -/
def fixedDetail (v : View) : Nat :=
  lowOf [need v.xok 1, opdFixed v.dk v.d, opdFixed v.ak v.a, opdFixed v.bk v.b,
    (if v.lay = .ma then lowDetail (need (v.sc ≤ 10) 1) (need (!v.zero || v.o == 0) 2) else 0),
    (if v.lay = .cb then need (!v.zero || (v.p == 0 && !v.n)) 2 else 0)]

/-- The values beyond the limits the map gives an operand: shli, cvt, upk, pf, mma.fence, sr and ctr (R271, R276 to R278,
R388, R389). -/
def limitDetail : Instr → Nat
  | .shli f => need (f.i.toNat < 32) 2
  | .cvt f =>
    let s := f.b.toNat / 8
    let d := f.b.toNat % 8
    need (s != d && !(s < 2 && d < 2)) 1
  | .upk f => need (f.b.toNat ≤ (if f.x.toNat < 2 then 1 else 3)) 2
  | .pf f => need (f.d.toNat == 1 || f.d.toNat == 2) 2
  | .mmaFence f => need (f.b.toNat ≤ 10) 1
  | .srRd f => need (srAssigned (f.a.toNat * 64 + f.b.toNat)) 1
  | .srWr f => need (srAssigned (f.a.toNat * 64 + f.b.toNat)) 1
  | .ctrRd f => need (f.a.toNat * 64 + f.b.toNat ≤ 255) 1
  | .ctrStart f =>
    let e := f.a.toNat * 64 + f.b.toNat
    lowDetail (need (e ≤ 255) 1) (need (32 ≤ e) 2)
  | .ctrStop f =>
    let e := f.a.toNat * 64 + f.b.toNat
    lowDetail (need (e ≤ 255) 1) (need (32 ≤ e) 2)
  | _ => 0

/-- The register checks of R270 for a kernel of REGS lane registers. -/
def regsDetail (v : View) (regs : Nat) : Nat :=
  lowOf [opdRegs v.dk regs v.d, opdRegs v.ak regs v.a, opdRegs v.bk regs v.b]

/-- The DETAIL with which an instruction raises ILLEGAL before anything else, 0 for none (R278). -/
def illegalDetail (i : Instr) (regs : Nat) : Nat :=
  lowOf [fixedDetail (view i), limitDetail i, regsDetail (view i) regs]

/-! ## Registers named by a word

A register is numbered for the scoreboard: v n is n, s n is 64 + n, p n is 96 + n, a n is 104 + n. -/

/-- The first number of the register file that an operand code names. -/
def opdBase : Opd → Nat
  | .s | .sp => 64
  | .p => 96
  | .a => 104
  | _ => 0

/-- k numbers from n. -/
def span (n k : Nat) : List Nat := (List.range k).map (n + ·)

/-- The registers that a source operand names. -/
def opdReads (k : Opd) (f : Nat) : List Nat :=
  match k with
  | .v => [f]
  | .vp => span f 2
  | .vq => span f 4
  | .vk n => span f (n + 1)
  | .vk4 n => span f (n + 1)
  | .s => [64 + f]
  | .sp => span (64 + f) 2
  | .p => [96 + f]
  | .a => [104 + f]
  | .ap | .sap => if f % 2 = 0 then span f 2 else span (64 + f / 2) 2
  | .z | .k6 | .k5 => []

/-- The registers an instruction reads (R273), p7 among them, which never changes. -/
def readsOf (i : Instr) : List Nat :=
  let v := view i
  span (opdBase v.dk + v.d + v.dr.1) v.dr.2 ++ opdReads v.ak v.a ++ opdReads v.bk v.b ++
    (match i with
     | .brP f | .brAny f | .brAll f => [96 + f.p.toNat]
     | .sel f => [96 + f.x.toNat]
     | .ret _ => [94, 95]
     | _ => [])

/-- The registers an instruction writes. -/
def writesOf (i : Instr) : List Nat :=
  let v := view i
  span (opdBase v.dk + v.d) v.dw ++ (match i with | .call _ => [94, 95] | _ => [])

end Sys2Proof.Machine
end

