-- ==== Sys2Proof/WellFormed.lean ====
section
/-! DEFINITION. Well-formed instructions: every fixed field of the row holds its fixed value (R278), the halfword of mov is
not the halfword of nop.h (R268), and the indices of an operation of the part name a unit that the module has (R8, R9, R33). -/

namespace Sys2Proof

/-- Well-formedness of one instruction or operation. -/
def Instr.wf : Instr → Bool
  | .pfRegisterWrite _ _ => true
  | .counterLoRead fn _ => fn ≤ 16
  | .counterHiRead fn _ => fn ≤ 16
  | .pwrctlWrite die _ => die < 4
  | .hostStateTransitionDone die => die < 4
  | .vfChangeDone die => die < 4
  | .l2waydisWrite die _ => die < 4
  | .l2WayDisableDone die => die < 4
  | .boostRise die => die < 4
  | .permitDebit die => die < 4
  | .fallToNominal die => die < 4
  | .fallComplete die => die < 4
  | .permitRefill die => die < 4
  | .currentSlopeTick die => die < 4
  | .thermUpdate die _ => die < 4
  | .thermWrite die _ => die < 4
  | .powerCapTick watts => watts < 4096
  | .meridianRefill die => die < 4
  | .bar2Access _ _ _ _ _ => true
  | .vfWindowAccess slice _ _ _ => slice < 16
  | .pferrWrite _ => true
  | .tdiStop vf => 1 ≤ vf && vf ≤ 16
  | .vfTlpReceive vf _ _ _ => 1 ≤ vf && vf ≤ 16
  | .ptpCorrection _ _ => true
  | .ptpLockLoss port => port < 8
  | .fabricMeterTick => true
  | .fabricPacketSend slice _ => slice < 16
  | .inboundPeerRequest _ => true
  | .peerResponse _ _ => true
  | .peerTimeout _ => true
  | .mcjoinWrite slice entry word _ => slice < 16 && entry < 64 && word < 4
  | .collTileLand die _ _ => die < 4
  | .ucieRetrain pair module _ => pair < 8 && module < 20
  | .ucieFlitFail pair _ => pair < 8
  | .createSlice slice => slice < 16
  | .activateSlice slice => slice < 16
  | .activateDone slice => slice < 16
  | .dissolveSlice slice => slice < 16
  | .dissolveDone slice => slice < 16
  | .deckleWrite slice _ _ => slice < 16
  | .assignFrame frame owner => frame < 8388608 && owner < 32
  | .rekeyFrame frame owner => frame < 8388608 && owner < 32
  | .releaseFrame frame => frame < 8388608
  | .queryFrame frame => frame < 8388608
  | .owncmdDone => true
  | .bwWindow stack _ => stack < 8
  | .hbmThermalLevelChange stack _ => stack < 8
  | .functionLevelReset vf => 1 ≤ vf && vf ≤ 16
  | .flrComplete vf => 1 ≤ vf && vf ≤ 16
  | .vfEnableClear => true
  | .vfEnableSet num => num ≤ 16
  | .getVersion fn => fn ≤ 16
  | .getCapabilities fn => fn ≤ 16
  | .negotiateAlgorithms fn => fn ≤ 16
  | .getDigests fn => fn ≤ 16
  | .getCertificate fn _ _ _ => fn ≤ 16
  | .spdmChallenge fn _ _ => fn ≤ 16
  | .getMeasurements fn _ => fn ≤ 16
  | .keyExchange fn _ _ => fn ≤ 16
  | .spdmFinish fn => fn ≤ 16
  | .spdmHeartbeat fn => fn ≤ 16
  | .spdmEndSession fn => fn ≤ 16
  | .ideKm fn _ => fn ≤ 16
  | .tdispMessage fn _ => fn ≤ 16
  | .getExportKey fn _ => fn ≤ 16
  | .setImportKey fn _ => fn ≤ 16
  | .moduleReset => true
  | .fwloadWrite _ => true
  | .qtabCtlWrite slice k _ => slice < 16 && k < 64
  | .pktLaunch slice k => slice < 16 && k < 64
  | .pktCopy slice k => slice < 16 && k < 64
  | .pktCopy2d slice k => slice < 16 && k < 64
  | .pktColl slice k => slice < 16 && k < 64
  | .pktCwait slice k => slice < 16 && k < 64
  | .pktCadd slice k => slice < 16 && k < 64
  | .pktMarker slice k => slice < 16 && k < 64
  | .pktRegion slice k => slice < 16 && k < 64
  | .wgDeal slice _ => slice < 16
  | .wgResident core => core < 144
  | .copyPieceStart die eng => die < 4 && eng < 8
  | .copyPieceLand die eng => die < 4 && eng < 8
  | .patrolScrub (.line n) _ => n < 4294967296
  | .patrolScrub (.spad core w) _ => core < 144 && w < 524288
  | .patrolScrub (.tile core w) _ => core < 144 && w < 98304
  | .patrolScrub (.l1 core w) _ => core < 144 && w < 2 ^ 54
  | .patrolScrub (.l2 w) _ => w < 68719476736
  | .dkill slice _ => slice < 16
  | .killComplete slice => slice < 16
  | .strikeReport die cl => die < 4 && cl < 9
  | .strikeResume die cl => die < 4 && cl < 9
  | .engineCompareMismatch slice eng => slice < 16 && eng < 160
  | .correctedError stack ch bank row col => stack < 8 && ch < 32 && bank < 64 && row < 32768 && col < 32
  | .repairDone stack => stack < 8
  | .bankRetire stack _ => stack < 8
  | .infieldTestStart core => core < 144
  | .infieldTestDone core _ => core < 144
  | .slotIssue core part _ => core < 144 && part < 8
  | .starvationFlag _ _ => true
  | .clusterIdle die cl => die < 4 && cl < 9
  | .admissionGrant die => die < 4
  | .binForm die bin => die < 4 && bin < 36
  | .gatheredResident slice _ => slice < 16
  | .evictFor core _ => core < 144
  | .groupRestore _ => true
  | .switchTick slice => slice < 16
  | .tickSaveDeadline slice => slice < 16
  | .ladderGraceExpiry slice => slice < 16
  | .ladderKillExpiry slice => slice < 16
  | .i2DrainTimeout _ => true
  | .freezeComplete _ => true
  | .quiesce slice => slice < 16
  | .quiesceDone slice => slice < 16
  | .exportReam slice => slice < 16
  | .importReam slice => slice < 16
  | .migResume slice => slice < 16
  | .reshape slice => slice < 16
  | .mergeSlices slice peer => slice < 16 && peer < 16
  | .splitSlice slice peer => slice < 16 && peer < 16
  | .splitMerge _ => true
  | .groupSave _ => true
  | .groupRetire _ => true
  | .entryComplete _ ent => ent < 48
  | .i1HomeRequest _ ent lane => ent < 48 && lane < 32
  | .scrubDone core => core < 144
  | .pageWalk core _ _ => core < 144
  | .tlbinvStart slice _ => slice < 16
  | .tlbinvDone slice _ => slice < 16
  | .ringCtlWrite fn ring _ => fn ≤ 16 && ring < 4
  | .ringHeadWrite fn ring _ => fn ≤ 16 && ring < 4
  | .ringBaseWrite fn ring _ _ => fn ≤ 16 && ring < 4
  | .reportGrant => true
  | .faultackRetry fn _ => fn ≤ 16
  | .faultackFail fn _ => fn ≤ 16
  | .dbgResume slice => slice < 16
  | .dbgStep slice => slice < 16
  | .dbgDump slice => slice < 16
  | .dbgResumeAll slice => slice < 16
  | .dumpTimeout _ => true
  | .evselWrite slice k _ => slice < 16 && k < 8
  | .allowWrite slice _ w _ => slice < 16 && w < 8
  | .waitWake _ _ => true
  | .promiseDeadline _ _ => true
  | .sleepDeadline _ _ => true
  | .mmaOpStart core => core < 144
  | .arrayTileWrite core _ => core < 144
  | .nopH => true
  | .mov16 f => f.b != 0 || f.d != 0 || f.w
  | .addI3216 f => Machine.fixedDetail (Machine.view (.addI3216 f)) == 0
  | .subI3216 f => Machine.fixedDetail (Machine.view (.subI3216 f)) == 0
  | .addF3216 f => Machine.fixedDetail (Machine.view (.addF3216 f)) == 0
  | .subF3216 f => Machine.fixedDetail (Machine.view (.subF3216 f)) == 0
  | .mulF3216 f => Machine.fixedDetail (Machine.view (.mulF3216 f)) == 0
  | .maxF3216 f => Machine.fixedDetail (Machine.view (.maxF3216 f)) == 0
  | .minF3216 f => Machine.fixedDetail (Machine.view (.minF3216 f)) == 0
  | .and16 f => Machine.fixedDetail (Machine.view (.and16 f)) == 0
  | .or16 f => Machine.fixedDetail (Machine.view (.or16 f)) == 0
  | .xor16 f => Machine.fixedDetail (Machine.view (.xor16 f)) == 0
  | .shl16 f => Machine.fixedDetail (Machine.view (.shl16 f)) == 0
  | .shr16 f => Machine.fixedDetail (Machine.view (.shr16 f)) == 0
  | .mulI3216 f => Machine.fixedDetail (Machine.view (.mulI3216 f)) == 0
  | .maxI3216 f => Machine.fixedDetail (Machine.view (.maxI3216 f)) == 0
  | .addF16x216 f => Machine.fixedDetail (Machine.view (.addF16x216 f)) == 0
  | .movi f => Machine.fixedDetail (Machine.view (.movi f)) == 0
  | .movhi f => Machine.fixedDetail (Machine.view (.movhi f)) == 0
  | .addiI32 f => Machine.fixedDetail (Machine.view (.addiI32 f)) == 0
  | .muliI32 f => Machine.fixedDetail (Machine.view (.muliI32 f)) == 0
  | .andi f => Machine.fixedDetail (Machine.view (.andi f)) == 0
  | .ori f => Machine.fixedDetail (Machine.view (.ori f)) == 0
  | .xori f => Machine.fixedDetail (Machine.view (.xori f)) == 0
  | .shli f => Machine.fixedDetail (Machine.view (.shli f)) == 0
  | .addiF32 f => Machine.fixedDetail (Machine.view (.addiF32 f)) == 0
  | .muliF32 f => Machine.fixedDetail (Machine.view (.muliF32 f)) == 0
  | .moviF16x2 f => Machine.fixedDetail (Machine.view (.moviF16x2 f)) == 0
  | .addiF16x2 f => Machine.fixedDetail (Machine.view (.addiF16x2 f)) == 0
  | .muliF16x2 f => Machine.fixedDetail (Machine.view (.muliF16x2 f)) == 0
  | .addiBf16x2 f => Machine.fixedDetail (Machine.view (.addiBf16x2 f)) == 0
  | .muliBf16x2 f => Machine.fixedDetail (Machine.view (.muliBf16x2 f)) == 0
  | .moviF8x4 f => Machine.fixedDetail (Machine.view (.moviF8x4 f)) == 0
  | .add f => Machine.fixedDetail (Machine.view (.add f)) == 0
  | .sub f => Machine.fixedDetail (Machine.view (.sub f)) == 0
  | .mul f => Machine.fixedDetail (Machine.view (.mul f)) == 0
  | .fma f => Machine.fixedDetail (Machine.view (.fma f)) == 0
  | .minL f => Machine.fixedDetail (Machine.view (.minL f)) == 0
  | .maxL f => Machine.fixedDetail (Machine.view (.maxL f)) == 0
  | .andL f => Machine.fixedDetail (Machine.view (.andL f)) == 0
  | .orL f => Machine.fixedDetail (Machine.view (.orL f)) == 0
  | .xorL f => Machine.fixedDetail (Machine.view (.xorL f)) == 0
  | .andn f => Machine.fixedDetail (Machine.view (.andn f)) == 0
  | .shl f => Machine.fixedDetail (Machine.view (.shl f)) == 0
  | .shr f => Machine.fixedDetail (Machine.view (.shr f)) == 0
  | .sar f => Machine.fixedDetail (Machine.view (.sar f)) == 0
  | .rol f => Machine.fixedDetail (Machine.view (.rol f)) == 0
  | .mulhHi f => Machine.fixedDetail (Machine.view (.mulhHi f)) == 0
  | .mulhWide f => Machine.fixedDetail (Machine.view (.mulhWide f)) == 0
  | .rcp f => Machine.fixedDetail (Machine.view (.rcp f)) == 0
  | .rsq f => Machine.fixedDetail (Machine.view (.rsq f)) == 0
  | .sqrt f => Machine.fixedDetail (Machine.view (.sqrt f)) == 0
  | .exp2 f => Machine.fixedDetail (Machine.view (.exp2 f)) == 0
  | .log2 f => Machine.fixedDetail (Machine.view (.log2 f)) == 0
  | .sin f => Machine.fixedDetail (Machine.view (.sin f)) == 0
  | .cos f => Machine.fixedDetail (Machine.view (.cos f)) == 0
  | .tanh f => Machine.fixedDetail (Machine.view (.tanh f)) == 0
  | .cvt f => Machine.fixedDetail (Machine.view (.cvt f)) == 0
  | .pk f => Machine.fixedDetail (Machine.view (.pk f)) == 0
  | .upk f => Machine.fixedDetail (Machine.view (.upk f)) == 0
  | .cmpI32 f => Machine.fixedDetail (Machine.view (.cmpI32 f)) == 0
  | .cmpN32 f => Machine.fixedDetail (Machine.view (.cmpN32 f)) == 0
  | .cmpF32 f => Machine.fixedDetail (Machine.view (.cmpF32 f)) == 0
  | .cmpxF32 f => Machine.fixedDetail (Machine.view (.cmpxF32 f)) == 0
  | .sel f => Machine.fixedDetail (Machine.view (.sel f)) == 0
  | .dp4 f => Machine.fixedDetail (Machine.view (.dp4 f)) == 0
  | .dp2 f => Machine.fixedDetail (Machine.view (.dp2 f)) == 0
  | .popc f => Machine.fixedDetail (Machine.view (.popc f)) == 0
  | .clz f => Machine.fixedDetail (Machine.view (.clz f)) == 0
  | .brev f => Machine.fixedDetail (Machine.view (.brev f)) == 0
  | .ffs f => Machine.fixedDetail (Machine.view (.ffs f)) == 0
  | .bfe f => Machine.fixedDetail (Machine.view (.bfe f)) == 0
  | .bfi f => Machine.fixedDetail (Machine.view (.bfi f)) == 0
  | .perm f => Machine.fixedDetail (Machine.view (.perm f)) == 0
  | .shfl f => Machine.fixedDetail (Machine.view (.shfl f)) == 0
  | .voteAll f => Machine.fixedDetail (Machine.view (.voteAll f)) == 0
  | .voteAny f => Machine.fixedDetail (Machine.view (.voteAny f)) == 0
  | .voteBallot f => Machine.fixedDetail (Machine.view (.voteBallot f)) == 0
  | .voteEq f => Machine.fixedDetail (Machine.view (.voteEq f)) == 0
  | .gred f => Machine.fixedDetail (Machine.view (.gred f)) == 0
  | .xmovVs f => Machine.fixedDetail (Machine.view (.xmovVs f)) == 0
  | .xmovSv f => Machine.fixedDetail (Machine.view (.xmovSv f)) == 0
  | .xmovVp f => Machine.fixedDetail (Machine.view (.xmovVp f)) == 0
  | .xmovPv f => Machine.fixedDetail (Machine.view (.xmovPv f)) == 0
  | .sadd f => Machine.fixedDetail (Machine.view (.sadd f)) == 0
  | .ssub f => Machine.fixedDetail (Machine.view (.ssub f)) == 0
  | .smul f => Machine.fixedDetail (Machine.view (.smul f)) == 0
  | .sand f => Machine.fixedDetail (Machine.view (.sand f)) == 0
  | .sor f => Machine.fixedDetail (Machine.view (.sor f)) == 0
  | .sxor f => Machine.fixedDetail (Machine.view (.sxor f)) == 0
  | .sshl f => Machine.fixedDetail (Machine.view (.sshl f)) == 0
  | .sshr f => Machine.fixedDetail (Machine.view (.sshr f)) == 0
  | .scmp f => Machine.fixedDetail (Machine.view (.scmp f)) == 0
  | .add64 f => Machine.fixedDetail (Machine.view (.add64 f)) == 0
  | .sub64 f => Machine.fixedDetail (Machine.view (.sub64 f)) == 0
  | .sadd64 f => Machine.fixedDetail (Machine.view (.sadd64 f)) == 0
  | .mad64 f => Machine.fixedDetail (Machine.view (.mad64 f)) == 0
  | .ldB f => Machine.fixedDetail (Machine.view (.ldB f)) == 0
  | .ldBn f => Machine.fixedDetail (Machine.view (.ldBn f)) == 0
  | .ldH f => Machine.fixedDetail (Machine.view (.ldH f)) == 0
  | .ldHn f => Machine.fixedDetail (Machine.view (.ldHn f)) == 0
  | .ldW f => Machine.fixedDetail (Machine.view (.ldW f)) == 0
  | .ldD f => Machine.fixedDetail (Machine.view (.ldD f)) == 0
  | .ldQ f => Machine.fixedDetail (Machine.view (.ldQ f)) == 0
  | .stB f => Machine.fixedDetail (Machine.view (.stB f)) == 0
  | .stH f => Machine.fixedDetail (Machine.view (.stH f)) == 0
  | .stW f => Machine.fixedDetail (Machine.view (.stW f)) == 0
  | .stD f => Machine.fixedDetail (Machine.view (.stD f)) == 0
  | .stQ f => Machine.fixedDetail (Machine.view (.stQ f)) == 0
  | .ldsW f => Machine.fixedDetail (Machine.view (.ldsW f)) == 0
  | .ldsD f => Machine.fixedDetail (Machine.view (.ldsD f)) == 0
  | .stsW f => Machine.fixedDetail (Machine.view (.stsW f)) == 0
  | .pf f => Machine.fixedDetail (Machine.view (.pf f)) == 0
  | .atomA f => Machine.fixedDetail (Machine.view (.atomA f)) == 0
  | .atomB f => Machine.fixedDetail (Machine.view (.atomB f)) == 0
  | .atomC f => Machine.fixedDetail (Machine.view (.atomC f)) == 0
  | .red f => Machine.fixedDetail (Machine.view (.red f)) == 0
  | .fence f => Machine.fixedDetail (Machine.view (.fence f)) == 0
  | .phaseClose f => Machine.fixedDetail (Machine.view (.phaseClose f)) == 0
  | .phaseOpen f => Machine.fixedDetail (Machine.view (.phaseOpen f)) == 0
  | .phaseCycle f => Machine.fixedDetail (Machine.view (.phaseCycle f)) == 0
  | .phaseTest f => Machine.fixedDetail (Machine.view (.phaseTest f)) == 0
  | .barArrive f => Machine.fixedDetail (Machine.view (.barArrive f)) == 0
  | .barWait f => Machine.fixedDetail (Machine.view (.barWait f)) == 0
  | .barArriveWait f => Machine.fixedDetail (Machine.view (.barArriveWait f)) == 0
  | .barCount f => Machine.fixedDetail (Machine.view (.barCount f)) == 0
  | .arrArrive f => Machine.fixedDetail (Machine.view (.arrArrive f)) == 0
  | .arrExpect f => Machine.fixedDetail (Machine.view (.arrExpect f)) == 0
  | .arrTest f => Machine.fixedDetail (Machine.view (.arrTest f)) == 0
  | .arrWait f => Machine.fixedDetail (Machine.view (.arrWait f)) == 0
  | .cpIssue f => Machine.fixedDetail (Machine.view (.cpIssue f)) == 0
  | .cpIssue2d f => Machine.fixedDetail (Machine.view (.cpIssue2d f)) == 0
  | .cpRekey f => Machine.fixedDetail (Machine.view (.cpRekey f)) == 0
  | .cpCancel f => Machine.fixedDetail (Machine.view (.cpCancel f)) == 0
  | .stMc f => Machine.fixedDetail (Machine.view (.stMc f)) == 0
  | .ldRedAddF32 f => Machine.fixedDetail (Machine.view (.ldRedAddF32 f)) == 0
  | .ldRedAddBf16 f => Machine.fixedDetail (Machine.view (.ldRedAddBf16 f)) == 0
  | .ldRedMaxF32 f => Machine.fixedDetail (Machine.view (.ldRedMaxF32 f)) == 0
  | .cntAdd f => Machine.fixedDetail (Machine.view (.cntAdd f)) == 0
  | .cntRd f => Machine.fixedDetail (Machine.view (.cntRd f)) == 0
  | .cntWait f => Machine.fixedDetail (Machine.view (.cntWait f)) == 0
  | .cntTest f => Machine.fixedDetail (Machine.view (.cntTest f)) == 0
  | .tileTld f => Machine.fixedDetail (Machine.view (.tileTld f)) == 0
  | .tileTst f => Machine.fixedDetail (Machine.view (.tileTst f)) == 0
  | .tileTzero f => Machine.fixedDetail (Machine.view (.tileTzero f)) == 0
  | .tileTcvt f => Machine.fixedDetail (Machine.view (.tileTcvt f)) == 0
  | .mmaIssueCore f => Machine.fixedDetail (Machine.view (.mmaIssueCore f)) == 0
  | .mmaIssueCl f => Machine.fixedDetail (Machine.view (.mmaIssueCl f)) == 0
  | .mmaWait f => Machine.fixedDetail (Machine.view (.mmaWait f)) == 0
  | .mmaFence f => Machine.fixedDetail (Machine.view (.mmaFence f)) == 0
  | .collIssue f => Machine.fixedDetail (Machine.view (.collIssue f)) == 0
  | .collWait f => Machine.fixedDetail (Machine.view (.collWait f)) == 0
  | .collTest f => Machine.fixedDetail (Machine.view (.collTest f)) == 0
  | .collSignal f => Machine.fixedDetail (Machine.view (.collSignal f)) == 0
  | .contEmit f => Machine.fixedDetail (Machine.view (.contEmit f)) == 0
  | .contFlush f => Machine.fixedDetail (Machine.view (.contFlush f)) == 0
  | .bra f => Machine.fixedDetail (Machine.view (.bra f)) == 0
  | .brP f => Machine.fixedDetail (Machine.view (.brP f)) == 0
  | .brAny f => Machine.fixedDetail (Machine.view (.brAny f)) == 0
  | .brAll f => Machine.fixedDetail (Machine.view (.brAll f)) == 0
  | .call f => Machine.fixedDetail (Machine.view (.call f)) == 0
  | .ret f => Machine.fixedDetail (Machine.view (.ret f)) == 0
  | .jmpR f => Machine.fixedDetail (Machine.view (.jmpR f)) == 0
  | .rcv f => Machine.fixedDetail (Machine.view (.rcv f)) == 0
  | .yieldSplit f => Machine.fixedDetail (Machine.view (.yieldSplit f)) == 0
  | .resync f => Machine.fixedDetail (Machine.view (.resync f)) == 0
  | .exitLanes f => Machine.fixedDetail (Machine.view (.exitLanes f)) == 0
  | .swTrap f => Machine.fixedDetail (Machine.view (.swTrap f)) == 0
  | .sleepUntil f => Machine.fixedDetail (Machine.view (.sleepUntil f)) == 0
  | .sleepNs f => Machine.fixedDetail (Machine.view (.sleepNs f)) == 0
  | .sleepYield f => Machine.fixedDetail (Machine.view (.sleepYield f)) == 0
  | .srRd f => Machine.fixedDetail (Machine.view (.srRd f)) == 0
  | .srWr f => Machine.fixedDetail (Machine.view (.srWr f)) == 0
  | .ctrRd f => Machine.fixedDetail (Machine.view (.ctrRd f)) == 0
  | .ctrStart f => Machine.fixedDetail (Machine.view (.ctrStart f)) == 0
  | .ctrStop f => Machine.fixedDetail (Machine.view (.ctrStop f)) == 0
  | .ctrMark f => Machine.fixedDetail (Machine.view (.ctrMark f)) == 0
  | .brk f => Machine.fixedDetail (Machine.view (.brk f)) == 0
  | .boostClaim f => Machine.fixedDetail (Machine.view (.boostClaim f)) == 0
  | .boostRelease f => Machine.fixedDetail (Machine.view (.boostRelease f)) == 0
  | .boostQuery f => Machine.fixedDetail (Machine.view (.boostQuery f)) == 0
  | .rfe f => Machine.fixedDetail (Machine.view (.rfe f)) == 0
  | .nop f => Machine.fixedDetail (Machine.view (.nop f)) == 0
  | .nopWaitsb f => Machine.fixedDetail (Machine.view (.nopWaitsb f)) == 0
  | .maskRd f => Machine.fixedDetail (Machine.view (.maskRd f)) == 0
  | .maskWr f => Machine.fixedDetail (Machine.view (.maskWr f)) == 0
  | .pand f => Machine.fixedDetail (Machine.view (.pand f)) == 0
  | .por f => Machine.fixedDetail (Machine.view (.por f)) == 0
  | .pxor f => Machine.fixedDetail (Machine.view (.pxor f)) == 0
  | .pnot f => Machine.fixedDetail (Machine.view (.pnot f)) == 0
  | .chartSel f => Machine.fixedDetail (Machine.view (.chartSel f)) == 0
  | .chartRd f => Machine.fixedDetail (Machine.view (.chartRd f)) == 0
  | .pktBadType slice k => slice < 16 && k < 64
  | .rdmaInbound slice _ => slice ≤ 16

end Sys2Proof
end

