-- ==== Sys2Proof/Decode.lean ====
section
/-! DEFINITION. The decoder (R266 to R278), total on any bytes, which refuses by name and DETAIL, and the encoder. A word
is a natural number; fields are taken out by division, as the ranges of R268 and R269 give them. -/

namespace Sys2Proof

/-- Why the decoder refuses: too few bytes, or an encoding of R278 with its lowest DETAIL. -/
inductive Reject where
  | truncated
  | illegal (detail : Nat)
  deriving DecidableEq, Repr

namespace Decode

open Machine

/-! ## Fields -/

/-- The fields of a 16-bit form (R268). -/
def h16Of (w : Nat) : H16 := { b := .ofNat 5 (w / 2048), d := .ofNat 5 (w / 64), w := w / 2 % 2 == 1 }

/-- The fields of layout RI (R269). -/
def riOf (w : Nat) : RI := { i := .ofNat 16 (w / 65536), d := .ofNat 6 (w / 1024), w := .ofNat 3 (w / 8) }

/-- The fields of layouts RG, MR and CS (R269). -/
def rgOf (w : Nat) : RG :=
  { b := .ofNat 6 (w / 67108864), a := .ofNat 6 (w / 1048576), d := .ofNat 6 (w / 16384), x := .ofNat 2 (w / 4096),
    w := .ofNat 3 (w / 16), s := w / 8 % 2 == 1 }

/-- The fields of layout MO (R269). -/
def moOf (w : Nat) : MO :=
  { off := .ofNat 8 (w / 16777216), a := .ofNat 6 (w / 262144), d := .ofNat 6 (w / 4096), w := .ofNat 3 (w / 16),
    s := w / 8 % 2 == 1 }

/-- The fields of layout MA (R269). -/
def maOf (w : Nat) : MA :=
  { o := .ofNat 2 (w / 1073741824), a := .ofNat 6 (w / 16777216), d := .ofNat 6 (w / 262144), sc := .ofNat 4 (w / 16384),
    x := .ofNat 2 (w / 4096), w := .ofNat 3 (w / 16), s := w / 8 % 2 == 1 }

/-- The fields of layout CB (R269). -/
def cbOf (w : Nat) : CB :=
  { off := .ofNat 16 (w / 65536), n := w / 32768 % 2 == 1, p := .ofNat 3 (w / 4096), w := .ofNat 3 (w / 16),
    s := w / 8 % 2 == 1 }

/-! ## The opcode map, from numbers to rows (R268, R271, R276) -/

/-- The 16-bit form of each OP4. -/
def h16Row : Nat → H16 → Instr
  | 0 => .mov16
  | 1 => .addI3216
  | 2 => .subI3216
  | 3 => .addF3216
  | 4 => .subF3216
  | 5 => .mulF3216
  | 6 => .maxF3216
  | 7 => .minF3216
  | 8 => .and16
  | 9 => .or16
  | 10 => .xor16
  | 11 => .shl16
  | 12 => .shr16
  | 13 => .mulI3216
  | 14 => .maxI3216
  | _ => .addF16x216

/-- The RI form of each OPT4. -/
def riRow : Nat → RI → Instr
  | 0 => .movi
  | 1 => .movhi
  | 2 => .addiI32
  | 3 => .muliI32
  | 4 => .andi
  | 5 => .ori
  | 6 => .xori
  | 7 => .shli
  | 8 => .addiF32
  | 9 => .muliF32
  | 10 => .moviF16x2
  | 11 => .addiF16x2
  | 12 => .muliF16x2
  | 13 => .addiBf16x2
  | 14 => .muliBf16x2
  | _ => .moviF8x4

/-- The register class by OP5 and X. -/
def rgRow : Nat → Nat → Option (RG → Instr)
  | 0, _ => some .add
  | 1, _ => some .sub
  | 2, _ => some .mul
  | 3, _ => some .fma
  | 4, _ => some .minL
  | 5, _ => some .maxL
  | 6, 0 => some .andL
  | 6, 1 => some .orL
  | 6, 2 => some .xorL
  | 6, 3 => some .andn
  | 7, 0 => some .shl
  | 7, 1 => some .shr
  | 7, 2 => some .sar
  | 7, 3 => some .rol
  | 8, 0 => some .mulhHi
  | 8, 1 => some .mulhHi
  | 8, 2 => some .mulhWide
  | 8, 3 => some .mulhWide
  | 9, 0 => some .rcp
  | 9, 1 => some .rsq
  | 9, 2 => some .sqrt
  | 9, 3 => some .exp2
  | 10, 0 => some .log2
  | 10, 1 => some .sin
  | 10, 2 => some .cos
  | 10, 3 => some .tanh
  | 11, _ => some .cvt
  | 12, _ => some .pk
  | 13, _ => some .upk
  | 14, _ => some .cmpI32
  | 15, _ => some .cmpN32
  | 16, _ => some .cmpF32
  | 17, _ => some .cmpxF32
  | 18, _ => some .sel
  | 19, _ => some .dp4
  | 20, _ => some .dp2
  | 21, 0 => some .popc
  | 21, 1 => some .clz
  | 21, 2 => some .brev
  | 21, 3 => some .ffs
  | 22, 0 => some .bfe
  | 22, 1 => some .bfe
  | 22, 2 => some .bfi
  | 22, 3 => some .perm
  | 23, _ => some .shfl
  | 24, 0 => some .voteAll
  | 24, 1 => some .voteAny
  | 24, 2 => some .voteBallot
  | 24, 3 => some .voteEq
  | 25, _ => some .gred
  | 26, 0 => some .xmovVs
  | 26, 1 => some .xmovSv
  | 26, 2 => some .xmovVp
  | 26, 3 => some .xmovPv
  | 27, 0 => some .sadd
  | 27, 1 => some .ssub
  | 27, 2 => some .smul
  | 27, 3 => some .sand
  | 28, 0 => some .sor
  | 28, 1 => some .sxor
  | 28, 2 => some .sshl
  | 28, 3 => some .sshr
  | 29, _ => some .scmp
  | 30, 0 => some .add64
  | 30, 1 => some .sub64
  | 30, 2 => some .sadd64
  | 30, 3 => some .mad64
  | _, _ => none

/-- The memory-class forms of layout MR by OP5 and X. -/
def mrRow : Nat → Nat → Option (RG → Instr)
  | 23, 0 => some .arrArrive
  | 23, 1 => some .arrExpect
  | 23, 2 => some .arrTest
  | 23, 3 => some .arrWait
  | 24, 0 => some .cpIssue
  | 24, 1 => some .cpIssue2d
  | 24, 2 => some .cpRekey
  | 24, 3 => some .cpCancel
  | 27, 0 => some .tileTld
  | 27, 1 => some .tileTst
  | 27, 2 => some .tileTzero
  | 27, 3 => some .tileTcvt
  | 28, 0 => some .mmaIssueCore
  | 28, 1 => some .mmaIssueCl
  | 28, 2 => some .mmaWait
  | 28, 3 => some .mmaFence
  | 29, 0 => some .collIssue
  | 29, 1 => some .collWait
  | 29, 2 => some .collTest
  | 29, 3 => some .collSignal
  | 30, 0 => some .contEmit
  | 30, 1 => some .contFlush
  | _, _ => none

/-- The memory-class forms of layout MA by OP5 and X. -/
def maRow : Nat → Nat → Option (MA → Instr)
  | 16, _ => some .atomA
  | 17, _ => some .atomB
  | 18, _ => some .atomC
  | 19, _ => some .red
  | 20, _ => some .fence
  | 21, 0 => some .phaseClose
  | 21, 1 => some .phaseOpen
  | 21, 2 => some .phaseCycle
  | 21, 3 => some .phaseTest
  | 22, 0 => some .barArrive
  | 22, 1 => some .barWait
  | 22, 2 => some .barArriveWait
  | 22, 3 => some .barCount
  | 25, 0 => some .stMc
  | 25, 1 => some .ldRedAddF32
  | 25, 2 => some .ldRedAddBf16
  | 25, 3 => some .ldRedMaxF32
  | 26, 0 => some .cntAdd
  | 26, 1 => some .cntRd
  | 26, 2 => some .cntWait
  | 26, 3 => some .cntTest
  | _, _ => none

/-- The control-class forms of layout CS by OP5 and X. -/
def csRow : Nat → Nat → Option (RG → Instr)
  | 5, 0 => some .ret
  | 6, 0 => some .jmpR
  | 7, 0 => some .rcv
  | 7, 1 => some .yieldSplit
  | 7, 2 => some .resync
  | 8, 0 => some .exitLanes
  | 9, 0 => some .swTrap
  | 10, 0 => some .sleepUntil
  | 10, 1 => some .sleepNs
  | 10, 2 => some .sleepYield
  | 11, 0 => some .srRd
  | 12, 0 => some .srWr
  | 13, 0 => some .ctrRd
  | 13, 1 => some .ctrStart
  | 13, 2 => some .ctrStop
  | 13, 3 => some .ctrMark
  | 14, 0 => some .brk
  | 15, 0 => some .boostClaim
  | 15, 1 => some .boostRelease
  | 15, 2 => some .boostQuery
  | 16, 0 => some .rfe
  | 17, 0 => some .nop
  | 17, 1 => some .nopWaitsb
  | 18, 0 => some .maskRd
  | 18, 1 => some .maskWr
  | 19, 0 => some .pand
  | 19, 1 => some .por
  | 19, 2 => some .pxor
  | 19, 3 => some .pnot
  | 20, 0 => some .chartSel
  | 20, 1 => some .chartRd
  | _, _ => none

/-- The memory-class forms of layout MO by OP5. -/
def moRow : Nat → Option (MO → Instr)
  | 0 => some .ldB
  | 1 => some .ldBn
  | 2 => some .ldH
  | 3 => some .ldHn
  | 4 => some .ldW
  | 5 => some .ldD
  | 6 => some .ldQ
  | 7 => some .stB
  | 8 => some .stH
  | 9 => some .stW
  | 10 => some .stD
  | 11 => some .stQ
  | 12 => some .ldsW
  | 13 => some .ldsD
  | 14 => some .stsW
  | 15 => some .pf
  | _ => none

/-- The branches of layout CB by OP5. -/
def cbRow : Nat → Option (CB → Instr)
  | 0 => some .bra
  | 1 => some .brP
  | 2 => some .brAny
  | 3 => some .brAll
  | 4 => some .call
  | _ => none

/-- The row that a 32-bit word names, if the map defines one (R276, R278). -/
def row32 (w : Nat) : Option Instr :=
  let op := w / 128 % 32
  let x := w / 4096 % 4
  match w / 2 % 4 with
  | 0 => (rgRow op x).map (· (rgOf w))
  | 1 => some (riRow (w / 64 % 16) (riOf w))
  | 2 =>
    if op < 16 then (moRow op).map (· (moOf w))
    else match maRow op x with
      | some c => some (c (maOf w))
      | none => (mrRow op x).map (· (rgOf w))
  | _ => if op < 5 then (cbRow op).map (· (cbOf w)) else (csRow op x).map (· (rgOf w))

/-- A 32-bit word: its row, or ILLEGAL with the lowest DETAIL that holds whatever REGS is (R278). -/
def word32 (w : Nat) : Except Reject Instr :=
  match row32 w with
  | none => .error (.illegal 1)
  | some i =>
    match fixedDetail (view i) with
    | 0 => .ok i
    | d => .error (.illegal (lowDetail d (limitDetail i)))

/-- A 16-bit word: the halfword 0 is nop.h, every other one with OP4 = 0 is mov (R268). -/
def word16 (w : Nat) : Instr := if w = 0 then .nopH else h16Row (w / 4 % 16) (h16Of w)

/-- One word of the given number, whose bit 0 gives its length (R266). -/
def word (w : Nat) : Except Reject Instr := if w % 2 = 0 then .ok (word16 (w % 65536)) else word32 w

/-- The instruction at the head of a byte list, and the bytes after it (R266). -/
def bytes : List Byte → Except Reject (Instr × List Byte)
  | b0 :: b1 :: rest =>
    if b0.toNat % 2 = 0 then .ok (word16 (b0.toNat + 256 * b1.toNat), rest)
    else match rest with
      | b2 :: b3 :: rest' =>
        (word32 (b0.toNat + 256 * b1.toNat + 65536 * b2.toNat + 16777216 * b3.toNat)).map (·, rest')
      | _ => .error .truncated
  | _ => .error .truncated

end Decode

/-! ## The encoder -/

namespace Encode

open Machine

/-- Bit 1 of a Boolean field. -/
def bit (b : Bool) : Nat := if b then 1 else 0

/-- The word of layouts RG, MR and CS, by class. -/
def rgWord (cls : Nat) (v : View) : Nat :=
  1 + 2 * cls + 8 * bit v.stop + 16 * v.w + 128 * v.op + 4096 * v.x + 16384 * v.d + 1048576 * v.a + 67108864 * v.b

/-- The length in bits and the word of a view (R268, R269); an operation of the part has none. -/
def ofView (v : View) : Option (Nat × Nat) :=
  match v.lay with
  | .h16 => some (16, 2 * (v.w / 4) + 4 * v.op + 64 * v.d + 2048 * v.b)
  | .ri => some (32, 3 + 8 * v.w + 64 * v.op + 1024 * v.d + 65536 * v.imm)
  | .rg => some (32, rgWord 0 v)
  | .mr => some (32, rgWord 2 v)
  | .cs => some (32, rgWord 3 v)
  | .mo => some (32, 5 + 8 * bit v.stop + 16 * v.w + 128 * v.op + 4096 * v.d + 262144 * v.a + 16777216 * v.imm)
  | .ma => some (32, 5 + 8 * bit v.stop + 16 * v.w + 128 * v.op + 4096 * v.x + 16384 * v.sc + 262144 * v.d +
      16777216 * v.a + 1073741824 * v.o)
  | .cb => some (32, 7 + 8 * bit v.stop + 16 * v.w + 128 * v.op + 4096 * v.p + 32768 * bit v.n + 65536 * v.imm)
  | .event => none

end Encode

/-- The length in bits and the word of an instruction; none for an operation or event of the part. -/
def encode (i : Instr) : Option (Nat × Nat) := Encode.ofView (Machine.view i)

/-- The bytes of an instruction, little-endian (R243, R266). -/
def encodeBytes (i : Instr) : List Byte :=
  match encode i with
  | some (16, w) => [.ofNat 8 w, .ofNat 8 (w / 256)]
  | some (_, w) => [.ofNat 8 w, .ofNat 8 (w / 256), .ofNat 8 (w / 65536), .ofNat 8 (w / 16777216)]
  | none => []

/-- The length of an instruction in bytes (R266). -/
def instrLen (i : Instr) : Nat := if (Machine.view i).lay = .h16 then 2 else 4

/-- The four bytes of a table word, the bits above nbits being zero. -/
def tableBytes (nbits w : Nat) : List Byte :=
  let v := w % 2 ^ min nbits 32
  [.ofNat 8 v, .ofNat 8 (v / 256), .ofNat 8 (v / 65536), .ofNat 8 (v / 16777216)]

/-- The instruction the decoder reads from an opcode-table word. -/
def decodeTableWord (nbits w : Nat) : Option Instr :=
  match Decode.bytes (tableBytes nbits w) with
  | .ok (i, _) => some i
  | .error _ => none

end Sys2Proof
end

