-- ==== Sys2Proof/Config.lean ====
section
/-! DEFINITION. What one module fixes (fuses, identifiers) and the free values the spec leaves open.
Every constant here is opaque: nothing can evaluate it or prove which value it has (log 5, 6, 7). -/

namespace Sys2Proof.Config

/-! ## Free values (log 5): the first argument is State.free, which every step that may draw one advances. -/

/-- An undefined 32-bit value (R7), told apart by two small indices (register and lane, or address). -/
opaque freeWord : Nat → Nat → Nat → BitVec 32

/-- An undefined byte of memory (R7). -/
opaque freeByte : Nat → Nat → BitVec 8

/-- An undefined choice between two allowed outcomes, such as the old or the new value of R273. -/
opaque freePick : Nat → Nat → Nat → Bool

/-! ## Quantities the spec names and gives no figure for (log 7) -/

/-- The current of a die, in A, that the controller of R27 estimates from the units of 1/256 token spent in 1 us. -/
opaque currentOf : Nat → Nat

/-- Ballast energy, in uJ, and its token price, in tokens, for one ampere held for 1 us (R28). -/
opaque ballastEnergy : Nat → Nat

/-- See `ballastEnergy`. -/
opaque ballastPrice : Nat → Nat

/-- Energy, in uJ, of the ballast whose token debt, in 1/256 token, is discarded (R28). -/
opaque debtEnergy : Nat → Nat

/-- Bytes that a fabric packet counts against its meter, by payload size (R44). -/
opaque packetBytes : Nat → Nat

/-- Bytes that refresh, and the repairs that pause a channel, take from the shared band of a stack in a window (R67, R111):
draw, stack. -/
opaque refreshBytes : Nat → Nat → Nat

/-- Bytes that the activations and turnarounds of one that asks count for in a window (R67): draw, stack, who. -/
opaque bandOverhead : Nat → Nat → Nat → Nat

/-- Nanoseconds that the write of an image to flash takes (R77, R78). -/
opaque flashTime : Nat → Nat

/-! ## Fuses and identifiers of this module (log 7) -/

/-- The cores of die n that are fused off at manufacture, at most three (R11), each by its place 0, 1 or 2. -/
opaque fusedCore : Nat → Fin 3 → Option (Fin 36)

/-- One core of FUSED. -/
def fusedBit : Option (Fin 36) → BitVec 36
  | none => 0
  | some k => BitVec.twoPow 36 k

/-- FUSED of HARVEST.Dn at manufacture (R12): at most three cores of a die, so that every cluster keeps one and the module
132 (R1, R11). -/
def harvestFuse (n : Nat) : BitVec 36 := fusedBit (fusedCore n 0) ||| fusedBit (fusedCore n 1) ||| fusedBit (fusedCore n 2)

/-- Ways disabled by fuse on die n (R16). -/
opaque wayFuse : Nat → BitVec 32

/-- The MODID of this module (R40, R42). -/
opaque modid : BitVec 10

/-- Boot ROM version (R74, index 2). -/
opaque romVersion : BitVec 32

/-! ## Cryptography (log 6): keys, signatures and digests are functions nobody can evaluate. -/

/-- The key the internal generator draws at its n-th draw (R62, R149). -/
opaque drawnKey : Nat → BitVec 256

/-- SHAKE256 of a byte string, 64 bytes (R73, R74). -/
opaque shake256 : List (BitVec 8) → BitVec 512

/-- SHA3-512 of a byte string (R73). -/
opaque sha3 : List (BitVec 8) → BitVec 512

/-- A Falcon-1024 signature by the device identity key over a byte string, by index of the byte (R75). -/
opaque identitySign : List (BitVec 8) → Nat → BitVec 8

/-- Whether a firmware image or test kernel carries a valid Falcon-1024 signature (R76, R113). -/
opaque signatureValid : List (BitVec 8) → Bool

/-- The security version number a firmware image names (R76). -/
opaque imageVersion : List (BitVec 8) → Nat

/-- The test kernels of the in-field test, and the digest of the result that they give on a sound core (R113). -/
opaque testKernels : List (BitVec 8)

/-- See `testKernels`. -/
opaque testReference : BitVec 512

/-- The certificate chain of slot 0, by index of the byte (R75). -/
opaque certificateByte : Nat → BitVec 8

/-- A byte of a ream sealed by AES-256-GCM (R149): key, initial value, plain byte, position. -/
opaque sealedByte : BitVec 256 → BitVec 128 → BitVec 8 → Nat → BitVec 8

/-- The plain byte that AES-256-GCM opens a sealed byte to (R149): key, initial value, sealed byte, position. -/
opaque openedByte : BitVec 256 → BitVec 128 → BitVec 8 → Nat → BitVec 8

/-- The tag of AES-256-GCM (R149): key, initial value, the bytes authenticated alone, the sealed bytes. -/
opaque sealTag : BitVec 256 → BitVec 128 → List (BitVec 8) → List (BitVec 8) → BitVec 128

/-- The Driyx registry identifier of SPDM (R73, R150). -/
opaque driyxId : BitVec 32

/-- The initial value drawn for the n-th sealing (R151). -/
opaque drawnIv : Nat → BitVec 128

/-- Whether the host's root port completes 64-bit FetchAdd (R94). -/
opaque rootPortFetchAdd : Bool

/-- The firmware image in flash as manufactured (R74, R76). -/
opaque bootImage : List (BitVec 8)

/-- The fuse counter of R76 as manufactured. -/
opaque fuseCounter : Nat

end Sys2Proof.Config
end

