-- ==== Sys2Proof/Machine/State.lean ====
section
/-! DEFINITION. The state of the machine: everything the spec gives the part, as plain data. A table is a list of
(key, value) pairs; a key it does not list reads as a default. Field defaults are the reset values (INVENTORY.md). -/

namespace Sys2Proof.Machine

/-- A sparse table. -/
abbrev Tbl (α : Type) := List (Nat × α)

/-! ## Groups (08) -/

/-- The states of a split (R161). -/
inductive SplitState where
  | run | wait | park | sleep
  deriving DecidableEq, Repr

/-- Why a split sleeps: a deadline on CYCLE (R384), the condition of the wait form at its PC (R347), the revised promise of
the default PROMISE_MISSED action (R167), a sleep.yield, whose deadline counts cycles of the die (R384), or nothing. -/
inductive SleepWhy where
  | awake | time | cond | promise | idle
  deriving DecidableEq, Repr

/-- Where an access is performed (R187, R199, R212): the L1 of a core, the home of a line of device memory, host memory,
a peer module with the MODID and slice that the routing entry gave at issue (R41), a core's scratchpad, or a multicast group. -/
inductive Loc where
  | cached (va pa : Nat) (priv : Bool)
  | home (pa mt : Nat)
  | host (pa : Nat)
  | peer (n addr modid pslice : Nat)
  | spad (core off : Nat)
  | mcast (group off : Nat)
  deriving DecidableEq, Repr

/-- One lane's part of an access: its effective address, where it is performed, and the operands read at issue. -/
structure Acc where
  lane : Nat := 0
  ea : DWord := 0
  /-- Offset and size in bytes of this piece within the lane's datum. -/
  off : Nat := 0
  size : Nat := 4
  priv : Bool := false
  loc : Loc := .home 0 0
  v : Nat := 0
  v2 : Nat := 0
  deriving DecidableEq, Repr

/-- What a sleeping split waits for (R347): its form, the object or objects, the target and promise read at issue, the
logbook entry that the form holds, and the number of the first younger entry. A form that has issued and reads memory itself
waits here for its turn (R125, R350): the registers that it read at issue, by register * 32 + lane, and the bytes of an image
that a peer has returned. -/
structure Wait where
  insn : Instr
  num : Nat := 0
  accs : List Acc := []
  tgt : Nat := 0
  prom : Nat := 0
  ent : Option Nat := none
  kept : Tbl Word := []
  img : List Byte := []
  deriving DecidableEq, Repr

/-- A split (R161, R178). `born` is its identity and its age within the group. -/
structure Split where
  born : Nat := 0
  /-- Its place in the order in which the module's splits were created (R125). -/
  made : Nat := 0
  pc : DWord := 0
  mask : Word := 0
  st : SplitState := .run
  /-- Merge masks, top first. -/
  stack : List Word := []
  /-- First die cycle in which the next instruction may issue (R272). -/
  readyAt : Nat := 0
  /-- Pass-over count, and the die cycle after the one in which it last rose (R130). -/
  passed : Nat := 0
  passCyc : Nat := 0
  /-- Order in the starving queue, 0 for no flag (R130). -/
  starve : Nat := 0
  /-- Order in the WAIT list (R161). -/
  queued : Nat := 0
  /-- Lanes withheld by mask.wr (R387). -/
  held : Word := 0
  why : SleepWhy := .awake
  /-- Parked at a resync, not an rcv (R382). -/
  resync : Bool := false
  /-- It raised a cause while the group was in its handler: it is not ready until the handler returns (R170). -/
  stalled : Bool := false
  /-- Deadline of a sleep on CYCLE, in ns (R384, R341). -/
  deadline : Nat := 0
  wait : Option Wait := none
  /-- The first younger entry of a release part not yet performed: a fence, or a wait with O = release (R332, R337). -/
  mark : Option Nat := none
  deriving DecidableEq, Repr

/-- A logbook entry (R180). The fields after `promise` are the model's own: identity, issue cycle, the registers it writes
and holds (R179), the lane accesses, the address of a late failure. -/
structure Entry where
  kind : Nat := 0
  failed : Bool := false
  sent : Bool := false
  cls : Nat := 0
  split : Option Nat := none
  dreg : Nat := 0xFF
  wmark : Word := 0
  pc : DWord := 0
  insn : Word := 0
  mask : Word := 0
  done : Word := 0
  cause : Nat := 0
  info : Nat := 0
  prog : DWord := 0
  promise : DWord := 0
  /-- Its place among the 48 (TRAP.CAUSE.ENTRY), its number in issue order, its issue cycle. -/
  id : Nat := 0
  num : Nat := 0
  cyc : Nat := 0
  dst : List Nat := []
  src : List Nat := []
  /-- Its destinations that an open window left undefined at its issue, with the lanes of that window, and its draw of free values
  (R273). -/
  spoil : Tbl Word := []
  draw : Nat := 0
  acc : List Acc := []
  addr : DWord := 0
  failMask : Word := 0
  /-- The scope of the form (R211). -/
  sc : Nat := 0
  /-- Lanes performed at their homes, and the values returned (R183). -/
  got : Tbl Nat := []
  /-- Lanes of a store performed at their place; lanes whose request to a peer is out. -/
  perf : Word := 0
  asked : Word := 0
  /-- Ordering field O (R220): release and acquire parts. -/
  rel : Bool := false
  acq : Bool := false
  /-- A restored group re-sends the entry (R184). -/
  replay : Bool := false
  /-- The image or format block that the form read at issue (R353, R366, R371). -/
  img : List Byte := []
  /-- Operand ranges of a matrix operation (core, offset, bytes) until its wait, and whether one of them or the accumulator
  was written in that time (R225). -/
  rng : List (Nat × Nat × Nat) := []
  undef : Bool := false
  /-- The form takes a single address (R320): its operation is one, with lane number 0 in the windows. -/
  one : Bool := false
  /-- Array tiles of a matrix operation written so far: quadrant and column block (R356, R358). -/
  tiles : List (Nat × Nat) := []
  /-- Of a collective that has stopped: its members, its numbers in their pairings, its release count (R371, R376, R410). -/
  names : List (Option Nat) := []
  ords : List Nat := []
  opened : Nat := 0
  deriving DecidableEq, Repr

/-- A result in its window: register, die cycle of the writer, its split and lanes; of an F-class one, whose window R273 gives, the
old value of each lane. A V-class result that is written at issue has a window for other splits' writes only (R294). -/
structure Hazard where
  reg : Nat := 0
  cyc : Nat := 0
  born : Nat := 0
  fixed : Bool := true
  lanes : Word := 0
  old : Tbl Word := []
  deriving DecidableEq, Repr

/-- The trap record (R169) and FIX (R228). ENTRY is 0x3F at reset. -/
structure TrapRec where
  cause : Word := 0xFC000000
  mask : Word := 0
  smask : Word := 0
  pc : DWord := 0
  rpc : DWord := 0
  addr : DWord := 0
  ctl : Word := 0
  fix : Word := 0
  deriving DecidableEq, Repr

/-- Where a group is: resident, freezing for a save, frozen until it has a frame, or saved in one (R106, R175). -/
inductive Place where
  | resident
  | freezing
  | frozen
  | saved
  deriving DecidableEq, Repr

/-- An item that waits for residence on a core (R118, R134): a dealt workgroup, a gathered group by its slot, or a workgroup that
was saved as a whole. -/
inductive Waiter where
  | dealt (slice launch lin : Nat)
  | gathered (slice launch slot : Nat)
  | whole (wg : Nat)
  deriving DecidableEq, Repr

/-- A group (R158, R177). -/
structure Group where
  slice : Nat := 0
  launch : Nat := 0
  ctx : Nat := 0
  lin : Nat := 0
  /-- Group number within its workgroup. -/
  num : Nat := 0
  /-- Groups of the workgroup. -/
  count : Nat := 1
  /-- The workgroup's identity on its core. -/
  wg : Nat := 0
  core : Nat := 0
  part : Nat := 0
  lDie : Nat := 0
  lCl : Nat := 0
  lCore : Nat := 0
  age : Nat := 0
  regs : Nat := 8
  entry : DWord := 0
  gathered : Bool := false
  v : Tbl Word := []
  s : Tbl Word := []
  p : Tbl Word := []
  splits : List Split := []
  log : List Entry := []
  trap : TrapRec := {}
  fmode : Word := 0
  spadBase : BitVec 22 := 0
  spadLimit : BitVec 23 := 0
  privWords : BitVec 16 := 0
  /-- In its handler, and the first entry number of the handler's own entries (R170). -/
  inh : Bool := false
  hmark : Nat := 0
  /-- Effective priority, token share in units of 2^-64, region and quota holders, nearest first, as dealt (R91, R139,
  R140). -/
  prio : Nat := 8
  share : Nat := 0x10000000000000000
  region : Nat := 0
  holders : List Nat := []
  /-- Boost claim bit (R390). -/
  claim : Bool := false
  /-- Single-step flag (R232). -/
  stepping : Bool := false
  /-- NAKs of posted stores not yet reported, in the order received: scope and code, 0 for a timeout (R48, R49). -/
  naks : Tbl Nat := []
  /-- Die cycle until which the scoreboard holds an accumulator that tile.tzero clears (R364). -/
  accBusy : Tbl Nat := []
  /-- Each cont.flush that waits until the couch has taken the records of entries before a number, with the die cycle of its
  issue (R105, R375). -/
  flush : List (Nat × Nat) := []
  /-- The item for which it was evicted (R134). -/
  evictor : Option Waiter := none
  hz : List Hazard := []
  place : Place := .resident
  /-- Frame taken, why it was saved, the fault token it waits for (R174, R177). -/
  frame : Option Nat := none
  why : Nat := 0
  token : Option (Nat × Nat) := none
  /-- Restoration has been asked for (R118 rule 1), and since when it waits. -/
  wants : Bool := false
  frozeAt : Nat := 0
  /-- Die cycle since which the frozen state stands (R106), and of the last issue; instructions issued (R106, R138). -/
  frozeCyc : Nat := 0
  lastCyc : Nat := 0
  count_ : Nat := 0
  /-- CYCLE at which a later item passed it first while it waited for restoration; 0 none (R118). -/
  passedAt : Nat := 0
  /-- The split that issues its fix first after RESUME or STEP (R396). -/
  skipBrk : Option Nat := none
  /-- It freezes for the debugger at a fix, not at any other boundary (R229, R232, R233). -/
  fixStop : Bool := false
  /-- CYCLE at which a DUMP that has reached no fix halts the group; 0 none (R233). -/
  dumpAt : Nat := 0
  /-- Failing address a restored group takes as PAGE_NOTPRESENT (R174). -/
  faultVa : DWord := 0
  faultMask : Word := 0
  faultSplit : Nat := 0
  /-- The entry whose replay met the fault, none for an instruction of the split (R174). -/
  faultEnt : Option Nat := none
  /-- The debugger holds it (R232). -/
  dbgHeld : Bool := false
  nextBorn : Nat := 1
  nextNum : Nat := 0
  deriving DecidableEq, Repr

/-! ## Cores, dies and engines -/

/-- A byte of an L1 line (R193, R194): value, dirty; the core and the group that wrote it last, and the groups whose
unpublished byte that write replaced; other cores of a fused cluster whose own result it includes (R212). -/
structure LByte where
  v : Byte := 0
  dirty : Bool := false
  core : Nat := 0
  by_ : Nat := 0
  also : List Nat := []
  cores : List Nat := []
  deriving DecidableEq, Repr

/-- A byte of an unpublished copy at its home (R195): value, the group that wrote it last, and those it replaced; its word came
with a poison mark (R101). -/
structure UByte where
  v : Byte := 0
  by_ : Nat := 0
  also : List Nat := []
  bad : Bool := false
  deriving DecidableEq, Repr

/-- An L1 line (R193), by virtual line number; `pa` is the byte address of its line in device memory. -/
structure Line where
  va : Nat := 0
  pa : Nat := 0
  slice : Nat := 0
  priv : Bool := false
  gid : Nat := 0
  used : Nat := 0
  bytes : Tbl LByte := []
  /-- Its 64-bit words that carry a poison mark (R100). -/
  bad : List Nat := []
  deriving DecidableEq, Repr

/-- A combined translation (R200), by virtual page. -/
structure TlbEntry where
  slice : Nat := 0
  va : Nat := 0
  size : Nat := 65536
  /-- Guest physical page, and the output address; PEER in `peer`. -/
  ipa : Nat := 0
  out : Nat := 0
  target : Nat := 0
  mt : Nat := 0
  r : Bool := false
  w : Bool := false
  x : Bool := false
  owner : Nat := 31
  peer : Nat := 0
  deriving DecidableEq, Repr

/-- An operation of the matrix array (R352): issuing group and entry, accumulator, scope, the format block, the rerun of a
tile that failed its checksum. -/
structure MmaOp where
  gid : Nat := 0
  ent : Nat := 0
  acc : Nat := 0
  cluster : Bool := false
  /-- Cores that take part, in order. -/
  cores : List Nat := []
  block : List Byte := []
  rerun : Bool := false
  started : Bool := false
  /-- Cycles left of the latch fill, and array cycles left of the step in progress; cycles since the step began. -/
  fill : Nat := 0
  left : Nat := 0
  ran : Nat := 0
  deriving DecidableEq, Repr

/-- A workgroup on its core: its scratchpad range and its groups (R117). -/
structure WgRes where
  wg : Nat := 0
  slice : Nat := 0
  launch : Nat := 0
  lin : Nat := 0
  base : Nat := 0
  size : Nat := 0
  gids : List Nat := []
  tile : Bool := false
  /-- Saved as a whole, with its image slot (R176). -/
  image : Option Nat := none
  whole : Bool := false
  /-- Chosen to be saved as a whole (R135, R176). -/
  leaving : Bool := false
  /-- Core on which it stood when it was saved as a whole. -/
  savedOn : Nat := 0
  gathered : Bool := false
  age : Nat := 0
  /-- Partitions of its groups that have retired: their slots are freed with the workgroup (R165). -/
  gone : List Nat := []
  deriving DecidableEq, Repr

/-- A dealt workgroup that waits on a core (R117, R118). -/
structure Waiting where
  slice : Nat := 0
  launch : Nat := 0
  lin : Nat := 0
  /-- CYCLE at which a later item passed it first; 0 none (R118). -/
  passedAt : Nat := 0
  /-- Effective values of its region when it was dealt (R91). -/
  prio : Nat := 8
  share : Nat := 0x10000000000000000
  region : Nat := 0
  holders : List Nat := []
  deriving DecidableEq, Repr

/-- What a tile form wrote when it issued, as it stood before (R105): its group, the die cycle of the issue, scratchpad bytes with
their old and new values, an accumulator with its rule and the elements listed. -/
structure Undo where
  gid : Nat := 0
  cyc : Nat := 0
  spad : List (Nat × Byte × Byte) := []
  acc : Option (Nat × Nat × Tbl Word) := none
  deriving DecidableEq, Repr

/-- A core. -/
structure Core where
  /-- The slice it belongs to, 31 for none (R59). -/
  owner : Nat := 31
  /-- Partition buckets, in 1/256 token (R127). -/
  bkt : Tbl Nat := []
  mbkt : Nat := 0
  /-- All that the ring has paid into each partition bucket (R105). -/
  paid : Tbl Nat := []
  /-- Starving queues: next stamp (R130). -/
  stamp : Nat := 1
  lines : List Line := []
  useCount : Nat := 0
  fused : Bool := false
  tlb : List TlbEntry := []
  /-- The workgroup that holds the tile store (R351). -/
  tileWg : Option Nat := none
  /-- What the elements of an accumulator that are not listed in State.tile read as: 0 for zero, n + 1 for a free value. -/
  accInit : Tbl Nat := []
  queue : List MmaOp := []
  wgs : List WgRes := []
  waiting : List Waiting := []
  /-- End of the scrub in progress, in die cycles; 0 none (R160). -/
  scrub : Nat := 0
  /-- In-field test: 0 none, else its start; last test; failed, not yet fused (R113, R114). -/
  testing : Nat := 0
  lastTest : Nat := 0
  failed : Bool := false
  /-- Counts of events 0 to 255 and closed gates (R238, R389). -/
  counts : Tbl Nat := []
  closed : Tbl Bool := []
  /-- What each event has counted while its gate was closed. -/
  gated : Tbl Nat := []
  /-- Slots that issued in this cycle (key partition * 3 + slot), and leaf events not yet 64 cycles old (R236). -/
  issued : Tbl Nat := []
  leaves : List (Nat × Tbl Nat) := []
  /-- Slots served in this cycle, by the same key (R128). -/
  served : List Nat := []
  /-- Window of R140: number, units paid and spent in it (key partition, or partition * 2^64 + region). -/
  win : Nat := 0
  winPaid : Tbl Nat := []
  winSpent : Tbl Nat := []
  samples : Nat := 0
  /-- Writes made at issue in the last 64 cycles, newest first (R105). -/
  undo : List Undo := []
  deriving DecidableEq, Repr

/-- A continuation bin of the couch (R119). -/
structure Bin where
  slice : Nat := 0
  launch : Nat := 0
  entry : DWord := 0
  records : List (List Word) := []
  since : Nat := 0
  /-- Die cycle at which a full bin or another trigger asked for its formation. -/
  formed : Bool := false
  deriving DecidableEq, Repr

/-- A piece of a copy that has started (R208): its offset in the copy and length, its place in the order in which its engine
started pieces, the places of its ends as they were checked, the bytes that a peer returned, its write sent to a peer. -/
structure Piece where
  off : Nat := 0
  len : Nat := 0
  seq : Nat := 0
  src : Loc := .home 0 0
  dst : Loc := .home 0 0
  data : Option (List Byte) := none
  sent : Bool := false
  deriving DecidableEq, Repr

/-- A copy accepted by an engine (R87, R98, R208). -/
structure CopyJob where
  id : Nat := 0
  slice : Nat := 0
  ctx : Nat := 0
  /-- The queue of a packet's copy, and the packet's number among those of its slice. -/
  queue : Option Nat := none
  pkt : Nat := 0
  /-- The group and entry of a cp.issue (R366). -/
  gid : Option (Nat × Nat) := none
  image : List Byte := []
  imageAt : DWord := 0
  accepted : Nat := 0
  /-- Its promise, and whether PROMISE is still to be written: for a direct copy, once its entry has left its partition
  (R98, R105). -/
  promise : Nat := 0
  owed : Bool := false
  /-- Bytes checked and started, bytes landed, pieces in flight. -/
  next : Nat := 0
  landed : Nat := 0
  inflight : List Piece := []
  stopped : Option (Nat × Nat) := none
  /-- The ring and token of the fault that it waits for (R206). -/
  token : Option (Nat × Nat) := none
  failAddr : DWord := 0
  /-- Logical die of its engine, as ENG names it. -/
  lDie : Nat := 0
  /-- The saved workgroup whose scratchpad ARRIVE names, and the offset within its range (R153). -/
  arrWg : Option (Nat × Nat) := none
  /-- Of a copy taken again (R368): the runs, by offset and length, that have landed already. -/
  skip : Tbl Nat := []
  /-- A cp.cancel that has not left its partition (R105, R370): its group, die cycle, and the number of its first younger entry. -/
  cancel : Option (Nat × Nat × Nat) := none
  deriving DecidableEq, Repr

/-- A collective accepted by an engine (R88, R371, R410). -/
structure CollJob where
  id : Nat := 0
  slice : Nat := 0
  ctx : Nat := 0
  queue : Option Nat := none
  pkt : Nat := 0
  /-- Its members in MLIST order, as module * 32 + slice, none for a routing entry that is invalid; and for each the number of
  this collective among those of the slice that name it (R410). -/
  names : List (Option Nat) := []
  ords : List Nat := []
  /-- Contributions that members within the module left when they completed, by member (R410). -/
  inbox : Tbl (List Byte) := []
  gid : Option (Nat × Nat) := none
  image : List Byte := []
  imageAt : DWord := 0
  accepted : Nat := 0
  /-- Tiles landed, as member and index. -/
  tiles : List (Nat × Nat) := []
  /-- Tiles of the local contribution sent to members of other modules, as index and member (R44). -/
  sent : List (Nat × Nat) := []
  /-- Release count of a gated collective (R371, R372). -/
  released : Nat := 0
  gated : Bool := false
  stopped : Option (Nat × Nat) := none
  lDie : Nat := 0
  /-- As for a copy. -/
  arrWg : Option (Nat × Nat) := none
  deriving DecidableEq, Repr

/-- A copy engine, by its number; 8 is the die's collective engine, and on die 0 helm h is 16 + h (R98, R109). -/
structure Engine where
  jobs : List CopyJob := []
  /-- Pieces started. -/
  pieces : Nat := 0
  offline : Bool := false
  strikes : Nat := 0
  deriving DecidableEq, Repr

/-- What a checkpoint keeps of a core: its buckets, what the ring has paid it, its window of R140. -/
structure CoreMark where
  bkt : Tbl Nat := []
  paid : Tbl Nat := []
  win : Nat := 0
  winSpent : Tbl Nat := []
  deriving DecidableEq, Repr

/-- A checkpoint of the groups and cores of a die, one a cycle (R105). -/
structure Checkpoint where
  cyc : Nat := 0
  groups : Tbl Group := []
  cores : Tbl CoreMark := []
  deriving DecidableEq, Repr

/-- An upper-level entry that a die's walker holds (R200): its slice and stage, the level, the address bits above the part that the
next level indexes, the table that it names. -/
structure Upper where
  slice : Nat := 0
  host : Bool := false
  level : Nat := 0
  page : Nat := 0
  table : Nat := 0
  deriving DecidableEq, Repr

/-- A compute die. -/
structure Die where
  -- PWRCTL.Dn (R19)
  pbudget : BitVec 8 := 0
  bvf : BitVec 4 := 0xF
  vf : BitVec 4 := 0xB
  boosten : Bool := false
  hs : BitVec 2 := 0
  -- PWRSTS.Dn (R21)
  permits : BitVec 8 := 0
  curvf : BitVec 4 := 0
  cmdst : BitVec 3 := 0
  busy : Bool := false
  fall : Bool := false
  boosting : Bool := false
  curhs : BitVec 2 := 0
  /-- End of the host-state transition, and of the VF change, in progress; 0 none (R20). -/
  hsEnd : Nat := 0
  vfEnd : Nat := 0
  /-- Boost: next boundary, start of the fall, next refill, the last fall was for want of permits (R23 to R25). -/
  boostEnd : Nat := 0
  fallEnd : Nat := 0
  refillAt : Nat := 0
  exhausted : Bool := false
  /-- Permits debited in the settlement period, and its claiming slices, that of the lowest claiming cluster first (R26). -/
  debited : Nat := 0
  claimers : List Nat := []
  -- L2WAYDIS.Dn (R16)
  wayHost : Word := 0
  wayPending : Word := 0
  /-- When each way that is being disabled is written back. -/
  wayEnd : Tbl Nat := []
  -- THERM.Dn (R29)
  trip : Bool := false
  fact : BitVec 9 := 0x100
  tdie : Byte := 0
  -- SLEW.Dn (R133) and admission (R132)
  adm : BitVec 9 := 0
  ptr : BitVec 4 := 8
  grants : Nat := 0
  grantWin : Nat := 0
  /-- Die cycle of the last wide work of each cluster, and of its admission. -/
  lastWide : Tbl Nat := []
  strikes : Word := 0
  /-- Clusters queued for the in-field test (R106). -/
  testQueue : List Nat := []
  rollbacks : Tbl (List Nat) := []
  /-- Held clusters of a strike: end of the rollback (R105). -/
  frozen : Tbl Nat := []
  /-- Units of 1/256 token spent in this microsecond, the estimate of the last one in A, the next tick (R27, R28). -/
  spent : Nat := 0
  spentLast : Nat := 0
  usAt : Nat := 0
  /-- Ballast debt by slice, in 1/256 token; the slice whose work last retired from each engine (R28). -/
  debt : Tbl Nat := []
  lastSlice : Tbl Nat := []
  /-- Die cycle of the last work of each engine (R27). -/
  lastUse : Tbl Nat := []
  couch : Tbl Bin := []
  stlb : List TlbEntry := []
  /-- Upper-level entries in the walker, newest first, 256 of a stage (R200). -/
  upper : List Upper := []
  unpub : Tbl UByte := []
  engines : Tbl Engine := []
  colls : List CollJob := []
  /-- Where each engine's turns stand (R99): the queue last parsed by copy engine 0 to 7, helm 16 + t, collective engine 32 + t; the
  slice of the last tile, 15, and the queue of each slice's, 48 + t; the queue last dealt from, 64 + t. -/
  turn : Tbl Nat := []
  /-- I1 sequence count of each context (R182). -/
  seq : Tbl Nat := []
  /-- Die cycles, and the fraction accrued against CYCLE in 1/20 (R4, R18). -/
  cyc : Nat := 0
  frac : Nat := 0
  history : List Checkpoint := []
  /-- Records held for a ring 0 that is full or cannot be written, with its function (R202). -/
  heldRecs : List (Nat × List Byte) := []
  deriving DecidableEq, Repr

/-! ## Slices (03, 04, 07, 09, 11) -/

/-- A fault ring of a VF or of the PF (R202). -/
structure Ring where
  base : DWord := 0
  en : Bool := false
  ovf : Bool := false
  log2n : Nat := 0
  tail : Word := 0
  head : Word := 0
  lost : Word := 0
  deriving DecidableEq, Repr

/-- QTAB.k (R80). -/
structure Queue where
  qcb : DWord := 0
  en : Bool := false
  stopped : Bool := false
  qerr : Nat := 0
  prio : Nat := 0
  eng : Nat := 0
  rdlo : Nat := 0
  deriving DecidableEq, Repr

/-- An accepted packet that is not complete (R82, R85): its number among those of its slice, RDIDX at its acceptance, its engine
and that engine's die, its bytes, whether it has started. -/
structure Pkt where
  num : Nat := 0
  pos : Nat := 0
  eng : Nat := 0
  die : Nat := 0
  bytes : List Byte := []
  started : Bool := false
  deriving DecidableEq, Repr

/-- TLBINV of one stage (R201). -/
structure Tlbinv where
  addr : DWord := 0
  all : Bool := false
  count : Nat := 0
  busy : Bool := false
  endAt : Nat := 0
  /-- The range of the invalidation in progress, as GO found it: ALL, first address, end. -/
  rAll : Bool := false
  rLo : Nat := 0
  rHi : Nat := 0
  deriving DecidableEq, Repr

/-- PMC.k (R239): the count when it last started, and the slice's total of its event then. -/
structure Pmc where
  evsel : Word := 0
  held : Nat := 0
  mark : Nat := 0
  deriving DecidableEq, Repr

/-- The life of a slice (R56). -/
inductive SliceState where
  | free | config | activating | active | resetting
  deriving DecidableEq, Repr

/-- The TDI states (R36). -/
inductive Tdi where
  | configUnlocked | configLocked | run | error
  deriving DecidableEq, Repr

/-- A gathered group that waits for residence (R120, R122). -/
structure Gather where
  die : Nat := 0
  entry : DWord := 0
  records : List (List Word) := []
  /-- Its slot in the continuation area (R120). -/
  slot : Nat := 0
  passedAt : Nat := 0
  deriving DecidableEq, Repr

/-- A launch accepted (R86, R115 to R122). -/
structure Launch where
  id : Nat := 0
  /-- Its queue, and its packet's number among those of the slice. -/
  queue : Nat := 0
  num : Nat := 0
  ctx : Nat := 0
  pkt : List Byte := []
  desc : List Byte := []
  prio : Nat := 0
  domain : Nat := 0
  maxcores : Nat := 0
  tokshare : Nat := 0
  /-- Eligible physical cores in logical order, with their logical numbers. -/
  cores : List (Nat × Nat × Nat × Nat) := []
  dealt : Nat := 0
  total : Nat := 0
  retired : Nat := 0
  retiredSet : List Nat := []
  /-- Gathered groups formed and waiting, and the number formed and not retired. -/
  gathered : List Gather := []
  liveGathered : Nat := 0
  aborted : Option Nat := none
  yielded : Bool := false
  /-- The tick at which it yielded, by the slice's count, and its CYCLE (R142, R143). -/
  yieldTick : Nat := 0
  yieldAt : Nat := 0
  /-- It runs again once every save of this tick is complete (R143). -/
  due : Bool := false
  /-- The workgroups retired when it was last dealt afresh (R153). -/
  skip : List Nat := []
  region : Nat := 0
  holders : List Nat := []
  deriving DecidableEq, Repr

/-- A context of a slice (R137). -/
structure Ctx where
  num : Nat := 0
  rcb : DWord := 0
  watch : Nat := 0
  /-- Instructions of each quota holder since the last tick (R139). -/
  usage : Tbl Nat := []
  /-- Holders whose launches have yielded and not run since, each with the time in ns from the tick to a last save that was late,
  0 for one in time (R143). -/
  spent : Tbl Nat := []
  deriving DecidableEq, Repr

/-- Debug and trace registers of a slice (R230 to R235). -/
structure Debug where
  ctl : Word := 0
  /-- LIN, and OP, CTX and GROUP of DBGCMD. -/
  lin : Word := 0
  cmd : Word := 0
  bpt : Tbl Word := []
  /-- TBASE, TCTL, TTAIL and THEAD; LOST counts the records of the next LOST record. -/
  trace : Ring := {}
  /-- Trace records not yet 64 cycles old: core * 2^64 + its die's cycle, and the record (R234). -/
  held : List (Nat × List Byte) := []
  deriving DecidableEq, Repr

/-- A slice; slice 16 stands for the PF as the holder of function state. -/
structure Slice where
  st : SliceState := .free
  helm : Nat := 0
  err : Nat := 0
  ual : Nat := 0
  eth : Nat := 0
  cemask : Word := 0
  cld : Tbl (BitVec 9) := []
  ways : Tbl Word := []
  chlo : Tbl Word := []
  chhi : Tbl Word := []
  /-- BWS.Ss FLOOR, CEIL, WEIGHT, EFLOOR (R57). -/
  floor : Tbl Nat := []
  ceil : Tbl Nat := []
  weight : Tbl Nat := []
  efloor : Tbl Nat := []
  tdi : Tdi := .configUnlocked
  /-- Number of the slice's memory key, 0 for none (R62). -/
  key : Nat := 0
  /-- Physical clusters in logical order after activation: (die, cluster) (R13). -/
  clusters : List (Nat × Nat) := []
  /-- RESETTING by DISSOLVE, not by a function-level reset (R59, R70). -/
  dissolving : Bool := false
  busyEnd : Nat := 0
  killCause : Nat := 0
  killFrame : Nat := 0
  killing : Bool := false
  -- Migration (R144 to R156)
  migOp : Nat := 0
  migPeer : Nat := 0
  migBusy : Bool := false
  migRes : Nat := 0
  migRung : Nat := 0
  migSize : Nat := 0
  migAddr : DWord := 0
  ladderAt : Nat := 0
  quiesced : Bool := false
  /-- A deckle register was changed in QUIESCED and RESHAPE has not checked it: the slice's dies before that (R13, R154). -/
  wasDies : Option (List Nat) := none
  /-- The key of the last EXPORT and the length of its ream, and the key that SET_IMPORT_KEY gave (R150). -/
  exportKey : Option Nat := none
  exportLen : Nat := 0
  /-- It has been merged or split since its export (R403). -/
  stale : Bool := false
  importKey : Option Nat := none
  mergeOk : Word := 0
  -- Gang and ladder (R141 to R145)
  gang : Word := 0x03E80000
  ladder : Word := 0x138801F4
  ticks : Nat := 0
  /-- Ticks whose saves have still to meet their deadline, by number and CYCLE of the deadline (R143). -/
  deadlines : List (Nat × Nat) := []
  -- Translation and rings
  gtroot : DWord := 0
  htroot : DWord := 0
  inv : Tlbinv := {}
  hinv : Tlbinv := {}
  rings : Tbl Ring := []
  tokenCount : Tbl Nat := []
  tokens : List (Nat × Nat) := []
  -- Queues
  queues : Tbl Queue := []
  /-- Accepted packets of each queue that are not complete, in slot order (R85); packets accepted so far. -/
  pending : Tbl (List Pkt) := []
  nextPkt : Nat := 0
  /-- Collectives accepted that name each member, by module * 32 + slice (R410). -/
  collSeq : Tbl Nat := []
  meter : Tbl Nat := []
  permchg : DWord := 0
  energy : DWord := 0
  dbg : Debug := {}
  td : Tbl Nat := []
  pmc : Tbl Pmc := []
  allow : Tbl Word := []
  mode : Tbl Word := []
  /-- SHVAL, and SHTAG as it reads: V in bit 31 over the offset (R241). -/
  shVal : Word := 0
  shTag : Nat := 0
  ctxs : Tbl Ctx := []
  /-- A frame whose poison an engine's object consumed: the slice is killed at the next nanosecond (R101). -/
  consumed : Option Nat := none
  /-- The engines stop at their next piece or tile for the slice (R184, R376). -/
  engStop : Bool := false
  launches : Tbl Launch := []
  nextLaunch : Nat := 0
  /-- SPDM session and transcript (R73). -/
  session : Bool := false
  transcript : List Byte := []
  spdm : Nat := 0
  deriving DecidableEq, Repr

/-! ## The module -/

/-- A UCIe link pair (R52, R53): failed lanes and half width of each of its 20 modules. -/
structure Ucie where
  failed : Tbl Nat := []
  half : Tbl Bool := []
  deriving DecidableEq, Repr

/-- One outstanding request to a peer (R48, R49). -/
structure PeerReq where
  slice : Nat := 0
  gid : Nat := 0
  ent : Nat := 0
  lane : Nat := 0
  sentAt : Nat := 0
  peer : Nat := 0
  modid : Nat := 0
  pslice : Nat := 0
  addr : Nat := 0
  op : PeerOp := .load
  size : Nat := 4
  data : Nat := 0
  data2 : Nat := 0
  wmark : Word := 0
  /-- Offset of its piece within the lane's datum, and the number of its entry. -/
  off : Nat := 0
  num : Nat := 0
  /-- The sending port has sent it (R44). -/
  out : Bool := false
  /-- It has timed out or been replaced by a replay: it is still sent, and its answer is discarded (R44, R49, R50). -/
  late : Bool := false
  /-- The copy whose piece it carries: die, engine, copy, offset of the piece; the bytes of a write. -/
  job : Option (Nat × Nat × Nat × Nat) := none
  img : List Byte := []
  deriving DecidableEq, Repr

/-- An entry of a sounding table (R110). -/
structure Sounding where
  cls : Nat := 0
  count : Nat := 0
  ch : Nat := 0
  bank : Nat := 0
  row : Nat := 0
  col : Nat := 0
  /-- Its last update, in the order of the table's updates. -/
  used : Nat := 0
  deriving DecidableEq, Repr

/-- A repair in progress (R111). -/
structure Repair where
  cls : Nat := 0
  ch : Nat := 0
  bank : Nat := 0
  row : Nat := 0
  col : Nat := 0
  endAt : Nat := 0
  deriving DecidableEq, Repr

/-- A memory stack (R67 to R69, R110 to R112). -/
structure Stack where
  level : Nat := 0
  d : Nat := 0xFF
  tstk : Byte := 0
  /-- The sounding table by entry number; updates so far. -/
  table : Tbl Sounding := []
  updates : Nat := 0
  lost : Word := 0
  /-- Spares used by bank (key channel * 64 + bank), and those of them whose repair is still soft (R111). -/
  spareRows : Tbl Nat := []
  spareCols : Tbl Nat := []
  softRows : Tbl Nat := []
  softCols : Tbl Nat := []
  repairs : List Repair := []
  retire : Word := 0
  requests : List (Nat × Nat) := []
  retired : List (Nat × Nat) := []
  /-- Bytes charged in the last bandwidth window, bytes that it refused and that wait, by who asked (R67), and its number. -/
  used : Tbl Nat := []
  held : Tbl Nat := []
  window : Nat := 0
  deriving DecidableEq, Repr

/-- PTP (R39). -/
structure Ptp where
  rho : Int := 0
  offset : Int := 0
  lock : Bool := false
  base : Nat := 0
  baseCycle : Nat := 0
  slew : Int := 0
  /-- PTPTIME when ticks were last looked for (R141). -/
  seen : Nat := 0
  deriving DecidableEq, Repr

/-- What an OWNCMD still has to do (R65). -/
structure OwnJob where
  mode : Nat := 0
  owner : Nat := 0
  frame : Nat := 0
  endAt : Nat := 0
  deriving DecidableEq, Repr

/-- Section PROFILE of an open debug session: DBGCTL, the breakpoints, the programmable counters with their counts, the
totals of the tree events (R242). -/
structure Profile where
  ctl : Word := 0
  bpt : Tbl Word := []
  pmc : Tbl Pmc := []
  totals : Tbl Nat := []
  deriving DecidableEq, Repr

/-- What a slice holds in QUIESCED, by logical identity: the sections of a ream (R152). Cores and dies in it are those at
the save. -/
structure Snapshot where
  slice : Nat := 0
  ctxs : Tbl Ctx := []
  launches : Tbl Launch := []
  groups : Tbl Group := []
  wgs : List (Nat × WgRes) := []
  waiting : List Waiting := []
  /-- Scratchpad images by workgroup (section SPAD). -/
  images : List (Nat × List Byte) := []
  queues : Tbl Queue := []
  pending : Tbl (List Pkt) := []
  /-- Effective watch quotas of the launches that have one, in instructions. -/
  quotas : Tbl Nat := []
  /-- Copies with their logical die and engine, and collectives with their logical die. -/
  copies : List (Nat × Nat × CopyJob) := []
  colls : List (Nat × CollJob) := []
  couch : List (Nat × Bin) := []
  windows : List (Nat × Nat × Nat × Nat × Nat) := []
  nextLaunch : Nat := 0
  nextPkt : Nat := 0
  prof : Option Profile := none
  deriving DecidableEq, Repr

/-- An access of an engine to an object that waits at its controller (R66, R67): an addition to a counter, an error word, or bytes
whose loss is reported under a source and object number (R83). -/
inductive ObjWait where
  | add (t die ctx addr n src : Nat)
  | error (t die addr word src : Nat)
  | write (t die addr : Nat) (l : List Byte) (src object : Nat)
  deriving DecidableEq, Repr

/-- A request from outside the module that waits at a controller (R66, R67): of a peer, of the host through BAR2, of RDMA. -/
inductive OutWait where
  | peer (r : PeerIn)
  | bar2 (op : HostOp) (off size : Nat) (data data2 : DWord)
  | rdma (slice : Nat) (r : RdmaOp)
  deriving DecidableEq, Repr

/-- A ream that this module has sealed (R149, R151): the draws of its key and initial value, its plain bytes, and what
they hold. -/
structure Ream where
  key : Nat := 0
  iv : Nat := 0
  plain : List Byte := []
  snap : Snapshot := {}
  deriving DecidableEq, Repr

/-- Module-wide registers and units. -/
structure Module where
  watts : BitVec 12 := 0x7D0
  fp : BitVec 9 := 256
  locked : Bool := false
  dieOff : Bool := false
  first : BitVec 24 := 0
  bar2win : BitVec 3 := 0
  energyPf : DWord := 0
  routes : Tbl Word := []
  mcjoin : Tbl Word := []
  ucie : Tbl Ucie := []
  vfEnabled : Bool := false
  /-- VF Enable is being cleared: the number of the VF under reset, 0 none (R72). -/
  vfClear : Nat := 0
  numVfs : Nat := 0
  -- OWNCMD, OWNSTS (R64)
  ownMode : Nat := 0
  ownNew : Nat := 0
  ownFrame : Nat := 0
  ownBusy : Bool := false
  ownRes : Nat := 0
  ownOwner : Nat := 0x1F
  ownJob : Option OwnJob := none
  intest : Bool := true
  inperiod : Nat := 0x0E10
  /-- In-field tests: runs, cores fused in the field, result records (R74, R113). -/
  testRuns : Nat := 0
  testFused : Nat := 0
  testLog : List (List Byte) := []
  /-- The boot ROM has checked the test kernels' signatures (R113). -/
  testChecked : Bool := false
  fwValid : Bool := false
  fwVersion : Nat := 0
  fuses : Nat := 0
  recovery : Bool := false
  fwsts : Word := 0
  fwlen : Word := 0
  /-- The image in flash, and the one that runs; none is the image of manufacture (R76, R78). -/
  flash : Option (List Byte) := none
  running : Option (List Byte) := none
  /-- Flash holds no whole image: the old one is erased and the new one not written yet (R78). -/
  erased : Bool := false
  /-- The image that is being written, and the end of the write. -/
  flashJob : Option (List Byte × Nat) := none
  fusedCores : List Nat := []
  /-- EVDENY (R240). -/
  evdeny : Word := 0
  rrPos : Nat := 0
  rrRing : Tbl Nat := []
  /-- Records that wait for the reporting port: ring, function, die, bytes (R203). -/
  records : List (Nat × Nat × Nat × List Byte) := []
  lastRead : DWord := 0
  keys : Nat := 1
  ivs : Nat := 1
  peers : Tbl PeerReq := []
  nextPeer : Nat := 0
  /-- The last answer sent to a peer: its MODID and the response (R48). -/
  reply : Option (Nat × PeerResp) := none
  /-- Messages that RoCEv2 peers sent to queue pairs: key slice * 1024 + queue pair (R38). -/
  rdmaSends : List (Nat × List Byte) := []
  /-- Answers to RDMA reads that wait at an Ethernet port: slice, queue pair, bytes (R38, R44). -/
  ethOut : List (Nat × Nat × List Byte) := []
  reams : List Ream := []
  /-- Watermark windows of the homes: home's place is the module; key and value returned (R183). -/
  windows : List (Nat × Nat × Nat × Nat × Nat) := []
  poison : List Nat := []
  /-- Poisoned 64-bit words of scratchpads, tile stores and L2 data (R100); those of an L1 stand with their line. -/
  badWords : List ErrSite := []
  /-- Home of the last atomic on a byte since it was last stored to (R212). -/
  atomAt : Tbl Nat := []
  /-- Requests of peers and of the host, and accesses of engines to objects, that wait at a controller (R66, R67). -/
  waiting : List OutWait := []
  objWaits : List ObjWait := []
  spdmOut : List Byte := []
  deriving DecidableEq, Repr

/-- Why the machine stops. No step that the spec gives the part ends here. -/
inductive Fault where
  /-- An instruction word is executed while no split is the one that issues: raised by every meaning of a Phidin
  instruction when State.cur is empty; step never does so. Safe. -/
  | noIssuingSplit
  deriving DecidableEq, Repr

/-- What the model refuses. -/
inductive Refusal where
  /-- An instruction whose meaning is not written: raised by its arm of exec. Safe. -/
  | notModelled (mnemonic : String)
  deriving DecidableEq, Repr

/-- The state of the machine. -/
structure State where
  /-- CYCLE, in ns (R32). -/
  cycle : Nat := 0
  ptp : Ptp := {}
  dies : Tbl Die := []
  cores : Tbl Core := []
  slices : Tbl Slice := []
  groups : Tbl Group := []
  hbm : Tbl Stack := []
  m : Module := {}
  /-- Device memory by physical address (R196): addresses rising, none listed with the value it has unlisted. -/
  mem : List Host.Cell := []
  /-- Host memory (R199, TARGET 1). -/
  hostMem : List Host.Cell := []
  /-- Scratchpad of each core: key core * 2^22 + offset (R189). -/
  spad : List Host.Cell := []
  /-- Tile store: key ((core * 8 + a) * 128 + row) * 192 + column (R279); an element not listed reads as Core.accInit says. -/
  tile : Tbl Word := []
  nextGid : Nat := 0
  nextWg : Nat := 0
  nextJob : Nat := 0
  /-- Splits created so far. -/
  made : Nat := 0
  /-- The model's own: the split that issues next, the events to come, the count of free values drawn (log 1, 5). -/
  cur : Option (Nat × Nat) := none
  agenda : List Instr := []
  free : Nat := 0
  deriving DecidableEq, Repr

/-- The machine right after reset (R76): every field at its default, given above, the boot ROM's work done when
MODULE_RESET is executed. -/
def State.reset : State := {}

end Sys2Proof.Machine
end

