-- ==== Sys2Proof/Machine/Ops.lean ====
section
/-! DEFINITION. Named operations over tables, memory, translation, the caches, the rings, and taking an exception. -/

namespace Sys2Proof.Machine

/-! ## Tables -/

/-- The value listed for a key. -/
def Tbl.find {α : Type} : Tbl α → Nat → Option α
  | [], _ => none
  | (j, a) :: t, k => if j = k then some a else Tbl.find t k

/-- The value of a key, the default when it is not listed. -/
def Tbl.get {α : Type} (t : Tbl α) (d : α) (k : Nat) : α := (Tbl.find t k).getD d

/-- Drop a key. -/
def Tbl.del {α : Type} : Tbl α → Nat → Tbl α
  | [], _ => []
  | (j, a) :: t, k => if j = k then Tbl.del t k else (j, a) :: Tbl.del t k

/-- Put a key in its place among rising keys. -/
def Tbl.put {α : Type} : Tbl α → Nat → α → Tbl α
  | [], k, a => [(k, a)]
  | (j, b) :: t, k, a =>
    if k < j then (k, a) :: (j, b) :: t else if j = k then (k, a) :: t else (j, b) :: Tbl.put t k a

/-- Write a key, listing it only when its value is not the default. -/
def Tbl.set {α : Type} [DecidableEq α] (t : Tbl α) (d : α) (k : Nat) (a : α) : Tbl α :=
  if a = d then Tbl.del t k else Tbl.put t k a

/-- Change the value of a key that is listed. -/
def Tbl.upd {α : Type} : Tbl α → Nat → (α → α) → Tbl α
  | [], _, _ => []
  | (j, a) :: t, k, f => if j = k then (j, f a) :: t else (j, a) :: Tbl.upd t k f

/-- The values of a table. -/
def Tbl.vals {α : Type} (t : Tbl α) : List α := t.map (·.2)

/-- Put every (key, value) of a list. -/
def Tbl.putAll {α : Type} [DecidableEq α] (t : Tbl α) (d : α) : List (Nat × α) → Tbl α
  | [] => t
  | (k, a) :: r => Tbl.putAll (Tbl.set t d k a) d r

/-! ## Bits, lanes and bytes -/

/-- Bit n of a natural number. -/
def nbit (v n : Nat) : Bool := v / 2 ^ n % 2 == 1

/-- Bits hi to lo of a natural number. -/
def bits (v hi lo : Nat) : Nat := v / 2 ^ lo % 2 ^ (hi + 1 - lo)

/-- 1 for true. -/
def b2n (b : Bool) : Nat := if b then 1 else 0

/-- The lanes of a mask, ascending. -/
def lanesOf (m : Word) : List Nat := (List.range 32).filter (fun l => m.getLsbD l)

/-- The mask of the lanes for which a test holds. -/
def maskWhere (p : Nat → Bool) : Word :=
  BitVec.ofNat 32 ((List.range 32).foldr (fun l a => b2n (p l) * 2 ^ l + a) 0)

/-- The mask of a list of lanes. -/
def maskOf (ls : List Nat) : Word := maskWhere (fun l => ls.contains l)

/-- The lowest lane of a mask; 32 for none. -/
def firstLane (m : Word) : Nat := (lanesOf m).headD 32

/-- Sign extension of a number of n bits (R2). -/
def sext (n v : Nat) : Int := if v % 2 ^ n < 2 ^ (n - 1) then (v % 2 ^ n : Nat) else (v % 2 ^ n : Nat) - (2 : Int) ^ n

/-- An integer modulo 2^n. -/
def wrap (n : Nat) (v : Int) : Nat := (v % (2 : Int) ^ n).toNat

/-- The n bytes of a number, little-endian (R243). -/
def leBytes : Nat → Nat → List Byte
  | 0, _ => []
  | n + 1, v => BitVec.ofNat 8 v :: leBytes n (v / 256)

/-- The number that bytes hold, little-endian (R243). -/
def ofLe : List Byte → Nat
  | [] => 0
  | b :: r => b.toNat + 256 * ofLe r

/-- n bytes of an image from an offset, as a number; bytes beyond its end read 0. -/
def field (img : List Byte) (off n : Nat) : Nat := ofLe ((img.drop off).take n)

/-- Every byte of an image from `lo` up to `hi` is zero. -/
def zeroBytes (img : List Byte) (lo hi : Nat) : Bool := ((img.drop lo).take (hi - lo)).all (· == 0)

/-! ## Parts of the state -/

def State.die (s : State) (d : Nat) : Die := Tbl.get s.dies {} d
def State.core (s : State) (c : Nat) : Core := Tbl.get s.cores {} c
def State.slice (s : State) (t : Nat) : Slice := Tbl.get s.slices {} t
def State.group (s : State) (g : Nat) : Group := Tbl.get s.groups {} g
def State.stack (s : State) (k : Nat) : Stack := Tbl.get s.hbm {} k
def State.modDie (s : State) (d : Nat) (f : Die → Die) : State := { s with dies := Tbl.put s.dies d (f (s.die d)) }
def State.modCore (s : State) (c : Nat) (f : Core → Core) : State := { s with cores := Tbl.put s.cores c (f (s.core c)) }
def State.modSlice (s : State) (t : Nat) (f : Slice → Slice) : State :=
  { s with slices := Tbl.put s.slices t (f (s.slice t)) }
def State.modGroup (s : State) (g : Nat) (f : Group → Group) : State := { s with groups := Tbl.upd s.groups g f }
def State.modStack (s : State) (k : Nat) (f : Stack → Stack) : State := { s with hbm := Tbl.put s.hbm k (f (s.stack k)) }
def State.modM (s : State) (f : Module → Module) : State := { s with m := f s.m }
def State.post (s : State) (i : Instr) : State := { s with agenda := s.agenda ++ [i] }

/-- The die of a physical core (R8). -/
def dieOf (core : Nat) : Nat := core / 36

/-- The physical cluster of a core within its die. -/
def clusterOf (core : Nat) : Nat := core % 36 / 4

/-- Cycle count of a core's die. -/
def State.now (s : State) (core : Nat) : Nat := (s.die (dieOf core)).cyc

/-- One free value (log 5). -/
def State.freeVal (s : State) (a b : Nat) : Word := Config.freeWord s.free a b

/-! ## Splits of a group -/

/-- The split of a given birth. -/
def Group.split? (g : Group) (born : Nat) : Option Split := g.splits.find? (fun p => p.born == born)

/-- Change one split. -/
def modSplits : List Split → Nat → (Split → Split) → List Split
  | [], _, _ => []
  | p :: r, b, f => if p.born = b then f p :: r else p :: modSplits r b f

def Group.modSplit (g : Group) (b : Nat) (f : Split → Split) : Group := { g with splits := modSplits g.splits b f }

/-- The live lanes of a group (R161). -/
def Group.live (g : Group) : Word := g.splits.foldr (fun p m => p.mask ||| p.held ||| m) 0

def State.modSplit (s : State) (gid b : Nat) (f : Split → Split) : State := s.modGroup gid (·.modSplit b f)

/-- Splits of a group in RUN or SLEEP, of which at most four exist at once (R161). -/
def Group.busy (g : Group) : Nat := (g.splits.filter (fun p => p.st == .run || p.st == .sleep)).length

/-- The head of the WAIT list (R161). -/
def Group.waitHead (g : Group) : Option Split :=
  (g.splits.filter (fun p => p.st == .wait)).foldl
    (fun best p => match best with | none => some p | some q => if p.queued < q.queued then some p else best) none

/-- Whenever fewer than four splits are in RUN or SLEEP the head of the WAIT list enters RUN; n bounds the work (R161). -/
def Group.fillRun : Nat → Group → Group
  | 0, g => g
  | n + 1, g =>
    if g.busy < 4 then
      match g.waitHead with
      | none => g
      | some p => Group.fillRun n (g.modSplit p.born (fun q => { q with st := .run }))
    else g

/-! ## Memory -/

/-- What a byte of device memory reads as before anything is written (log 3): the page-owner table holds 31 (free). -/
def memDefault (a : Nat) : Byte := if 0x7FFF800000 ≤ a then 31 else 0

/-- The canonical form of a byte memory: addresses rising, no entry equal to what an unlisted address reads as. -/
def Memory.wf (dflt : Nat → Byte) : List Host.Cell → Bool
  | [] => true
  | [(a, v)] => v != dflt a
  | (a, v) :: (b, w) :: r => v != dflt a && decide (a < b) && Memory.wf dflt ((b, w) :: r)

/-- Read one byte. -/
def Memory.read (dflt : Nat → Byte) (m : List Host.Cell) (a : Nat) : Byte := Tbl.get (α := Byte) m (dflt a) a

/-- Write one byte. -/
def Memory.write (dflt : Nat → Byte) (m : List Host.Cell) (a : Nat) (v : Byte) : List Host.Cell :=
  Tbl.set (α := Byte) m (dflt a) a v

/-- Write bytes from an address upwards. -/
def Memory.writeList (dflt : Nat → Byte) : List Host.Cell → Nat → List Byte → List Host.Cell
  | m, _, [] => m
  | m, a, b :: r => Memory.writeList dflt (Memory.write dflt m a b) (a + 1) r

/-- Host memory, scratchpads: an unlisted byte reads 0 (log 3). -/
def zeroDefault (_ : Nat) : Byte := 0

def State.memByte (s : State) (a : Nat) : Byte := Memory.read memDefault s.mem a
def State.hostByte (s : State) (a : Nat) : Byte := Memory.read zeroDefault s.hostMem a

/-- Key of a scratchpad byte (R189). -/
def spadKey (core off : Nat) : Nat := core * 4194304 + off

def State.spadByte (s : State) (core off : Nat) : Byte := Memory.read zeroDefault s.spad (spadKey core off)
def State.setMem (s : State) (a : Nat) (l : List Byte) : State := { s with mem := Memory.writeList memDefault s.mem a l }
def State.setHost (s : State) (a : Nat) (l : List Byte) : State :=
  { s with hostMem := Memory.writeList zeroDefault s.hostMem a l }
/-- A range of a scratchpad meets an operand range of a matrix operation. -/
def meetsRange (core off n : Nat) (r : Nat × Nat × Nat) : Bool :=
  r.1 == core && decide (r.2.1 < off + n) && decide (off < r.2.1 + r.2.2)

/-- Some matrix operation between its issue and its wait has the range among its operands (R225). -/
def State.inOperand (s : State) (core off n : Nat) : Bool :=
  s.groups.any (fun e => e.2.log.any (fun f => f.rng.any (meetsRange core off n)))

/-- A write to an operand range leaves the accumulator of the operation undefined (R225). -/
def State.markOperand (s : State) (core off n : Nat) : State :=
  if s.inOperand core off n then
    { s with groups := s.groups.map (fun e => (e.1, { e.2 with log := e.2.log.map (fun f =>
        if f.rng.any (meetsRange core off n) then { f with undef := true } else f) })) }
  else s

/-- Write bytes of a scratchpad, as a restoration does; poisoned words that they cover whole lose their marks. -/
def State.loadSpad (s : State) (core off : Nat) (l : List Byte) : State :=
  { s with spad := Memory.writeList zeroDefault s.spad (spadKey core off) l,
           m := { s.m with badWords := s.m.badWords.filter (fun w => match w with
             | .spad c k => !(c == core && decide (off ≤ k * 8) && decide (k * 8 + 8 ≤ off + l.length))
             | _ => true) } }

/-- Write bytes of a scratchpad. -/
def State.setSpad (s : State) (core off : Nat) (l : List Byte) : State :=
  (s.markOperand core off l.length).loadSpad core off l
def State.memBytes (s : State) (a n : Nat) : List Byte := (List.range n).map (fun i => s.memByte (a + i))
def State.hostBytes (s : State) (a n : Nat) : List Byte := (List.range n).map (fun i => s.hostByte (a + i))
def State.spadBytes (s : State) (core off n : Nat) : List Byte := (List.range n).map (fun i => s.spadByte core (off + i))

/-- Bytes of a scratchpad as an access reads them: undefined in an operand range of a matrix operation (R225). -/
def State.spadRead (s : State) (core off n : Nat) : List Byte :=
  (List.range n).map (fun i =>
    if s.inOperand core (off + i) 1 then Config.freeByte s.free (off + i) else s.spadByte core (off + i))

/-- The owner of a frame, from the page-owner table in memory (R63). -/
def State.owner (s : State) (frame : Nat) : Nat := (s.memByte (0x7FFF800000 + frame)).toNat

/-- The new owner of a frame on which a REKEY runs (R66). -/
def State.rekeying (s : State) (frame : Nat) : Option Nat :=
  match s.m.ownJob with
  | some j => if j.mode == 1 && j.frame == frame then some j.owner else none
  | none => none

/-- The owner under which the controller performs an access: one that meets a REKEY waits for its end and proceeds under the
new owner (R63, R66; log 46). -/
def State.ownerNow (s : State) (frame : Nat) : Nat := (s.rekeying frame).getD (s.owner frame)

/-- Channels of a slice on a stack (R57). -/
def Slice.channels (x : Slice) (k : Nat) : Word := if k % 2 = 0 then Tbl.get x.chlo 0 (k / 2) else Tbl.get x.chhi 0 (k / 2)

/-- The arbiter of the stack of a device address has refused bytes of a slice in this window: its requests wait (R67). Those on
channels that its deckle does not name are told apart (R196). -/
def State.bandShut (s : State) (t pa : Nat) : Bool :=
  let k := pa / 68719476736 % 8
  let x := s.stack k
  x.window == s.cycle / 1000 && !x.held.isEmpty &&
    Tbl.get x.held 0 (if t = 16 || ((s.slice t).channels k).getLsbD (pa / 2147483648 % 32) then t else 32 + t) != 0

/-- An access of a slice, or of the PF as 16, waits at the controller of a device address: a REKEY runs on the frame, from or to the
slice (R66), or the arbiter of its stack has refused the slice more in this window (R67). -/
def State.placeBusy (s : State) (t pa : Nat) : Bool :=
  (match s.rekeying (pa / 65536) with | some o => o == t || s.owner (pa / 65536) == t | none => false) || s.bandShut t pa

/-- A register access of the host: in recovery BAR0 offers FWLOAD and FWSTS alone (R77). -/
def State.bar0 (s t : State) : State := if s.m.recovery then s else t

/-- Number of the 128-byte line of a device address. -/
def lineNo (a : Nat) : Nat := a / 128

/-- The line at an address carries a poison mark, or its 64-bit word in the L2 does (R100, R101). -/
def State.poisoned (s : State) (a : Nat) : Bool :=
  s.m.poison.contains (lineNo a) || s.m.badWords.contains (.l2 (a / 8))

/-- The first poisoned address among n bytes of device memory. -/
def State.poisonIn (s : State) (a n : Nat) : Option Nat :=
  if s.m.poison.isEmpty && s.m.badWords.isEmpty then none
  else ((List.range ((a % 8 + n + 7) / 8)).map (fun k => max a ((a / 8 + k) * 8))).find? s.poisoned

/-- Some 64-bit word of n bytes of a scratchpad carries a poison mark (R100). -/
def State.spadBad (s : State) (core off n : Nat) : Bool :=
  s.m.badWords.any (fun w => match w with
    | .spad c k => c == core && decide (k * 8 < off + n) && decide (off < k * 8 + 8)
    | _ => false)

/-- A store of n bytes of a scratchpad writes a part of a poisoned word, and consumes it (R101). -/
def State.spadCut (s : State) (core off n : Nat) : Bool :=
  s.m.badWords.any (fun w => match w with
    | .spad c k => c == core && decide (k * 8 < off + n) && decide (off < k * 8 + 8) &&
        !(decide (off ≤ k * 8) && decide (k * 8 + 8 ≤ off + n))
    | _ => false)

/-- Some element of a range of a core's tile store lies in a poisoned word; an element is named by its place in the core's
tile store (R100, R279). -/
def State.tileBad (s : State) (core : Nat) (p : Nat → Bool) : Bool :=
  s.m.badWords.any (fun w => match w with
    | .tile c k => c == core && (p (2 * k) || p (2 * k + 1))
    | _ => false)

/-- Set a mark. -/
def State.markBad (s : State) (w : ErrSite) : State :=
  s.modM (fun m => { m with badWords := if m.badWords.contains w then m.badWords else w :: m.badWords })

/-- Marks that a test names are gone: their words have been written whole. -/
def State.clearBad (s : State) (p : ErrSite → Bool) : State :=
  s.modM (fun m => { m with badWords := m.badWords.filter (fun w => !p w) })

/-! ## Translation (R197 to R200) -/

/-- Why a walk fails: the cause of R167, the stage that failed, the guest physical address of a host-stage fault. -/
structure WalkFail where
  cause : Nat
  host : Bool
  ipa : Nat := 0
  deriving DecidableEq, Repr

/-- A leaf as one stage gives it. -/
structure Leaf where
  out : Nat := 0
  size : Nat := 0
  target : Nat := 0
  mt : Nat := 0
  r : Bool := true
  w : Bool := true
  x : Bool := true
  peer : Nat := 0
  deriving DecidableEq, Repr

/-- Lowest address bit that a level indexes (R198). -/
def levelShift (lev : Nat) : Nat := if lev = 1 then 16 else 12 + 9 * (lev - 1)

/-- Entries of a table of a level (R198). -/
def levelEntries (lev : Nat) : Nat := if lev = 1 then 32 else 512

/-- What an entry says at a level: not valid, malformed, a leaf or the next table (R198, R199). -/
inductive WalkStep where
  | invalid | malformed | leaf (l : Leaf) | table (a : Nat)
  deriving DecidableEq, Repr

/-- A host-stage output is malformed in the page-owner table or beyond device memory (R199). -/
def outOfReach (a size : Nat) : Bool := 0x7FFF800000 < a + size

/-- Read an entry (R198, R199). Bits 15 to 12 of a host leaf with TARGET 2 lie in no field of it and are not tested (DESIGN
CHOICE, log 81). -/
def walkEntry (host : Bool) (lev e : Nat) : WalkStep :=
  let isLeaf := nbit e 1
  let target := bits e 8 7
  let peerLeaf := host && isLeaf && target == 2
  let size := 2 ^ levelShift lev
  let addr := if peerLeaf then bits e 53 16 * 65536 else bits e 56 12 * 4096
  if !nbit e 0 then .invalid
  else if (if isLeaf then lev > 3 else lev == 1) then .malformed
  else if bits e 11 9 != 0 || (!peerLeaf && bits e 63 57 != 0) then .malformed
  else if target == 3 || (target != 0 && !(host && isLeaf)) then .malformed
  else if isLeaf then
    if bits e 6 5 == 3 || addr % size != 0 then .malformed
    else if host && target == 0 && outOfReach addr size then .malformed
    else .leaf { out := addr, size := size, target := target, mt := bits e 6 5, r := nbit e 2, w := nbit e 3,
                 x := nbit e 4, peer := if peerLeaf then bits e 63 54 else 0 }
  else if host && outOfReach addr (if lev = 2 then 256 else 4096) then .malformed
  else .table addr

/-- Walk one stage from a table down a list of levels; `rd` reads the 8 bytes of an entry. -/
def walkStage (host : Bool) (rd : Nat → Except WalkFail Nat) (va : Nat) : List Nat → Nat → Except WalkFail Leaf
  | [], _ => .error { cause := 9, host := host, ipa := va }
  | lev :: rest, tbl =>
    match rd (tbl + 8 * (va / 2 ^ levelShift lev % levelEntries lev)) with
    | .error f => .error f
    | .ok e =>
      match walkEntry host lev e with
      | .invalid => .error { cause := 8, host := host, ipa := if host then va else 0 }
      | .malformed => .error { cause := 9, host := host, ipa := if host then va else 0 }
      | .leaf l => .ok l
      | .table a => walkStage host rd va rest a

def levels : List Nat := [5, 4, 3, 2, 1]

/-- The levels below one. -/
def below (lev : Nat) : List Nat := levels.filter (· < lev)

/-- The deepest upper-level entry for an address that a die's walker holds: its level and the table that it names (R200). -/
def Die.upperAt (d : Die) (t : Nat) (host : Bool) (va : Nat) : Option (Nat × Nat) :=
  [2, 3, 4, 5].findSome? (fun lev =>
    (d.upper.find? (fun u => u.slice == t && u.host == host && u.level == lev && u.page == va / 2 ^ levelShift lev)).map
      (fun u => (lev, u.table)))

/-- Where the walk of a stage on a die starts: the levels left and the table, from the root where the walker holds nothing (R198,
R200). -/
def State.walkFrom (s : State) (t die : Nat) (host : Bool) (va : Nat) : List Nat × Nat :=
  match (s.die die).upperAt t host va with
  | some (lev, a) => (below lev, a)
  | none => (levels, (if host then (s.slice t).htroot else (s.slice t).gtroot).toNat / 4096 * 4096)

/-- Bytes of a host table. -/
def State.hostEntry (s : State) (a : Nat) : Except WalkFail Nat := .ok (ofLe (s.memBytes a 8))

/-- The host stage of a slice on a die (R197): no translation while EN is 0. -/
def State.hostWalk (s : State) (t die ipa : Nat) : Except WalkFail Leaf :=
  if (s.slice t).htroot.toNat % 2 = 0 then .error { cause := 8, host := true, ipa := ipa }
  else walkStage true s.hostEntry ipa (s.walkFrom t die true ipa).1 (s.walkFrom t die true ipa).2

/-- Eight bytes at a guest physical address, for a read of a guest table (R199): its frame must be the slice's, as a REKEY in
progress leaves it (R66). The spec names no consumer of poison that a walk meets: the bytes are read as they stand (R101; DESIGN
CHOICE, log 47). -/
def State.tableRead (s : State) (t die a : Nat) : Except WalkFail Nat :=
  match s.hostWalk t die a with
  | .error f => .error f
  | .ok l =>
    if l.target = 0 then
      let pa := l.out + a % l.size
      if !l.r then .error { cause := 9, host := true, ipa := a }
      else if s.ownerNow (pa / 65536) != t then .error { cause := 10, host := true, ipa := a }
      else .ok (ofLe (s.memBytes pa 8))
    else .error { cause := 9, host := true, ipa := a }

/-- The guest stage of a slice on a die (R197): the identity while EN is 0. -/
def State.guestWalk (s : State) (t die va : Nat) : Except WalkFail Leaf :=
  if (s.slice t).gtroot.toNat % 2 = 0 then .ok { out := va / 1073741824 * 1073741824, size := 1073741824 }
  else walkStage false (s.tableRead t die) va (s.walkFrom t die false va).1 (s.walkFrom t die false va).2

/-- The tables that a walk reads, each with the level and address of its entry, and the tables named by entries that are no leaves. -/
def walkPath (host : Bool) (rd : Nat → Except WalkFail Nat) (va : Nat) : List Nat → Nat → List (Nat × Nat × Option Nat)
  | [], _ => []
  | lev :: rest, tbl =>
    let at_ := tbl + 8 * (va / 2 ^ levelShift lev % levelEntries lev)
    match rd at_ with
    | .error _ => [(lev, at_, none)]
    | .ok e =>
      match walkEntry host lev e with
      | .table a => (lev, at_, some a) :: walkPath host rd va rest a
      | _ => [(lev, at_, none)]

/-- What a walk of one stage leaves in a walker. -/
def upperOf (t : Nat) (host : Bool) (va : Nat) (p : List (Nat × Nat × Option Nat)) : List Upper :=
  p.filterMap (fun e => e.2.2.map (fun a =>
    ({ slice := t, host := host, level := e.1, page := va / 2 ^ levelShift e.1, table := a } : Upper)))

/-- The path of the host stage of a walk on a die. -/
def State.hostPath (s : State) (t die ipa : Nat) : List Upper :=
  upperOf t true ipa (walkPath true s.hostEntry ipa (s.walkFrom t die true ipa).1 (s.walkFrom t die true ipa).2)

/-- The upper-level entries that the walk of an address reads on a die: of the guest stage, of the host stage for each guest table,
and of the host stage for the address itself (R199, R200). -/
def State.walked (s : State) (t die va : Nat) : List Upper :=
  let g := if (s.slice t).gtroot.toNat % 2 = 0 then []
    else walkPath false (s.tableRead t die) va (s.walkFrom t die false va).1 (s.walkFrom t die false va).2
  upperOf t false va g ++ g.flatMap (fun e => s.hostPath t die e.2.1) ++
    (match s.guestWalk t die va with
     | .ok l => s.hostPath t die (l.out + va % l.size)
     | .error _ => [])

/-- Keep an upper-level entry; of each stage the 256 kept last stay (R200, log 45). -/
def keepUpper (l : List Upper) (u : Upper) : List Upper :=
  if l.contains u then l else u :: (l.filter (·.host != u.host) ++ (l.filter (·.host == u.host)).take 255)

/-- The combined translation of a global virtual address, walked on a die (R199). -/
def State.walk (s : State) (t die va : Nat) : Except WalkFail TlbEntry :=
  match s.guestWalk t die va with
  | .error f => .error f
  | .ok g =>
    let ipa := g.out + va % g.size
    match s.hostWalk t die ipa with
    | .error f => .error f
    | .ok h =>
      let size := min g.size h.size
      let out := h.out + (ipa - ipa % size) % h.size
      .ok { slice := t, va := va - va % size, size := size, ipa := ipa - ipa % size, out := out, target := h.target,
            mt := if h.target = 0 then max g.mt h.mt else 2, r := g.r && h.r, w := g.w && h.w, x := g.x && h.x,
            owner := if h.target = 0 then s.owner (out / 65536 + va % size / 65536) else t, peer := h.peer }

/-- A TLB entry that holds an address of a slice. -/
def tlbFind (l : List TlbEntry) (t va : Nat) : Option TlbEntry :=
  l.find? (fun e => e.slice == t && e.va == va - va % e.size)

/-- The translation an access uses: the core's TLB, the die's shared TLB, then a walk (R200). -/
def State.translate (s : State) (t core va : Nat) : Except WalkFail TlbEntry :=
  match tlbFind (s.core core).tlb t va with
  | some e => .ok e
  | none =>
    match tlbFind (s.die (dieOf core)).stlb t va with
    | some e => .ok e
    | none => s.walk t (dieOf core) va

/-- The translation an engine of a die uses. -/
def State.engineTranslate (s : State) (t die va : Nat) : Except WalkFail TlbEntry :=
  match tlbFind (s.die die).stlb t va with
  | some e => .ok e
  | none => s.walk t die va

/-- The frame owner that a translation gives for an address: a page larger than a frame is looked up frame by frame. -/
def State.ownerAt (s : State) (e : TlbEntry) (va : Nat) : Nat :=
  if e.size = 65536 then e.owner else if e.target = 0 then s.owner ((e.out + va % e.size) / 65536) else e.slice

/-- The set of a TLB in which a page lies: its number modulo the sets (log 45). -/
def tlbSet (sets : Nat) (e : TlbEntry) : Nat := e.va / e.size % sets

/-- Keep a translation in a TLB; the oldest entry of a set that is full leaves (R200, log 45). -/
def tlbKeep (sets ways : Nat) (l : List TlbEntry) (e : TlbEntry) : List TlbEntry :=
  if l.contains e then l
  else
    let mine := l.filter (fun x => tlbSet sets x == tlbSet sets e)
    e :: (if mine.length < ways then l else match mine.getLast? with | some x => l.erase x | none => l)

/-- Keep the translation of an address in the core's and the die's TLB, and what its walk read in the die's walker. -/
def State.fillTlb (s : State) (t core va : Nat) : State :=
  match s.translate t core va with
  | .error _ => s
  | .ok e =>
    let up := if (tlbFind (s.core core).tlb t va).isSome || (tlbFind (s.die (dieOf core)).stlb t va).isSome then []
      else s.walked t (dieOf core) va
    (s.modCore core (fun c => { c with tlb := tlbKeep 64 8 c.tlb e })).modDie (dieOf core)
      (fun d => { d with stlb := tlbKeep 1024 16 d.stlb e, upper := up.foldl keepUpper d.upper })

/-- Keep the translations of a list of addresses. -/
def State.fillTlbs (s : State) (t core : Nat) : List Nat → State
  | [] => s
  | va :: r => (s.fillTlb t core va).fillTlbs t core r

/-- R188, steps 4 and 5, for one address: the translation, or the failing cause. -/
def State.checkPage (s : State) (t core va : Nat) (acc : Access) : Except WalkFail TlbEntry :=
  match s.translate t core va with
  | .error f => .error f
  | .ok e =>
    if !(match acc with | .load => e.r | .store => e.w | .fetch => e.x && e.target == 0) then
      .error { cause := 9, host := false }
    else if e.target == 0 && s.ownerAt e va != t && s.ownerNow ((e.out + va % e.size) / 65536) != t then
      .error { cause := 10, host := false }
    else .ok e

/-- OWNCMD removes every cached owner of its frame: the next access looks it up afresh (R200). -/
def State.dropOwners (s : State) (frame : Nat) : State :=
  let fresh (l : List TlbEntry) : List TlbEntry :=
    l.map (fun e => if e.target == 0 && e.size == 65536 && e.out / 65536 == frame then { e with owner := s.owner frame } else e)
  { s with cores := s.cores.map (fun (e : Nat × Core) => (e.1, { e.2 with tlb := fresh e.2.tlb })),
           dies := s.dies.map (fun (e : Nat × Die) => (e.1, { e.2 with stlb := fresh e.2.stlb })) }

/-! ## Windows (R187, R189, R192) -/

inductive Window where
  | glob | priv | spad | bad
  deriving DecidableEq, Repr

/-- The window of a generic address (R187). -/
def windowOf (a : Nat) : Window :=
  if 0x0200000000000000 ≤ a then .bad
  else if 0x01FFFFFFFF000000 ≤ a then .spad
  else if 0x01FFFFFF00000000 ≤ a then .priv
  else .glob

/-- Physical cores that are enabled: not fused (R12, R114). -/
def State.enabled (s : State) (core : Nat) : Bool :=
  !(Config.harvestFuse (dieOf core)).getLsbD (core % 36) && !s.m.fusedCores.contains core

/-- Physical cores of the cluster of a core, enabled ones in ascending order: their places are the logical cores (R13). -/
def State.clusterCores (s : State) (core : Nat) : List Nat :=
  ((List.range 4).map (fun k => core / 4 * 4 + k)).filter s.enabled

/-- The global address of a private word w of a lane (R192). -/
def privAddr (base : Nat) (g : Group) (lane w : Nat) : Nat :=
  base + (g.lin * g.count + g.num) * g.privWords.toNat * 128 + (w * 32 + lane) * 4

/-- The launch of a group. -/
def State.launchOf (s : State) (g : Group) : Launch := Tbl.get (s.slice g.slice).launches {} g.launch

/-- PRIVBASE of the kernel descriptor (R283). -/
def Launch.privBase (l : Launch) : Nat := field l.desc 0x30 8

/-- Where a global access goes once translated, to a peer by the route given (R41, R199, R213). -/
def locOf (e : TlbEntry) (va : Nat) (priv : Bool) (route : Nat × Nat := (0, 0)) : Loc :=
  let a := e.out + va % e.size
  if e.target = 1 then .host a
  else if e.target = 2 then .peer e.peer a route.1 route.2
  else if e.mt = 0 then .cached va a priv
  else .home a e.mt

/-! ## The L1, the unpublished copies and the homes (R193 to R195, R213 to R218) -/

/-- Key of an unpublished copy of a core at the home of a byte (R195). -/
def unpubKey (core pa : Nat) : Nat := core * 549755813888 + pa

/-- The die that holds a device address (R196). -/
def homeDie (pa : Nat) : Nat := pa / 137438953472 % 4

/-- A core's unpublished copy of a byte at its home. -/
def State.copy? (s : State) (core pa : Nat) : Option UByte := Tbl.find (s.die (homeDie pa)).unpub (unpubKey core pa)

/-- The byte that the home returns to a core: the core's own unpublished copy, else the published value. -/
def State.homeByte (s : State) (core pa : Nat) : Byte :=
  match s.copy? core pa with
  | some u => u.v
  | none => s.memByte pa

/-- The groups whose unpublished stores a byte stands for. -/
def LByte.groups (b : LByte) : List Nat := b.by_ :: b.also
def UByte.groups (b : UByte) : List Nat := b.by_ :: b.also

/-- Keep an unpublished byte of a core at its home: it stands for the copy it replaces too. -/
def State.setUnpub (s : State) (core gid pa : Nat) (also : List Nat) (v : Byte) (bad : Bool := false) : State :=
  let old := match s.copy? core pa with | some u => u.groups | none => []
  let u : UByte := { v := v, by_ := gid, also := ((also ++ old).eraseDups).filter (· != gid), bad := bad }
  s.modDie (homeDie pa) (fun d => { d with unpub := Tbl.put d.unpub (unpubKey core pa) u })

/-- Drop the unpublished copies of n bytes that some cores hold. -/
def State.dropCopies (s : State) (cores : List Nat) (pa n : Nat) : State :=
  if (s.die (homeDie pa)).unpub.isEmpty then s
  else s.modDie (homeDie pa) (fun d => { d with unpub := d.unpub.filter (fun e =>
    !(cores.contains (e.1 / 549755813888) && decide (pa ≤ e.1 % 549755813888) && decide (e.1 % 549755813888 < pa + n))) })

/-- Bank and set of a line in the L2 of its home (R195). -/
def l2Set (pa : Nat) : Nat × Nat :=
  (((bits pa 13 7).xor (bits pa 20 14)).xor ((bits pa 27 21).xor (bits pa 34 28)), bits pa 38 14 % 192)

/-- Ways of the L2 of a die that a frame owner may use (R16, R195). -/
def State.l2Ways (s : State) (owner d : Nat) : Nat := (lanesOf (Tbl.get (s.slice owner).ways 0 d)).length

/-- The home has room for unpublished copies of some cores of a line: in its set such copies take at most half of the owner's
ways (R195). -/
def State.copiesRoom (s : State) (cores : List Nat) (pa : Nat) : Bool :=
  let own := s.owner (pa / 65536)
  let held := ((s.die (homeDie pa)).unpub.map (fun e => (e.1 / 549755813888, lineNo (e.1 % 549755813888)))).eraseDups
  let new := cores.eraseDups.filter (fun c => !held.contains (c, lineNo pa))
  new.isEmpty ||
    decide (((held.filter (fun x => l2Set (x.2 * 128) == l2Set pa && s.owner (x.2 / 512) == own)).length + new.length) * 2 ≤
      s.l2Ways own (homeDie pa))

/-- The home has room for an unpublished copy of a core's line. -/
def State.copyRoom (s : State) (core pa : Nat) : Bool := s.copiesRoom [core] pa

/-- The core whose L1 holds a line: in a fused cluster the logical core that the address names (R194). -/
def State.lineCore (s : State) (core va : Nat) : Nat :=
  if (s.core core).fused then
    let l := s.clusterCores core
    l.getD (va / 128 % 2 ^ 50 % max l.length 1) core
  else core

/-- Whether a line is the one of a virtual address. -/
def Line.is (l : Line) (t va : Nat) (priv : Bool) : Bool := l.slice == t && l.va == va / 128 && l.priv == priv

/-- The line of an address, if the L1 holds it. -/
def State.line? (s : State) (t core va : Nat) (priv : Bool) : Option Line :=
  (s.core (s.lineCore core va)).lines.find? (·.is t va priv)

/-- A byte becomes data of its line at the home, when the controller finds the frame the slice's (R63). -/
def State.ownedByte (s : State) (t pa : Nat) (v : Byte) : State :=
  if s.ownerNow (pa / 65536) == t then s.setMem pa [v] else s

/-- The poison marks of a line's dirty words that pass a test move to its home with them (R101). -/
def State.moveMarks (s : State) (l : Line) (p : LByte → Bool) : State :=
  l.bad.foldl (fun s w =>
    if l.bytes.any (fun e => e.1 / 8 == w && e.2.dirty && p e.2) then s.markBad (.l2 (l.pa / 8 + w)) else s) s

/-- A dirty byte leaves for its home as an unpublished copy of its core, and of every core whose result it includes, each standing
for the stores of that core's groups (R193, R194). -/
def State.copyOut (s : State) (pa : Nat) (b : LByte) (bad : Bool) : State :=
  let on (c h : Nat) : Bool := match Tbl.find s.groups h with | some g => g.core == c | none => false
  (b.core :: b.cores).foldl (fun s c =>
    let mine := b.groups.filter (on c)
    if c = b.core then s.setUnpub c b.by_ pa (mine.filter (· != b.by_)) b.v bad
    else s.setUnpub c (mine.headD b.by_) pa mine.tail b.v bad) s

/-- Send the dirty bytes of a line to its home: unpublished copies of the writing core for a global line, ordinary data
for a private one (R193). Poison marks go with them (R101). -/
def State.spill (s : State) (l : Line) : State :=
  l.bytes.foldl (fun s e =>
    if e.2.dirty then
      if l.priv then s.ownedByte l.slice (l.pa + e.1) e.2.v
      else s.copyOut (l.pa + e.1) e.2 (l.bad.contains (e.1 / 8))
    else s) (if l.priv then s.moveMarks l (fun _ => true) else s)

/-- Least recently used line of a set. -/
def lruLine (ls : List Line) : Option Line :=
  ls.foldl (fun b l => match b with | none => some l | some m => if l.used < m.used then some l else b) none

/-- The line that leaves a set of an L1 when an address is allocated: 128 sets of 16 ways (R193). -/
def Core.victim (c : Core) (va : Nat) : Option Line :=
  let set := c.lines.filter (fun l => l.va % 128 == va / 128 % 128)
  if set.length < 16 then none else lruLine set

/-- A line's unpublished bytes have room at their home (R195). -/
def State.lineRoom (s : State) (l : Line) : Bool :=
  l.priv || s.copiesRoom ((l.bytes.filter (·.2.dirty)).flatMap (fun e => e.2.core :: e.2.cores)) l.pa

/-- Make room in the set of a line and allocate it, without filling it (R193). -/
def State.allocLine (s : State) (t core gid va pa : Nat) (priv : Bool) : State :=
  let hc := s.lineCore core va
  let c := s.core hc
  if c.lines.any (·.is t va priv) then s
  else
    let victim := c.victim va
    let s1 := match victim with | none => s | some l => s.spill l
    s1.modCore hc (fun c =>
      { c with lines := { va := va / 128, pa := pa / 128 * 128, slice := t, priv := priv, gid := gid, used := c.useCount }
          :: (match victim with | none => c.lines | some l => c.lines.erase l), useCount := c.useCount + 1 })

/-- Change the line of an address. -/
def State.modLine (s : State) (t core va : Nat) (priv : Bool) (f : Line → Line) : State :=
  s.modCore (s.lineCore core va) (fun c =>
    { c with lines := c.lines.map (fun l => if l.is t va priv then { f l with used := c.useCount } else l),
             useCount := c.useCount + 1 })

/-- The 64-bit words of a line with a byte that a fill brings from a poisoned word of its home (R101). -/
def State.badFill (s : State) (core : Nat) (l : Line) : List Nat :=
  if s.m.poison.isEmpty && s.m.badWords.isEmpty then []
  else (List.range 16).filter (fun w => s.poisoned (l.pa + 8 * w) && !l.bad.contains w &&
    (List.range 8).any (fun i => (Tbl.find l.bytes (8 * w + i)).isNone && (s.copy? core (l.pa + 8 * w + i)).isNone))

/-- The published bytes of a line that a load finds absent are fetched from the home (R193), with their poison marks (R101); an
unpublished copy stays there, for its core alone (R195). -/
def State.fillLine (s : State) (t core gid va pa : Nat) (priv : Bool) : State :=
  let s1 := s.allocLine t core gid va pa priv
  s1.modLine t core va priv (fun l =>
    { l with bad := s1.badFill core l ++ l.bad, bytes := (List.range 128).foldl (fun b i =>
        match Tbl.find b i with
        | some _ => b
        | none => if (s1.copy? core (l.pa + i)).isSome then b else Tbl.put b i { v := s1.memByte (l.pa + i) }) l.bytes })

/-- The byte is data of a core, or includes a result of it. -/
def LByte.ofCore (b : LByte) (core : Nat) : Bool := b.core == core || b.cores.contains core

/-- A byte as a load of a core sees it in an L1 line: its own unpublished byte; a clean one, unless the core has a copy of its own
at the home; another core's unpublished byte is never returned (R194, R217). -/
def State.lineByte (s : State) (core : Nat) (l : Line) (i : Nat) : Option Byte :=
  match Tbl.find l.bytes i with
  | some b => if (if b.dirty then b.ofCore core else l.priv || (s.copy? core (l.pa + i)).isNone) then some b.v else none
  | none => none

/-- A byte as an atomic in a fused L1 finds it: the last atomic's result while no plain store has followed it, whichever core of
the cluster made it (R212; log 17). -/
def State.fusedByte (s : State) (t core va pa : Nat) : Option Byte :=
  match (s.line? t core va false).bind (fun l => Tbl.find l.bytes (va % 128)) with
  | some b => if b.dirty then some b.v else copies
  | none => copies
where
  copies : Option Byte := ((s.clusterCores core).findSome? (fun c => s.copy? c pa)).map (·.v)

/-- Read n bytes through the L1 of a core. -/
def State.cachedRead (s : State) (t core va pa n : Nat) (priv : Bool) : List Byte :=
  (List.range n).map (fun i =>
    match s.line? t core va priv with
    | some l => (s.lineByte core l (va % 128 + i)).getD (s.homeByte core (pa + i))
    | none => s.homeByte core (pa + i))

/-- In a fused cluster, a store by another core first evicts the line's dirty bytes (R194). -/
def State.takeLine (s : State) (t core va : Nat) (priv : Bool) : State :=
  match s.line? t core va priv with
  | none => s
  | some l =>
    if l.bytes.any (fun e => e.2.dirty && (e.2.core != core || !e.2.cores.isEmpty)) then
      (s.spill l).modLine t core va priv (fun l => { l with bytes := [], bad := [] })
    else s

/-- The groups whose unpublished store of a byte a new one replaces, in the L1 line or in a copy of some cores. -/
def State.replaced (s : State) (l : Option Line) (cores : List Nat) (va pa : Nat) : List Nat :=
  (match l.bind (fun l => Tbl.find l.bytes (va % 128)) with | some b => if b.dirty then b.groups else [] | none => []) ++
  cores.flatMap (fun c => match s.copy? c pa with | some u => u.groups | none => [])

/-- Store bytes in the L1 of a core (R215). They replace the copies of the cores given: of the storing core, or for an atomic
in a fused L1 of every core of the cluster. -/
def State.cachedPut (s : State) (cores : List Nat) (t core gid va pa : Nat) (priv : Bool) (bs : List Byte) : State :=
  let s0 := s.takeLine t core va priv
  let old := s0.line? t core va priv
  let s1 := s0.allocLine t core gid va pa priv
  let also (i : Nat) : List Nat := if priv then [] else ((s0.replaced old cores (va + i) (pa + i)).eraseDups).filter (· != gid)
  let shared (i : Nat) : List Nat := cores.filter (fun c => c != core && (s0.copy? c (pa + i)).isSome)
  let put (b : Tbl LByte) (e : Nat × Byte) : Tbl LByte :=
    Tbl.put b (va % 128 + e.1) { v := e.2, dirty := true, core := core, by_ := gid, also := also e.1, cores := shared e.1 }
  let s2 := s1.modLine t core va priv (fun l =>
    { l with bad := l.bad.filter (fun w => w * 8 + 8 ≤ va % 128 || va % 128 + bs.length ≤ w * 8),
             bytes := ((List.range bs.length).zip bs).foldl put l.bytes })
  if priv then s2 else s2.dropCopies cores pa bs.length

/-- A plain store in the L1 of a core (R215). -/
def State.cachedWrite (s : State) (t core gid va pa : Nat) (priv : Bool) (bs : List Byte) : State :=
  s.cachedPut [core] t core gid va pa priv bs

/-- Clear the poison marks of lines and of L2 words that are overwritten whole (R101). -/
def State.unpoison (s : State) (a n : Nat) : State :=
  if s.m.poison.isEmpty && s.m.badWords.isEmpty then s
  else (s.modM (fun m => { m with poison := m.poison.filter (fun l => l * 128 < a || a + n < l * 128 + 128) })).clearBad (fun w =>
    match w with
    | .l2 k => decide (a ≤ k * 8) && decide (k * 8 + 8 ≤ a + n)
    | _ => false)

/-- Publish bytes: they become the data of their line at the home (R215). -/
def State.publishBytes (s : State) (pa : Nat) (bs : List Byte) : State := (s.setMem pa bs).unpoison pa bs.length

/-- A dirty byte stands for an unpublished store of a group. -/
def LByte.holds (b : LByte) (gid : Nat) : Bool := b.dirty && b.groups.contains gid

/-- Publish the dirty bytes that stand for stores of a group in the lines of one core; those that fail a test are dropped. -/
def State.publishLines (s : State) (hc gid : Nat) (p : Nat → Bool) : State :=
  let c := s.core hc
  let s1 := c.lines.foldl (fun s l =>
    if l.priv then s
    else l.bytes.foldl (fun s e =>
      if e.2.holds gid && p (l.pa + e.1) then s.ownedByte l.slice (l.pa + e.1) e.2.v else s) (s.moveMarks l (·.holds gid))) s
  s1.modCore hc (fun c => { c with lines := c.lines.map (fun l =>
    if l.priv then l
    else { l with bytes := l.bytes.filterMap (fun e =>
      if e.2.holds gid then (if p (l.pa + e.1) then some (e.1, { e.2 with dirty := false, also := [] }) else none) else some e) }) })

/-- Publish the unpublished copies that stand for stores of a group at the homes of one die. -/
def State.publishCopies (s : State) (d gid : Nat) (p : Nat → Bool) : State :=
  let l := (s.die d).unpub
  let t := (s.group gid).slice
  (l.foldl (fun s e =>
    let a := e.1 % 549755813888
    if e.2.groups.contains gid && p a then (if e.2.bad then (s.ownedByte t a e.2.v).markBad (.l2 (a / 8)) else s.ownedByte t a e.2.v)
    else s) s).modDie d
    (fun x => { x with unpub := x.unpub.filter (fun e => !e.2.groups.contains gid) })

/-- The cores whose L1 may hold lines of a core: its cluster when fused. -/
def State.l1Cores (s : State) (core : Nat) : List Nat := if (s.core core).fused then s.clusterCores core else [core]

/-- Publish the stores of a group at the addresses of a test; its other stores are dropped. -/
def State.publishIf (s : State) (gid : Nat) (p : Nat → Bool) : State :=
  let core := (s.group gid).core
  let s1 := (List.range 4).foldl (fun s d => s.publishCopies d gid p) s
  (s.l1Cores core).foldl (fun s hc => s.publishLines hc gid p) s1

/-- Publish every store of a group (R216 step 1). A byte that a later store of another group has replaced is published with
that store's value; other groups' bytes stay (log 17). -/
def State.publish (s : State) (gid : Nat) : State := s.publishIf gid (fun _ => true)

/-- Withdraw every unpublished store of a group (R226): its bytes leave the L1 and the homes. -/
def State.withdraw (s : State) (gid : Nat) : State :=
  let core := (s.group gid).core
  let s1 := (s.l1Cores core).foldl (fun s hc => s.modCore hc (fun c => { c with lines := c.lines.map (fun l =>
    if l.priv then l
    else
      let b := l.bytes.filter (fun e => !(e.2.dirty && e.2.by_ == gid))
      { l with bytes := b, bad := l.bad.filter (fun w => b.any (fun e => e.1 / 8 == w)) }) })) s
  (List.range 4).foldl (fun s d => s.modDie d (fun x => { x with unpub := x.unpub.filter (fun e => e.2.by_ != gid) })) s1

/-- phase.open at scope cl or wider (R193, R217): global lines keep only their dirty bytes. -/
def openLines (ls : List Line) : List Line :=
  (ls.map (fun l => if l.priv then l else
    let b := l.bytes.filter (fun e => e.2.dirty)
    { l with bytes := b, bad := l.bad.filter (fun w => b.any (fun e => e.1 / 8 == w)) })).filter
    (fun l => l.priv || !l.bytes.isEmpty)

/-- phase.open acts on the L1 of a core. -/
def State.openL1 (s : State) (core : Nat) : State :=
  (s.l1Cores core).foldl (fun s hc => s.modCore hc (fun c => { c with lines := openLines c.lines })) s

/-- Write back and invalidate an L1 (R160, R194). -/
def State.flushL1 (s : State) (core : Nat) : State :=
  ((s.core core).lines.foldl (fun s l => s.spill l) s).modCore core (fun c => { c with lines := [] })

/-- Private lines of a group: written back at a save, dropped at its retirement (R193). -/
def State.dropPrivate (s : State) (gid : Nat) (writeBack : Bool) : State :=
  let core := (s.group gid).core
  (s.l1Cores core).foldl (fun s hc =>
    let mine := (s.core hc).lines.filter (fun l => l.priv && l.gid == gid)
    let s1 := if writeBack then mine.foldl (fun s l => s.spill l) s else s
    s1.modCore hc (fun c => { c with lines := c.lines.filter (fun l => !(l.priv && l.gid == gid)) })) s

/-- Read n bytes of a location, for a group on a core. -/
def State.readLoc (s : State) (g : Group) (loc : Loc) (n : Nat) : List Byte :=
  match loc with
  | .cached va pa priv => s.cachedRead g.slice g.core va pa n priv
  | .home pa mt => if mt = 1 then (List.range n).map (fun i => s.homeByte g.core (pa + i)) else s.memBytes pa n
  | .host pa => s.hostBytes pa n
  | .spad core off => s.spadRead core off n
  | .peer .. => []
  | .mcast _ _ => []

/-- The state after a load of a location: a cached load fills the line. -/
def State.touchLoc (s : State) (gid : Nat) (g : Group) (loc : Loc) : State :=
  match loc with
  | .cached va pa priv => s.fillLine g.slice g.core gid va pa priv
  | _ => s

/-- Store bytes at a location, for a group: a private word under MT 1 is ordinary data at the home (R193). -/
def State.writeLoc (s : State) (gid : Nat) (g : Group) (loc : Loc) (priv : Bool) (bs : List Byte) : State :=
  match loc with
  | .cached va pa p => s.cachedWrite g.slice g.core gid va pa p bs
  | .home pa mt =>
    if mt = 1 && !priv then ((List.range bs.length).zip bs).foldl (fun s e => s.setUnpub g.core gid (pa + e.1) [] e.2) s
    else s.publishBytes pa bs
  | .host pa => s.setHost pa bs
  | .spad core off => s.setSpad core off bs
  | .peer .. => s
  | .mcast _ _ => s

/-! ## Access to memory by engines and the helm: published values at the home (R223) -/

/-- Where an engine of slice t on a die reaches a global address, or the cause of R188. -/
def State.engineLoc (s : State) (t die va : Nat) (acc : Access) : Except WalkFail (TlbEntry × Nat) :=
  match s.engineTranslate t die va with
  | .error f => .error f
  | .ok e =>
    if !(match acc with | .load => e.r | .store => e.w | .fetch => e.x && e.target == 0) then
      .error { cause := 9, host := false }
    else if e.target == 0 && s.ownerNow ((e.out + va % e.size) / 65536) != t then .error { cause := 10, host := false }
    else .ok (e, e.out + va % e.size)

/-- n bytes of a slice's global memory as an engine finds them at their home, if every page allows the access and none is a
peer's. An atomic needs the permission to store alone (R198). -/
def State.engineSpan (s : State) (t die va n : Nat) (acc : Access) : Except WalkFail (List Byte) :=
  (List.range n).foldr (fun i r =>
    match r with
    | .error f => .error f
    | .ok l =>
      match s.engineLoc t die (va + i) acc with
      | .error f => .error f
      | .ok (e, a) =>
        if e.target = 0 then .ok (s.memByte a :: l)
        else if e.target = 1 then .ok (s.hostByte a :: l)
        else .error { cause := 9, host := true }) (.ok [])

/-- n bytes of a slice's global memory as an engine reads them. -/
def State.engineRead (s : State) (t die va n : Nat) : Except WalkFail (List Byte) := s.engineSpan t die va n .load

/-- Write bytes to a slice's global memory; none when a page fails. -/
def State.engineBytes (s : State) (t die va : Nat) : List Byte → Option State
  | [] => some s
  | b :: r =>
    match s.engineLoc t die va .store with
    | .error _ => none
    | .ok (e, a) =>
      if e.target = 0 then (s.publishBytes a [b]).engineBytes t die (va + 1) r
      else if e.target = 1 then (s.setHost a [b]).engineBytes t die (va + 1) r
      else none

/-- A poisoned line or L2 word that device addresses cover whole loses its mark; a part of one consumes it, which kills the
slice at the next nanosecond (R101; log 47). -/
def State.writeMarks (s : State) (t : Nat) (as : List Nat) : State :=
  let lines := (s.m.poison.filter (fun l => as.any (fun a => lineNo a == l)))
  let words := s.m.badWords.filter (fun w => match w with | .l2 k => as.any (fun a => a / 8 == k) | _ => false)
  match lines.find? (fun l => decide ((as.filter (fun a => lineNo a == l)).length < 128)),
        words.find? (fun w => match w with | .l2 k => decide ((as.filter (fun a => a / 8 == k)).length < 8) | _ => false) with
  | some l, _ => s.modSlice t (fun x => { x with consumed := some (l / 512) })
  | none, some (.l2 k) => s.modSlice t (fun x => { x with consumed := some (k / 8192) })
  | none, _ => (s.modM (fun m => { m with poison := m.poison.filter (fun l => !lines.contains l) })).clearBad words.contains

/-- Write bytes to a slice's global memory as an engine does; none when a page fails. -/
def State.engineWrite (s : State) (t die va : Nat) (l : List Byte) : Option State :=
  (s.engineBytes t die va l).map (fun u =>
    if s.m.poison.isEmpty && s.m.badWords.isEmpty then u
    else u.writeMarks t ((List.range l.length).filterMap (fun i =>
      match s.engineLoc t die (va + i) .store with
      | .ok (e, a) => if e.target = 0 then some a else none
      | .error _ => none)))

/-! ## Records and rings (R202 to R206) -/

/-- Fields of a record of R204. -/
structure RecordData where
  type : Nat := 4
  code : Nat := 0
  flags : Nat := 0
  slice : Nat := 16
  ctx : Nat := 0
  src : Nat := 0
  va : Nat := 0
  ipa : Nat := 0
  pc : Nat := 0
  token : Nat := 0
  mask : Nat := 0
  place : Nat := 0
  lin : Nat := 0
  data : Nat := 0
  deriving DecidableEq, Repr

/-- The 64 bytes of a record (R204). -/
def RecordData.bytes (r : RecordData) (time : Nat) : List Byte :=
  leBytes 1 r.type ++ leBytes 1 r.code ++ leBytes 1 r.flags ++ leBytes 1 r.slice ++ leBytes 2 r.ctx ++ leBytes 1 r.src ++
  leBytes 1 0 ++ leBytes 8 r.va ++ leBytes 8 r.ipa ++ leBytes 8 r.pc ++ leBytes 4 r.token ++ leBytes 4 r.mask ++
  leBytes 4 r.place ++ leBytes 4 r.lin ++ leBytes 8 r.data ++ leBytes 8 time

/-- The ring of a function: VF n is n, the PF is 0; it lies with slice n - 1, or 16 for the PF. -/
def fnSlice (fn : Nat) : Nat := if fn = 0 then 16 else fn - 1

/-- The function of a slice's rings: its VF, or the PF when the VF does not exist (R61). -/
def State.fnOf (s : State) (t : Nat) : Nat := if t < 16 && s.m.vfEnabled && t < s.m.numVfs then t + 1 else 0

def Slice.ring (x : Slice) (k : Nat) : Ring := Tbl.get x.rings {} k

/-- Post a record towards a ring; it is written when the reporting port grants it (R203). Records of rings 1 and 2 are
counted in LOST while the ring is off (R202). -/
def State.postRecordAt (s : State) (d fn ring : Nat) (r : RecordData) : State :=
  let t := fnSlice fn
  if (Tbl.get (s.slice t).rings {} ring).en || ring = 0 then
    s.modM (fun m => { m with records := m.records ++ [(ring, fn, d, r.bytes s.cycle)] })
  else s.modSlice t (fun x =>
    { x with rings := Tbl.put x.rings ring { x.ring ring with lost := (x.ring ring).lost + 1 } })

/-- Post a record of ring 1 or 2. -/
def State.postRecord (s : State) (fn ring : Nat) (r : RecordData) : State := s.postRecordAt 0 fn ring r

/-- Post an event to the PF's ring 2 (R205). -/
def State.postPf (s : State) (code data : Nat) : State := s.postRecord 0 2 { code := code, data := data }

/-- Post an event to ring 2 of a slice's function. -/
def State.postVf (s : State) (t code data : Nat) : State :=
  s.postRecord (s.fnOf t) 2 { code := code, slice := t, data := data }

/-- WHERE of a group (R204). -/
def Group.place4 (g : Group) : Nat := g.lDie + 256 * g.lCl + 65536 * g.lCore + 16777216 * g.num

/-! ## Error words, counters and arrival objects (R94 to R97) -/

/-- An error word (R94). -/
def errorWord (cause nak src done : Nat) : Nat :=
  2 ^ 63 + nak % 16 * 2 ^ 56 + cause % 256 * 2 ^ 48 + src % 256 * 2 ^ 40 + min done 0xFFFFFFFFFF

/-- Tell the slice that a completion object could not be written (R83, OBJ_LOST). -/
def State.objLost (s : State) (t src object addr : Nat) : State :=
  s.postRecord (s.fnOf t) 2 { code := 15, slice := t, va := addr, data := src + 256 * object }

/-- The physical dies of a slice in logical order: those on which its deckle names a cluster or a channel (R13). -/
def Slice.dies (x : Slice) : List Nat :=
  (List.range 4).filter (fun d => Tbl.get x.cld 0 d != 0 || Tbl.get x.chlo 0 d != 0 || Tbl.get x.chhi 0 d != 0)

/-- Skip sequences that a live or saved entry of the context still holds (R182); one more candidate than there are entries is
enough. -/
def freshSeq (held : List Word) (mk : Nat → Word) : Nat → Nat → Nat
  | 0, q => q
  | n + 1, q => if held.contains (mk q) then freshSeq held mk n ((q + 1) % 262144) else q

/-- A watermark: context field, sequence, logical die (R182). -/
def wmark (ctx ld q : Nat) : Word := BitVec.ofNat 32 (ctx % 4096 * 1048576 + q % 262144 * 4 + ld % 4)

/-- The module's own initiator number in the windows of R183; peers carry their MODID, below 1,024. -/
def ownModule : Nat := 1024

/-- Entries leave the window when the logbook entry is freed (R183). -/
def State.unrecord (s : State) (owner wm : Nat) : State :=
  s.modM (fun m => { m with windows := m.windows.filter (fun w => !(w.1 == ownModule && w.2.1 == owner && w.2.2.1 == wm)) })

/-- The watermarks of some entries leave the windows: the entries are freed (R183). -/
def State.forget (s : State) (owner : Nat) (l : List Entry) : State :=
  (l.filter (fun e => e.cls == 1)).foldl (fun s e => s.unrecord owner e.wmark.toNat) s

/-- Allocate a watermark of a context on a die, by its logical number. -/
def State.drawMark (s : State) (ctx ld d : Nat) : State × Word :=
  let held := (s.groups.filter (fun e => e.2.ctx == ctx)).flatMap (fun e => e.2.log.map (·.wmark))
  let q := freshSeq held (wmark ctx ld) (held.length + 1) (Tbl.get (s.die d).seq 0 ctx)
  (s.modDie d (fun x => { x with seq := Tbl.put x.seq ctx ((q + 1) % 262144) }), wmark ctx ld q)

/-- Some device address of n bytes of a slice's memory waits at its controller (R66, R67). -/
def State.spanBusy (s : State) (t die va n : Nat) : Bool :=
  if s.m.ownJob.isNone && s.hbm.all (·.2.held.isEmpty) then false
  else ((List.range (n / 65536 + 2)).map (fun k => max va (min (va / 65536 * 65536 + 65536 * k) (va + n - 1)))).any (fun a =>
    match s.engineLoc t die a .load with
    | .ok (e, pa) => e.target == 0 && s.placeBusy t pa
    | .error _ => false)

/-- An access of an engine to an object waits at its controller. -/
def State.objWait (s : State) (w : ObjWait) : State := s.modM (fun m => { m with objWaits := m.objWaits ++ [w] })

/-- Add to a counter by an atomic at its home; 0 names none (R85, R94). The addition is a class I1 operation of a context: it
takes a watermark, which leaves its window with the answer (R182, R183). -/
def State.counterAdd (s : State) (t die ctx addr n src : Nat) : State :=
  if addr = 0 then s
  else if s.spanBusy t die addr 8 then s.objWait (.add t die ctx addr n src)
  else
    let s1 := (s.drawMark ctx ((s.slice t).dies.idxOf die) die).1
    match s1.engineSpan t die addr 8 .store with
    | .error _ => s1.objLost t src 1 addr
    | .ok l => (s1.engineWrite t die addr (leBytes 8 (ofLe l + n))).getD (s1.objLost t src 1 addr)

/-- Write an error word unless one is set, by compare-and-swap at its home (R95). -/
def State.counterError (s : State) (t die addr word src : Nat) : State :=
  if addr = 0 then s
  else if s.spanBusy t die (addr + 8) 8 then s.objWait (.error t die addr word src)
  else
    match s.engineSpan t die (addr + 8) 8 .store with
    | .error _ => s.objLost t src 1 addr
    | .ok l =>
      if nbit (ofLe l) 63 then s
      else (s.engineWrite t die (addr + 8) (leBytes 8 word)).getD (s.objLost t src 1 addr)

/-- Write bytes of an object of a slice, whose loss is reported (R83). -/
def State.objWrite (s : State) (t die addr : Nat) (l : List Byte) (src object : Nat) : State :=
  if s.spanBusy t die addr l.length then s.objWait (.write t die addr l src object)
  else (s.engineWrite t die addr l).getD (s.objLost t src object addr)

/-- An access that waited is made again. -/
def State.objAgain (s : State) (w : ObjWait) : State :=
  match w with
  | .add t die ctx addr n src => s.counterAdd t die ctx addr n src
  | .error t die addr word src => s.counterError t die addr word src
  | .write t die addr l src object => s.objWrite t die addr l src object

/-- An arrival object as numbers (R96). -/
structure Arrival where
  err : Nat
  gen : Nat
  init : Nat
  pend : Nat
  owed : Int
  deriving DecidableEq, Repr

def Arrival.ofBytes (l : List Byte) : Arrival :=
  { owed := sext 48 (field l 0 6), pend := field l 6 2, init := field l 8 2, gen := field l 10 2, err := field l 12 1 }

def Arrival.toBytes (a : Arrival) : List Byte :=
  leBytes 6 (wrap 48 a.owed) ++ leBytes 2 a.pend ++ leBytes 2 a.init ++ leBytes 2 a.gen ++ leBytes 1 a.err ++ leBytes 3 0

/-- The completion check of R97. -/
def Arrival.check (a : Arrival) : Arrival :=
  if a.pend = 0 && a.owed == 0 then { a with gen := (a.gen + 1) % 65536, pend := a.init }
  else if a.pend = 0 && decide (a.owed < 0) then
    { a with err := if a.err = 0 then 0x10 else a.err, gen := (a.gen + 1) % 65536, pend := a.init, owed := 0 }
  else a

/-- One arrival that changes OWED by d (R97). -/
def Arrival.arrive (a : Arrival) (d : Int) : Arrival :=
  let b := { a with owed := a.owed + d }
  (if b.pend > 0 then { b with pend := b.pend - 1 } else if b.err = 0 then { b with err := 0x10 } else b).check

/-- Bytes of a copy land (R97). -/
def Arrival.land (a : Arrival) (n : Nat) : Arrival := ({ a with owed := a.owed - n } : Arrival).check

/-- A copy or collective stops with a cause (R97). -/
def Arrival.stop (a : Arrival) (c : Nat) : Arrival := (if a.err = 0 then { a with err := c } else a).check

def State.arrival (s : State) (core off : Nat) : Arrival := Arrival.ofBytes (s.spadBytes core off 16)

/-- Write an arrival object after an event; one whose INIT is 0 is undefined after an arrival (R97, log 5). -/
def State.setArrival (s : State) (core off : Nat) (arrival : Bool) (a : Arrival) : State :=
  if arrival && a.init == 0 then s.setSpad core off ((List.range 16).map (fun i => Config.freeByte s.free i))
  else s.setSpad core off a.toBytes

/-! ## Logical numbers (R13, R14) -/

/-- Physical die of a logical die of a slice. -/
def State.physDie (s : State) (t l : Nat) : Option Nat := (s.slice t).dies[l]?

/-- Logical number of a physical die in a slice. -/
def State.logDie (s : State) (t d : Nat) : Nat := (s.slice t).dies.idxOf d

/-- Physical core of logical numbers; the cluster is numbered within its die. -/
def State.physCore (s : State) (t ld lc lk : Nat) : Option Nat :=
  match s.physDie t ld with
  | none => none
  | some d =>
    match ((s.slice t).clusters.filter (fun e => e.1 == d))[lc]? with
    | none => none
    | some (d, c) => (s.clusterCores (d * 36 + c * 4))[lk]?

/-! ## Logbook entries (R179 to R181) -/

def Group.entry? (g : Group) (id : Nat) : Option Entry := g.log.find? (fun e => e.id == id)
def Group.modEntry (g : Group) (id : Nat) (f : Entry → Entry) : Group :=
  { g with log := g.log.map (fun e => if e.id == id then f e else e) }
def Group.freeEntry (g : Group) (id : Nat) : Group := { g with log := g.log.filter (fun e => e.id != id) }

/-- Index of a split in the group's table. -/
def Group.splitIndex (g : Group) (born : Nat) : Nat := g.splits.findIdx (fun p => p.born == born)

/-- Index of the split that an entry belongs to: its own while that holds lanes of it, else another that does, 0xFF when
every lane has exited (R180, R408). -/
def Group.entrySplit (g : Group) (e : Entry) : Nat :=
  let holds (p : Split) : Bool := (p.mask ||| p.held) &&& e.mask != 0
  match e.split with
  | some b =>
    (match g.splits.findIdx? (fun p => p.born == b && holds p) with
     | some i => i
     | none => (g.splits.findIdx? holds).getD 0xFF)
  | none => (g.splits.findIdx? holds).getD 0xFF

/-- The 64 bytes of an entry (R180). -/
def entryBytes (g : Group) (e : Entry) : List Byte :=
  leBytes 1 e.kind ++ leBytes 1 (128 + 64 * b2n e.failed + 32 * b2n e.sent + e.cls) ++
  leBytes 1 (g.entrySplit e) ++
  leBytes 1 e.dreg ++ leBytes 4 e.wmark.toNat ++ leBytes 8 e.pc.toNat ++ leBytes 4 e.insn.toNat ++
  leBytes 4 e.mask.toNat ++ leBytes 4 e.done.toNat ++ leBytes 1 e.cause ++ leBytes 1 e.info ++ leBytes 2 0 ++
  leBytes 8 e.prog.toNat ++ leBytes 8 e.promise.toNat ++ leBytes 16 0

/-- n copies of the zero byte. -/
def zeros (n : Nat) : List Byte := List.replicate n 0

/-- A list of bytes made exactly n long. -/
def padTo (n : Nat) (l : List Byte) : List Byte := l.take n ++ zeros (n - l.length)

/-- STATE of a split in a frame (R178). -/
def SplitState.code : SplitState → Nat
  | .run => 0
  | .wait => 1
  | .park => 2
  | .sleep => 3

/-- The 48 bytes of a split (R178). -/
def splitBytes (g : Group) (p : Split) : List Byte :=
  leBytes 8 p.pc.toNat ++ leBytes 4 p.mask.toNat ++ leBytes 1 p.st.code ++ leBytes 1 p.stack.length ++
  leBytes 1 (g.splits.filter (fun q => q.born < p.born)).length ++
  leBytes 1 (if p.st == .wait then (g.splits.filter (fun q => q.st == .wait && q.queued < p.queued)).length else 0xFF) ++
  padTo 32 (p.stack.reverse.flatMap (fun m => leBytes 4 m.toNat))

/-- The SPEC field of a frame (R282). -/
def specBytes (g : Group) : List Byte :=
  let sl := (g.splits.filter (fun p => p.st == .sleep)).take 4
  leBytes 4 g.fmode.toNat ++ leBytes 4 g.privWords.toNat ++
  (sl.flatMap (fun p => leBytes 1 (g.splitIndex p.born)) ++ List.replicate (4 - sl.length) 0xFF) ++ zeros 4 ++
  padTo 32 (sl.flatMap (fun p => leBytes 8 (if p.why == .time || p.why == .promise then p.deadline else 0))) ++ zeros 16

/-- The LOG field of a frame. -/
def logBytes (g : Group) : List Byte := padTo 3072 (g.log.flatMap (entryBytes g))

/-- The frame of a group (R177). -/
def frameBytes (g : Group) (why : Nat) : List Byte :=
  leBytes 4 0x4652414D ++ leBytes 2 1 ++ leBytes 1 g.regs ++ leBytes 1 g.splits.length ++ leBytes 1 g.log.length ++
  leBytes 1 why ++ leBytes 2 g.ctx ++ leBytes 1 g.num ++ leBytes 1 (b2n g.inh) ++ zeros 2 ++ leBytes 4 g.lin ++ zeros 4 ++
  leBytes 8 g.age ++ zeros 32 ++
  padTo 64 (leBytes 4 g.trap.cause.toNat ++ leBytes 4 g.trap.mask.toNat ++ leBytes 4 g.trap.smask.toNat ++
    leBytes 4 g.trap.ctl.toNat ++ leBytes 8 g.trap.pc.toNat ++ leBytes 8 g.trap.rpc.toNat ++ leBytes 8 g.trap.addr.toNat ++
    leBytes 4 g.trap.fix.toNat) ++
  specBytes g ++
  padTo 64 ((List.range 7).flatMap (fun n => leBytes 4 (Tbl.get g.p 0 n).toNat)) ++
  (List.range 32).flatMap (fun n => leBytes 4 (Tbl.get g.s 0 n).toNat) ++
  padTo 1536 (g.splits.flatMap (splitBytes g)) ++ logBytes g ++
  (List.range g.regs).flatMap (fun n => (List.range 32).flatMap (fun l => leBytes 4 (Tbl.get g.v 0 (n * 32 + l)).toNat))

/-- FSIZE (R175). -/
def frameSize (regs : Nat) : Nat := 0x1380 + 128 * regs

/-- Address of frame k of a launch (R175). -/
def frameAddr (l : Launch) (regs k : Nat) : Nat := field l.desc 0x38 8 + k * frameSize regs

/-- Keep the frame of a saved group in step with its logbook (R184). -/
def State.syncFrame (s : State) (gid : Nat) : State :=
  match Tbl.find s.groups gid with
  | none => s
  | some g =>
    match g.place, g.frame with
    | .saved, some k =>
      let a := frameAddr (s.launchOf g) g.regs k
      match s.engineWrite g.slice (dieOf g.core) (a + 0x780) (logBytes g) with
      | none => s
      | some s1 => (s1.engineWrite g.slice (dieOf g.core) (a + 8) (leBytes 1 g.log.length)).getD s1
    | _, _ => s

/-- Free an entry, in its group or in the frame of the saved group. -/
def State.freeEntry (s : State) (gid id : Nat) : State := (s.modGroup gid (·.freeEntry id)).syncFrame gid

/-- Change an entry, in its group or in the frame of the saved group. -/
def State.modEntry (s : State) (gid id : Nat) (f : Entry → Entry) : State :=
  (s.modGroup gid (·.modEntry id f)).syncFrame gid

/-! ## Copies (R87, R98, R208 to R210, R366 to R368) -/

def CopyJob.twoD (j : CopyJob) : Bool := field j.image 0 1 % 16 == 3
def CopyJob.src (j : CopyJob) : Nat := field j.image 8 8
def CopyJob.dst (j : CopyJob) : Nat := field j.image 16 8
def CopyJob.width (j : CopyJob) : Nat := if j.twoD then field j.image 0x18 4 else field j.image 0x18 8
def CopyJob.rows (j : CopyJob) : Nat := if j.twoD then field j.image 0x1C 4 else 1
def CopyJob.spitch (j : CopyJob) : Nat := if j.twoD then field j.image 0x20 4 else 0
def CopyJob.dpitch (j : CopyJob) : Nat := if j.twoD then field j.image 0x24 4 else 0
def CopyJob.cnt (j : CopyJob) : Nat := if j.twoD then field j.image 0x28 8 else field j.image 0x20 8
def CopyJob.cadd (j : CopyJob) : Nat := if j.twoD then field j.image 0x30 4 else field j.image 0x28 4
def CopyJob.arrive (j : CopyJob) : Nat := if j.twoD then field j.image 0x34 4 else field j.image 0x2C 4
def CopyJob.promiseAt (j : CopyJob) : Nat := if j.twoD then field j.image 0x38 8 else field j.image 0x30 8
def CopyJob.size (j : CopyJob) : Nat := j.width * j.rows

/-- The arrival object that an ARRIVE field names (R87): core and offset. -/
def State.arriveAt (s : State) (t w : Nat) : Option (Nat × Nat) :=
  if nbit w 31 then (s.physCore t (bits w 30 29) (bits w 28 25) (bits w 24 23)).map (fun c => (c, bits w 21 0)) else none

/-- Change the arrival object that an ARRIVE field names; one with a poisoned word is consumed (R101, log 47). -/
def State.modArrive (s : State) (t w : Nat) (arrival : Bool) (f : Arrival → Arrival) : State :=
  match s.arriveAt t w with
  | none => s
  | some (c, o) =>
    if s.spadBad c o 16 then s.modSlice t (fun x => { x with consumed := some 0 })
    else s.setArrival c o arrival (f (s.arrival c o))

def Die.engine (d : Die) (e : Nat) : Engine := Tbl.get d.engines {} e

def State.modEngine (s : State) (die e : Nat) (f : Engine → Engine) : State :=
  s.modDie die (fun d => { d with engines := Tbl.put d.engines e (f (d.engine e)) })

def State.modCopy (s : State) (die e id : Nat) (f : CopyJob → CopyJob) : State :=
  s.modEngine die e (fun x => { x with jobs := x.jobs.map (fun j => if j.id == id then f j else j) })

def State.dropCopy (s : State) (die e id : Nat) : State :=
  s.modEngine die e (fun x => { x with jobs := x.jobs.filter (fun j => j.id != id) })

/-- ENG code of a copy engine (R80). -/
def copyEng (ld e : Nat) : Nat := 0x20 + 8 * ld + e

/-- The late cause and INFO of a copy or collective that stopped (R368). -/
def lateOf (cause nak : Nat) : Option (Nat × Nat) :=
  match cause with
  | 3 => some (10, 0)
  | 4 => some (9, 0)
  | 5 => some (11, nak)
  | 6 => some (12, 0)
  | 8 => some (6, 0)
  | _ => none

/-- Mark an entry failed with a late cause over the lanes given (R166). -/
def State.failEntry (s : State) (gid id cause info : Nat) (lanes : Word) (addr : DWord) : State :=
  s.modEntry gid id (fun e => { e with failed := true, cause := cause, info := info, failMask := lanes, addr := addr })

/-- An engine's operation of an entry has stopped or completed: the entry is freed or marked failed (R368, R408). -/
def State.settleEntry (s : State) (who : Option (Nat × Nat)) (stopped : Option (Nat × Nat)) (prog : Nat) (addr : DWord) : State :=
  match who with
  | none => s
  | some (gid, id) =>
    match Tbl.find s.groups gid with
    | none => s
    | some g =>
      match g.entry? id with
      | none => s
      | some e =>
        match stopped.bind (fun c => lateOf c.1 c.2) with
        | none => s.freeEntry gid id
        | some (cause, info) =>
          if e.mask &&& g.live = 0 then s.freeEntry gid id
          else (s.modEntry gid id (fun e => { e with prog := BitVec.ofNat 64 prog })).failEntry gid id cause info e.mask addr

/-- A packet of a queue is complete (R85). -/
def State.packetDone (s : State) (t : Nat) (q : Option Nat) (num : Nat) : State :=
  match q with
  | none => s
  | some k => s.modSlice t (fun x => { x with pending := Tbl.upd x.pending k (fun l => l.filter (fun p => p.num != num)) })

/-- TYPE of a packet (R84). -/
def pktKind (b : List Byte) : Nat := field b 0 1 % 16

/-- A packet of a queue may start: every earlier packet of the queue has started, and has completed if it has FENCE or is a
MARKER (R85). -/
def State.pktMay (s : State) (t k num : Nat) : Bool :=
  let l := Tbl.get (s.slice t).pending [] k
  match l.find? (fun p => p.num == num) with
  | none => true
  | some p =>
    let before := l.takeWhile (fun q => q.num != num)
    p.started || (before.all (·.started) && (before.isEmpty || !(nbit (field p.bytes 0 1) 4 || pktKind p.bytes == 7)))

/-- A packet has started. -/
def State.pktStart (s : State) (t : Nat) (q : Option Nat) (num : Nat) : State :=
  match q with
  | none => s
  | some k => s.modSlice t (fun x =>
      { x with pending := Tbl.upd x.pending k (fun l => l.map (fun p => if p.num == num then { p with started := true } else p)) })

/-- A packet of a queue has started (R85). -/
def Slice.started (x : Slice) (q : Option Nat) (num : Nat) : Bool :=
  match q with
  | none => true
  | some k => (Tbl.get x.pending [] k).all (fun p => p.num != num || p.started)

/-- End a copy whose pieces in flight are all down: completion (R85, R94) or its stop (R95, R97, R209). -/
def State.finishCopy (s : State) (die e : Nat) (j : CopyJob) : State :=
  let eng := copyEng j.lDie e
  let s1 := match j.stopped with
    | none => s.counterAdd j.slice die j.ctx j.cnt j.cadd eng
    | some (c, nak) =>
      (s.counterError j.slice die j.cnt (errorWord c nak eng j.landed) eng).modArrive j.slice j.arrive false (·.stop c)
  ((s1.dropCopy die e j.id).settleEntry j.gid j.stopped j.landed j.failAddr).packetDone j.slice j.queue j.pkt

/-- Stop a copy (R209): no later piece starts; it ends when nothing is in flight. -/
def State.stopCopy (s : State) (die e : Nat) (j : CopyJob) (cause nak : Nat) (addr : DWord) : State :=
  let j1 := { j with stopped := some (j.stopped.getD (cause, nak)), failAddr := if j.stopped.isSome then j.failAddr else addr,
                     token := none }
  if j1.inflight.isEmpty then s.finishCopy die e j1 else s.modCopy die e j.id (fun _ => j1)

/-! ## Collectives (R51, R88, R371, R410) -/

def CollJob.cnt (j : CollJob) : Nat := field j.image 0x28 8
def CollJob.cadd (j : CollJob) : Nat := field j.image 0x30 4
def CollJob.arrive (j : CollJob) : Nat := field j.image 0x34 4
def CollJob.bytes (j : CollJob) : Nat := field j.image 0x18 8
def CollJob.nmem (j : CollJob) : Nat := field j.image 0x22 2
def CollJob.rank (j : CollJob) : Nat := field j.image 0x24 2
def CollJob.kind (j : CollJob) : Nat := field j.image 0x20 1 / 16
def CollJob.red (j : CollJob) : Nat := field j.image 0x20 1 % 16
def CollJob.tileSize (j : CollJob) : Nat := 2 ^ field j.image 0x21 1

/-- Tiles that land at this member (R410). -/
def CollJob.total (j : CollJob) : Nat := (if j.kind = 1 then j.nmem else 1) * j.bytes / j.tileSize

/-- End a collective: completion or its stop. -/
def State.finishColl (s : State) (die : Nat) (j : CollJob) : State :=
  let eng := 0x40 + j.lDie
  let landed := j.tiles.length * j.tileSize
  let s1 := match j.stopped with
    | none => s.counterAdd j.slice die j.ctx j.cnt j.cadd eng
    | some (c, nak) =>
      (s.counterError j.slice die j.cnt (errorWord c nak eng landed) eng).modArrive j.slice j.arrive false (·.stop c)
  let s2 := match j.gid with
    | some (gid, id) => s1.modEntry gid id (fun e => { e with names := j.names, ords := j.ords, opened := j.released })
    | none => s1
  ((s2.modDie die (fun d => { d with colls := d.colls.filter (fun k => k.id != j.id) })).settleEntry j.gid j.stopped landed 0).packetDone
    j.slice j.queue j.pkt

/-- Stop a collective with a cause. -/
def State.stopColl (s : State) (die : Nat) (j : CollJob) (cause nak : Nat) : State :=
  s.finishColl die { j with stopped := some (j.stopped.getD (cause, nak)) }

/-! ## Boost claims and their settlement (R23, R26) -/

/-- Insert a claim (cluster, slice) in cluster order. -/
def insertClaim (c t : Nat) : List (Nat × Nat) → List (Nat × Nat)
  | [] => [(c, t)]
  | x :: r => if c < x.1 then (c, t) :: x :: r else x :: insertClaim c t r

/-- The slices that hold a claim on a die, that of the lowest claiming cluster first (R23, R26). -/
def State.claimSlices (s : State) (d : Nat) : List Nat :=
  ((s.groups.foldl (fun l e =>
    if e.2.claim && e.2.place != .saved && dieOf e.2.core == d then insertClaim (clusterOf e.2.core) e.2.slice l else l) []).map
      (·.2)).eraseDups

/-- End a settlement period: its permits are charged to the claiming slices (R26). -/
def State.settle (s : State) (d : Nat) : State :=
  let x := s.die d
  let k := x.claimers.length
  let s1 := if k = 0 then s else x.claimers.foldl (fun s t => s.modSlice t (fun y =>
    { y with permchg := y.permchg + BitVec.ofNat 64 (x.debited / k + if x.claimers.head? == some t then x.debited % k else 0) })) s
  s1.modDie d (fun x => { x with debited := 0 })

/-- A group of a die has claimed, released, retired or been saved: when the set of claiming slices has changed, the period ends
at once, before a later debit (R26, R390, R406). -/
def State.watchClaims (s : State) (d : Nat) : State :=
  let now := s.claimSlices d
  let old := (s.die d).claimers
  let same := now.all old.contains && old.all now.contains
  (if same then s else s.settle d).modDie d (fun x => { x with claimers := now })

/-! ## Discarding work: aborts, resets and kills (R70, R103, R173) -/

/-- The workgroups of a core that still have a group. -/
def State.dropEmptyWgs (s : State) (core : Nat) : State :=
  s.modCore core (fun c => { c with
    wgs := c.wgs.filter (fun w => w.gids.any (fun g => (Tbl.find s.groups g).isSome)),
    tileWg := match c.tileWg with
      | none => none
      | some w => if c.wgs.any (fun x => x.wg == w && x.gids.any (fun g => (Tbl.find s.groups g).isSome)) then some w else none })

/-- Stop the copies and collectives that a group issued (R173). -/
def State.stopJobsOf (s : State) (gid cause : Nat) : State :=
  (List.range 4).foldl (fun s d =>
    let s1 := (s.die d).engines.foldl (fun s x => x.2.jobs.foldl (fun s j =>
      match j.gid with
      | some (g, _) => if g == gid && j.stopped.isNone then s.stopCopy d x.1 { j with gid := none } cause 0 0 else s
      | none => s) s) s
    (s1.die d).colls.foldl (fun s j =>
      match j.gid with
      | some (g, _) => if g == gid then s.stopColl d { j with gid := none } cause 0 else s
      | none => s) s1) s

/-- A multicast store that its group leaves behind goes to the sending port; no entry takes its answer (R44, R181). -/
def State.sendLeft (s : State) (gid : Nat) (g : Group) (e : Entry) (a : Acc) (group off : Nat) : State :=
  s.modM (fun m =>
    { m with
      nextPeer := m.nextPeer + 1,
      peers := Tbl.put m.peers m.nextPeer
        { slice := g.slice, gid := gid, ent := e.id, num := e.num, lane := a.lane, off := a.off, sentAt := s.cycle, addr := off, op := .mcStore group,
          size := a.size, data := a.v, wmark := e.wmark, late := true } })

/-- Class I2 stores of a group that have passed the strike horizon complete when it is discarded (R70, R173). -/
def State.finishI2 (s : State) (gid : Nat) (g : Group) : State :=
  (g.log.filter (fun e => e.kind == 14 && (e.sent || decide (e.cyc + 64 ≤ s.now g.core)))).foldl (fun s e =>
    e.acc.foldl (fun s a =>
      match a.loc with
      | .host pa => if (e.done ||| e.perf).getLsbD a.lane then s else s.setHost pa (leBytes a.size a.v)
      | .mcast k o => if (e.done ||| e.perf ||| e.asked).getLsbD a.lane then s else s.sendLeft gid g e a k o
      | _ => s) s) s

/-- Discard a group without replay; which of its unpublished stores reach memory is undefined (R70, R103; log 5). -/
def State.discardGroup (s : State) (gid cause : Nat) : State :=
  match Tbl.find s.groups gid with
  | none => s
  | some g =>
    let s1 := ((((s.finishI2 gid g).stopJobsOf gid cause).publishIf gid (fun a => Config.freePick s.free gid a)).withdraw gid).forget
      g.slice g.log
    let s2 := s1.dropPrivate gid false
    let s3 := { s2 with groups := Tbl.del s2.groups gid, free := s2.free + 1,
                        cur := match s2.cur with | some (h, b) => if h = gid then none else some (h, b) | none => none }
    (({ s3 with cores := s3.cores.map (fun (e : Nat × Core) => (e.1,
        { e.2 with queue := e.2.queue.filter (fun o => o.gid != gid) })) } : State).dropEmptyWgs g.core).watchClaims (dieOf g.core)

/-- The error word of a launch's counter (R173). -/
def State.launchError (s : State) (t : Nat) (l : Launch) (cause : Nat) : State :=
  s.counterError t (((s.slice t).dies).headD 0) (field l.pkt 0x28 8) (errorWord cause 0 0 0) 0

/-- The counter CAUSE of a trap cause (R167). -/
def counterCause (cause : Nat) : Nat :=
  match cause with
  | 8 | 9 => 4
  | 10 => 3
  | 11 => 5
  | 12 => 6
  | 14 => 2
  | _ => 8

/-- Abort one launch: its groups, waiting workgroups, bins and gathered groups are discarded, its counter takes the error
word (R173). -/
def State.abortLaunch (s : State) (t id cause : Nat) : State :=
  let l := Tbl.get (s.slice t).launches {} id
  if l.aborted.isSome then s
  else
    let s1 := (s.groups.filter (fun e => e.2.slice == t && e.2.launch == id)).foldl
      (fun s e => s.discardGroup e.1 cause) s
    let s2 := { s1 with cores := s1.cores.map (fun (e : Nat × Core) => (e.1,
      { e.2 with waiting := e.2.waiting.filter (fun w => !(w.slice == t && w.launch == id)) })) }
    let s3 := { s2 with dies := s2.dies.map (fun (e : Nat × Die) => (e.1,
      { e.2 with couch := e.2.couch.filter (fun b => !(b.2.slice == t && b.2.launch == id)) })) }
    let s4 := s3.modSlice t (fun x => { x with launches := Tbl.upd x.launches id (fun l =>
      { l with aborted := some cause, gathered := [], liveGathered := 0 }) })
    (s4.launchError t l cause).packetDone t (some l.queue) l.num

/-- Abort every launch of a context and fault domain (R173). -/
def State.abortDomain (s : State) (t ctx domain cause : Nat) : State :=
  ((s.slice t).launches.filter (fun e => e.2.ctx == ctx && e.2.domain == domain)).foldl
    (fun s e => s.abortLaunch t e.1 cause) s

/-- Count an event on a core; one whose gate is closed is told apart (R389). -/
def Core.count (c : Core) (e n : Nat) : Core :=
  { c with counts := Tbl.put c.counts e (Tbl.get c.counts 0 e + n),
           gated := if Tbl.get c.closed false e then Tbl.put c.gated e (Tbl.get c.gated 0 e + n) else c.gated }

/-- Cycles whose leaves are due are counted (R236). -/
def Core.countLeaves (c : Core) (l : List (Nat × Tbl Nat)) : Core := (l.flatMap (·.2)).foldl (fun c e => c.count e.1 e.2) c

/-- A core that leaves its slice adds its counts to the slice's retained totals, those of its last 64 cycles too (R236, R238). -/
def State.retainCounts (s : State) (core owner : Nat) : State :=
  let c := (s.core core).countLeaves (s.core core).leaves
  if c.owner = owner then s
  else
    (if c.owner < 16 then s.modSlice c.owner (fun x =>
      { x with td := c.counts.foldl (fun t e => Tbl.put t e.1 (Tbl.get t 0 e.1 + (e.2 - Tbl.get c.gated 0 e.1))) x.td }) else s).modCore core
      (fun c => { c with counts := [], gated := [], leaves := [] })

/-- Zero a core and give it to an owner; a scrub in progress serves it too (R160). Workgroups dealt to it stay where it keeps its
owner. -/
def State.scrubCore (s : State) (core owner : Nat) : State :=
  let s1 := (s.retainCounts core owner).flushL1 core
  let s2 := ({ s1 with spad := s1.spad.filter (fun e => e.1 / 4194304 != core),
                       tile := s1.tile.filter (fun e => e.1 / 196608 != core) } : State).clearBad (fun w =>
    match w with
    | .spad c _ => c == core
    | .tile c _ => c == core
    | _ => false)
  s2.modCore core (fun c => { c with owner := owner, bkt := [], mbkt := 0, wgs := [],
                                     waiting := if c.owner = owner then c.waiting else [], queue := [], tileWg := none, accInit := [],
                                     closed := [], samples := 0,
                                     scrub := if (s2.die (dieOf core)).cyc < c.scrub then c.scrub else (s2.die (dieOf core)).cyc + 4096 })

/-- The physical cores of a slice. -/
def Slice.coreList (x : Slice) : List Nat := x.clusters.flatMap (fun e => (List.range 4).map (fun k => e.1 * 36 + e.2 * 4 + k))

/-- Bytes of a slice's global memory that a discarded operation leaves undefined (R376; log 5): page by page, and a page
that fails its check keeps its bytes. -/
def State.undefRange (s : State) (t die va n : Nat) : State :=
  let s1 := (List.range ((va % 65536 + n + 65535) / 65536)).foldl (fun (s : State) k =>
    let lo := max va ((va / 65536 + k) * 65536)
    let hi := min (va + n) ((va / 65536 + k + 1) * 65536)
    (s.engineWrite t die lo ((List.range (hi - lo)).map (fun i => Config.freeByte s.free (lo + i)))).getD s) s
  { s1 with free := s1.free + 1 }

/-- The destination ranges of a slice's copies and collectives on a die, as address and bytes. -/
def State.jobRanges (s : State) (t d : Nat) : List (Nat × Nat) :=
  ((s.die d).engines.flatMap (fun e => (e.2.jobs.filter (fun j => j.slice == t)).flatMap (fun j =>
    (List.range j.rows).map (fun r => (j.dst + r * j.dpitch, j.width))))) ++
  ((s.die d).colls.filter (fun j => j.slice == t)).map (fun j => (field j.image 0x10 8, j.total * j.tileSize))

/-- Steps 1 to 5 of R70 with a cause: the slice's work is discarded, its counters take the error word, the destinations
of its copies and collectives are undefined (R376), its cores are scrubbed. -/
def State.dropWork (s : State) (t cause : Nat) : State :=
  let x := s.slice t
  let s1 := (s.groups.filter (fun e => e.2.slice == t)).foldl (fun s e => s.discardGroup e.1 cause) s
  let s2 := (List.range 4).foldl (fun s d =>
    let s := (s.die d).engines.foldl (fun s e => e.2.jobs.foldl (fun s j =>
      if j.slice == t then
        ((s.counterError t d j.cnt (errorWord cause 0 (copyEng j.lDie e.1) j.landed) (copyEng j.lDie e.1)).dropCopy d e.1 j.id)
      else s) s) s
    ((s.die d).colls.foldl (fun s j =>
      if j.slice == t then
        (s.counterError t d j.cnt (errorWord cause 0 (0x40 + j.lDie) (j.tiles.length * j.tileSize)) (0x40 + j.lDie))
      else s) s).modDie d (fun d => { d with colls := d.colls.filter (fun j => j.slice != t),
                                             couch := d.couch.filter (fun b => b.2.slice != t) })) s1
  let s2 := (x.pending.flatMap (·.2)).foldl (fun s p =>
    if pktKind p.bytes = 6 || pktKind p.bytes = 7 then s.counterError t p.die (field p.bytes 8 8) (errorWord cause 0 p.eng 0) p.eng
    else s) s2
  let s3 := x.launches.foldl (fun s e => if e.2.aborted.isSome then s else s.launchError t e.2 cause) s2
  let lost := (List.range 4).foldl (fun s3 d => (s.jobRanges t d).foldl (fun s3 r => s3.undefRange t d r.1 r.2) s3) s3
  let s4 := (x.coreList.filter (fun c => (s3.core c).owner == t)).foldl (fun s c =>
    (s.modCore c (fun c => { c with waiting := [] })).scrubCore c t) lost
  (s4.modSlice t (fun x => { x with launches := [], pending := [], tokens := [], ctxs := [] })).modSlice 16 (fun x =>
    { x with tokens := x.tokens.filter (fun e => e.2 % 32 != t) })

/-- Start a kill (R102, R103): absorbed in FREE, CONFIG, which ACTIVATE leaves only when it is done, and RESETTING, and by a kill
in progress. -/
def State.startKill (s : State) (t cause frame : Nat) : State :=
  let x := s.slice t
  if x.killing || x.st != .active then s
  else (s.dropWork t cause).modSlice t (fun x => { x with killing := true, killCause := cause, killFrame := frame,
                                                           busyEnd := s.cycle + 1000000 })

/-- Poisoned data is consumed by a slice (R101). -/
def State.consumePoison (s : State) (t a : Nat) : State := s.startKill t 9 (a / 65536)

/-! ## Taking an exception and returning from one (R166 to R174) -/

/-- What a trap is: the cause and its record fields (R169). -/
structure TrapInfo where
  cause : Nat := 1
  detail : Nat := 0
  info : Nat := 0
  /-- 0 early, 1 late, 2 imprecise. -/
  how : Nat := 0
  /-- Index of the entry of a late cause, else 63. -/
  entry : Nat := 63
  mask : Word := 0
  pc : DWord := 0
  rpc : DWord := 0
  addr : DWord := 0
  fix : Word := 0
  /-- For a page fault: stage, access flags, guest physical address, and the address translated, where it is not `addr` (R192,
  R204). -/
  flags : Nat := 0
  ipa : Nat := 0
  va : Option Nat := none
  deriving DecidableEq, Repr

/-- TRAP.CAUSE of a trap (R169). -/
def TrapInfo.word (t : TrapInfo) : Word :=
  BitVec.ofNat 32 (t.entry % 64 * 2 ^ 26 + t.how % 4 * 2 ^ 24 + t.detail % 256 * 2 ^ 16 + t.info % 256 * 2 ^ 8 + t.cause % 32)

/-- The record that a trap of a split writes (R169, R170). -/
def TrapInfo.record (t : TrapInfo) (p : Split) : TrapRec :=
  { cause := t.word, mask := t.mask, smask := p.mask, pc := t.pc, rpc := t.rpc, addr := t.addr, ctl := 0, fix := t.fix }

/-- Handler address of a group's kernel descriptor, 0 for none (R283). -/
def State.handlerOf (s : State) (g : Group) : Nat := field (s.launchOf g).desc 0x10 8

/-- The terminal abort of R173: the fault domain is aborted and a terminal record posted. -/
def State.terminal (s : State) (gid : Nat) (t : TrapInfo) : State :=
  let g := s.group gid
  let dom := (s.launchOf g).domain
  let r : RecordData :=
    { type := 2, code := t.cause, slice := g.slice, ctx := g.ctx, va := t.addr.toNat, pc := t.pc.toNat,
      mask := t.mask.toNat, place := g.place4, lin := g.lin, data := t.word.toNat }
  (s.postRecord (s.fnOf g.slice) 1 r).abortDomain g.slice g.ctx dom (counterCause t.cause)

/-! ## Fixes and trace records (R227, R228, R234, R290) -/

/-- Bytes of the code object's tables, through the core's instruction path: a page that fails gives its cause. -/
def State.tableBytes (s : State) (g : Group) (a n : Nat) : Except WalkFail (List Byte) :=
  [a, a + n - 1].foldr (fun x r =>
    match s.checkPage g.slice g.core x .load with
    | .error f => .error f
    | .ok e => if windowOf x != .glob || e.target != 0 then .error { cause := 9, host := false } else r)
    (.ok ((List.range n).map (fun i =>
      match s.checkPage g.slice g.core (a + i) .load with
      | .ok e => s.memByte (e.out + (a + i) % e.size)
      | .error _ => 0)))

/-- The first of those bytes whose page fails. -/
def State.tableFails (s : State) (g : Group) (a n : Nat) : Nat :=
  ((List.range n).map (a + ·)).find? (fun x => match s.tableBytes g x 1 with | .error _ => true | .ok _ => false) |>.getD a

/-- Poison that a read of those bytes consumes (R101). -/
def State.tablePoison (s : State) (g : Group) (a n : Nat) : Option Nat :=
  if s.m.poison.isEmpty && s.m.badWords.isEmpty then none
  else (List.range n).findSome? (fun i =>
    match s.checkPage g.slice g.core (a + i) .load with
    | .ok e => let pa := e.out + (a + i) % e.size
               if e.target == 0 && s.poisoned pa then some pa else none
    | .error _ => none)

/-- FIXTAB, NFIX and KTAG of a group's kernel descriptor (R283). -/
def State.fixTab (s : State) (g : Group) : Nat := field (s.launchOf g).desc 0x50 8
def State.nFix (s : State) (g : Group) : Nat := field (s.launchOf g).desc 0x58 4
def State.ktag (s : State) (g : Group) : Nat := field (s.launchOf g).desc 6 2

/-- ADDR of entry k of the fix table, when it can be read. -/
def State.fixAddr (s : State) (g : Group) (k : Nat) : Option Nat :=
  match s.tableBytes g (s.fixTab g + 24 * k) 8 with
  | .ok b => some (ofLe b)
  | .error _ => none

/-- Ordinal of the entry for an address, by search through n entries from k. -/
def State.findFix (s : State) (g : Group) (a : Nat) : Nat → Nat → Option Nat
  | _, 0 => none
  | k, n + 1 => if s.fixAddr g k == some a then some k else s.findFix g a (k + 1) n

/-- The stop bit of the instruction at an address: the register, memory and control classes carry one (R268, R269). -/
def State.stopBit (s : State) (g : Group) (a : Nat) : Bool :=
  match s.checkPage g.slice g.core a .fetch with
  | .error _ => false
  | .ok e => let b := (s.memByte (e.out + a % e.size)).toNat
    b % 2 == 1 && b % 8 != 3 && nbit b 3

/-- Ordinal of the fix at an address, none when the instruction there is no fix (R227). -/
def State.fixAt (s : State) (g : Group) (a : Nat) : Option Nat :=
  if s.fixTab g != 0 && s.stopBit g a then s.findFix g a 0 (s.nFix g) else none

/-- FIX of a trap at an address (R228). -/
def State.fixWord (s : State) (g : Group) (a : Nat) : Word :=
  match s.fixAt g a with
  | some k => BitVec.ofNat 32 (2 ^ 31 + k)
  | none => 0xFFFFF

/-- ORD of the attributed fix of an address: the fix with the greatest address not above it; an entry of the table whose
instruction is no fix is passed over (R227). -/
def State.attributed (s : State) (g : Group) (a : Nat) : Nat :=
  if s.fixTab g = 0 then 0xFFFFF
  else ((List.range (s.nFix g)).foldl (fun (b : Option (Nat × Nat)) k =>
    match s.fixAddr g k with
    | some x => if x ≤ a && (match b with | some y => decide (y.2 ≤ x) | none => true) && s.stopBit g x then some (k, x) else b
    | none => b) none).elim 0xFFFFF (·.1)

/-- Split index in the frame's table. -/
def Group.splitNo (g : Group) (born : Nat) : Nat := (g.splits.filter (fun q => q.born < born)).length

/-- The 32 bytes of a trace record (R234). -/
def State.traceBytes (s : State) (g : Group) (kind cat slot split ord data : Nat) : List Byte :=
  leBytes 1 kind ++ leBytes 1 cat ++ leBytes 1 slot ++ leBytes 1 split ++ leBytes 4 ord ++ leBytes 2 g.ctx ++
  leBytes 2 (s.ktag g) ++ leBytes 4 g.place4 ++ leBytes 4 g.lin ++ leBytes 4 data ++ leBytes 8 s.cycle

/-- The debug session of a slice is open (R230), and a BREAK stops its group. -/
def State.dbgEn (s : State) (t : Nat) : Bool := (s.slice t).dbg.ctl.getLsbD 31
def State.dbgStop (s : State) (t : Nat) : Bool := s.dbgEn t && (s.slice t).dbg.ctl.getLsbD 30

/-- Make a trace record of a group: it waits in the horizon buffer (R234). Nothing is written while TCTL.EN is 0. -/
def State.trace (s : State) (g : Group) (kind cat slot split ord data : Nat) : State :=
  if (s.slice g.slice).dbg.trace.en then
    s.modSlice g.slice (fun x => { x with dbg := { x.dbg with
      held := x.dbg.held ++ [(g.core * 2 ^ 64 + s.now g.core, s.traceBytes g kind cat slot split ord data)] } })
  else s

/-- A BREAK, STEP or DUMP record of a split at its PC, with the slot of the instruction there. -/
def State.traceStop (s : State) (g : Group) (kind slot : Nat) (p : Split) : State :=
  s.trace g kind 0 slot (g.splitNo p.born) ((s.fixAt g p.pc.toNat).getD 0xFFFFF) p.mask.toNat

/-- Next fault token of a ring: a 24-bit count that skips handles still waiting; one more candidate than there are handles is
enough (R206). -/
def freshToken (live : List Nat) : Nat → Nat → Nat
  | 0, c => c
  | n + 1, c => if live.contains c then freshToken live n ((c + 1) % 16777216) else c

/-- Post a retryable record to the ring of its stage (R202, R204), and give its token; none when the ring is off, which
fails the fault at once. Walks that miss on one page of one stage share a record (R200). -/
def State.postFault (s : State) (t d : Nat) (host : Bool) (r : RecordData) : State × Option (Nat × Nat) :=
  let fn := if host then 0 else s.fnOf t
  let own := fnSlice fn
  let x := s.slice own
  if !(x.ring 0).en then (s, none)
  else
    let page := (if host then r.ipa else r.va) / 65536
    match x.tokens.find? (fun e => e.2 == (page * 2 + b2n host) * 32 + t) with
    | some (tok, _) => (s, some (fn, tok))
    | none =>
      let tok := freshToken (x.tokens.map (·.1)) (x.tokens.length + 1) (Tbl.get x.tokenCount 0 0)
      let s1 := s.modSlice own (fun x => { x with tokenCount := Tbl.put x.tokenCount 0 ((tok + 1) % 16777216),
                                                  tokens := x.tokens ++ [(tok, (page * 2 + b2n host) * 32 + t)] })
      (s1.postRecordAt d fn 0 { r with type := 1, token := tok }, some (fn, tok))

/-- The die's queue of held records has no place for one more, those on their way to a ring 0 counted: a walk that faults
waits (R202). -/
def State.walksWait (s : State) (t d : Nat) (host : Bool) : Bool :=
  let fn := if host then 0 else s.fnOf t
  ((s.slice (fnSlice fn)).ring 0).en &&
    decide (256 ≤ (s.die d).heldRecs.length + (s.m.records.filter (fun r => r.1 == 0 && r.2.2.1 == d)).length)

/-- Write the record and send the split to the handler (R170). -/
def State.enterHandler (s : State) (gid born : Nat) (t : TrapInfo) : State :=
  let h := s.handlerOf (s.group gid)
  s.modGroup gid (fun g =>
    match g.split? born with
    | none => g
    | some p =>
      { g.modSplit born (fun p => { p with pc := BitVec.ofNat 64 h, st := .run, why := .awake, wait := none, mark := none }) with
        trap := t.record p, inh := true, hmark := g.nextNum })

/-- PAGE_NOTPRESENT on a global access (R174): the record is posted and the group freezes for a save; a ring that is off
fails the fault at once (R202), and the group then takes the cause. -/
def State.pageFault (s : State) (gid born : Nat) (t : TrapInfo) : State × Bool :=
  let g := s.group gid
  let r : RecordData :=
    { code := 8, flags := t.flags, slice := g.slice, ctx := g.ctx, va := t.va.getD t.addr.toNat, ipa := t.ipa,
      pc := t.pc.toNat, mask := t.mask.toNat, place := g.place4, lin := g.lin }
  if s.walksWait g.slice (dieOf g.core) (nbit t.flags 0) then (s, true)
  else match s.postFault g.slice (dieOf g.core) (nbit t.flags 0) r with
  | (s1, none) => (s1, false)
  | (s1, some tok) =>
    (s1.modGroup gid (fun g => { g with place := .freezing, why := 1, token := some tok, faultVa := t.addr,
                                        faultMask := t.mask, faultSplit := born, faultEnt := none, frozeAt := s.cycle,
                                        frozeCyc := s.now g.core }), true)

/-- Split sleeps until the revised promise and then executes its instruction again (R167, PROMISE_MISSED). -/
def State.promiseSleep (s : State) (gid born : Nat) (t : TrapInfo) : State :=
  s.modSplit gid born (fun p => { p with st := .sleep, why := .promise, deadline := t.addr.toNat, wait := none, mark := none })

/-- The split runs the group's handler: its lanes are among those that trapped (R170). -/
def Group.handling (g : Group) (p : Split) : Bool := g.inh && (p.mask ||| p.held) &&& g.trap.smask != 0

/-- Freeze a group for the debugger, at a split's fix (R232). -/
def State.breakStop (s : State) (gid born : Nat) : State :=
  s.modGroup gid (fun g => { g with place := .freezing, why := 3, dbgHeld := true, skipBrk := some born, stepping := false,
                                    fixStop := true, frozeAt := s.cycle, frozeCyc := s.now g.core })

/-- The next instruction after the one at a split's PC (brk and the fixes of R231 are 32 bits). -/
def State.goOn (s : State) (gid born : Nat) : State :=
  s.modSplit gid born (fun p => { p with pc := p.pc + 4, why := .awake })

/-- What follows a cause that no handler takes (R167, R172). -/
def State.noHandler (s : State) (gid born : Nat) (t : TrapInfo) : State :=
  if t.cause = 13 && t.addr != 0 then s.promiseSleep gid born t
  else if t.cause = 16 then s.goOn gid born
  else s.terminal gid t

/-- BREAK of an executed brk (R167, R231, R232, R396). -/
def State.takeBreak (s : State) (gid : Nat) (g : Group) (p : Split) (t : TrapInfo) : State :=
  if g.inh && !g.handling p then s.modSplit gid p.born (fun p => { p with stalled := true })
  else if g.skipBrk == some p.born then (s.goOn gid p.born).modGroup gid (fun g => { g with skipBrk := none })
  else
    let s1 := if s.dbgEn g.slice then s.traceStop g 2 2 p else s
    if g.inh then s1.goOn gid p.born
    else if s.dbgStop g.slice then s1.breakStop gid p.born
    else if s.handlerOf g ≠ 0 then s1.enterHandler gid p.born t
    else s1.noHandler gid p.born t

/-- Take a trap (R166 to R174): the split stops before or at the instruction, and goes to the handler, to the page-fault
path, or to the terminal abort. While the group runs its handler, another split that raises a cause is held (R170). -/
def State.takeTrap (s : State) (gid born : Nat) (t0 : TrapInfo) : State :=
  let g := s.group gid
  let h := s.handlerOf g
  let t := { t0 with fix := s.fixWord g t0.pc.toNat }
  match g.split? born with
  | none => s
  | some p =>
    let own := g.handling p
    if t.cause = 14 then s.startKill g.slice 2 0
    else if t.cause = 16 then s.takeBreak gid g p t
    else if g.inh && !own then s.modSplit gid born (fun p => { p with stalled := true, st := .run, why := .awake, wait := none, mark := none })
    else if t.cause = 8 then
      match s.pageFault gid born t with
      | (s1, true) => s1
      | (s1, false) =>
        if own then s1.terminal gid t
        else if h ≠ 0 then s1.enterHandler gid born t
        else s1.noHandler gid born t
    else if own then s.terminal gid t
    else if h ≠ 0 then s.enterHandler gid born t
    else s.noHandler gid born t

end Sys2Proof.Machine
end

