-- ==== Sys2Proof/Machine/Operands.lean ====
section
/-! DEFINITION. Registers and their hazards, the fetch, readiness (R124), payment (R128, R130), and the issue of an
instruction: what every meaning shares before and after its own effect. -/

namespace Sys2Proof.Machine

/-! ## Registers (R158), numbered as in Form: v n is n, s n is 64 + n, p n is 96 + n -/

/-- Lane l of a lane register. -/
def Group.vReg (g : Group) (n l : Nat) : Word := Tbl.get g.v 0 (n * 32 + l)

/-- A group-scalar register. -/
def Group.sReg (g : Group) (n : Nat) : Word := Tbl.get g.s 0 n

/-- A predicate; p7 reads 1 in every lane (R158). -/
def Group.pReg (g : Group) (n : Nat) : Word := if n = 7 then 0xFFFFFFFF else Tbl.get g.p 0 n

def Group.setV (g : Group) (n l : Nat) (v : Word) : Group := { g with v := Tbl.set g.v 0 (n * 32 + l) v }
def Group.setS (g : Group) (n : Nat) (v : Word) : Group := { g with s := Tbl.set g.s 0 n v }

/-- Write a predicate; a write to p7 is discarded (R158). -/
def Group.setP (g : Group) (n : Nat) (v : Word) : Group := if n = 7 then g else { g with p := Tbl.set g.p 0 n v }

/-- A 64-bit group-scalar pair, even register low. -/
def Group.sPair (g : Group) (n : Nat) : DWord := g.sReg (n + 1) ++ g.sReg n

def Group.setSPair (g : Group) (n : Nat) (v : DWord) : Group :=
  (g.setS n (v.extractLsb' 0 32)).setS (n + 1) (v.extractLsb' 32 32)

/-- A 64-bit lane pair. -/
def Group.vPair (g : Group) (n l : Nat) : DWord := g.vReg (n + 1) l ++ g.vReg n l

/-- Write one value a lane, in the lanes of a mask. -/
def Group.setLanes (g : Group) (n : Nat) (f : Nat → Word) : List Nat → Group
  | [] => g
  | l :: r => (g.setV n l (f l)).setLanes n f r

/-- Merge a predicate: active lanes take the new bit (R292). -/
def mergeMask (mask old new : Word) : Word := (old &&& ~~~mask) ||| (new &&& mask)

/-! ## F-class windows (R273, R274) -/

/-- The window of an F-class result: 1 to 3 cycles after its writer (R273). -/
def Hazard.open_ (h : Hazard) (now : Nat) : Bool := h.fixed && decide (h.cyc < now) && decide (now ≤ h.cyc + 3)

/-- The writer's cycle, or one of the three after it: a write of another split then leaves the register undefined (R294). -/
def Hazard.near (h : Hazard) (now : Nat) : Bool := decide (h.cyc ≤ now) && decide (now ≤ h.cyc + 3)

/-- The newest F-class result of a register in a lane that a read may miss. The spec gives no value to a read in the writer's own
cycle: it is the old or the new one as well (DESIGN CHOICE, log 76). -/
def Group.hazard? (g : Group) (now reg l : Nat) : Option Hazard :=
  g.hz.find? (fun h => h.reg == reg && h.fixed && h.near now && (64 ≤ reg && reg < 96 || h.lanes.getLsbD l))

/-- A register as an instruction reads it: inside the window either the old or the new value (R273). -/
def Group.readReg (g : Group) (free now reg l : Nat) (new : Word) : Word :=
  match g.hazard? now reg l with
  | none => new
  | some h => if Config.freePick free reg l then Tbl.get h.old 0 l else new

/-- Some register of a list lies in an open window (R274). -/
def Group.anyHazard (g : Group) (now : Nat) (regs : List Nat) : Bool :=
  g.hz.any (fun h => h.open_ now && regs.contains h.reg)

/-! ## The issue context -/

/-- What a meaning sees: the instruction, its group as it stood before issue, its split, its active lanes, the die cycle. -/
structure Cx where
  i : Instr
  vw : View
  gid : Nat
  born : Nat
  g : Group
  sp : Split
  now : Nat
  free : Nat
  deriving DecidableEq, Repr

/-- The context of the instruction of a split. -/
def State.cx (s : State) (gid : Nat) (g : Group) (p : Split) (i : Instr) : Cx :=
  { i := i, vw := view i, gid := gid, born := p.born, g := g, sp := p, now := s.now g.core, free := s.free }

/-- The active lanes. -/
def Cx.mask (c : Cx) : Word := c.sp.mask

def Cx.lanes (c : Cx) : List Nat := lanesOf c.sp.mask

/-- Operand reads, with the window of R273. -/
def Cx.v (c : Cx) (n l : Nat) : Word := c.g.readReg c.free c.now n l (c.g.vReg n l)
def Cx.s (c : Cx) (n : Nat) : Word := c.g.readReg c.free c.now (64 + n) 0 (c.g.sReg n)
def Cx.vp (c : Cx) (n l : Nat) : DWord := c.v (n + 1) l ++ c.v n l
def Cx.sp2 (c : Cx) (n : Nat) : DWord := c.s (n + 1) ++ c.s n

/-- A predicate, lane by lane. -/
def Cx.p (c : Cx) (n : Nat) : Word :=
  if n = 7 then 0xFFFFFFFF
  else maskWhere (fun l =>
    match c.g.hazard? c.now (96 + n) l with
    | none => (c.g.pReg n).getLsbD l
    | some h => if Config.freePick c.free (96 + n) l then (Tbl.get h.old 0 l).getLsbD 0 else (c.g.pReg n).getLsbD l)

/-- The address pair of an operand code ap or sap, in a lane (R270). -/
def Cx.addr (c : Cx) (a l : Nat) : DWord := if a % 2 = 0 then c.vp a l else c.sp2 (a / 2)

/-- The number of the first entry younger than the instruction. -/
def Cx.num (c : Cx) : Nat := match c.sp.wait with | some w => w.num | none => c.g.nextNum

/-- The first address of a form that takes one: the lowest active lane's (R320). -/
def Cx.addr1 (c : Cx) : DWord := c.addr c.vw.a (firstLane c.mask)

/-! ## Results -/

/-- How a meaning ends: with its effect, with a trap instead of it, or waiting for earlier accesses of its group. -/
inductive Res where
  | ok (s : State)
  | trap (t : TrapInfo)
  | hold
  deriving DecidableEq, Repr

/-- An early cause of the issuing instruction (R166, R169). -/
def Cx.early (c : Cx) (cause : Nat) (mask : Word) (detail info : Nat := 0) (addr : DWord := 0) : TrapInfo :=
  { cause := cause, detail := detail, info := info, mask := mask, pc := c.sp.pc, rpc := c.sp.pc, addr := addr }

def Cx.illegal (c : Cx) (detail : Nat) : Res := .trap (c.early 1 c.mask detail)
def Cx.priv (c : Cx) : Res := .trap (c.early 2 c.mask)

/-- The windows of a register that a write of it meets: those of F-class results, and other splits' results (R273, R294). -/
def Cx.met (c : Cx) (reg : Nat) : List Hazard :=
  c.g.hz.filter (fun h => h.reg == reg && h.near c.now && (h.fixed || h.born != c.born))

/-- The lanes of a register that a write of it changes: the active ones, and those of the windows that it meets. -/
def Cx.spread (c : Cx) (reg : Nat) : Word := (c.met reg).foldl (fun m h => m ||| h.lanes) c.mask

/-- What a write leaves in a register: the value, or an undefined one where it meets a window (R273). -/
def Cx.put (c : Cx) (reg l : Nat) (v : Word) : Word := if (c.met reg).isEmpty then v else Config.freeWord c.free reg l

/-- Open the window of a result over the lanes that it changes, with the old values of an F-class one. -/
def Cx.window (c : Cx) (fixed : Bool) (reg : Nat) (old : Nat → Word) (g : Group) : Group :=
  { g with hz :=
      { reg := reg, cyc := c.now, born := c.born, fixed := fixed, lanes := c.spread reg,
        old := if fixed then (lanesOf (c.spread reg)).map (fun l => (l, old l)) else [] } :: g.hz.filter (fun h => h.near c.now) }

/-- A lane result (R292): active lanes take the value. -/
def Cx.toLanes (c : Cx) (fixed : Bool) (s : State) (n : Nat) (f : Nat → Word) : State :=
  s.modGroup c.gid (fun g =>
    (c.window fixed n (fun l => c.g.vReg n l) g).setLanes n (fun l => c.put n l (f l)) (lanesOf (c.spread n)))

/-- A group-scalar result. -/
def Cx.toScalar (c : Cx) (fixed : Bool) (s : State) (n : Nat) (v : Word) : State :=
  s.modGroup c.gid (fun g => (c.window fixed (64 + n) (fun _ => c.g.sReg n) g).setS n (c.put (64 + n) 0 v))

/-- A predicate result: active lanes take their bit, the others keep theirs (R292); a write to p7 is discarded (R158). -/
def Cx.toPred (c : Cx) (fixed : Bool) (s : State) (n : Nat) (f : Nat → Bool) : State :=
  if n = 7 then s
  else s.modGroup c.gid (fun g =>
    (c.window fixed (96 + n) (fun l => BitVec.ofNat 32 (b2n ((c.g.pReg n).getLsbD l))) g).setP n
      (mergeMask (c.spread (96 + n)) (g.pReg n) (maskWhere (fun l =>
        (c.put (96 + n) l (BitVec.ofNat 32 (b2n (f l)))).getLsbD 0))))

/-- An F-class lane result. -/
def Cx.writeV (c : Cx) (s : State) (n : Nat) (f : Nat → Word) : State := c.toLanes true s n f

/-- An F-class lane pair result, low word first. -/
def Cx.writeVp (c : Cx) (s : State) (n : Nat) (f : Nat → DWord) : State :=
  c.writeV (c.writeV s n (fun l => (f l).extractLsb' 0 32)) (n + 1) (fun l => (f l).extractLsb' 32 32)

/-- An F-class group-scalar result. -/
def Cx.writeS (c : Cx) (s : State) (n : Nat) (v : Word) : State := c.toScalar true s n v

def Cx.writeSp (c : Cx) (s : State) (n : Nat) (v : DWord) : State :=
  c.writeS (c.writeS s n (v.extractLsb' 0 32)) (n + 1) (v.extractLsb' 32 32)

/-- An F-class predicate result. -/
def Cx.writeP (c : Cx) (s : State) (n : Nat) (f : Nat → Bool) : State := c.toPred true s n f

/-- A V-class result of a form without an entry: written at once (R273). -/
def Cx.giveV (c : Cx) (s : State) (n : Nat) (f : Nat → Word) : State := c.toLanes false s n f
def Cx.giveS (c : Cx) (s : State) (n : Nat) (v : Word) : State := c.toScalar false s n v

def Cx.giveSp (c : Cx) (s : State) (n : Nat) (v : DWord) : State :=
  c.giveS (c.giveS s n (v.extractLsb' 0 32)) (n + 1) (v.extractLsb' 32 32)

def Cx.giveP (c : Cx) (s : State) (n : Nat) (f : Nat → Bool) : State := c.toPred false s n f

/-- OR sticky flags into FMODE[12:8] (R257, R258). -/
def Cx.flags (c : Cx) (s : State) (fl : Nat) : State :=
  s.modGroup c.gid (fun g => { g with fmode := g.fmode ||| BitVec.ofNat 32 (fl % 32 * 256) })

/-! ## Fetch (R266, R267) -/

/-- The failing cause of a fetch, as a trap of a split. -/
def fetchFail (p : Split) (at_ : Nat) (f : WalkFail) : TrapInfo :=
  { cause := f.cause, mask := p.mask, pc := p.pc, rpc := p.pc, addr := BitVec.ofNat 64 at_,
    flags := b2n f.host + 4, ipa := f.ipa }

/-- The two bytes of a halfword of code. -/
def State.fetchHalf (s : State) (g : Group) (p : Split) (a : Nat) : Except TrapInfo (List Byte) :=
  if windowOf a ≠ .glob then .error { cause := 5, mask := p.mask, pc := p.pc, rpc := p.pc, addr := BitVec.ofNat 64 a }
  else
    match s.checkPage g.slice g.core a .fetch with
    | .error f => .error (fetchFail p a f)
    | .ok e => .ok (s.memBytes (e.out + a % e.size) 2)

/-- The instruction at the program counter of a split, with its word. -/
def State.fetch (s : State) (g : Group) (p : Split) : Except TrapInfo (Nat × Except Reject Instr) :=
  let a := p.pc.toNat
  match s.fetchHalf g p a with
  | .error t => .error t
  | .ok lo =>
    let w := ofLe lo
    if w % 2 = 0 then .ok (w, .ok (Decode.word16 w))
    else
      match s.fetchHalf g p (a + 2) with
      | .error t => .error t
      | .ok hi =>
        let w2 := w + 65536 * ofLe hi
        .ok (w2, Decode.word32 w2)

/-- The next instruction of a split, when it can be fetched and decoded. -/
def State.peek (s : State) (g : Group) (p : Split) : Option Instr :=
  match s.fetch g p with
  | .ok (_, .ok i) => some i
  | _ => none

/-! ## Readiness (R124) -/

/-- Registers whose value an entry of the group has still to write (R273, class V). -/
def Group.pendingDst (g : Group) : List Nat := g.log.flatMap (·.dst)

/-- Registers that entries hold for a replay (R179). -/
def Group.heldSrc (g : Group) : List Nat := g.log.flatMap (·.src)

/-- Condition 3 of R124. -/
def Group.scoreboardFree (g : Group) (i : Instr) : Bool :=
  let rd := readsOf i
  let wr := writesOf i
  let pend := g.pendingDst
  let held := g.heldSrc
  rd.all (fun r => !pend.contains r) && wr.all (fun r => !pend.contains r && !held.contains r)

/-- No accumulator that the instruction names is being cleared (R364). -/
def Group.accFree (g : Group) (i : Instr) (now : Nat) : Bool :=
  (readsOf i ++ writesOf i).all (fun r => r < 104 || Tbl.get g.accBusy 0 (r - 104) ≤ now)

/-- nop.waitsb (R392): no V result of the split is pending and no window of its own results is open. -/
def Group.waitsbFree (g : Group) (born now : Nat) : Bool :=
  g.log.all (fun e => e.dst.isEmpty || e.split != some born) && g.hz.all (fun h => h.born != born || !h.open_ now)

/-- Whether the die's host state lets a slot issue (R123). -/
def slotPowered (d : Die) (slot : Slot) : Bool :=
  match slot with
  | .c => d.curhs == 2 || d.curhs == 3
  | _ => d.curhs == 3

/-- The cluster of a core is admitted (R132). -/
def State.admitted (s : State) (core : Nat) : Bool := (s.die (dieOf core)).adm.getLsbD (clusterOf core)

/-- The cluster is held by a strike (R105). -/
def State.struck (s : State) (core : Nat) : Bool :=
  s.now core < Tbl.get (s.die (dieOf core)).frozen 0 (clusterOf core)

/-! ### Late causes (R166, R168, R170) -/

/-- The lanes that a split holds, those withheld by mask.wr among them (R387). -/
def Split.lanes (p : Split) : Word := p.mask ||| p.held

/-- The split that takes a late cause of an entry: the one that holds the lowest live lane that failed, else of its mask. -/
def Group.lateOwner (g : Group) (e : Entry) : Option Nat :=
  let pick (m : Word) : Option Nat :=
    let live := m &&& g.live
    if live = 0 then none else (g.splits.find? (fun p => p.lanes.getLsbD (firstLane live))).map (·.born)
  match pick e.failMask with
  | some b => some b
  | none => pick e.mask

/-- A failed entry whose cause is taken at an instruction boundary: MATRIX_CHECK waits for the mma.wait (R108). -/
def Entry.due (e : Entry) : Bool := e.failed && e.cause != 14

/-- The oldest failed entry whose cause a split takes at its next instruction boundary (R166, R168); MATRIX_CHECK is taken
at the mma.wait (R108), and in a handler only entries that the handler made count (R170). -/
def Group.lateCause (g : Group) (p : Split) : Option Entry :=
  if g.inh && !g.handling p then none
  else g.log.find? (fun e => e.due && (!g.inh || decide (g.hmark ≤ e.num)) && g.lateOwner e == some p.born)

/-- While the group is in its handler, another split that raised a cause, or one of whose entries has failed, is held (R170). -/
def Group.holdsBack (g : Group) (p : Split) : Bool :=
  p.stalled || (g.inh && !g.handling p && g.log.any (fun e => e.due && g.lateOwner e == some p.born))

/-! ### The conditions -/

/-- Condition 1 of R124; a split that raised a cause during the group's handler waits for its return (R170), and replayed entries
are sent before anything issues (R184). A split with a wait is in the middle of a form. -/
def State.live1 (s : State) (g : Group) (p : Split) : Bool :=
  g.place == .resident && p.st == .run && p.wait.isNone && !g.holdsBack p && !s.struck g.core && (s.core g.core).scrub ≤ s.now g.core &&
    g.log.all (fun e => !e.replay)

/-! ### Condition 4: resources -/

/-- CONTBASE and CONTCOUNT of the kernel descriptor (R283). -/
def Launch.contBase (l : Launch) : Nat := field l.desc 0x40 8
def Launch.contCount (l : Launch) : Nat := field l.desc 0x48 4

/-- The launch's continuation area holds as many waiting gathered groups as it has room for (R120). -/
def State.areaFull (s : State) (t launch : Nat) : Bool :=
  let l := Tbl.get (s.slice t).launches {} launch
  decide (l.contCount ≤ l.gathered.length)

/-- The bins of a slice on a die: four for each of its clusters there (R119). -/
def State.sliceBins (s : State) (t d : Nat) : List Nat :=
  ((s.slice t).clusters.filter (fun c => c.1 == d)).flatMap (fun c => (List.range 4).map (fun k => c.2 * 4 + k))

/-- The bin that a record of a launch and entry address enters: the one whose key matches, else a free one (R119). -/
def State.binFor (s : State) (d t launch : Nat) (entry : DWord) : Option Nat :=
  match (s.die d).couch.find? (fun b => b.2.slice == t && b.2.launch == launch && b.2.entry == entry) with
  | some b => if b.2.records.length < 32 then some b.1 else none
  | none => (s.sliceBins t d).find? (fun k => (Tbl.find (s.die d).couch k).isNone)

/-- The tile store of a core is free for a workgroup (R351). -/
def State.tileMine (s : State) (core wg : Nat) : Bool :=
  match (s.core core).tileWg with | none => true | some w => w == wg

/-- The entry has left the partition: it is 64 cycles old (R105), or it is replayed. -/
def State.hasLeft (s : State) (g : Group) (e : Entry) : Bool := e.sent || decide (e.cyc + 64 ≤ s.now g.core)

/-- No eviction that the performance of a piece makes exceeds the room for unpublished copies; else it waits (R195). A store
evicts another core's dirty bytes (R194), an atomic performed at the home the core's own (R220). -/
def State.evictOk (s : State) (g : Group) (store : Bool) (a : Acc) (send : Bool := false) : Bool :=
  match a.loc with
  | .cached va _ priv =>
    (match s.line? g.slice g.core va priv with
     | some l => (!send && (!store || l.bytes.all (fun e => !e.2.dirty || (e.2.core == g.core && e.2.cores.isEmpty)))) || s.lineRoom l
     | none => (match (s.core (s.lineCore g.core va)).victim va with | some l => s.lineRoom l | none => true))
  | .home pa mt => mt != 1 || a.priv || !store || s.copyRoom g.core pa
  | _ => true

/-- The selector s(B): logical die and engine, when bits [31:5] are zero. -/
def selector (v : Word) : Option (Nat × Nat) := if v.toNat < 32 then some (v.toNat / 8, v.toNat % 8) else none

/-- The slice's CEMASK names an engine (R57): bit 8 d + e over physical dies. -/
def State.ceNamed (s : State) (t d e : Nat) : Bool := (s.slice t).cemask.getLsbD (8 * d + e)

/-- No store of the split waits for room for the unpublished copies that its eviction makes (R195). -/
def State.storesMove (s : State) (g : Group) (p : Split) : Bool :=
  g.log.all (fun e => e.split != some p.born || e.failed || !(decide (2 ≤ e.kind) && decide (e.kind ≤ 5)) || !s.hasLeft g e ||
    e.acc.all (fun a => (e.done ||| e.perf).getLsbD a.lane || s.evictOk g true a))

/-- A bin for the records of a cont.emit, and room in the continuation area (R119, R120); a form that traps needs none. -/
def State.binReady (s : State) (g : Group) (entry : DWord) : Bool :=
  (s.launchOf g).contBase == 0 || entry.toNat % 2 != 0 || windowOf entry.toNat != .glob ||
    (!s.areaFull g.slice g.launch && (s.binFor (dieOf g.core) g.slice g.launch entry).isSome)

/-- Room in the queue of every array of an operation (R352). -/
def State.arrayRoom (s : State) (cores : List Nat) : Bool := cores.all (fun k => decide ((s.core k).queue.length < 8))

/-- The cores that a cluster-scope operation would take, by M and N of the format block at an address, as a load reads it now
(R353, R357). -/
def State.blockCores (s : State) (g : Group) (a : Nat) : List Nat :=
  let o := a - 0x01FFFFFFFF000000
  let cs := s.clusterCores g.core
  let loc : Option Loc :=
    if windowOf a == .spad then
      (if o / 4194304 = g.lCore then some (.spad g.core (g.spadBase.toNat + o % 4194304))
       else cs[o / 4194304]?.map (fun k => .spad k (o % 4194304)))
    else match s.checkPage g.slice g.core a .load with
      | .ok e => some (locOf e a false)
      | .error _ => none
  let b := match loc with | some l => s.readLoc g l 4 | none => []
  let takes (q : Nat) : Bool := decide (128 * (q / 2) < field b 0 2) && decide (192 * (q % 2) < field b 2 2)
  (((List.range 4).filter takes).map (fun q => q % max cs.length 1)).eraseDups.filterMap (fun k => cs[k]?)

/-- Room among the 64 direct copies of the engine that a selector names (R367). -/
def State.copyFree (s : State) (g : Group) (sel : Word) : Bool :=
  match selector sel with
  | none => true
  | some (ld, e) =>
    let d := (s.physDie g.slice ld).getD 4
    !(decide (d < 4) && s.ceNamed g.slice d e) || decide ((((s.die d).engine e).jobs.filter (·.queue.isNone)).length < 64)

/-- The resources of a form beside its logbook entry are free: the couch, the tile store (R351), the array queues, the direct
copies of an engine. The spec gives no count of load or store queue entries and operand latches: none is ever lacking (log 51). -/
def State.roomFor (s : State) (gid : Nat) (g : Group) (p : Split) (i : Instr) : Bool :=
  let c := s.cx gid g p i
  match i with
  | .contEmit _ => s.binReady g c.addr1
  | .mmaIssueCore _ => s.tileMine g.core g.wg && s.arrayRoom [g.core]
  | .mmaIssueCl _ => c.vw.d % 4 != 0 || (s.tileMine g.core g.wg && s.arrayRoom (s.blockCores g c.addr1.toNat))
  | .mmaWait _ => s.tileMine g.core g.wg
  | .tileTld _ => s.tileMine g.core g.wg
  | .tileTst _ => s.tileMine g.core g.wg
  | .tileTzero _ => s.tileMine g.core g.wg
  | .tileTcvt _ => s.tileMine g.core g.wg
  | .cpIssue _ => s.copyFree g (c.s c.vw.b)
  | .cpIssue2d _ => s.copyFree g (c.s c.vw.b)
  | _ => true

/-- Conditions 1 to 4 of R124 for an instruction of a split. -/
def State.ready4 (s : State) (gid : Nat) (g : Group) (p : Split) (i : Instr) : Bool :=
  s.live1 g p && decide (p.readyAt ≤ s.now g.core) && g.scoreboardFree i && g.accFree i (s.now g.core) &&
    (decide ((view i).kind = 0) || decide (g.log.length < 48)) &&
    (match i with | .nopWaitsb _ => g.waitsbFree p.born (s.now g.core) | _ => true) &&
    s.storesMove g p && s.roomFor gid g p i

/-- All of R124. -/
def State.ready (s : State) (gid : Nat) (g : Group) (p : Split) (i : Instr) : Bool :=
  s.ready4 gid g p i && ((view i).slot == .c || s.admitted g.core)

/-! ## Payment (R126 to R130) -/

/-- The partition bucket of a group, in 1/256 token. -/
def State.bucket (s : State) (core part : Nat) : Nat := Tbl.get (s.core core).bkt 0 part

/-- The first ready split of the starving queue of slots V and M of a partition, with its price (R130). -/
def State.reserver (s : State) (core part : Nat) : Option (Nat × Nat × Nat × Nat) :=
  (s.groups.flatMap (fun e =>
    if e.2.core == core && e.2.part == part && e.2.place == .resident then
      e.2.splits.filterMap (fun p =>
        if p.starve == 0 then none
        else match s.peek e.2 p with
          | none => none
          | some i => if (view i).slot != .c && s.ready e.1 e.2 p i then some (p.starve, e.1, p.born, (view i).tk) else none)
    else [])).foldl (fun b x => match b with | none => some x | some y => if x.1 < y.1 then some x else b) none

/-- A split can pay for its instruction, and the reservation of R130 allows it. -/
def State.canPay (s : State) (gid : Nat) (g : Group) (p : Split) (i : Instr) : Bool :=
  let price := (view i).tk * 256
  (view i).slot == .c || (decide (price ≤ s.bucket g.core g.part) &&
    (match s.reserver g.core g.part with
     | none => true
     | some (_, rg, rb, rp) => (rg == gid && rb == p.born) || decide (price + rp * 256 ≤ s.bucket g.core g.part)))

/-! ## Issue -/

/-- Slot number, for the count of slots that issued. -/
def slotNum : Slot → Nat
  | .v => 0
  | .m => 1
  | .c => 2

/-- A ready split that does not issue is passed over, once a cycle; at 256 it raises its flag (R130). -/
def passOver (sp : Split) (stamp now : Nat) : Split :=
  if sp.passCyc = now + 1 then sp
  else { sp with passed := sp.passed + 1, passCyc := now + 1,
                 starve := if 256 ≤ sp.passed + 1 && sp.starve = 0 then stamp else sp.starve }

/-- Count one pass-over of a split. -/
def State.passed (s : State) (gid born : Nat) : State :=
  let g := s.group gid
  (s.modSplit gid born (fun p => passOver p (s.core g.core).stamp (s.now g.core))).modCore g.core (fun c => { c with stamp := c.stamp + 1 })

/-- The window of R140 that a payment or a debit falls in; a new one starts empty. -/
def Core.inWindow (c : Core) (w : Nat) : Core := if c.win = w then c else { c with win := w, winPaid := [], winSpent := [] }

/-- The charge of one issue: the bucket, the window of R140, the spending of R27, the last wide work (R126 to R132). -/
def State.charge (s : State) (g : Group) (i : Instr) : State :=
  let v := view i
  let u := v.tk * 256
  let s1 := s.modCore g.core (fun c =>
    { c with bkt := Tbl.put c.bkt g.part (Tbl.get c.bkt 0 g.part - u),
             issued := Tbl.put c.issued (g.part * 3 + slotNum v.slot) 1,
             winSpent := if u = 0 then c.winSpent
                         else Tbl.put c.winSpent (g.part * 2 ^ 64 + g.region)
                                (Tbl.get c.winSpent 0 (g.part * 2 ^ 64 + g.region) + u) })
  if v.slot == .c then s1
  else s1.modDie (dieOf g.core) (fun d => { d with spent := d.spent + u,
                                                   lastWide := Tbl.put d.lastWide (clusterOf g.core) (d.cyc + 1),
                                                   lastUse := Tbl.put d.lastUse (clusterOf g.core) d.cyc,
                                                   lastSlice := Tbl.put d.lastSlice (clusterOf g.core) g.slice })

/-- One instruction of the context is counted (R138, R139). -/
def State.countWatch (s : State) (g : Group) : State :=
  s.modSlice g.slice (fun x => { x with ctxs := Tbl.upd x.ctxs g.ctx (fun c =>
    { c with watch := c.watch + 1, usage := g.holders.foldl (fun u h => Tbl.put u h (Tbl.get u 0 h + 1)) c.usage }) })

/-- The split after issue: its stall count runs, its flag clears, its PC is at the next instruction (R272, R130). -/
def issuedSplit (p : Split) (now w len : Nat) : Split :=
  { p with readyAt := now + 1 + w, passed := 0, starve := 0, why := .awake, wait := none, mark := none,
           pc := p.pc + BitVec.ofNat 64 len }

/-- Sampling (R235): while SPER is not 0, each core counts the slice's instructions and samples at its multiples. -/
def State.sample (s : State) (g : Group) (p : Split) (i : Instr) : State :=
  let sper := (s.slice g.slice).dbg.ctl.toNat % 16777216
  if sper = 0 then s
  else
    let n := (s.core g.core).samples + 1
    let s1 := s.modCore g.core (fun c => { c with samples := n })
    let k := slotNum (view i).slot
    if n % sper = 0 then s1.trace g 1 (2 + k) k (g.splitNo p.born) (s.attributed g p.pc.toNat) p.mask.toNat else s1

/-- The state in which a meaning acts: everything that issue itself does. An sr.rd of WATCHCNT reads a count that holds the sr.rd
itself: R138 does not say (DESIGN CHOICE, log 80). -/
def State.issued (s : State) (gid : Nat) (g : Group) (p : Split) (i : Instr) : State :=
  let v := view i
  let s1 := ((s.charge g i).countWatch g).sample g p i
  { s1.modGroup gid (fun h => { h.modSplit p.born (fun q => issuedSplit q (s.now g.core) v.w (instrLen i)) with
      lastCyc := s.now g.core, count_ := h.count_ + 1 }) with free := s.free + 1 }

/-! ### A form in the middle of its execution (R125, R350) -/

/-- The operands of an instruction as it reads them at issue. -/
def Cx.kept (c : Cx) : Tbl Word :=
  (readsOf c.i).flatMap (fun r =>
    if r < 64 then c.lanes.map (fun l => (r * 32 + l, c.v r l))
    else if r < 96 then [(r * 32, c.s (r - 64))]
    else if r < 104 then [(r * 32, c.p (r - 96))]
    else [])

/-- The group as a form in progress sees it: the registers that it read are those at its issue. -/
def Group.withKept (g : Group) (l : Tbl Word) : Group :=
  l.foldl (fun g e =>
    if e.1 < 2048 then g.setV (e.1 / 32) (e.1 % 32) e.2
    else if e.1 < 3072 then g.setS (e.1 / 32 - 64) e.2
    else g.setP (e.1 / 32 - 96) e.2) { g with hz := [] }

/-- An instruction that has issued and reads memory itself waits for its turn: its split sleeps at it, and takes no slot and pays
nothing more (log 71). -/
def State.defer (s : State) (c : Cx) : State :=
  s.modSplit c.gid c.born (fun p =>
    { p with st := .sleep, why := .cond, pc := c.sp.pc,
             wait := some (c.sp.wait.getD { insn := c.i, num := c.g.nextNum, kept := c.kept }) })

/-- The context of a form whose turn has come. -/
def State.cxAgain (s : State) (gid : Nat) (g : Group) (p : Split) (w : Wait) : Cx :=
  s.cx gid (g.withKept w.kept) p w.insn

/-- The state in which such a form acts: its issue was charged and counted before. -/
def State.goesOn (s : State) (gid : Nat) (g : Group) (p : Split) (i : Instr) : State :=
  { s.modSplit gid p.born (fun q => { issuedSplit q (s.now g.core) 0 (instrLen i) with st := .run }) with free := s.free + 1 }

/-- What comes before the effect of an instruction. -/
inductive Start where
  /-- No split is the one that issues. -/
  | none_
  /-- The instruction does not issue: a trap, or the split is not ready or passed over. -/
  | stop (s : State)
  /-- It issues. -/
  | go (c : Cx) (s : State)
  deriving DecidableEq, Repr

/-- The checks before issue, in order: ILLEGAL of the encoding (R278), readiness (R124), payment. A form that has issued already goes
on. -/
def begin_ (i : Instr) (s : State) : Start :=
  match s.cur with
  | none => .none_
  | some (gid, born) =>
    match Tbl.find s.groups gid with
    | none => .none_
    | some g =>
      match g.split? born with
      | none => .none_
      | some p =>
        let s0 := { s with cur := none }
        match p.wait with
        | some w => if w.insn = i then .go (s.cxAgain gid g p w) (s0.goesOn gid g p i) else .stop s0
        | none =>
        let c := s.cx gid g p i
        let d := illegalDetail i g.regs
        if d ≠ 0 then .stop (s0.takeTrap gid born (c.early 1 p.mask d))
        else if !(s.ready gid g p i && slotPowered (s.die (dieOf g.core)) (view i).slot) then .stop s0
        else if !s.canPay gid g p i then .stop (s0.passed gid born)
        else .go c (s0.issued gid g p i)

/-- SCOREBOARD: a register of the instruction lies in an open window while CHKSB is 1 (R274). -/
def Cx.unsettled (c : Cx) : Bool := c.g.fmode.getLsbD 15 && c.g.anyHazard c.now (readsOf c.i ++ writesOf c.i)

/-- What a meaning comes to beside the scoreboard check: SCOREBOARD, unless it raises ILLEGAL or PRIV, whose codes are lower
(R167, R274). -/
def Cx.checked (c : Cx) (r : Res) : Res :=
  if !c.unsettled then r
  else match r with
    | .trap t => if t.cause < 3 then .trap t else .trap (c.early 3 c.mask)
    | _ => .trap (c.early 3 c.mask)

/-- The outcome of an instruction whose own effect is `body`: a trap leaves the machine as it was before the issue (R166); a form
that must wait for its turn has issued, and its split sleeps until then. -/
def issue (i : Instr) (s : State) (body : Cx → State → Res) : Host.Outcome State Fault Refusal :=
  match begin_ i s with
  | .none_ => .fault .noIssuingSplit
  | .stop t => .next t
  | .go c t =>
    match c.checked (body c t) with
    | .ok u => .next u
    | .trap r => .next (({ s with cur := none } : State).takeTrap c.gid c.born r)
    | .hold => .next (t.defer c)

end Sys2Proof.Machine
end

