-- ==== Sys2Proof/Machine/Flags.lean ====
section
/-! DEFINITION. The number formats, exact arithmetic, rounding and every flag (R243 to R262, R293, R300): a finite value is
a sign, a natural mantissa and an integer exponent; a rounding takes the exact value to the format once. -/

namespace Sys2Proof.Machine

/-! ## Formats (R246, R249) -/

/-- A floating format: exponent and fraction widths, bias, and whether it has infinities and NaNs. -/
structure Fmt where
  ew : Nat
  fw : Nat
  bias : Nat
  ieee : Bool
  deriving DecidableEq, Repr

def f32 : Fmt := ⟨8, 23, 127, true⟩
def f16 : Fmt := ⟨5, 10, 15, true⟩
def bf16 : Fmt := ⟨8, 7, 127, true⟩
def f8e4 : Fmt := ⟨4, 3, 7, false⟩
def f8e5 : Fmt := ⟨5, 2, 15, false⟩
def f6e3 : Fmt := ⟨3, 2, 3, false⟩
def f6e2 : Fmt := ⟨2, 3, 1, false⟩
def f4e2 : Fmt := ⟨2, 1, 1, false⟩

/-- Width in bits. -/
def Fmt.width (f : Fmt) : Nat := 1 + f.ew + f.fw

/-- The sign bit. -/
def Fmt.signBit (f : Fmt) (neg : Bool) : Nat := if neg then 2 ^ (f.ew + f.fw) else 0

/-- Code of an infinity. -/
def Fmt.inf (f : Fmt) (neg : Bool) : Nat := f.signBit neg + (2 ^ f.ew - 1) * 2 ^ f.fw

/-- The canonical NaN (R246). -/
def Fmt.nan (f : Fmt) : Nat := (2 ^ f.ew - 1) * 2 ^ f.fw + 2 ^ (f.fw - 1)

/-- Code of the largest finite value with a sign (R246, R249). -/
def Fmt.largest (f : Fmt) (neg : Bool) : Nat :=
  f.signBit neg + (if f.ieee then (2 ^ f.ew - 1) * 2 ^ f.fw - 1 else 2 ^ (f.ew + f.fw) - 1)

/-! ## Values -/

/-- A value: a NaN (signalling or quiet), an infinity, or (-1)^neg × m × 2^e. -/
inductive Num where
  | nan (sig : Bool)
  | inf (neg : Bool)
  | fin (neg : Bool) (m : Nat) (e : Int)
  deriving DecidableEq, Repr

/-- The value of a code; FTZ reads an IEEE subnormal as a zero of its sign (R246 to R250). -/
def Fmt.value (f : Fmt) (ftz : Bool) (v : Nat) : Num :=
  let neg := v / 2 ^ (f.ew + f.fw) % 2 == 1
  let ex := v / 2 ^ f.fw % 2 ^ f.ew
  let fr := v % 2 ^ f.fw
  if f.ieee && ex == 2 ^ f.ew - 1 then
    if fr = 0 then .inf neg else .nan (fr / 2 ^ (f.fw - 1) == 0)
  else if ex = 0 then .fin neg (if f.ieee && ftz then 0 else fr) (1 - (f.bias : Int) - f.fw)
  else .fin neg (2 ^ f.fw + fr) ((ex : Int) - f.bias - f.fw)

def Num.isNan : Num → Bool
  | .nan _ => true
  | _ => false

def Num.isSig : Num → Bool
  | .nan sg => sg
  | _ => false

def Num.isInf : Num → Bool
  | .inf _ => true
  | _ => false

def Num.isZero : Num → Bool
  | .fin _ m _ => m == 0
  | _ => false

def Num.neg : Num → Bool
  | .nan _ => false
  | .inf n => n
  | .fin n _ _ => n

def Num.negate : Num → Num
  | .nan sg => .nan sg
  | .inf n => .inf (!n)
  | .fin n m e => .fin (!n) m e

/-! ## Flags (R258) -/

def flagNX : Nat := 1
def flagUF : Nat := 2
def flagOF : Nat := 4
def flagDZ : Nat := 8
def flagNV : Nat := 16

/-- A result with the flags it raises. -/
abbrev Flagged := Nat × Nat

/-- OR of two flag sets. -/
def orFlags (a b : Nat) : Nat := a ||| b

/-- OR of the flags of a list of results. -/
def allFlags (l : List Flagged) : Nat := l.foldr (fun x a => orFlags x.2 a) 0

/-! ## Rounding (R252) -/

/-- Whether the part cut off rounds the magnitude up: mode, sign, kept mantissa, remainder of 2^sh, more below it. -/
def roundsUp (mode : Nat) (neg : Bool) (mant r sh : Nat) (more : Bool) : Bool :=
  let half := 2 ^ (sh - 1)
  match mode with
  | 0 => decide (half < r) || (r == half && (more || mant % 2 == 1))
  | 1 => false
  | 2 => neg && (r != 0 || more)
  | _ => !neg && (r != 0 || more)

/-- The result of an overflow (R252 step 2). -/
def Fmt.overflow (f : Fmt) (mode : Nat) (neg : Bool) : Nat :=
  if !f.ieee then f.largest neg
  else match mode with
    | 0 => f.inf neg
    | 1 => f.largest neg
    | 2 => if neg then f.inf neg else f.largest neg
    | _ => if neg then f.largest neg else f.inf neg

/-- Round (-1)^neg × m × 2^e, or a value strictly between that and (m + 1) × 2^e in magnitude when `more`, to a format.
FTZ flushes a subnormal IEEE result (R248). -/
def Fmt.roundX (f : Fmt) (ftz : Bool) (mode : Nat) (neg : Bool) (m : Nat) (e : Int) (more : Bool) : Flagged :=
  if m = 0 && !more then (f.signBit neg, 0)
  else
    let qmin : Int := 1 - (f.bias : Int) - f.fw
    let q := max (e + (Nat.log2 m + 1 : Nat) - (f.fw + 1 : Nat)) qmin
    let sh := (q - e).toNat
    let mant := if q < e then m * 2 ^ (e - q).toNat else m / 2 ^ sh
    let r := if q < e then 0 else m % 2 ^ sh
    let inexact := r != 0 || more
    let mant1 := if sh = 0 then (if more && (mode = 2 && neg || mode = 3 && !neg) then mant + 1 else mant)
                 else if roundsUp mode neg mant r sh more then mant + 1 else mant
    let big := mant1 == 2 ^ (f.fw + 1)
    let mant2 := if big then 2 ^ f.fw else mant1
    let q2 := if big then q + 1 else q
    let ex := q2 + f.fw + f.bias
    if mant2 < 2 ^ f.fw then
      if f.ieee && ftz && mant2 != 0 then (f.signBit neg, flagUF + flagNX)
      else (f.signBit neg + mant2, if inexact then flagUF + flagNX else 0)
    else if (if f.ieee then (2 ^ f.ew - 1 : Nat) else (2 ^ f.ew : Nat)) ≤ ex.toNat then
      (f.overflow mode neg, flagOF + flagNX)
    else (f.signBit neg + ex.toNat * 2 ^ f.fw + (mant2 - 2 ^ f.fw), if inexact then flagNX else 0)

/-- Round an exact value; a NaN becomes the canonical one (R247). No flag comes from a NaN or an infinity here. -/
def Fmt.round (f : Fmt) (ftz : Bool) (mode : Nat) (x : Num) : Flagged :=
  match x with
  | .nan _ => (f.nan, 0)
  | .inf n => (f.inf n, 0)
  | .fin n m e => f.roundX ftz mode n m e false

/-! ## Exact sums and products -/

/-- Signed mantissa of a finite value at an exponent not above its own. -/
def Num.at_ (e0 : Int) : Num → Int
  | .fin n m e => (if n then -1 else 1) * ((m * 2 ^ (e - e0).toNat : Nat) : Int)
  | _ => 0

/-- The exponent of a finite value. -/
def Num.exp : Num → Int
  | .fin _ _ e => e
  | _ => 0

/-- The least exponent of a list of values. -/
def minExp : List Num → Int
  | [] => 0
  | [x] => x.exp
  | x :: r => min x.exp (minExp r)

/-- Sign of an exact zero sum: the common sign of the terms, else + but - under rdn (R293). -/
def zeroSign (mode : Nat) (l : List Num) : Bool :=
  if l.all (·.neg) then true else if l.all (fun x => !x.neg) then false else mode == 2

/-- The exact sum of finite values; its zero has the sign of R293. -/
def sumFin (mode : Nat) (l : List Num) : Num :=
  let e0 := minExp l
  let t : Int := l.foldr (fun x a => x.at_ e0 + a) 0
  if t = 0 then .fin (zeroSign mode l) 0 e0 else .fin (decide (t < 0)) t.natAbs e0

/-- The exact sum of values, with NV for a signalling NaN and for infinities of both signs (R258). A quiet NaN among
infinities of both signs raises NV when `both` says so (R307). -/
def sumAll (both : Bool) (mode : Nat) (l : List Num) : Num × Nat :=
  let nv := if l.any (·.isSig) then flagNV else 0
  let clash := l.any (fun x => x.isInf && x.neg) && l.any (fun x => x.isInf && !x.neg)
  if l.any (·.isNan) then (.nan false, orFlags nv (if both && clash then flagNV else 0))
  else if clash then (.nan false, flagNV)
  else match l.find? (·.isInf) with
    | some x => (x, 0)
    | none => (sumFin mode l, 0)

/-- An exact product; 0 × infinity gives NaN and NV (R258). -/
def mulNum (a b : Num) : Num × Nat :=
  let nv := if a.isSig || b.isSig then flagNV else 0
  if a.isNan || b.isNan then (.nan false, nv)
  else if (a.isInf && b.isZero) || (a.isZero && b.isInf) then (.nan false, flagNV)
  else
    let n := a.neg != b.neg
    match a, b with
    | .fin _ m e, .fin _ m' e' => (.fin n (m * m') (e + e'), 0)
    | _, _ => (.inf n, 0)

/-- Round a value that comes with flags. -/
def Fmt.finish (f : Fmt) (ftz : Bool) (mode : Nat) (x : Num × Nat) : Flagged :=
  let r := f.round ftz mode x.1
  (r.1, orFlags x.2 r.2)

def Fmt.add (f : Fmt) (ftz : Bool) (mode a b : Nat) : Flagged :=
  f.finish ftz mode (sumAll false mode [f.value ftz a, f.value ftz b])

def Fmt.sub (f : Fmt) (ftz : Bool) (mode a b : Nat) : Flagged :=
  f.finish ftz mode (sumAll false mode [f.value ftz a, (f.value ftz b).negate])

def Fmt.mul (f : Fmt) (ftz : Bool) (mode a b : Nat) : Flagged :=
  f.finish ftz mode (mulNum (f.value ftz a) (f.value ftz b))

/-- a × b + d with one rounding; 0 × infinity raises NV whatever d is (R296). -/
def Fmt.fma (f : Fmt) (ftz : Bool) (mode a b d : Nat) : Flagged :=
  let p := mulNum (f.value ftz a) (f.value ftz b)
  let t := sumAll false mode [p.1, f.value ftz d]
  f.finish ftz mode (t.1, orFlags p.2 t.2)

/-! ## Comparison, minimum, maximum (R297, R304) -/

/-- Order of two numbers that are no NaN: negative, zero or positive as a is below, equal to or above b. -/
def cmpNum (a b : Num) : Int :=
  match a, b with
  | .inf n, .inf n' => if n = n' then 0 else if n then -1 else 1
  | .inf n, _ => if n then -1 else 1
  | _, .inf n => if n then 1 else -1
  | a, b =>
    let e0 := min a.exp b.exp
    a.at_ e0 - b.at_ e0

/-- NV for a signalling operand. -/
def sigFlag (a b : Num) : Nat := if a.isSig || b.isSig then flagNV else 0

/-- The code of an operand once FTZ has flushed it. -/
def Fmt.flushed (f : Fmt) (ftz : Bool) (v : Nat) : Nat :=
  match f.value ftz v with
  | .fin n 0 _ => f.signBit n
  | _ => v % 2 ^ f.width

/-- min (`lo`) or max of two codes (R297). -/
def Fmt.minmax (f : Fmt) (ftz : Bool) (lo : Bool) (a b : Nat) : Flagged :=
  let x := f.value ftz a
  let y := f.value ftz b
  let fl := sigFlag x y
  let a' := f.flushed ftz a
  let b' := f.flushed ftz b
  if x.isNan then (if y.isNan then f.nan else b', fl)
  else if y.isNan then (a', fl)
  else
    let c := cmpNum x y
    if c = 0 && x.isZero then (f.signBit (if lo then x.neg || y.neg else x.neg && y.neg), fl)
    else (if (decide (c ≤ 0)) == lo then a' else b', fl)

/-- The relations of cmp.f32 (0 eq, 1 ne, 2 lt, 3 le) and cmpx.f32 (4 gt, 5 ge, 6 un, 7 num). -/
def Fmt.rel (f : Fmt) (ftz : Bool) (op a b : Nat) : Bool × Nat :=
  let x := f.value ftz a
  let y := f.value ftz b
  let un := x.isNan || y.isNan
  let c := cmpNum x y
  ((match op with
    | 0 => !un && c == 0
    | 1 => un || c != 0
    | 2 => !un && decide (c < 0)
    | 3 => !un && decide (c ≤ 0)
    | 4 => !un && decide (0 < c)
    | 5 => !un && decide (0 ≤ c)
    | 6 => un
    | _ => !un), sigFlag x y)

/-! ## Conversions (R253 to R255, R301 to R303) -/

/-- Round a finite magnitude to an integer in a mode, and whether it was inexact. -/
def roundInt (mode : Nat) (neg : Bool) (m : Nat) (e : Int) : Nat × Bool :=
  if 0 ≤ e then (m * 2 ^ e.toNat, false)
  else
    let sh := (-e).toNat
    let r := m % 2 ^ sh
    (m / 2 ^ sh + b2n (roundsUp mode neg (m / 2 ^ sh) r sh false), r != 0)

/-- Conversion to i32 or n32 (R254). -/
def toInt (signed : Bool) (mode : Nat) (x : Num) : Flagged :=
  let lo : Int := if signed then -2147483648 else 0
  let hi : Int := if signed then 2147483647 else 4294967295
  match x with
  | .nan _ => (0, flagNV)
  | .inf n => (wrap 32 (if n then lo else hi), flagNV)
  | .fin n m e =>
    let r := roundInt mode n m e
    let v : Int := if n then -(r.1 : Int) else r.1
    if v < lo then (wrap 32 lo, flagNV)
    else if hi < v then (wrap 32 hi, flagNV)
    else (wrap 32 v, if r.2 then flagNX else 0)

/-- Conversion to a narrow format (R253). -/
def Fmt.narrow (f : Fmt) (mode : Nat) (x : Num) : Flagged :=
  match x with
  | .nan _ => (0, flagNV)
  | .inf n => (f.largest n, flagOF + flagNX)
  | .fin n m e => f.roundX false mode n m e false

/-- The format of a cvt code (R277); the integer codes 0 and 1 have none. -/
def cvtFmt (code : Nat) : Fmt :=
  match code with
  | 2 => f32
  | 3 => f16
  | 4 => bf16
  | 5 => f8e4
  | 6 => f8e5
  | _ => f4e2

/-- An integer as an exact value. -/
def ofInt (v : Int) : Num := .fin (decide (v < 0)) v.natAbs 0

/-- The source of a cvt. -/
def cvtSource (ftz : Bool) (code a : Nat) : Num :=
  match code with
  | 0 => ofInt (sext 32 a)
  | 1 => ofInt (a % 2 ^ 32 : Nat)
  | c => (cvtFmt c).value ftz (a % 2 ^ (cvtFmt c).width)

/-- cvt in a mode (R301). -/
def cvtVal (ftz : Bool) (mode src dst a : Nat) : Flagged :=
  let ieeeDst := decide (2 ≤ dst) && decide (dst ≤ 4)
  let x := cvtSource (ftz && ieeeDst) src a
  match dst with
  | 0 => toInt true mode x
  | 1 => toInt false mode x
  | d =>
    if ieeeDst then (cvtFmt d).finish ftz mode (x, if x.isSig then flagNV else 0)
    else (cvtFmt d).narrow mode x

/-- One element of pk.f16x2 or pk.bf16x2: a finite value saturates (R302). -/
def pkWide (f : Fmt) (ftz : Bool) (mode a : Nat) : Flagged :=
  let x := f32.value ftz a
  let r := f.finish ftz mode (x, if x.isSig then flagNV else 0)
  if !x.isInf && !x.isNan && nbit r.2 2 then (f.largest x.neg, r.2) else r

/-- One element of upk (R303). -/
def upkVal (f : Fmt) (ftz : Bool) (a : Nat) : Flagged :=
  let x := f.value (ftz && f.ieee) a
  f32.finish false 0 (x, if x.isSig then flagNV else 0)

/-! ## Dot products and reductions (R306, R307, R313) -/

/-- Element i, of n bits, of a register. -/
def elem (n v i : Nat) : Nat := v / 2 ^ (n * i) % 2 ^ n

/-- d + a0 × b0 + a1 × b1 exactly, one rounding (R307). -/
def dp2Float (f : Fmt) (ftz : Bool) (mode a b d : Nat) : Flagged :=
  let w := f.width
  let p0 := mulNum (f.value (ftz && f.ieee) (elem w a 0)) (f.value (ftz && f.ieee) (elem w b 0))
  let p1 := mulNum (f.value (ftz && f.ieee) (elem w a 1)) (f.value (ftz && f.ieee) (elem w b 1))
  let t := sumAll true mode [f32.value ftz d, p0.1, p1.1]
  f32.finish ftz mode (t.1, orFlags (orFlags p0.2 p1.2) t.2)

/-! ## Special functions (R300): fixed point of 400 fraction bits; every inexact case keeps "more below" (log 66). -/

/-- Integer square root by one bit at a time: n bits remain. -/
def isqrtGo (x : Nat) : Nat → Nat → Nat
  | 0, r => r
  | n + 1, r =>
    let c := r + 2 ^ n
    isqrtGo x n (if c * c ≤ x then c else r)

/-- floor of the square root. -/
def isqrt (x : Nat) : Nat := isqrtGo x (Nat.log2 x / 2 + 1) 0

/-- A positive real: m × 2^e, or strictly between m and m + 1 times 2^e. -/
structure Real400 where
  m : Nat
  e : Int
  more : Bool
  deriving DecidableEq, Repr

def fixOne : Nat := 2 ^ 400

/-- ln 2 in 400 fraction bits. -/
def fixLn2 : Nat := 1789879222497203190815761498240779176894896805856420935579692301363062920687047601279850318367644315849030039181347319086

/-- pi / 2 in 560 fraction bits. -/
def fixHalfPi : Nat := 5928126314371638334354790071904919253216326915499629221591336585947536572023162185415906582022611621259954212803679288285935007600456599969117974661288081916384129107132

/-- Taylor sum of exp: the term, its number, and the terms left. -/
def expTaylor (y : Nat) : Nat → Nat → Nat → Nat
  | 0, _, _ => 0
  | n + 1, k, t => t + expTaylor y n (k + 1) (t * y / fixOne / k)

/-- n squarings of a fixed-point number. -/
def squareN : Nat → Nat → Nat
  | 0, x => x
  | n + 1, x => squareN n (x * x / fixOne)

/-- e^y for 0 ≤ y < 1 in fixed point. -/
def expFix (y : Nat) : Nat := squareN 8 (expTaylor (y / 256) 50 1 fixOne)

/-- Sum of z^(2i+1) / (2i+1). -/
def atanhSum (z2 : Nat) : Nat → Nat → Nat → Nat
  | 0, _, _ => 0
  | n + 1, k, t => t / k + atanhSum z2 n (k + 2) (t * z2 / fixOne)

/-- ln t for 1 ≤ t < 2 in fixed point. -/
def lnFix (t : Nat) : Nat :=
  let z := (t - fixOne) * fixOne / (t + fixOne)
  2 * atanhSum (z * z / fixOne) 140 1 z

/-- Alternating Taylor sum of sine (k = 2) or cosine (k = 1): the positive and the negative part. -/
def trigTaylor (r2 : Nat) : Nat → Nat → Nat → Nat × Nat
  | 0, _, _ => (0, 0)
  | n + 1, k, t =>
    let rest := trigTaylor r2 n (k + 2) (t * r2 / fixOne / (k * (k + 1)))
    (t + rest.2, rest.1)

def sinFix (r : Nat) : Nat :=
  let p := trigTaylor (r * r / fixOne) 60 2 r
  p.1 - p.2

def cosFix (r : Nat) : Nat :=
  let p := trigTaylor (r * r / fixOne) 60 1 fixOne
  p.1 - p.2

/-- The magnitude m × 2^e in 400 fraction bits. -/
def toFix (m : Nat) (e : Int) : Nat := if 0 ≤ e + 400 then m * 2 ^ (e + 400).toNat else m / 2 ^ (-(e + 400)).toNat

/-- Quadrant and remainder of a magnitude modulo pi / 2, in fixed point. -/
def trigReduce (m : Nat) (e : Int) : Nat × Nat :=
  let x := toFix m e * 2 ^ 160
  (x / fixHalfPi % 4, x % fixHalfPi / 2 ^ 160)

/-- Just below m × 2^e. -/
def justBelow (m : Nat) (e : Int) : Real400 := { m := m * 2 ^ 100 - 1, e := e - 100, more := true }

/-- A magnitude below 2^-40. -/
def tiny (m : Nat) (e : Int) : Bool := decide (e + (Nat.log2 m + 1 : Nat) < -40)

/-- 1 / x and 1 / sqrt x and sqrt x of a positive magnitude. -/
def rcpReal (m : Nat) (e : Int) : Real400 := { m := 2 ^ 200 / m, e := -e - 200, more := 2 ^ 200 % m != 0 }

def sqrtReal (m : Nat) (e : Int) : Real400 :=
  let odd := (e % 2).toNat
  let x := m * 2 ^ (200 + odd)
  let r := isqrt x
  { m := r, e := (e - odd) / 2 - 100, more := r * r != x }

def rsqReal (m : Nat) (e : Int) : Real400 :=
  let odd := (e % 2).toNat
  let x := m * 2 ^ odd
  let r := isqrt (2 ^ 400 / x)
  { m := r, e := -((e - odd) / 2) - 200, more := r * r * x != 2 ^ 400 }

/-- 2^x of a finite x that is no zero. -/
def exp2Real (neg : Bool) (m : Nat) (e : Int) : Real400 :=
  let x := toFix m e
  let whole := x / fixOne
  let frac := x % fixOne
  if decide (10 < e + (Nat.log2 m + 1 : Nat)) then { m := 1, e := if neg then -500 else 500, more := true }
  else if frac = 0 then { m := 1, e := if neg then -(whole : Int) else whole, more := false }
  else if neg then { m := expFix ((fixOne - frac) * fixLn2 / fixOne), e := -(whole : Int) - 1 - 400, more := true }
  else { m := expFix (frac * fixLn2 / fixOne), e := (whole : Int) - 400, more := true }

/-- log2 of a positive magnitude that is no power of two: sign and magnitude. -/
def log2Real (m : Nat) (e : Int) : Bool × Real400 :=
  let k : Int := e + Nat.log2 m
  let t := toFix m (-(Nat.log2 m : Int))
  let l : Int := k * fixOne + (lnFix t * fixOne / fixLn2 : Nat)
  (decide (l < 0), { m := l.natAbs, e := -400, more := true })

/-- sin (`cosine` false) or cos of a finite magnitude that is no zero: whether the result is negative for a positive
argument, and its magnitude. -/
def trigReal (cosine : Bool) (m : Nat) (e : Int) : Bool × Real400 :=
  if tiny m e then (false, if cosine then justBelow 1 0 else justBelow m e)
  else
    let qr := trigReduce m e
    let q := if cosine then (qr.1 + 1) % 4 else qr.1
    let v := if q % 2 = 0 then sinFix qr.2 else cosFix qr.2
    (decide (2 ≤ q), { m := v, e := -400, more := true })

/-- tanh of a positive magnitude. -/
def tanhReal (m : Nat) (e : Int) : Real400 :=
  if tiny m e then justBelow m e
  else if decide (6 < e + (Nat.log2 m + 1 : Nat)) then justBelow 1 0
  else
    let y := 2 * toFix m e
    let ex := expFix (y % fixLn2) * 2 ^ (y / fixLn2)
    { m := (ex - fixOne) * fixOne / (ex + fixOne), e := -400, more := true }

def roundReal (ftz : Bool) (mode : Nat) (neg : Bool) (r : Real400) : Flagged := f32.roundX ftz mode neg r.m r.e r.more

/-- The function of an sfu1 or sfu2 form, 0 rcp to 7 tanh in the order of R300, at a code. -/
def sfu (fn : Nat) (ftz : Bool) (mode a : Nat) : Flagged :=
  match f32.value ftz a with
  | .nan sg => (f32.nan, if sg then flagNV else 0)
  | .inf n =>
    match fn with
    | 0 => (f32.signBit n, 0)
    | 1 => if n then (f32.nan, flagNV) else (0, 0)
    | 2 => if n then (f32.nan, flagNV) else (f32.inf false, 0)
    | 3 => if n then (0, 0) else (f32.inf false, 0)
    | 4 => if n then (f32.nan, flagNV) else (f32.inf false, 0)
    | 5 => (f32.nan, flagNV)
    | 6 => (f32.nan, flagNV)
    | _ => (f32.signBit n + 0x3F800000, 0)
  | .fin n m e =>
    if m = 0 then
      match fn with
      | 0 => (f32.inf n, flagDZ)
      | 1 => (f32.inf n, flagDZ)
      | 2 => (f32.signBit n, 0)
      | 3 => (0x3F800000, 0)
      | 4 => (f32.inf true, flagDZ)
      | 5 => (f32.signBit n, 0)
      | 6 => (0x3F800000, 0)
      | _ => (f32.signBit n, 0)
    else
      match fn with
      | 0 => roundReal ftz mode n (rcpReal m e)
      | 1 => if n then (f32.nan, flagNV) else roundReal ftz mode false (rsqReal m e)
      | 2 => if n then (f32.nan, flagNV) else roundReal ftz mode false (sqrtReal m e)
      | 3 => roundReal ftz mode false (exp2Real n m e)
      | 4 =>
        if n then (f32.nan, flagNV)
        else if m = 2 ^ Nat.log2 m then f32.round ftz mode (ofInt (e + Nat.log2 m))
        else
          let r := log2Real m e
          roundReal ftz mode r.1 r.2
      | 5 =>
        let r := trigReal false m e
        roundReal ftz mode (r.1 != n) r.2
      | 6 =>
        let r := trigReal true m e
        roundReal ftz mode r.1 r.2
      | _ => roundReal ftz mode n (tanhReal m e)

/-! ## FMODE (R257) -/

def fmRm (fm : Word) : Nat := fm.toNat % 4
def fmFtz (fm : Word) : Bool := fm.getLsbD 2

/-- The bits of FMODE that a write changes (R257): CHKSB, the flags, FTZ and RM. -/
def fmodeMask : Word := 0x00009F07

/-! ## Integer corners -/

/-- The rounding right shift of R256. -/
def rshr (x : Int) (n : Nat) : Int := if n = 0 then x else (x + (2 : Int) ^ (n - 1)) / (2 : Int) ^ n

end Sys2Proof.Machine
end

