-- ==== Sys2Proof/Machine/Access.lean ====
section
/-! DEFINITION. The checks of an access (R188, R321), logbook entries, the order among them (R219), and the performance of
loads, stores, atomics, barrier, arrival and counter operations at their homes. -/

namespace Sys2Proof.Machine

/-! ## Checks (R168, R187 to R192) -/

/-- What a form allows at its address (R187, R320, R335, R338, R342). -/
structure AccOpt where
  acc : Access := .load
  glob : Bool := true
  priv : Bool := true
  spad : Bool := true
  /-- A peer or host target: allowed, or PAGE_PERM. -/
  peer : Bool := true
  host : Bool := true
  deriving DecidableEq, Repr

/-- Why one lane fails. -/
structure LaneFail where
  cause : Nat
  info : Nat := 0
  flags : Nat := 0
  ipa : Nat := 0
  /-- The address translated, for a private access (R192). -/
  va : Option Nat := none
  deriving DecidableEq, Repr

/-- The route of a logical peer of a slice: MODID and slice, when the entry is valid (R41). -/
def State.route (s : State) (t peer : Nat) : Option (Nat × Nat) :=
  let e := (Tbl.get s.m.routes 0 (t * 1024 + peer % 1024)).toNat
  if nbit e 31 && bits e 30 26 ≤ 16 && bits e 25 18 != 0 then some (bits e 9 0, bits e 30 26) else none

/-- FLAGS of a record for an access (R204). -/
def accFlags (host : Bool) (acc : Access) : Nat :=
  b2n host + (match acc with | .load => 0 | .store => 2 | .fetch => 4)

/-- One address of the global window, or of a private word, translated and checked (R188 steps 4 and 5, R42). -/
def State.checkGlobal (s : State) (g : Group) (o : AccOpt) (va : Nat) (priv : Bool) : Except LaneFail Loc :=
  match s.checkPage g.slice g.core va o.acc with
  | .error f => .error { cause := f.cause, flags := accFlags f.host o.acc, ipa := f.ipa }
  | .ok e =>
    if e.target = 2 then
      if !o.peer then .error { cause := 9 }
      else match s.route g.slice e.peer with
        | none => .error { cause := 11, info := 1 }
        | some r => .ok (locOf e va priv r)
    else if e.target = 1 && !o.host then .error { cause := 9 }
    else .ok (locOf e va priv)

/-- The scratchpad location of an address (R189). -/
def State.checkSpad (s : State) (g : Group) (a size : Nat) : Except LaneFail Loc :=
  let o := a - 0x01FFFFFFFF000000
  let c := o / 4194304
  let x := o % 4194304
  if c = g.lCore then
    if x + size ≤ g.spadLimit.toNat then .ok (.spad g.core (g.spadBase.toNat + x)) else .error { cause := 6 }
  else
    let l := s.clusterCores g.core
    match l[c]? with
    | none => .error { cause := 5 }
    | some k =>
      if (s.core k).wgs.any (fun w => w.slice == g.slice && !w.whole && decide (w.base ≤ x) && decide (x + size ≤ w.base + w.size)
            && w.gids.any (fun h => match Tbl.find s.groups h with | some g' => g'.ctx == g.ctx | none => false))
      then .ok (.spad k x) else .error { cause := 6 }

/-- The failure of a lane whose words fail differently: the lowest cause, of its first word (R168, R188). -/
def worstWord (l : List LaneFail) : Option LaneFail :=
  l.foldl (fun b f => match b with | none => some f | some m => if f.cause < m.cause then some f else b) none

/-- The pieces of a private access: one a word (R192). -/
def State.checkPriv (s : State) (g : Group) (o : AccOpt) (lane a size : Nat) (ea : DWord) : Except LaneFail (List Acc) :=
  let off := a - 0x01FFFFFF00000000
  let w := off / 4
  let n := (size + 3) / 4
  if w + n ≤ g.privWords.toNat then
    let words : List (Nat × Except LaneFail Loc) := (List.range n).map (fun k =>
      let va := privAddr (s.launchOf g).privBase g lane (w + k) + off % 4
      (k, (s.checkGlobal g o va true).mapError (fun f => { f with va := some va })))
    match worstWord (words.filterMap (fun x => match x.2 with | .error f => some f | .ok _ => none)) with
    | some f => .error f
    | none => .ok (words.filterMap (fun x => match x.2 with
        | .ok loc => some { lane := lane, ea := ea, off := 4 * x.1, size := min size 4, priv := true, loc := loc }
        | .error _ => none))
  else .error { cause := 7 }

/-- The address that a piece of a group's access translates: that of its word for a private one (R192). -/
def State.pieceVa (s : State) (g : Group) (a : Acc) : Nat :=
  if a.priv then
    privAddr (s.launchOf g).privBase g a.lane ((a.ea.toNat - 0x01FFFFFF00000000) / 4 + a.off / 4) + a.ea.toNat % 4
  else a.ea.toNat

/-- Every check of R188 for one lane, in order; the pieces of the access when all pass. -/
def State.checkLane (s : State) (g : Group) (o : AccOpt) (size lane : Nat) (ea : DWord) : Except LaneFail (List Acc) :=
  let a := ea.toNat
  if a % size ≠ 0 then .error { cause := 4, info := Nat.log2 size }
  else
    match windowOf a with
    | .bad => .error { cause := 5 }
    | .spad =>
      if !o.spad then .error { cause := 5 }
      else (s.checkSpad g a size).map (fun loc => [{ lane := lane, ea := ea, size := size, loc := loc }])
    | .priv => if !o.priv then .error { cause := 5 } else s.checkPriv g o lane a size ea
    | .glob =>
      if !o.glob then .error { cause := 5 }
      else (s.checkGlobal g o a false).map (fun loc => [{ lane := lane, ea := ea, size := size, loc := loc }])

/-- The checks of several lanes: the pieces, or the failures by lane. -/
def gather (l : List (Nat × DWord × Except LaneFail (List Acc))) : List Acc × List (Nat × DWord × LaneFail) :=
  l.foldr (fun x r => match x.2.2 with
    | .ok a => (a ++ r.1, r.2)
    | .error f => (r.1, (x.1, x.2.1, f) :: r.2)) ([], [])

/-- The lowest cause among failures (R168). -/
def lowCause (l : List (Nat × DWord × LaneFail)) : Nat := l.foldr (fun x c => min x.2.2.cause c) 32

/-- The trap of failing lanes: the lowest cause, its lanes, the address of the lowest such lane (R168, R169). -/
def Cx.rankFails (c : Cx) (fails : List (Nat × DWord × LaneFail)) : TrapInfo :=
  let k := lowCause fails
  let l := fails.filter (fun x => x.2.2.cause == k)
  match l with
  | [] => c.early 1 c.mask
  | x :: _ => { c.early k (maskOf (l.map (·.1))) 0 x.2.2.info x.2.1 with flags := x.2.2.flags, ipa := x.2.2.ipa, va := x.2.2.va }

/-- The effective address of a lane in layout MO (R320). -/
def Cx.moAddr (c : Cx) (scale l : Nat) : DWord := c.addr c.vw.a l + BitVec.ofInt 64 (sext 8 c.vw.imm * scale)

/-- Check every active lane's own address. -/
def Cx.checkLanes (c : Cx) (s : State) (o : AccOpt) (size : Nat) (ea : Nat → DWord) :
    Except TrapInfo (List Acc) :=
  let r := gather (c.lanes.map (fun l => (l, ea l, s.checkLane c.g o size l (ea l))))
  if r.2.isEmpty then .ok r.1 else .error (c.rankFails r.2)

/-- Check the one address of a form that takes one: a cause names the whole active mask (R320, R350). -/
def Cx.checkOne (c : Cx) (s : State) (o : AccOpt) (size : Nat) (ea : DWord) : Except TrapInfo (List Acc) :=
  match s.checkLane c.g o size (firstLane c.mask) ea with
  | .ok a => .ok a
  | .error f => .error { c.early f.cause c.mask 0 f.info ea with flags := f.flags, ipa := f.ipa, va := f.va }

/-- Keep the translations that the accesses of a group used. -/
def State.touch (s : State) (g : Group) (accs : List Acc) : State :=
  s.fillTlbs g.slice g.core ((accs.filter (fun a => windowOf a.ea.toNat == .glob)).map (fun a => a.ea.toNat))

/-- The MCJOIN entry of a slice that serves an address: group and offset of the lowest-numbered valid one (R46, R344). -/
def State.mcWindow (s : State) (t a : Nat) : Option (Nat × Nat) :=
  (List.range 64).findSome? (fun j =>
    let w (k : Nat) : Nat := (Tbl.get s.m.mcjoin 0 ((t * 64 + j) * 4 + k)).toNat
    let base := bits (w 3) 24 0 * 2 ^ 32 + bits (w 2) 31 16 * 65536
    let size := bits (w 1) 19 0 * 65536
    if nbit (w 0) 31 && decide (base ≤ a) && decide (a < base + size) then some (bits (w 0) 11 0, a - base) else none)

/-- The checks of one lane of a fabric form (R344). -/
def State.checkMc (s : State) (t lane : Nat) (ea : DWord) : Except LaneFail (List Acc) :=
  let a := ea.toNat
  if a % 4 ≠ 0 then .error { cause := 4, info := 2 }
  else if windowOf a ≠ .glob then .error { cause := 5 }
  else match s.mcWindow t a with
    | none => .error { cause := 11, info := 6 }
    | some (g, o) => .ok [{ lane := lane, ea := ea, loc := .mcast g o }]

/-! ## Bank conflicts (R190) -/

/-- The 16-byte scratchpad words that pieces name, each once. -/
def spadWords (accs : List Acc) : List (Nat × Nat) :=
  (accs.flatMap (fun a => match a.loc with
    | .spad c o => (List.range ((o % 16 + a.size + 15) / 16)).map (fun k => (c, o / 16 + k))
    | _ => [])).eraseDups

/-- The largest number of distinct words that one bank must deliver, less one. -/
def spadExtra (accs : List Acc) : Nat :=
  let w := spadWords accs
  (w.map (fun x => (w.filter (fun y => y.1 == x.1 && y.2 % 64 == x.2 % 64)).length)).foldr max 1 - 1

/-- Add the conflicts of an instruction to event 24 of its core. -/
def State.countBanks (s : State) (core : Nat) (accs : List Acc) : State :=
  let n := spadExtra accs
  if n = 0 then s else s.modCore core (fun c => c.count 24 n)

/-! ## Entries (R179 to R182, R322) -/

/-- Encoding of an instruction, as the INSN field holds it. -/
def insnOf (i : Instr) : Word := match encode i with | some (_, w) => BitVec.ofNat 32 w | none => 0

/-- The lowest free place of the logbook. -/
def freePlace (log : List Entry) : Nat := ((List.range 48).find? (fun k => log.all (fun e => e.id != k))).getD 48

/-- Allocate a watermark for a group. -/
def State.takeMark (s : State) (g : Group) : State × Word := s.drawMark g.ctx g.lDie (dieOf g.core)

/-- The effective scope of an access: the wider of SC and the least scope of its target (R212). -/
def effScope (sc : Nat) (loc : Loc) : Nat :=
  match loc with
  | .peer .. => max sc 9
  | .mcast _ _ => max sc 9
  | .host _ => max sc 10
  | _ => sc

/-- First destination register as DREG holds it (R180). -/
def dregOf (v : View) : Nat :=
  if v.dw = 0 then 0xFF
  else match v.dk with
    | .s => 0x80 + v.d
    | .sp => 0x80 + v.d
    | .v => v.d
    | .vp => v.d
    | .vq => v.d
    | .vk _ => v.d
    | .vk4 _ => v.d
    | _ => 0xFF

/-- A form whose operation is one for the split: lds, sts, bar, cnt and OP5 0x18 to 0x1D (R320, R326, R350). -/
def singleForm (v : View) : Bool :=
  (v.lay == .mo && 12 ≤ v.op && v.op ≤ 14) || (v.lay == .ma && (v.op == 21 || v.op == 22 || v.op == 26)) ||
  (v.lay == .mr && 24 ≤ v.op && v.op ≤ 29)

/-- Create the entry of an instruction (R180, R322): an entry of class I1 takes a watermark. -/
def Cx.enter (c : Cx) (t : State) (kind cls : Nat) (mask : Word) (accs : List Acc) : State :=
  let m := if cls = 1 then t.takeMark c.g else (t, 0)
  let e : Entry :=
    { kind := kind, cls := cls, split := some c.born, dreg := dregOf c.vw, wmark := m.2, pc := c.sp.pc, insn := insnOf c.i,
      mask := mask, id := freePlace c.g.log, num := c.g.nextNum, cyc := c.now,
      dst := if (kind = 12 && c.vw.op = 0x1C) || (9 ≤ kind && kind ≤ 11) then [] else writesOf c.i,
      spoil := (writesOf c.i).filterMap (fun r => if (c.met r).isEmpty then none else some (r, c.spread r)), draw := c.free,
      src := if kind = 12 && c.vw.op = 0x1C then [] else (readsOf c.i).filter (· != 103), acc := accs,
      sc := c.vw.sc, rel := c.vw.o / 2 == 1, acq := c.vw.o % 2 == 1, one := singleForm c.vw }
  m.1.modGroup c.gid (fun g => { g with log := g.log ++ [e], nextNum := g.nextNum + 1 })

/-- Record an access that passed its checks. -/
def Cx.record (c : Cx) (t : State) (kind cls : Nat) (accs : List Acc) : State :=
  ((c.enter t kind cls c.mask accs).touch c.g accs).countBanks c.g.core accs

/-- KIND of a store at a location (R181). -/
def storeKind (g : Group) (a : Acc) : Nat :=
  match a.loc with
  | .spad core _ => if core = g.core then 2 else 4
  | .cached _ _ _ => if a.priv then 2 else 3
  | .home _ _ => if a.priv then 2 else 3
  | .host _ => 14
  | .peer .. => 5
  | .mcast _ _ => 14

/-- Class of a KIND (R181). -/
def kindClass (k : Nat) : Nat :=
  if k = 14 then 2 else if k = 4 || k = 5 || k = 6 || k = 7 || k = 8 || k = 10 || k = 11 || k = 13 then 1 else 0

/-- KIND and class of a store whose lanes fall into several kinds (R322). -/
def storeEntry (g : Group) (accs : List Acc) : Nat × Nat :=
  let ks := accs.map (storeKind g)
  let cls := (ks.map kindClass).foldr max 0
  ((ks.filter (fun k => kindClass k == cls)).foldr min 14, cls)

/-! ## Order among the entries of a group (R199, R219) -/

/-- Bytes of a location as a numbered range: kind of place, first byte. -/
def locRange : Loc → Nat × Nat
  | .cached _ pa _ => (0, pa)
  | .home pa _ => (0, pa)
  | .host pa => (1, pa)
  | .peer n a _ _ => (2 + n, a)
  | .spad c o => (2000 + c, o)
  | .mcast n o => (5000 + n, o)

/-- Two pieces meet in a byte. -/
def overlap (a b : Acc) : Bool :=
  let x := locRange a.loc
  let y := locRange b.loc
  x.1 == y.1 && decide (x.2 < y.2 + b.size) && decide (y.2 < x.2 + a.size)

/-- A piece is reached uncached: MT 2, peer or host (R213). -/
def uncached (a : Acc) : Bool :=
  match a.loc with
  | .home _ mt => mt == 2
  | .host _ => true
  | .peer .. => true
  | .mcast _ _ => true
  | _ => false

/-- The core whose scratchpad port a piece uses. -/
def portOf (a : Acc) : Option Nat := match a.loc with | .spad c _ => some c | _ => none

/-- No lane of the entry has still to be performed: it is done, performed at its place, or its request is under way. -/
def Entry.over (e : Entry) : Bool := e.mask &&& ~~~(e.done ||| e.perf ||| e.asked) == 0

/-- Every lane of the entry has completed. -/
def Entry.complete (e : Entry) : Bool := e.mask &&& ~~~e.done == 0

/-- A store to the own core's places goes with lanes to global memory, which it publishes or sends (R322). -/
def Entry.outward (e : Entry) : Bool :=
  e.kind == 2 && e.acc.any (fun a => !a.priv && (match a.loc with | .spad _ _ => false | _ => true))

/-- An older entry f must have left the logbook before e is performed: an acquire (O5), a close before a store or an
engine issue (O2, O6). -/
def mustWait (f e : Entry) : Bool :=
  (f.acq && f.kind != 7) || (f.kind == 7 && (e.outward || (3 ≤ e.kind && e.kind ≤ 5) || 8 ≤ e.kind))

/-- An older entry f must be performed before e (R199, R219: O1, O4). -/
def mustFollow (f e : Entry) : Bool :=
  (f.rel && f.kind != 7 && e.kind != 1) ||
  f.acc.any (fun a => e.acc.any (fun b =>
    (a.lane == b.lane && overlap a b) || (uncached a && uncached b) ||
    ((portOf a).isSome && portOf a == portOf b)))

/-- Every older entry that must come first has come first. -/
def mayPerform (log : List Entry) (e : Entry) : Bool :=
  (log.takeWhile (fun f => f.id != e.id)).all (fun f => !mustWait f e && (f.over || !mustFollow f e))

/-! ## Data -/

/-- Bytes of a lane's datum from its pieces. -/
def lanePieces (accs : List Acc) (l : Nat) : List Acc := accs.filter (fun a => a.lane == l)

/-- The instruction of an entry, from INSN. -/
def Entry.instr (e : Entry) : Instr :=
  match Decode.word e.insn.toNat with
  | .ok i => i
  | .error _ => .nopH

/-- The destination words of a load from its datum (R323, R326). -/
def loadWords (i : Instr) (v : Nat) : List Nat :=
  match i with
  | .ldB _ => [wrap 32 (sext 8 v)]
  | .ldBn _ => [v % 256]
  | .ldH _ => [wrap 32 (sext 16 v)]
  | .ldHn _ => [v % 65536]
  | .ldD _ => [v % 2 ^ 32, v / 2 ^ 32 % 2 ^ 32]
  | .ldsD _ => [v % 2 ^ 32, v / 2 ^ 32 % 2 ^ 32]
  | .cntRd _ => [v % 2 ^ 32, v / 2 ^ 32 % 2 ^ 32]
  | .ldQ _ => [v % 2 ^ 32, v / 2 ^ 32 % 2 ^ 32, v / 2 ^ 64 % 2 ^ 32, v / 2 ^ 96 % 2 ^ 32]
  | .atomC f => if f.x = 3 then [v % 2 ^ 32, v / 2 ^ 32 % 2 ^ 32] else [v % 2 ^ 32]
  | _ => [v % 2 ^ 32]

/-- Write one word of an entry's result for a lane. A register that a window left undefined at issue stays so, in the lanes of that
window as well (R273). -/
def Group.deliverWord (g : Group) (e : Entry) (l k : Nat) (v : Word) : Group :=
  if e.dreg = 0xFF then g
  else if 128 ≤ e.dreg then
    let n := e.dreg - 128 + k
    g.setS n (match Tbl.find e.spoil (64 + n) with | some _ => Config.freeWord e.draw (64 + n) 0 | none => v)
  else
    match Tbl.find e.spoil (e.dreg + k) with
    | some m => g.setLanes (e.dreg + k) (fun l => Config.freeWord e.draw (e.dreg + k) l) (l :: lanesOf m)
    | none => g.setV (e.dreg + k) l v

/-- Write the words of an entry's result for a lane: lane registers, or group-scalar ones (DREG bit 7). -/
def Group.deliver (g : Group) (e : Entry) (l : Nat) (ws : List Nat) : Group :=
  ((List.range ws.length).zip ws).foldl (fun g x => g.deliverWord e l x.1 (BitVec.ofNat 32 x.2)) g

/-! ## Operations at a home -/

/-- The new value of an atomic or reduction (R328, R329, R331): old value, first and second operand. -/
def atomNew (i : Instr) (old v v2 : Nat) : Nat :=
  let addF := (f32.add false 0 old v).1
  let addI := (old + v) % 2 ^ 32
  match i with
  | .atomA f => if f.x = 0 then addI else if f.x = 1 then addF else pickInt0 true (f.x == 2) old v
  | .atomB f => if f.x = 0 then Nat.land old v else if f.x = 1 then Nat.lor old v else if f.x = 2 then Nat.xor old v else v
  | .atomC f =>
    if f.x = 0 then (if old = v then v2 else old)
    else if f.x = 1 then (if v ≤ old then 0 else old + 1)
    else if f.x = 2 then (if old = 0 || v < old then v else old - 1)
    else (old + v) % 2 ^ 64
  | .red f =>
    if f.x = 0 then addI else if f.x = 1 then addF else if f.x = 2 then pickInt0 true false old v
    else (bf16.add false 0 (old % 65536) (v % 65536)).1 + 65536 * (bf16.add false 0 (old / 65536) (v / 65536)).1
  | _ => old
where
  /-- Signed minimum or maximum. -/
  pickInt0 (signed lo : Bool) (a b : Nat) : Nat :=
    let le := if signed then decide (sext 32 a ≤ sext 32 b) else decide (a ≤ b)
    if le == lo then a else b

/-- The atomic is performed in the core's L1 (R212): MT 0 at scope core or narrower, or cl in a fused cluster. -/
def State.inL1 (s : State) (g : Group) (sc : Nat) (loc : Loc) : Bool :=
  match loc with
  | .cached _ _ _ => decide (sc ≤ 4) || (sc == 5 && (s.core g.core).fused)
  | _ => false

/-- Number of the home of an atomic on device memory, for R212: 0 the home bank, 1 the memory controller, else the L1 of a
core. -/
def State.homeOf (s : State) (g : Group) (sc : Nat) (loc : Loc) : Nat :=
  match loc with
  | .cached va _ _ => if s.inL1 g sc loc then 2 + s.lineCore g.core va else 0
  | .home _ mt => b2n (mt == 2)
  | _ => 0

/-- The device address of a location. -/
def Loc.pa? : Loc → Option Nat
  | .cached _ pa _ => some pa
  | .home pa _ => some pa
  | _ => none

/-- An atomic at scope cl or wider first sends the core's dirty bytes of the line home and drops the line (R220). -/
def State.sendDirty (s : State) (g : Group) (loc : Loc) : State :=
  match loc with
  | .cached va _ priv =>
    match s.line? g.slice g.core va priv with
    | none => s
    | some l =>
      (s.spill l).modCore (s.lineCore g.core va) (fun c => { c with lines := c.lines.erase l })
  | _ => s

/-- The last operation on a byte since a plain store was an atomic at a home (R212). -/
def State.lastAtom (s : State) (pa home : Nat) : Bool := Tbl.find s.m.atomAt pa == some home

/-- Bytes at the home of the effective scope (R212). The L1 of a fused cluster is one home for its cores: an atomic there finds
the last atomic's result, else what a load of its core finds. -/
def State.homeRead (s : State) (g : Group) (sc : Nat) (loc : Loc) (n : Nat) : List Byte :=
  if s.inL1 g sc loc then
    (match loc with
     | .cached va pa false =>
       let own := s.readLoc g loc n
       if (s.core g.core).fused then (List.range n).map (fun i =>
         ((if s.lastAtom (pa + i) (s.homeOf g sc loc) then s.fusedByte g.slice g.core (va + i) (pa + i) else none)).getD (own.getD i 0))
       else own
     | l => s.readLoc g l n)
  else match loc with
    | .cached _ pa _ => s.memBytes pa n
    | .home pa _ => s.memBytes pa n
    | l => s.readLoc g l n

/-- Mixed homes leave the bytes undefined (R212). -/
def State.mixHomes (s : State) (home : Nat) (loc : Loc) (bs : List Byte) : State × List Byte :=
  match loc.pa? with
  | some pa =>
    let mixed := (List.range bs.length).any (fun i => match Tbl.find s.m.atomAt (pa + i) with | some h => h != home | none => false)
    (s.modM (fun m => { m with atomAt := (List.range bs.length).foldl (fun t i => Tbl.put t (pa + i) home) m.atomAt }),
      if mixed then (List.range bs.length).map (fun i => Config.freeByte s.free i) else bs)
  | none => (s, bs)

/-- Write bytes at the home of the effective scope. -/
def State.homeWrite (s : State) (gid : Nat) (g : Group) (sc : Nat) (loc : Loc) (bs : List Byte) : State :=
  let m := s.mixHomes (s.homeOf g sc loc) loc bs
  if s.inL1 g sc loc then
    (match loc with
     | .cached va pa false =>
       let shared := (List.range bs.length).all (fun i => s.lastAtom (pa + i) (s.homeOf g sc loc))
       m.1.cachedPut (if shared then m.1.l1Cores g.core else [g.core]) g.slice g.core gid va pa false m.2
     | l => m.1.writeLoc gid g l false m.2)
  else match loc with
    | .cached _ pa _ => (m.1.sendDirty g loc).publishBytes pa m.2
    | .home pa _ => m.1.publishBytes pa m.2
    | l => m.1.writeLoc gid g l false bs

/-- Poison that an operation at a home of n bytes meets (R101): the poisoned address; a scratchpad word has no frame and stands
as 0. -/
def State.locPoison (s : State) (loc : Loc) (n : Nat) : Option Nat :=
  match loc with
  | .cached _ pa _ => s.poisonIn pa n
  | .home pa _ => s.poisonIn pa n
  | .spad c o => if s.spadBad c o n then some 0 else none
  | _ => none

/-- A barrier object as numbers (R335). -/
def barGen (v : Nat) : Nat := bits v 63 44
def barPend (v : Nat) : Nat := bits v 43 22
def barInit (v : Nat) : Nat := bits v 21 0
def barWord (gen pend init : Nat) : Nat := gen % 2 ^ 20 * 2 ^ 44 + pend % 2 ^ 22 * 2 ^ 22 + init % 2 ^ 22

/-- The arrival loop of R336: n arrivals; each pass completes a generation or ends. -/
def barArriveLoop (init : Nat) : Nat → Nat → Nat → Nat → Nat × Nat
  | 0, _, gen, pend => (gen, pend)
  | fuel + 1, n, gen, pend =>
    if n = 0 then (gen, pend)
    else
      let k := min n pend
      if pend - k = 0 then barArriveLoop init fuel (n - k) ((gen + 1) % 2 ^ 20) init
      else barArriveLoop init fuel (n - k) gen (pend - k)

/-- An object the barrier forms leave undefined (R335). -/
def barBad (v : Nat) : Bool := barInit v == 0 || decide (barInit v < barPend v)

/-- n arrivals on an object: its new value. PEND = 0 at the start cannot stand in a sound object. -/
def barArriveVal (v n : Nat) : Nat :=
  let r := barArriveLoop (barInit v) (n + 1) n (barGen v) (barPend v)
  barWord r.1 r.2 (barInit v)

/-- The recorded value of an operation, if its home has performed it (R183). -/
def State.window? (s : State) (mod owner wm lane : Nat) : Option Nat :=
  (s.m.windows.find? (fun w => w.1 == mod && w.2.1 == owner && w.2.2.1 == wm && w.2.2.2.1 == lane)).map (·.2.2.2.2)

/-- Record an operation in the window of its home. -/
def State.record (s : State) (mod owner wm lane v : Nat) : State :=
  s.modM (fun m => { m with windows := (mod, owner, wm, lane, v) :: m.windows })

/-- Perform one lane of an I1 operation at its home: the state and the value returned. -/
def State.homeOp (s : State) (gid : Nat) (g : Group) (e : Entry) (l : Nat) : State × Nat :=
  match lanePieces e.acc l with
  | [] => (s, 0)
  | a :: _ =>
    match e.instr with
    | .barArrive _ => barOp a
    | .barArriveWait _ => barOp a
    | .arrArrive _ => arrOp a
    | .arrExpect _ => arrOp a
    | .cntAdd _ =>
      let old := ofLe (s.homeRead g e.sc a.loc 8)
      (s.homeWrite gid g e.sc a.loc (leBytes 8 (old + a.v)), old)
    | i =>
      if e.kind = 6 then
        let sc := effScope e.sc a.loc
        let old := ofLe (s.homeRead g sc a.loc a.size)
        (s.homeWrite gid g sc a.loc (leBytes a.size (atomNew i old a.v a.v2)), old)
      else (s.writeLoc gid g a.loc a.priv (leBytes a.size a.v), 0)
where
  /-- A barrier arrival of every lane of the entry (R336). -/
  barOp (a : Acc) : State × Nat :=
    let v := ofLe (s.homeRead g e.sc a.loc 8)
    let n := (lanesOf e.mask).length
    (s.homeWrite gid g e.sc a.loc
      (if barBad v then (List.range 8).map (fun i => Config.freeByte s.free i) else leBytes 8 (barArriveVal v n)), barGen v)
  /-- An arrival at an arrival object (R339). -/
  arrOp (a : Acc) : State × Nat :=
    match a.loc with
    | .spad c o => (s.setArrival c o true ((s.arrival c o).arrive (sext 48 a.v)), 0)
    | _ => (s, 0)

end Sys2Proof.Machine
end

