-- ==== Sys2Proof/Machine/Order.lean ====
section
/-! DEFINITION. Release, publication and acquire (R215 to R221), and the waits (R347): when the condition of a fence, a
phase operation, a barrier, arrival, counter, matrix or collective wait holds, and what its completion does. -/

namespace Sys2Proof.Machine

/-! ## Late causes (R166, R168, R408) -/

/-- The address that a late cause reports (R169). -/
def Entry.failAddr (e : Entry) : DWord :=
  if e.kind = 9 || e.kind = 10 then e.addr
  else if e.kind = 12 then (if e.cause = 14 then 0 else e.addr)
  else if e.kind = 11 || e.kind = 7 then 0
  else match e.acc.find? (fun a => e.one || e.failMask.getLsbD a.lane) with
    | some a => a.ea
    | none => 0

/-- A failed entry as a trap, for the split that takes it. -/
def Entry.trap (e : Entry) (p : Split) : TrapInfo :=
  { cause := e.cause, info := e.info, how := if e.cause = 17 then 2 else 1, entry := if e.cause = 17 then 63 else e.id,
    mask := if e.cause = 17 then p.mask else e.failMask, pc := e.pc,
    rpc := if e.cause = 17 then e.pc + 4 else p.pc, addr := e.failAddr }

/-- Mark lanes of an entry failed: the lowest cause wins (R168). A failure that no live lane can take follows R408. -/
def State.lateFail (s : State) (gid id cause info : Nat) (lanes : Word) (addr : DWord := 0) : State :=
  let s1 := s.modEntry gid id (fun e =>
    if !e.failed || cause < e.cause then
      { e with failed := true, cause := cause, info := info, failMask := lanes, addr := if addr = 0 then e.addr else addr }
    else if cause = e.cause then { e with failMask := e.failMask ||| lanes }
    else e)
  let g := s1.group gid
  match g.entry? id with
  | none => s1
  | some e =>
    if e.mask &&& g.live != 0 then s1
    else if e.kind = 9 || e.kind = 10 || e.kind = 11 then s1.freeEntry gid id
    else if cause = 14 then s1.startKill g.slice 2 0
    else s1.terminal gid (e.trap {})

/-! ## Release and publication -/

/-- A piece of a store that a publication must cover (R215). -/
def publishable (a : Acc) : Bool :=
  !a.priv && (match a.loc with | .cached _ _ _ => true | .home _ _ => true | _ => false)

/-- tile.tst, whose bytes count as those of a KIND 3 store (R363). -/
def isTst (i : Instr) : Bool := match i with | .tileTst _ => true | _ => false

/-- mma.issue, of either scope. -/
def isMma (i : Instr) : Bool := match i with | .mmaIssueCore _ => true | .mmaIssueCl _ => true | _ => false

/-- Key of an element of an accumulator. -/
def tileKey (core a row col : Nat) : Nat := ((core * 8 + a) * 128 + row) * 192 + col

/-- Give every element of an accumulator one rule: 0 for zero, n + 1 for free values. -/
def State.accFill (s : State) (core a rule : Nat) : State :=
  ({ s with tile := s.tile.filter (fun e => e.1 / 24576 != core * 8 + a) } : State).modCore core
    (fun c => { c with accInit := Tbl.put c.accInit a rule })

/-- The accumulators that a matrix entry names (R356). -/
def mmaAccs (i : Instr) : List Nat :=
  match i with
  | .mmaIssueCore f => [f.d.toNat]
  | .mmaIssueCl f => (List.range 4).map (f.d.toNat + ·)
  | _ => []

/-- coll.issue. -/
def isColl (i : Instr) : Bool := match i with | .collIssue _ => true | _ => false

/-- An engine or the array performs the entry's operation: it goes on there, and is not performed again (R184). -/
def Entry.elsewhere (e : Entry) : Bool :=
  e.kind == 9 || e.kind == 10 || (e.kind == 11 && isColl e.instr) || (e.kind == 12 && isMma e.instr)

/-- The entry is a store, of any kind. -/
def Entry.stores (e : Entry) : Bool := (2 ≤ e.kind && e.kind ≤ 5) || e.kind == 14 || (e.kind == 12 && isTst e.instr)

/-- The lanes whose pieces pass a test. -/
def lanesWhere (accs : List Acc) (p : Acc → Bool) : Word := maskOf ((accs.filter p).map (·.lane))

/-- One piece of a store is performed for a scope (R216 step 2, R332). -/
def settledAcc (core sc : Nat) (e : Entry) (a : Acc) : Bool :=
  let acked := e.done.getLsbD a.lane
  match a.loc with
  | .spad c _ => (c == core && e.perf.getLsbD a.lane) || (c != core && decide (sc < 5)) || acked
  | .peer .. => decide (sc < 9) || acked
  | .mcast _ _ => decide (sc < 9) || acked
  | .host _ => decide (sc < 10) || acked
  | _ => e.perf.getLsbD a.lane || acked

/-- A close at a scope need not wait for the entry any longer (R216). -/
def covered (core sc : Nat) (e : Entry) : Bool :=
  !e.stores || e.acc.all (settledAcc core sc e)

/-- tile.tld. -/
def isTld (i : Instr) : Bool := match i with | .tileTld _ => true | _ => false

/-- The entry is a load, of registers or of the tile store. -/
def Entry.loads (e : Entry) : Bool := e.kind == 1 || e.kind == 6 || (e.kind == 12 && isTld e.instr)

/-- A release at a scope need not wait for the entry any longer: it is performed for the scope, a store to another core's
scratchpad at its port (R220, R221, R332, R337). -/
def settled (core sc : Nat) (e : Entry) : Bool :=
  covered core sc e && (e.complete || !(e.loads || e.kind == 8)) &&
    (!e.stores || e.acc.all (fun a => (portOf a).isNone || (e.done ||| e.perf).getLsbD a.lane))

/-- The entries older than a number. -/
def Group.older (g : Group) (mark : Nat) : List Entry := g.log.filter (fun e => decide (e.num < mark))

/-- The release part before a point has nothing left to wait for. -/
def Group.released (g : Group) (mark sc : Nat) : Bool := (g.older mark).all (settled g.core sc)

/-- Every earlier load and atomic has its value (R217). -/
def Group.valuesBack (g : Group) (mark : Nat) : Bool :=
  (g.older mark).all (fun e => e.complete || !e.loads)

/-- Addresses of the bytes a group has stored and not published. -/
def State.dirtyOf (s : State) (gid : Nat) : List Nat :=
  (s.l1Cores (s.group gid).core).flatMap (fun hc =>
    (s.core hc).lines.flatMap (fun l =>
      if l.priv then []
      else l.bytes.filterMap (fun e => if e.2.holds gid then some (l.pa + e.1) else none))) ++
  (List.range 4).flatMap (fun d =>
    (s.die d).unpub.filterMap (fun e => if e.2.groups.contains gid then some (e.1 % 549755813888) else none))

/-- Publish a group's stores. A poisoned line or L2 word that they overwrite whole loses its mark; a part of one consumes it
(R101). -/
def State.publishChecked (s : State) (gid : Nat) : State :=
  if s.m.poison.isEmpty && s.m.badWords.isEmpty then s.publish gid
  else
    let bytes := (s.dirtyOf gid).eraseDups
    let hit := s.m.poison.filter (fun l => bytes.any (fun a => lineNo a == l))
    let words := s.m.badWords.filter (fun w => match w with | .l2 k => bytes.any (fun a => a / 8 == k) | _ => false)
    match hit.find? (fun l => decide ((bytes.filter (fun a => lineNo a == l)).length < 128)),
          words.find? (fun w => match w with | .l2 k => decide ((bytes.filter (fun a => a / 8 == k)).length < 8) | _ => false) with
    | some l, _ => s.consumePoison (s.group gid).slice (l * 128)
    | none, some (.l2 k) => s.consumePoison (s.group gid).slice (k * 8)
    | none, _ => (((s.modM (fun m => { m with poison := m.poison.filter (fun l => !hit.contains l) })).clearBad words.contains).publish gid)

/-- The stores of a group older than a number whose bytes lie in a frame that is no longer the slice's fail at the controller
when they are published (R63, R66). -/
def State.ownedStores (s : State) (gid mark : Nat) : State :=
  let g := s.group gid
  (g.log.filter (fun e => decide (e.num < mark) && (e.kind == 3 || (e.kind == 12 && isTst e.instr)) && !e.failed)).foldl (fun s e =>
    match e.acc.find? (fun a => publishable a && (match a.loc.pa? with | some p => s.ownerNow (p / 65536) != g.slice | none => false)) with
    | none => s
    | some a => s.lateFail gid e.id 10 0 (e.mask &&& maskOf ((e.acc.filter (fun a =>
        match a.loc.pa? with | some p => s.ownerNow (p / 65536) != g.slice | none => false)).map (·.lane))) a.ea) s

/-- Free the entry if every lane has completed; its watermark leaves the windows (R183). -/
def State.freeIfDone (s : State) (gid id : Nat) : State :=
  match (s.group gid).entry? id with
  | none => s
  | some e =>
    if e.complete then
      let s1 := s.freeEntry gid id
      if e.cls = 1 then s1.unrecord (s.group gid).slice e.wmark.toNat else s1
    else s

/-- The lanes of an entry whose pieces all pass a test; a single-address form counts as one. -/
def Entry.lanesAll (e : Entry) (p : Acc → Bool) : Word :=
  if e.one then (if e.acc.all p then e.mask else 0) else e.mask &&& ~~~(lanesWhere e.acc (fun a => !p a))

/-- The lanes that a publication at a scope completes: those performed, of pieces it covers (R179, R212). -/
def Entry.published (e : Entry) (sc : Nat) : Word :=
  e.perf &&& e.lanesAll (fun a => publishable a && (5 ≤ sc || (match a.loc with | .home _ mt => mt == 2 | _ => false)))

/-- R216 step 1 for the stores older than a number, at a scope: they are published and their entries freed. -/
def State.publishAt (s : State) (gid mark sc : Nat) : State :=
  let s1 := if 5 ≤ sc then (s.ownedStores gid mark).publishChecked gid else s
  (((s1.group gid).older mark).filter (fun e => e.stores && !e.failed)).foldl (fun s e =>
    (s.modEntry gid e.id (fun e => { e with done := e.done ||| e.published sc })).freeIfDone gid e.id) s1

/-- A publication of a group at a scope waits at a controller: a byte that it publishes is busy there (R66, R67). -/
def State.publishBusy (s : State) (gid sc : Nat) : Bool :=
  if sc < 5 || (s.m.ownJob.isNone && s.hbm.all (·.2.held.isEmpty)) then false
  else
    let t := (s.group gid).slice
    (s.l1Cores (s.group gid).core).any (fun hc => (s.core hc).lines.any (fun l =>
      !l.priv && s.placeBusy t l.pa && l.bytes.any (fun e => e.2.holds gid))) ||
    s.dies.any (fun d => d.2.unpub.any (fun e => e.2.groups.contains gid && s.placeBusy t (e.1 % 549755813888)))

/-- R217 and R221: an open at a scope acts on the core's L1. -/
def State.openAt (s : State) (gid sc : Nat) : State := if 5 ≤ sc then s.openL1 (s.group gid).core else s

/-- A NAK of a posted store is noted for the next close that waits for the store (R48). -/
def State.noteNak (s : State) (gid sc code : Nat) : State :=
  s.modGroup gid (fun g => { g with naks := g.naks ++ [(sc, code)] })

/-! ## Waits (R347) -/

/-- How a wait stands. -/
inductive WaitRes where
  | pending (s : State)
  | done (s : State)
  | trap (t : TrapInfo)
  deriving DecidableEq, Repr

/-- The split goes on after its wait. -/
def State.waitOver (s : State) (gid born : Nat) : State :=
  s.modSplit gid born (fun p => { p with st := .run, why := .awake, wait := none, mark := none, pc := p.pc + 4 })

/-- PROMISE_MISSED of a wait (R341, R343). -/
def missed (p : Split) (info addr : Nat) : TrapInfo :=
  { cause := 13, info := info, mask := p.mask, pc := p.pc, rpc := p.pc, addr := BitVec.ofNat 64 addr }

/-- The accesses of the group that precede a wait and share its place have been performed. -/
def waitTurn (g : Group) (mark : Nat) (accs : List Acc) : Bool :=
  let e : Entry := { kind := 1, acc := accs }
  (g.older mark).all (fun f => !mustWait f e && (f.over || !mustFollow f e))

/-- The arrival objects of a wait: lane, ERR, GEN and OWED. -/
def State.arrivalsOf (s : State) (accs : List Acc) : List (Nat × Arrival) :=
  accs.filterMap (fun a => match a.loc with | .spad c o => some (a.lane, s.arrival c o) | _ => none)

/-- A generation has reached a target (R340). -/
def reached (gen t : Nat) : Bool := decide ((gen + 65536 - t % 65536) % 65536 < 32768)

/-- Revised promise over the unsatisfied lanes (R341). -/
def revised (cycle : Nat) (t : Nat) (l : List (Nat × Arrival)) : Nat :=
  let owed := ((l.filter (fun x => !reached x.2.gen t)).map (fun x => (max x.2.owed 0).toNat)).foldr max 0
  cycle + 2000 + (owed + 63) / 64

/-- VALUE and error word of a counter, at the home of a scope (R342, R343). -/
def State.counterAt (s : State) (g : Group) (sc : Nat) (accs : List Acc) : Nat × Nat :=
  match accs with
  | [] => (0, 0)
  | a :: _ =>
    let b := s.homeRead g sc a.loc 16
    (field b 0 8, field b 8 8)

/-- GEN of a barrier object at the home of a scope. -/
def State.genAt (s : State) (g : Group) (sc : Nat) (accs : List Acc) : Nat :=
  match accs with
  | [] => 0
  | a :: _ => barGen (ofLe (s.homeRead g sc a.loc 8))

/-- The acquire part of a completed form, when its field O has one (R220). -/
def State.acquire (s : State) (gid sc : Nat) (o : Nat) : State := if o % 2 = 1 then s.openAt gid sc else s

/-- What the spec asks of a fence's kind X: its release and acquire parts (R332). -/
def fenceRel (x : Nat) : Bool := x != 0
def fenceAcq (x : Nat) : Bool := x != 1

/-- The horizon of R105: an effect of an instruction leaves the partition 64 cycles after its issue. -/
def pastHorizon (p : Split) (now : Nat) : Bool := decide (p.readyAt + 63 ≤ now)

/-- mma.fence at a scope (R360): scratchpad stores at their ports, those to other cores acknowledged at scope cl, and tile.tld. -/
def mmaFenced (core sc : Nat) (e : Entry) : Bool :=
  if e.kind = 12 && !isTst e.instr then isMma e.instr || e.complete
  else !e.stores || e.acc.all (fun a =>
    match a.loc with
    | .spad c _ => if c = core then (e.perf ||| e.done).getLsbD a.lane
                   else decide (sc < 5) && e.perf.getLsbD a.lane || e.done.getLsbD a.lane
    | _ => true)

/-- No accumulator is being cleared by a tile.tzero of the group (R360, R364). -/
def Group.zeroed (g : Group) (now : Nat) : Bool := g.accBusy.all (fun e => decide (e.2 ≤ now))

/-- No tile.tcvt of the group issued before a point waits for its turn (R360). -/
def Group.converted (g : Group) (mark : Nat) : Bool :=
  g.splits.all (fun p => match p.wait with
    | some { insn := .tileTcvt _, num := n, .. } => decide (mark < n)
    | _ => true)

/-- The forms that wait for a condition (R347, R360, R361, R373); another form that sleeps waits for its own turn. -/
def isWait (i : Instr) : Bool :=
  match i with
  | .fence _ => true
  | .phaseOpen _ => true
  | .phaseCycle _ => true
  | .barWait _ => true
  | .barArriveWait _ => true
  | .arrWait _ => true
  | .cntWait _ => true
  | .mmaWait _ => true
  | .mmaFence _ => true
  | .collWait _ => true
  | _ => false

/-- Poison that a wait consumes in the object that it reads (R101). -/
def State.waitPoison (s : State) (g : Group) (w : Wait) : Option Nat :=
  if waitTurn g w.num w.accs then w.accs.findSome? (fun a => s.locPoison a.loc (match w.insn with | .barWait _ => 8 | _ => 16)) else none

/-- Try the wait of a sleeping split: whether its condition holds, and the state in which it then goes on. -/
def State.tryWait (s : State) (gid born : Nat) (g : Group) (p : Split) (w : Wait) : WaitRes :=
  let go (u : State) : WaitRes := .done (u.waitOver gid born)
  let reads (k : WaitRes) : WaitRes :=
    match s.waitPoison g w with | some pa => .pending (s.consumePoison g.slice pa) | none => k
  match w.insn with
  | .fence f =>
    let x := f.x.toNat
    let sc := f.sc.toNat
    if (!fenceRel x || (g.released w.num sc && pastHorizon p (s.now g.core) && !s.publishBusy gid sc)) &&
        (!fenceAcq x || g.valuesBack w.num) then
      let s1 := if fenceRel x then s.publishAt gid w.num sc else s
      go (if fenceAcq x then s1.openAt gid sc else s1)
    else .pending s
  | .phaseOpen f => if g.valuesBack w.num then go (s.openAt gid f.sc.toNat) else .pending s
  | .phaseCycle f =>
    match w.ent.bind g.entry? with
    | some e => if e.failed && g.valuesBack w.num then go (s.openAt gid f.sc.toNat) else .pending s
    | none => if g.valuesBack w.num then go (s.openAt gid f.sc.toNat) else .pending s
  | .barWait f =>
    let sc := f.sc.toNat
    match p.mark with
    | some mk0 =>
      if g.released mk0 sc && pastHorizon p (s.now g.core) && !s.publishBusy gid sc then
        .pending ((s.publishAt gid mk0 sc).modSplit gid born (fun p => { p with mark := none }))
      else .pending s
    | none =>
      reads <| if waitTurn g w.num w.accs && (f.o.toNat % 2 == 0 || g.valuesBack w.num) &&
          s.genAt g sc w.accs != w.tgt then
        go (s.acquire gid sc f.o.toNat)
      else .pending s
  | .barArriveWait f =>
    match w.ent.bind g.entry? with
    | none => go s
    | some e =>
      if e.complete && (f.o.toNat % 2 == 0 || g.valuesBack e.num) &&
          s.genAt g f.sc.toNat w.accs != e.prog.toNat % 2 ^ 20 then
        go ((s.acquire gid f.sc.toNat f.o.toNat).freeIfDone gid e.id)
      else .pending s
  | .arrWait _ =>
    reads <| if !waitTurn g w.num w.accs then .pending s
    else
      let l := s.arrivalsOf w.accs
      match l.find? (fun x => x.2.err != 0) with
      | some x => .trap (missed p x.2.err 0)
      | none =>
        if l.all (fun x => reached x.2.gen w.tgt) then go s
        else if w.prom != 0 && decide (w.prom ≤ s.cycle) then .trap (missed p 0 (revised s.cycle w.tgt l))
        else .pending s
  | .cntWait f =>
    reads <| if !waitTurn g w.num w.accs then .pending s
    else
      let c := s.counterAt g f.sc.toNat w.accs
      if nbit c.2 63 then .trap (missed p (bits c.2 55 48) 0)
      else if w.tgt ≤ c.1 then go s
      else .pending s
  | .mmaWait f =>
    let mine := g.log.filter (fun e => e.kind == 12 && isMma e.instr && (view e.instr).d == f.d.toNat)
    match mine.find? (·.failed) with
    | some e => .trap { cause := 14, how := 1, entry := e.id, mask := p.mask, pc := p.pc, rpc := p.pc }
    | none => if mine.all (·.complete) then go (mine.foldl (fun s e =>
        (if e.undef then (mmaAccs e.instr).foldl (fun s a => s.accFill g.core a (s.free + 1)) s else s).freeEntry gid e.id) s) else .pending s
  | .mmaFence f =>
    if (g.older w.num).all (mmaFenced g.core f.b.toNat) && g.zeroed (s.now g.core) && g.converted w.num then go s else .pending s
  | .collWait _ =>
    if g.log.any (fun e => e.kind == 11 && isColl e.instr && e.acc.any (fun a => a.ea.toNat == w.tgt)) then .pending s
    else go s
  | _ => go s

/-- A form that waits: its split sleeps at it, and goes on at once when the condition holds already (R347). -/
def Cx.await (c : Cx) (t : State) (w : Wait) (rel : Bool) : Res :=
  let n := (t.group c.gid).nextNum
  let w := { w with num := n }
  let t1 := t.modSplit c.gid c.born (fun p =>
    { p with st := .sleep, why := .cond, pc := c.sp.pc, wait := some w, mark := if rel then some n else none })
  match (t1.group c.gid).split? c.born with
  | none => .ok t1
  | some p =>
    match t1.tryWait c.gid c.born (t1.group c.gid) p w with
    | .pending u => .ok u
    | .done u => .ok u
    | .trap r => .trap r

end Sys2Proof.Machine
end

