-- ==== Sys2Proof/Machine/Perform.lean ====
section
/-! DEFINITION. How logbook entries of memory forms are performed and completed (R179, R183, R215, R323 to R346): loads,
stores, atomics, barrier, arrival and counter operations, closes, and their requests to peer modules. -/

namespace Sys2Proof.Machine

/-! ## When an entry may be performed -/

/-- A release part in progress holds the younger stores of the group (R220). -/
def Group.heldBack (g : Group) (e : Entry) : Bool :=
  e.stores && g.splits.any (fun p => match p.mark with | some n => decide (n ≤ e.num) | none => false)

/-- An access waits at its controller: a REKEY runs on the frame of a piece, from or to the slice (R66), or the arbiter of its
stack has refused the slice more in this window (R67). -/
def State.frameBusy (s : State) (t : Nat) (a : Acc) : Bool :=
  match a.loc.pa? with
  | some p => s.placeBusy t p
  | none => false

/-- tile.tld and tile.tst, which run to their end when their group freezes (R376). -/
def Entry.tileMove (e : Entry) : Bool := e.kind == 12 && (isTld e.instr || isTst e.instr)

/-- The entry may be performed now. A reply to a frozen or saved group is discarded (R184). -/
def State.entryMay (s : State) (g : Group) (e : Entry) : Bool :=
  (g.place == .resident || ((e.cls == 2 || e.tileMove) && g.place != .saved)) && !e.failed && s.hasLeft g e && mayPerform g.log e &&
    !g.heldBack e && e.acc.all (fun a => !s.frameBusy g.slice a)

/-- The controller's check of the owner (R63), for an access that reaches the controller. -/
def State.ctlOwner (s : State) (g : Group) (a : Acc) : Bool :=
  match a.loc with
  | .cached va pa priv =>
    (match s.line? g.slice g.core va priv with
     | some l => (List.range a.size).all (fun i => (s.lineByte g.core l (va % 128 + i)).isSome)
     | none => false) || s.owner (pa / 65536) == g.slice
  | .home pa _ => s.owner (pa / 65536) == g.slice
  | _ => true

/-- A byte as a load of a core meets it carries a poison mark: in the line, in the core's own copy, or at its home (R101). -/
def State.badByte (s : State) (core : Nat) (line : Option Line) (off pa : Nat) : Bool :=
  match line.filter (fun l => (s.lineByte core l off).isSome) with
  | some l => l.bad.contains (off / 8)
  | none => match s.copy? core pa with | some u => u.bad | none => s.poisoned pa

/-- A load of a piece reads poisoned data (R101). -/
def State.readsPoison (s : State) (g : Group) (a : Acc) : Option Nat :=
  let some_ (line : Option Line) (va pa : Nat) : Option Nat :=
    if (List.range a.size).any (fun i => s.badByte g.core line (va % 128 + i) (pa + i)) then some pa else none
  match a.loc with
  | .cached va pa priv => some_ (s.line? g.slice g.core va priv) va pa
  | .home pa mt => if mt = 1 && !a.priv then some_ none 0 pa else s.poisonIn pa a.size
  | l => s.locPoison l a.size

/-! ## Requests to peer modules (R40 to R50) -/

/-- The bits of an entry that an operation of a lane stands for. -/
def Entry.laneBits (e : Entry) (l : Nat) : Word := if e.one then e.mask else maskOf [l]

/-- A piece is performed at a peer module or at the members of a group. -/
def Acc.remote (a : Acc) : Bool := match a.loc with | .peer .. => true | .mcast _ _ => true | _ => false

/-- What a form asks of a peer. -/
def peerOpOf (e : Entry) (a : Acc) : PeerOp :=
  match a.loc with
  | .mcast g _ => if e.kind = 1 then .mcLoad g else .mcStore g
  | _ => if e.kind = 6 then .atomic (view e.instr).op (view e.instr).x else if e.kind = 1 then .load else .store

/-- Send a piece of an entry towards its peer or multicast group, by the route that its issue found (R41); its 50 us count
from now (R49). -/
def State.sendPeer (s : State) (gid : Nat) (g : Group) (e : Entry) (a : Acc) : State :=
  let to_ : Nat × Nat × Nat × Nat := match a.loc with | .peer n x m k => (n, x, m, k) | .mcast _ o => (0, o, 0, 0) | _ => (0, 0, 0, 0)
  let r : PeerReq :=
    { slice := g.slice, gid := gid, ent := e.id, num := e.num, lane := a.lane, off := a.off, sentAt := s.cycle, peer := to_.1,
      addr := to_.2.1, modid := to_.2.2.1, pslice := to_.2.2.2, op := peerOpOf e a, size := a.size, data := a.v, data2 := a.v2,
      wmark := e.wmark }
  (s.modM (fun m => { m with peers := Tbl.put m.peers m.nextPeer r, nextPeer := m.nextPeer + 1 })).modEntry gid e.id
    (fun e => { e with asked := e.asked ||| e.laneBits a.lane })

/-- Send the remote pieces of a lane. -/
def State.sendLane (s : State) (gid : Nat) (g : Group) (e : Entry) (ps : List Acc) : State :=
  (ps.filter Acc.remote).foldl (fun s a => s.sendPeer gid g e a) s

/-- Requests of some entries of a group are given up: one that waits at its port is still sent, and no answer counts
(R44, R49, R50). -/
def State.giveUp (s : State) (gid : Nat) (p : PeerReq → Bool) : State :=
  s.modM (fun m => { m with peers := (m.peers.filter (fun q => !(q.2.gid == gid && q.2.job.isNone && p q.2 && q.2.out))).map (fun q =>
    if q.2.gid == gid && q.2.job.isNone && p q.2 then (q.1, { q.2 with late := true }) else q) })

/-- Key of the part of a lane's datum that a peer has returned, in `got`. -/
def partKey (lane off : Nat) : Nat := 32 + lane * 16 + off

/-- Every remote piece of a lane has been answered. -/
def Entry.answered (e : Entry) (l : Nat) : Bool :=
  (lanePieces e.acc l).all (fun a => !a.remote || (Tbl.find e.got (partKey l a.off)).isSome)

/-! ## Performing -/

/-- The lanes of an entry that have still to be performed, one for a single-address form. -/
def Entry.todo (e : Entry) : List Nat :=
  let m := e.mask &&& ~~~(e.done ||| e.perf ||| e.asked)
  if e.one then (if m = 0 then [] else [firstLane e.mask]) else lanesOf m

/-- The datum of a lane as a number, through the places of its pieces; cnt.rd reads at the home of its scope (R342). -/
def State.loadDatum (s : State) (g : Group) (e : Entry) (l : Nat) : Nat :=
  ((lanePieces e.acc l).map (fun a =>
    (if a.remote then Tbl.get e.got 0 (partKey l a.off)
     else ofLe (match e.instr with
      | .cntRd _ => s.homeRead g e.sc a.loc a.size
      | _ => s.readLoc g a.loc a.size)) * 2 ^ (8 * a.off))).foldr (· + ·) 0

/-- The load of one lane ends: its pieces of this module are read, and its destination takes the datum. -/
def State.loadHere (s : State) (gid : Nat) (g : Group) (e : Entry) (l : Nat) : State :=
  let ps := lanePieces e.acc l
  if !ps.all (s.ctlOwner g) then s.lateFail gid e.id 10 0 (e.laneBits l)
  else match ps.findSome? (s.readsPoison g) with
    | some pa => s.consumePoison g.slice pa
    | none =>
      let v := s.loadDatum g e l
      let s1 := ps.foldl (fun s a => if s.evictOk g false a then s.touchLoc gid g a.loc else s) s
      (s1.modGroup gid (fun g => (g.deliver e l (loadWords e.instr v)).modEntry e.id (fun e =>
        { e with done := e.done ||| e.laneBits l }))).syncFrame gid

/-- Perform the load of one lane, or send its remote pieces. -/
def State.loadLane (s : State) (gid id l : Nat) : State :=
  let g := s.group gid
  match g.entry? id with
  | none => s
  | some e =>
    let ps := lanePieces e.acc l
    if ps.isEmpty then s
    else if ps.any Acc.remote then s.sendLane gid g e ps
    else if !ps.all (s.evictOk g false) then s
    else s.loadHere gid g e l

/-- A plain store parts bytes from the home of their last atomic (R212). -/
def State.plain (s : State) (pa n : Nat) : State :=
  s.modM (fun m => { m with atomAt := m.atomAt.filter (fun e => e.1 < pa || pa + n ≤ e.1) })

/-- The bytes that the pieces of an entry store in [lo, lo + n) of the place of a piece. -/
def Entry.covers (e : Entry) (a : Acc) (lo n : Nat) : Nat :=
  let k := (locRange a.loc).1
  ((List.range n).filter (fun i => e.acc.any (fun b =>
    (locRange b.loc).1 == k && decide ((locRange b.loc).2 ≤ lo + i) && decide (lo + i < (locRange b.loc).2 + b.size)))).length

/-- A store of a piece consumes poison: its entry writes a part of a poisoned line at its home or of a private line, or a part
of a poisoned word (R101). A store that stays unpublished meets the mark of its home when it is published. -/
def State.storePoison (s : State) (g : Group) (e : Entry) (a : Acc) : Option Nat :=
  let home (pa : Nat) : Option Nat :=
    if s.m.poison.contains (lineNo pa) && e.covers a (pa / 128 * 128) 128 < 128 then some pa
    else (s.poisonIn pa a.size).bind (fun x =>
      if !s.m.poison.contains (lineNo x) && e.covers a (x / 8 * 8) 8 < 8 then some x else none)
  let copy (pa : Nat) : Option Nat :=
    ((List.range ((pa % 8 + a.size + 7) / 8)).map (fun k => (pa / 8 + k) * 8)).find? (fun w =>
      (List.range 8).any (fun i => match s.copy? g.core (w + i) with | some u => u.bad | none => false) && e.covers a w 8 < 8)
  match a.loc with
  | .cached va pa priv =>
    (match s.line? g.slice g.core va priv with
     | some l => if l.bad.any (fun w => decide (w * 8 < va % 128 + a.size) && decide (va % 128 < w * 8 + 8) &&
                     decide (e.covers a (pa / 128 * 128 + w * 8) 8 < 8)) then some pa else none
     | none => none).orElse (fun _ => if a.priv then home pa else copy pa)
  | .home pa mt => if a.priv || mt == 2 then home pa else copy pa
  | .spad c o =>
    if s.spadBad c o a.size && ((List.range ((o % 8 + a.size + 7) / 8)).any (fun k =>
        s.spadBad c ((o / 8 + k) * 8) 8 && decide (e.covers a ((o / 8 + k) * 8) 8 < 8))) then some 0 else none
  | _ => none

/-- The marks that a piece meets are gone, its entry writing their lines and words whole. -/
def State.clearPiece (s : State) (a : Acc) : State :=
  if s.m.poison.isEmpty && s.m.badWords.isEmpty then s
  else match a.loc with
    | .cached _ pa true => clear pa
    | .cached _ _ false => s
    | .home pa mt => if a.priv || mt == 2 then clear pa else s
    | .spad c o => s.clearBad (fun w => match w with
        | .spad d k => d == c && decide (k * 8 < o + a.size) && decide (o < k * 8 + 8)
        | _ => false)
    | _ => s
where
  /-- Of a line, and of the L2 words that meet the piece. -/
  clear (pa : Nat) : State :=
    (s.modM (fun m => { m with poison := m.poison.filter (· != lineNo pa) })).clearBad (fun w => match w with
      | .l2 k => decide (k * 8 < pa + a.size) && decide (pa < k * 8 + 8)
      | _ => false)

/-- Write one piece at its place. -/
def State.putPiece (s : State) (gid : Nat) (g : Group) (a : Acc) : State :=
  let bs := leBytes a.size a.v
  match a.loc.pa? with
  | some pa => ((s.writeLoc gid g a.loc a.priv bs).plain pa a.size).clearPiece a
  | none => (s.writeLoc gid g a.loc a.priv bs).clearPiece a

/-- A lower lane of a store has still to write a byte of this lane's (R214). -/
def Entry.behind (e : Entry) (l : Nat) (ps : List Acc) : Bool :=
  e.acc.any (fun b => decide (b.lane < l) && e.mask.getLsbD b.lane && !(e.done ||| e.perf ||| e.asked).getLsbD b.lane && ps.any (overlap b))

/-- Perform the store of one lane, and send its remote pieces. Lanes that need no publication and no answer complete. -/
def State.storeLane (s : State) (gid id l : Nat) : State :=
  let g := s.group gid
  match g.entry? id with
  | none => s
  | some e =>
    let all := lanePieces e.acc l
    let ps := all.filter (fun a => !a.remote)
    if all.isEmpty then s
    else if !ps.all (fun a => s.evictOk g true a) then s
    else if !ps.all (s.ctlOwner g) then s.lateFail gid id 10 0 (e.laneBits l) (((ps.find? (fun a => !s.ctlOwner g a)).map (·.ea)).getD 0)
    else if e.behind l ps then s
    else match ps.findSome? (s.storePoison g e) with
      | some pa => s.consumePoison g.slice pa
      | none =>
        let s1 := (ps.foldl (fun s a => s.putPiece gid g a) s).sendLane gid g e all
        if all.any Acc.remote then s1
        else s1.modEntry gid id (fun e =>
          { e with perf := e.perf ||| e.laneBits l, done := if ps.any publishable then e.done else e.done ||| e.laneBits l })

/-- Loads of every lane that is left. -/
def State.loadStep (s : State) (gid : Nat) (e : Entry) : State :=
  (e.todo.foldl (fun s l => s.loadLane gid e.id l) s).freeIfDone gid e.id

/-- Stores of every lane that is left, in ascending lane order (R214). -/
def State.storeStep (s : State) (gid : Nat) (e : Entry) : State :=
  (e.todo.foldl (fun s l => s.storeLane gid e.id l) s).freeIfDone gid e.id

/-- Lane number of an operation in the windows of its home (R183, R326). -/
def Entry.winLane (e : Entry) (l : Nat) : Nat := if e.one then 0 else l

/-- The widest effective scope of an entry (R212). -/
def Entry.scope (e : Entry) : Nat := (e.acc.map (fun a => effScope e.sc a.loc)).foldr max e.sc

/-- The value that the home of a lane's operation has returned, if it has performed it. -/
def State.answer (s : State) (g : Group) (e : Entry) (l : Nat) : Option Nat :=
  match Tbl.find e.got l with
  | some v => some v
  | none => s.window? ownModule g.slice e.wmark.toNat (e.winLane l)

/-- Lanes of an I1 entry whose arrival-object or home operation stands for others: a lane with no piece of its own. -/
def Entry.leads (e : Entry) (l : Nat) : Bool := e.acc.any (fun a => a.lane == l)

/-- Take in the answers of an I1 entry's homes: results are written, lanes complete (R179, R330, R336). -/
def State.collectStep (s : State) (gid : Nat) (e : Entry) : State :=
  let g := s.group gid
  let back := (lanesOf (e.mask &&& ~~~e.done)).filter (fun l =>
    if e.one then (s.answer g e (firstLane e.mask)).isSome
    else if e.leads l then (s.answer g e l).isSome
    else e.acc.all (fun a => (s.answer g e a.lane).isSome))
  let val (l : Nat) : Nat := (s.answer g e (if e.one then firstLane e.mask else l)).getD 0
  let pub (l : Nat) : Bool := (lanePieces e.acc l).any publishable && e.stores
  let s1 := s.modGroup gid (fun g =>
    (back.foldl (fun g l => g.deliver e l (loadWords e.instr (val l))) g).modEntry e.id (fun e =>
      { e with perf := e.perf ||| maskOf back, done := e.done ||| maskOf (back.filter (fun l => !pub l)),
               prog := (match e.instr with | .barArriveWait _ => BitVec.ofNat 64 (val (firstLane e.mask)) | _ => e.prog) }))
  match (s1.group gid).entry? e.id with
  | none => s1
  | some e1 =>
    match e1.instr with
    | .barArriveWait _ => s1
    | _ => if e1.complete then ((if e1.acq then s1.openAt gid e1.scope else s1)).freeIfDone gid e1.id else s1

/-- A phase.close or phase.cycle whose older stores are all performed: they are published, the close completes, and a NAK
noted for it raises PHASE_ERROR (R216, R333). -/
def State.closeStep (s : State) (gid : Nat) (e : Entry) : State :=
  let g := s.group gid
  if !(g.older e.num).all (covered g.core e.sc) || s.publishBusy gid e.sc then s
  else
    let s1 := s.publishAt gid e.num e.sc
    match (s1.group gid).naks.find? (fun n => n.1 ≤ e.sc) with
    | some n =>
      (s1.modGroup gid (fun g => { g with naks := g.naks.filter (fun n => e.sc < n.1) })).lateFail gid e.id 17 n.2 e.mask
    | none => (s1.modEntry gid e.id (fun e => { e with done := e.mask })).freeIfDone gid e.id

/-! ## Requests at the homes (R183, R348) -/

/-- The lower lanes of an I1 entry have been asked first (R214). -/
def State.laneTurn (s : State) (g : Group) (e : Entry) (l : Nat) : Bool :=
  e.acc.all (fun a => l ≤ a.lane || e.done.getLsbD a.lane || e.asked.getLsbD a.lane || (s.answer g e a.lane).isSome)

/-- The release part of an entry: whether it has nothing to wait for (R220). -/
def Group.entryReleased (g : Group) (e : Entry) : Bool := !e.rel || g.released e.num e.scope

/-- The request of one lane reaches its home, which performs it once (R183). -/
def State.homeStep (s : State) (gid : Nat) (e : Entry) (l : Nat) : State :=
  let g := s.group gid
  if !(e.mask &&& ~~~e.done &&& ~~~e.asked).getLsbD l || !e.leads l || !s.laneTurn g e l || !g.entryReleased e ||
      (e.rel && s.publishBusy gid e.scope) then s
  else
    let s0 := if e.rel then s.publishAt gid e.num e.scope else s
    let ps := lanePieces e.acc l
    if ps.any Acc.remote && e.stores then s0.storeLane gid e.id l
    else if ps.any Acc.remote then s0.sendLane gid g e ps
    else
        if (s0.answer g e l).isSome then s0
        else if !ps.all (fun a => let l1 := s0.inL1 g e.sc a.loc; s0.evictOk g (e.stores || l1) a (!e.stores && !l1)) then s
        else if !ps.all (s0.ctlOwner g) then s0.lateFail gid e.id 10 0 (e.laneBits l)
        else match (if e.stores then ps.findSome? (s0.storePoison g e)
                    else ps.findSome? (fun a => if s0.inL1 g e.sc a.loc then s0.readsPoison g a else s0.locPoison a.loc a.size)) with
          | some pa => s0.consumePoison g.slice pa
          | none =>
            if e.stores then
              (ps.foldl (fun s a => s.putPiece gid g a) s0).record ownModule g.slice e.wmark.toNat (e.winLane l) 0
            else
              let r := s0.homeOp gid g e l
              r.1.record ownModule g.slice e.wmark.toNat (e.winLane l) r.2

/-! ## Answers of peers (R47 to R50, R345, R346) -/

/-- A bf16 or f32 sum of members, exact, rounded once (R47): the format, the values. -/
def memberSum (f : Fmt) (l : List Nat) : Nat := (f.finish false 0 (sumAll false 0 (l.map (f.value false)))).1

/-- The maximum of members: +0 above -0, a NaN gives the canonical NaN (R47). -/
def memberMax (l : List Nat) : Nat :=
  match l with
  | [] => 0
  | a :: r => if l.any (fun x => (f32.value false x).isNan) then f32.nan else r.foldl (fun m b => (f32.minmax false false m b).1) a

/-- The word that ld.red returns (R346). -/
def redWord (i : Instr) (l : List Nat) : Nat :=
  match i with
  | .ldRedAddF32 _ => memberSum f32 l
  | .ldRedAddBf16 _ => memberSum bf16 (l.map (· % 65536)) + 65536 * memberSum bf16 (l.map (· / 65536))
  | _ => memberMax l

/-- One answer in place of the members' (R45, R48). -/
def peerOne (i : Instr) : PeerResp → PeerResp
  | .members l =>
    match l.find? (fun m => m.1 != 0) with
    | some m => .nak m.1
    | none => .ok (BitVec.ofNat 128 (redWord i (l.map (fun m => m.2.toNat))))
  | r => r

/-- The lanes of an answered request complete; the last one's acquire part acts (R220, R330). -/
def State.lanesDone (s : State) (gid id : Nat) (lanes : Word) : State :=
  let s1 := s.modEntry gid id (fun e => { e with done := e.done ||| lanes })
  match (s1.group gid).entry? id with
  | some e => (if e.complete && e.acq then s1.openAt gid e.scope else s1).freeIfDone gid id
  | none => s1

/-- A posted store that drew a NAK, or no answer, is noted for the next close that waits for it, and counts as acknowledged
(R48, R49). -/
def State.storeNak (s : State) (q : PeerReq) (e : Entry) (code : Nat) : State :=
  (s.noteNak q.gid 9 code).lanesDone q.gid e.id (e.laneBits q.lane)

/-- The bytes of an image come to the split that waits for them (R366). -/
def State.imageBack (s : State) (gid : Nat) (e : Entry) (v : Nat) : State :=
  match e.split with
  | none => s
  | some b => if (view e.instr).lay == .mr && 24 ≤ (view e.instr).op then
      s.modSplit gid b (fun p => { p with wait := p.wait.map (fun w => if w.insn = e.instr then { w with img := leBytes 64 v } else w) })
    else s

/-- The data of one piece of a lane come back: the lane completes with the last of them. -/
def State.peerData (s : State) (q : PeerReq) (g : Group) (e : Entry) (v : Nat) : State :=
  let s1 := s.modEntry q.gid e.id (fun e => { e with got := Tbl.put e.got (partKey q.lane q.off) v })
  match (s1.group q.gid).entry? e.id with
  | none => s1
  | some e1 =>
    if !e1.answered q.lane then s1
    else if e.kind = 1 && (lanePieces e.acc q.lane).any (fun a => !a.remote) then (s1.loadHere q.gid g e1 q.lane).freeIfDone q.gid e.id
    else
      let d := s1.loadDatum g e1 q.lane
      (if e.stores then s1 else (s1.modGroup q.gid (fun g => g.deliver e q.lane (loadWords e.instr d))).imageBack q.gid e d).lanesDone q.gid e.id
        (e.laneBits q.lane)

/-- The group and entry that a request's answer is for: late ones are discarded (R48, R49, R184). -/
def State.awaits (s : State) (q : PeerReq) : Option (Group × Entry) :=
  match Tbl.find s.groups q.gid with
  | none => none
  | some g =>
    match g.entry? q.ent with
    | none => none
    | some e =>
      if q.late || e.num != q.num || (g.place != .resident && e.cls != 2) || !e.asked.getLsbD q.lane || e.done.getLsbD q.lane then none
      else some (g, e)

/-- A response or NAK reaches the initiator (R48). -/
def State.peerAnswer (s : State) (req : Nat) (r : PeerResp) : State :=
  match Tbl.find s.m.peers req with
  | none => s
  | some q =>
    let s1 := s.modM (fun m => { m with peers := Tbl.del m.peers req })
    match s1.awaits q with
    | none => s1
    | some (g, e) =>
      match peerOne e.instr r with
      | .ok v => s1.peerData q g e v.toNat
      | .nak c => if e.stores then s1.storeNak q e c else s1.lateFail q.gid e.id 11 c (e.laneBits q.lane)
      | _ => s1

/-- No response within 50 us (R49). A request that still waits at its port is never dropped: it is sent when the meter covers
it, and its answer is discarded (R44). -/
def State.peerSilent (s : State) (req : Nat) : State :=
  match Tbl.find s.m.peers req with
  | none => s
  | some q =>
    let s1 := s.modM (fun m =>
      { m with peers := if q.out then Tbl.del m.peers req else Tbl.upd m.peers req (fun q => { q with late := true }) })
    match s1.awaits q with
    | none => s1
    | some (_, e) => if e.stores then s1.storeNak q e 0 else s1.lateFail q.gid e.id 12 0 (e.laneBits q.lane)

end Sys2Proof.Machine
end

