-- ==== Sys2Proof/Machine/Matrix.lean ====
section
/-! DEFINITION. The matrix array and the tile store (R207, R225, R259 to R265, R351 to R365). -/

namespace Sys2Proof.Machine

/-! ## The tile store (R279, R351) -/

/-- An element of an accumulator. -/
def State.accElem (s : State) (core a row col : Nat) : Word :=
  match Tbl.find s.tile (tileKey core a row col) with
  | some v => v
  | none =>
    match Tbl.get (s.core core).accInit 0 a with
    | 0 => 0
    | n + 1 => Config.freeWord n (tileKey core a row col) 0

/-- Some matrix operation between its issue and its wait has the accumulator (R225). -/
def State.accInFlight (s : State) (core a : Nat) : Bool :=
  s.groups.any (fun e => e.2.core == core && e.2.log.any (fun f => f.kind == 12 && (mmaAccs f.instr).contains a))

/-- A write to an accumulator in flight leaves it undefined (R225). -/
def State.markAcc (s : State) (core a : Nat) : State :=
  if s.accInFlight core a then
    { s with groups := s.groups.map (fun e =>
        (e.1, if e.2.core == core then
          { e.2 with log := e.2.log.map (fun f =>
              if f.kind == 12 && (mmaAccs f.instr).contains a then { f with undef := true } else f) }
        else e.2)) }
  else s

/-- Two matrix operations of one split at one scope and D, which accumulate one after the other (R359). -/
def chained (e f : Entry) : Bool := e.split == f.split && e.split.isSome && e.insn == f.insn

/-- The operations in flight, other than one and those of its chain, that have one of its accumulators: what they and it leave
there is undefined (R225, R359). -/
def State.rivals (s : State) (core gid : Nat) (e : Entry) (accs : List Nat) : List (Nat × Nat) :=
  s.groups.flatMap (fun h =>
    if h.2.core == core then
      (h.2.log.filter (fun f => f.kind == 12 && (mmaAccs f.instr).any accs.contains && !(h.1 == gid && (f.id == e.id || chained e f)))).map
        (fun f => (h.1, f.id))
    else [])

/-- A step writes accumulators that other operations in flight have: they and the writer are marked (R225, R359). -/
def State.markRivals (s : State) (core gid ent : Nat) (accs : List Nat) : State :=
  match (s.group gid).entry? ent with
  | none => s
  | some e =>
    match s.rivals core gid e accs with
    | [] => s
    | l => ((gid, ent) :: l).foldl (fun s x => s.modEntry x.1 x.2 (fun f => { f with undef := true })) s

/-- An element as a tile form reads it: undefined while an operation is in flight (R225). -/
def State.accRead (s : State) (core a row col : Nat) : Word :=
  if s.accInFlight core a then Config.freeWord s.free (tileKey core a row col) 1 else s.accElem core a row col

/-- The workgroup takes the store; what it holds then is undefined (R351). -/
def State.takeTile (s : State) (core wg : Nat) : State :=
  match (s.core core).tileWg with
  | some _ => s
  | none =>
    (List.range 8).foldl (fun s a => s.accFill core a (s.free + 1)) (s.modCore core (fun c => { c with tileWg := some wg }))

/-! ## The format block (R353 to R355) -/

/-- A format block. -/
structure Fb where
  m : Nat
  n : Nat
  k : Nat
  aaddr : Nat
  baddr : Nat
  apitch : Nat
  bpitch : Nat
  afmt : Nat
  bfmt : Nat
  acc : Nat
  lb : Nat
  p : Nat
  flags : Nat
  saddra : Nat
  saddrb : Nat
  gidx : Nat
  deriving DecidableEq, Repr

def Fb.of (b : List Byte) : Fb :=
  { m := field b 0 2, n := field b 2 2, k := field b 4 4, aaddr := field b 8 8, baddr := field b 0x10 8,
    apitch := field b 0x18 4, bpitch := field b 0x1C 4, afmt := field b 0x20 1, bfmt := field b 0x21 1, acc := field b 0x22 1,
    lb := field b 0x23 1, p := field b 0x24 1, flags := field b 0x25 1, saddra := field b 0x28 8, saddrb := field b 0x30 8,
    gidx := field b 0x38 8 }

def Fb.gather (f : Fb) : Bool := nbit f.flags 0
def Fb.check (f : Fb) : Bool := nbit f.flags 1
def Fb.cluster (f : Fb) : Bool := nbit f.flags 2
def Fb.zacc (f : Fb) : Bool := nbit f.flags 3

/-- Round a division up. -/
def ceilDiv (a b : Nat) : Nat := (a + b - 1) / b

/-- Bytes of a row or column of K elements (R355). -/
def runBytes (fmt k : Nat) : Nat :=
  if fmt = 6 || fmt = 7 then 2 * k else if fmt = 3 || fmt = 4 then 3 * ceilDiv k 4 else if fmt = 5 then ceilDiv k 2 else k

/-- Narrow floating formats. -/
def isNarrow (fmt : Nat) : Bool := 1 ≤ fmt && fmt ≤ 5

/-- The combinations of R354. -/
def Fb.combo (f : Fb) : Bool :=
  (f.afmt == 0 && f.bfmt == 0 && f.acc == 1 && f.lb == 0 && f.p == 0) ||
  (f.afmt == 0 && f.bfmt == 8 && f.acc == 1 && f.lb == 0 && 2 ≤ f.p && f.p ≤ 8) ||
  (f.afmt == 6 && f.bfmt == 6 && f.acc == 0 && f.lb == 0 && f.p == 0) ||
  (f.afmt == 7 && f.bfmt == 7 && f.acc == 0 && f.lb == 0 && f.p == 0) ||
  (isNarrow f.afmt && isNarrow f.bfmt && f.acc == 0 && (f.lb == 0 || f.lb == 16 || f.lb == 32) && f.p == 0)

/-- The K-depth of R354. -/
def Fb.kd (f : Fb) : Nat :=
  if f.bfmt = 8 then 32 / max f.p 1
  else if f.afmt = 0 then 4
  else if f.afmt = 6 || f.afmt = 7 then 2
  else if f.afmt = 5 && f.bfmt = 5 then 8
  else 4

/-- Every limit of R353 and R354 holds; `cl` is the form's scope. -/
def Fb.ok (f : Fb) (b : List Byte) (cl : Bool) : Bool :=
  f.combo && 1 ≤ f.m && f.m ≤ (if cl then 256 else 128) && 1 ≤ f.n && f.n ≤ (if cl then 384 else 192) &&
  1 ≤ f.k && f.k ≤ 1048576 && (f.bfmt != 8 || f.k % 256 == 0) && f.aaddr % 16 == 0 && f.baddr % 16 == 0 &&
  f.apitch % 16 == 0 && runBytes f.afmt f.k ≤ f.apitch &&
  (if f.bfmt = 8 then f.bpitch == 0 else f.bpitch % 16 == 0 && runBytes f.bfmt f.k ≤ f.bpitch) &&
  f.cluster == cl && f.flags < 16 && zeroBytes b 0x26 0x28 &&
  (f.lb != 0 || (f.saddra == 0 && f.saddrb == 0)) && f.gidx % 2 == 0 && (f.gather || f.gidx == 0)

/-- Blocks of a row (R260, R263). -/
def Fb.blockLen (f : Fb) : Nat := if f.lb = 0 then 32 else f.lb
def Fb.nb (f : Fb) : Nat := ceilDiv f.k f.blockLen

/-! ## Operands -/

/-- Core and offset of a generic scratchpad address of a group (R189). -/
def State.spadPlace (s : State) (g : Group) (a : Nat) : Nat × Nat :=
  let o := a - 0x01FFFFFFFF000000
  if o / 4194304 = g.lCore then (g.core, g.spadBase.toNat + o % 4194304)
  else ((s.clusterCores g.core).getD (o / 4194304) g.core, o % 4194304)

/-- A byte at a generic scratchpad address. -/
def State.spadAt (s : State) (g : Group) (a : Nat) : Nat :=
  let p := s.spadPlace g a
  (s.spadByte p.1 p.2).toNat

/-- n bytes at a generic scratchpad address, as a number. -/
def State.spadNum (s : State) (g : Group) (a n : Nat) : Nat :=
  (List.range n).foldr (fun i v => s.spadAt g (a + i) * 256 ^ i + v) 0

/-- The gather index of row i (R207). -/
def State.gatherIdx (s : State) (g : Group) (f : Fb) (i : Nat) : Nat := s.spadNum g (f.gidx + 2 * i) 2

/-- The index of row i lies outside the group's range, so that no row is named (R355). -/
def State.idxLost (s : State) (g : Group) (f : Fb) (i : Nat) : Bool :=
  g.spadLimit.toNat < (f.gidx - 0x01FFFFFFFF000000) % 4194304 + 2 * i + 2

/-- Address of row i of A, none for a row of zeros (R207, R355). -/
def State.rowAddr (s : State) (g : Group) (f : Fb) (i : Nat) : Option Nat :=
  if f.gather then
    let x := s.gatherIdx g f i
    if x = 0xFFFF then none else some ((f.aaddr + x * f.apitch) % 2 ^ 64)
  else some ((f.aaddr + i * f.apitch) % 2 ^ 64)

/-- The gathered rows that lie outside the group's own range: SPAD_BOUNDS with the row's address (R189, R207). -/
def State.gatherFails (s : State) (g : Group) (f : Fb) : List (Nat × Nat) :=
  if !f.gather then []
  else (List.range f.m).filterMap (fun i =>
    let x := s.gatherIdx g f i
    if s.idxLost g f i || x = 0xFFFF || (f.aaddr - 0x01FFFFFFFF000000) % 4194304 + x * f.apitch + runBytes f.afmt f.k ≤ g.spadLimit.toNat then none
    else some (6, (f.aaddr + x * f.apitch) % 2 ^ 64))

/-- The rows of A, as generic addresses and lengths. -/
def State.rowRanges (s : State) (g : Group) (f : Fb) : List (Nat × Nat) :=
  ((List.range f.m).filter (fun i => !(f.gather && s.idxLost g f i))).filterMap (fun i =>
    (s.rowAddr g f i).map (fun a => (a, runBytes f.afmt f.k)))

/-- Operand ranges as generic addresses and lengths (R355). -/
def State.operandRanges (s : State) (g : Group) (f : Fb) : List (Nat × Nat) :=
  let rows := s.rowRanges g f
  let idx := if f.gather then [(f.gidx, 2 * f.m)] else []
  let cols := if f.bfmt = 8 then
      (List.range (f.n * (f.k / 256))).map (fun q => ((f.baddr + q * 256) % 2 ^ 64, 32 * f.p))
    else (List.range f.n).map (fun j => ((f.baddr + j * f.bpitch) % 2 ^ 64, runBytes f.bfmt f.k))
  let scales := if f.lb = 0 then [] else [(f.saddra, f.m * f.nb), (f.saddrb, f.n * f.nb)]
  idx ++ rows ++ cols ++ scales

/-- First bytes of the 4 KiB blocks that a range meets: the checks of R189 are uniform within one. -/
def blockStarts (a n : Nat) : List Nat :=
  if n = 0 then [] else a :: ((List.range (n / 4096 + 1)).map (fun i => (a / 4096 + 1 + i) * 4096)).filter (· < a + n)

/-- Check one byte of a scratchpad operand: the cause, if it fails (R355). -/
def State.operandByte (s : State) (g : Group) (a : Nat) : Option Nat :=
  if windowOf a ≠ .spad then some 5
  else match s.checkSpad g a 1 with
    | .ok _ => none
    | .error e => some e.cause

/-- The first failing byte of every range, with its cause. -/
def State.operandFails (s : State) (g : Group) (rs : List (Nat × Nat)) : List (Nat × Nat) :=
  rs.filterMap (fun r => (blockStarts r.1 r.2).findSome? (fun a => (s.operandByte g a).map (fun c => (c, a))))

/-- The lowest cause among failures, and the lowest byte that has it. -/
def worstFail (l : List (Nat × Nat)) : Option (Nat × Nat) :=
  match l with
  | [] => none
  | x :: r =>
    let c := r.foldr (fun y m => min y.1 m) x.1
    let bytes := ((x :: r).filter (fun y => y.1 == c)).map (·.2)
    some (c, bytes.foldr min (bytes.headD 0))

/-! ## Quadrants and steps (R357, R358) -/

/-- The quadrants of a cluster-scope operation that have a row and a column. -/
def Fb.quadrants (f : Fb) : List Nat :=
  if f.cluster then (List.range 4).filter (fun q => 128 * (q / 2) < f.m && 192 * (q % 2) < f.n) else [0]

/-- Column blocks of a quadrant. -/
def Fb.colBlocks (f : Fb) (q : Nat) : Nat := ceilDiv (min 192 (f.n - 192 * (q % 2))) 64

/-- The array tiles of one participating core, in order. -/
def Fb.coreTiles (f : Fb) (nen k : Nat) : List (Nat × Nat) :=
  ((f.quadrants).filter (fun q => q % nen == k)).flatMap (fun q => (List.range (f.colBlocks q)).map (fun b => (q, b)))

/-- Logical cores that take part. -/
def Fb.takes (f : Fb) (nen : Nat) : List Nat := (List.range nen).filter (fun k => !(f.coreTiles nen k).isEmpty)

/-- The tiles of the next step, by logical core: the first of each core that is not yet written (R358). -/
def Fb.nextTiles (f : Fb) (nen : Nat) (done : List (Nat × Nat)) : List (Nat × Nat × Nat) :=
  (List.range nen).filterMap (fun k => ((f.coreTiles nen k).find? (fun t => !done.contains t)).map (fun t => (k, t)))

/-- Enabled cores that a form counts: the cluster's at cluster scope, one at core scope. -/
def State.nenOf (s : State) (g : Group) (f : Fb) : Nat := if f.cluster then max (s.clusterCores g.core).length 1 else 1

/-- Physical cores that take part. -/
def State.mmaCores (s : State) (g : Group) (f : Fb) : List Nat :=
  if f.cluster then (f.takes (s.nenOf g f)).filterMap (fun k => (s.clusterCores g.core)[k]?) else [g.core]

/-! ## Elements (R244, R259 to R264) -/

/-- The code of element k of a run that starts at an address (R244). -/
def State.elemCode (s : State) (g : Group) (fmt a k : Nat) : Nat :=
  if fmt = 6 || fmt = 7 then s.spadNum g (a + 2 * k) 2
  else if fmt = 3 || fmt = 4 then s.spadNum g (a + 3 * (k / 4)) 3 / 64 ^ (k % 4) % 64
  else if fmt = 5 then s.spadAt g (a + k / 2) / 16 ^ (k % 2) % 16
  else s.spadAt g (a + k)

/-- Format of a code of R354. -/
def mmaFmt (fmt : Nat) : Fmt :=
  if fmt = 1 then f8e4 else if fmt = 2 then f8e5 else if fmt = 3 then f6e3 else if fmt = 4 then f6e2
  else if fmt = 5 then f4e2 else if fmt = 6 then f16 else bf16

/-- Address of column j of B. -/
def Fb.colAddr (f : Fb) (j : Nat) : Nat := (f.baddr + j * f.bpitch) % 2 ^ 64

/-- A bit-plane element read with p planes (R261, R262). -/
def State.bpiValue (s : State) (g : Group) (f : Fb) (j k : Nat) : Int :=
  let base := (f.baddr + (j * (f.k / 256) + k / 256) * 256) % 2 ^ 64
  let e := k % 256
  let pre := (List.range f.p).foldl (fun v q => 2 * v + s.spadAt g (base + 32 * q + e / 8) / 2 ^ (e % 8) % 2) 0
  if f.p = 8 then sext 8 pre else sext f.p pre * 2 ^ (8 - f.p) + 2 ^ (7 - f.p)

/-- An INT32 element (R264); `off` is what the array got wrong in its block sums. -/
def State.mmaInt (s : State) (g : Group) (f : Fb) (i j : Nat) (c : Word) (off : Int) : Word :=
  match s.rowAddr g f i with
  | none => BitVec.ofInt 32 (c.toInt + off)
  | some a =>
    BitVec.ofInt 32 (c.toInt + ((List.range f.k).map (fun k =>
      sext 8 (s.elemCode g 0 a k) * (if f.bfmt = 8 then s.bpiValue g f j k else sext 8 (s.elemCode g 0 (f.colAddr j) k)))).foldr
        (· + ·) 0 + off)

/-- Exponent of the fixed-point step of a block: the product of the two formats' least values (R107, R263). -/
def Fb.step (f : Fb) : Int :=
  let e (x : Fmt) : Int := 1 - (x.bias : Int) - x.fw
  if f.acc = 1 then 0 else e (mmaFmt f.afmt) + e (mmaFmt f.bfmt)

/-- Exponents of the steps of A and B. -/
def Fb.aStep (f : Fb) : Int := if f.acc = 1 then 0 else 1 - ((mmaFmt f.afmt).bias : Int) - (mmaFmt f.afmt).fw
def Fb.bStep (f : Fb) : Int := f.step - f.aStep

/-- An integer of steps as a number. -/
def stepNum (d e : Int) : Num := .fin (decide (d < 0)) d.natAbs e

/-- Scale a value by an E8 code; 0xFF makes it a NaN (R259). -/
def scaleBy (code : Nat) (x : Num) : Num :=
  if code = 0xFF then .nan false
  else match x with
    | .fin n m e => .fin n m (e + code - 127)
    | y => y

/-- The K indices of a block. -/
def Fb.blockKs (f : Fb) (b : Nat) : List Nat := (List.range (min f.blockLen (f.k - b * f.blockLen))).map (b * f.blockLen + ·)

/-- Elements of A and B as values. -/
def State.aVal (s : State) (g : Group) (f : Fb) (i k : Nat) : Num :=
  match s.rowAddr g f i with
  | none => .fin false 0 0
  | some a => if f.acc = 1 then stepNum (sext 8 (s.elemCode g 0 a k)) 0 else (mmaFmt f.afmt).value false (s.elemCode g f.afmt a k)
def State.bVal (s : State) (g : Group) (f : Fb) (j k : Nat) : Num :=
  if f.acc = 1 then
    stepNum (if f.bfmt = 8 then s.bpiValue g f j k else sext 8 (s.elemCode g 0 (f.colAddr j) k)) 0
  else (mmaFmt f.bfmt).value false (s.elemCode g f.bfmt (f.colAddr j) k)

/-- The exact sum of one block (R263), with `off` steps that the array got wrong. -/
def State.blockSum (s : State) (g : Group) (f : Fb) (i j b : Nat) (off : Int) : Num :=
  let sum := (sumAll false 0 (stepNum off f.step :: (f.blockKs b).map (fun k => (mulNum (s.aVal g f i k) (s.bVal g f j k)).1))).1
  let sum := if f.lb = 0 then sum
    else scaleBy (s.spadAt g (f.saddrb + j * f.nb + b)) (scaleBy (s.spadAt g (f.saddra + i * f.nb + b)) sum)
  if sum.isZero then .fin false 0 0 else sum

/-- An FP32 element (R263). -/
def State.mmaFloat (s : State) (g : Group) (f : Fb) (i j : Nat) (c : Word) (off : Nat → Int) : Word :=
  BitVec.ofNat 32 ((List.range f.nb).foldl (fun c b =>
    (f32.finish false 0 (sumAll false 0 [f32.value false c, s.blockSum g f i j b (off b)])).1) c.toNat)

/-- By how much the faults put a block sum of a tile off. -/
def offBy (fs : List ArrayFault) (i j b : Nat) : Int :=
  ((fs.filter (fun x => x.i == i && x.j == j && x.b == b)).map (·.delta)).foldr (· + ·) 0

/-- Rows and columns of an array tile, as numbered in the accumulator of its quadrant. -/
def Fb.tileRows (f : Fb) (q : Nat) : List Nat := (List.range 128).filter (fun i => 128 * (q / 2) + i < f.m)
def Fb.tileCols (f : Fb) (q b : Nat) : List Nat :=
  ((List.range 64).map (64 * b + ·)).filter (fun j => j < 192 && 192 * (q % 2) + j < f.n)

/-- Write an array tile: quadrant q, column block b, into the accumulator of the issuing core (R356 to R358). -/
def State.writeTile (s : State) (g : Group) (f : Fb) (d q b : Nat) (fs : List ArrayFault) : State :=
  let r0 := 128 * (q / 2)
  let c0 := 192 * (q % 2)
  let vals := (f.tileRows q).flatMap (fun i => (f.tileCols q b).map (fun j =>
    let c : Word := if f.zacc then 0 else s.accElem g.core (d + q) i j
    let off (n : Nat) : Int := offBy fs i (j - 64 * b) n
    (tileKey g.core (d + q) i j,
      if f.acc = 1 then s.mmaInt g f (r0 + i) (c0 + j) c (((List.range f.nb).map off).foldr (· + ·) 0)
      else s.mmaFloat g f (r0 + i) (c0 + j) c off)))
  { s with tile := vals.foldl (fun t e => Tbl.put t e.1 e.2) s.tile }

/-! ## The checksum row and column (R107) -/

/-- A number in units of a step; a NaN or an infinity has no residue and stands as 0 (log 48). -/
def stepsOfNum (e : Int) : Num → Int
  | .fin n m x => (if n then -1 else 1) * (m : Int) * (2 : Int) ^ (x - e).toNat
  | _ => 0

/-- A sum of integers. -/
def sumInt (l : List Int) : Int := l.foldr (· + ·) 0

/-- P(i,j) of a block as the array forms it, for places in the whole output. -/
def State.blockInt (s : State) (g : Group) (f : Fb) (i j b : Nat) : Int :=
  sumInt ((f.blockKs b).map (fun k => stepsOfNum f.step (mulNum (s.aVal g f i k) (s.bVal g f j k)).1))

/-- The checksum column of a row: Σ_k a(i,k) × (Σ_j b(k,j)). The elements are taken in units of their own formats' steps. -/
def State.checkCol (s : State) (g : Group) (f : Fb) (js : List Nat) (i b : Nat) : Int :=
  sumInt ((f.blockKs b).map (fun k => stepsOfNum f.aStep (s.aVal g f i k) * sumInt (js.map (fun j => stepsOfNum f.bStep (s.bVal g f j k)))))

/-- The checksum row of a column: Σ_k (Σ_i a(i,k)) × b(k,j). -/
def State.checkRow (s : State) (g : Group) (f : Fb) (is : List Nat) (j b : Nat) : Int :=
  sumInt ((f.blockKs b).map (fun k => sumInt (is.map (fun i => stepsOfNum f.aStep (s.aVal g f i k))) * stepsOfNum f.bStep (s.bVal g f j k)))

/-- A tile passes when, for every K-block, each row and each column of its block sums agrees with the checksum modulo 255. What
the array got right agrees exactly, so that a tile without faults passes. -/
def State.tilePasses (s : State) (g : Group) (f : Fb) (q b : Nat) (fs : List ArrayFault) : Bool :=
  let is := (f.tileRows q).map (fun i => (i, 128 * (q / 2) + i))
  let js := (f.tileCols q b).map (fun j => (j - 64 * b, 192 * (q % 2) + j))
  fs.isEmpty || (List.range f.nb).all (fun n =>
    is.all (fun i => sumInt (js.map (fun j => s.blockInt g f i.2 j.2 n + offBy fs i.1 j.1 n)) % 255 ==
      (s.checkCol g f (js.map (·.2)) i.2 n + offBy fs i.1 64 n) % 255) &&
    js.all (fun j => sumInt (is.map (fun i => s.blockInt g f i.2 j.2 n + offBy fs i.1 j.1 n)) % 255 ==
      (s.checkRow g f (is.map (·.2)) j.2 n + offBy fs 128 j.1 n) % 255))

/-! ## The array (R352, R356, R358) -/

/-- Array cycles of a tile, and their price in units of 1/256 token (R358). -/
def Fb.cycles (f : Fb) : Nat := ceilDiv f.k f.kd
def Fb.price (f : Fb) : Nat := (if f.check then 232 else 224) * 256

/-- The rows that a participating core takes: those of its quadrants (R357). -/
def Fb.coreRows (f : Fb) (nen k : Nat) : List Nat :=
  if f.cluster then
    (List.range f.m).filter (fun i => (f.quadrants).any (fun q => q % nen == k && q / 2 == i / 128))
  else List.range f.m

/-- The cycles in which 16-byte words, read in groups of 64, come out of the banks: one for each group and n - 1 more for its
conflicts (R190, R358). -/
def bankCycles (extra : Bool) (words : List Nat) : Nat :=
  ((List.range (ceilDiv words.length 64)).map (fun n =>
    let w := ((words.drop (64 * n)).take 64).eraseDups
    (w.map (fun x => (w.filter (fun y => y % 64 == x % 64)).length)).foldr max 1 - b2n extra)).foldr (· + ·) 0

/-- The n-th words of the gathered rows of a core, rows of zeros left out (R207). -/
def State.gatherWords (s : State) (g : Group) (f : Fb) (rows : List Nat) (n : Nat) : List Nat :=
  (rows.filterMap (s.rowAddr g f)).map (fun a => (s.spadPlace g a).2 / 16 + n)

/-- Cycles by which bank conflicts among gathered row starts lengthen the fill: the cores start together, so that the longest
counts (R207, R358). -/
def State.gatherExtra (s : State) (g : Group) (f : Fb) : Nat :=
  if !f.gather then 0
  else
    let nen := s.nenOf g f
    ((f.takes nen).map (fun k => bankCycles true (s.gatherWords g f (f.coreRows nen k) 0))).foldr max 0

/-- The last 16-byte word of a row that array cycle n of a tile takes. -/
def Fb.wordAt (f : Fb) (n : Nat) : Nat := (runBytes f.afmt (min f.k ((n + 1) * f.kd)) - 1) / 16

/-- The words of the gathered rows that the next array cycle takes have been read: words are read ahead in their order from the
start of the step, and conflicts may leave one unread (R358; log 72). -/
def State.wordsRead (s : State) (g : Group) (f : Fb) (o : MmaOp) : Bool :=
  !f.gather || f.wordAt (f.cycles - o.left) = 0 ||
    (let nen := s.nenOf g f
     (f.takes nen).all (fun k =>
       decide (((List.range (f.wordAt (f.cycles - o.left))).map (fun n =>
         bankCycles false (s.gatherWords g f (f.coreRows nen k) (n + 1)))).foldr (· + ·) 0 ≤ o.ran)))

/-- Change an operation in every queue that holds it. -/
def State.modMma (s : State) (cores : List Nat) (gid ent : Nat) (f : MmaOp → MmaOp) : State :=
  cores.foldl (fun s c => s.modCore c (fun x =>
    { x with queue := x.queue.map (fun o => if o.gid == gid && o.ent == ent then f o else o) })) s

/-- Take an operation out of the queues. -/
def State.dropMma (s : State) (cores : List Nat) (gid ent : Nat) : State :=
  cores.foldl (fun s c => s.modCore c (fun x =>
    { x with queue := x.queue.filter (fun o => !(o.gid == gid && o.ent == ent)) })) s

/-- The operation at the head of a core's queue, if this core leads it. -/
def State.headMma (s : State) (core : Nat) : Option MmaOp :=
  match (s.core core).queue with
  | o :: _ => if o.cores.headD core = core then some o else none
  | [] => none

/-- The head operation is at the head of every queue it is in, and its entry has left the partition (R352, R356). -/
def State.mmaCanStart (s : State) (core : Nat) : Bool :=
  match s.headMma core with
  | none => false
  | some o =>
    !o.started && o.cores.all (fun c => match (s.core c).queue with | p :: _ => p.gid == o.gid && p.ent == o.ent | [] => false) &&
      (match Tbl.find s.groups o.gid with
       | none => false
       | some g => match g.entry? o.ent with | none => false | some e => s.hasLeft g e && mayPerform g.log e)

/-- MMA_OP_START (R352, R358): the operand latch fills. -/
def State.mmaStart (s : State) (core : Nat) : State :=
  if !s.mmaCanStart core then s
  else match s.headMma core with
    | none => s
    | some o =>
      let g := s.group o.gid
      let f := Fb.of o.block
      (s.modMma o.cores o.gid o.ent (fun o => { o with started := true, fill := 16 + s.gatherExtra g f, left := f.cycles })).modEntry
        o.gid o.ent (fun e => { e with sent := true })

/-- The array tiles of an operation that are written. -/
def Group.tilesOf (g : Group) (o : MmaOp) : List (Nat × Nat) := match g.entry? o.ent with | some e => e.tiles | none => []

/-- The cores that run array cycles in the step in progress of an operation, with the tile of each: those that have one left
(R358). -/
def State.stepCores (s : State) (g : Group) (f : Fb) (o : MmaOp) : List (Nat × Nat × Nat) :=
  (f.nextTiles (s.nenOf g f) (g.tilesOf o)).map (fun x =>
    (if f.cluster then (s.clusterCores g.core).getD x.1 g.core else g.core, x.2))

/-- A region has spent more than its share of what the matrix bucket has been paid in the window of 1,024 cycles (R140). -/
def State.arrayOver (s : State) (c : Nat) (g : Group) : Bool :=
  let x := s.core c
  x.win == s.now c / 1024 &&
    decide (g.share * Tbl.get x.winPaid 0 8 < Tbl.get x.winSpent 0 (8 * 2 ^ 64 + g.region) * 0x10000000000000000)

/-- The array of a core passes an array cycle over: the region is over its share, and an operation of another region, within its
own share, stands in the queue (R140; log 49). -/
def State.arrayHeld (s : State) (c : Nat) (g : Group) : Bool :=
  s.arrayOver c g && (s.core c).queue.any (fun o =>
    match Tbl.find s.groups o.gid with
    | some h => h.region != g.region && !s.arrayOver c h
    | none => false)

/-- One core pays for an array cycle, in the window of R140 that the cycle falls in. -/
def State.payArray (s : State) (c price : Nat) (g : Group) : State :=
  (s.modCore c (fun x0 =>
    let x := x0.inWindow (s.now c / 1024)
    { x.count 38 1 with mbkt := x.mbkt - price,
                        winSpent := Tbl.put x.winSpent (8 * 2 ^ 64 + g.region) (Tbl.get x.winSpent 0 (8 * 2 ^ 64 + g.region) + price) })).modDie
    (dieOf c) (fun d => { d with spent := d.spent + price, lastWide := Tbl.put d.lastWide (clusterOf c) (d.cyc + 1),
                                 lastUse := Tbl.put d.lastUse (clusterOf c) d.cyc, lastSlice := Tbl.put d.lastSlice (clusterOf c) g.slice })

/-- One die cycle of the array that a core leads: every core with a tile left in the step pays, or all wait (R128, R358). -/
def State.arrayCycle (s : State) (core : Nat) : State :=
  match s.headMma core with
  | none => s
  | some o =>
    if !o.started || o.left = 0 then s
    else if o.fill ≠ 0 then s.modMma o.cores o.gid o.ent (fun o => { o with fill := o.fill - 1 })
    else
      let f := Fb.of o.block
      let g := s.group o.gid
      let cs := (s.stepCores g f o).map (·.1)
      if s.wordsRead g f o && cs.all (fun c => decide (f.price ≤ (s.core c).mbkt) && !s.arrayHeld c g) then
        (cs.foldl (fun s c => s.payArray c f.price g) s).modMma o.cores o.gid o.ent (fun o => { o with left := o.left - 1, ran := o.ran + 1 })
      else (cs.foldl (fun s c => s.modCore c (fun x => x.count 39 1)) s).modMma o.cores o.gid o.ent (fun o => { o with ran := o.ran + 1 })

/-- A matrix entry is complete; one whose lanes have all exited is freed (R408). An undefined accumulator takes free values. -/
def State.mmaOver (s : State) (gid ent : Nat) : State :=
  let g := s.group gid
  match g.entry? ent with
  | none => s
  | some e =>
    let s1 := s.modEntry gid ent (fun e => { e with done := e.mask })
    if e.mask &&& g.live = 0 then
      (if e.undef then (mmaAccs e.instr).foldl (fun s a => s.accFill g.core a (s.free + 1)) s1 else s1).freeEntry gid ent
    else s1

/-- The operation at a core reads a poisoned operand, or adds onto a poisoned accumulator element of the step (R101). -/
def State.mmaPoison (s : State) (g : Group) (f : Fb) (o : MmaOp) : Bool :=
  !s.m.badWords.isEmpty &&
    ((match g.entry? o.ent with | some e => e.rng.any (fun r => s.spadBad r.1 r.2.1 r.2.2) | none => false) ||
     (!f.zacc && (s.stepCores g f o).any (fun t => s.tileBad g.core (fun p =>
       p / 24576 == o.acc + t.2.1 && (f.tileRows t.2.1).contains (p / 192 % 128) && (f.tileCols t.2.1 t.2.2).contains (p % 192)))))

/-- Elements of a core's tile store, by their place in it, have been written: a word written whole loses its mark (R101). -/
def State.tileWritten (s : State) (core : Nat) (p : Nat → Bool) : State :=
  if s.m.badWords.isEmpty then s
  else s.clearBad (fun w => match w with | .tile c k => c == core && p (2 * k) && p (2 * k + 1) | _ => false)

/-- ARRAY_TILE_WRITE (R107, R108, R356): the step is written, or rerun once when a checksum differs; a second difference
marks MATRIX_CHECK. `faults` is what the array got wrong, tile by tile. -/
def State.arrayTile (s : State) (core : Nat) (faults : List ArrayFault) : State :=
  match s.headMma core with
  | none => s
  | some o =>
    if !o.started || o.left ≠ 0 || o.fill ≠ 0 then s
    else
      let g := s.group o.gid
      let f := Fb.of o.block
      let nen := s.nenOf g f
      let steps := s.stepCores g f o
      let mine (c : Nat) : List ArrayFault := faults.filter (fun x => x.core == c)
      let mismatch := !steps.all (fun t => s.tilePasses g f t.2.1 t.2.2 (mine t.1))
      if s.mmaPoison g f o then s.startKill g.slice 9 0
      else if mismatch && f.check && !o.rerun then
        s.modMma o.cores o.gid o.ent (fun o => { o with rerun := true, left := f.cycles, ran := 0 })
      else if mismatch && f.check then (s.dropMma o.cores o.gid o.ent).lateFail o.gid o.ent 14 0 (match g.entry? o.ent with | some e => e.mask | none => 0)
      else
        let s1 := steps.foldl (fun s t => (s.writeTile g f o.acc t.2.1 t.2.2 (mine t.1)).tileWritten g.core (fun p =>
          p / 24576 == o.acc + t.2.1 && (f.tileRows t.2.1).contains (p / 192 % 128) && (f.tileCols t.2.1 t.2.2).contains (p % 192))) s
        let done := g.tilesOf o ++ steps.map (·.2)
        let s2 := (s1.modEntry o.gid o.ent (fun e => { e with tiles := done, prog := BitVec.ofNat 64 done.length })).markRivals g.core
          o.gid o.ent (steps.map (fun t => o.acc + t.2.1))
        if (f.nextTiles nen done).isEmpty then (s2.dropMma o.cores o.gid o.ent).mmaOver o.gid o.ent
        else s2.modMma o.cores o.gid o.ent (fun o => { o with rerun := false, left := f.cycles, ran := 0 })

/-! ## The forms -/

/-- The request for an image at a peer: a load of the group in pieces of four bytes, whose bytes come to the sleeping split
(R325, R366). -/
def Cx.askImage (c : Cx) (t : State) (size : Nat) (a : Acc) : State :=
  let piece (k : Nat) : Acc :=
    { a with ea := a.ea + BitVec.ofNat 64 (4 * k), off := 4 * k, size := 4,
             loc := match a.loc with | .peer n x m p => .peer n (x + 4 * k) m p | l => l }
  ((c.enter t 1 0 c.mask ((List.range (size / 4)).map piece)).modGroup c.gid (fun g =>
    g.modEntry (freePlace c.g.log) (fun e => { e with dst := [], src := [], dreg := 0xFF, one := true }))).defer c

/-- A load of an image by the split is under way. -/
def Cx.asked (c : Cx) : Bool := c.g.log.any (fun e => e.kind == 1 && e.split == some c.born && e.insn == insnOf c.i)

/-- Read an image or format block as a load of the group, once older accesses to its place are over (R350, R353, R366). -/
def Cx.readBlock (c : Cx) (t : State) (peer : Bool) (size : Nat) (k : List Acc → List Byte → Res) : Res :=
  match c.checkOne t { priv := false, peer := peer } size c.addr1 with
  | .error r => .trap r
  | .ok accs =>
    match c.sp.wait.map (·.img) with
    | some (b :: r) => k accs (b :: r)
    | _ =>
    if !waitTurn c.g c.num accs then .hold
    else match accs with
      | [] => .hold
      | a :: _ =>
        if a.remote then (if c.asked then .hold else .ok (c.askImage t size a))
        else if t.frameBusy c.g.slice a then .hold
        else if !t.ctlOwner c.g a then .trap (c.early 10 c.mask 0 0 c.addr1)
        else match t.readsPoison c.g a with
          | some pa => .ok (t.consumePoison c.g.slice pa)
          | none => k accs (t.readLoc c.g a.loc size)

/-- mma.issue at a scope (R353 to R357). -/
def Cx.mmaIssue (c : Cx) (t : State) (cl : Bool) : Res :=
  if cl && c.vw.d % 4 ≠ 0 then c.illegal 4
  else if !t.tileMine c.g.core c.g.wg then .hold
  else c.readBlock t false 64 (fun accs b =>
    let f := Fb.of b
    if !f.ok b cl then c.illegal 2
    else
      let own (a : Nat) : Bool := windowOf a == .spad && (a - 0x01FFFFFFFF000000) / 4194304 == c.g.lCore
      if f.gather && !(own f.aaddr && own f.gidx) then
        .trap (c.early 5 c.mask 0 0 (BitVec.ofNat 64 (if own f.gidx then f.aaddr else f.gidx)))
      else
        let rows := t.gatherFails c.g f
        let rs := if rows.isEmpty then t.operandRanges c.g f else (t.operandRanges c.g f).filter (fun r => !(t.rowRanges c.g f).contains r)
        match worstFail (rows ++ t.operandFails c.g rs) with
        | some (cause, a) => .trap (c.early cause c.mask 0 0 (BitVec.ofNat 64 a))
        | none =>
          if !t.arrayRoom (t.mmaCores c.g f) then .hold else
          let id := freePlace c.g.log
          let op : MmaOp := { gid := c.gid, ent := id, acc := c.vw.d, cluster := cl, cores := t.mmaCores c.g f, block := b }
          let rng := (t.operandRanges c.g f).map (fun r => ((t.spadPlace c.g r.1).1, (t.spadPlace c.g r.1).2, r.2))
          let t1 := ((t.takeTile c.g.core c.g.wg).touch c.g accs)
          let t2 := (c.enter t1 12 0 c.mask []).modGroup c.gid (fun g => g.modEntry id (fun e => { e with img := b, rng := rng }))
          .ok (op.cores.foldl (fun s k => s.modCore k (fun x => { x with queue := x.queue ++ [op] })) t2))

/-- MMA_ISSUE_CORE (R356). -/
def execMmaIssueCore (f : RG) (s : State) : Host.Outcome State Fault Refusal :=
  issue (.mmaIssueCore f) s (fun c t => c.mmaIssue t false)

/-- MMA_ISSUE_CL (R356). -/
def execMmaIssueCl (f : RG) (s : State) : Host.Outcome State Fault Refusal :=
  issue (.mmaIssueCl f) s (fun c t => c.mmaIssue t true)

/-- MMA_WAIT (R361). -/
def execMmaWait (f : RG) (s : State) : Host.Outcome State Fault Refusal :=
  issue (.mmaWait f) s (fun c t => if t.tileMine c.g.core c.g.wg then c.await (t.takeTile c.g.core c.g.wg) { insn := .mmaWait f } false else .hold)

/-- MMA_FENCE (R360). -/
def execMmaFence (f : RG) (s : State) : Host.Outcome State Fault Refusal :=
  issue (.mmaFence f) s (fun c t => c.await (t.takeTile c.g.core c.g.wg) { insn := .mmaFence f } false)

/-- MMA_OP_START (R352). -/
def execMmaOpStart (core : Nat) (s : State) : Host.Outcome State Fault Refusal := .next (s.mmaStart core)

/-- ARRAY_TILE_WRITE (R356). -/
def execArrayTileWrite (core : Nat) (faults : List ArrayFault) (s : State) : Host.Outcome State Fault Refusal :=
  .next (s.arrayTile core faults)

/-! ## Tile forms (R362 to R365) -/

/-- Fields of a tile word: pitch in bytes, rows, columns, DFMT, SHIFT. -/
def tilePitch (w : Nat) : Nat := 32 * bits w 31 24
def tileRows (w : Nat) : Nat := bits w 23 17 + 1
def tileCols (w : Nat) : Nat := bits w 16 9 + 1
def tileFmt (w : Nat) : Nat := bits w 8 5
def tileShift (w : Nat) : Nat := bits w 4 0

/-- Bytes of a row that tile.tcvt writes, none for a format that does not exist (R365). -/
def cvtRow (w : Nat) : Option Nat :=
  let n := tileCols w
  match tileFmt w with
  | 0 | 1 | 10 | 11 => some (2 * n)
  | 2 | 3 | 8 | 9 => some n
  | 4 | 5 => if n % 4 = 0 then some (3 * n / 4) else none
  | 6 => if n % 2 = 0 then some (n / 2) else none
  | _ => none

/-- The limits of a tile word (R362, R365); `row` is the row size in bytes. -/
def tileOk (w row : Nat) : Bool := tilePitch w != 0 && tileCols w ≤ 192 && row ≤ tilePitch w

/-- The pieces of the rows of a tile form, each within one 128-byte line: generic address, row, first column, bytes. -/
def tilePieces (a w row : Nat) : List (Nat × Nat × Nat) :=
  (List.range (tileRows w)).flatMap (fun i =>
    let r := a + tilePitch w * i
    ((List.range (row / 128 + 2)).filterMap (fun n =>
      let lo := max r ((r / 128 + n) * 128)
      let hi := min (r + row) ((r / 128 + n + 1) * 128)
      if lo < hi then some (lo, i * 2 ^ 16 + (lo - r), hi - lo) else none)))

/-- Check the pieces of tile.tld and tile.tst (R362, R363). `off` of a piece holds row and byte in the row. -/
def Cx.tileCheck (c : Cx) (t : State) (acc : Access) (w : Nat) : Except TrapInfo (List Acc) :=
  let a := c.addr1.toNat
  let own := windowOf a == .spad && (a - 0x01FFFFFFFF000000) / 4194304 == c.g.lCore
  if a % 16 ≠ 0 then .error (c.early 4 c.mask 0 4 c.addr1)
  else if !(own || windowOf a == .glob) then .error (c.early 5 c.mask 0 0 c.addr1)
  else
    let one (x : Nat × Nat × Nat) : Except LaneFail (List Acc) :=
      let ea := BitVec.ofNat 64 x.1
      if own then
        (if windowOf x.1 == .spad && (x.1 - 0x01FFFFFFFF000000) / 4194304 == c.g.lCore then
          (t.checkSpad c.g x.1 x.2.2).map (fun l => [{ lane := firstLane c.mask, ea := ea, off := x.2.1, size := x.2.2, loc := l }])
        else .error { cause := 5 })
      else if windowOf x.1 != .glob then .error { cause := 5 }
      else (t.checkGlobal c.g { acc := acc, peer := false } x.1 false).map (fun l =>
        [{ lane := firstLane c.mask, ea := ea, off := x.2.1, size := x.2.2, loc := l }])
    let r := gather ((tilePieces a w (4 * tileCols w)).map (fun x => (firstLane c.mask, BitVec.ofNat 64 x.1, one x)))
    if r.2.isEmpty then .ok r.1
    else .error { c.rankFails r.2 with mask := c.mask }

/-- Bytes that a piece of tile.tst stores: elements of the accumulator (R363). -/
def State.tileBytes (s : State) (core d : Nat) (a : Acc) : Nat :=
  ofLe ((List.range a.size).map (fun n =>
    let x := a.off % 65536 + n
    BitVec.ofNat 8 ((s.accRead core d (a.off / 65536) (x / 4)).toNat / 256 ^ (x % 4))))

/-- A tile form reads a poisoned word of its accumulator (R101). -/
def State.tileReads (s : State) (core d w : Nat) : Bool :=
  !s.m.badWords.isEmpty && s.tileBad core (fun p => p / 24576 == d && decide (p / 192 % 128 < tileRows w) && decide (p % 192 < tileCols w))

/-- TILE_TLD (R363). -/
def execTileTld (f : RG) (s : State) : Host.Outcome State Fault Refusal :=
  issue (.tileTld f) s (fun c t =>
    let w := (c.s c.vw.b).toNat
    if !t.tileMine c.g.core c.g.wg then .hold
    else if !(tileOk w (4 * tileCols w) && w % 512 == 0) then c.illegal 2
    else match c.tileCheck t .load w with
      | .error r => .trap r
      | .ok accs => .ok (c.record (t.takeTile c.g.core c.g.wg) 12 0 accs))

/-- TILE_TST (R363): the elements are read at issue, and the accumulator is held against writes. -/
def execTileTst (f : RG) (s : State) : Host.Outcome State Fault Refusal :=
  issue (.tileTst f) s (fun c t =>
    let w := (c.s c.vw.b).toNat
    if !t.tileMine c.g.core c.g.wg then .hold
    else if !(tileOk w (4 * tileCols w) && w % 512 == 0) then c.illegal 2
    else match c.tileCheck t .store w with
      | .error r => .trap r
      | .ok accs =>
        let t1 := t.takeTile c.g.core c.g.wg
        if t1.tileReads c.g.core c.vw.d w then .ok (t1.startKill c.g.slice 9 0)
        else .ok (c.record t1 12 0 (accs.map (fun a => { a with v := t1.tileBytes c.g.core c.vw.d a }))))

/-- Keep what a tile form is about to write at issue, for a rollback (R105). -/
def State.keepUndo (s : State) (core : Nat) (u : Undo) : State := s.modCore core (fun c => { c with undo := u :: c.undo })

/-- TILE_TZERO (R364). -/
def execTileTzero (f : RG) (s : State) : Host.Outcome State Fault Refusal :=
  issue (.tileTzero f) s (fun c t =>
    if !t.tileMine c.g.core c.g.wg then .hold
    else
      let t0 := t.takeTile c.g.core c.g.wg
      let old : Undo :=
        { gid := c.gid, cyc := c.now, acc := some (c.vw.d, Tbl.get (t0.core c.g.core).accInit 0 c.vw.d,
                                     t0.tile.filter (fun e => e.1 / 24576 == c.g.core * 8 + c.vw.d)) }
      let t1 := ((((t0.keepUndo c.g.core old).markAcc c.g.core c.vw.d).accFill c.g.core c.vw.d 0)).tileWritten c.g.core (fun p =>
        p / 24576 == c.vw.d)
      .ok (t1.modGroup c.gid (fun g => { g with accBusy := Tbl.put g.accBusy c.vw.d (c.now + 48) })))

/-- x × 2^-n, exactly. -/
def scaleDown (n : Nat) (x : Num) : Num :=
  match x with
  | .fin s m e => .fin s m (e - n)
  | y => y

/-- One element that tile.tcvt writes (R365). -/
def tcvtVal (fmt sh : Nat) (x : Word) : Nat :=
  let v := scaleDown sh (f32.value false x.toNat)
  let i := rshr x.toInt sh
  let clamp (lo hi : Int) (n : Nat) : Nat := wrap n (max lo (min hi i))
  match fmt with
  | 0 => (f16.round false 0 v).1
  | 1 => (bf16.round false 0 v).1
  | 2 => (f8e4.narrow 0 v).1
  | 3 => (f8e5.narrow 0 v).1
  | 4 => (f6e3.narrow 0 v).1
  | 5 => (f6e2.narrow 0 v).1
  | 6 => (f4e2.narrow 0 v).1
  | 8 => clamp (-128) 127 8
  | 9 => clamp 0 255 8
  | 10 => clamp (-32768) 32767 16
  | _ => clamp 0 65535 16

/-- Width in bits of an element that tile.tcvt writes. -/
def tcvtBits (fmt : Nat) : Nat :=
  match fmt with
  | 0 | 1 | 10 | 11 => 16
  | 4 | 5 => 6
  | 6 => 4
  | _ => 8

/-- The packed bytes of a row (R244): element j lies in bits w*j and up. -/
def packRow (w row : Nat) (l : List Nat) : List Byte :=
  leBytes row (((List.range l.length).zip l).foldr (fun x a => x.2 * 2 ^ (w * x.1) + a) 0)

/-- TILE_TCVT (R365). -/
def execTileTcvt (f : RG) (s : State) : Host.Outcome State Fault Refusal :=
  issue (.tileTcvt f) s (fun c t =>
    let w := (c.s c.vw.b).toNat
    let a := c.addr1.toNat
    if !t.tileMine c.g.core c.g.wg then .hold
    else match cvtRow w with
      | none => c.illegal 2
      | some row =>
        if !tileOk w row then c.illegal 2
        else if a % 16 ≠ 0 then .trap (c.early 4 c.mask 0 4 c.addr1)
        else if !(windowOf a == .spad && (a - 0x01FFFFFFFF000000) / 4194304 == c.g.lCore) then .trap (c.early 5 c.mask 0 0 c.addr1)
        else
          let rows := (List.range (tileRows w)).map (fun i => (a + tilePitch w * i, row))
          let fails := (t.operandFails c.g rows) ++
            (rows.filter (fun r => (r.1 + row - 1 - 0x01FFFFFFFF000000) / 4194304 != c.g.lCore)).map (fun r =>
              (5, max r.1 (0x01FFFFFFFF000000 + (c.g.lCore + 1) * 4194304)))
          match worstFail fails with
          | some (cause, x) => .trap (c.early cause c.mask 0 0 (BitVec.ofNat 64 x))
          | none =>
            let o := c.g.spadBase.toNat + (a - 0x01FFFFFFFF000000) % 4194304
            let accs := rows.map (fun r => ({ lane := firstLane c.mask, size := row, loc := .spad c.g.core (o + (r.1 - a)) } : Acc))
            if !waitTurn c.g c.num accs then .hold
            else
              let t1 := t.takeTile c.g.core c.g.wg
              if t1.tileReads c.g.core c.vw.d w then .ok (t1.startKill c.g.slice 9 0)
              else if rows.any (fun r => t1.spadCut c.g.core (o + (r.1 - a)) row) then .ok (t1.startKill c.g.slice 9 0)
              else
              let t2 := (List.range (tileRows w)).foldl (fun u i =>
                u.setSpad c.g.core (o + tilePitch w * i)
                  (packRow (tcvtBits (tileFmt w)) row ((List.range (tileCols w)).map (fun j =>
                    tcvtVal (tileFmt w) (tileShift w) (t1.accRead c.g.core c.vw.d i j))))) t1
              let old : Undo :=
                { gid := c.gid, cyc := c.now, spad := rows.flatMap (fun r => (List.range row).map (fun k =>
                    (o + (r.1 - a) + k, t1.spadByte c.g.core (o + (r.1 - a) + k), t2.spadByte c.g.core (o + (r.1 - a) + k)))) }
              .ok (((t2.keepUndo c.g.core old).countBanks c.g.core accs).modSplit c.gid c.born (fun p =>
                { p with readyAt := max p.readyAt (c.now + 1 + ceilDiv (tileRows w * tileCols w) 128) })))

/-- The elements that the pieces of a tile.tld write, by their place in the core's tile store. -/
def tldWrites (d : Nat) (accs : List Acc) (p : Nat) : Bool :=
  p / 24576 == d && accs.any (fun a => a.off / 65536 == p / 192 % 128 && decide (a.off % 65536 ≤ 4 * (p % 192)) &&
    decide (4 * (p % 192) < a.off % 65536 + a.size))

/-- A tile.tld writes one element of a poisoned word and not the other (R101). -/
def State.tileCut (s : State) (core d : Nat) (accs : List Acc) : Bool :=
  s.m.badWords.any (fun w => match w with
    | .tile c k => c == core && (tldWrites d accs (2 * k) != tldWrites d accs (2 * k + 1))
    | _ => false)

/-- Perform a tile.tld: the elements are written (R363). -/
def State.tldStep (s : State) (gid : Nat) (e : Entry) : State :=
  let g := s.group gid
  let d := (view e.instr).d
  if !e.acc.all (s.evictOk g false) then s
  else if !e.acc.all (s.ctlOwner g) then s.lateFail gid e.id 10 0 e.mask (((e.acc.find? (fun a => !s.ctlOwner g a)).map (·.ea)).getD 0)
  else if s.tileCut g.core d e.acc then s.startKill g.slice 9 0
  else match e.acc.findSome? (s.readsPoison g) with
    | some pa => s.consumePoison g.slice pa
    | none =>
      let s1 := s.markAcc g.core d
      let s2 := e.acc.foldl (fun u a =>
        let b := s.readLoc g a.loc a.size
        ((List.range (a.size / 4)).foldl (fun (u : State) n =>
          { u with tile := Tbl.put u.tile (tileKey g.core d (a.off / 65536) (a.off % 65536 / 4 + n))
                              (BitVec.ofNat 32 (field b (4 * n) 4)) }) u).touchLoc gid g a.loc) s1
      ((s2.tileWritten g.core (tldWrites d e.acc)).modEntry gid e.id (fun e => { e with done := e.mask })).freeIfDone gid e.id

/-- Perform a tile.tst: its bytes are stored; a global one stays until it is published (R363). -/
def State.tstStep (s : State) (gid : Nat) (e : Entry) : State := s.storeStep gid e

end Sys2Proof.Machine
end

