-- ==== Sys2Proof/Machine/Packet.lean ====
section
/-! DEFINITION. The packets of R84 to R92 as bytes: their reserved fields, their limits, and the objects they name, which
the checks of R83 test in order. The images of cp.issue and coll.issue use the same checks (R366, R371). -/

namespace Sys2Proof.Machine

/-- TYPE of a packet (R84). -/
def pktType (b : List Byte) : Nat := field b 0 1 % 16

/-- FENCE of a packet (R84). -/
def pktFence (b : List Byte) : Bool := nbit (field b 0 1) 4

/-- The reserved bytes of a packet beyond its header, by TYPE (R86 to R89, R92). -/
def reservedOf (ty : Nat) : List (Nat × Nat) :=
  match ty with
  | 1 => [(0x26, 0x28), (0x34, 0x40)]
  | 2 => [(0x38, 0x40)]
  | 3 => []
  | 4 => [(0x26, 0x28)]
  | 7 => [(0x20, 0x40)]
  | 8 => [(0x1A, 0x1C), (0x20, 0x40)]
  | _ => [(0x18, 0x40)]

/-- The ARRIVE word of a packet that has one (R87, R88). -/
def pktArrive (b : List Byte) : Nat :=
  match pktType b with
  | 2 => field b 0x2C 4
  | 3 => field b 0x34 4
  | 4 => field b 0x34 4
  | _ => 0

/-- RSV_SET: a reserved bit or field is not zero (R83). In a coll.issue image byte 0x26 is GATE (R371). -/
def rsvSet (b : List Byte) (image : Bool) : Bool :=
  decide (32 ≤ field b 0 1) || !zeroBytes b 1 2 || !zeroBytes b 4 8 ||
  (reservedOf (pktType b)).any (fun r => !zeroBytes b (if image && r.1 == 0x26 then 0x27 else r.1) r.2) ||
  nbit (pktArrive b) 22 ||
  (pktType b == 8 && (decide (8 ≤ field b 0x10 4) || bits (field b 0x14 4) 27 24 != 0 || bits (field b 0x14 4) 15 12 != 0))

/-- A range of n bytes lies wholly in the global window. -/
def inGlob (a n : Nat) : Bool := windowOf a == .glob && windowOf (a + n - 1) == .glob

/-- A range lies wholly in the global window, or wholly in the scratchpad window with ARRIVE V = 1 (R210). -/
def rangeOk (a n : Nat) (v : Bool) : Bool := inGlob a n || (v && windowOf a == .spad && windowOf (a + n - 1) == .spad)

/-- An address of an object in the global window at its alignment, or 0 where that names none. -/
def objOk (a n : Nat) : Bool := a == 0 || (a % n == 0 && inGlob a n)

/-- The arrival object of a packet is one the slice has, at a multiple of 16 (R87). -/
def State.arriveOk (s : State) (t w : Nat) : Bool :=
  !nbit w 31 || (bits w 21 0 % 16 == 0 && (s.arriveAt t w).isSome)

/-- The range that a copy reads or writes, base and length (R210). -/
def copySpan (b : List Byte) (dst : Bool) : Nat × Nat :=
  let base := field b (if dst then 16 else 8) 8
  if pktType b = 3 then
    (base, (field b 0x1C 4 - 1) * field b (if dst then 0x24 else 0x20) 4 + field b 0x18 4)
  else (base, field b 0x18 8)

/-- CNT of a packet: its place by TYPE. -/
def pktCnt (b : List Byte) : Nat :=
  match pktType b with
  | 1 => field b 0x28 8
  | 2 => field b 0x20 8
  | 3 => field b 0x28 8
  | 4 => field b 0x28 8
  | 8 => 0
  | _ => field b 0x08 8

/-- PROMISE of a copy, TS of a marker: 8 bytes written (R87, R89). -/
def pktWord (b : List Byte) : Nat :=
  match pktType b with
  | 2 => field b 0x30 8
  | 3 => field b 0x38 8
  | 7 => field b 0x18 8
  | _ => 0

/-- A counter in host memory under a root port without 64-bit FetchAdd (R94). -/
def State.cntHost (s : State) (t die a : Nat) : Bool :=
  a != 0 && !Config.rootPortFetchAdd &&
    (match s.engineTranslate t die a with | .ok e => e.target == 1 | .error _ => false)

/-- BAD_FIELD for the packets whose limits need no memory but the translation of CNT (R83). -/
def State.badField (s : State) (t die : Nat) (b : List Byte) : Bool :=
  let arr := pktArrive b
  let v := nbit arr 31
  let sp := copySpan b false
  let dp := copySpan b true
  let copy := !(rangeOk sp.1 sp.2 v && rangeOk dp.1 dp.2 v)
  !objOk (pktCnt b) 16 || !objOk (pktWord b) 8 || s.cntHost t die (pktCnt b) || !s.arriveOk t arr ||
  (match pktType b with
   | 1 =>
     field b 0x20 2 == 0 || field b 0x22 2 == 0 || field b 0x24 2 == 0 || field b 0x08 8 % 256 != 0 ||
       !inGlob (field b 0x08 8) 256 || field b 0x18 8 % 16 != 0 || field b 0x10 8 % 128 != 0 || !inGlob (field b 0x10 8) 128
   | 2 => field b 0x18 8 == 0 || decide (2 ^ 40 < field b 0x18 8) || copy
   | 3 =>
     let w := field b 0x18 4
     let r := field b 0x1C 4
     w == 0 || decide (2 ^ 24 < w) || r == 0 || decide (2 ^ 24 < r) || decide (field b 0x20 4 < w) ||
       decide (field b 0x24 4 < w) || copy
   | 4 =>
     let kind := field b 0x20 1 / 16
     let red := field b 0x20 1 % 16
     let tile := field b 0x21 1
     let dst := field b 0x10 8
     !(kind == 1 || kind == 2) || decide (3 < red) || (kind == 1) != (red == 0) || decide (tile < 12) || decide (20 < tile) ||
       field b 0x18 8 % 2 ^ tile != 0 || decide (field b 0x22 2 < 2) || decide (1024 < field b 0x22 2) ||
       decide (field b 0x22 2 ≤ field b 0x24 2) || windowOf (field b 0x08 8) != .glob ||
       !(windowOf dst == .glob || (v && windowOf dst == .spad)) || windowOf (field b 0x38 8) != .glob
   | 5 => pktCnt b == 0
   | 6 => pktCnt b == 0
   | 8 =>
     let m := field b 0x10 4
     let cores := field b 0x14 4 % 256
     let tok := field b 0x18 2
     field b 0x08 8 % 128 != 0 || !inGlob (field b 0x08 8) 128 || (nbit m 0 && (cores == 0 || decide (144 < cores))) ||
       (nbit m 1 && (tok == 0 || decide (256 < tok)))
   | _ => false)

/-- An object of n bytes can be reached for an access of an engine: R188 steps 4 and 5, in device or host memory (R83). -/
def State.objReach (s : State) (t die a n : Nat) (acc : Access) : Option WalkFail :=
  [a, a + n - 1].findSome? (fun x =>
    match s.engineLoc t die x acc with
    | .error f => some f
    | .ok (e, _) => if e.target = 2 then some { cause := 9, host := true } else none)

/-- The objects of R83, OBJ_FAULT, that copies, collectives, CWAIT, CADD, MARKER and REGION name, in the order of their fields:
0 names no counter, PROMISE or TS, but an RCB is named whatever its address. -/
def pktObjects (b : List Byte) : List (Nat × Nat × Access) :=
  [(pktCnt b, 16, if pktType b = 5 then .load else .store), (pktWord b, 8, .store)].filter (fun o => o.1 != 0) ++
    (if pktType b = 8 then [(field b 0x08 8, 128, .store)] else [])

/-- The first object that fails, with its cause. -/
def State.objFault (s : State) (t die : Nat) (b : List Byte) : Option (Nat × WalkFail) :=
  (pktObjects b).findSome? (fun o => (s.objReach t die o.1 o.2.1 o.2.2).map (fun f => (o.1, f)))

/-- Every check of an image but OBJ_FAULT (R366, R371): its TYPE must be the form's. -/
def State.imageBad (s : State) (t die ty : Nat) (b : List Byte) : Bool :=
  -- FENCE and TAG are ignored.
  pktType b != ty || rsvSet b (ty == 4) || s.badField t die b || (ty == 4 && decide (1 < field b 0x26 1))

end Sys2Proof.Machine
end

