-- ==== Sys2Proof/Machine/Engines.lean ====
section
/-! DEFINITION. Copy engines and collective engines (R51, R98, R208 to R210, R366 to R373, R399, R400, R410): acceptance,
pieces, tiles, and the cp and coll forms. -/

namespace Sys2Proof.Machine

/-! ## Acceptance and promises (R98) -/

/-- Bytes accepted by a copy engine and not yet landed, of the copies before a given one (all when none is given). -/
def owedBytes : List CopyJob → Option Nat → Nat
  | [], _ => 0
  | j :: r, stop => if stop == some j.id then 0 else (j.size - j.landed) + owedBytes r stop

/-- The promise of a copy of B bytes behind Q bytes. -/
def promiseOf (cycle q b : Nat) : Nat := cycle + 2000 + ceilDiv (q + b) 64

/-- Write the promise of a copy to PROMISE (R98), or report it lost (R83). -/
def State.writePromise (s : State) (d e : Nat) (j : CopyJob) : State :=
  (s.objWrite j.slice d j.promiseAt (leBytes 8 j.promise) (copyEng j.lDie e) 2).modCopy d e j.id (fun j => { j with owed := false })

/-- A copy engine accepts a copy: its promise is formed (R98, R367). PROMISE takes it at once, but for a direct copy, whose
write waits at the strike horizon with its entry (R105). -/
def State.acceptCopy (s : State) (d e : Nat) (j : CopyJob) : State × Nat :=
  let x := (s.die d).engine e
  let id := s.nextJob
  let pr := promiseOf s.cycle (owedBytes x.jobs none) (j.size - j.landed)
  let j1 := { j with id := id, accepted := s.cycle, lDie := s.logDie j.slice d, promise := pr,
                     owed := j.promiseAt != 0 && j.gid.isSome }
  let s1 := ({ s with nextJob := id + 1 } : State).modEngine d e (fun x => { x with jobs := x.jobs ++ [j1] })
  (if j.promiseAt != 0 && j.gid.isNone then s1.writePromise d e j1 else s1, pr)

/-- A revised promise (R98): 0 for a copy that has stopped. -/
def State.revisedPromise (s : State) (d e : Nat) (j : CopyJob) : Nat :=
  if j.stopped.isSome then 0
  else promiseOf s.cycle (owedBytes ((s.die d).engine e).jobs (some j.id)) (j.size - j.landed)

/-! ## When an engine may act for a direct form (O6, R399) -/

/-- The scratchpad core that a generic address of a copy or collective names (R210): core and physical offset. -/
def State.engineSpad (s : State) (t arrive a : Nat) : Option (Nat × Nat) :=
  let o := a - 0x01FFFFFFFF000000
  (s.physCore t (bits arrive 30 29) (bits arrive 28 25) (o / 4194304 % 4)).map (fun c => (c, o % 4194304))

/-- The bytes lie in a range held on the core by a workgroup of the slice (R210). -/
def State.heldRange (s : State) (t core off n : Nat) : Bool :=
  (s.core core).wgs.any (fun w => w.slice == t && !w.whole && decide (w.base ≤ off) && decide (off + n ≤ w.base + w.size))

/-- The ranges that an image names: source and destination of a copy (R210), the destination of a collective (R400, R410). -/
def imageSpans (b : List Byte) : List (Nat × Nat) :=
  if pktType b = 4 then
    [(field b 16 8, (if field b 0x20 1 / 16 = 1 then field b 0x22 2 else 1) * field b 0x18 8)]
  else [copySpan b false, copySpan b true]

/-- Cores whose scratchpads an image reads, writes or signals: of every 4 MiB slot that its ranges meet (R189, R399). -/
def State.enginePorts (s : State) (t : Nat) (b : List Byte) : List Nat :=
  let arr := pktArrive b
  ((imageSpans b).flatMap (fun sp => ((List.range 4).map (0x01FFFFFFFF000000 + 4194304 * ·)).filterMap (fun a =>
    if decide (a < sp.1 + sp.2) && decide (sp.1 < a + 4194304) then (s.engineSpad t arr a).map (·.1) else none))) ++
    ((s.arriveAt t arr).map (·.1)).toList

/-- The entry of a direct form has left its partition, or its group is not resident. -/
def State.formLeft (s : State) (who : Option (Nat × Nat)) : Bool :=
  match who with
  | none => true
  | some (gid, id) =>
    match Tbl.find s.groups gid with
    | none => true
    | some g => (match g.entry? id with | none => true | some e => s.hasLeft g e || g.place != .resident)

/-- The promises of direct copies whose entries have left their partitions are written (R98, R105). -/
def State.flushPromises (s : State) (d : Nat) : State :=
  (s.die d).engines.foldl (fun s e => e.2.jobs.foldl (fun s j =>
    if j.owed && s.formLeft j.gid then s.writePromise d e.1 j else s) s) s

/-- Every access of a group older than an entry number to some scratchpads has been accepted there (R399). -/
def Group.portsFree (g : Group) (num : Nat) (ports : List Nat) : Bool :=
  (g.older num).all (fun f => f.over || f.acc.all (fun a => match portOf a with | some c => !ports.contains c | none => true))

/-- The entry of a direct form has left its partition, every earlier close, release and acquire has completed (O4 to O6), and every
earlier access of the group to the scratchpads involved has been accepted there (R399). -/
def State.engineMay (s : State) (who : Option (Nat × Nat)) (ports : List Nat) : Bool :=
  s.formLeft who &&
  (match who with
   | none => true
   | some (gid, id) =>
     match Tbl.find s.groups gid with
     | none => true
     | some g =>
       match g.entry? id with
       | none => true
       | some e => (g.older e.num).all (fun f => f.kind != 7 && (f.over || !(f.rel || f.acq))) && g.portsFree e.num ports)

/-! ## Pieces (R208 to R210) -/

/-- Addresses of the byte at a position of a copy: source and destination. -/
def CopyJob.srcAt (j : CopyJob) (p : Nat) : Nat := j.src + p / max j.width 1 * j.spitch + p % max j.width 1
def CopyJob.dstAt (j : CopyJob) (p : Nat) : Nat := j.dst + p / max j.width 1 * j.dpitch + p % max j.width 1

/-- Where one end of a piece lies, or why it fails: a R188 failure, or a scratchpad outside every range of the slice. -/
inductive EndAt where
  | at_ (loc : Loc) (page : Nat)
  | fail (f : WalkFail)
  | outside
  | noRoute
  deriving DecidableEq, Repr

/-- Translate and check one end of a piece (R208 step 2). -/
def State.copyEnd (s : State) (d : Nat) (j : CopyJob) (a : Nat) (acc : Access) : EndAt :=
  if windowOf a = .spad then
    match s.engineSpad j.slice j.arrive a with
    | none => .outside
    | some (c, o) => if s.heldRange j.slice c o 1 then .at_ (.spad c o) 4194304 else .outside
  else
    match s.engineLoc j.slice d a acc with
    | .error f => .fail f
    | .ok (e, pa) =>
      if e.target = 2 then
        (match s.route j.slice e.peer with
         | some (m, k) => .at_ (.peer e.peer pa m k) e.size
         | none => .noRoute)
      else if e.target = 1 then .at_ (.host pa) e.size
      else .at_ (.home pa 2) e.size

/-- Past the runs at a position that have landed already (R368). -/
def CopyJob.past (j : CopyJob) (p : Nat) : Nat := j.skip.foldl (fun p e => if e.1 = p then p + e.2 else p) p

/-- Length of the piece at a position: one 4 KiB block of the destination, one page of the source, one row, and none of what has
landed already. -/
def CopyJob.pieceLen (j : CopyJob) (p page : Nat) : Nat :=
  let x := p % max j.width 1
  let n := min (min (j.width - x) (4096 - j.dstAt p % 4096)) (page - j.srcAt p % page)
  match j.skip.find? (fun e => decide (p < e.1)) with
  | some e => min n (e.1 - p)
  | none => n

/-- A whole scratchpad end of a piece lies in a range of the slice. -/
def State.endHeld (s : State) (t : Nat) (e : EndAt) (n : Nat) : Bool :=
  match e with
  | .at_ (.spad c o) _ => s.heldRange t c o n
  | _ => true

/-- The workgroup of a direct copy is being saved, or is saved, as a whole: its copies wait at a piece boundary (R184). -/
def State.stopsFor (s : State) (who : Option (Nat × Nat)) : Bool :=
  match who with
  | none => false
  | some (gid, _) => (s.core (s.group gid).core).wgs.any (fun w => (w.leaving || w.whole) && w.gids.contains gid)

/-- A copy's form and its packet allow it to act. -/
def State.copyMay (s : State) (j : CopyJob) : Bool :=
  s.engineMay j.gid (s.enginePorts j.slice j.image) && (match j.queue with | some k => s.pktMay j.slice k j.pkt | none => true)

/-- The copies of an engine that may start a piece, those that run already first, then direct ones in the order of acceptance: one
that is held by its form holds back those behind it and every queue packet not yet started (R367), which start in slot order (R85);
the engine holds at most 16 pieces in flight (R208). -/
def State.copyCandidates (s : State) (d e : Nat) : List CopyJob :=
  let x := (s.die d).engine e
  if x.offline || decide (16 ≤ (x.jobs.flatMap (·.inflight)).length) then []
  else
    let l := x.jobs.filter (fun j => j.stopped.isNone && j.cancel.isNone && j.token.isNone && decide (j.next < j.size) &&
      !(s.slice j.slice).engStop && !s.stopsFor j.gid)
    let run := l.filter (fun j => decide (0 < j.next))
    let fresh := l.filter (fun j => j.next == 0)
    let direct := fresh.filter (fun j => j.queue.isNone)
    run ++ direct.takeWhile s.copyMay ++
      (if direct.all s.copyMay then fresh.filter (fun j => j.queue.isSome && s.copyMay j) else [])

/-- A piece failed its check (R209). -/
def State.pieceFails (s : State) (d e : Nat) (j : CopyJob) (dst : Bool) (a : Nat) (r : EndAt) : State :=
  let addr := BitVec.ofNat 64 a
  match r with
  | .outside => s.stopCopy d e j 8 0 addr
  | .noRoute => s.stopCopy d e j 5 1 addr
  | .fail f =>
    if f.cause = 8 then
      let rec_ : RecordData :=
        { code := 8, flags := b2n f.host + 2 * b2n dst + 8, slice := j.slice, ctx := j.ctx, src := copyEng j.lDie e, va := a,
          ipa := f.ipa }
      if s.walksWait j.slice d f.host then s
      else match s.postFault j.slice d f.host rec_ with
      | (s1, some tok) => s1.modCopy d e j.id (fun j => { j with token := some tok, failAddr := addr })
      | (s1, none) => s1.stopCopy d e j 4 0 addr
    else s.stopCopy d e j (if f.cause = 10 then 3 else 4) 0 addr
  | .at_ _ _ => s

/-- Send a piece's request to a peer, by the route that stands as it is sent (R41). -/
def State.sendPiece (s : State) (d e : Nat) (j : CopyJob) (off n peer addr : Nat) (route : Nat × Nat) (op : PeerOp) (img : List Byte) :
    State :=
  let q : PeerReq :=
    { slice := j.slice, sentAt := s.cycle, peer := peer, addr := addr, op := op, size := n, job := some (d, e, j.id, off),
      modid := route.1, pslice := route.2, img := img }
  s.modM (fun m => { m with nextPeer := m.nextPeer + 1, peers := Tbl.put m.peers m.nextPeer q })

/-- The last frame of an end of a piece is the slice's: a page larger than a frame may have another owner there (R63). -/
def State.endOwned (s : State) (t : Nat) (l : Loc) (n : Nat) : Bool :=
  match l with
  | .home pa _ => s.ownerNow (pa / 65536) == t && s.ownerNow ((pa + n - 1) / 65536) == t
  | _ => true

/-- An end of a piece meets a REKEY of its slice (R66). -/
def State.endBusy (s : State) (t : Nat) (l : Loc) (n : Nat) : Bool :=
  match l with
  | .home pa _ => s.placeBusy t pa || s.placeBusy t (pa + n - 1)
  | _ => false

/-- The scratchpads at which a piece is performed (R191). -/
def Piece.ports (p : Piece) : List Nat := [p.src, p.dst].filterMap (fun l => match l with | .spad c _ => some c | _ => none)

/-- An engine starts the next piece of a copy (R208): its check, and the read request when the source is a peer's. -/
def State.startPiece (s : State) (d e : Nat) : State :=
  match s.copyCandidates d e with
  | [] => s
  | j :: _ =>
    let p := j.next
    let src := s.copyEnd d j (j.srcAt p) .load
    match src with
    | .at_ sl page =>
      let n := j.pieceLen p page
      if !s.endHeld j.slice src n then s.stopCopy d e j 8 0 (BitVec.ofNat 64 (j.srcAt p))
      else if !s.endOwned j.slice sl n then s.stopCopy d e j 3 0 (BitVec.ofNat 64 (j.srcAt p))
      else
        let dst := s.copyEnd d j (j.dstAt p) .store
        match dst with
        | .at_ dl _ =>
          if !s.endHeld j.slice dst n then s.stopCopy d e j 8 0 (BitVec.ofNat 64 (j.dstAt p))
          else if s.endBusy j.slice sl n || s.endBusy j.slice dl n then s
          else
            let pc : Piece := { off := p, len := n, seq := ((s.die d).engine e).pieces, src := sl, dst := dl }
            let s1 := ((s.modEngine d e (fun x => { x with pieces := x.pieces + 1 })).modCopy d e j.id (fun j =>
              { j with next := j.past (p + n), inflight := j.inflight ++ [pc] })).pktStart j.slice j.queue j.pkt
            (match sl with
             | .peer k a m q => s1.sendPiece d e j p n k a (m, q) .load []
             | _ => s1)
        | r => s.pieceFails d e j true (j.dstAt p) r
    | r => s.pieceFails d e j false (j.srcAt p) r

/-- Bytes of a location as an engine reads them (R223). -/
def State.pieceRead (s : State) (l : Loc) (n : Nat) : List Byte :=
  match l with
  | .home pa _ => s.memBytes pa n
  | .host pa => s.hostBytes pa n
  | .spad c o => s.spadRead c o n
  | _ => []

/-- A poisoned line or L2 word that n bytes of device memory cover in part (R101). -/
def State.cutPoison (s : State) (pa n : Nat) : Option Nat :=
  let cuts (lo size : Nat) : Bool := decide (lo < pa + n) && decide (pa < lo + size) && (decide (lo < pa) || decide (pa + n < lo + size))
  ((s.m.poison.find? (fun k => cuts (k * 128) 128)).map (· * 128)).orElse (fun _ =>
    s.m.badWords.findSome? (fun w => match w with | .l2 k => if cuts (k * 8) 8 then some (k * 8) else none | _ => none))

/-- Poison that a read of n bytes of a place consumes, or that a write of a part of a line or word does (R101). -/
def State.rangePoison (s : State) (l : Loc) (n : Nat) (part : Bool) : Option Nat :=
  match l with
  | .home pa _ => if part then s.cutPoison pa n else s.poisonIn pa n
  | .spad c o => if (if part then s.spadCut c o n else s.spadBad c o n) then some 0 else none
  | _ => none

/-- A generic address lies in the span of one end of a copy. -/
def CopyJob.inSpan (j : CopyJob) (dst : Bool) (a : Nat) : Bool :=
  let sp := copySpan j.image dst
  decide (sp.1 ≤ a) && decide (a < sp.1 + sp.2)

/-- Places of a span that a translation gives, page by page: first place, first address, bytes. -/
def State.spanPlaces (s : State) (d : Nat) (j : CopyJob) (dst : Bool) : List (Loc × Nat) :=
  let sp := copySpan j.image dst
  (List.range (sp.2 / 65536 + 2)).filterMap (fun k =>
    let a := (sp.1 / 65536 + k) * 65536
    match s.copyEnd d j a .load with
    | .at_ l _ => some (l, a)
    | _ => none)

/-- The byte of a copy at a position is undefined: source and destination meet there, by address or by place (R367). -/
def State.copyUndef (s : State) (d : Nat) (j : CopyJob) (p : Nat) : Bool :=
  let a := j.srcAt p
  let b := j.dstAt p
  let twin (x : Nat) (dst : Bool) : Bool :=
    match s.copyEnd d j (x / 65536 * 65536) .load with
    | .at_ l _ => (s.spanPlaces d j dst).any (fun y => y.1 == l && j.inSpan dst (y.2 + x % 65536))
    | _ => false
  j.inSpan false b || j.inSpan true a || twin b false || twin a true

/-- The bytes that a piece writes, undefined where R367 leaves them so. -/
def State.pieceBytes (s : State) (d : Nat) (j : CopyJob) (p : Nat) (l : List Byte) : List Byte :=
  ((List.range l.length).zip l).map (fun x => if s.copyUndef d j (p + x.1) then Config.freeByte s.free (p + x.1) else x.2)

/-- Write the bytes of a piece at their home: they are visible at once at scope dev (R223). -/
def State.pieceWrite (s : State) (l : Loc) (bs : List Byte) : State :=
  match l with
  | .home pa _ => (s.publishBytes pa bs).modM (fun m =>
      { m with atomAt := m.atomAt.filter (fun e => e.1 < pa || pa + bs.length ≤ e.1) })
  | .host pa => s.setHost pa bs
  | .spad c o => s.setSpad c o bs
  | _ => s

/-- An engine has completed a unit: mismatches on later units count afresh (R109). -/
def State.unitDone (s : State) (d e : Nat) : State :=
  if ((s.die d).engine e).strikes = 0 then s else s.modEngine d e (fun x => { x with strikes := 0 })

/-- A piece is down: its bytes count, the arrival object takes them, and the copy completes or ends (R97, R208, R209). -/
def State.pieceDone (s : State) (d e : Nat) (j : CopyJob) (p : Piece) (good : Bool) : State :=
  let j1 := { j with inflight := j.inflight.filter (fun x => x.off != p.off), landed := j.landed + (if good then p.len else 0) }
  let s1 := s.modCopy d e j.id (fun _ => j1)
  let s2 := if good then (s1.unitDone d e).modArrive j.slice j.arrive false (·.land p.len) else s1
  let s3 := match j.gid with
    | some (gid, id) => s2.modEntry gid id (fun e =>
        { e with prog := BitVec.ofNat 64 j1.landed, got := if good then Tbl.put e.got p.off p.len else e.got })
    | none => s2
  if j1.inflight.isEmpty && (j1.stopped.isSome || j1.landed == j1.size) then s3.finishCopy d e j1 else s3

/-- The copy fails at a piece in flight. -/
def State.pieceStop (s : State) (d e : Nat) (j : CopyJob) (p : Piece) (cause nak a : Nat) : State :=
  let j1 := { j with stopped := some (j.stopped.getD (cause, nak)),
                     failAddr := if j.stopped.isSome then j.failAddr else BitVec.ofNat 64 a }
  (s.modCopy d e j.id (fun _ => j1)).pieceDone d e j1 p false

/-- Land the data of a piece whose source bytes are there, or send them to the peer of its destination, whose routing entry must
still be valid (R41, R42). -/
def State.landData (s : State) (d e : Nat) (j : CopyJob) (p : Piece) (l : List Byte) : State :=
  match p.dst with
  | .peer k a _ _ =>
    (match s.route j.slice k with
     | none => s.pieceStop d e j p 5 1 (j.dstAt p.off)
     | some r =>
       (s.sendPiece d e j p.off p.len k a r .store (s.pieceBytes d j p.off l)).modCopy d e j.id (fun j =>
         { j with inflight := j.inflight.map (fun x => if x.off == p.off then { x with sent := true } else x) }))
  | dl =>
    match s.rangePoison dl p.len true with
    | some pa => s.consumePoison j.slice pa
    | none => { (s.pieceWrite dl (s.pieceBytes d j p.off l)).pieceDone d e j p true with free := s.free + 1 }

/-- A piece has what it needs to land: its bytes when a peer supplies them, no earlier piece of the engine still to be
performed at a scratchpad that it uses (R191), and no REKEY at its ends (R66). -/
def State.pieceReady (s : State) (d e : Nat) (j : CopyJob) (p : Piece) : Bool :=
  !p.sent && (match p.src with | .peer .. => p.data.isSome | _ => true) &&
  !s.endBusy j.slice p.src p.len && !s.endBusy j.slice p.dst p.len &&
  (p.ports.isEmpty || ((s.die d).engine e).jobs.all (fun k => k.inflight.all (fun q =>
    decide (p.seq ≤ q.seq) || q.ports.all (fun c => !p.ports.contains c))))

/-- The first piece in flight on an engine that may land; an engine that is offline lands none (R109). -/
def State.landable (s : State) (d e : Nat) : Option (CopyJob × Piece) :=
  if ((s.die d).engine e).offline then none
  else ((s.die d).engine e).jobs.findSome? (fun j => (j.inflight.find? (s.pieceReady d e j)).map (fun p => (j, p)))

/-- A piece lands (R97, R208): the owner of its frames is checked again at the controller (R63, R209). -/
def State.landPiece (s : State) (d e : Nat) : State :=
  match s.landable d e with
  | none => s
  | some (j, p) =>
    if !s.endOwned j.slice p.src p.len then s.pieceStop d e j p 3 0 (j.srcAt p.off)
    else if !s.endOwned j.slice p.dst p.len then s.pieceStop d e j p 3 0 (j.dstAt p.off)
    else match p.data with
      | some l => s.landData d e j p l
      | none =>
        match s.rangePoison p.src p.len false with
        | some pa => s.consumePoison j.slice pa
        | none => s.landData d e j p (s.pieceRead p.src p.len)

/-- The copy and the piece of a request. -/
def State.pieceOf (s : State) (q : PeerReq) : Option (Nat × Nat × CopyJob × Piece) :=
  match q.job with
  | none => none
  | some (d, e, id, off) =>
    match ((s.die d).engine e).jobs.find? (fun j => j.id == id) with
    | none => none
    | some j => (j.inflight.find? (fun p => p.off == off)).map (fun p => (d, e, j, p))

/-- Where a request of a piece failed: the address of its source or destination. -/
def CopyJob.askedAt (j : CopyJob) (q : PeerReq) (p : Piece) : Nat := match q.op with | .load => j.srcAt p.off | _ => j.dstAt p.off

/-- A peer's answer to a piece: the bytes it reads, which land in the engine's order, the completion of its write, or a NAK
(R191, R209). -/
def State.pieceAnswer (s : State) (q : PeerReq) (r : PeerResp) : State :=
  match s.pieceOf q with
  | none => s
  | some (d, e, j, p) =>
    let took (l : List Byte) : State := s.modCopy d e j.id (fun j =>
      { j with inflight := j.inflight.map (fun x => if x.off == p.off then { x with data := some (padTo p.len l) } else x) })
    match q.op, r with
    | .load, .bytes l => took l
    | .load, .ok v => took (leBytes 16 v.toNat)
    | _, .nak c => s.pieceStop d e j p 5 c (j.askedAt q p)
    | _, _ => s.pieceDone d e j p true

/-- A peer that does not answer a piece in 50 us (R49, R209). -/
def State.pieceSilent (s : State) (q : PeerReq) : State :=
  match s.pieceOf q with
  | none => s
  | some (d, e, j, p) => s.pieceStop d e j p 6 0 (j.askedAt q p)

/-- COPY_PIECE_START (R208). -/
def execCopyPieceStart (die eng : Nat) (s : State) : Host.Outcome State Fault Refusal := .next (s.startPiece die eng)

/-- COPY_PIECE_LAND (R97). -/
def execCopyPieceLand (die eng : Nat) (s : State) : Host.Outcome State Fault Refusal := .next (s.landPiece die eng)

/-! ## The copy forms (R366 to R370) -/

/-- The trap of an image object that cannot be reached (R366). -/
def Cx.objTrap (c : Cx) (x : Nat × WalkFail) : TrapInfo :=
  { c.early x.2.cause c.mask 0 0 (BitVec.ofNat 64 x.1) with flags := b2n x.2.host + 2, ipa := x.2.ipa }

/-- The ranges of an image meet, by generic address (R367). -/
def spansMeet (b : List Byte) : Bool :=
  let x := copySpan b false
  let y := copySpan b true
  decide (x.1 < y.1 + y.2) && decide (y.1 < x.1 + x.2)

/-- The held address of an image, with what its form needs again at a replay. -/
def Cx.imageAcc (c : Cx) (v : Nat) : List Acc := [{ lane := firstLane c.mask, ea := c.addr1, size := 0, v := v }]

/-- cp.issue and cp.issue2d (R366, R367). -/
def Cx.copyIssue (c : Cx) (t : State) (ty : Nat) : Res :=
  match selector (c.s c.vw.b) with
  | none => c.illegal 2
  | some (ld, e) =>
    let d := (t.physDie c.g.slice ld).getD 4
    let named := decide (d < 4) && t.ceNamed c.g.slice d e
    if named && decide (64 ≤ (((t.die d).engine e).jobs.filter (·.queue.isNone)).length) then .hold
    else
      match c.checkOne t { priv := false } 64 c.addr1, named with
      | .error _, false => c.priv
      | _, _ => c.readBlock t true 64 (fun accs b =>
        if t.imageBad c.g.slice (min d 3) ty b then c.illegal 2
        else if !named then c.priv
        else match t.objFault c.g.slice d b with
          | some x => .trap (c.objTrap x)
          | none =>
            let kind := if spansMeet b then 10 else 9
            let id := freePlace c.g.log
            let r := (t.touch c.g accs).acceptCopy d e
              { slice := c.g.slice, ctx := c.g.ctx, gid := some (c.gid, id), image := b, imageAt := c.addr1 }
            let t1 := c.enter r.1 kind (kindClass kind) c.mask (c.imageAcc (ld * 8 + e))
            .ok (c.giveSp (t1.modGroup c.gid (fun g => g.modEntry id (fun e =>
              { e with img := b, promise := BitVec.ofNat 64 r.2 }))) c.vw.d (BitVec.ofNat 64 r.2)))

/-- CP_ISSUE (R366). -/
def execCpIssue (f : RG) (s : State) : Host.Outcome State Fault Refusal := issue (.cpIssue f) s (fun c t => c.copyIssue t 2)

/-- CP_ISSUE2D (R366). -/
def execCpIssue2d (f : RG) (s : State) : Host.Outcome State Fault Refusal := issue (.cpIssue2d f) s (fun c t => c.copyIssue t 3)

/-- The outstanding copy of an engine that was issued last from an image address (R369); a scratchpad image is one of the
issuing group's own view of its scratchpad. -/
def State.copyFrom (s : State) (g : Group) (d e : Nat) (a : DWord) : Option CopyJob :=
  (((s.die d).engine e).jobs.filter (fun j => j.slice == g.slice && j.imageAt == a &&
    (match j.gid with
     | none => false
     | some (h, _) => windowOf a.toNat != .spad ||
       (match Tbl.find s.groups h with | some x => x.core == g.core && x.spadBase == g.spadBase | none => false)))).getLast?

/-- CP_REKEY (R369); an engine that CEMASK does not name raises PRIV (R395). -/
def execCpRekey (f : RG) (s : State) : Host.Outcome State Fault Refusal :=
  issue (.cpRekey f) s (fun c t =>
    match selector (c.s c.vw.b) with
    | none => c.illegal 2
    | some (ld, e) =>
      let d := (t.physDie c.g.slice ld).getD 4
      if !(decide (d < 4) && t.ceNamed c.g.slice d e) then c.priv
      else .ok (c.giveSp t c.vw.d (BitVec.ofNat 64 (match t.copyFrom c.g d e c.addr1 with
        | some j => t.revisedPromise d e j
        | none => t.cycle))))

/-- CP_CANCEL (R370): no later piece starts; the stop leaves the partition at the strike horizon (R105). An engine that CEMASK
does not name raises PRIV (R395). -/
def execCpCancel (f : RG) (s : State) : Host.Outcome State Fault Refusal :=
  issue (.cpCancel f) s (fun c t =>
    match selector (c.s c.vw.b) with
    | none => c.illegal 2
    | some (ld, e) =>
      let d := (t.physDie c.g.slice ld).getD 4
      if !(decide (d < 4) && t.ceNamed c.g.slice d e) then c.priv
      else match t.copyFrom c.g d e c.addr1 with
      | some j =>
        if j.stopped.isNone && j.cancel.isNone && decide (j.next < j.size) then
          .ok (c.giveSp (t.modCopy d e j.id (fun j => { j with cancel := some (c.gid, t.now c.g.core, c.g.nextNum) })) c.vw.d 1)
        else .ok (c.giveSp t c.vw.d 0)
      | none => .ok (c.giveSp t c.vw.d 0))

/-- A cancel leaves its partition: it is 64 cycles old, and the port of the copy's arrival object has accepted every earlier access
of its group (R105, R399). -/
def State.cancelMay (s : State) (j : CopyJob) : Bool :=
  match j.cancel with
  | none => false
  | some (gid, cyc, num) =>
    match Tbl.find s.groups gid with
    | none => true
    | some g => !s.struck g.core && decide (cyc + 64 ≤ s.now g.core) &&
        g.portsFree num ((s.arriveAt j.slice j.arrive).map (·.1)).toList

/-- The cancels of a die's copies that leave their partitions stop them with CAUSE CANCELLED (R370). -/
def State.flushCancels (s : State) (d : Nat) : State :=
  (s.die d).engines.foldl (fun s e => e.2.jobs.foldl (fun s j =>
    if s.cancelMay j then
      (if j.owed then s.writePromise d e.1 j else s).stopCopy d e.1 { j with owed := false, cancel := none } 7 0 0
    else s) s) s

/-! ## Collectives (R51, R88, R371 to R373, R400, R410) -/

/-- Bytes accepted by a collective engine for a slice and not yet landed. -/
def Die.collOwed (d : Die) (t : Nat) : Nat :=
  ((d.colls.filter (fun j => j.slice == t)).map (fun j => (j.total - j.tiles.length) * j.tileSize)).foldr (· + ·) 0

/-- The member table can be read in device memory (R410); else the CAUSE of the stop. -/
def State.collRange (s : State) (t d a n : Nat) (acc : Access) : Option Nat :=
  ((List.range (n / 65536 + 2)).map (fun k => min (a / 65536 * 65536 + 65536 * k) (a + n - 1))).findSome? (fun x =>
    match s.engineLoc t d (max x a) acc with
    | .error f => some (if f.cause = 10 then 3 else 4)
    | .ok (e, _) => if e.target = 0 then none else some 4)

/-- n bytes of a slice's device memory. -/
def State.collRead (s : State) (t d a n : Nat) : List Byte :=
  (List.range n).map (fun i => match s.engineLoc t d (a + i) .load with | .ok (_, pa) => s.memByte pa | .error _ => 0)

/-- Device addresses of a range, one a byte. -/
def State.collPlaces (s : State) (t d a n : Nat) : List Nat :=
  (List.range n).filterMap (fun i => match s.engineLoc t d (a + i) .load with | .ok (_, pa) => some pa | .error _ => none)

/-- A slice of this module as a member of a collective. -/
def selfName (t : Nat) : Nat := Config.modid.toNat * 32 + t

/-- The members of MLIST as the routing table resolves them, at the collective's acceptance (R41, R42, R410); RANK's own entry is
the slice itself. None while MLIST cannot be read. -/
def State.collNames (s : State) (d : Nat) (j : CollJob) : List (Option Nat) :=
  let at_ := field j.image 0x38 8
  if (s.collRange j.slice d at_ (2 * j.nmem) .load).isSome then []
  else (List.range j.nmem).map (fun k =>
    if k = j.rank then some (selfName j.slice)
    else
      let peer := ofLe (s.collRead j.slice d (at_ + 2 * k) 2)
      if peer < 1024 then (s.route j.slice peer).map (fun r => r.1 * 32 + r.2) else none)

/-- A collective engine accepts a collective. It is counted, for each member that it names, among those of the slice (R410). One that
is taken again keeps its members and its numbers (R376). -/
def State.acceptColl (s : State) (d : Nat) (j : CollJob) : State × Nat :=
  let id := s.nextJob
  let names := if j.names.isEmpty then s.collNames d j else []
  let bad := (s.collPlaces j.slice d (field j.image 0x38 8) (2 * j.nmem)).find? s.poisoned
  let seq := (s.slice j.slice).collSeq
  let j0 := { j with id := id, accepted := s.cycle, lDie := s.logDie j.slice d }
  let j1 := if j.names.isEmpty then
      { j0 with names := names, ords := names.map (fun n => match n with | some m => Tbl.get seq 0 m | none => 0) }
    else j0
  let pr := promiseOf s.cycle ((s.die d).collOwed j.slice) (j.bytes * (j.nmem - 1))
  let s1 := ({ s with nextJob := id + 1 } : State).modDie d (fun x => { x with colls := x.colls ++ [j1] })
  (if names.isEmpty then s1
   else s1.modSlice j.slice (fun x =>
     { x with
       consumed := (bad.map (· / 65536)).orElse (fun _ => x.consumed),
       collSeq := names.foldl (fun q n => match n with | some m => Tbl.put q m (Tbl.get q 0 m + 1) | none => q) x.collSeq }), pr)

/-- Position of a tile in the result (R400, R410). -/
def CollJob.dstOff (j : CollJob) (member k : Nat) : Nat := (if j.kind = 1 then member * j.bytes else 0) + k * j.tileSize

/-- Reduce one word of every member (R47, R51). -/
def redTile (red : Nat) (l : List Nat) : Nat :=
  match red with
  | 1 => memberSum f32 l
  | 2 => memberSum bf16 (l.map (· % 65536)) + 65536 * memberSum bf16 (l.map (· / 65536))
  | _ => memberMax l

/-- Reduce tiles word by word. -/
def reduceTiles (red n : Nat) (ts : List (List Byte)) : List Byte :=
  (List.range (n / 4)).flatMap (fun i => leBytes 4 (redTile red (ts.map (fun t => field t (4 * i) 4))))

/-- The tile is one that may land next: tiles of one member land in ascending order (R400). -/
def CollJob.tileDue (j : CollJob) (member k : Nat) : Bool :=
  decide (k < j.bytes / j.tileSize) && decide (member < j.nmem) && (j.kind == 1 || member == j.rank) &&
    (j.tiles.filter (fun x => x.1 == member)).length == k

/-- Offset in a member's contribution of the bytes that tile k takes from it at the member of a rank (R400, R410). -/
def CollJob.partOff (j : CollJob) (rank k : Nat) : Nat := (if j.kind = 1 then 0 else rank * j.bytes) + k * j.tileSize

/-- The tile of the contribution at an offset has been released, where signals gate it (R371). -/
def CollJob.opens (j : CollJob) (off : Nat) : Bool := !j.gated || decide (off / j.tileSize < j.released)

/-- The collective engine of a die, by its number among the die's engines (R109). -/
def collEngine : Nat := 8

/-- What a member contributes to a tile: its bytes, nothing yet, a failure that stops a collective on a die with a cause, or
poison that a slice consumes. -/
inductive Part where
  | here (l : List Byte)
  | missing
  | broken (die : Nat) (j : CollJob) (cause : Nat)
  | poison (slice pa : Nat)
  deriving DecidableEq, Repr

/-- n bytes of the contribution of a collective of this module, which its own engine reads (R223, R410). -/
def State.supplied (s : State) (d : Nat) (j : CollJob) (off : Nat) : Part :=
  if !j.opens off then .missing
  else
    let a := field j.image 8 8 + off
    match s.collRange j.slice d a j.tileSize .load with
    | some c => .broken d j c
    | none =>
      let pas := s.collPlaces j.slice d a j.tileSize
      match pas.find? s.poisoned with
      | some pa => .poison j.slice pa
      | none => .here (pas.map s.memByte)

/-- A member of a collective is a slice of this module other than the collective's own. -/
def CollJob.localMember (j : CollJob) (m : Nat) : Option Nat :=
  match j.names.getD m none with
  | some n => if m != j.rank && n / 32 == Config.modid.toNat then some (n % 32) else none
  | none => none

/-- The collective of a member within the module that belongs with this one, and its die (R410, pairing). -/
def State.partner (s : State) (j : CollJob) (m : Nat) : Option (Nat × CollJob) :=
  match j.localMember m with
  | none => none
  | some t => s.dies.findSome? (fun e => (e.2.colls.find? (fun k => k.id != j.id && k.slice == t &&
      ((k.names.zip k.ords).any (fun n => n.1 == some (selfName j.slice) && n.2 == j.ords.getD m 0)))).map (fun k => (e.1, k)))

/-- Packets that belong together agree in KIND, RED, TILE, BYTES and NMEM and in their members, each at its RANK (R410). -/
def CollJob.agrees (j k : CollJob) (m : Nat) : Bool :=
  j.kind == k.kind && j.red == k.red && j.tileSize == k.tileSize && j.bytes == k.bytes && j.nmem == k.nmem && k.rank == m &&
    j.names == k.names

/-- The collective may act now: its engine serves it, its form may act, its packet may start. -/
def State.collMay (s : State) (d : Nat) (j : CollJob) : Bool :=
  !((s.die d).engine collEngine).offline && !(s.slice j.slice).engStop && !s.stopsFor j.gid &&
    s.engineMay j.gid (s.enginePorts j.slice j.image) &&
    (match j.queue with | some k => s.pktMay j.slice k j.pkt | none => true)

/-- The contribution of a member to a tile. A partner within the module gives its own once its engine may act for it (R85, R371). -/
def State.partOf (s : State) (d : Nat) (j : CollJob) (t : CollTile) (m : Nat) : Part :=
  let off := j.partOff j.rank t.index
  if m = j.rank then s.supplied d j off
  else match j.localMember m with
    | some _ =>
      (match s.partner j m with
       | some (d2, k) => if s.collMay d2 k then s.supplied d2 k off else .missing
       | none => (match Tbl.find j.inbox m with | some l => .here (padTo j.tileSize (l.drop (t.index * j.tileSize))) | none => .missing))
    | none => (match Tbl.find t.remote m with | some l => .here (padTo j.tileSize l) | none => .missing)

/-- The members that contribute to a tile, in order (R51, R410). -/
def CollJob.givers (j : CollJob) (t : CollTile) : List Nat := if j.kind = 1 then [t.member] else List.range j.nmem

/-- The first of some contributions that is not there, or all their bytes. -/
def gatherParts : List Part → Except Part (List (List Byte))
  | [] => .ok []
  | .here l :: r => (match gatherParts r with | .ok x => .ok (l :: x) | .error e => .error e)
  | p :: _ => .error p

/-- The members of other modules to which the local contribution to a tile has still to be sent, before the member's own tile lands
(R44, R99; log 50). -/
def CollJob.unsent (j : CollJob) (t : CollTile) : List Nat :=
  if t.member != j.rank then []
  else (List.range j.nmem).filter (fun m => m != j.rank && (j.localMember m).isNone && !j.sent.contains (t.index, m))

/-- Every chunk of the local contribution to a tile has been released (R371). -/
def CollJob.opened (j : CollJob) (t : CollTile) : Bool :=
  t.member != j.rank || (List.range j.nmem).all (fun m => j.opens (j.partOff m t.index))

/-- Write a result tile at a device or scratchpad destination, or say why the collective stops; poison that it consumes in
place of a cause (R101). A tile that leaves the global window without ARRIVE, or the scratchpad window, lies outside every range held
by a workgroup (R400). -/
def State.collWrite (s : State) (d : Nat) (j : CollJob) (a : Nat) (bs : List Byte) : Except (Nat ⊕ Nat) State :=
  if !inGlob a bs.length then
    match (if windowOf a = .spad && nbit j.arrive 31 then s.engineSpad j.slice j.arrive a else none) with
    | none => .error (.inl 8)
    | some (c, o) =>
      if !s.heldRange j.slice c o bs.length then .error (.inl 8)
      else if s.spadCut c o bs.length then .error (.inr 0)
      else .ok (s.setSpad c o bs)
  else
    match s.collRange j.slice d a bs.length .store with
    | some c => .error (.inl c)
    | none => .ok ((s.engineWrite j.slice d a bs).getD s)

/-- The places of a tile's bytes on a die meet a REKEY (R66). -/
def State.tileBusy (s : State) (d : Nat) (j : CollJob) (t : CollTile) : Bool :=
  [field j.image 8 8 + j.partOff j.rank t.index, field j.image 16 8 + j.dstOff t.member t.index].any (fun a =>
    windowOf a == .glob && (List.range (j.tileSize / 65536 + 2)).any (fun k =>
      match s.engineLoc j.slice d (min (a / 65536 * 65536 + 65536 * k) (a + j.tileSize - 1) |> max a) .load with
      | .ok (e, pa) => e.target == 0 && s.frameBusy j.slice { loc := .home pa 2 }
      | .error _ => false))

/-- Why a collective stops before a tile: MLIST cannot be read (R410), a routing entry is invalid (R42), or a partner within the
module disagrees (R410), which then stops as well. -/
def State.collStops (s : State) (d : Nat) (j : CollJob) : Option (Nat × Nat × List (Nat × CollJob)) :=
  match s.collRange j.slice d (field j.image 0x38 8) (2 * j.nmem) .load with
  | some c => some (c, 0, [])
  | none =>
    if j.names.any (·.isNone) then some (5, 1, [])
    else
      match ((List.range j.nmem).filterMap (fun m => (s.partner j m).map (fun p => (m, p)))).filter (fun x => !j.agrees x.2.2 x.1) with
      | [] => none
      | l => some (8, 0, l.map (·.2))

/-- What a completed collective leaves to the members within the module that have still to take it (R410): each with its die, or why
the contribution cannot be read. -/
def State.leftParts (s : State) (d : Nat) (j : CollJob) : Except Part (List (Nat × CollJob × List Byte)) :=
  (List.range j.nmem).foldr (fun m r =>
    match s.partner j m, r with
    | none, r => r
    | some _, .error p => .error p
    | some (d2, k), .ok l =>
      let a := field j.image 8 8 + (if j.kind = 1 then 0 else m * j.bytes)
      match s.collRange j.slice d a j.bytes .load with
      | some c => .error (.broken d j c)
      | none =>
        match (s.collPlaces j.slice d a j.bytes).find? s.poisoned with
        | some pa => .error (.poison j.slice pa)
        | none => .ok ((d2, k, s.collRead j.slice d a j.bytes) :: l)) (.ok [])

/-- Leave them. -/
def State.leaveParts (s : State) (j : CollJob) (l : List (Nat × CollJob × List Byte)) : State :=
  l.foldl (fun s p => s.modDie p.1 (fun x => { x with colls := x.colls.map (fun (c : CollJob) =>
    if c.id == p.2.1.id then { c with inbox := Tbl.put c.inbox j.rank p.2.2 } else c) })) s

/-- A tile is down: the arrival object and PROG count it, and the collective completes with its last (R51, R97, R224). -/
def State.tileDown (s : State) (d : Nat) (j : CollJob) (t : CollTile) : State :=
  let n := j.tileSize
  let j1 := { j with tiles := j.tiles ++ [(t.member, t.index)] }
  let s1 := ((s.modDie d (fun x => { x with colls := x.colls.map (fun k => if k.id == j.id then j1 else k) })).unitDone d
    collEngine).modArrive j.slice j.arrive true (·.arrive (-(n : Int)))
  let s2 := match j.gid with
    | some (gid, e) => s1.modEntry gid e (fun e =>
        { e with prog := BitVec.ofNat 64 (j1.tiles.length * n), got := Tbl.put e.got (t.member * 4294967296 + t.index) 1 })
    | none => s1
  if j1.tiles.length = j1.total then
    (match s2.leftParts d j1 with
     | .ok l => (s2.leaveParts j1 l).finishColl d j1
     | .error (.broken _ _ c) => s2.stopColl d j1 c 0
     | .error (.poison sl pa) => s2.consumePoison sl pa
     | .error _ => s2)
  else s2

/-- A collective of a die, changed. -/
def State.modColl (s : State) (d id : Nat) (f : CollJob → CollJob) : State :=
  s.modDie d (fun x => { x with colls := x.colls.map (fun j => if j.id == id then f j else j) })

/-- Send the local contribution to a tile to the members of other modules, each copy when the meter covers it (R44); the first that
cannot be read, or that its gate holds back, ends the turn. -/
def State.sendTiles (d id : Nat) (t : CollTile) : List Nat → State → Except Part State
  | [], s => .ok s
  | m :: r, s =>
    match (s.die d).colls.find? (fun j => j.id == id) with
    | none => .error .missing
    | some j =>
      match s.supplied d j (j.partOff m t.index) with
      | .here _ =>
        let cost := Config.packetBytes j.tileSize
        let have_ := Tbl.get (s.slice j.slice).meter 0 0
        if have_ < cost then .ok s
        else State.sendTiles d id t r ((((s.modSlice j.slice (fun x => { x with meter := Tbl.set x.meter 0 0 (have_ - cost) })).modColl d id
          (fun j => { j with sent := j.sent ++ [(t.index, m)] }))).pktStart j.slice j.queue j.pkt)
      | p => .error p

/-- A part that is not there ends the turn, or stops or kills (R101, R410). -/
def State.badPart (s : State) (p : Part) : State :=
  match p with
  | .broken d k c => s.stopColl d k c 0
  | .poison sl pa => s.consumePoison sl pa
  | _ => s

/-- The packets of the members within the module that give a part have started (R85). -/
def State.startGivers (s : State) (j : CollJob) (l : List Nat) : State :=
  l.foldl (fun s m => match s.partner j m with | some (_, k) => s.pktStart k.slice k.queue k.pkt | none => s) s

/-- Land a tile whose local contribution has been sent. -/
def State.putTile (s : State) (d : Nat) (j : CollJob) (t : CollTile) : State :=
  match gatherParts ((j.givers t).map (s.partOf d j t)) with
  | .error p => s.badPart p
  | .ok ls =>
    let bs := if j.kind = 1 then ls.headD [] else reduceTiles j.red j.tileSize ls
    match ((s.startGivers j (j.givers t)).pktStart j.slice j.queue j.pkt).collWrite d j
        (field j.image 16 8 + j.dstOff t.member t.index) bs with
    | .error (.inl c) => s.stopColl d j c 0
    | .error (.inr pa) => s.consumePoison j.slice pa
    | .ok s1 => s1.tileDown d j t

/-- A tile lands (R51, R97, R224, R400, R410), once the local contribution to it has been sent. A slice whose meter cannot cover it loses
its turn (R99). -/
def State.landTile (s : State) (d id : Nat) (t : CollTile) : State :=
  match (s.die d).colls.find? (fun j => j.id == id) with
  | none => s
  | some j =>
    if !s.collMay d j || s.tileBusy d j t then s
    else match t.error with
      | some (c, nak) => s.stopColl d j c nak
      | none =>
        match s.collStops d j with
        | some (c, nak, l) => l.foldl (fun s p => s.stopColl p.1 p.2 c nak) (s.stopColl d j c nak)
        | none =>
          if j.total = 0 then s.finishColl d j
          else if !j.tileDue t.member t.index then s
          else match State.sendTiles d id t (j.unsent t) s with
            | .error p => s.badPart p
            | .ok s1 =>
              match (s1.die d).colls.find? (fun j => j.id == id) with
              | none => s1
              | some j1 => if !(j1.unsent t).isEmpty || !j1.opened t then s1 else s1.putTile d j1 t

/-- The engine has something to do for a tile without another module: a copy of the local contribution to send, every contribution
there, or a stop to make. -/
def State.tileReady (s : State) (d : Nat) (j : CollJob) (t : CollTile) : Bool :=
  s.collMay d j && !s.tileBusy d j t &&
  ((s.collStops d j).isSome || j.total == 0 ||
    (j.tileDue t.member t.index &&
      (match j.unsent t with
       | m :: _ =>
         decide (Config.packetBytes j.tileSize ≤ Tbl.get (s.slice j.slice).meter 0 0) && s.supplied d j (j.partOff m t.index) != .missing
       | [] => j.opened t && ((j.givers t).map (s.partOf d j t)).all (· != .missing))))

/-- The tile that a collective lands next without another module. -/
def State.nextTile (s : State) (d : Nat) (j : CollJob) : Option CollTile :=
  ((if j.kind = 1 then List.range j.nmem else [j.rank]).map (fun m =>
    ({ member := m, index := (j.tiles.filter (fun x => x.1 == m)).length, remote := [], error := none } : CollTile))).find?
      (s.tileReady d j)

/-- A collective has begun: a tile has landed, or part of its contribution has been sent. -/
def CollJob.begun (j : CollJob) : Bool := !j.tiles.isEmpty || !j.sent.isEmpty

/-- A direct collective that its form still holds, while nothing else stops its engine: it goes ahead of later direct ones, and of queue
packets not yet started (R371). -/
def State.collHeld (s : State) (j : CollJob) : Bool :=
  j.queue.isNone && !s.engineMay j.gid (s.enginePorts j.slice j.image) && !s.stopsFor j.gid

/-- The collectives of a slice on a die in the order of its turn: direct ones as accepted, up to the first that is held; then those
of queues, of the highest PRIO first and round robin after the queue last served, one not begun only while no direct one is held (R99,
R371). -/
def State.collOrder (s : State) (d t : Nat) : List CollJob :=
  let x := s.slice t
  let js := (s.die d).colls.filter (fun j => j.slice == t)
  let direct := js.filter (·.queue.isNone)
  let queued := js.filter (fun j => j.queue.isSome && (j.begun || !direct.any s.collHeld))
  let last := Tbl.get (s.die d).turn 0 (48 + t)
  let turns := (List.range 64).map (fun i => (last + 1 + i) % 64)
  direct.takeWhile (fun j => !s.collHeld j) ++
    ((List.range 16).map (15 - ·)).flatMap (fun p => turns.flatMap (fun k =>
      queued.filter (fun j => j.queue == some k && (Tbl.get x.queues {} k).prio == p)))

/-- The turn of a die's collective engine: slices with a tile ready in round robin after the one last served (R99). -/
def State.tileTurn (s : State) (d : Nat) : Option (CollJob × CollTile) :=
  if (s.die d).colls.isEmpty then none
  else
    let last := Tbl.get (s.die d).turn 16 15
    ((List.range 17).map (fun i => (last + 1 + i) % 17)).findSome? (fun t =>
      (s.collOrder d t).findSome? (fun j => (s.nextTile d j).map (fun x => (j, x))))

/-- COLL_TILE_LAND (R51). -/
def execCollTileLand (die id : Nat) (t : CollTile) (s : State) : Host.Outcome State Fault Refusal := .next (s.landTile die id t)

/-- COLL_ISSUE (R371). -/
def execCollIssue (f : RG) (s : State) : Host.Outcome State Fault Refusal :=
  issue (.collIssue f) s (fun c t =>
    let d := dieOf c.g.core
    c.readBlock t true 64 (fun accs b =>
      if t.imageBad c.g.slice d 4 b then c.illegal 2
      else match t.objFault c.g.slice d b with
        | some x => .trap (c.objTrap x)
        | none =>
          let id := freePlace c.g.log
          let r := (t.touch c.g accs).acceptColl d
            { slice := c.g.slice, ctx := c.g.ctx, gid := some (c.gid, id), image := b, imageAt := c.addr1,
              gated := field b 0x26 1 == 1 }
          let t1 := c.enter r.1 11 1 c.mask (c.imageAcc 0)
          .ok (c.giveSp (t1.modGroup c.gid (fun g => g.modEntry id (fun e =>
            { e with img := b, promise := BitVec.ofNat 64 r.2 }))) c.vw.d (BitVec.ofNat 64 r.2))))

/-- COLL_WAIT (R373). -/
def execCollWait (f : RG) (s : State) : Host.Outcome State Fault Refusal :=
  issue (.collWait f) s (fun c t => c.await t { insn := .collWait f, tgt := c.addr1.toNat } false)

/-- COLL_TEST (R373). -/
def execCollTest (f : RG) (s : State) : Host.Outcome State Fault Refusal :=
  issue (.collTest f) s (fun c t =>
    let held := c.g.log.any (fun e => e.kind == 11 && isColl e.instr && e.acc.any (fun a => a.ea == c.addr1))
    .ok (c.giveP t c.vw.d (fun _ => !held)))

/-- COLL_SIGNAL (R372). -/
def execCollSignal (f : RG) (s : State) : Host.Outcome State Fault Refusal :=
  issue (.collSignal f) s (fun c t => .ok (c.enter t 11 1 c.mask (c.imageAcc (c.s c.vw.b).toNat)))

/-- A coll.signal is performed: the earliest accepted gated collective of the slice on the die with the image address takes
the count; its watermark keeps a replay from adding twice (R183, R372). -/
def State.signalStep (s : State) (gid : Nat) (e : Entry) : State :=
  let g := s.group gid
  let d := dieOf g.core
  match e.acc with
  | [] => s.freeEntry gid e.id
  | a :: _ =>
    let s1 := if (s.window? ownModule g.slice e.wmark.toNat 0).isSome then s
      else
        let hit := (s.die d).colls.find? (fun j => j.slice == g.slice && j.gated && j.imageAt == a.ea)
        let s2 := match hit with
          | none => s
          | some j => s.modDie d (fun x => { x with colls := x.colls.map (fun (k : CollJob) =>
              if k.id == j.id then { k with released := k.released + a.v } else k) })
        s2.record ownModule g.slice e.wmark.toNat 0 0
    (s1.freeEntry gid e.id).unrecord g.slice e.wmark.toNat

/-! ## Replay of a stopped copy or collective (R184, R368) -/

/-- An engine takes a failed entry again: a copy from the first byte that has not landed (R368), a collective at its recorded tile, with
its numbers and its release count (R376). -/
def State.reissue (s : State) (gid id : Nat) : State :=
  match Tbl.find s.groups gid with
  | none => s
  | some g =>
    match g.entry? id with
    | none => s
    | some e =>
      let s1 := s.modEntry gid id (fun e => { e with failed := false, cause := 0, info := 0, failMask := 0 })
      if e.kind = 9 || e.kind = 10 then
        let sel := (e.acc.map (·.v)).headD 0
        let d := (s.physDie g.slice (sel / 8)).getD 0
        let j : CopyJob :=
          { slice := g.slice, ctx := g.ctx, gid := some (gid, id), image := e.img,
            imageAt := ((e.acc.map (·.ea)).headD 0), skip := e.got, landed := e.prog.toNat }
        (s1.acceptCopy d (sel % 8) { j with next := j.past 0 }).1
      else if e.kind = 11 && isColl e.instr then
        let j : CollJob :=
        { slice := g.slice, ctx := g.ctx, gid := some (gid, id), image := e.img,
          imageAt := ((e.acc.map (·.ea)).headD 0), gated := field e.img 0x26 1 == 1, released := e.opened, names := e.names,
          ords := e.ords, tiles := e.got.map (fun x => (x.1 / 4294967296, x.1 % 4294967296)) }
        (s1.acceptColl (dieOf g.core) j).1
      else s1

end Sys2Proof.Machine
end

