-- ==== Sys2Proof/Machine/Splits.lean ====
section
/-! DEFINITION. Splits (R161 to R165): division, parking, merging, yielding and exit; the return from a handler (R171). -/

namespace Sys2Proof.Machine

/-! ## Places of a split -/

/-- The next number in the WAIT list. -/
def Group.nextQueued (g : Group) : Nat := (g.splits.map (·.queued)).foldr max 0 + 1

/-- A split enters RUN, or the tail of the WAIT list when four are in RUN or SLEEP already (R161, R162; log 21). -/
def Group.enterRun (g : Group) (born : Nat) : Group :=
  let n := ((g.splits.filter (fun p => p.born != born)).filter (fun p => p.st == .run || p.st == .sleep)).length
  let q := g.nextQueued
  g.modSplit born (fun p => if n < 4 then { p with st := .run } else { p with st := .wait, queued := q })

/-- Drop a split. -/
def Group.dropSplit (g : Group) (born : Nat) : Group := { g with splits := g.splits.filter (fun p => p.born != born) }

/-- Change a group, then let the head of the WAIT list take a free place (R161). -/
def State.refill (s : State) (gid : Nat) : State := s.modGroup gid (Group.fillRun 32)

/-! ## Merging (R163, R164, R382) -/

/-- The merge set of a parked split (R164). -/
def Group.mergeSet (g : Group) (p : Split) : Word :=
  match p.stack with
  | [] => g.live
  | m :: _ => m &&& g.live

/-- The parked splits with which a parked split may merge. -/
def Group.parkedWith (g : Group) (p : Split) : List Split :=
  g.splits.filter (fun q => q.st == .park && q.resync == p.resync && q.pc == p.pc && (p.resync || q.stack == p.stack))

/-- The merge of a parked split is complete (R164, R382). -/
def Group.mergeReady (g : Group) (p : Split) : Bool :=
  let have_ := (g.parkedWith p).foldr (fun q m => q.lanes ||| m) 0
  let want := if p.resync then g.live else g.mergeSet p
  want != 0 && want &&& ~~~have_ == 0

/-- Merge the splits parked with p into one in RUN after the rcv or resync. -/
def Group.mergeParked (g : Group) (p : Split) : Group :=
  let ps := g.parkedWith p
  let old := (ps.map (·.born)).foldr min p.born
  let want := if p.resync then g.live else g.mergeSet p
  let held := ps.foldr (fun q m => q.held ||| m) 0
  let g1 := { g with splits := g.splits.filter (fun q => q.born == old || !(ps.any (fun r => r.born == q.born))) }
  (g1.modSplit old (fun q =>
    { q with mask := want &&& ~~~held, held := held, stack := if p.resync then [] else p.stack.drop 1, pc := p.pc + 4,
             resync := false, why := .awake, readyAt := (ps.map (·.readyAt)).foldr max q.readyAt })).enterRun old

/-- Complete every merge that is ready; n bounds their number. -/
def Group.mergeAll : Nat → Group → Group
  | 0, g => g
  | n + 1, g =>
    match g.splits.find? (fun p => p.st == .park && g.mergeReady p) with
    | none => g
    | some p => Group.mergeAll n (g.mergeParked p)

/-- Two splits in RUN with equal PCs and stacks, older first (R163). -/
def Group.runPair (g : Group) : Option (Split × Split) :=
  g.splits.findSome? (fun p =>
    if p.st != .run then none
    else (g.splits.find? (fun q => q.st == .run && q.pc == p.pc && q.stack == p.stack && decide (p.born < q.born))).map (fun q => (p, q)))

/-- Merge the splits in RUN that have met; the top of the stack is popped when it is covered (R163). -/
def Group.mergeRun : Nat → Group → Group
  | 0, g => g
  | n + 1, g =>
    match g.runPair with
    | none => g
    | some (p, q) =>
      let m := p.lanes ||| q.lanes
      let pop := match p.stack with | [] => false | t :: _ => m == t &&& g.live
      Group.mergeRun n ((g.modSplit p.born (fun x =>
        { x with mask := p.mask ||| q.mask, held := p.held ||| q.held, stack := if pop then x.stack.drop 1 else x.stack,
                 readyAt := max p.readyAt q.readyAt })).dropSplit q.born)

/-- Every live lane is parked and no merge can complete (R164). -/
def Group.stuck (g : Group) : Bool :=
  !g.splits.isEmpty && g.splits.all (fun p => p.st == .park) && !g.splits.any g.mergeReady

/-- The oldest parked split of a stuck group. -/
def Group.oldestPark (g : Group) : Option Split :=
  (g.splits.filter (fun p => p.st == .park)).foldl (fun b p =>
    match b with | none => some p | some q => if p.born < q.born then some p else b) none

/-- R164 applied to every parked split of a group. -/
def State.settleParked (s : State) (gid : Nat) : State :=
  let s1 := (s.modGroup gid (Group.mergeAll 32)).refill gid
  match Tbl.find s1.groups gid with
  | none => s1
  | some g =>
    if g.stuck then
      match g.oldestPark with
      | none => s1
      | some p => s1.takeTrap gid p.born { cause := 1, detail := 6, mask := p.mask, pc := p.pc, rpc := p.pc }
    else s1

/-- SPLIT_MERGE (R163). -/
def execSplitMerge (gid : Nat) (s : State) : Host.Outcome State Fault Refusal :=
  .next ((s.modGroup gid (Group.mergeRun 32)).settleParked gid)

/-! ## Division (R162) -/

/-- Divide a split: it keeps the taken lanes at the target, a new split takes the others at the next instruction. -/
def Group.divide (g : Group) (born made : Nat) (taken : Word) (target next : DWord) : Group :=
  match g.split? born with
  | none => g
  | some p =>
    let st := p.mask :: p.stack
    let n := g.nextBorn
    let g1 := g.modSplit born (fun p => { p with mask := p.mask &&& taken, stack := st, pc := target })
    let q := { p with born := n, made := made, mask := p.mask &&& ~~~taken, stack := st, pc := next, passed := 0, starve := 0, held := 0 }
    { g1 with splits := g1.splits ++ [if g1.busy < 4 then { q with st := .run } else { q with st := .wait, queued := g.nextQueued }],
              nextBorn := n + 1 }

/-! ## Entries whose lanes have all exited (R408) -/

/-- Free an entry and its watermark (R183). -/
def State.releaseEntry (s : State) (gid id : Nat) : State :=
  let g := s.group gid
  match g.entry? id with
  | none => s
  | some e =>
    let s1 := s.freeEntry gid id
    if e.cls = 1 then s1.unrecord g.slice e.wmark.toNat else s1

/-- Settle the entries that belong to no split any longer (R408). -/
def State.settleOrphans (s : State) (gid : Nat) : State :=
  ((s.group gid).log.filter (fun e => e.mask &&& (s.group gid).live == 0)).foldl (fun s e =>
    if e.failed then
      (if e.kind = 9 || e.kind = 10 || e.kind = 11 then s.releaseEntry gid e.id
       else if e.cause = 14 then s.startKill (s.group gid).slice 2 0
       else s.terminal gid (e.trap {}))
    else if e.complete then s.releaseEntry gid e.id
    else s) s

/-! ## The return from a handler (R171, R383, R386) -/

/-- DROP: the entry is freed and its destinations take undefined values in its lanes (R171; log 5). -/
def State.dropEntry (s : State) (gid id : Nat) : State :=
  match (s.group gid).entry? id with
  | none => s
  | some e =>
    (s.modGroup gid (fun g => (lanesOf e.mask).foldl (fun g l =>
      e.dst.foldl (fun g r =>
        if r < 64 then g.setV r l (Config.freeWord s.free r l)
        else if r < 96 then g.setS (r - 64) (Config.freeWord s.free r 0)
        else g) g) g)).releaseEntry gid id

/-- A matrix operation that was stopped with its workgroup, or failed, joins the array's queue again, from PROG (R184). -/
def State.mmaAgain (s : State) (gid : Nat) (e : Entry) : State :=
  let g := s.group gid
  let f := Fb.of e.img
  if !(e.kind = 12 && isMma e.instr) || e.complete || e.failed ||
      (s.core g.core).queue.any (fun o => o.gid == gid && o.ent == e.id) then s
  else
    let op : MmaOp :=
      { gid := gid, ent := e.id, acc := (mmaAccs e.instr).headD 0, cluster := f.cluster, cores := s.mmaCores g f,
        block := e.img }
    op.cores.foldl (fun s k => s.modCore k (fun x => { x with queue := x.queue ++ [op] })) s

/-- Replay a failed entry for its live lanes, and free one that has none (R171, R184, R383): a copy, a collective or a matrix operation is submitted again, another operation is
performed again, and no new instruction of the group issues until it has been sent. -/
def State.replayFailed (s : State) (gid id : Nat) : State :=
  match (s.group gid).entry? id with
  | none => s
  | some e =>
    let live := (s.group gid).live
    let again : Entry := { e with failed := false, cause := 0, info := 0, failMask := 0, asked := 0, got := [],
                                  done := if e.one then e.done else e.done ||| (e.mask &&& ~~~live) }
    if e.mask &&& live == 0 || (!e.elsewhere && e.mask &&& ~~~e.done &&& live == 0) then s.releaseEntry gid id
    else
    if e.kind = 9 || e.kind = 10 || (e.kind = 11 && isColl e.instr) then s.reissue gid id
    else if e.kind = 12 && isMma e.instr then (s.modEntry gid id (fun _ => again)).mmaAgain gid again
    else (s.giveUp gid (fun q => q.ent == id && q.num == e.num)).modEntry gid id (fun _ => { again with replay := true })

/-- The failed entries of the split that trapped. -/
def Group.failedOf (g : Group) : List Entry := g.log.filter (fun e => e.failed && e.mask &&& g.trap.smask != 0)

/-- Splits that were held because they raised a cause during the handler go on (R170). -/
def Group.unstall (g : Group) : Group := { g with splits := g.splits.map (fun p => { p with stalled := false }) }

/-- The group leaves its handler: a split resumes at TRAP.RPC with the given lanes (R171). -/
def State.resumeAt (s : State) (gid born : Nat) (mask : Word) : State :=
  (s.modGroup gid (fun g =>
    { (g.modSplit born (fun p => { p with pc := g.trap.rpc &&& ~~~1, mask := mask, held := 0, st := .run, why := .awake })).unstall with
      inh := false, trap := { g.trap with ctl := 0 } })).settleParked gid

/-- A return from the handler for some lanes of its split (R171): DROP, replay, resumption. -/
def State.returnAs (s : State) (gid born : Nat) (mask : Word) : State :=
  let g := s.group gid
  let named := (g.trap.cause.toNat) / 2 ^ 26
  let s1 := if g.trap.ctl.getLsbD 0 then s.dropEntry gid named else s
  let s2 := (s1.group gid).failedOf.foldl (fun s e => s.replayFailed gid e.id) s1
  s2.resumeAt gid born mask

/-- The return from a handler (R171). -/
def State.returnFrom (s : State) (gid born : Nat) : State := s.returnAs gid born ((s.group gid).trap.smask &&& (s.group gid).live)

/-! ## Exit (R162, R383) -/

/-- Clear exited lanes from every mask of every stack. -/
def Group.clearStacks (g : Group) (lanes : Word) : Group :=
  { g with splits := g.splits.map (fun p => { p with stack := p.stack.map (fun m => m &&& ~~~lanes) }) }

/-- The lanes of a split leave the group. -/
def State.exitSplit (s : State) (gid born : Nat) (p : Split) : State :=
  let g := s.group gid
  let own := g.handling p
  let keep := p.held != 0
  let s1 := s.modGroup gid (fun g =>
    ((if keep then g.modSplit born (fun q => { q with mask := 0 }) else g.dropSplit born).clearStacks p.mask))
  let left := g.trap.smask &&& (s1.group gid).live
  let s2 :=
    if !own then s1
    else if left = 0 then
      ((s1.group gid).failedOf.foldl (fun s e => s.dropEntry gid e.id) s1).modGroup gid
        (fun g => { g.unstall with inh := false, trap := { g.trap with ctl := 0 } })
    else if keep then
      s1.returnAs gid born p.held
    else s1
  (s2.settleOrphans gid).settleParked gid

end Sys2Proof.Machine
end

