-- ==== Sys2Proof/Machine/Control.lean ====
section
/-! DEFINITION. The control forms (R377 to R396): branches, calls, reconvergence, exit, sleep, traps and returns, special
registers, counters, boost claims, predicates, no-ops and charts. -/

namespace Sys2Proof.Machine

/-! ## Branches, calls and jumps (R379 to R381) -/

/-- The target of a CB form: its address + 2 × OFFSET. -/
def Cx.target (c : Cx) : DWord := c.sp.pc + BitVec.ofInt 64 (2 * sext 16 c.vw.imm)

/-- The lanes in which the condition of a CB branch holds. -/
def Cx.cond (c : Cx) : Word := if c.vw.n then ~~~(c.p c.vw.p) else c.p c.vw.p

/-- The split moves to an address. -/
def Cx.goto (c : Cx) (t : State) (a : DWord) : Res := .ok (t.modSplit c.gid c.born (fun p => { p with pc := a }))

/-- BRA (R379). -/
def execBra (f : CB) (s : State) : Host.Outcome State Fault Refusal := issue (.bra f) s (fun c t => c.goto t c.target)

/-- BR_P (R379, R162). -/
def execBrP (f : CB) (s : State) : Host.Outcome State Fault Refusal :=
  issue (.brP f) s (fun c t =>
    let taken := c.mask &&& c.cond
    if taken = c.mask then c.goto t c.target
    else if taken = 0 then .ok t
    else if 8 ≤ c.sp.stack.length then c.illegal 5
    else .ok ({ t with made := t.made + 1 }.modGroup c.gid (fun g => g.divide c.born t.made taken c.target (c.sp.pc + 4))))

/-- BR_ANY (R379). -/
def execBrAny (f : CB) (s : State) : Host.Outcome State Fault Refusal :=
  issue (.brAny f) s (fun c t => if c.mask &&& c.cond = 0 then .ok t else c.goto t c.target)

/-- BR_ALL (R379). -/
def execBrAll (f : CB) (s : State) : Host.Outcome State Fault Refusal :=
  issue (.brAll f) s (fun c t => if c.mask &&& ~~~c.cond = 0 then c.goto t c.target else .ok t)

/-- CALL (R381). -/
def execCall (f : CB) (s : State) : Host.Outcome State Fault Refusal :=
  issue (.call f) s (fun c t => c.goto (c.writeSp t 30 (c.sp.pc + 4)) c.target)

/-- ret and jmp.r: an odd target raises MISALIGN (R381). -/
def Cx.jump (c : Cx) (t : State) (a : DWord) : Res :=
  if a.getLsbD 0 then .trap (c.early 4 c.mask 0 1 a) else c.goto t a

/-- RET (R381). -/
def execRet (f : RG) (s : State) : Host.Outcome State Fault Refusal := issue (.ret f) s (fun c t => c.jump t (c.sp2 30))

/-- JMP_R (R381). -/
def execJmpR (f : RG) (s : State) : Host.Outcome State Fault Refusal := issue (.jmpR f) s (fun c t => c.jump t (c.sp2 c.vw.a))

/-! ## Reconvergence (R382) -/

/-- Park the split at its instruction; R164 or the rule of resync is then applied. -/
def Cx.park (c : Cx) (t : State) (resync : Bool) : State :=
  (t.modSplit c.gid c.born (fun p => { p with st := .park, pc := c.sp.pc, resync := resync })).settleParked c.gid

/-- RCV (R382). -/
def execRcv (f : RG) (s : State) : Host.Outcome State Fault Refusal := issue (.rcv f) s (fun c t => .ok (c.park t false))

/-- YIELD (R382): with a split in WAIT, this one takes the tail and the head enters RUN. -/
def execYieldSplit (f : RG) (s : State) : Host.Outcome State Fault Refusal :=
  issue (.yieldSplit f) s (fun c t =>
    if c.g.waitHead.isNone then .ok t
    else .ok ((t.modGroup c.gid (fun g =>
      g.modSplit c.born (fun p => { p with st := .wait, queued := g.nextQueued }))).refill c.gid))

/-- RESYNC (R382). -/
def execResync (f : RG) (s : State) : Host.Outcome State Fault Refusal := issue (.resync f) s (fun c t => .ok (c.park t true))

/-- EXIT (R383). -/
def execExitLanes (f : RG) (s : State) : Host.Outcome State Fault Refusal :=
  issue (.exitLanes f) s (fun c t => .ok (t.exitSplit c.gid c.born c.sp))

/-! ## Sleeping (R384) -/

/-- Sleep until CYCLE reaches a value; one that has passed gives no sleep. -/
def Cx.sleepTo (c : Cx) (t : State) (d : Nat) : Res :=
  if d ≤ t.cycle then .ok t
  else .ok (t.modSplit c.gid c.born (fun p => { p with st := .sleep, why := .time, deadline := d, pc := c.sp.pc }))

/-- SLEEP_UNTIL (R384). -/
def execSleepUntil (f : RG) (s : State) : Host.Outcome State Fault Refusal :=
  issue (.sleepUntil f) s (fun c t => c.sleepTo t (c.sp2 c.vw.a).toNat)

/-- SLEEP_NS (R384). -/
def execSleepNs (f : RG) (s : State) : Host.Outcome State Fault Refusal :=
  issue (.sleepNs f) s (fun c t => c.sleepTo t (min (t.cycle + (c.sp2 c.vw.a).toNat) (2 ^ 64 - 1)))

/-- SLEEP_YIELD (R384): the deadline counts cycles of the die. -/
def execSleepYield (f : RG) (s : State) : Host.Outcome State Fault Refusal :=
  issue (.sleepYield f) s (fun c t =>
    .ok (t.modSplit c.gid c.born (fun p => { p with st := .sleep, why := .idle, deadline := c.now + 256, pc := c.sp.pc })))

/-! ## Software traps, breaks and return (R385 to R387) -/

/-- TRAP (R385): SWTRAP. -/
def execSwTrap (f : RG) (s : State) : Host.Outcome State Fault Refusal :=
  issue (.swTrap f) s (fun c _ => .trap (c.early 15 c.mask))

/-- BRK (R385): BREAK. -/
def execBrk (f : RG) (s : State) : Host.Outcome State Fault Refusal := issue (.brk f) s (fun c _ => .trap (c.early 16 c.mask))

/-- Live lanes of TRAP.SMASK that lie outside a split. -/
def Cx.outside (c : Cx) : Word := c.g.trap.smask &&& c.g.live &&& ~~~c.sp.lanes

/-- RFE (R386, R171). -/
def execRfe (f : RG) (s : State) : Host.Outcome State Fault Refusal :=
  issue (.rfe f) s (fun c t =>
    if !c.g.inh then c.illegal 7
    else if c.outside ≠ 0 then c.illegal 6
    else .ok (t.returnFrom c.gid c.born))

/-- MASK_RD (R387). -/
def execMaskRd (f : RG) (s : State) : Host.Outcome State Fault Refusal :=
  issue (.maskRd f) s (fun c t => .ok (c.writeS t c.vw.d c.mask))

/-- MASK_WR (R387). -/
def execMaskWr (f : RG) (s : State) : Host.Outcome State Fault Refusal :=
  issue (.maskWr f) s (fun c t =>
    let m := c.s c.vw.a &&& c.g.live &&& c.g.trap.smask
    if !c.g.handling c.sp then c.priv
    else if m = 0 || c.outside != 0 then c.illegal 2
    else .ok (t.modSplit c.gid c.born (fun p => { p with mask := m, held := p.lanes &&& ~~~m })))

/-! ## Special registers (R280, R281, R388) -/

/-- PTPTIME (R39): the last base, run on CYCLE at the rate correction in parts per 10^9, less a backward correction that is
slewed off at 500 ppm. -/
def State.ptpTime (s : State) : Nat :=
  let dt : Int := s.cycle - s.ptp.baseCycle
  (s.ptp.base + (dt * (1000000000 + s.ptp.rho) - min (s.ptp.slew * 1000000000) (dt * 500000)) / 1000000000).toNat

/-- HARVEST of a physical die: fuses and cores fused since (R12, R114). -/
def State.harvest (s : State) (d : Nat) : Nat :=
  ((List.range 36).map (fun k => if s.enabled (d * 36 + k) then 0 else 2 ^ k)).foldr (· + ·) 0

/-- An entry of L2PMAP as a slice sees it (R14). -/
def State.l2pmap (s : State) (t n : Nat) : Nat :=
  match s.physCore t (n / 36) (n % 36 / 4) (n % 4) with
  | none => 0
  | some c => 2 ^ 31 + (s.clusterCores c).length * 2 ^ 16 + dieOf c * 2 ^ 14 + clusterOf c * 2 ^ 10 + c % 4 * 2 ^ 8 + c % 36

/-- A workgroup coordinate (R116): 0 x, 1 y, 2 z. -/
def State.wgCoord (s : State) (g : Group) (k : Nat) : Nat :=
  let l := s.launchOf g
  let gx := field l.pkt 0x20 2
  let gy := field l.pkt 0x22 2
  if k = 0 then g.lin % max gx 1 else if k = 1 then g.lin / max gx 1 % max gy 1 else g.lin / max (gx * gy) 1

/-- The value of a special register for a group: everything but LANE, FMODE apart from its group (R388). -/
def State.srValue (s : State) (gid : Nat) (num : Nat) : Nat :=
  let g := s.group gid
  let c := s.core g.core
  match num with
  | 0x000 => s.cycle
  | 0x001 => s.ptpTime
  | 0x002 => (Tbl.get (s.slice g.slice).ctxs {} g.ctx).watch
  | 0x009 => g.num
  | 0x00A => s.wgCoord g 0
  | 0x00B => s.wgCoord g 1
  | 0x00C => s.wgCoord g 2
  | 0x010 => g.lCore
  | 0x011 => g.lCl
  | 0x012 => g.lDie
  | 0x013 => g.slice
  | 0x020 => c.mbkt / 256 * 65536 + s.bucket g.core g.part / 256
  | 0x021 => (s.die (dieOf g.core)).permits.toNat
  | 0x030 => g.fmode.toNat
  | 0x031 => g.spadBase.toNat
  | 0x032 => g.spadLimit.toNat
  | 0x033 => g.privWords.toNat
  | 0x040 => g.trap.fix.toNat
  | 0x041 => g.trap.cause.toNat
  | 0x042 => g.trap.mask.toNat
  | 0x043 => g.trap.smask.toNat
  | 0x044 => g.trap.pc.toNat
  | 0x045 => g.trap.rpc.toNat
  | 0x046 => g.trap.addr.toNat
  | 0x047 => g.trap.ctl.toNat
  | n =>
    if 0x80 ≤ n && n ≤ 0x83 then
      (match s.physDie g.slice (n - 0x80) with | some d => s.harvest d | none => 0xFFFFFFFFF)
    else s.l2pmap g.slice (n - 0x100)

/-- Number of the special register that a form names. -/
def Cx.srNum (c : Cx) : Nat := c.vw.a * 64 + c.vw.b

/-- SR_RD (R388). -/
def execSrRd (f : RG) (s : State) : Host.Outcome State Fault Refusal :=
  issue (.srRd f) s (fun c t =>
    let n := c.srNum
    if n = 8 then .ok (c.giveV t c.vw.d (fun l => BitVec.ofNat 32 l))
    else if srWide n then .ok (c.giveSp t c.vw.d (BitVec.ofNat 64 (t.srValue c.gid n)))
    else .ok (c.giveS t c.vw.d (BitVec.ofNat 32 (t.srValue c.gid n))))

/-- The bits of FMODE that software writes (R257). -/
def fmodeBits : Word := 0x00009F07

/-- SR_WR (R388). -/
def execSrWr (f : RG) (s : State) : Host.Outcome State Fault Refusal :=
  issue (.srWr f) s (fun c t =>
    let n := c.srNum
    if n = 0x30 then
      .ok (t.modGroup c.gid (fun g => { g with fmode := (g.fmode &&& ~~~fmodeBits) ||| (c.s c.vw.d &&& fmodeBits) }))
    else if n = 0x45 && c.g.handling c.sp then
      .ok (t.modGroup c.gid (fun g => { g with trap := { g.trap with rpc := c.sp2 c.vw.d } }))
    else if n = 0x47 && c.g.handling c.sp then
      .ok (t.modGroup c.gid (fun g => { g with trap := { g.trap with ctl := c.s c.vw.d &&& 1 } }))
    else c.priv)

/-! ## Counters and marks (R389) -/

/-- An event that this device has (R237). -/
def evPresent (e : Nat) : Bool := e ≤ 20 || e == 24 || (32 ≤ e && e ≤ 41)

/-- ALLOW permits an event to a slice (R240). -/
def Slice.allows (x : Slice) (e : Nat) : Bool := (Tbl.get x.allow 0xFFFFFFFF (e / 32)).getLsbD (e % 32)

/-- The leaves that a tree event sums (R237); any other event is its own. -/
def leavesOf (e : Nat) : List Nat :=
  match e with
  | 0 => [2, 3, 4, 6, 7, 8, 9, 11, 12, 13, 14, 15, 17, 18, 20]
  | 1 => [2, 3, 4]
  | 5 => [6, 7, 8, 9]
  | 10 => [11, 12, 13, 14, 15]
  | 16 => [17, 18]
  | 19 => [20]
  | _ => [e]

/-- An event's count in a table of leaf counts. -/
def countOf (t : Tbl Nat) (e : Nat) : Nat := ((leavesOf e).map (Tbl.get t 0)).foldr (· + ·) 0

/-- The events for which the spec gives a name and no rule of counting: cache and TLB hits and misses, and walks. What a core
counts of them in a cycle is a free value (R237; log 5). -/
def evNamed : List Nat := [32, 33, 34, 35, 36, 37]

/-- The count of an event on a core, as ctr.rd returns it. -/
def State.eventCount (s : State) (t core e : Nat) : Nat :=
  if !evPresent e || (32 ≤ e && !(s.slice t).allows e) then 0
  else countOf (s.core core).counts e

/-- CTR_RD (R389). -/
def execCtrRd (f : RG) (s : State) : Host.Outcome State Fault Refusal :=
  issue (.ctrRd f) s (fun c t => .ok (c.giveSp t c.vw.d (BitVec.ofNat 64 (t.eventCount c.g.slice c.g.core c.srNum))))

/-- Open or close the gate of an event on the issuing core (R389). -/
def Cx.gate (c : Cx) (t : State) (shut : Bool) : State :=
  let e := c.srNum
  if evPresent e && (t.slice c.g.slice).allows e then
    t.modCore c.g.core (fun k => { k with closed := Tbl.set k.closed false e shut })
  else t

/-- CTR_START (R389). -/
def execCtrStart (f : RG) (s : State) : Host.Outcome State Fault Refusal := issue (.ctrStart f) s (fun c t => .ok (c.gate t false))

/-- CTR_STOP (R389). -/
def execCtrStop (f : RG) (s : State) : Host.Outcome State Fault Refusal := issue (.ctrStop f) s (fun c t => .ok (c.gate t true))

/-- CTR_MARK (R389). -/
def execCtrMark (f : RG) (s : State) : Host.Outcome State Fault Refusal :=
  issue (.ctrMark f) s (fun c t =>
    .ok (if t.dbgEn c.g.slice then t.trace c.g 5 0 2 (c.g.splitNo c.born) (t.attributed c.g c.sp.pc.toNat) (c.s c.vw.d).toNat else t))

/-! ## Boost claims (R390) -/

/-- BOOST_CLAIM (R390). -/
def execBoostClaim (f : RG) (s : State) : Host.Outcome State Fault Refusal :=
  issue (.boostClaim f) s (fun c t => .ok ((t.modGroup c.gid (fun g => { g with claim := true })).watchClaims (dieOf c.g.core)))

/-- BOOST_RELEASE (R390). -/
def execBoostRelease (f : RG) (s : State) : Host.Outcome State Fault Refusal :=
  issue (.boostRelease f) s (fun c t => .ok ((t.modGroup c.gid (fun g => { g with claim := false })).watchClaims (dieOf c.g.core)))

/-- A cluster holds a claim of a slice (R390). -/
def State.clusterClaims (s : State) (d cl t : Nat) : Bool :=
  s.groups.any (fun e => e.2.claim && e.2.slice == t && e.2.place != .saved && dieOf e.2.core == d && clusterOf e.2.core == cl)

/-- BOOST_QUERY (R390). -/
def execBoostQuery (f : RG) (s : State) : Host.Outcome State Fault Refusal :=
  issue (.boostQuery f) s (fun c t =>
    let d := t.die (dieOf c.g.core)
    .ok (c.giveS t c.vw.d (BitVec.ofNat 32
      (b2n d.boosting * 2 ^ 31 + b2n d.fall * 2 ^ 30 + b2n (t.clusterClaims (dieOf c.g.core) (clusterOf c.g.core) c.g.slice) * 2 ^ 29 +
        b2n c.g.claim * 2 ^ 28 + d.curvf.toNat * 2 ^ 24 + d.permits.toNat * 2 ^ 16))))

/-! ## Predicates and no-ops (R391, R392) -/

/-- PAND (R391). -/
def execPand (f : RG) (s : State) : Host.Outcome State Fault Refusal :=
  issue (.pand f) s (fun c t => .ok (c.writeP t c.vw.d (fun l => (c.p c.vw.a &&& c.p c.vw.b).getLsbD l)))

/-- POR (R391). -/
def execPor (f : RG) (s : State) : Host.Outcome State Fault Refusal :=
  issue (.por f) s (fun c t => .ok (c.writeP t c.vw.d (fun l => (c.p c.vw.a ||| c.p c.vw.b).getLsbD l)))

/-- PXOR (R391). -/
def execPxor (f : RG) (s : State) : Host.Outcome State Fault Refusal :=
  issue (.pxor f) s (fun c t => .ok (c.writeP t c.vw.d (fun l => (c.p c.vw.a ^^^ c.p c.vw.b).getLsbD l)))

/-- PNOT (R391). -/
def execPnot (f : RG) (s : State) : Host.Outcome State Fault Refusal :=
  issue (.pnot f) s (fun c t => .ok (c.writeP t c.vw.d (fun l => !(c.p c.vw.a).getLsbD l)))

/-- NOP (R392). -/
def execNop (f : RG) (s : State) : Host.Outcome State Fault Refusal := issue (.nop f) s (fun _ t => .ok t)

/-- NOP_WAITSB (R392): it issues when its results are in, and changes nothing. -/
def execNopWaitsb (f : RG) (s : State) : Host.Outcome State Fault Refusal := issue (.nopWaitsb f) s (fun _ t => .ok t)

/-! ## Charts (R93, R393, R394) -/

/-- Address of entry i of a class of the group's chart table, none for an empty selection. -/
def State.chartAt (s : State) (g : Group) (cls i : Nat) : Option Nat :=
  let d := (s.launchOf g).desc
  let tab := field d 0x60 8
  if tab = 0 || field d 0x68 1 ≤ cls then none else some (tab + cls * 256 + i * 32)

/-- The entry that R93 selects among (index, CAP) of the valid ones. -/
def chartPick (n : Nat) (l : List (Nat × Nat)) : Option (Nat × Nat × Bool) :=
  let fit := l.filter (fun e => decide (n ≤ e.2))
  let best (better : Nat → Nat → Bool) (l : List (Nat × Nat)) : Option (Nat × Nat) :=
    l.foldl (fun b e => match b with | none => some e | some x => if better e.2 x.2 then some e else b) none
  match best (fun a b => decide (a < b)) fit with
  | some e => some (e.1, e.2, false)
  | none => (best (fun a b => decide (b < a)) l).map (fun e => (e.1, e.2, true))

/-- The trap of a chart table that cannot be read, at the address that fails (R393). -/
def Cx.chartTrap (c : Cx) (a : Nat) (f : WalkFail) : Res :=
  .trap { c.early f.cause c.mask 0 0 (BitVec.ofNat 64 a) with flags := b2n f.host, ipa := f.ipa }

/-- CHART_SEL (R393). -/
def execChartSel (f : RG) (s : State) : Host.Outcome State Fault Refusal :=
  issue (.chartSel f) s (fun c t =>
    let w := (c.s c.vw.a).toNat
    let n := (c.s c.vw.b).toNat
    if 16 ≤ w then c.illegal 2
    else match t.chartAt c.g w 0 with
      | none => .ok (c.giveSp t c.vw.d 0)
      | some a =>
        match t.tableBytes c.g a 256, t.tablePoison c.g a 256 with
        | .error e, _ => c.chartTrap (t.tableFails c.g a 256) e
        | .ok _, some pa => .ok (t.consumePoison c.g.slice pa)
        | .ok b, none =>
          let l := (List.range 8).filterMap (fun i =>
            if field b (32 * i + 4) 4 % 2 = 1 then some (i, field b (32 * i) 4) else none)
          .ok (c.giveSp t c.vw.d (BitVec.ofNat 64 (match chartPick n l with
            | none => 0
            | some (i, cap, ovf) => 2 ^ 31 + b2n ovf * 2 ^ 30 + w * 16 + i + 2 ^ 32 * cap))))

/-- CHART_RD (R394). -/
def execChartRd (f : RG) (s : State) : Host.Outcome State Fault Refusal :=
  issue (.chartRd f) s (fun c t =>
    let w := (c.s c.vw.a).toNat
    let k := (c.s c.vw.b).toNat
    if 7 < k || bits w 29 8 != 0 || nbit w 3 then c.illegal 2
    else if !nbit w 31 then .ok (c.giveS t c.vw.d 0)
    else match t.chartAt c.g (bits w 7 4) (bits w 2 0) with
      | none => .ok (c.giveS t c.vw.d 0)
      | some a =>
        match t.tableBytes c.g a 32, t.tablePoison c.g a 32 with
        | .error e, _ => c.chartTrap (t.tableFails c.g a 32) e
        | .ok _, some pa => .ok (t.consumePoison c.g.slice pa)
        | .ok b, none =>
          let entry := BitVec.ofNat 64 (field (t.launchOf c.g).desc 8 8) + BitVec.ofInt 64 (sext 32 (field b 8 4))
          .ok (c.giveS t c.vw.d (BitVec.ofNat 32 (
            if k = 0 then entry.toNat % 2 ^ 32 else if k = 1 then entry.toNat / 2 ^ 32
            else if k = 7 then field b 0 4 else field b (12 + 4 * (k - 2)) 4))))

end Sys2Proof.Machine
end

