-- ==== Sys2Proof/Machine/Couch.lean ====
section
/-! DEFINITION. The couch (R119 to R122): the bins of a die, the records that cont.emit sends, and the formation of
gathered groups. -/

namespace Sys2Proof.Machine

/-! ## Areas in memory (R409) -/

/-- The first byte of a range that an access of a slice cannot reach, with its cause. -/
def State.spanFail (s : State) (t d a n : Nat) (acc : Access) : Option (Nat × Nat) :=
  ((a :: (List.range (n / 65536 + 1)).map (fun k => (a / 65536 + 1 + k) * 65536)).filter (· < a + n)).findSome? (fun x =>
    if windowOf x != .glob then some (x, 9)
    else
      match s.engineLoc t d x acc with
      | .error f => some (x, f.cause)
      | .ok (e, _) => if e.target = 2 then some (x, 9) else none)

/-- A gathered group that its continuation area cannot hold aborts its launch's fault domain (R409). -/
def State.gatherLost (s : State) (t : Nat) (l : Launch) (entry : DWord) (f : Nat × Nat) : State :=
  let r : RecordData :=
    { type := 2, code := f.2, slice := t, ctx := l.ctx, va := f.1, pc := entry.toNat, data := f.2 + 63 * 2 ^ 26 }
  (s.postRecord (s.fnOf t) 1 r).abortDomain t l.ctx l.domain (counterCause f.2)

/-- Bytes of a waiting gathered group in the continuation area (R283). -/
def gatherBytes : Nat := 2112

/-- Address of a slot of a launch's continuation area. -/
def Launch.gatherAt (l : Launch) (k : Nat) : Nat := l.contBase + gatherBytes * k

/-- Form a bin into a gathered group, which frees the bin (R120); while the area is full it stays, marked. What the device
keeps in the area is its own (R283; log 5). -/
def State.formBin (s : State) (d k : Nat) : State :=
  match Tbl.find (s.die d).couch k with
  | none => s
  | some b =>
    let l := Tbl.get (s.slice b.slice).launches {} b.launch
    match (List.range l.contCount).find? (fun n => !l.gathered.any (fun g => g.slot == n)) with
    | none => s.modDie d (fun x => { x with couch := Tbl.put x.couch k { b with formed := true } })
    | some n =>
      let a := l.gatherAt n
      match s.spanFail b.slice d a gatherBytes .store with
      | some f => s.gatherLost b.slice l b.entry f
      | none =>
        let own := (List.range gatherBytes).map (fun i => Config.freeByte s.free (a + i))
        let s1 := ({ s with free := s.free + 1 } : State).engineWrite b.slice d a own |>.getD s
        (s1.modSlice b.slice (fun x => { x with launches := Tbl.upd x.launches b.launch (fun l =>
          { l with gathered := l.gathered ++ [{ die := d, entry := b.entry, records := b.records, slot := n }],
                   liveGathered := l.liveGathered + 1 }) })).modDie d
          (fun x => { x with couch := Tbl.del x.couch k })

/-- Form every bin of a launch on a die (R120, R375). -/
def State.formBins (s : State) (d t launch : Nat) : State :=
  ((s.die d).couch.filter (fun b => b.2.slice == t && b.2.launch == launch)).foldl (fun s b => s.formBin d b.1) s

/-- A phase.close or phase.cycle at scope die or wider forms the bins of its launch on the die (R120). -/
def State.closeForms (s : State) (gid sc : Nat) : State :=
  let g := s.group gid
  if 6 ≤ sc then s.formBins (dieOf g.core) g.slice g.launch else s

/-- Put one record into its bin; a bin of 32 records is formed (R119, R120). -/
def State.putRecord (s : State) (d k : Nat) (b : Bin) (r : List Word) : State :=
  let b1 := { b with records := b.records ++ [r] }
  let s1 := s.modDie d (fun x => { x with couch := Tbl.put x.couch k b1 })
  if b1.records.length = 32 then s1.formBin d k else s1

/-- Whether a waiting cont.flush still waits: for the strike horizon (R105), or for an earlier cont.emit of the group (R375). -/
def State.flushWaits (s : State) (g : Group) (f : Nat × Nat) : Bool :=
  g.log.any (fun e => e.kind == 13 && decide (e.num < f.1)) || decide (s.now g.core < f.2 + 64)

/-- Each waiting cont.flush whose time has come forms the bins (R375). -/
def State.flushCouch (s : State) (gid : Nat) : State :=
  let g := s.group gid
  let rest := g.flush.filter (s.flushWaits g)
  if rest.length = g.flush.length then s
  else (s.formBins (dieOf g.core) g.slice g.launch).modGroup gid (fun g => { g with flush := rest })

/-- The payload words of a lane's record. -/
def Entry.payload (e : Entry) (l : Nat) : List Word :=
  let k := ((lanesOf e.mask).filter (· < l)).length
  (List.range 14).map (fun i => BitVec.ofNat 32 (field e.img (k * 56 + 4 * i) 4))

/-- The couch takes the records of a cont.emit in ascending lane order, as far as it has room; an entry whose records
are all taken is freed (R119, R374). A lane that its watermark window holds is not taken twice (R183). -/
def State.couchStep (s : State) (gid : Nat) (e : Entry) : State :=
  let g := s.group gid
  let d := dieOf g.core
  let s1 := (lanesOf (e.mask &&& ~~~e.done)).foldl (fun s l =>
    let done := (List.range 32).all (fun k => decide (l ≤ k) || !e.mask.getLsbD k ||
      (match (s.group gid).entry? e.id with | some f => f.done.getLsbD k | none => true))
    if !done then s
    else if (s.window? ownModule g.slice e.wmark.toNat l).isSome then
      s.modEntry gid e.id (fun e => { e with done := e.done ||| maskOf [l] })
    else match s.binFor d g.slice g.launch e.addr with
      | none => s
      | some k =>
        let b := Tbl.get (s.die d).couch { slice := g.slice, launch := g.launch, entry := e.addr, since := (s.die d).cyc } k
        ((s.record ownModule g.slice e.wmark.toNat l 0).putRecord d k b (e.payload l)).modEntry gid e.id
          (fun e => { e with done := e.done ||| maskOf [l] })) s
  match (s1.group gid).entry? e.id with
  | none => s1
  | some f =>
    if f.complete then ((s1.freeEntry gid e.id).unrecord g.slice e.wmark.toNat).flushCouch gid else s1

/-- CONT_EMIT (R374). -/
def execContEmit (f : RG) (s : State) : Host.Outcome State Fault Refusal :=
  issue (.contEmit f) s (fun c t =>
    let entry := c.addr1
    let l := t.launchOf c.g
    if l.contBase = 0 then c.priv
    else if entry.toNat % 2 ≠ 0 then .trap (c.early 4 c.mask 0 1 entry)
    else if windowOf entry.toNat ≠ .glob then .trap (c.early 5 c.mask 0 0 entry)
    else if !t.binReady c.g entry then .hold
    else
      let words := c.lanes.flatMap (fun n => (List.range 14).flatMap (fun k => leBytes 4 (c.v (c.vw.d + k) n).toNat))
      .ok ((c.enter t 13 1 c.mask []).modGroup c.gid (fun g => g.modEntry (freePlace c.g.log) (fun e =>
        { e with img := words, addr := entry }))))

/-- CONT_FLUSH (R375). -/
def execContFlush (f : RG) (s : State) : Host.Outcome State Fault Refusal :=
  issue (.contFlush f) s (fun c t =>
    .ok (t.modGroup c.gid (fun g => { g with flush := g.flush ++ [(g.nextNum, c.now)] })))

/-- BIN_FORM (R120). -/
def execBinForm (die bin : Nat) (s : State) : Host.Outcome State Fault Refusal := .next (s.formBin die bin)

end Sys2Proof.Machine
end

