-- ==== Sys2Proof/Machine/Memory.lean ====
section
/-! DEFINITION. The loads, stores, prefetches, atomics, fences, phase operations, barriers, arrival and counter forms and the
fabric forms (R319 to R349). A form with a logbook entry is checked and recorded here; it is performed at
ENTRY_COMPLETE and I1_HOME_REQUEST. -/

namespace Sys2Proof.Machine

/-! ## Loads and stores -/

/-- A load of size bytes a lane (R323). -/
def Cx.load (c : Cx) (t : State) (size : Nat) : Res :=
  match c.checkLanes t {} size (c.moAddr size) with
  | .error r => .trap r
  | .ok accs => .ok (c.record t 1 0 accs)

/-- The datum of a lane from n registers, low word first (R324). -/
def Cx.datum (c : Cx) (r n l : Nat) : Nat :=
  (List.range n).foldr (fun k a => (c.v (r + k) l).toNat <<< (32 * k) + a) 0

/-- Give every piece its part of its lane's datum. -/
def withData (accs : List Acc) (f : Nat → Nat) : List Acc :=
  accs.map (fun a => { a with v := f a.lane / 2 ^ (8 * a.off) % 2 ^ (8 * a.size) })

/-- A store of size bytes a lane from n registers (R324). -/
def Cx.store (c : Cx) (t : State) (size n : Nat) : Res :=
  match c.checkLanes t { acc := .store } size (c.moAddr size) with
  | .error r => .trap r
  | .ok accs =>
    let k := storeEntry c.g accs
    .ok (c.record t k.1 k.2 (withData accs (c.datum c.vw.d n)))

/-- A scalar load (R326). -/
def Cx.loadS (c : Cx) (t : State) (size : Nat) : Res :=
  match c.checkOne t { priv := false } size (c.moAddr size 0) with
  | .error r => .trap r
  | .ok accs => .ok (c.record t 1 0 accs)

/-- A scalar store (R326). -/
def Cx.storeS (c : Cx) (t : State) (size : Nat) : Res :=
  match c.checkOne t { acc := .store, priv := false } size (c.moAddr size 0) with
  | .error r => .trap r
  | .ok accs =>
    let k := storeEntry c.g accs
    .ok (c.record t k.1 k.2 (withData accs (fun _ => (c.s c.vw.d).toNat)))

/-- LD_B (R323). -/
def execLdB (f : MO) (s : State) : Host.Outcome State Fault Refusal := issue (.ldB f) s (fun c t => c.load t 1)

/-- LD_BN (R323). -/
def execLdBn (f : MO) (s : State) : Host.Outcome State Fault Refusal := issue (.ldBn f) s (fun c t => c.load t 1)

/-- LD_H (R323). -/
def execLdH (f : MO) (s : State) : Host.Outcome State Fault Refusal := issue (.ldH f) s (fun c t => c.load t 2)

/-- LD_HN (R323). -/
def execLdHn (f : MO) (s : State) : Host.Outcome State Fault Refusal := issue (.ldHn f) s (fun c t => c.load t 2)

/-- LD_W (R323). -/
def execLdW (f : MO) (s : State) : Host.Outcome State Fault Refusal := issue (.ldW f) s (fun c t => c.load t 4)

/-- LD_D (R323). -/
def execLdD (f : MO) (s : State) : Host.Outcome State Fault Refusal := issue (.ldD f) s (fun c t => c.load t 8)

/-- LD_Q (R323). -/
def execLdQ (f : MO) (s : State) : Host.Outcome State Fault Refusal := issue (.ldQ f) s (fun c t => c.load t 16)

/-- ST_B (R324). -/
def execStB (f : MO) (s : State) : Host.Outcome State Fault Refusal := issue (.stB f) s (fun c t => c.store t 1 1)

/-- ST_H (R324). -/
def execStH (f : MO) (s : State) : Host.Outcome State Fault Refusal := issue (.stH f) s (fun c t => c.store t 2 1)

/-- ST_W (R324). -/
def execStW (f : MO) (s : State) : Host.Outcome State Fault Refusal := issue (.stW f) s (fun c t => c.store t 4 1)

/-- ST_D (R324). -/
def execStD (f : MO) (s : State) : Host.Outcome State Fault Refusal := issue (.stD f) s (fun c t => c.store t 8 2)

/-- ST_Q (R324). -/
def execStQ (f : MO) (s : State) : Host.Outcome State Fault Refusal := issue (.stQ f) s (fun c t => c.store t 16 4)

/-- LDS_W (R326). -/
def execLdsW (f : MO) (s : State) : Host.Outcome State Fault Refusal := issue (.ldsW f) s (fun c t => c.loadS t 4)

/-- LDS_D (R326). -/
def execLdsD (f : MO) (s : State) : Host.Outcome State Fault Refusal := issue (.ldsD f) s (fun c t => c.loadS t 8)

/-- STS_W (R326). -/
def execStsW (f : MO) (s : State) : Host.Outcome State Fault Refusal := issue (.stsW f) s (fun c t => c.storeS t 4)

/-- A prefetch of one lane: the line is filled into the L1 when nothing forbids it (R327). -/
def Cx.prefetch (c : Cx) (t : State) (l : Nat) : State :=
  let a := (c.moAddr 128 l).toNat / 128 * 128
  if windowOf (c.moAddr 128 l).toNat != .glob then t
  else match t.checkGlobal c.g { host := false, peer := false } a false with
    | .error _ => t
    | .ok (.cached va pa priv) =>
      let t1 := t.fillTlb c.g.slice c.g.core a
      if c.vw.d = 1 && t.evictOk c.g false { loc := .cached va pa priv } then t1.fillLine c.g.slice c.g.core c.gid va pa priv else t1
    | .ok _ => t.fillTlb c.g.slice c.g.core a

/-- PF (R327). -/
def execPf (f : MO) (s : State) : Host.Outcome State Fault Refusal :=
  issue (.pf f) s (fun c t => .ok (c.lanes.foldl (fun t l => c.prefetch t l) t))

/-! ## Atomics and reductions -/

/-- An atomic or reduction: host memory performs only some forms (R328 to R331). -/
def Cx.atomic (c : Cx) (t : State) (size : Nat) (host : Bool) (v v2 : Nat → Nat) : Res :=
  match c.checkLanes t { acc := .store, priv := false, host := host } size (fun l => c.addr c.vw.a l) with
  | .error r => .trap r
  | .ok accs => .ok (c.record t 6 1 (accs.map (fun a => { a with v := v a.lane, v2 := v2 a.lane })))

/-- ATOM_A (R328). -/
def execAtomA (f : MA) (s : State) : Host.Outcome State Fault Refusal :=
  issue (.atomA f) s (fun c t => c.atomic t 4 (c.vw.x == 0) (c.datum (c.vw.d + 1) 1) (fun _ => 0))

/-- ATOM_B (R328). -/
def execAtomB (f : MA) (s : State) : Host.Outcome State Fault Refusal :=
  issue (.atomB f) s (fun c t => c.atomic t 4 (c.vw.x == 3) (c.datum (c.vw.d + 1) 1) (fun _ => 0))

/-- ATOM_C (R328). -/
def execAtomC (f : MA) (s : State) : Host.Outcome State Fault Refusal :=
  issue (.atomC f) s (fun c t =>
    if c.vw.x = 3 then c.atomic t 8 true (c.datum (c.vw.d + 2) 2) (fun _ => 0)
    else c.atomic t 4 (c.vw.x == 0) (c.datum (c.vw.d + 1) 1) (if c.vw.x = 0 then c.datum (c.vw.d + 2) 1 else fun _ => 0))

/-- RED (R331). -/
def execRed (f : MA) (s : State) : Host.Outcome State Fault Refusal :=
  issue (.red f) s (fun c t => c.atomic t 4 (c.vw.x == 0) (c.datum c.vw.d 1) (fun _ => 0))

/-! ## Fences and phase operations -/

/-- FENCE (R332). -/
def execFence (f : MA) (s : State) : Host.Outcome State Fault Refusal :=
  issue (.fence f) s (fun c t => c.await t { insn := .fence f } (fenceRel f.x.toNat))

/-- PHASE_CLOSE (R333). -/
def execPhaseClose (f : MA) (s : State) : Host.Outcome State Fault Refusal :=
  issue (.phaseClose f) s (fun c t => .ok ((c.enter t 7 1 c.mask []).closeForms c.gid f.sc.toNat))

/-- PHASE_OPEN (R334). -/
def execPhaseOpen (f : MA) (s : State) : Host.Outcome State Fault Refusal :=
  issue (.phaseOpen f) s (fun c t => c.await t { insn := .phaseOpen f } false)

/-- PHASE_CYCLE (R333). -/
def execPhaseCycle (f : MA) (s : State) : Host.Outcome State Fault Refusal :=
  issue (.phaseCycle f) s (fun c t =>
    c.await ((c.enter t 7 1 c.mask []).closeForms c.gid f.sc.toNat) { insn := .phaseCycle f, ent := some (freePlace c.g.log) } false)

/-- PHASE_TEST (R334). -/
def execPhaseTest (f : MA) (s : State) : Host.Outcome State Fault Refusal :=
  issue (.phaseTest f) s (fun c t =>
    .ok (c.giveP t c.vw.d (fun _ => c.g.log.all (fun e => covered c.g.core c.vw.sc e))))

/-- A form that reads an object at its issue consumes poison in it (R101). -/
def Cx.reads (c : Cx) (t : State) (n : Nat) (accs : List Acc) (k : Res) : Res :=
  match accs.findSome? (fun a => t.locPoison a.loc n) with
  | some pa => .ok (t.consumePoison c.g.slice pa)
  | none => k

/-! ## Barriers -/

/-- What a barrier object allows (R335). -/
def barOpt (acc : Access) : AccOpt := { acc := acc, priv := false, peer := false, host := false }

/-- Check the object of a barrier form. -/
def Cx.barrier (c : Cx) (t : State) (acc : Access) (k : List Acc → Res) : Res :=
  match c.checkOne t (barOpt acc) 8 c.addr1 with
  | .error r => .trap r
  | .ok accs => k accs

/-- An operation on an object whose INIT is 0, or whose PEND exceeds INIT, leaves it undefined (R335). -/
def Cx.spoil (c : Cx) (t : State) (accs : List Acc) : State :=
  match accs with
  | [] => t
  | a :: _ =>
    if barBad (ofLe (t.homeRead c.g c.vw.sc a.loc 8)) then
      t.homeWrite c.gid c.g c.vw.sc a.loc ((List.range 8).map (fun i => Config.freeByte c.free i))
    else t

/-- BAR_ARRIVE (R336). -/
def execBarArrive (f : MA) (s : State) : Host.Outcome State Fault Refusal :=
  issue (.barArrive f) s (fun c t => c.barrier t .store (fun accs => .ok (c.record t 8 1 accs)))

/-- BAR_WAIT (R336). -/
def execBarWait (f : MA) (s : State) : Host.Outcome State Fault Refusal :=
  issue (.barWait f) s (fun c t => c.barrier t .load (fun accs =>
    c.await ((c.spoil t accs).touch c.g accs)
      { insn := .barWait f, accs := accs, tgt := (c.s c.vw.d).toNat % 2 ^ 20 } (f.o.toNat / 2 == 1)))

/-- The arrival of a bar.arrive_wait that a late cause stopped in its wait: its entry is still held (R336). -/
def Cx.arrived (c : Cx) : Option Entry :=
  c.g.log.find? (fun e => e.kind == 8 && e.split == some c.born && e.pc == c.sp.pc && e.insn == insnOf c.i)

/-- BAR_ARRIVE_WAIT (R336): a split that has arrived already goes into the wait against the G that its entry holds. -/
def execBarArriveWait (f : MA) (s : State) : Host.Outcome State Fault Refusal :=
  issue (.barArriveWait f) s (fun c t =>
    match c.arrived with
    | some e => c.await t { insn := .barArriveWait f, accs := e.acc, ent := some e.id } false
    | none => c.barrier t .store (fun accs =>
        c.await (c.record t 8 1 accs) { insn := .barArriveWait f, accs := accs, ent := some (freePlace c.g.log) } false))

/-- BAR_COUNT (R336). -/
def execBarCount (f : MA) (s : State) : Host.Outcome State Fault Refusal :=
  issue (.barCount f) s (fun c t => c.barrier t .load (fun accs =>
    if !waitTurn c.g c.num accs || (c.vw.o % 2 == 1 && !c.g.valuesBack c.num) then .hold
    else c.reads t 8 accs <|
      let v := match accs with | [] => 0 | a :: _ => ofLe (t.homeRead c.g c.vw.sc a.loc 8)
      let t1 := c.giveS ((c.spoil t accs).touch c.g accs) c.vw.d (BitVec.ofNat 32 (barPend v))
      .ok (t1.acquire c.gid c.vw.sc c.vw.o)))

/-! ## Arrival objects -/

/-- Check the arrival objects of the lanes (R338). -/
def Cx.objects (c : Cx) (t : State) (acc : Access) (k : List Acc → Res) : Res :=
  match c.checkLanes t { acc := acc, glob := false, priv := false } 16 (fun l => c.addr c.vw.a l) with
  | .error r => .trap r
  | .ok accs => k accs

/-- The lanes that name one object make one arrival, at the lowest of them, with the sum of their bytes (R339). -/
def groupByObject (accs : List Acc) (f : Nat → Int) : List Acc :=
  (accs.filter (fun a => accs.all (fun b => !(b.loc == a.loc) || decide (a.lane ≤ b.lane)))).map (fun a =>
    { a with v := wrap 48 (((accs.filter (fun b => b.loc == a.loc)).map (fun b => f b.lane)).foldr (· + ·) 0) })

/-- ARR_ARRIVE (R339). -/
def execArrArrive (f : RG) (s : State) : Host.Outcome State Fault Refusal :=
  issue (.arrArrive f) s (fun c t => c.objects t .store (fun accs =>
    .ok (c.record t 8 1 (accs.map (fun a => { a with v := wrap 48 (c.v c.vw.d a.lane).toInt })))))

/-- ARR_EXPECT (R339). -/
def execArrExpect (f : RG) (s : State) : Host.Outcome State Fault Refusal :=
  issue (.arrExpect f) s (fun c t => c.objects t .store (fun accs =>
    .ok (c.record t 8 1 (groupByObject accs (fun l => (c.v c.vw.d l).toInt)))))

/-- ARR_TEST (R340). -/
def execArrTest (f : RG) (s : State) : Host.Outcome State Fault Refusal :=
  issue (.arrTest f) s (fun c t => c.objects t .load (fun accs =>
    if !waitTurn c.g c.num accs then .hold
    else c.reads t 16 accs <|
      let l := t.arrivalsOf accs
      let tgt := (c.s c.vw.b).toNat % 65536
      .ok (c.giveP (t.countBanks c.g.core accs) c.vw.d (fun n => match l.find? (fun x => x.1 == n) with
        | some x => reached x.2.gen tgt
        | none => false))))

/-- The promise of an execution of arr.wait: the revised one after the default action, once (R341). -/
def Cx.promise (c : Cx) : Nat := if c.sp.why == .promise then c.sp.deadline else (c.sp2 c.vw.b).toNat

/-- ARR_WAIT (R341). -/
def execArrWait (f : RG) (s : State) : Host.Outcome State Fault Refusal :=
  issue (.arrWait f) s (fun c t => c.objects t .load (fun accs =>
    c.await (t.countBanks c.g.core accs) { insn := .arrWait f, accs := accs, tgt := (c.s c.vw.d).toNat % 65536, prom := c.promise } false))

/-! ## Counters -/

/-- Check the object of a counter form (R342). -/
def Cx.counter (c : Cx) (t : State) (acc : Access) (k : List Acc → Res) : Res :=
  match c.checkOne t { acc := acc, priv := false, spad := false, peer := false } 16 c.addr1 with
  | .error r => .trap r
  | .ok accs => k accs

/-- CNT_ADD (R342). -/
def execCntAdd (f : MA) (s : State) : Host.Outcome State Fault Refusal :=
  issue (.cntAdd f) s (fun c t => c.counter t .store (fun accs =>
    .ok (c.record t 8 1 (accs.map (fun a => { a with v := (c.sp2 c.vw.d).toNat })))))

/-- CNT_RD (R342). -/
def execCntRd (f : MA) (s : State) : Host.Outcome State Fault Refusal :=
  issue (.cntRd f) s (fun c t => c.counter t .load (fun accs => .ok (c.record t 1 0 accs)))

/-- CNT_WAIT (R343). -/
def execCntWait (f : MA) (s : State) : Host.Outcome State Fault Refusal :=
  issue (.cntWait f) s (fun c t => c.counter t .load (fun accs =>
    c.await (t.touch c.g accs) { insn := .cntWait f, accs := accs, tgt := (c.sp2 c.vw.d).toNat } false))

/-- CNT_TEST (R342). -/
def execCntTest (f : MA) (s : State) : Host.Outcome State Fault Refusal :=
  issue (.cntTest f) s (fun c t => c.counter t .load (fun accs =>
    if !waitTurn c.g c.num accs then .hold
    else c.reads t 16 accs <|
      let w := t.counterAt c.g c.vw.sc accs
      let r := if nbit w.2 63 then 2 else b2n (decide ((c.sp2 c.vw.d).toNat ≤ w.1))
      .ok (c.giveSp (t.touch c.g accs) c.vw.d (BitVec.ofNat 64 r))))

/-! ## Multicast stores and reducing loads -/

/-- Check the lanes of a fabric form (R344). -/
def Cx.fabric (c : Cx) (t : State) (k : List Acc → Res) : Res :=
  let r := gather (c.lanes.map (fun l => (l, c.addr c.vw.a l, t.checkMc c.g.slice l (c.addr c.vw.a l))))
  if r.2.isEmpty then k r.1 else .trap (c.rankFails r.2)

/-- ST_MC (R345). -/
def execStMc (f : MA) (s : State) : Host.Outcome State Fault Refusal :=
  issue (.stMc f) s (fun c t => c.fabric t (fun accs =>
    .ok (c.enter t 14 2 c.mask (accs.map (fun a => { a with v := c.datum c.vw.d 1 a.lane })))))

/-- LD_RED_ADD_F32 (R346). -/
def execLdRedAddF32 (f : MA) (s : State) : Host.Outcome State Fault Refusal :=
  issue (.ldRedAddF32 f) s (fun c t => c.fabric t (fun accs => .ok (c.enter t 1 0 c.mask accs)))

/-- LD_RED_ADD_BF16 (R346). -/
def execLdRedAddBf16 (f : MA) (s : State) : Host.Outcome State Fault Refusal :=
  issue (.ldRedAddBf16 f) s (fun c t => c.fabric t (fun accs => .ok (c.enter t 1 0 c.mask accs)))

/-- LD_RED_MAX_F32 (R346). -/
def execLdRedMaxF32 (f : MA) (s : State) : Host.Outcome State Fault Refusal :=
  issue (.ldRedMaxF32 f) s (fun c t => c.fabric t (fun accs => .ok (c.enter t 1 0 c.mask accs)))

end Sys2Proof.Machine
end

