-- ==== Sys2Proof/Machine/Entries.lean ====
section
/-! DEFINITION. The steps that carry logbook entries and sleeping splits forward: completion of an entry (R179), a request at
a home (R183), wakings (R341, R347, R384), and the answers of peer modules (R48, R49). -/

namespace Sys2Proof.Machine

/-- An entry past the strike horizon is performed, or takes in the answers of its homes, as far as its order allows. -/
def State.entryStep (s : State) (gid id : Nat) : State :=
  match Tbl.find s.groups gid with
  | none => s
  | some g =>
    match g.entry? id with
    | none => s
    | some e =>
      if e.kind = 4 || e.kind = 6 || e.kind = 8 then (if g.place == .resident && !e.failed then s.collectStep gid e else s)
      else if !s.entryMay g e then s
      else
        let s0 := s.modEntry gid id (fun e => { e with sent := true, replay := false })
        match e.kind with
        | 1 => s0.loadStep gid e
        | 7 => s0.closeStep gid e
        | 11 => if isColl e.instr then s0 else s0.signalStep gid e
        | 12 => (match e.instr with
          | .tileTld _ => s0.tldStep gid e
          | .tileTst _ => s0.tstStep gid e
          | _ => s0)
        | 13 => s0.couchStep gid e
        | 9 => s0
        | 10 => s0
        | _ => s0.storeStep gid e

/-- Give a group the value that another has in a register, in the lanes of a mask. -/
def Group.copyReg (dst from_ : Group) (lanes : Word) (r : Nat) : Group :=
  if r < 64 then dst.setLanes r (fun l => from_.vReg r l) (lanesOf lanes)
  else if r < 96 then dst.setS (r - 64) (from_.sReg (r - 64))
  else if r < 104 then dst.setP (r - 96) (from_.pReg (r - 96))
  else dst

/-- Results that an entry delivered also stand in the checkpoints that hold the entry, so that a rollback to one of them
keeps what an instruction issued before it received (R105). -/
def State.syncHistory (s : State) (gid : Nat) (e : Entry) : State :=
  if e.dst.isEmpty then s
  else
    let g := s.group gid
    s.modDie (dieOf g.core) (fun x => { x with history := x.history.map (fun c =>
      { c with groups := Tbl.upd c.groups gid (fun h =>
          if h.log.any (fun f => f.num == e.num) then e.dst.foldl (fun h r => h.copyReg g e.mask r) h else h) }) })

/-- An entry is carried forward, and the checkpoints with it. -/
def State.entryDone (s : State) (gid id : Nat) : State :=
  match (Tbl.find s.groups gid).bind (fun g => g.entry? id) with
  | some e => (s.entryStep gid id).syncHistory gid e
  | none => s.entryStep gid id

/-- ENTRY_COMPLETE (R179). -/
def execEntryComplete (gid ent : Nat) (s : State) : Host.Outcome State Fault Refusal := .next (s.entryDone gid ent)

/-- The request of one lane of an I1 entry leaves the partition and reaches its home (R183, R348). -/
def State.homeRequest (s : State) (gid id lane : Nat) : State :=
  match Tbl.find s.groups gid with
  | none => s
  | some g =>
    match g.entry? id with
    | none => s
    | some e =>
      if !s.entryMay g e then s
      else
        let s0 := s.modEntry gid id (fun e => { e with sent := true, replay := false })
        if e.kind = 4 || e.kind = 6 || e.kind = 8 then s0.homeStep gid e lane
        else if e.kind = 11 && !isColl e.instr then s0.signalStep gid e
        else if e.kind = 13 then s0.couchStep gid e
        else s0

/-- I1_HOME_REQUEST (R183). -/
def execI1HomeRequest (gid ent lane : Nat) (s : State) : Host.Outcome State Fault Refusal := .next (s.homeRequest gid ent lane)

/-- A late cause stops a sleeping split before its wait, where it is taken; the wait is executed again after it (R166, R347). -/
def State.stopWait (s : State) (gid born : Nat) : State :=
  s.modSplit gid born (fun p => { p with st := .run, why := .awake, wait := none, mark := none })

/-- Test the condition of a sleeping split's wait: it goes on, sleeps on, or raises its cause (R341, R343, R347). A form that
waits for its turn is tried again. -/
def State.wakeWait (s : State) (gid born : Nat) : State :=
  match Tbl.find s.groups gid with
  | none => s
  | some g =>
    match g.split? born with
    | none => s
    | some p =>
      match p.wait with
      | none => s
      | some w =>
        if p.st != .sleep || p.why != .cond || g.place != .resident then s
        else if (g.lateCause p).isSome then s.stopWait gid born
        else if !isWait w.insn then (if s.struck g.core then s else { s with cur := some (gid, born) })
        else match s.tryWait gid born g p w with
          | .pending u => u
          | .done u => u
          | .trap t => s.takeTrap gid born t

/-- WAIT_WAKE (R347). -/
def execWaitWake (gid born : Nat) (s : State) : Host.Outcome State Fault Refusal := .next (s.wakeWait gid born)

/-- A promise has passed: of an arr.wait, which then raises PROMISE_MISSED, or the revised one for which the default action
slept, after which the arr.wait is executed again (R167, R341). -/
def State.promiseDue (s : State) (gid born : Nat) : State :=
  match Tbl.find s.groups gid with
  | none => s
  | some g =>
    match g.split? born with
    | none => s
    | some p =>
      if p.st == .sleep && p.why == .promise then
        (if p.deadline ≤ s.cycle then s.modSplit gid born (fun p => { p with st := .run }) else s)
      else s.wakeWait gid born

/-- PROMISE_DEADLINE (R341). -/
def execPromiseDeadline (gid born : Nat) (s : State) : Host.Outcome State Fault Refusal := .next (s.promiseDue gid born)

/-- A split of the partition other than the given one is ready under conditions 1 to 5 of R124. -/
def State.otherReady (s : State) (gid born : Nat) : Bool :=
  let me := s.group gid
  s.groups.any (fun e => e.2.core == me.core && e.2.part == me.part &&
    e.2.splits.any (fun p => !(e.1 == gid && p.born == born) && p.st == .run &&
      (match s.peek e.2 p with
       | some i => s.ready4 e.1 e.2 p i && ((view i).slot == .c || s.admitted e.2.core)
       | none => false)))

/-- The deadline of a sleep has come (R384). -/
def State.sleepDue (s : State) (gid : Nat) (g : Group) (p : Split) : Bool :=
  p.st == .sleep &&
    ((p.why == .time && decide (p.deadline ≤ s.cycle)) ||
     (p.why == .idle && (decide (p.deadline ≤ s.now g.core) || !s.otherReady gid p.born)))

/-- A sleeping split returns to RUN after its sleep instruction (R384). -/
def State.wakeSleep (s : State) (gid born : Nat) : State :=
  match Tbl.find s.groups gid with
  | none => s
  | some g =>
    match g.split? born with
    | none => s
    | some p => if g.place == .resident && s.sleepDue gid g p then s.waitOver gid born else s

/-- SLEEP_DEADLINE (R384). -/
def execSleepDeadline (gid born : Nat) (s : State) : Host.Outcome State Fault Refusal := .next (s.wakeSleep gid born)

/-- PEER_RESPONSE (R48). -/
def execPeerResponse (req : Nat) (r : PeerResp) (s : State) : Host.Outcome State Fault Refusal :=
  .next (match Tbl.find s.m.peers req with
    | none => s
    | some q =>
      if q.job.isSome then (s.modM (fun m => { m with peers := Tbl.del m.peers req })).pieceAnswer q r else s.peerAnswer req r)

/-- PEER_TIMEOUT (R49): 50 us have passed since the request. -/
def execPeerTimeout (req : Nat) (s : State) : Host.Outcome State Fault Refusal :=
  .next (match Tbl.find s.m.peers req with
    | none => s
    | some q =>
      if s.cycle < q.sentAt + 50000 then s
      else if q.job.isSome then (s.modM (fun m => { m with peers := Tbl.del m.peers req })).pieceSilent q
      else s.peerSilent req)

end Sys2Proof.Machine
end

