-- ==== Sys2Proof/Machine/Power.lean ====
section
/-! DEFINITION. Dies, power and time bases (R15 to R31): host states, operating points, boost permits, current slope, thermal and
power limits. A transition that the spec bounds from above ends when its event occurs, at the latest at the bound. -/

namespace Sys2Proof.Machine

/-- A write refused under a lock rule (R35): the offset of the first is kept. -/
def State.locked (s : State) (off : Nat) : State :=
  s.modM (fun m => if m.locked then m else { m with locked := true, first := BitVec.ofNat 24 off })

/-- The deckle of the slice is locked: ACTIVE (QUIESCED among it) or RESETTING (R16, R20). -/
def Slice.holds (x : Slice) : Bool := x.st == .active || x.st == .resetting

/-- Slices 0 to 15. -/
def sliceNums : List Nat := List.range 16

/-! ## Ways of the L2 (R16) -/

/-- DIS of L2WAYDIS.Dn. -/
def State.wayDis (s : State) (d : Nat) : Word := Config.wayFuse d ||| (s.die d).wayHost

/-- Ways of a die that a locked deckle names. -/
def State.waysNamed (s : State) (d : Nat) : Word :=
  sliceNums.foldr (fun t m => if (s.slice t).holds then Tbl.get (s.slice t).ways 0 d ||| m else m) 0

/-- A write to L2WAYDIS.Dn, bit by bit. -/
def State.writeWays (s : State) (d : Nat) (v : Word) : State :=
  let x := s.die d
  let named := s.waysNamed d
  let fresh := v &&& ~~~(Config.wayFuse d) &&& ~~~x.wayHost
  let s1 := if fresh &&& named != 0 then s.locked (0x20014 + 0x40 * d) else s
  s1.modDie d (fun x =>
    let pend := (x.wayPending &&& v) ||| (fresh &&& ~~~named)
    { x with
      wayHost := x.wayHost &&& v, wayPending := pend,
      wayEnd := (lanesOf pend).map (fun w => (w, if x.wayPending.getLsbD w then Tbl.get x.wayEnd 0 w else s.cycle + 150000)) })

/-- The ways of a die whose write-back is over. -/
def State.waysDue (s : State) (d : Nat) : Word :=
  let x := s.die d
  maskWhere (fun w => x.wayPending.getLsbD w && decide (Tbl.get x.wayEnd 0 w ≤ s.cycle))

/-- L2WAYDIS_WRITE (R16). -/
def execL2waydisWrite (die : Nat) (v : Word) (s : State) : Host.Outcome State Fault Refusal :=
  .next (s.bar0 (s.writeWays die v))

/-- L2_WAY_DISABLE_DONE (R16): the ways whose time is over are written back and invalidated, and their bits read 1; each has
its own 150 us from the write that named it. -/
def execL2WayDisableDone (die : Nat) (s : State) : Host.Outcome State Fault Refusal :=
  let due := s.waysDue die
  .next (s.modDie die (fun x =>
    { x with wayHost := x.wayHost ||| due, wayPending := x.wayPending &&& ~~~due,
             wayEnd := x.wayEnd.filter (fun e => !due.getLsbD e.1) }))

/-! ## Boost (R22 to R26) -/

/-- The two-step fall begins (R24). -/
def State.beginFall (s : State) (d : Nat) (exhausted : Bool) : State :=
  ((s.watchClaims d).settle d).modDie d (fun x =>
    { x with fall := true, fallEnd := s.cycle, boostEnd := 0, exhausted := exhausted,
             curvf := BitVec.ofNat 4 ((x.bvf.toNat + 12) / 2) })

/-- The conditions of R23 for a rise. -/
def State.mayRise (s : State) (d : Nat) : Bool :=
  let x := s.die d
  !x.boosting && !x.fall && !x.busy && x.boosten && x.curhs == 3 && decide (x.tdie.toNat < 95) && !(s.claimSlices d).isEmpty &&
    decide ((if x.exhausted then min 8 x.pbudget.toNat else 1) ≤ x.permits.toNat) && decide (1 ≤ x.permits.toNat)

/-- BOOST_RISE (R23): one permit covers the first 4 us. -/
def execBoostRise (die : Nat) (s : State) : Host.Outcome State Fault Refusal :=
  .next (if s.mayRise die then
    (s.watchClaims die).modDie die (fun x =>
      { x with boosting := true, curvf := x.bvf, permits := x.permits - 1, debited := x.debited + 1,
               boostEnd := s.cycle + 4000, refillAt := 0, exhausted := false })
  else s)

/-- PERMIT_DEBIT (R23): a 4 us boundary. Claims and releases that took effect come first (R406). -/
def execPermitDebit (die : Nat) (s : State) : Host.Outcome State Fault Refusal :=
  let x := s.die die
  .next (if !x.boosting || x.fall || x.boostEnd = 0 || s.cycle < x.boostEnd then s
    else if x.permits = 0 || (s.claimSlices die).isEmpty || !x.boosten || 95 ≤ x.tdie.toNat then s.beginFall die (x.permits == 0)
    else (s.watchClaims die).modDie die (fun x =>
      { x with permits := x.permits - 1, debited := x.debited + 1, boostEnd := x.boostEnd + 4000 }))

/-- FALL_TO_NOMINAL (R24): 10 us into the fall; the refill timer starts (R25). -/
def execFallToNominal (die : Nat) (s : State) : Host.Outcome State Fault Refusal :=
  let x := s.die die
  .next (if x.fall && x.boosting && x.fallEnd + 10000 ≤ s.cycle then
    s.modDie die (fun x => { x with boosting := false, curvf := 11, refillAt := if x.boosten then s.cycle + 50000 else 0 })
  else s)

/-- FALL_COMPLETE (R24): the point in force is VF, or stays nominal until a change of VF under way is done (log 33). -/
def execFallComplete (die : Nat) (s : State) : Host.Outcome State Fault Refusal :=
  let x := s.die die
  .next (if x.fall && !x.boosting && x.fallEnd + 20000 ≤ s.cycle then
    s.modDie die (fun x => { x with fall := false, fallEnd := 0, curvf := if x.vfEnd = 0 then x.vf else x.curvf })
  else s)

/-- PERMIT_REFILL (R25): a full 50 us at or below nominal. -/
def execPermitRefill (die : Nat) (s : State) : Host.Outcome State Fault Refusal :=
  let x := s.die die
  .next (if x.boosten && !x.boosting && x.refillAt != 0 && decide (x.refillAt ≤ s.cycle) then
    s.modDie die (fun x => { x with permits := if x.permits.toNat < x.pbudget.toNat then x.permits + 1 else x.permits,
                                    refillAt := x.refillAt + 50000 })
  else s)

/-! ## Host states and points (R17 to R20) -/

/-- Time bound of a host-state transition, in ns (R20); HS0 to HS1 stands in no table (log 22). -/
def hsTime (a b : Nat) : Nat :=
  match a, b with
  | 2, 1 => 150000
  | 1, 2 => 20000
  | 1, 0 => 10000
  | 0, 2 => 2000000
  | 2, 0 => 160000
  | 0, 1 => 2000000
  | _, _ => 1000

/-- REJ_INVALID of R20. -/
def pwrInvalid (cur v : Nat) : Bool :=
  let hs := v % 4
  let bvf := bits v 23 20
  let vf := bits v 19 16
  bvf < 12 || (if hs = 3 then vf < 3 || 11 < vf else 11 < vf) || (nbit v 2 && !(hs == 3 && vf == 11)) || bits v 15 3 != 0 ||
    !(hs ≤ cur + 1 && cur ≤ hs + 1 || (cur == 0 && hs == 2) || (cur == 2 && hs == 0))

/-- A locked deckle names a cluster, an L2 way or a channel of the die (R20). -/
def State.dieInUse (s : State) (d : Nat) : Bool :=
  sliceNums.any (fun t =>
    let x := s.slice t
    x.holds && (Tbl.get x.cld 0 d != 0 || Tbl.get x.ways 0 d != 0 || Tbl.get x.chlo 0 d != 0 || Tbl.get x.chhi 0 d != 0))

/-- CMDST of a write to PWRCTL.Dn that is refused: the first check that fails (R20). -/
def State.pwrReject (s : State) (d v : Nat) : Option Nat :=
  let x := s.die d
  if x.busy then some 4
  else if pwrInvalid x.hs.toNat v then some 3
  else if v % 4 < 2 && x.curhs.toNat != v % 4 && s.dieInUse d then some 2
  else none

/-- R22: what a write does to the permits, and the fall it starts. A new grant also lifts the condition that an exhausted fall
left on the next rise (R25), of which the spec says nothing (log 33). -/
def State.grantBoost (s : State) (d : Nat) (old : Die) : State :=
  let x := s.die d
  if x.boosten && !old.boosten then
    s.modDie d (fun x => { x with permits := x.pbudget, refillAt := if x.boosting then 0 else s.cycle + 50000, exhausted := false })
  else if old.boosten && !x.boosten then
    (if x.boosting && !x.fall then s.beginFall d false else s).modDie d (fun x => { x with permits := 0, refillAt := 0 })
  else s.modDie d (fun x => { x with permits := if x.pbudget.toNat < x.permits.toNat then x.pbudget else x.permits })

/-- A write to PWRCTL.Dn (R19, R20, R22). The point of a die that boosts or falls is compared at the end of its fall, which is
point 11; a VF written then takes force 20 us after the write, which is no earlier than the fall's end, with BUSY until then
(log 33). -/
def State.writePower (s : State) (d v : Nat) : State :=
  match s.pwrReject d v with
  | some c => s.modDie d (fun x => { x with cmdst := BitVec.ofNat 3 c })
  | none =>
    let old := s.die d
    let hs := v % 4
    let vf := BitVec.ofNat 4 (bits v 19 16)
    let s1 := s.modDie d (fun x =>
      { x with pbudget := BitVec.ofNat 8 (bits v 31 24), bvf := BitVec.ofNat 4 (bits v 23 20), vf := vf, boosten := nbit v 2,
               hs := BitVec.ofNat 2 hs })
    let s2 := s1.grantBoost d old
    let x := s2.die d
    let vfMove := 2 ≤ old.curhs.toNat && 2 ≤ hs && (if x.boosting || x.fall then vf != 11 else x.curvf != vf)
    let hsMove := old.curhs.toNat != hs
    let vfEnd := if vfMove then s.cycle + 20000 else 0
    let hsEnd := if hsMove then (if vfMove then vfEnd else s.cycle) + hsTime old.curhs.toNat hs else 0
    s2.modDie d (fun x =>
      { x with vfEnd := vfEnd, hsEnd := hsEnd, busy := vfMove || hsMove, cmdst := if vfMove || hsMove then 1 else 0 })

/-- The point whose frequency a die runs at: while VF changes, the lower of the two (R20). -/
def Die.rate (x : Die) : Nat := if x.vfEnd = 0 then x.curvf.toNat else min x.curvf.toNat x.vf.toNat

/-- PWRCTL_WRITE (R20). -/
def execPwrctlWrite (die : Nat) (v : Word) (s : State) : Host.Outcome State Fault Refusal :=
  .next (s.bar0 (s.writePower die v.toNat))

/-- A transition of a die is over: when none is left BUSY clears, and CMDST is DONE if the last write was the one in progress; the
code of a later write that was refused stands (R21). -/
def Die.settled (x : Die) : Die :=
  if x.vfEnd = 0 && x.hsEnd = 0 then { x with busy := false, cmdst := if x.cmdst = 1 then 0 else x.cmdst } else x

/-- VF_CHANGE_DONE (R20). -/
def execVfChangeDone (die : Nat) (s : State) : Host.Outcome State Fault Refusal :=
  .next (s.modDie die (fun x => if x.vfEnd = 0 then x else { x with vfEnd := 0, curvf := x.vf }.settled))

/-- A die in HS0 keeps nothing (R17). -/
def State.powerOff (s : State) (d : Nat) : State :=
  { s.modDie d (fun x => { x with stlb := [], upper := [], couch := [] }) with
    cores := s.cores.map (fun e => if dieOf e.1 = d then
      (e.1, { e.2 with bkt := [], mbkt := 0, lines := [], tlb := [], tileWg := none, accInit := [], queue := [] }) else e),
    spad := s.spad.filter (fun e => dieOf (e.1 / 4194304) != d), tile := s.tile.filter (fun e => dieOf (e.1 / 196608) != d) }

/-- Empty the buckets of every core of a die, which leaves HS3 (R128). -/
def State.emptyDie (s : State) (d : Nat) : State :=
  { s with cores := s.cores.map (fun e => if dieOf e.1 = d then (e.1, { e.2 with bkt := [], mbkt := 0 }) else e) }

/-- Soft repairs of the stacks of a die that leaves HS0 for HS2 become permanent (R111). -/
def State.hardenRepairs (s : State) (d : Nat) : State :=
  { s with hbm := s.hbm.map (fun k => if k.1 / 2 = d then (k.1, { k.2 with softRows := [], softCols := [] }) else k) }

/-- HOST_STATE_TRANSITION_DONE (R20): VF comes first; a die that enters HS2 from below runs at the held VF. -/
def execHostStateTransitionDone (die : Nat) (s : State) : Host.Outcome State Fault Refusal :=
  let x := s.die die
  let s := if x.curhs = 0 && 2 ≤ x.hs.toNat && x.hsEnd != 0 && x.vfEnd = 0 then s.hardenRepairs die else s
  .next (if x.hsEnd = 0 || x.vfEnd != 0 then s
    else (if x.hs.toNat = 0 then s.powerOff die else if x.hs.toNat = 2 then s.emptyDie die else s).modDie die (fun x =>
      { x with hsEnd := 0, curhs := x.hs, curvf := if x.curhs.toNat < 2 && 2 ≤ x.hs.toNat then x.vf else x.curvf }.settled))

/-! ## Current slope and ballast (R27, R28) -/

/-- The engine on which ballast is placed (R27): of the engines that have worked and take no work in the cycle of the tick, the
one that went idle last, the lowest of equals; none while every engine that has worked is busy (log 23). An engine is the wide
units of a cluster, by the cluster's number. -/
def Die.idleEngine (x : Die) : Option Nat :=
  (x.lastUse.filter (fun e => decide (e.2 < x.cyc))).foldl (fun b e => match b with
    | none => some e
    | some c => if c.2 < e.2 then some e else some c) none |>.map (·.1)

/-- CURRENT_SLOPE_TICK (R27, R28): the estimate may fall 8 A a microsecond; the rest is ballast on an engine that has gone idle,
charged to the slice whose work last retired from it. -/
def execCurrentSlopeTick (die : Nat) (s : State) : Host.Outcome State Fault Refusal :=
  let x := s.die die
  let now := Config.currentOf x.spent
  let fill := if now + 8 < x.spentLast && x.idleEngine.isSome then x.spentLast - 8 - now else 0
  let t := match x.idleEngine with | some e => Tbl.get x.lastSlice 16 e | none => 16
  let s1 := s.modDie die (fun x => { x with spent := 0, spentLast := now + fill, usAt := s.cycle + 1000 })
  .next (if fill = 0 then s1
    else if t < 16 then
      (s1.modSlice t (fun y => { y with energy := y.energy + BitVec.ofNat 64 (Config.ballastEnergy fill) })).modDie die
        (fun x => { x with debt := Tbl.put x.debt t (Tbl.get x.debt 0 t + Config.ballastPrice fill * 256) })
    else s1.modM (fun m => { m with energyPf := m.energyPf + BitVec.ofNat 64 (Config.ballastEnergy fill) }))

/-- The ballast of a slice that is reset, killed or dissolved: its debt is discarded and the energy of that ballast is charged
to ENERGY.PF, as is what its engines take later (R28). -/
def State.dropDebt (s : State) (t : Nat) : State :=
  let owed := (s.dies.map (fun e => Tbl.get e.2.debt 0 t)).foldr (· + ·) 0
  { s with
    dies := s.dies.map (fun e => (e.1, { e.2 with debt := Tbl.del e.2.debt t,
                                                   lastSlice := e.2.lastSlice.map (fun x => (x.1, if x.2 = t then 16 else x.2)) })),
    m := { s.m with energyPf := s.m.energyPf + (if owed = 0 then 0 else BitVec.ofNat 64 (Config.debtEnergy owed)) } }

/-! ## Thermal and power limits (R29, R30) -/

/-- FACT for a temperature while TRIP is clear. -/
def factOf (c : Nat) : Nat := if c < 95 then 256 else if c < 105 then 256 - 19 * (c - 95) else 64

/-- The factor of a die. -/
def Die.refact (x : Die) : Die := { x with fact := if x.trip then 0 else BitVec.ofNat 9 (factOf x.tdie.toNat) }

/-- THERM_UPDATE (R29). -/
def execThermUpdate (die : Nat) (tdie : Byte) (s : State) : Host.Outcome State Fault Refusal :=
  let x := s.die die
  let trips := !x.trip && 115 ≤ tdie.toNat
  let s1 := s.modDie die (fun x => { x with tdie := tdie, trip := x.trip || trips }.refact)
  .next (if trips then s1.postPf 6 die else s1)

/-- THERM_WRITE (R29): TRIP is cleared by 1 only below 105 °C. -/
def State.writeTherm (s : State) (d : Nat) (v : Word) : State :=
  s.modDie d (fun x => if v.getLsbD 31 && x.tdie.toNat < 105 then { x with trip := false }.refact else x)

/-- THERM_WRITE (R29). -/
def execThermWrite (die : Nat) (v : Word) (s : State) : Host.Outcome State Fault Refusal :=
  .next (s.bar0 (s.writeTherm die v))

/-- POWER_CAP_TICK (R30): the measured input power in W. -/
def execPowerCapTick (watts : Nat) (s : State) : Host.Outcome State Fault Refusal :=
  .next (s.modM (fun m =>
    { m with fp := BitVec.ofNat 9 (
        if m.watts.toNat < watts then max 16 (m.fp.toNat - 16)
        else if watts * 100 < 95 * m.watts.toNat then min 256 (m.fp.toNat + 16) else m.fp.toNat) }))

end Sys2Proof.Machine
end

