-- ==== Sys2Proof/Machine/Links.lean ====
section
/-! DEFINITION. Host link, Ethernet, UALink and UCIe (R33 to R53): the clock correction, fabric meters, inbound peer requests,
multicast windows, lane failures, host accesses through BAR2, and RDMA. -/

namespace Sys2Proof.Machine

/-! ## PTPTIME (R39) -/

/-- PTP_CORRECTION: the rate correction in parts per 10^9, at most 200 ppm, and the offset in ns that the timing port found.
A forward correction is a step, a backward one is slewed off, so PTPTIME never decreases. -/
def execPtpCorrection (rho offset : Int) (s : State) : Host.Outcome State Fault Refusal :=
  let now := s.ptpTime
  let done : Int := min s.ptp.slew ((s.cycle - s.ptp.baseCycle : Int) * 500 / 1000000)
  let total := offset - (s.ptp.slew - done)
  .next { s with ptp := { s.ptp with
    rho := max (-200000) (min 200000 rho), offset := s.ptp.offset + offset, lock := true,
    base := if 0 < total then now + total.toNat else now, baseCycle := s.cycle, slew := if 0 < total then 0 else -total } }

/-- PTP_LOCK_LOSS (R39): PTPTIME runs on at the last rate, and PTPLOSS is posted. -/
def execPtpLockLoss (port : Nat) (s : State) : Host.Outcome State Fault Refusal :=
  .next (({ s with ptp := { s.ptp with lock := false } } : State).postPf 7 port)

/-! ## Fabric meters (R44, R58) -/

/-- FABRIC_METER_TICK (R44): each meter gains its allowance and holds at most four; key 0 UALink, 1 Ethernet. -/
def execFabricMeterTick (s : State) : Host.Outcome State Fault Refusal :=
  .next (sliceNums.foldl (fun s t =>
    let x := s.slice t
    let add (k a : Nat) (m : Tbl Nat) : Tbl Nat := Tbl.set m 0 k (min (4 * 16 * a) (Tbl.get m 0 k + 16 * a))
    if x.ual = 0 && x.eth = 0 && x.meter.isEmpty then s
    else s.modSlice t (fun x => { x with meter := add 0 x.ual (add 1 x.eth x.meter) })) s)

/-- Bytes of payload of a request. -/
def PeerReq.payload (q : PeerReq) : Nat := match q.op with | .load => 0 | .mcLoad _ => 0 | _ => q.size

/-- Charge a packet of a slice to a meter, 0 UALink or 1 Ethernet, when it covers the packet; PF traffic is not metered (R44). -/
def State.chargeMeter (s : State) (t k payload : Nat) : Option State :=
  let cost := Config.packetBytes payload
  let have_ := Tbl.get (s.slice t).meter 0 k
  if t = 16 then some s
  else if cost ≤ have_ then some (s.modSlice t (fun x => { x with meter := Tbl.set x.meter 0 k (have_ - cost) }))
  else none

/-- The first request of a slice that waits at a UALink port leaves. -/
def State.sendUal (s : State) (t : Nat) : State :=
  match s.m.peers.find? (fun q => q.2.slice == t && !q.2.out) with
  | none => s
  | some q =>
    match s.chargeMeter t 0 q.2.payload with
    | none => s
    | some u => u.modM (fun m => { m with peers := Tbl.upd m.peers q.1 (fun q => { q with out := true }) })

/-- The first answer of a slice that waits at an Ethernet port leaves for its queue pair. -/
def State.sendEth (s : State) (t : Nat) : State :=
  match s.m.ethOut.find? (fun e => e.1 == t) with
  | none => s
  | some e =>
    match s.chargeMeter t 1 e.2.2.length with
    | none => s
    | some u => u.modM (fun m => { m with ethOut := m.ethOut.erase e, reply := some (e.2.1, .bytes e.2.2) })

/-- FABRIC_PACKET_SEND (R44): the first packet of a slice that waits at a port of one fabric leaves it when its meter covers it. -/
def execFabricPacketSend (slice : Nat) (ual : Bool) (s : State) : Host.Outcome State Fault Refusal :=
  .next (if ual then s.sendUal slice else s.sendEth slice)

/-! ## Inbound requests (R43, R46, R48, R183) -/

/-- A request that waits at a controller: it is made again in the next nanosecond (R66, R67). -/
def State.hold (s : State) (w : OutWait) : State := s.modM (fun m => { m with waiting := m.waiting ++ [w] })

/-- The window of a slice that has joined a multicast group: base and bytes (R46). The spec does not say which entry serves an
arriving request when two valid ones name the group: the model takes the lowest-numbered (DESIGN CHOICE, log 53). -/
def State.mcMember (s : State) (t group : Nat) : Option (Nat × Nat) :=
  (List.range 64).findSome? (fun j =>
    let w (k : Nat) : Nat := (Tbl.get s.m.mcjoin 0 ((t * 64 + j) * 4 + k)).toNat
    if nbit (w 0) 31 && bits (w 1) 19 0 != 0 && bits (w 0) 11 0 == group then
      some (bits (w 3) 24 0 * 2 ^ 32 + bits (w 2) 31 16 * 65536, bits (w 1) 19 0 * 65536)
    else none)

/-- The routing table of the target slice holds an entry for the request's stamps (R43). -/
def State.peerKnown (s : State) (r : PeerIn) : Bool :=
  (List.range 1024).any (fun k => s.route r.slice k == some (r.modid, r.pslice))

/-- The form of an atomic request. -/
def atomInstr (op5 x : Nat) : Option Instr :=
  let f : MA := { o := 0, a := 0, d := 0, sc := 0, x := BitVec.ofNat 2 x, w := 0, s := false }
  match op5 with
  | 16 => some (.atomA f)
  | 17 => some (.atomB f)
  | 18 => some (.atomC f)
  | 19 => some (.red f)
  | _ => none

/-- The target slice answers SLICE_RESET: it is in reset, killed, or quiescing past the first rung (R48, R70, R103, R144). -/
def Slice.refuses (x : Slice) : Bool := x.st == .resetting || x.killing || x.quiesced || (x.engStop && decide (2 ≤ x.migRung))

/-- The virtual address that a request names, when it names one (R46). -/
def State.peerAddr (s : State) (r : PeerIn) : Option Nat :=
  let mc (g : Nat) : Option Nat := (s.mcMember r.slice g).map (fun w => w.1 + r.addr.toNat)
  match r.op with
  | .mcStore g => mc g
  | .mcLoad g => mc g
  | _ => some r.addr.toNat

/-- The virtual address of a request, or its NAK code, in the order of R48. Copy traffic is accessed byte by byte. -/
def State.peerTarget (s : State) (r : PeerIn) : Except Nat Nat :=
  if !s.peerKnown r then .error 1
  else if r.slice < 16 && (s.slice r.slice).refuses then .error 4
  else if r.size = 0 || (!r.copy && r.addr.toNat % max r.size 1 != 0) then .error 7
  else
    let mc (g : Nat) : Except Nat Nat :=
      match s.mcMember r.slice g with
      | none => .error 6
      | some (b, n) => if n ≤ r.addr.toNat then .error 5 else .ok (b + r.addr.toNat)
    match r.op with
    | .unknown => .error 7
    | .mcStore g => mc g
    | .mcLoad g => mc g
    | .atomic o x => if (atomInstr o x).isSome then .ok r.addr.toNat else .error 7
    | _ => .ok r.addr.toNat

/-- A request reads memory; a request writes it. -/
def peerReads (r : PeerIn) : Bool := match r.op with | .store => false | .mcStore _ => false | _ => true
def peerStores (r : PeerIn) : Bool := match r.op with | .load => false | .mcLoad _ => false | _ => true

/-- The physical place of a request's first byte, in device or host memory, or PAGE or KEY; its last byte must be in reach as well. -/
def State.peerPlace (s : State) (r : PeerIn) (va : Nat) : Except Nat (TlbEntry × Nat) :=
  let at_ (x : Nat) : Except Nat (TlbEntry × Nat) :=
    match s.engineLoc r.slice 0 x (if peerStores r then .store else .load) with
    | .error f => .error (if f.cause = 10 then 3 else 2)
    | .ok (e, a) => if windowOf x != .glob || e.target = 2 then .error 2 else .ok (e, a)
  match at_ va, at_ (va + r.size - 1) with
  | .ok p, .ok _ => .ok p
  | .error c, _ => .error c
  | _, .error c => .error c

/-- The value that the memory of a request holds. -/
def State.peerRead (s : State) (e : TlbEntry) (a n : Nat) : Nat := ofLe (if e.target = 1 then s.hostBytes a n else s.memBytes a n)

/-- Store the bytes of a request at their home. -/
def State.peerStore (s : State) (t va a : Nat) (e : TlbEntry) (bs : List Byte) : State :=
  let u := (s.engineWrite t 0 va bs).getD s
  if e.target = 1 then u else u.plain a bs.length

/-- What an atomic writes at the home bank, which is one of the homes of R212. -/
def State.peerAtomic (s : State) (e : TlbEntry) (a : Nat) (bs : List Byte) : State :=
  if e.target = 1 then s.setHost a bs
  else
    let m := s.mixHomes (b2n (e.mt == 2)) (.home a e.mt) bs
    m.1.publishBytes a m.2

/-- Perform a request that passed its checks: the state and the value returned. -/
def State.peerPerform (s : State) (r : PeerIn) (va : Nat) (e : TlbEntry) (a : Nat) : State × Nat :=
  match r.op with
  | .atomic o x =>
    let n := if o = 18 && x = 3 then 8 else 4
    let old := s.peerRead e a n
    (match atomInstr o x with
     | none => (s, 0)
     | some i => (s.peerAtomic e a (leBytes n (atomNew i old (ofLe (r.data.take n)) r.data2.toNat)), old))
  | .store => (s.peerStore r.slice va a e (padTo r.size r.data), 0)
  | .mcStore _ => (s.peerStore r.slice va a e (padTo r.size r.data), 0)
  | _ => (s, 0)

/-- The bytes that a reading request returns. -/
def State.peerBytes (s : State) (r : PeerIn) (va : Nat) : List Byte :=
  match s.engineRead r.slice 0 va r.size with
  | .ok l => l
  | .error _ => zeros r.size

/-- The answer to a request that was performed: copy traffic returns bytes. -/
def State.peerOk (s : State) (r : PeerIn) (va v : Nat) : PeerResp :=
  match r.op with
  | .atomic _ _ => .ok (BitVec.ofNat 128 v)
  | _ => if peerStores r then .ok 0 else if r.copy then .bytes (s.peerBytes r va) else .ok (BitVec.ofNat 128 (ofLe (s.peerBytes r va)))

/-- The watermarks that a request says are freed leave the windows (R183; log 54). -/
def State.pruneWindows (s : State) (r : PeerIn) : State :=
  if r.freed.isEmpty then s
  else s.modM (fun m => { m with windows := m.windows.filter (fun w =>
    !(w.1 == r.modid && w.2.1 == r.pslice && r.freed.any (fun f => f.toNat == w.2.2.1))) })

/-- INBOUND_PEER_REQUEST (R43, R48): the tests in order, the record of a fault, the operation once (R183), the answer; a request that
meets a busy controller waits (R66, R67). An answer leaves at once: the spec does not say whether what a slice answers counts as
its outbound traffic under R44, and the model does not meter it (DESIGN CHOICE, log 53). The spec gives no answer for a request
that meets poison: the target slice is killed with cause MEMORY and answers nothing (R101; DESIGN CHOICE, log 55). -/
def State.peerInbound (s : State) (r : PeerIn) : State :=
  let answer (s : State) (p : PeerResp) : State := s.modM (fun m => { m with reply := some (r.modid, p) })
  let nak (c : Nat) : State :=
    let rec_ : RecordData :=
      { type := 3, code := c, slice := r.slice, va := (s.peerAddr r).getD r.addr.toNat, data := r.modid + 1024 * r.pslice }
    answer (if c = 1 then s.postPf 8 (r.modid + 1024 * r.pslice) else s.postRecord (s.fnOf r.slice) 1 rec_) (.nak c)
  match s.peerTarget r with
  | .error c => nak c
  | .ok va =>
    match s.peerPlace r va with
    | .error c => nak c
    | .ok (e, a) =>
      if e.target = 0 && (s.placeBusy r.slice a || s.placeBusy r.slice (a + r.size - 1)) then s.hold (.peer r)
      else
      let s0 := s.pruneWindows r
      let once := peerStores r && r.wmark != 0
      match (if once then s0.window? r.modid r.pslice r.wmark.toNat r.lane else none) with
      | some v => answer s0 (s0.peerOk r va v)
      | none =>
        match (if e.target = 0 then s0.rangePoison (.home a 0) r.size (!peerReads r) else none) with
        | some pa => s0.consumePoison r.slice pa
        | none =>
          let q := s0.peerPerform r va e a
          let s1 := if once then q.1.record r.modid r.pslice r.wmark.toNat r.lane q.2 else q.1
          answer s1 (s0.peerOk r va q.2)

/-- INBOUND_PEER_REQUEST (R48). -/
def execInboundPeerRequest (r : PeerIn) (s : State) : Host.Outcome State Fault Refusal := .next (s.peerInbound r)

/-- A word of an MCJOIN entry (R46): words of a valid entry are locked but for the write to W0 that clears V. -/
def State.writeMcjoin (s : State) (slice entry word : Nat) (v : Word) : State :=
  let k := (slice * 64 + entry) * 4
  let valid := (Tbl.get s.m.mcjoin 0 k).getLsbD 31
  let keep : Word := match word with | 0 => 0x80000FFF | 1 => 0x000FFFFF | 2 => 0xFFFF0000 | _ => 0x01FFFFFF
  if 16 ≤ slice || 64 ≤ entry || 4 ≤ word || (valid && !(word == 0 && !v.getLsbD 31)) then s
    else s.modM (fun m => { m with mcjoin := Tbl.set m.mcjoin 0 (k + word) (v &&& keep) })

/-- MCJOIN_WRITE (R46). -/
def execMcjoinWrite (slice entry word : Nat) (v : Word) (s : State) : Host.Outcome State Fault Refusal :=
  .next (s.bar0 (s.writeMcjoin slice entry word v))

/-! ## UCIe die links (R52, R53) -/

/-- UCIE_RETRAIN (R53): a module with more than four failed lanes runs at half width. -/
def execUcieRetrain (pair module failed : Nat) (s : State) : Host.Outcome State Fault Refusal :=
  let u := Tbl.get s.m.ucie {} pair
  let half := 4 < failed
  let fresh := half && !Tbl.get u.half false module
  let u1 : Ucie := { failed := Tbl.set u.failed 0 module failed, half := Tbl.set u.half false module half }
  let s1 := s.modM (fun m => { m with ucie := Tbl.put m.ucie pair u1 })
  .next (if fresh then s1.postPf 9 pair else s1)

/-- UCIE_FLIT_FAIL (R53, R102): the slices whose traffic it carried are killed with CAUSE LINK. -/
def execUcieFlitFail (_pair : Nat) (slices : List Nat) (s : State) : Host.Outcome State Fault Refusal :=
  .next (slices.foldl (fun s t => if t < 16 then s.startKill t 10 0 else s) s)

/-! ## Host accesses through BAR2 (R33, R34, R63, R101) -/

/-- The VF of a slice exists (R61). -/
def State.vfExists (s : State) (t : Nat) : Bool := t < 16 && s.m.vfEnabled && decide (t < s.m.numVfs)

/-- The VF bound to a slice is in CONFIG_LOCKED or RUN (R36). -/
def State.vfLocked (s : State) (t : Nat) : Bool :=
  s.vfExists t && ((s.slice t).tdi == .configLocked || (s.slice t).tdi == .run)

/-- The PF may reach a frame: its owner's VF is in CONFIG_UNLOCKED or does not exist (R63). -/
def State.pfMay (s : State) (owner : Nat) : Bool := !s.vfExists owner || (s.slice owner).tdi == .configUnlocked

/-- What the host reads when an access is refused, or not supported: all ones over the size. -/
def onesOf (size : Nat) : DWord := BitVec.ofNat 64 (2 ^ (8 * min size 8) - 1)

/-- The device address of a BAR2 offset (R34). -/
def State.bar2At (s : State) (off : Nat) : Nat := s.m.bar2win.toNat * 68719476736 + off % 68719476736

/-- BAR2 refuses an access (R34, R63); in recovery it serves all of device memory of a clocked die (R77). -/
def State.bar2Refused (s : State) (a : Nat) : Bool :=
  decide ((s.die (homeDie a)).curhs.toNat < 2) ||
    (!s.m.recovery && (decide (0x7FFF800000 ≤ a) || !s.pfMay (s.ownerNow (a / 65536))))

/-- The device completes atomics of 32 and 64 bits (R33). -/
def hostSupported (op : HostOp) (size : Nat) : Bool :=
  match op with
  | .read => true
  | .write => true
  | _ => size == 4 || size == 8

/-- What an access writes, given the old value; none for a read or a CAS that fails. -/
def hostNew (op : HostOp) (size old : Nat) (data data2 : DWord) : Option Nat :=
  match op with
  | .read => none
  | .write => some data.toNat
  | .fetchAdd => some (old + data.toNat)
  | .swap => some data.toNat
  | .cas => if old = data.toNat % 2 ^ (8 * size) then some data2.toNat else none

/-- A host access waits: a REKEY runs on the frame (R66), or the arbiter has refused PF traffic in this window (R67). -/
def State.bar2Busy (s : State) (a : Nat) : Bool := (s.rekeying (a / 65536)).isSome || s.bandShut 16 a

/-- BAR2_ACCESS (R33, R34): the value that the host reads stands in lastRead. -/
def State.bar2 (s : State) (op : HostOp) (off size : Nat) (data data2 : DWord) : State :=
  let a := s.bar2At off
  let ret (s : State) (v : DWord) : State := s.modM (fun m => { m with lastRead := v })
  if (s.die (homeDie a)).curhs.toNat < 2 then ret (s.modM (fun m => { m with dieOff := true })) (onesOf size)
  else if s.bar2Busy a then s.hold (.bar2 op off size data data2)
  else if s.bar2Refused a then ret (if decide (0x7FFF800000 ≤ a) then s else s.locked 0xFFFFFF) (onesOf size)
  else if !hostSupported op size then ret s (onesOf size)
  else if (s.poisonIn a size).isSome then ret (s.postPf 4 (a / 65536)) (onesOf size)
  else
    let old := ofLe (s.memBytes a size)
    let u := match hostNew op size old data data2 with
      | some v => (s.publishBytes a (leBytes size v)).plain a size
      | none => s
    if op = .write then u else ret u (BitVec.ofNat 64 old)

/-- BAR2_ACCESS (R34). -/
def execBar2Access (op : HostOp) (off size : Nat) (data data2 : DWord) (s : State) : Host.Outcome State Fault Refusal :=
  .next (s.bar2 op off size data data2)

/-- VF_TLP_RECEIVE (R37): a TLP off the stream or without integrity is dropped, and the VF moves to ERROR; a dropped
non-posted one completes as Unsupported Request, which reads as all ones. -/
def execVfTlpReceive (vf : Nat) (onStream intact posted : Bool) (s : State) : Host.Outcome State Fault Refusal :=
  .next (if vf = 0 || !s.vfExists (vf - 1) || (s.slice (vf - 1)).tdi != .run || (onStream && intact) then s
    else
      let s1 := s.modSlice (vf - 1) (fun x => { x with tdi := .error })
      if posted then s1 else s1.modM (fun m => { m with lastRead := 0xFFFFFFFFFFFFFFFF }))

/-! ## RDMA (R38) -/

/-- Poison among bytes that an RDMA read takes (R101). -/
def State.rdmaPoison (s : State) (t a n : Nat) : Option Nat :=
  if s.m.poison.isEmpty && s.m.badWords.isEmpty then none
  else (List.range n).findSome? (fun i =>
    match s.engineLoc t 0 (a + i) .load with
    | .ok (e, pa) => if e.target == 0 && s.poisoned pa then some pa else none
    | .error _ => none)

/-- Inbound RDMA (R38): writes, reads and sends of a reliable-connected peer to a queue pair of a slice, or of the PF as slice 16; an
access that the slice's translation refuses touches nothing. The answer to a read waits for its Ethernet meter (R44). -/
def State.rdma (s : State) (slice : Nat) (r : RdmaOp) : State :=
  let limit := if slice = 16 then 256 else 1024
  match r with
    | .write qp a d =>
      if qp < limit && inGlob a.toNat d.length then
        (if s.spanBusy slice 0 a.toNat d.length then s.hold (.rdma slice r) else (s.engineWrite slice 0 a.toNat d).getD s)
      else s
    | .read qp a n =>
      if qp < limit && inGlob a.toNat n then
        if s.spanBusy slice 0 a.toNat n then s.hold (.rdma slice r)
        else match s.rdmaPoison slice a.toNat n with
        | some pa => s.consumePoison slice pa
        | none => (match s.engineRead slice 0 a.toNat n with
         | .ok b => s.modM (fun m => { m with ethOut := m.ethOut ++ [(slice, qp, b)] })
         | .error _ => s)
      else s
    | .send qp d => if qp < limit then s.modM (fun m => { m with rdmaSends := m.rdmaSends ++ [(slice * 1024 + qp, d)] }) else s

/-- RDMA_INBOUND (R38). -/
def execRdmaInbound (slice : Nat) (r : RdmaOp) (s : State) : Host.Outcome State Fault Refusal := .next (s.rdma slice r)

/-- The requests that wait at the controllers, and the engines' accesses that do, are made again (R66, R67). -/
def State.tryWaiting (s : State) : State :=
  let s1 := s.m.waiting.foldl (fun s w =>
    match w with
    | .peer r => s.peerInbound r
    | .bar2 op off size a b => s.bar2 op off size a b
    | .rdma t r => s.rdma t r) (s.modM (fun m => { m with waiting := [] }))
  s1.m.objWaits.foldl (fun s w => s.objAgain w) (s1.modM (fun m => { m with objWaits := [] }))

end Sys2Proof.Machine
end

