-- ==== Sys2Proof/Machine/Slices.lean ====
section
/-! DEFINITION. Slices, deckles, virtual functions, page ownership, bandwidth bands, resets, attestation and firmware
(R54 to R78, R103). -/

namespace Sys2Proof.Machine

/-! ## Frames and their owners (R62 to R66) -/

/-- A frame of the page-owner table itself. -/
def tableFrame (f : Nat) : Bool := 0x7FFF80 ≤ f

/-- Give a frame to an owner. -/
def State.setOwner (s : State) (f o : Nat) : State := s.setMem (0x7FFF800000 + f) [BitVec.ofNat 8 o]

/-- Zero a frame: its lines are overwritten whole, unpublished copies of them included (R65, R101). The spec does not say what
OWNCMD does on a frame of the page-owner table itself: the model accepts it and leaves the table's bytes as they are (log 56). -/
def State.zeroFrame (s : State) (f : Nat) : State :=
  if tableFrame f then s
  else
    (({ s with mem := s.mem.filter (fun c => c.1 / 65536 != f) } : State).modDie (homeDie (f * 65536)) (fun d =>
      { d with unpub := d.unpub.filter (fun e => e.1 % 549755813888 / 65536 != f) })).modM (fun m =>
        { m with
          poison := m.poison.filter (fun l => l / 512 != f), atomAt := m.atomAt.filter (fun e => e.1 / 65536 != f) })

/-- The frames that a slice owns. -/
def State.framesOf (s : State) (t : Nat) : List Nat :=
  (s.mem.filter (fun c => decide (0x7FFF800000 ≤ c.1) && c.2.toNat == t)).map (fun c => c.1 - 0x7FFF800000)

/-- The contents of a frame become unreadable: undefined bytes (R71; log 5). -/
def State.garble (s : State) (f : Nat) : State :=
  s.setMem (f * 65536) ((List.range 65536).map (fun i => Config.freeByte s.free (f * 65536 + i)))

/-- Draw a new key for a slice (R62). -/
def State.drawKey (s : State) (t : Nat) : State :=
  (s.modSlice t (fun x => { x with key := s.m.keys })).modM (fun m => { m with keys := m.keys + 1 })

/-- RES and OWNER of OWNSTS. -/
def State.ownDone (s : State) (res f : Nat) : State :=
  let o := s.owner f
  s.modM (fun m => { m with ownRes := res, ownOwner := o })

/-- The check of an OWNCMD, in the order of R65: RES of the first that fails. -/
def State.ownCheck (s : State) (mode f owner : Nat) : Nat :=
  let o := s.owner f
  if mode < 2 && 16 < owner then 4
  else if mode < 3 && o = 30 then 6
  else if mode = 0 && o != 31 then 1
  else if (mode = 1 || mode = 2) && o = 31 then 2
  else if (mode = 1 || mode = 2) && s.vfLocked o then 3
  else if mode = 1 && s.vfLocked owner then 3
  else 0

/-- GO of an OWNCMD (R64, R65): its fields are kept (R5), and a command takes at most 4 us. -/
def State.ownGo (s : State) (mode f owner : Nat) : State :=
  let s1 := s.modM (fun m => { m with ownMode := mode, ownNew := owner, ownFrame := f })
  if s.m.ownBusy then s1.modM (fun m => { m with ownRes := 5 })
  else
    let c := s.ownCheck mode f owner
    if c ≠ 0 then s1.ownDone c f
    else s1.modM (fun m =>
      { m with ownBusy := true, ownJob := some { mode := mode, owner := owner, frame := f, endAt := s.cycle + 4000 } })

/-- The effect of an OWNCMD (R65). -/
def State.ownEffect (s : State) (j : OwnJob) : State :=
  match j.mode with
  | 0 => (s.zeroFrame j.frame).setOwner j.frame j.owner
  | 1 => s.setOwner j.frame j.owner
  | 2 => (s.zeroFrame j.frame).setOwner j.frame 31
  | _ => s

/-- The end of an OWNCMD: TLBs no longer hold the frame's old owner (R65, R200). -/
def State.ownFinish (s : State) : State :=
  match s.m.ownJob with
  | none => s
  | some j =>
    (((s.ownEffect j).dropOwners j.frame).modM (fun m => { m with ownBusy := false, ownJob := none })).ownDone 0 j.frame

/-- ASSIGN (R65). -/
def execAssignFrame (frame owner : Nat) (s : State) : Host.Outcome State Fault Refusal :=
  .next (s.bar0 (s.ownGo 0 frame owner))

/-- REKEY (R65). -/
def execRekeyFrame (frame owner : Nat) (s : State) : Host.Outcome State Fault Refusal :=
  .next (s.bar0 (s.ownGo 1 frame owner))

/-- RELEASE (R65). -/
def execReleaseFrame (frame : Nat) (s : State) : Host.Outcome State Fault Refusal :=
  .next (s.bar0 (s.ownGo 2 frame 0))

/-- QUERY (R65). -/
def execQueryFrame (frame : Nat) (s : State) : Host.Outcome State Fault Refusal :=
  .next (s.bar0 (s.ownGo 3 frame 0))

/-- OWNCMD_DONE (R65). -/
def execOwncmdDone (s : State) : Host.Outcome State Fault Refusal := .next s.ownFinish

/-! ## Deckles (R55 to R59) -/

/-- Number of set bits. -/
def popcount (w : Word) : Nat := (lanesOf w).length

/-- FLOOR of a slice on a stack; BWS is ignored where it holds no channel (R57). -/
def Slice.floorOn (x : Slice) (k : Nat) : Nat := if x.channels k = 0 then 0 else Tbl.get x.floor 0 k

/-- EFLOOR of a slice on some stacks, from FLOOR and the stack's D in force (R69). -/
def State.setEfloorOn (s : State) (t : Nat) (ks : List Nat) : State :=
  s.modSlice t (fun x => { x with efloor := ks.foldl (fun e k => Tbl.set e 0 k (x.floorOn k * ((s.stack k).d + 1) / 256)) x.efloor })

/-- EFLOOR on every stack, as ACTIVATE, RESHAPE, MERGE and SPLIT set it (R69). -/
def State.setEfloor (s : State) (t : Nat) : State := s.setEfloorOn t (List.range 8)

/-- The deckle belongs to the checks of R59: ACTIVE, QUIESCED, RESETTING, or becoming ACTIVE. -/
def Slice.counts (x : Slice) : Bool := x.holds || x.st == .activating

/-- Other deckles that count. -/
def State.others (s : State) (t : Nat) : List Slice :=
  ((List.range 16).filter (fun u => u != t && (s.slice u).counts)).map s.slice

/-- FLOOR_OVER of R68. -/
def State.floorOver (s : State) (t : Nat) : Bool :=
  let x := s.slice t
  (List.range 8).any (fun k =>
    decide (6 * popcount (x.channels k) < x.floorOn k) ||
    decide (192 < x.floorOn k + ((s.others t).map (·.floorOn k)).foldr (· + ·) 0))

/-- Some table of words of two deckles shares a bit on a die. -/
def meets {n : Nat} (a b : Tbl (BitVec n)) : Bool := (List.range 4).any (fun d => Tbl.get a 0 d &&& Tbl.get b 0 d != 0)

/-- The checks of ACTIVATE (R59): the lowest failing code, 0 for none. -/
def State.activateErr (s : State) (t : Nat) : Nat :=
  let x := s.slice t
  let os := s.others t
  let dies := x.dies
  if (List.range 8).any (fun k => x.channels k != 0 && decide (Tbl.get x.ceil 255 k < Tbl.get x.floor 0 k)) ||
      (List.range 4).any (fun d => !dies.contains d && x.cemask.toNat / 2 ^ (8 * d) % 256 != 0) then 1
  else if (List.range 4).all (fun d => Tbl.get x.cld 0 d == 0) || (List.range 8).all (fun k => x.channels k == 0) || x.cemask == 0 then 2
  else if dies.any (fun d => decide ((s.die d).curhs.toNat < 2)) then 3
  else if os.any (fun y => meets x.cld y.cld) then 4
  else if dies.any (fun d => Tbl.get x.ways 0 d == 0) then 5
  else if (List.range 4).any (fun d => Tbl.get x.ways 0 d &&& s.wayDis d != 0) then 6
  else if os.any (fun y => meets x.ways y.ways) then 7
  else if os.any (fun y => x.cemask &&& y.cemask != 0) then 8
  else if os.any (fun y => y.helm == x.helm) then 9
  else if s.floorOver t then 10
  else 0

/-- The physical clusters of a deckle in logical order (R13). -/
def Slice.clusterList (x : Slice) : List (Nat × Nat) :=
  (List.range 4).flatMap (fun d => ((List.range 9).filter (fun k => (Tbl.get x.cld 0 d).getLsbD k)).map (fun k => (d, k)))

/-- Cores whose in-field test failed are fused out at a reconfiguration of their slice (R114); a die with fewer than 33
left posts DIE_DEGRADED (R11). -/
def State.fuseFailed (s : State) (cores : List Nat) : State :=
  (cores.filter (fun c => (s.core c).failed && s.enabled c)).foldl (fun s c =>
    let s1 := (s.modM (fun m => { m with fusedCores := m.fusedCores ++ [c], testFused := m.testFused + 1 })).modCore c
      (fun c => { c with failed := false })
    let left := ((List.range 36).filter (fun k => s1.enabled (dieOf c * 36 + k))).length
    if left = 32 then s1.postPf 5 (dieOf c) else s1) s

/-- CREATE (R56, R62). The spec does not say whether frames assigned to the slice's index before CREATE draws its key still read
zero under the new key: in the model they keep their contents (log 57). -/
def State.create (s : State) (t : Nat) : State :=
  if (s.slice t).st == .free then
    (s.modSlice t (fun x => { x with st := .config, err := 0, permchg := 0, energy := 0, td := [] })).drawKey t
  else s

/-- ACTIVATE (R59): the cores newly held are scrubbed. -/
def State.activate (s : State) (t : Nat) : State :=
  let x := s.slice t
  if x.st != .config then s
  else
    let e := s.activateErr t
    if e ≠ 0 then s.modSlice t (fun x => { x with err := e })
    else
      let cl := x.clusterList
      let s1 := s.modSlice t (fun x => { x with st := .activating, err := 0, clusters := cl, busyEnd := s.cycle + 20000 })
      let cores := (s1.slice t).coreList
      (cores.foldl (fun s c => if (s.core c).owner = t then s else s.scrubCore c t) (s1.fuseFailed cores)).setEfloor t

/-- What a slice under QUIESCED holds for a migration is lost (R59, R70, R103). -/
def Slice.forget (x : Slice) : Slice :=
  { x with quiesced := false, wasDies := none, stale := false, exportKey := none, exportLen := 0, migBusy := false,
           migRes := if x.migBusy then 6 else x.migRes, engStop := false }

/-- A frame is released (R65). -/
def State.release (s : State) (f : Nat) : State := ((s.zeroFrame f).setOwner f 31).dropOwners f

/-- DISSOLVE (R59). -/
def State.dissolve (s : State) (t : Nat) : State :=
  let x := s.slice t
  if s.vfLocked t then s.locked (0x30000 + 0x100 * t)
  else if !(x.st == .active || x.st == .config || x.st == .activating) then s
  else
    let fs := s.framesOf t
    let s1 := ((s.dropWork t 1).dropDebt t).modSlice t (fun x =>
      { x.forget with
        st := .resetting, dissolving := true, err := 0, key := 0, killing := false, busyEnd := s.cycle + 20 * fs.length })
    fs.foldl State.release s1

/-- CREATE (R56). -/
def execCreateSlice (slice : Nat) (s : State) : Host.Outcome State Fault Refusal := .next (s.bar0 (s.create slice))

/-- ACTIVATE (R59). -/
def execActivateSlice (slice : Nat) (s : State) : Host.Outcome State Fault Refusal := .next (s.bar0 (s.activate slice))

/-- ACTIVATE_DONE (R59). -/
def execActivateDone (slice : Nat) (s : State) : Host.Outcome State Fault Refusal :=
  .next (s.modSlice slice (fun x => if x.st == .activating then { x with st := .active, busyEnd := 0 } else x))

/-- DISSOLVE (R59). -/
def execDissolveSlice (slice : Nat) (s : State) : Host.Outcome State Fault Refusal := .next (s.bar0 (s.dissolve slice))

/-- The cores of a slice belong to none any longer. -/
def State.freeCores (s : State) (t : Nat) : State :=
  ((s.slice t).coreList.filter (fun c => (s.core c).owner == t)).foldl (fun s c => s.scrubCore c 31) s

/-- DISSOLVE_DONE (R59): the last frame has been zeroed. -/
def execDissolveDone (slice : Nat) (s : State) : Host.Outcome State Fault Refusal :=
  .next (if (s.slice slice).st == .resetting && (s.slice slice).dissolving then
    (s.freeCores slice).modSlice slice (fun x => { x with st := .free, dissolving := false, clusters := [], busyEnd := 0 })
  else s)

/-- A deckle register other than DCTL takes a value (R57, R58). -/
def Slice.setDeckle (x : Slice) (off : Nat) (v : Word) : Slice :=
  let n := (off - 0x20) / 0x20
  let w := v.toNat
  if off = 0x04 then { x with ual := bits w 31 16, eth := bits w 15 0 }
  else if off = 0x08 then { x with cemask := v }
  else if 0x20 ≤ off && off < 0xA0 then
    match (off - 0x20) % 0x20 with
    | 0x00 => { x with cld := Tbl.set x.cld 0 n (BitVec.ofNat 9 w) }
    | 0x04 => { x with ways := Tbl.set x.ways 0 n v }
    | 0x08 => { x with chlo := Tbl.set x.chlo 0 n v }
    | 0x0C => { x with chhi := Tbl.set x.chhi 0 n v }
    | 0x10 => band (2 * n)
    | 0x14 => band (2 * n + 1)
    | _ => x
  else x
where
  /-- BWS.Ss: FLOOR, CEIL and WEIGHT. -/
  band (k : Nat) : Slice :=
    { x with floor := Tbl.set x.floor 0 k (bits v.toNat 31 24), ceil := Tbl.set x.ceil 255 k (bits v.toNat 23 16),
             weight := Tbl.set x.weight 16 k (bits v.toNat 15 8) }

/-- The PF may write the deckle: CONFIG, or an exported slice in QUIESCED (R153, R154), and its VF not locked (R36, R56). The spec
does not say what a write does during ACTIVATE's scrub: it is refused as in a locked state (DESIGN CHOICE, log 78). -/
def State.deckleOpen (s : State) (t : Nat) : Bool :=
  let x := s.slice t
  (x.st == .config || (x.st == .active && x.quiesced && !x.migBusy)) && (!s.vfExists t || x.tdi == .configUnlocked)

/-- A deckle register takes a value; one that changes in QUIESCED is to be checked by RESHAPE (R148, R154). -/
def Slice.putDeckle (x : Slice) (off : Nat) (v : Word) : Slice :=
  let y := if off = 0 then { x with helm := bits v.toNat 23 20 } else x.setDeckle off v
  if x.quiesced && y != x then { y with wasDies := some (x.wasDies.getD x.dies) } else y

/-- A write to a deckle register (R55 to R58): HELM, then the command of DCTL. A write to a reserved offset of a closed deckle
sets PFERR.LOCKED like any other write to it; the spec does not say whether it does (log 58). -/
def State.writeDeckle (s : State) (t off : Nat) (v : Word) : State :=
  let cmd := bits v.toNat 27 24
  if off = 0 then
    let s1 := if s.deckleOpen t then s.modSlice t (fun x => x.putDeckle off v)
      else if cmd = 0 || 3 < cmd then s.locked (0x30000 + 0x100 * t) else s
    match cmd with
    | 1 => s1.create t
    | 2 => s1.activate t
    | 3 => s1.dissolve t
    | _ => s1
  else if s.deckleOpen t then s.modSlice t (fun x => x.putDeckle off v)
  else s.locked (0x30000 + 0x100 * t + off)

/-- DECKLE_WRITE (R56). -/
def execDeckleWrite (slice off : Nat) (v : Word) (s : State) : Host.Outcome State Fault Refusal :=
  .next (s.bar0 (if slice < 16 then s.writeDeckle slice off v else s))

/-- A deckle register as it reads (R55 to R58). -/
def State.readDeckle (s : State) (t off : Nat) : Nat :=
  let x := s.slice t
  let n := (off - 0x20) / 0x20
  let band (k : Nat) : Nat :=
    Tbl.get x.floor 0 k * 2 ^ 24 + Tbl.get x.ceil 255 k * 2 ^ 16 + Tbl.get x.weight 16 k * 2 ^ 8 + Tbl.get x.efloor 0 k
  let st := match x.st with
    | .free => 0 | .config => 1 | .activating => 1 | .active => (if x.quiesced then 3 else 2) | .resetting => 4
  if off = 0 then
    b2n (x.st == .active) * 2 ^ 31 + st * 2 ^ 28 + x.helm * 2 ^ 20 +
      ((List.range 4).filter (fun d => Tbl.get x.cld 0 d != 0)).foldr (fun d a => 2 ^ d + a) 0 * 2 ^ 12 + x.err * 2 ^ 8
  else if off = 4 then x.ual * 65536 + x.eth
  else if off = 8 then x.cemask.toNat
  else if 0x20 ≤ off && off < 0xA0 then
    match (off - 0x20) % 0x20 with
    | 0x00 => (Tbl.get x.cld 0 n).toNat
    | 0x04 => (Tbl.get x.ways 0 n).toNat
    | 0x08 => (Tbl.get x.chlo 0 n).toNat
    | 0x0C => (Tbl.get x.chhi 0 n).toNat
    | 0x10 => band (2 * n)
    | 0x14 => band (2 * n + 1)
    | _ => 0
  else 0

/-! ## Bandwidth bands and stack temperature (R67 to R69) -/

/-- One round of the shared band: what is left is divided by weight among (who, want left, weight). The spec fixes no rounding:
each part is rounded down, and what is left is divided again (log 59). -/
def shareRound (left : Nat) (l : List (Nat × Nat × Nat)) : List (Nat × Nat × Nat) × Nat :=
  let act := l.filter (fun e => 0 < e.2.1)
  let w := (act.map (·.2.2)).foldr (· + ·) 0
  let give (e : Nat × Nat × Nat) : Nat := if e.2.1 = 0 then 0 else min e.2.1 (left * e.2.2 / max w 1)
  (l.map (fun e => (e.1, e.2.1 - give e, e.2.2)), left - (l.map give).foldr (· + ·) 0)

/-- Divide the shared band in rounds until it is used up, at most `n` of them. -/
def shareBand : Nat → Nat → List (Nat × Nat × Nat) → List (Nat × Nat × Nat)
  | 0, _, l => l
  | n + 1, left, l => let r := shareRound left l; shareBand n r.2 r.1

/-- The slice of one that asks a stack for bytes: 0 to 15 a slice on channels that its deckle names, 16 the PF, 32 to 47 slice
n - 32 on other channels (R67, R196). -/
def bandSlice (who : Nat) : Nat := if who = 16 then 16 else who % 16

/-- Floor, in bytes of a window, and weight of one that asks (R67, R196); BWS is ignored where the slice names no channel (R57). -/
def State.bandTerms (s : State) (k who : Nat) : Nat × Nat :=
  let x := s.slice who
  if who = 16 then (0, 8)
  else if who < 16 && x.channels k != 0 then (Tbl.get x.efloor 0 k * 16000, Tbl.get x.weight 16 k)
  else (0, 1)

/-- What one that asks may be served in a window at most, of the bytes `n` that it needs (R67): CEIL bounds all that its slice
is served, on channels that its deckle names first (log 59). -/
def State.bandLimit (s : State) (k : Nat) (need : List (Nat × Nat)) (who n : Nat) : Nat :=
  let t := bandSlice who
  let x := s.slice t
  let own := ((need.filter (fun e => who ≠ t && e.1 == t)).map (·.2)).foldr (· + ·) 0
  if t = 16 || x.channels k == 0 then n else min n (Tbl.get x.ceil 255 k * 16000 - own)

/-- What the arbiter of a stack charges to each in a window (R67): floors, then the shared band, less the refresh, up to the
ceilings. -/
def State.bandServe (s : State) (k : Nat) (need : List (Nat × Nat)) : List (Nat × Nat) :=
  let cap := 3276800 * ((s.stack k).d + 1) / 256
  let lim := need.map (fun e => (e.1, s.bandLimit k need e.1 e.2))
  let first := lim.map (fun e => min (s.bandTerms k e.1).1 e.2)
  let left := cap - first.foldr (· + ·) 0 - Config.refreshBytes s.free k
  let rest := (lim.zip first).map (fun e => (e.1.1, e.1.2 - e.2, (s.bandTerms k e.1.1).2))
  (lim.zip (shareBand 33 left rest)).map (fun e => (e.1.1, e.1.2 - e.2.2.1))

/-- The bytes asked of a stack in a window: those that arrive, and those that an earlier window refused (R67). -/
def Stack.asked (x : Stack) (want : List (Nat × Nat)) : List (Nat × Nat) :=
  want.map (fun e => (e.1, e.2 + Tbl.get x.held 0 e.1)) ++ x.held.filter (fun h => !(want.any (fun e => e.1 == h.1)))

/-- The bytes moved for one that asks: what it is charged less its own activations and turnarounds. -/
def State.moved (s : State) (k : Nat) (served : List (Nat × Nat)) (who n : Nat) : Nat :=
  min n (Tbl.get served 0 who - Config.bandOverhead s.free k who)

/-- BW_WINDOW (R67): activations and turnarounds count against the slice whose request incurs them; what is refused waits, and
its slice reaches the stack no more in the window. -/
def State.bandWindow (s : State) (k : Nat) (want : List (Nat × Nat)) : State :=
  let asked := (s.stack k).asked want
  let served := s.bandServe k (asked.map (fun e => (e.1, if e.2 = 0 then 0 else e.2 + Config.bandOverhead s.free k e.1)))
  { s.modStack k (fun x =>
      { x with
        used := served, window := s.cycle / 1000,
        held := (asked.map (fun e => (e.1, e.2 - s.moved k served e.1 e.2))).filter (fun e => e.2 != 0) }) with free := s.free + 1 }

/-- BW_WINDOW (R67): the bytes that each slice's requests may move in the window. -/
def execBwWindow (stack : Nat) (want : List (Nat × Nat)) (s : State) : Host.Outcome State Fault Refusal :=
  .next (s.bandWindow stack want)

/-- The level of a stack at a temperature (R69). -/
def heatLevel (old c : Nat) : Nat :=
  if 95 ≤ c then 2
  else if old = 2 && 92 ≤ c then 2
  else if 85 ≤ c || (1 ≤ old && 82 ≤ c) then 1
  else 0

/-- D of a level. -/
def heatD (l : Nat) : Nat := if l = 0 then 256 else if l = 1 then 232 else 160

/-- HBM_THERMAL_LEVEL_CHANGE (R69). -/
def execHbmThermalLevelChange (stack : Nat) (temp : Byte) (s : State) : Host.Outcome State Fault Refusal :=
  let old := (s.stack stack).level
  let l := heatLevel old temp.toNat
  let s1 := s.modStack stack (fun x => { x with tstk := temp, level := l, d := heatD l - 1 })
  .next (if l = old then s1
    else sliceNums.foldl (fun s t =>
      let x := s.slice t
      let s2 := s.setEfloorOn t [stack]
      if x.floorOn stack != 0 then s2.postVf t 2 (stack + l * 256 + heatD l * 65536) else s2) s1)

/-! ## Resets and kills (R70 to R72, R103) -/

/-- R71: the key of a slice whose TDI was locked is drawn afresh, and its frames become unreadable. The rule names LOCKED, RUN
and CONFIG_UNLOCKED only: a TDI that the reset finds in ERROR keeps key and memory in the model (log 60). -/
def State.regenerate (s : State) (t : Nat) : State :=
  let x := s.slice t
  if x.tdi == .configLocked || x.tdi == .run then
    { (s.framesOf t).foldl (fun s f => s.garble f) (s.drawKey t) with free := s.free + 1 }
  else s

/-- Steps 1 to 5 of a function-level reset of the VF of a slice; a reset in progress absorbs it (R70). A slice that is FREE or
being dissolved has no work left: the reset returns its TDI alone (R36; log 42). -/
def State.startFlr (s : State) (t : Nat) : State :=
  let x := s.slice t
  if x.st == .resetting && !x.dissolving then s
  else
    let s0 := match s.m.ownJob with
      | some j => if s.owner j.frame = t || j.owner = t then s.ownFinish else s
      | none => s
    if x.st == .free || x.st == .resetting then s0.modSlice t (fun x => { x with tdi := .configUnlocked, session := false, importKey := none })
    else
      (((s0.dropWork t 1).dropDebt t).regenerate t).modSlice t (fun x =>
        { x.forget with st := .resetting, dissolving := false, killing := false, importKey := none,
                        busyEnd := s.cycle + 1000000 })

/-- Step 6 of R70. -/
def State.endFlr (s : State) (t : Nat) : State :=
  s.modSlice t (fun x => if x.st == .resetting && !x.dissolving then { x with st := .config, tdi := .configUnlocked, busyEnd := 0 } else x)

/-- The next VF to reset while VF Enable is being cleared, and the end of the clearing (R72). -/
def State.nextVfReset (s : State) : Nat → State
  | 0 => s
  | n + 1 =>
    let vf := s.m.vfClear
    if vf = 0 then s
    else if s.m.numVfs < vf then s.modM (fun m => { m with vfEnabled := false, vfClear := 0 })
    else
      let s1 := s.startFlr (vf - 1)
      if (s1.slice (vf - 1)).st == .resetting && !(s1.slice (vf - 1)).dissolving then s1
      else (s1.modM (fun m => { m with vfClear := vf + 1 })).nextVfReset n

/-- FUNCTION_LEVEL_RESET (R70). -/
def execFunctionLevelReset (vf : Nat) (s : State) : Host.Outcome State Fault Refusal :=
  .next (if 1 ≤ vf && s.vfExists (vf - 1) then s.startFlr (vf - 1) else s)

/-- TDI_STOP (R36): a PF write to the TDI STOP request acts as a function-level reset. -/
def execTdiStop (vf : Nat) (s : State) : Host.Outcome State Fault Refusal :=
  .next (if 1 ≤ vf && s.vfExists (vf - 1) then s.startFlr (vf - 1) else s)

/-- FLR_COMPLETE (R70, R72). -/
def execFlrComplete (vf : Nat) (s : State) : Host.Outcome State Fault Refusal :=
  let s1 := if 1 ≤ vf then s.endFlr (vf - 1) else s
  .next (if s1.m.vfClear = vf && vf != 0 then (s1.modM (fun m => { m with vfClear := vf + 1 })).nextVfReset 17 else s1)

/-- VF_ENABLE_CLEAR (R72). -/
def execVfEnableClear (s : State) : Host.Outcome State Fault Refusal :=
  .next (if s.m.vfEnabled && s.m.vfClear = 0 then (s.modM (fun m => { m with vfClear := 1 })).nextVfReset 17 else s)

/-- VF_ENABLE_SET (R61, R72); a module in recovery creates no VFs (R77). -/
def execVfEnableSet (num : Nat) (s : State) : Host.Outcome State Fault Refusal :=
  .next (if s.m.vfEnabled || s.m.recovery then s else s.modM (fun m => { m with vfEnabled := true, numVfs := min num 16 }))

/-- KILL_COMPLETE (R103): queues stop, SLICE_KILLED is posted, and a slice killed in QUIESCED becomes ACTIVE with no work. -/
def execKillComplete (slice : Nat) (s : State) : Host.Outcome State Fault Refusal :=
  let x := s.slice slice
  let data := x.killCause + (if x.killCause = 9 then x.killFrame * 256 else 0)
  let rec_ : RecordData := { code := 3, slice := slice, data := data }
  .next (if !x.killing then s
    else
      let s1 := s.modSlice slice (fun x =>
        { x.forget with
          killing := false, busyEnd := 0,
          queues := (List.range 64).map (fun k => (k, { Tbl.get x.queues {} k with en := false, stopped := true, qerr := 0 })) })
      ((s1.dropDebt slice).postRecord (s1.fnOf slice) 1 rec_).postRecord 0 2 rec_)

/-- DKILL (R102): bit 0 kills the slice. -/
def execDkill (slice : Nat) (v : Word) (s : State) : Host.Outcome State Fault Refusal :=
  .next (s.bar0 (if slice < 16 && v.getLsbD 0 then s.startKill slice 2 0 else s))

/-! ## Attestation (R73 to R75, R150) -/

/-- A DOE responder exists for a function: the PF, or a VF that exists. -/
def State.doeFn (s : State) (fn : Nat) : Bool := fn == 0 || s.vfExists (fn - 1)

/-- The bytes of a bit vector, little-endian. -/
def hashBytes (v : BitVec 512) : List Byte := leBytes 64 v.toNat

/-- Code of the ERROR UnexpectedRequest of SPDM (R150; log 8). -/
def unexpectedRequest : Byte := 4

/-- A responder's answer: its content stands in spdmOut; the exchange joins the transcript. -/
def State.spdmReply (s : State) (fn code : Nat) (l : List Byte) : State :=
  (s.modSlice (fnSlice fn) (fun x => { x with transcript := x.transcript ++ [BitVec.ofNat 8 code] ++ l })).modM
    (fun m => { m with spdmOut := l })

/-- The negotiation of a function has reached a stage (0 none, 1 version, 2 capabilities, 3 algorithms). -/
def State.stage (s : State) (fn : Nat) : Nat := (s.slice (fnSlice fn)).spdm

/-- A request that the stage or the session does not allow is answered with ERROR, code UnexpectedRequest (R150): nothing changes
but the answer. -/
def State.spdmIf (s : State) (fn : Nat) (ok : Bool) (t : State) : State :=
  if !s.doeFn fn then s else if ok then t else s.modM (fun m => { m with spdmOut := [0x7F, unexpectedRequest] })

/-- The whole certificate chain of slot 0 (R75), of the length named. -/
def certificate (off len : Nat) : List Byte := (List.range len).map (fun i => Config.certificateByte (off + i))

/-- A signature of the device identity key over a message (R75). -/
def signature (msg : List Byte) : List Byte := (List.range 1280).map (Config.identitySign msg)

/-- The algorithms that the responder selects (R73): measurements as raw bit streams, the hash SHA3-512, and one extended
asymmetric algorithm, Falcon-1024 under the Driyx registry identifier (layout: log 8). -/
def algorithms : List Byte := leBytes 4 1 ++ leBytes 4 0x20 ++ leBytes 1 1 ++ leBytes 4 Config.driyxId.toNat

/-- A signature over the hash of a function's transcript and of what the response adds to it (R73). -/
def State.transcriptSign (s : State) (fn : Nat) (more : List Byte) : List Byte :=
  signature (hashBytes (Config.sha3 ((s.slice (fnSlice fn)).transcript ++ more)))

/-- The deckle block with STATE, ERR and EFLOOR zeroed (R74). Bit V of DCTL, which says no more than STATE does, is zeroed with it:
ACTIVATE changes nothing that index 3 covers (R56; log 61). -/
def State.deckleBlock (s : State) (t : Nat) : List Byte :=
  (List.range 64).flatMap (fun k =>
    let v := s.readDeckle t (4 * k)
    leBytes 4 (if k = 0 then v % 2 ^ 28 / 2 ^ 12 * 2 ^ 12
      else if 8 ≤ k && (k % 8 = 4 || k % 8 = 5) then v / 256 * 256 else v))

/-- The image that runs. -/
def State.image (s : State) : List Byte := s.m.running.getD Config.bootImage

/-- Code of a TDI state (R36). -/
def Tdi.code : Tdi → Nat
  | .configUnlocked => 0
  | .configLocked => 1
  | .run => 2
  | .error => 3

/-- The interface report of a TDI: the function's registers that its deckle fixes. -/
def State.report (s : State) (t : Nat) : List Byte := s.deckleBlock t

/-- A measurement of a function (R74), none for an index it does not report. The spec gives HARVEST.Dn no offset in PF BAR0: the
host reads it as measurement 5 alone (R12; log 62). -/
def State.measure (s : State) (fn index : Nat) : Option (List Byte) :=
  let t := fnSlice fn
  let fw := hashBytes (Config.shake256 s.image) ++ leBytes 8 (Config.imageVersion s.image)
  let harvest := (List.range 4).flatMap (fun d => leBytes 8 (s.harvest d))
  if index = 1 then some fw
  else if index = 2 then some (leBytes 4 Config.romVersion.toNat)
  else if index = 5 then some harvest
  else if index = 3 && fn ≠ 0 then some (hashBytes (Config.shake256 (s.deckleBlock t)))
  else if index = 4 && fn ≠ 0 then
    some (leBytes 4 s.m.testRuns ++ leBytes 4 s.m.testFused ++
      hashBytes (Config.shake256 ((s.m.testLog.drop (s.m.testLog.length - 256)).flatMap id)))
  else if index = 6 && fn ≠ 0 then some (leBytes 1 (s.slice t).tdi.code ++ hashBytes (Config.shake256 (s.report t)))
  else if 16 ≤ index && index ≤ 31 && fn = 0 then some (hashBytes (Config.shake256 (s.deckleBlock (index - 16))))
  else none

/-- GET_VERSION (R73): SPDM 1.3; the connection starts afresh. -/
def execGetVersion (fn : Nat) (s : State) : Host.Outcome State Fault Refusal :=
  .next (s.spdmIf fn true ((s.modSlice (fnSlice fn) (fun x => { x with spdm := 1, session := false, transcript := [] })).spdmReply
    fn 0x84 [0x13]))

/-- GET_CAPABILITIES (R73). -/
def execGetCapabilities (fn : Nat) (s : State) : Host.Outcome State Fault Refusal :=
  .next (s.spdmIf fn (1 ≤ s.stage fn) ((s.modSlice (fnSlice fn) (fun x => { x with spdm := 2 })).spdmReply fn 0xE1 []))

/-- NEGOTIATE_ALGORITHMS (R73). -/
def execNegotiateAlgorithms (fn : Nat) (s : State) : Host.Outcome State Fault Refusal :=
  .next (s.spdmIf fn (2 ≤ s.stage fn) ((s.modSlice (fnSlice fn) (fun x => { x with spdm := 3 })).spdmReply
    fn 0xE3 algorithms))

/-- GET_DIGESTS (R73): slot 0. -/
def execGetDigests (fn : Nat) (s : State) : Host.Outcome State Fault Refusal :=
  .next (s.spdmIf fn (3 ≤ s.stage fn) (s.spdmReply fn 0x81 (hashBytes (Config.sha3 (certificate 0 65536)))))

/-- GET_CERTIFICATE (R73): slot 0 alone. -/
def execGetCertificate (fn slot off len : Nat) (s : State) : Host.Outcome State Fault Refusal :=
  .next (s.spdmIf fn (3 ≤ s.stage fn && slot == 0) (s.spdmReply fn 0x82 (certificate off len)))

/-- CHALLENGE (R73): the signature covers the transcript and the nonce. -/
def execSpdmChallenge (fn slot : Nat) (nonce : List Byte) (s : State) : Host.Outcome State Fault Refusal :=
  .next (s.spdmIf fn (3 ≤ s.stage fn && slot == 0)
    (s.spdmReply fn 0x83 (s.transcriptSign fn nonce)))

/-- GET_MEASUREMENTS (R74). -/
def execGetMeasurements (fn index : Nat) (s : State) : Host.Outcome State Fault Refusal :=
  .next (match s.measure fn index with
    | some l => s.spdmIf fn (3 ≤ s.stage fn) (s.spdmReply fn 0xE0 (l ++ s.transcriptSign fn l))
    | none => s.spdmIf fn false s)

/-- KEY_EXCHANGE (R73). -/
def execKeyExchange (fn slot : Nat) (body : List Byte) (s : State) : Host.Outcome State Fault Refusal :=
  .next (s.spdmIf fn (3 ≤ s.stage fn && slot == 0)
    ((s.modSlice (fnSlice fn) (fun x => { x with spdm := 4, transcript := x.transcript ++ body })).spdmReply fn 0xE4
      (s.transcriptSign fn body)))

/-- FINISH (R73): the session is secured. -/
def execSpdmFinish (fn : Nat) (s : State) : Host.Outcome State Fault Refusal :=
  .next (s.spdmIf fn (s.stage fn == 4) ((s.modSlice (fnSlice fn) (fun x => { x with spdm := 3, session := true })).spdmReply fn 0xE5 []))

/-- HEARTBEAT (R73). -/
def execSpdmHeartbeat (fn : Nat) (s : State) : Host.Outcome State Fault Refusal :=
  .next (s.spdmIf fn (s.slice (fnSlice fn)).session (s.spdmReply fn 0xE8 []))

/-- END_SESSION (R73). -/
def execSpdmEndSession (fn : Nat) (s : State) : Host.Outcome State Fault Refusal :=
  .next (s.spdmIf fn (s.slice (fnSlice fn)).session
    ((s.modSlice (fnSlice fn) (fun x => { x with session := false })).spdmReply fn 0xEC []))

/-- IDE_KM (R73): the stream keys, carried in a secured session. -/
def execIdeKm (fn : Nat) (body : List Byte) (s : State) : Host.Outcome State Fault Refusal :=
  .next (s.spdmIf fn (s.slice (fnSlice fn)).session (s.spdmReply fn 0xFE body))

/-- TDISP_MESSAGE (R36, R73): in a secured session of a VF. -/
def State.tdisp (s : State) (fn : Nat) (m : TdispMsg) : State :=
  let t := fnSlice fn
  let x := s.slice t
  match m with
  | .lockInterface => if x.tdi == .configUnlocked then (s.modSlice t (fun x => { x with tdi := .configLocked })).spdmReply fn 0xFE [1] else s.spdmIf fn false s
  | .startInterface => if x.tdi == .configLocked then (s.modSlice t (fun x => { x with tdi := .run })).spdmReply fn 0xFE [2] else s.spdmIf fn false s
  | .stopInterface => (s.spdmReply fn 0xFE [0]).startFlr t
  | .getState => s.spdmReply fn 0xFE [BitVec.ofNat 8 x.tdi.code]
  | .getReport => s.spdmReply fn 0xFE (s.report t)

/-- TDISP_MESSAGE (R73). -/
def execTdispMessage (fn : Nat) (m : TdispMsg) (s : State) : Host.Outcome State Fault Refusal :=
  .next (s.spdmIf fn (fn != 0 && (s.slice (fnSlice fn)).session) (s.tdisp fn m))

/-- The vendor payload of a migration-key response (R150): its CODE is the request's plus 0x80, in a byte. -/
def keyReply (code status key len : Nat) : List Byte := leBytes 1 (code + 0x80) ++ leBytes 1 status ++ zeros 2 ++ leBytes 32 key ++ leBytes 8 len

/-- GET_EXPORT_KEY (R150). -/
def execGetExportKey (fn : Nat) (body : List Byte) (s : State) : Host.Outcome State Fault Refusal :=
  let x := s.slice (fnSlice fn)
  .next (s.spdmIf fn (fn != 0 && x.session) (s.spdmReply fn 0x7E
    (if field body 0 1 != 1 then keyReply (field body 0 1) 4 0 0
     else match x.exportKey with
       | none => keyReply 1 1 0 0
       | some k => keyReply 1 0 k x.exportLen)))

/-- SET_IMPORT_KEY (R150): accepted in CONFIG, which ACTIVATE leaves only when it is done (R59), or for an exported slice in QUIESCED.
The spec does not order BAD_STATE and BAD_LENGTH: the model gives BAD_STATE first (DESIGN CHOICE, log 77). -/
def execSetImportKey (fn : Nat) (body : List Byte) (s : State) : Host.Outcome State Fault Refusal :=
  let t := fnSlice fn
  let x := s.slice t
  let state := x.st == .config || x.st == .activating || (x.st == .active && x.quiesced && x.exportKey.isSome)
  .next (s.spdmIf fn (fn != 0 && x.session)
    (if field body 0 1 != 2 then s.spdmReply fn 0x7E (keyReply (field body 0 1) 4 0 0)
     else if !state then s.spdmReply fn 0x7E (keyReply 2 2 0 0)
     else if body.length != 36 then s.spdmReply fn 0x7E (keyReply 2 3 0 0)
     else (s.modSlice t (fun x => { x with importKey := some (field body 4 32) })).spdmReply fn 0x7E (keyReply 2 0 0 0)))

/-! ## Firmware (R76 to R78) -/

/-- The fuse counter of R76: its value of manufacture, or what verified images have advanced it to. The spec does not say what a
version number beyond its 32 fuses does: the model's counter takes it (DESIGN CHOICE, log 79). -/
def State.fuseCount (s : State) : Nat := max Config.fuseCounter s.m.fuses

/-- The boot ROM accepts an image (R76). -/
def State.imageOk (s : State) (img : List Byte) : Bool := Config.signatureValid img && decide (s.fuseCount ≤ Config.imageVersion img)

/-- D0 in recovery: HS2 at point 11 (R77). -/
def recoveryDie : Die := { hs := 2, vf := 11, curhs := 2, curvf := 11 }

/-- The repairs of a stack that outlive a module reset: the permanent ones (R111; log 63). -/
def Stack.kept (x : Stack) : Stack :=
  let less (a b : Tbl Nat) : Tbl Nat := b.foldl (fun t e => Tbl.set t 0 e.1 (Tbl.get t 0 e.1 - e.2)) a
  { spareRows := less x.spareRows x.softRows, spareCols := less x.spareCols x.softCols }

/-- A module reset (R76, R77): everything starts afresh but flash, fuses, permanent repairs, the test history and host memory.
An image that fails a check, and flash that holds no whole image, lead to recovery. -/
def State.moduleReset (s : State) : State :=
  let img := s.m.flash.getD Config.bootImage
  let ok := !s.m.erased && s.imageOk img
  let m : Module :=
    { flash := s.m.flash, running := s.m.flash, erased := s.m.erased,
      fuses := if ok then max s.fuseCount (Config.imageVersion img) else s.m.fuses,
      fwValid := ok, fwVersion := Config.imageVersion img, recovery := !ok, fusedCores := s.m.fusedCores, testRuns := s.m.testRuns,
      testFused := s.m.testFused, testLog := s.m.testLog, keys := s.m.keys, ivs := s.m.ivs }
  { State.reset with
    m := m, free := s.free + 1, hostMem := s.hostMem, dies := if ok then [] else [(0, recoveryDie)],
    hbm := (s.hbm.map (fun k => (k.1, k.2.kept))).filter (fun k => k.2 != {}) }

/-- MODULE_RESET (R76, R77); power lost during a write of flash shows as such a reset (R78). -/
def execModuleReset (s : State) : Host.Outcome State Fault Refusal := .next s.moduleReset

/-- What FWSTS reports of an image in BAR2, 0 for none: when several checks fail the spec does not say which reason is reported,
and the model takes LENGTH, then SIGNATURE, then ROLLBACK (log 64). -/
def State.imageErr (s : State) (img : List Byte) (len : Nat) : Word :=
  if 67108864 < len then 3
  else if !Config.signatureValid img then 1
  else if Config.imageVersion img < s.fuseCount then 2
  else 0

/-- FWLOAD (R77, R78): the image lies in BAR2 from offset 0. A good one is written to flash, from which the old one is erased
first; BUSY also while a write is under way (log 64). -/
def State.fwload (s : State) (len : Nat) : State :=
  let img := s.memBytes (s.m.bar2win.toNat * 68719476736) len
  let sts (c : Word) : State := s.modM (fun m => { m with fwsts := c, fwlen := BitVec.ofNat 32 len })
  if s.m.flashJob.isSome || (!s.m.recovery && sliceNums.any (fun t => (s.slice t).st == .active)) then sts 4
  else if s.imageErr img len != 0 then sts (s.imageErr img len)
  else
    let endAt := s.cycle + Config.flashTime s.free
    { (sts 0).modM (fun m => { m with erased := true, flashJob := some (img, endAt) }) with free := s.free + 1 }

/-- The write of flash has ended: the image takes force at the next reset, which in recovery follows at once (R77, R78). -/
def State.flashDone (s : State) : State :=
  match s.m.flashJob with
  | none => s
  | some (img, endAt) =>
    if s.cycle < endAt then s
    else
      let s1 := s.modM (fun m => { m with flash := some img, erased := false, flashJob := none })
      if s.m.recovery then s1.moduleReset else s1

/-- FWLOAD_WRITE (R77, R78). -/
def execFwloadWrite (len : Nat) (s : State) : Host.Outcome State Fault Refusal := .next (s.fwload len)

end Sys2Proof.Machine
end

