-- ==== Sys2Proof/Machine/Queues.lean ====
section
/-! DEFINITION. Queues (R79 to R92): reading a queue control block, the checks of a packet in their order, acceptance, and
the packets LAUNCH, COPY, COPY2D, COLL, CWAIT, CADD, MARKER and REGION. -/

namespace Sys2Proof.Machine

def Slice.queue (x : Slice) (k : Nat) : Queue := Tbl.get x.queues {} k

def State.modQueue (s : State) (t k : Nat) (f : Queue → Queue) : State :=
  s.modSlice t (fun x => { x with queues := Tbl.put x.queues k (f (x.queue k)) })

/-- The physical die of a queue's engine: a helm translates on the slice's first die; none when ENG is invalid or outside the
deckle (R80, BAD_ENGINE). -/
def State.queueDie (s : State) (t eng : Nat) : Option Nat :=
  if eng = 0 then some ((s.slice t).dies.headD 0)
  else if 0x20 ≤ eng && eng < 0x40 then
    match s.physDie t ((eng - 0x20) / 8) with
    | some d => if s.ceNamed t d ((eng - 0x20) % 8) then some d else none
    | none => none
  else if 0x40 ≤ eng && eng < 0x44 then s.physDie t (eng - 0x40)
  else none

/-- Packets that an engine serves (R84). -/
def serves (eng ty : Nat) : Bool :=
  if eng = 0 then ty == 1 || (5 ≤ ty && ty ≤ 8)
  else if eng < 0x40 then ty == 2 || ty == 3 || (5 ≤ ty && ty ≤ 7)
  else ty == 4 || (5 ≤ ty && ty ≤ 7)

/-- An engine of the slice accepts and starts packets: the slice is ACTIVE, no kill or quiesce is under way, and for the helm its
TDI is not in ERROR (R37, R103, R148). -/
def Slice.accepts (x : Slice) (eng : Nat) : Bool :=
  x.st == .active && !x.killing && !x.engStop && !x.quiesced && (eng != 0 || x.tdi != .error)

/-- A QCB is well formed (R79). -/
def qcbOk (b : List Byte) : Bool :=
  field b 0x10 8 % 4096 == 0 && 4 ≤ field b 0x18 4 && field b 0x18 4 ≤ 16 && zeroBytes b 0x1C 0x80

/-- What an engine finds at the head of a queue: nothing to do, poisoned data, a stop with QERR and TAG, or a packet with the
engine's die, RDIDX, its slot and its bytes. -/
inductive Head where
  | idle
  | poison (pa : Nat)
  | stop (err tag : Nat)
  | packet (die rd slot : Nat) (b : List Byte)
  deriving DecidableEq, Repr

/-- Poison among the bytes that an engine reads of an object (R101; log 47). -/
def State.objPoison (s : State) (t d a n : Nat) : Option Nat :=
  if s.m.poison.isEmpty && s.m.badWords.isEmpty then none
  else (List.range n).findSome? (fun i =>
    match s.engineLoc t d (a + i) .load with
    | .ok (e, pa) => if e.target == 0 && s.poisoned pa then some pa else none
    | .error _ => none)

/-- Read the slot of RDIDX through the QCB (R79, R82), which the engine must also be able to write. -/
def State.slotHead (s : State) (t d : Nat) (q : Queue) : Head :=
  let a := q.qcb.toNat
  match (if inGlob a 128 then s.engineRead t d a 128 else .error { cause := 9, host := false }) with
  | .error _ => .stop 4 0
  | .ok c =>
    if (s.objPoison t d a 128).isSome then .poison ((s.objPoison t d a 128).getD 0)
    else if !qcbOk c then .stop 4 0
    else
      let rd := field c 8 8
      let slot := field c 0x10 8 + 64 * (rd % 2 ^ field c 0x18 4)
      match (if inGlob slot 64 then s.engineRead t d slot 64 else .error { cause := 9, host := false }) with
      | .error _ => .stop 4 0
      | .ok b =>
        if (s.objPoison t d slot 64).isSome then .poison ((s.objPoison t d slot 64).getD 0)
        else if pktType b = 0 then .idle
        else if (s.engineWrite t d a c).isNone || (s.engineWrite t d slot b).isNone then .stop 4 (field b 2 2)
        else .packet d rd slot b

/-- The engine of a queue is offline (R109). -/
def State.engOffline (s : State) (t d eng : Nat) : Bool :=
  if eng = 0 then ((s.die 0).engine (16 + (s.slice t).helm)).offline
  else ((s.die d).engine (if eng < 0x40 then (eng - 0x20) % 8 else 8)).offline

/-! ## Regions and descriptors -/

/-- The nodes of a region, itself first, up to 8 (R91); QERR when the chain is too long or cannot be read. -/
def State.rcbChain (s : State) (t d : Nat) : Nat → Nat → Except Nat (List (Nat × List Byte))
  | _, 0 => .error 7
  | a, n + 1 =>
    if a % 128 ≠ 0 then .error 7
    else
      match (if inGlob a 128 then s.engineRead t d a 128 else .error { cause := 9, host := false }) with
      | .error _ => .error 8
      | .ok b =>
        if field b 0 8 = 0 then .ok [(a, b)]
        else
          match s.rcbChain t d (field b 0 8) n with
          | .error e => .error e
          | .ok l => .ok ((a, b) :: l)

/-- The objects that the checks of a packet read, address and bytes. -/
def State.pktReads (s : State) (t d : Nat) (b : List Byte) : List (Nat × Nat) :=
  match pktType b with
  | 1 => (field b 8 8, 256) :: (match s.rcbChain t d (field b 0x10 8) 8 with | .ok l => l.map (fun n => (n.1, 128)) | .error _ => [])
  | 5 => [(pktCnt b, 16)]
  | _ => []

/-- What an engine finds at a head, once no object that it reads for it waits at a controller (R66, R67). -/
def State.calmHead (s : State) (t d : Nat) (h : Head) : Head :=
  match h with
  | .packet e rd slot b =>
    if s.spanBusy t d slot 64 || (s.pktReads t d b).any (fun o => s.spanBusy t d o.1 o.2) then .idle else .packet e rd slot b
  | h => h

/-- The head of a queue that is served. -/
def State.queueHead (s : State) (t k : Nat) : Head :=
  let x := s.slice t
  let q := x.queue k
  if !x.accepts q.eng || !q.en || q.stopped then .idle
  else
    match s.queueDie t q.eng with
    | some d => if s.engOffline t d q.eng then .idle else s.calmHead t d (s.slotHead t d q)
    | none =>
      match s.slotHead t (x.dies.headD 0) q with
      | .idle => .idle
      | .poison _ => .stop 6 0
      | .stop _ tag => .stop 6 tag
      | .packet _ _ _ b => .stop 6 (field b 2 2)

/-- The effective values of a region (R91). -/
structure Region where
  prio : Nat := 8
  domain : Nat := 0
  share : Nat := 0x10000000000000000
  maxcores : Nat := 144
  /-- Quota holders, nearest first: the nodes with OVWQ; the root where there is none (R91, R139). -/
  holders : List Nat := []
  deriving DecidableEq, Repr

/-- One node under its parent's values (R91). -/
def Region.under (r : Region) (n : Nat × List Byte) : Region :=
  let ctl := field n.2 8 4
  { prio := if nbit ctl 10 then bits ctl 31 28 else r.prio,
    domain := if nbit ctl 11 then bits ctl 23 16 else r.domain,
    share := if nbit ctl 8 then r.share * field n.2 0xC 2 / 256 else r.share,
    maxcores := min (ctl % 256) r.maxcores,
    holders := if nbit ctl 9 then n.1 :: r.holders else r.holders }

/-- The values of a chain, from the root down. -/
def regionOf (l : List (Nat × List Byte)) : Region :=
  let r : Region := l.reverse.foldl (fun r n => Region.under r n) {}
  if r.holders.isEmpty then { r with holders := (l.getLast?.map (·.1)).toList } else r

/-- Limits of the nodes of a chain (R90). The spec gives the limits and not what breaking one does: a LAUNCH fails with BAD_FIELD on
MAXCORES or TOKSH outside them, whatever the override bits say, and reserved bits that are not zero are accepted (DESIGN CHOICE,
log 74). -/
def rcbOk (b : List Byte) : Bool :=
  let m := field b 8 4 % 256
  let k := field b 0xC 2
  1 ≤ m && m ≤ 144 && 1 ≤ k && k ≤ 256

/-- The image size ISIZE of a kernel (R176). -/
def isize (desc : List Byte) : Nat :=
  (field desc 0x20 4 + 4095) / 4096 * 4096 + (if nbit (field desc 0x1F 1) 1 then 786432 else 0)

/-- Threads and groups of a workgroup of a kernel (R157). -/
def threads (desc : List Byte) : Nat := field desc 0x18 2 * field desc 0x1A 2 * field desc 0x1C 2
def groupsOf (desc : List Byte) : Nat := (threads desc + 31) / 32

/-- The checks of a kernel descriptor (R118, R283, R284). -/
def descOk (b : List Byte) : Bool :=
  let regs := field b 0x1E 1
  field b 0 4 == 0x4353444B && field b 4 2 == 1 && field b 8 8 % 2 == 0 && 1 ≤ threads b && threads b ≤ 1024 &&
  8 ≤ regs && regs ≤ 64 && regs % 8 == 0 && field b 0x1F 1 < 4 && field b 0x20 4 ≤ 4194304 && zeroBytes b 0x26 0x28 &&
  BitVec.ofNat 32 (field b 0x28 4) &&& ~~~fmodeBits == 0 && 1 ≤ field b 0x2C 4 && field b 0x30 8 % 128 == 0 &&
  field b 0x38 8 % 128 == 0 && field b 0x40 8 % 128 == 0 && zeroBytes b 0x4C 0x50 && field b 0x50 8 % 8 == 0 &&
  field b 0x58 4 < 1048576 && zeroBytes b 0x5C 0x60 && field b 0x60 8 % 32 == 0 && field b 0x68 1 ≤ 16 &&
  zeroBytes b 0x69 0x70 && field b 0x70 8 % 4096 == 0 && zeroBytes b 0x7C 0x100 &&
  (field b 0x40 8 != 0 || field b 0x48 4 == 0) && (field b 0x50 8 != 0 || field b 0x58 4 == 0) &&
  (field b 0x70 8 != 0 || field b 0x78 4 == 0) && (field b 0x78 4 != 0 || isize b == 0)

/-! ## The checks of a packet (R83) -/

/-- The lowest context number of a slice that is free (R137). -/
def State.freeCtx (s : State) (t : Nat) : Option Nat :=
  ((List.range 256).map (t * 256 + ·)).find? (fun n => (Tbl.find (s.slice t).ctxs n).isNone)

/-- The context of a root RCB, if it has one. -/
def State.ctxOfRoot (s : State) (t root : Nat) : Option Nat :=
  ((s.slice t).ctxs.find? (fun c => c.2.rcb.toNat == root)).map (·.1)

/-- QERR of a LAUNCH beyond the limits of its own fields, 0 for none (R91, R118, R137, R284). -/
def State.launchErr (s : State) (t d : Nat) (b : List Byte) : Nat :=
  let desc := s.engineRead t d (field b 8 8) 256
  let chain := s.rcbChain t d (field b 0x10 8) 8
  let badDesc := match desc with
    | .ok l => !descOk l
    | .error _ => false
  let badChain := match chain with
    | .ok l => !(l.all (fun n => rcbOk n.2)) ||
        ((s.ctxOfRoot t ((l.getLast?.map (·.1)).getD 0)).isNone && (s.freeCtx t).isNone)
    | .error e => e == 7
  let lost := (match desc with | .ok _ => false | .error _ => true) || (match chain with | .ok _ => false | .error _ => true)
  if badDesc || badChain then 7 else if lost || (s.objFault t d b).isSome then 8 else 0

/-- QERR of a packet, 0 when it passes every check but that of a CWAIT's error word (R83). -/
def State.packetErr (s : State) (t d eng : Nat) (b : List Byte) : Nat :=
  let ty := pktType b
  if 9 ≤ ty then 1
  else if !serves eng ty then 3
  else if rsvSet b false then 2
  else if s.badField t d b then 7
  else if ty = 1 then s.launchErr t d b
  else if (s.objFault t d b).isSome then 8
  else 0

/-- Stop a queue with QERR (R83). -/
def State.stopQueue (s : State) (t k err tag : Nat) : State :=
  (s.modQueue t k (fun q => { q with stopped := true, qerr := err })).postVf t 1 (k + 256 * err + 65536 * tag)

/-- Which turn of R99 a queue takes: that of its copy engine, collective engine or helm. -/
def turnKey (t eng : Nat) : Nat := if eng = 0 then 16 + t else if eng < 0x40 then (eng - 0x20) % 8 else 32 + t

/-- The engine of a queue among those of its die: a helm is on die 0 (R109). -/
def State.engineOf (s : State) (t d eng : Nat) : Nat × Nat :=
  if eng = 0 then (0, 16 + (s.slice t).helm) else (d, if eng < 0x40 then (eng - 0x20) % 8 else 8)

/-- Accept the packet at the head of a queue: the header byte, then RDIDX (R82); its engine has completed a unit (R109). -/
def State.acceptHead (s : State) (t k d rd slot : Nat) : State :=
  let q := (s.slice t).queue k
  let s1 := (s.engineWrite t d slot [0]).getD s
  let s2 := (s1.engineWrite t d (q.qcb.toNat + 8) (leBytes 8 (rd + 1))).getD s1
  ((s2.modQueue t k (fun q => { q with rdlo := (rd + 1) % 2 ^ 32 })).modDie d
    (fun x => { x with turn := Tbl.put x.turn (turnKey t q.eng) (t * 64 + k) })).unitDone (s.engineOf t d q.eng).1 (s.engineOf t d q.eng).2

/-- A packet joins those of its queue that are accepted and not complete (R85). -/
def State.addPending (s : State) (t k d rd : Nat) (b : List Byte) : State :=
  s.modSlice t (fun x =>
    { x with
      nextPkt := x.nextPkt + 1,
      pending := Tbl.put x.pending k (Tbl.get x.pending [] k ++
        [{ num := x.nextPkt, pos := rd, eng := (x.queue k).eng, die := d, bytes := b }]) })

/-- The next packet of a queue may start when it is accepted: every earlier one has started, and has completed when it has
FENCE (R85). -/
def State.mayStart (s : State) (t k : Nat) (b : List Byte) : Bool :=
  let l := Tbl.get (s.slice t).pending [] k
  l.all (·.started) && (l.isEmpty || !pktFence b)

/-! ## What packets do when they start -/

/-- The context number of a queue's own operations, which the spec does not state (log 5). -/
def State.queueCtx (s : State) (k : Nat) : Nat := (s.freeVal 80 k).toNat % 65536

/-- CADD adds VALUE to CNT (R89). -/
def State.startCadd (s : State) (t k : Nat) (p : Pkt) : State :=
  ({ s with free := s.free + 1 } : State).counterAdd t p.die (s.queueCtx k) (pktCnt p.bytes) (field p.bytes 0x10 8) p.eng

/-- MARKER writes CYCLE to TS, then adds VALUE to CNT (R89). -/
def State.startMarker (s : State) (t k : Nat) (p : Pkt) : State :=
  let ts := pktWord p.bytes
  let s1 := if ts = 0 then s else s.objWrite t p.die ts (leBytes 8 s.cycle) p.eng 3
  s1.startCadd t k p

/-- REGION writes the selected fields of an RCB (R92). Where the RCB has lost its page since the packet was accepted, nothing is
written and nothing recorded: the spec does not say what happens (DESIGN CHOICE, log 74). -/
def State.startRegion (s : State) (t : Nat) (p : Pkt) : State :=
  let a := field p.bytes 8 8
  let m := field p.bytes 0x10 4
  let put (s : State) (on : Bool) (off : Nat) (l : List Byte) : State :=
    if on then (s.engineWrite t p.die (a + off) l).getD s else s
  put (put (put s (nbit m 0) 8 (leBytes 4 (field p.bytes 0x14 4))) (nbit m 1) 0xC (leBytes 2 (field p.bytes 0x18 2)))
    (nbit m 2) 0x10 (leBytes 4 (field p.bytes 0x1C 4))

/-- A packet starts: a LAUNCH may be dealt, CADD, MARKER and REGION act and complete; a copy or collective is started by its
engine's first piece or tile. -/
def State.startPkt (s : State) (t k : Nat) (p : Pkt) : State :=
  match pktType p.bytes with
  | 1 => s.pktStart t (some k) p.num
  | 6 => (s.startCadd t k p).packetDone t (some k) p.num
  | 7 => (s.startMarker t k p).packetDone t (some k) p.num
  | 8 => (s.startRegion t p).packetDone t (some k) p.num
  | _ => s

/-- Start the next packet of a queue when it may start (R85). -/
def State.startNext (s : State) (t k : Nat) : State :=
  match (Tbl.get (s.slice t).pending [] k).find? (fun p => !p.started) with
  | some p => if s.pktMay t k p.num && (s.slice t).accepts p.eng then s.startPkt t k p else s
  | none => s

/-! ## LAUNCH (R86, R91, R115, R137) -/

/-- The enabled cores of a slice in logical order, with their logical numbers (R115). -/
def State.sliceCores (s : State) (t : Nat) : List (Nat × Nat × Nat × Nat) :=
  let x := s.slice t
  (List.range x.dies.length).flatMap (fun ld =>
    let d := x.dies.getD ld 0
    let cls := x.clusters.filter (fun e => e.1 == d)
    (List.range cls.length).flatMap (fun lc =>
      let cs := s.clusterCores (d * 36 + (cls.getD lc (d, 0)).2 * 4)
      (List.range cs.length).map (fun lk => (cs.getD lk 0, ld, lc, lk))))

/-- Accept a LAUNCH, packet `num` of its slice: its region is resolved, its context numbered, its cores fixed. -/
def State.acceptLaunch (s : State) (t k num d : Nat) (b : List Byte) : State :=
  match s.engineRead t d (field b 8 8) 256, s.rcbChain t d (field b 0x10 8) 8 with
  | .ok desc, .ok chain =>
    let r := regionOf chain
    let root := (chain.getLast?.map (·.1)).getD 0
    let ctx := (s.ctxOfRoot t root).getD ((s.freeCtx t).getD (t * 256))
    let id := (s.slice t).nextLaunch
    let l : Launch :=
      { id := id, queue := k, num := num, ctx := ctx, pkt := b, desc := desc, prio := r.prio, domain := r.domain,
        maxcores := r.maxcores, tokshare := r.share, cores := (s.sliceCores t).take r.maxcores,
        total := field b 0x20 2 * field b 0x22 2 * field b 0x24 2, region := field b 0x10 8, holders := r.holders }
    s.modSlice t (fun x =>
      { x with nextLaunch := id + 1, launches := Tbl.put x.launches id l,
               ctxs := match Tbl.find x.ctxs ctx with
                 | some _ => x.ctxs
                 | none => Tbl.put x.ctxs ctx { num := ctx, rcb := BitVec.ofNat 64 root } })
  | _, _ => s

/-! ## The packets -/

/-- Poison among what the engine reads of the objects of a packet that passed its checks: a LAUNCH's KDESC and RCBs, the counter
of a CWAIT (R101; log 47). -/
def State.pktPoison (s : State) (t d : Nat) (b : List Byte) : Option Nat :=
  match pktType b with
  | 1 =>
    (s.objPoison t d (field b 8 8) 256).orElse (fun _ =>
      match s.rcbChain t d (field b 0x10 8) 8 with
      | .ok l => l.findSome? (fun n => s.objPoison t d n.1 128)
      | .error _ => none)
  | 5 => s.objPoison t d (pktCnt b) 16
  | _ => none

/-- Parse the head of a queue when it holds a packet of type `ty`: a failing check stops the queue; else the packet is accepted,
its engine takes it over, and it starts when it may (R82, R83, R85). -/
def State.parse (s : State) (t k ty : Nat) (take : State → Nat → Nat → List Byte → State) : State :=
  match s.queueHead t k with
  | .packet d rd slot b =>
    if pktType b ≠ ty then s
    else
      let e := s.packetErr t d ((s.slice t).queue k).eng b
      if e ≠ 0 then s.stopQueue t k e (field b 2 2)
      else match s.pktPoison t d b with
        | some pa => s.consumePoison t pa
        | none => (take ((s.acceptHead t k d rd slot).addPending t k d rd b) (s.slice t).nextPkt d b).startNext t k
  | _ => s

/-- LAUNCH (R86). -/
def execPktLaunch (slice k : Nat) (s : State) : Host.Outcome State Fault Refusal :=
  .next (s.parse slice k 1 (fun s n d b => s.acceptLaunch slice k n d b))

/-- A copy of a queue (R87): its engine accepts it and forms its promise (R98). -/
def State.queueCopy (s : State) (t k num d : Nat) (b : List Byte) : State :=
  (({ s with free := s.free + 1 } : State).acceptCopy d ((((s.slice t).queue k).eng - 0x20) % 8)
    { slice := t, ctx := s.queueCtx k, queue := some k, pkt := num, image := b }).1

/-- COPY (R87). -/
def execPktCopy (slice k : Nat) (s : State) : Host.Outcome State Fault Refusal :=
  .next (s.parse slice k 2 (fun s n d b => s.queueCopy slice k n d b))

/-- COPY2D (R87). -/
def execPktCopy2d (slice k : Nat) (s : State) : Host.Outcome State Fault Refusal :=
  .next (s.parse slice k 3 (fun s n d b => s.queueCopy slice k n d b))

/-- COLL (R88). -/
def execPktColl (slice k : Nat) (s : State) : Host.Outcome State Fault Refusal :=
  .next (s.parse slice k 4 (fun s n d b =>
    (({ s with free := s.free + 1 } : State).acceptColl d
      { slice := slice, ctx := s.queueCtx k, queue := some k, pkt := n, image := b }).1))

/-- CWAIT (R89): the error word stops the queue; a VALUE reached lets the engine accept and complete it, in its place among the
queue's packets (R85). -/
def State.parseCwait (s : State) (t k : Nat) : State :=
  match s.queueHead t k with
  | .packet d rd slot b =>
    if pktType b ≠ 5 then s
    else
      let e := s.packetErr t d ((s.slice t).queue k).eng b
      if e ≠ 0 then s.stopQueue t k e (field b 2 2)
      else
        match s.pktPoison t d b, s.engineRead t d (pktCnt b) 16 with
        | some pa, _ => s.consumePoison t pa
        | none, .error _ => s.stopQueue t k 8 (field b 2 2)
        | none, .ok c =>
          if nbit (field c 8 8) 63 then s.stopQueue t k 5 (field b 2 2)
          else if field b 0x10 8 ≤ field c 0 8 && s.mayStart t k b then s.acceptHead t k d rd slot
          else s
  | _ => s

/-- CWAIT (R89). -/
def execPktCwait (slice k : Nat) (s : State) : Host.Outcome State Fault Refusal := .next (s.parseCwait slice k)

/-- CADD (R89). -/
def execPktCadd (slice k : Nat) (s : State) : Host.Outcome State Fault Refusal := .next (s.parse slice k 6 (fun s _ _ _ => s))

/-- MARKER (R89). -/
def execPktMarker (slice k : Nat) (s : State) : Host.Outcome State Fault Refusal := .next (s.parse slice k 7 (fun s _ _ _ => s))

/-- REGION (R92). -/
def execPktRegion (slice k : Nat) (s : State) : Host.Outcome State Fault Refusal := .next (s.parse slice k 8 (fun s _ _ _ => s))

/-- BAD_TYPE (R83): a slot of TYPE 9 to 15, or a slot that the engine cannot reach, stops the queue. -/
def execPktBadType (slice k : Nat) (s : State) : Host.Outcome State Fault Refusal :=
  .next (match s.queueHead slice k with
    | .idle => s
    | .poison pa => s.consumePoison slice pa
    | .stop e tag => s.stopQueue slice k e tag
    | .packet _ _ _ b => if 9 ≤ pktType b then s.stopQueue slice k 1 (field b 2 2) else s)

/-- QTAB.k.CTL is written (R80): ENG only while EN is 0; a rise of EN clears STOPPED and QERR. -/
def State.writeQueue (s : State) (t k : Nat) (v : Nat) : State :=
  if t < 16 && k < 64 then
    s.modQueue t k (fun q =>
      let en := nbit v 31
      { q with en := en, prio := bits v 15 12, eng := if q.en then q.eng else bits v 7 0,
               stopped := if en && !q.en then false else q.stopped, qerr := if en && !q.en then 0 else q.qerr })
  else s

/-- QTAB_CTL_WRITE (R80). -/
def execQtabCtlWrite (slice k : Nat) (v : Word) (s : State) : Host.Outcome State Fault Refusal :=
  .next (s.bar0 (s.writeQueue slice k v.toNat))

end Sys2Proof.Machine
end

