-- ==== Sys2Proof/Machine/Containment.lean ====
section
/-! DEFINITION. Containment and reliability (R101 to R114): poison found by the patrol scrub, strikes and rollback,
mismatches of duplicated engines, the sounding table, repairs, bank retirement, and the in-field test. -/

namespace Sys2Proof.Machine

/-! ## Poison (R101) -/

/-- MEM_POISON for a frame: to the PF ring, and to the owner's terminal ring. -/
def State.postPoison (s : State) (a : Nat) : State :=
  let f := a / 65536
  let o := s.owner f
  let s1 := s.postPf 4 f
  if o < 16 then s1.postRecord (s1.fnOf o) 1 { code := 4, slice := o, data := f } else s1

/-- An uncorrectable error poisons the line or the 64-bit word that it strikes (R100); an HBM line is posted (R101). -/
def State.poisonSite (s : State) (site : ErrSite) : State :=
  match site with
  | .line n => (s.modM (fun m => { m with poison := if m.poison.contains n then m.poison else n :: m.poison })).postPoison (n * 128)
  | .l1 core w =>
    s.modCore core (fun c => { c with lines := c.lines.map (fun l =>
      if l.va == w / 16 && !l.bad.contains (w % 16) && l.bytes.any (fun b => b.1 / 8 == w % 16) then { l with bad := w % 16 :: l.bad }
      else l) })
  | w => s.markBad w

/-- PATROL_SCRUB (R101), and any other check of a store that finds an error (R100): a corrected one has no effect. -/
def execPatrolScrub (site : ErrSite) (uncorrectable : Bool) (s : State) : Host.Outcome State Fault Refusal :=
  .next (if uncorrectable then s.poisonSite site else s)

/-! ## Strikes (R104 to R106) -/

/-- The cores of a cluster. -/
def zoneCores (d cl : Nat) : List Nat := (List.range 4).map (fun k => d * 36 + cl * 4 + k)

/-- The newest checkpoint of a die that is 64 cycles old; the oldest one while none is. -/
def Die.checkpoint (x : Die) : Option Checkpoint :=
  match x.history.find? (fun c => decide (c.cyc + 64 ≤ x.cyc)) with
  | some c => some c
  | none => x.history.getLast?

/-- A group as its checkpoint has it: entries that have been freed since stay freed, what outside units did to an entry
stays done, and a freeze in progress starts again (R105, R106). A stop at a fix in the dropped window is dropped with it, for the
group is no longer there (R229); a DUMP goes on (R233). -/
def rolledBack (now : Nat) (g ck : Group) : Group :=
  let back := { ck with log := ck.log.filterMap (fun e => g.log.find? (fun f => f.num == e.num)), naks := g.naks, dumpAt := g.dumpAt }
  if g.fixStop && !ck.fixStop then back
  else
    { back with
      place := g.place, frame := g.frame, why := g.why, token := g.token, wants := g.wants, frozeAt := g.frozeAt, frozeCyc := now,
      evictor := g.evictor, faultVa := g.faultVa, faultMask := g.faultMask, faultSplit := g.faultSplit, faultEnt := g.faultEnt,
      dbgHeld := g.dbgHeld, fixStop := g.fixStop }

/-- An operation of a group was made by an instruction that the rollback drops. -/
def madeAfter (g ck : Group) (ent : Nat) : Bool :=
  match g.entry? ent with
  | some e => decide (ck.nextNum ≤ e.num)
  | none => false

/-- A collective that is dropped has not been accepted: those of its slice that come after it move up in the pairing of R410. -/
def State.unpair (s : State) (j : CollJob) : State :=
  (j.names.zip j.ords).foldl (fun s e =>
    match e.1 with
    | none => s
    | some m =>
      let s1 := s.modSlice j.slice (fun x => { x with collSeq := Tbl.put x.collSeq m (Tbl.get x.collSeq 0 m - 1) })
      { s1 with dies := s1.dies.map (fun (d : Nat × Die) => (d.1, { d.2 with colls := d.2.colls.map (fun k =>
          if k.slice == j.slice then
            { k with ords := (k.names.zip k.ords).map (fun f => if f.1 == some m && decide (e.2 < f.2) then f.2 - 1 else f.2) }
          else k) })) }) s

/-- Drop the matrix operations, copies, collectives and cancels that instructions of a group issued in cycle cyc or later. -/
def State.dropMade (s0 : State) (gid : Nat) (g ck : Group) (cyc : Nat) : State :=
  let drop (w : Option (Nat × Nat)) : Bool := match w with | some (h, e) => h == gid && madeAfter g ck e | none => false
  let late (w : Option (Nat × Nat × Nat)) : Bool := match w with | some (h, c, _) => h == gid && decide (cyc ≤ c) | none => false
  let s := ((s0.dies.flatMap (·.2.colls)).filter (fun j => drop j.gid && !j.ords.isEmpty)).foldl State.unpair s0
  { s with
    cores := s.cores.map (fun (e : Nat × Core) => (e.1, { e.2 with queue := e.2.queue.filter (fun o => !drop (some (o.gid, o.ent))) })),
    dies := s.dies.map (fun (e : Nat × Die) => (e.1,
      { e.2 with engines := e.2.engines.map (fun (x : Nat × Engine) => (x.1, { x.2 with
                   jobs := (x.2.jobs.filter (fun j => !drop j.gid)).map (fun j => if late j.cancel then { j with cancel := none } else j) })),
                 colls := e.2.colls.filter (fun j => !drop j.gid) })) }

/-- Roll one group back to its checkpoint; its watch and its holders' usage lose the dropped instructions (R106). -/
def State.rollGroup (s : State) (now cyc gid : Nat) (ck : Group) : State :=
  match Tbl.find s.groups gid with
  | none => s
  | some g =>
    if g.place == .saved then s
    else
      let n := g.count_ - ck.count_
      let s1 := (s.dropMade gid g ck cyc).modGroup gid (fun _ => rolledBack now g ck)
      s1.modSlice g.slice (fun x => { x with ctxs := Tbl.upd x.ctxs g.ctx (fun c =>
        { c with watch := c.watch - n, usage := g.holders.foldl (fun u h => Tbl.put u h (Tbl.get u 0 h - n)) c.usage }) })

/-- Buckets of a core after a rollback: the checkpointed level and every payment since, capped (R105). -/
def rolledBucket (c : Core) (m : CoreMark) : Tbl Nat :=
  (List.range 8).foldl (fun b p =>
    Tbl.put b p (min 65536 (Tbl.get m.bkt 0 p + (Tbl.get c.paid 0 p - Tbl.get m.paid 0 p)))) c.bkt

/-- The leaf counts of the last 64 cycles of a core turn into ROLLBACK (R236), and event 40 counts. -/
def lostLeaves (now : Nat) (c : Core) : Core :=
  { c.count 40 1 with leaves := c.leaves.map (fun e => if decide (now < e.1 + 65) then (e.1, [(20, 24)]) else e) }

/-- A group as it stood when the window of a rollback began: in the checkpoint, or, where it came to its core later, in the first
one since that has it there (R105). -/
def Die.groupMark (x : Die) (ck : Checkpoint) (gid core : Nat) : Option Group :=
  (x.history.filter (fun c => decide (ck.cyc ≤ c.cyc))).reverse.findSome? (fun c =>
    (Tbl.find c.groups gid).filter (fun g => g.core == core && g.place != .saved))

/-- Undo what a tile form wrote at issue: the bytes that still hold what it wrote, and the accumulator (R105; log 52). -/
def State.undo (s : State) (core : Nat) (u : Undo) : State :=
  let s1 := u.spad.foldl (fun s b => if s.spadByte core b.1 = b.2.2 then s.setSpad core b.1 [b.2.1] else s) s
  match u.acc with
  | none => s1
  | some (d, rule, l) =>
    ({ s1 with tile := l.foldl (fun t e => Tbl.put t e.1 e.2) (s1.tile.filter (fun e => e.1 / 24576 != core * 8 + d)) } : State).modCore
      core (fun c => { c with accInit := Tbl.put c.accInit d rule })

/-- What the tile forms of a core wrote since a cycle is undone, the last first: those of one group, or all. -/
def State.undoSince (s : State) (core cyc : Nat) (gid : Option Nat) : State :=
  let l := (s.core core).undo
  let p (u : Undo) : Bool := decide (cyc ≤ u.cyc) && (match gid with | some g => u.gid == g | none => true)
  ((l.filter p).foldl (fun s u => s.undo core u) s).modCore core (fun c => { c with undo := l.filter (fun u => !p u) })

/-- Roll one core of the zone back. -/
def State.rollCore (s : State) (now core : Nat) (ck : Checkpoint) : State :=
  let x := s.die (dieOf core)
  let s1 := s.modCore core (fun c => lostLeaves now c)
  let s2 := s1.modCore core (fun c =>
    let m := Tbl.get ck.cores {} core
    { c with bkt := rolledBucket c m, winSpent := if c.win = m.win then m.winSpent else c.winSpent,
             scrub := if now < c.scrub then now + 4096 else c.scrub })
  (s.groups.filter (fun e => e.2.core == core)).foldl (fun s e =>
    match x.groupMark ck e.1 core with
    | some g => s.rollGroup now ck.cyc e.1 g
    | none => s) (s2.undoSince core ck.cyc none)

/-- A checkpoint of dropped execution takes the content of the one restored, for the cores of the zone: a strike reported during
re-execution restarts from the same checkpoint (R106). -/
def Checkpoint.restart (c ck : Checkpoint) (cores : List Nat) : Checkpoint :=
  if c.cyc ≤ ck.cyc then c
  else
    { c with
      groups := (ck.groups.filter (fun e => cores.contains e.2.core)).foldl (fun t e => Tbl.put t e.1 e.2)
        (c.groups.filter (fun e => !(cores.contains e.2.core && (Tbl.find ck.groups e.1).isSome))),
      cores := cores.foldl (fun t k => match Tbl.find ck.cores k with | some m => Tbl.put t k m | none => t) c.cores }

/-- Trace records of the zone that are not 64 cycles old are dropped (R105, R234). -/
def State.dropHeld (s : State) (now : Nat) (cores : List Nat) : State :=
  { s with slices := s.slices.map (fun (e : Nat × Slice) => (e.1, { e.2 with dbg := { e.2.dbg with
      held := e.2.dbg.held.filter (fun r => !(cores.contains (r.1 / 2 ^ 64) && decide (now < r.1 % 2 ^ 64 + 65))) } })) }

/-- STRIKES.Dn, and the storm: more than 64 rollbacks of a zone within 1 ms (R106). -/
def State.countStrike (s : State) (d cl : Nat) : State :=
  let x := s.die d
  let l := s.cycle :: (Tbl.get x.rollbacks [] cl).filter (fun c => decide (s.cycle < c + 1000000))
  let s1 := s.modDie d (fun x => { x with strikes := x.strikes + 1, rollbacks := Tbl.put x.rollbacks cl l })
  if 64 < l.length then
    (s1.modDie d (fun x =>
      { x with rollbacks := Tbl.put x.rollbacks cl [],
               testQueue := if x.testQueue.contains cl then x.testQueue else x.testQueue ++ [cl] })).postPf 10 (d + 4 * cl)
  else s1

/-- A strike in a zone (R105). -/
def State.strike (s : State) (d cl : Nat) : State :=
  let x := s.die d
  let cores := zoneCores d cl
  let s1 := match x.checkpoint with
    | none => s
    | some ck =>
      (cores.foldl (fun (s : State) c => s.rollCore x.cyc c ck) s).modDie d (fun x =>
        { x with history := x.history.map (fun (c : Checkpoint) => c.restart ck cores) })
  let s2 := (s1.dropHeld x.cyc cores).modDie d (fun x => { x with frozen := Tbl.put x.frozen cl (x.cyc + 16) })
  ({ s2 with cur := match s2.cur with
      | some (g, b) => if cores.contains (s2.group g).core then none else some (g, b)
      | none => none } : State).countStrike d cl

/-- STRIKE_REPORT (R105). -/
def execStrikeReport (die cl : Nat) (s : State) : Host.Outcome State Fault Refusal :=
  .next (if die < 4 && cl < 9 then s.strike die cl else s)

/-- Issue resumes in a zone 16 cycles after a rollback (R105). -/
def State.strikeEnd (s : State) (d cl : Nat) : State :=
  s.modDie d (fun x => if decide (Tbl.get x.frozen 0 cl ≤ x.cyc) then { x with frozen := Tbl.del x.frozen cl } else x)

/-- STRIKE_RESUME (R105). -/
def execStrikeResume (die cl : Nat) (s : State) : Host.Outcome State Fault Refusal := .next (s.strikeEnd die cl)

/-! ## Mismatches of duplicated engines (R109) -/

/-- What an engine that goes offline had accepted stops with CAUSE KILLED, and the writes that it holds are dropped; a helm's queues
stop as a kill stops them. The spec names the packet in hand: the model stops those behind it as well, which no engine would take
up (DESIGN CHOICE, log 73). -/
def State.failEngine (s : State) (t d eng : Nat) : State :=
  if eng = 0 then
    let h := (s.slice t).helm
    { s with slices := s.slices.map (fun (e : Nat × Slice) => (e.1,
        if e.2.helm == h && e.2.holds then
          { e.2 with queues := e.2.queues.map (fun q => (q.1, if q.2.eng == 0 then { q.2 with en := false, stopped := true, qerr := 0 } else q.2)) }
        else e.2)) }
  else if eng < 0x40 then
    let e := (eng - 0x20) % 8
    ((s.die d).engine e).jobs.foldl (fun s j => s.stopCopy d e { j with inflight := [], cancel := none } 2 0 j.failAddr) s
  else (s.die d).colls.foldl (fun s j => s.stopColl d j 2 0) s

/-- A mismatch: the unit is redone, and at the third the engine goes offline (R109). -/
def State.mismatch (s : State) (t eng : Nat) : State :=
  match s.queueDie t eng with
  | none => s
  | some d0 =>
    let d := if eng = 0 then 0 else d0
    let k := if eng = 0 then 16 + (s.slice t).helm else if eng < 0x40 then (eng - 0x20) % 8 else 8
    let x := (s.die d).engine k
    if x.offline then s
    else if x.strikes + 1 < 3 then s.modEngine d k (fun x => { x with strikes := x.strikes + 1 })
    else ((s.failEngine t d0 eng).modEngine d k (fun x => { x with offline := true, strikes := 0 })).postPf 11 (d0 + 256 * eng)

/-- ENGINE_COMPARE_MISMATCH (R109). -/
def execEngineCompareMismatch (slice eng : Nat) (s : State) : Host.Outcome State Fault Refusal := .next (s.mismatch slice eng)

/-! ## The sounding table (R110 to R112) -/

/-- Same location. -/
def Sounding.at_ (e : Sounding) (ch bank row col : Nat) : Bool := e.ch == ch && e.bank == bank && e.row == row && e.col == col

/-- The entry that a new location takes: the lowest free one, else the one of class 0 updated least recently (R111). -/
def Stack.soundPlace (x : Stack) : Option Nat :=
  match (List.range 1024).find? (fun i => (Tbl.find x.table i).isNone) with
  | some i => some i
  | none => ((x.table.filter (fun e => e.2.cls == 0)).foldl (fun b e => match b with
      | none => some e
      | some c => if e.2.used < c.2.used then some e else some c) none).map (·.1)

/-- Record one corrected error in the entry of its location, or in one that it takes (R111). -/
def soundAdd (x : Stack) (ch bank row col : Nat) : Stack :=
  let put (i : Nat) (e : Sounding) : Stack :=
    { x with updates := x.updates + 1, table := Tbl.put x.table i { e with used := x.updates + 1 } }
  match x.table.find? (fun e => e.2.at_ ch bank row col) with
  | some e => put e.1 { e.2 with count := min 255 (e.2.count + 1) }
  | none =>
    match x.soundPlace with
    | some i => put i { count := 1, ch := ch, bank := bank, row := row, col := col }
    | none => { x with lost := x.lost + 1 }

/-- Distinct numbers of a list. -/
def distinct (l : List Nat) : Nat := l.eraseDups.length

/-- The first class of R111 whose condition holds for the location just updated; 0 none. -/
def soundClass (l : List Sounding) (ch bank row col : Nat) : Nat :=
  let b := l.filter (fun e => e.ch == ch && e.bank == bank)
  if !(b.any (·.at_ ch bank row col)) then 0
  else if 8 < distinct (b.map (·.row)) && 8 < distinct (b.map (·.col)) then 4
  else if 4 < distinct ((b.filter (fun e => e.col == col)).map (·.row)) then 3
  else if 4 < distinct ((b.filter (fun e => e.row == row)).map (·.col)) then 2
  else if b.any (fun e => e.at_ ch bank row col && decide (2 ≤ e.count)) then 1
  else 0

/-- Entries that a repair of a class covers. -/
def Repair.covers (r : Repair) (e : Sounding) : Bool :=
  e.ch == r.ch && e.bank == r.bank && (r.cls == 4 || (if r.cls = 3 then e.col == r.col else e.row == r.row))

/-- Ask the host to retire a bank (R112). -/
def State.askRetire (s : State) (k ch bank : Nat) : State :=
  if (s.stack k).requests.contains (ch, bank) then s
  else (s.modStack k (fun x => { x with requests := x.requests ++ [(ch, bank)] })).postPf 13 (k + 16 * ch + 1024 * bank)

/-- Start a repair, or escalate it when no spare is left (R111). -/
def State.startRepair (s : State) (k : Nat) (r : Repair) : State :=
  let x := s.stack k
  let key := r.ch * 64 + r.bank
  if r.cls = 4 then s.askRetire k r.ch r.bank
  else if x.repairs.any (fun q => q.cls == r.cls && q.ch == r.ch && q.bank == r.bank && (if r.cls = 3 then q.col == r.col else q.row == r.row)) then s
  else if r.cls = 3 then
    if Tbl.get x.spareCols 0 key < 2 then
      s.modStack k (fun x => { x with spareCols := Tbl.put x.spareCols key (Tbl.get x.spareCols 0 key + 1), repairs := x.repairs ++ [r] })
    else s.askRetire k r.ch r.bank
  else if Tbl.get x.spareRows 0 key < 4 then
    s.modStack k (fun x => { x with spareRows := Tbl.put x.spareRows key (Tbl.get x.spareRows 0 key + 1), repairs := x.repairs ++ [r] })
  else s.askRetire k r.ch r.bank

/-- CORRECTED_ERROR (R111). -/
def execCorrectedError (stack ch bank row col : Nat) (s : State) : Host.Outcome State Fault Refusal :=
  let s1 := s.modStack stack (fun x => soundAdd x ch bank row col)
  let c := soundClass ((s1.stack stack).table.map (·.2)) ch bank row col
  let r : Repair := { cls := c, ch := ch, bank := bank, row := row, col := col, endAt := s.cycle + 10000 }
  .next (if c = 0 then s1
    else (s1.modStack stack (fun x => { x with table := x.table.map (fun (e : Nat × Sounding) =>
      if (if c = 1 then e.2.at_ ch bank row col else r.covers e.2) then (e.1, { e.2 with cls := c }) else e) })).startRepair
      stack r)

/-- The first repair of a stack completes: it is soft until the die's next HS0 to HS2, its entries are freed and MEM_REPAIRED is
posted (R111). -/
def State.endRepair (s : State) (k : Nat) : State :=
  match (s.stack k).repairs with
  | [] => s
  | r :: rest =>
    let key := r.ch * 64 + r.bank
    let one (on : Bool) (t : Tbl Nat) : Tbl Nat := if on then Tbl.put t key (Tbl.get t 0 key + 1) else t
    (s.modStack k (fun x =>
      { x with
        repairs := rest, softRows := one (r.cls != 3) x.softRows, softCols := one (r.cls == 3) x.softCols,
        table := x.table.filter (fun e => !r.covers e.2) })).postPf 12
      (k + 16 * r.ch + 1024 * r.bank + 65536 * r.cls)

/-- REPAIR_DONE (R111). -/
def execRepairDone (stack : Nat) (s : State) : Host.Outcome State Fault Refusal := .next (s.endRepair stack)

/-- The 512 frames of a bank (R196). -/
def bankFrames (k ch bank : Nat) : List Nat := (List.range 512).map (fun r => (k * 32 + ch) * 32768 + r * 64 + bank)

/-- BANKRET.Ss is written: GO retires the bank when it was requested and every frame of it is free (R112). -/
def State.retireBank (s : State) (k v : Nat) : State :=
  let ch := bits v 10 6
  let bank := bits v 5 0
  let put (s : State) (res : Nat) : State :=
    s.modStack k (fun x => { x with retire := BitVec.ofNat 32 (res * 2 ^ 28 + ch * 64 + bank) })
  if !nbit v 31 then put s (bits (s.stack k).retire.toNat 30 28)
  else if !(s.stack k).requests.contains (ch, bank) then put s 2
  else if (bankFrames k ch bank).any (fun f => s.owner f != 31) then put s 1
  else
    put (((bankFrames k ch bank).foldl (fun s f => s.setOwner f 30) s).modStack k (fun x =>
      { x with requests := x.requests.filter (fun q => q != (ch, bank)), retired := x.retired ++ [(ch, bank)] })) 0

/-- BANK_RETIRE (R112). -/
def execBankRetire (stack : Nat) (v : Word) (s : State) : Host.Outcome State Fault Refusal :=
  .next (s.bar0 (if stack < 8 then s.retireBank stack v.toNat else s))

/-! ## The in-field test (R113, R114) -/

/-- A core may be tested: EN, no group on it, PERIOD elapsed since its last test. -/
def State.mayTest (s : State) (core : Nat) : Bool :=
  let c := s.core core
  s.m.intest && s.enabled core && c.testing == 0 && c.wgs.isEmpty && c.waiting.isEmpty && s.groups.all (fun e => e.2.core != core || e.2.place == .saved) &&
    (s.die (dieOf core)).curhs == 3 && (c.lastTest == 0 || decide (c.lastTest + s.m.inperiod * 1000000000 ≤ s.cycle))

/-- The boot ROM checks the signature of the test kernels before their first use; a bad one is never used (R113). -/
def State.checkKernels (s : State) : State := s.modM (fun m => { m with testChecked := true })

/-- Start the test of a core. -/
def State.startTest (s : State) (core : Nat) : State :=
  if s.mayTest core && (s.m.testChecked || Config.signatureValid Config.testKernels) then
    (s.checkKernels.modCore core (fun c => { c with testing := s.cycle + 1 })).modDie (dieOf core) (fun x =>
      { x with testQueue := x.testQueue.filter (· != clusterOf core) })
  else s

/-- INFIELD_TEST_START (R113). -/
def execInfieldTestStart (core : Nat) (s : State) : Host.Outcome State Fault Refusal := .next (s.startTest core)

/-- The result record of a test: the core and the outcome, signed with the device identity key (R113). -/
def testRecord (core : Nat) (pass : Bool) (cycle : Nat) : List Byte :=
  let r := leBytes 2 core ++ leBytes 1 (b2n pass) ++ leBytes 8 cycle
  r ++ signature r

/-- The digest of a test's result is the signed reference (R113). -/
def testPasses (result : List Byte) : Bool := Config.shake256 result == Config.testReference

/-- INFIELD_TEST_DONE (R113, R114): the kernel has run on the core and left its result. -/
def execInfieldTestDone (core : Nat) (result : List Byte) (s : State) : Host.Outcome State Fault Refusal :=
  let pass := testPasses result
  .next (if (s.core core).testing = 0 then s
    else
      let s1 := (s.modCore core (fun c => { c with testing := 0, lastTest := s.cycle + 1, failed := c.failed || !pass })).modM (fun m =>
        { m with testRuns := m.testRuns + 1, testLog := m.testLog ++ [testRecord core pass s.cycle] })
      if pass then s1 else s1.postPf 14 (dieOf core + 256 * (core % 36)))

end Sys2Proof.Machine
end

