-- ==== Sys2Proof/Machine/Scheduler.lean ====
section
/-! DEFINITION. The hardware scheduler (R115 to R140, R165): the deal, residence, the issue slots, the meridian ring,
admission, eviction, retirement and scrubs. -/

namespace Sys2Proof.Machine

/-! ## Dealing workgroups (R116) -/

/-- The eligible clusters of a launch in logical order, each with its eligible cores. -/
def clustersOf (l : List (Nat × Nat × Nat × Nat)) : List (List Nat) :=
  (l.map (fun c => (c.2.1, c.2.2.1))).eraseDups.map (fun k => (l.filter (fun c => (c.2.1, c.2.2.1) == k)).map (·.1))

/-- Share i of n things divided over k takers. -/
def shareOf (n k i : Nat) : Nat := n / k + (if i < n % k then 1 else 0)

/-- How many workgroups of N go to each eligible core, in logical order (R116). -/
def dealShares (l : List (Nat × Nat × Nat × Nat)) (n : Nat) : List (Nat × Nat) :=
  let cs := clustersOf l
  (List.range cs.length).flatMap (fun j =>
    let es := cs.getD j []
    let nj := shareOf n cs.length j
    (List.range es.length).map (fun i => (es.getD i 0, shareOf nj es.length i)))

/-- The core of the workgroup at a position of the deal. -/
def dealAt : List (Nat × Nat) → Nat → Option Nat
  | [], _ => none
  | (c, w) :: r, k => if k < w then some c else dealAt r (k - w)

/-- The core to which a launch's workgroup is dealt: by its place among those not retired when it was last dealt afresh
(R116, R153). -/
def Launch.coreOf (l : Launch) (lin : Nat) : Option Nat :=
  dealAt (dealShares l.cores (l.total - l.skip.length)) (lin - (l.skip.filter (fun k => decide (k < lin))).length)

/-- The region values of a launch as they stand, its values at acceptance when an RCB can no longer be read (R91, R92). -/
def State.regionNow (s : State) (t : Nat) (l : Launch) : Region :=
  match s.rcbChain t ((s.slice t).dies.headD 0) l.region 8 with
  | .ok chain => regionOf chain
  | .error _ => { prio := l.prio, domain := l.domain, share := l.tokshare, maxcores := l.maxcores, holders := l.holders }

/-- A core under test that receives a workgroup abandons the test and is scrubbed (R113). -/
def State.abandonTest (s : State) (core : Nat) : State :=
  if (s.core core).testing = 0 then s
  else (s.modCore core (fun c => { c with testing := 0 })).scrubCore core (s.core core).owner

/-- The helm deals the next workgroup of a launch that has started (R85). -/
def State.deal (s : State) (t id : Nat) : State :=
  match Tbl.find (s.slice t).launches id with
  | none => s
  | some l =>
    if l.total ≤ l.dealt || l.aborted.isSome || !(s.slice t).accepts 0 || !(s.slice t).started (some l.queue) l.num then s
    else
      match l.coreOf l.dealt with
      | none => s
      | some c =>
        let r := s.regionNow t l
        let w : Waiting := { slice := t, launch := id, lin := l.dealt, prio := r.prio, share := r.share, region := l.region, holders := r.holders }
        ((s.abandonTest c).modCore c (fun x => { x with waiting := x.waiting ++ [w] })).modSlice t (fun x =>
          { x with launches := Tbl.upd x.launches id (fun l => { l with dealt := l.dealt + 1 }) })

/-- WG_DEAL (R116). -/
def execWgDeal (slice launch : Nat) (s : State) : Host.Outcome State Fault Refusal := .next (s.deal slice launch)

/-! ## Room on a core (R117) -/

/-- Groups that hold a slot and blocks of a partition of a core. -/
def State.held_ (s : State) (core p : Nat) : List (Nat × Group) :=
  s.groups.filter (fun e => e.2.core == core && e.2.part == p && e.2.place != .saved)

/-- Slots of a partition that retired groups of unfinished workgroups still hold (R165). -/
def goneSlots (ws : List WgRes) (p : Nat) : Nat := (ws.map (fun w => (w.gone.filter (· == p)).length)).foldr (· + ·) 0

/-- Free group slots and register blocks of a partition of a core. -/
def State.freeSlots (s : State) (core p : Nat) : Nat := 16 - (s.held_ core p).length - goneSlots (s.core core).wgs p
def State.freeBlocks (s : State) (core p : Nat) : Nat := 128 - ((s.held_ core p).map (·.2.regs / 8)).foldr (· + ·) 0

/-- A range of a core's scratchpad is free of the ranges that workgroups hold. -/
def rangeFree (ws : List WgRes) (base size : Nat) : Bool :=
  decide (base + size ≤ 4194304) &&
    ws.all (fun w => w.whole || w.size = 0 || decide (base + size ≤ w.base) || decide (w.base + w.size ≤ base))

/-- The lowest free range of a size, first fit. -/
def firstFit (ws : List WgRes) (size : Nat) : Option Nat :=
  if size = 0 then some 0
  else
    (0 :: ws.map (fun w => w.base + w.size)).foldl (fun b a =>
      if rangeFree ws a size && (match b with | some x => decide (a < x) | none => true) then some a else b) none

/-- Groups of a workgroup on a partition. -/
def partGroups (g p : Nat) : Nat := (g + 7 - p) / 8

/-- Scratchpad of a kernel, rounded up (R117). -/
def spadSize (desc : List Byte) : Nat := (field desc 0x20 4 + 4095) / 4096 * 4096

/-- The cluster's mode is the one that a kernel asks for, or it can change because no group is resident in it (R194). -/
def State.modeFits (s : State) (core : Nat) (desc : List Byte) : Bool :=
  (s.core core).fused == nbit (field desc 0x1F 1) 0 ||
    s.groups.all (fun e => e.2.core / 4 != core / 4 || e.2.place == .saved)

/-- Set the mode of a cluster; a change writes back and invalidates its L1s (R194). -/
def State.setMode (s : State) (core : Nat) (fused : Bool) : State :=
  if (s.core core).fused == fused then s
  else
    let cs := (List.range 4).map (fun k => core / 4 * 4 + k)
    let s1 := cs.foldl (fun s c => s.flushL1 c) s
    cs.foldl (fun s c => s.modCore c (fun x => { x with fused := fused })) s1

/-- A core of a slice takes new residents: no scrub, no kill, no rung 1, a clock (R144, R160). -/
def State.coreOpen (s : State) (t core : Nat) : Bool :=
  let x := s.slice t
  let c := s.core core
  c.owner == t && decide (c.scrub ≤ s.now core) && x.st == .active && !x.killing && !x.engStop && !x.quiesced &&
    (2 ≤ (s.die (dieOf core)).curhs.toNat)

/-- A workgroup of G groups of a kernel fits on a core (R117). -/
def State.wgFits (s : State) (core : Nat) (desc : List Byte) (g : Nat) (spad : Nat) : Bool :=
  let regs := field desc 0x1E 1 / 8
  (List.range 8).all (fun p =>
    partGroups g p ≤ s.freeSlots core p && partGroups g p * regs ≤ s.freeBlocks core p) &&
  (firstFit (s.core core).wgs spad).isSome && s.modeFits core desc

/-! ## The order of R118 -/

/-- A waiting item that later ones have passed for 4,096 cycles (R118). -/
def tooLong (cycle passedAt : Nat) : Bool := passedAt != 0 && decide (passedAt + 4096 ≤ cycle)

/-- Groups of some partitions and blocks, and a range, fit on a core once the groups that freeze there are saved. -/
def State.fitsSoon (s : State) (core : Nat) (need : List (Nat × Nat)) (spad : Nat) (desc : List Byte) : Bool :=
  let ws := (s.core core).wgs.filter (fun w => !w.leaving)
  (List.range 8).all (fun p =>
    let stay := (s.held_ core p).filter (fun e => e.2.place == .resident)
    let mine := need.filter (fun g => g.1 == p)
    let blocks : Nat := (stay.map (·.2.regs / 8)).foldr (· + ·) 0 + (mine.map (·.2)).foldr (· + ·) 0
    mine.isEmpty || (decide (stay.length + goneSlots ws p + mine.length ≤ 16) && decide (blocks ≤ 128))) &&
  (firstFit ws spad).isSome &&
  ((s.core core).fused == nbit (field desc 0x1F 1) 0 || s.groups.all (fun e => e.2.core / 4 != core / 4 || e.2.place != .resident))

/-- An item that found victims waits on its core still, and has room there once they are saved (R118, R134). -/
def State.stillWaits (s : State) (core : Nat) (w : Waiter) : Bool :=
  let launch (t l : Nat) : Launch := Tbl.get (s.slice t).launches {} l
  let open_ (t l : Nat) : Bool := s.coreOpen t core && !(launch t l).yielded
  let fits (t l n size : Nat) : Bool :=
    let desc := (launch t l).desc
    s.fitsSoon core ((List.range n).map (fun k => (k % 8, field desc 0x1E 1 / 8))) size desc
  match w with
  | .dealt t l lin => open_ t l && (s.core core).waiting.any (fun w => w.slice == t && w.launch == l && w.lin == lin) &&
      fits t l (groupsOf (launch t l).desc) (spadSize (launch t l).desc)
  | .gathered t l slot => open_ t l && (launch t l).gathered.any (fun g => g.slot == slot) && fits t l 1 0
  | .whole k => (s.core core).wgs.any (fun w => w.wg == k && w.whole && open_ w.slice w.launch &&
      s.fitsSoon core ((s.groups.filter (fun e => w.gids.contains e.1)).map (fun e => (e.2.part, e.2.regs / 8))) w.size
        (launch w.slice w.launch).desc)

/-- A saved group waits for restoration on its core: its launch is not held back by a tick (R136, R142), and the item for which
it was evicted does not take what it freed, which would else be its own again at once (log 65). -/
def State.waitsRestore (s : State) (e : Nat × Group) (core : Nat) : Bool :=
  e.2.core == core && e.2.place == .saved && e.2.wants && !e.2.dbgHeld && !(s.launchOf e.2).yielded &&
    (match e.2.evictor with | some w => !s.stillWaits core w | none => true)

/-- Gathered groups of a core's launches that wait on its die. -/
def State.gathersOn (s : State) (core : Nat) : List (Nat × Launch × Gather) :=
  let t := (s.core core).owner
  (s.slice t).launches.flatMap (fun l =>
    if l.2.cores.any (fun c => c.1 == core) then (l.2.gathered.filter (fun g => g.die == dieOf core)).map (fun g => (t, l.2, g)) else [])

/-- An item that must be served first, of priority p or higher, blocks: a group to be restored, or a gathered group when
`cls` is 3. -/
def State.blockedBy (s : State) (core p cls : Nat) : Bool :=
  s.groups.any (fun e => s.waitsRestore e core && tooLong s.cycle e.2.passedAt && decide (p ≤ e.2.prio)) ||
  (cls == 3 && (s.gathersOn core).any (fun g => tooLong s.cycle g.2.2.passedAt && decide (p ≤ g.2.1.prio)))

/-- Dealt workgroups in their order: by priority, then as dealt. -/
def byPrio (l : List Waiting) : List Waiting :=
  ((List.range 16).map (15 - ·)).flatMap (fun p => l.filter (fun w => w.prio == p))

/-- The launch of a waiting workgroup. -/
def State.waitLaunch (s : State) (w : Waiting) : Launch := Tbl.get (s.slice w.slice).launches {} w.launch

/-- A dealt workgroup may become resident now. -/
def State.waitFits (s : State) (core : Nat) (w : Waiting) : Bool :=
  let l := s.waitLaunch w
  s.coreOpen w.slice core && !l.yielded && l.aborted.isNone && !s.blockedBy core w.prio 3 &&
    s.wgFits core l.desc (groupsOf l.desc) (spadSize l.desc)

/-- The first dealt workgroup that fits and is not blocked by an earlier one, with those that it passes. -/
def State.nextDealt (s : State) (core : Nat) : List Waiting → List Waiting → Option (Waiting × List Waiting)
  | [], _ => none
  | w :: r, seen =>
    if seen.any (fun v => tooLong s.cycle v.passedAt && decide (w.prio ≤ v.prio)) then s.nextDealt core r (seen ++ [w])
    else if s.waitFits core w then some (w, seen)
    else s.nextDealt core r (seen ++ [w])

/-- The state of a group at first residence (R159); `made` is its split's place in the order of creation (R125). -/
def newGroup (t ctx wg core ld lc lk : Nat) (l : Launch) (lin num cycle : Nat) (base : Nat) (now made : Nat) : Group :=
  let d := l.desc
  let n := groupsOf d
  let entry := BitVec.ofNat 64 (field d 8 8)
  { slice := t, launch := l.id, ctx := ctx, lin := lin, num := num, count := n, wg := wg, core := core, part := num % 8,
    lDie := ld, lCl := lc, lCore := lk, age := cycle, regs := field d 0x1E 1, entry := entry,
    s := (([(0, lin), (1, num), (2, field l.pkt 0x18 4), (3, field l.pkt 0x1C 4), (4, n)].map
      (fun e => (e.1, BitVec.ofNat 32 e.2))).filter (fun e => e.2 != 0)),
    splits := [{ made := made, pc := entry, mask := maskWhere (fun l => decide (num * 32 + l < threads d)), readyAt := now }],
    fmode := BitVec.ofNat 32 (field d 0x28 4), spadBase := BitVec.ofNat 22 base, spadLimit := BitVec.ofNat 23 (spadSize d),
    privWords := BitVec.ofNat 16 (field d 0x24 2), lastCyc := now }

/-- The logical numbers of a physical core in a launch. -/
def Launch.numbers (l : Launch) (core : Nat) : Nat × Nat × Nat :=
  match l.cores.find? (fun c => c.1 == core) with
  | some c => c.2
  | none => (0, 0, 0)

/-- New groups also stand in the checkpoints of their die, as they were at first residence (R105). -/
def State.addGroups (s : State) (core : Nat) (l : List (Nat × Group)) : State :=
  let put (t : Tbl Group) : Tbl Group := l.foldl (fun t e => Tbl.put t e.1 e.2) t
  ({ s with groups := put s.groups } : State).modDie (dieOf core) (fun x =>
    { x with history := x.history.map (fun c => { c with groups := put c.groups }) })

/-- The scratchpad range of a new workgroup holds undefined bytes (R159; log 5). -/
def State.freshSpad (s : State) (core base size : Nat) : State :=
  if size = 0 then s
  else { s.loadSpad core base ((List.range size).map (fun i => Config.freeByte s.free i)) with free := s.free + 1 }

/-- A dealt workgroup becomes resident (R117, R159). -/
def State.makeResident (s : State) (core : Nat) (w : Waiting) : State :=
  let l := s.waitLaunch w
  let n := groupsOf l.desc
  let size := spadSize l.desc
  let base := (firstFit (s.core core).wgs size).getD 0
  let nums := l.numbers core
  let gs := (List.range n).map (fun k =>
    (s.nextGid + k,
      { newGroup w.slice l.ctx s.nextWg core nums.1 nums.2.1 nums.2.2 l w.lin k s.cycle base (s.now core) (s.made + k) with
        prio := w.prio, share := w.share, region := w.region, holders := w.holders }))
  let r : WgRes := { wg := s.nextWg, slice := w.slice, launch := w.launch, lin := w.lin, base := base, size := size,
                     gids := gs.map (·.1), age := s.cycle }
  let s1 := s.setMode core (nbit (field l.desc 0x1F 1) 0)
  ((({ s1 with nextGid := s1.nextGid + n, nextWg := s1.nextWg + 1, made := s1.made + n } : State).freshSpad core base size).addGroups core gs).modCore core (fun c =>
    { c with wgs := c.wgs ++ [r], waiting := c.waiting.erase w })

/-- Mark items as passed at this time. -/
def markPassed (cycle : Nat) (l seen : List Waiting) : List Waiting :=
  l.map (fun w => if seen.contains w && w.passedAt == 0 then { w with passedAt := cycle } else w)

/-- Groups to restore, and the gathered groups of some launches, of a core that an item behind them passes (R118). -/
def State.passEarlier (s : State) (core : Nat) (gathers : Nat → Bool) : State :=
  let s1 := { s with groups := s.groups.map (fun (e : Nat × Group) =>
    if s.waitsRestore e core && e.2.passedAt == 0 then (e.1, { e.2 with passedAt := s.cycle }) else e) }
  s1.modSlice (s.core core).owner (fun x => { x with launches := x.launches.map (fun (e : Nat × Launch) => (e.1,
    if gathers e.1 && e.2.cores.any (fun c => c.1 == core) then
      { e.2 with gathered := e.2.gathered.map (fun g => if g.die == dieOf core && g.passedAt == 0 then { g with passedAt := s.cycle } else g) }
    else e.2)) })

/-- A waiting workgroup of a core becomes resident, when one fits. -/
def State.residentStep (s : State) (core : Nat) : State :=
  match s.nextDealt core (byPrio (s.core core).waiting) [] with
  | none => s
  | some (w, seen) =>
    if (s.core core).testing ≠ 0 then s.abandonTest core
    else
    let s1 := s.makeResident core w
    (s1.modCore core (fun c => { c with waiting := markPassed s.cycle c.waiting seen })).passEarlier core (fun _ => true)

/-- WG_RESIDENT (R117, R118). -/
def execWgResident (core : Nat) (s : State) : Host.Outcome State Fault Refusal := .next (s.residentStep core)

/-! ## Gathered groups (R121, R122) -/

/-- The eligible core of a die with the most free register blocks in partition 0, the lowest logical one of equals. -/
def State.gatherCore (s : State) (l : Launch) (die : Nat) : Option Nat :=
  (l.cores.filter (fun c => dieOf c.1 == die)).foldl (fun b c =>
    match b with
    | none => some c.1
    | some x => if s.freeBlocks x 0 < s.freeBlocks c.1 0 then some c.1 else b) none

/-- A gathered group may become resident on its core now. The spec gives gathered groups no order among themselves: those of a launch
accepted earlier come first (DESIGN CHOICE, log 75). -/
def State.gatherFits (s : State) (t : Nat) (l : Launch) (core : Nat) : Bool :=
  s.coreOpen t core && !l.yielded && l.aborted.isNone && !s.blockedBy core l.prio 2 &&
    !(s.gathersOn core).any (fun g => decide (g.2.1.id < l.id) && tooLong s.cycle g.2.2.passedAt && decide (l.prio ≤ g.2.1.prio)) &&
    s.wgFits core l.desc 1 0

/-- The first gathered group of a launch that fits, with its core and those that it passes. -/
def State.nextGather (s : State) (t : Nat) (l : Launch) : List Gather → List Gather → Option (Gather × Nat × List Gather)
  | [], _ => none
  | g :: r, seen =>
    match s.gatherCore l g.die with
    | none => s.nextGather t l r seen
    | some c =>
      if seen.all (fun v => v.die != g.die || !tooLong s.cycle v.passedAt) && s.gatherFits t l c then some (g, c, seen)
      else s.nextGather t l r (seen ++ [g])

/-- The state of a gathered group at entry (R121). -/
def gatheredGroup (g0 : Group) (g : Gather) : Group :=
  let n := g.records.length
  { g0 with
    count := 1, part := 0, entry := g.entry, gathered := true, spadBase := 0, spadLimit := 0,
    splits := g0.splits.map (fun p => { p with pc := g.entry, mask := maskWhere (fun l => decide (l < n)), readyAt := g0.lastCyc }),
    s := Tbl.set (Tbl.set g0.s 0 0 (BitVec.ofNat 32 n)) 0 1 (BitVec.ofNat 32 g0.lDie),
    v := (List.range n).foldl (fun v i => (List.range 14).foldl (fun v k =>
        Tbl.set v 0 (k * 32 + i) ((g.records.getD i []).getD k 0)) v) [] }

/-- The first gathered group of a launch that fits becomes resident (R122). -/
def State.gatherStep (s : State) (t id : Nat) : State :=
  match Tbl.find (s.slice t).launches id with
  | none => s
  | some l =>
    match s.nextGather t l l.gathered [] with
    | none => s
    | some (g, core, seen) =>
      if (s.core core).testing ≠ 0 then s.abandonTest core
      else match s.spanFail t g.die (l.gatherAt g.slot) gatherBytes .load with
      | some f => s.gatherLost t l g.entry f
      | none =>
      let nums := l.numbers core
      let gid := s.nextGid
      let g0 := newGroup t l.ctx s.nextWg core nums.1 nums.2.1 nums.2.2 l 0 0 s.cycle 0 (s.now core) s.made
      let g1 := { gatheredGroup g0 g with prio := l.prio, share := l.tokshare, region := l.region, holders := l.holders }
      let r : WgRes := { wg := s.nextWg, slice := t, launch := id, gids := [gid], gathered := true, age := s.cycle }
      let s1 := s.setMode core (nbit (field l.desc 0x1F 1) 0)
      ((({ s1 with nextGid := gid + 1, nextWg := s1.nextWg + 1, made := s1.made + 1 } : State).addGroups core [(gid, g1)]).modCore core (fun c =>
        { c with wgs := c.wgs ++ [r] })).modSlice t (fun x =>
          { x with launches := Tbl.upd x.launches id (fun l =>
            { l with gathered := (l.gathered.erase g).map (fun h =>
                if seen.contains h && h.die == g.die && h.passedAt == 0 then { h with passedAt := s.cycle } else h) }) }) |>.passEarlier core (fun k => decide (k < id))

/-- GATHERED_RESIDENT (R122). -/
def execGatheredResident (slice launch : Nat) (s : State) : Host.Outcome State Fault Refusal := .next (s.gatherStep slice launch)

/-! ## Issue slots (R125, R128 to R130, R140) -/

/-- The slot in which a split competes: a late cause or a failed fetch needs none, and is taken in slot C. -/
def State.slotOf (s : State) (g : Group) (p : Split) : Slot :=
  if (g.lateCause p).isSome then .c
  else match s.peek g p with
    | some i => (view i).slot
    | none => .c

/-- A restored group issues the fix at which it stopped first: its other splits wait for the split that stopped (R396). -/
def Group.fixFirst (g : Group) (p : Split) : Bool :=
  match g.skipBrk with
  | none => true
  | some b => g.inh || b == p.born || !g.splits.any (fun q => q.born == b && q.st == .run && !q.stalled)

/-- A split competes in its slot: it is ready, or has a cause to take. -/
def State.competes (s : State) (gid : Nat) (g : Group) (p : Split) : Bool :=
  s.live1 g p && g.fixFirst p && decide (p.readyAt ≤ s.now g.core) && (2 ≤ (s.die (dieOf g.core)).curhs.toNat) &&
    ((g.lateCause p).isSome ||
      (match s.peek g p with
       | some i => illegalDetail i g.regs != 0 || s.ready gid g p i
       | none => true))

/-- A split that competes, with its group. -/
structure Cand where
  gid : Nat
  g : Group
  p : Split
  deriving DecidableEq, Repr

/-- The splits of a partition that compete in a slot. -/
def State.cands (s : State) (core part : Nat) (slot : Slot) : List Cand :=
  s.groups.flatMap (fun e =>
    if e.2.core == core && e.2.part == part then
      (e.2.splits.filter (fun p => s.competes e.1 e.2 p && s.slotOf e.2 p == slot)).map (fun p => ⟨e.1, e.2, p⟩)
    else [])

/-- Keys 3 to 5 of R125: the older of two splits. -/
def older (a b : Cand) : Bool :=
  decide (a.g.age < b.g.age) || (a.g.age == b.g.age && (decide (a.g.num < b.g.num) ||
    (a.g.num == b.g.num && decide (a.p.made < b.p.made))))

/-- R125: the better of two candidates. -/
def better (a b : Cand) : Bool :=
  if a.p.starve ≠ 0 || b.p.starve ≠ 0 then
    a.p.starve != 0 && (b.p.starve == 0 || decide (a.p.starve < b.p.starve))
  else if a.g.prio ≠ b.g.prio then decide (b.g.prio < a.g.prio)
  else older a b

/-- Put a candidate in its place. -/
def insertCand (a : Cand) : List Cand → List Cand
  | [] => [a]
  | b :: r => if better a b then a :: b :: r else b :: insertCand a r

/-- Candidates in the order of R125. -/
def ranked (l : List Cand) : List Cand := l.foldr insertCand []

/-- A candidate can pay on a die that powers its slot (R17, R128), or pays nothing because it takes a cause. -/
def State.candPays (s : State) (c : Cand) : Bool :=
  (c.g.lateCause c.p).isSome ||
    (match s.peek c.g c.p with
     | some i => illegalDetail i c.g.regs != 0 || (slotPowered (s.die (dieOf c.g.core)) (view i).slot && s.canPay c.gid c.g c.p i)
     | none => true)

/-- Its region has spent more than its share in the window (R140). -/
def State.overShare (s : State) (c : Cand) : Bool :=
  let x := s.core c.g.core
  x.win == s.now c.g.core / 1024 &&
    decide (c.g.share * Tbl.get x.winPaid 0 c.g.part <
      Tbl.get x.winSpent 0 (c.g.part * 2 ^ 64 + c.g.region) * 0x10000000000000000)

/-- A candidate is passed over for its region's share (R140); a starving split is exempt. -/
def State.shared (s : State) (slot : Slot) (l : List Cand) (c : Cand) : Bool :=
  slot != .c && c.p.starve == 0 && s.overShare c &&
    l.any (fun q => q.g.region != c.g.region && !s.overShare q && s.candPays q)

/-- The split that issues in a slot. -/
def State.choose (s : State) (slot : Slot) (l : List Cand) : Option Cand :=
  (ranked l).find? (fun c => s.candPays c && !s.shared slot l c)

/-- f of R127: the lower of the die's thermal factor and the module's power factor, in 1/256. -/
def State.factor (s : State) (d : Nat) : Nat := min (s.die d).fact.toNat s.m.fp.toNat

/-- Splits of a partition whose next instruction is in a slot, neither parked nor sleeping. -/
def State.heads (s : State) (core part : Nat) (slot : Slot) : List Cand :=
  s.groups.flatMap (fun e =>
    if e.2.core == core && e.2.part == part && e.2.place != .saved then
      (e.2.splits.filter (fun p => (p.st == .run || p.st == .wait) && s.slotOf e.2 p == slot)).map (fun p => ⟨e.1, e.2, p⟩)
    else [])

/-- The first unmet condition of R124 of a split, as a leaf; RESOURCE when all are met. -/
def State.stallLeaf (s : State) (c : Cand) : Nat :=
  if !s.live1 c.g c.p then 15
  else if s.now c.g.core < c.p.readyAt then 12
  else
    match s.peek c.g c.p with
    | none => 15
    | some i =>
      let drained := match i with | .nopWaitsb _ => c.g.waitsbFree c.p.born (s.now c.g.core) | _ => true
      if !(c.g.scoreboardFree i && c.g.accFree i (s.now c.g.core) && drained) then 11
      else if !s.ready4 c.gid c.g c.p i then 13
      else if (view i).slot != .c && !s.admitted c.g.core then 14
      else 13

/-- The leaf of a slot in which nothing issues (R236 rules 3 and 4). -/
def State.idleLeaf (s : State) (core part : Nat) (slot : Slot) : Nat :=
  match s.heads core part slot with
  | [] => if s.groups.any (fun e => e.2.core == core && e.2.part == part && e.2.place != .saved) then 18 else 17
  | c :: r => s.stallLeaf (r.foldl (fun a b => if older b a then b else a) c)

/-- The leaf of a slot V or M in which nothing issued though splits were ready (R236 rule 2). -/
def State.throttleLeaf (s : State) (core : Nat) (l : List Cand) : Nat :=
  let d := s.die (dieOf core)
  if d.curhs != 3 || s.factor (dieOf core) = 0 then 9
  else if Tbl.get d.debt 0 (s.core core).owner != 0 then 7
  else if l.any (fun c => s.candPays c && s.shared .v l c) then 8
  else 6

/-- The slot of a partition that its next event in a cycle fills: of V and M the one whose best candidate comes first in the order of
R125, then the other (R128; log 26). -/
def State.slotTurn (s : State) (core part : Nat) (slot : Slot) : Slot :=
  let done (k : Slot) : Bool := (s.core core).served.contains (part * 3 + slotNum k)
  let pick : Slot := match ranked (s.cands core part .v), ranked (s.cands core part .m) with
    | a :: _, b :: _ => if better a b then .v else .m
    | [], _ :: _ => .m
    | _, [] => .v
  if slot == .c then .c else if done .v then .m else if done .m then .v else pick

/-- At the first event of a partition in a cycle each of its slots has the leaf of R236 that it keeps where nothing issues in it. -/
def State.firstLook (s : State) (core part : Nat) : State :=
  if (Tbl.find (s.core core).issued (part * 3)).isSome then s
  else
    s.modCore core (fun x => { x with
      issued := [Slot.v, Slot.m, Slot.c].foldl (fun l k => Tbl.put l (part * 3 + slotNum k) (s.idleLeaf core part k)) x.issued })

/-- The scheduler fills one slot of a partition: every split that competes and is not chosen is passed over (R125, R130). -/
def State.fillSlot (s : State) (core part : Nat) (slot : Slot) : State :=
  let l := s.cands core part slot
  let pick := s.choose slot l
  let s1 := l.foldl (fun s c => if pick == some c then s else s.passed c.gid c.p.born) s
  let s2 := s1.modCore core (fun x =>
    { x with served := (part * 3 + slotNum slot) :: x.served,
             issued := if slot == .c || l.isEmpty then x.issued
                       else Tbl.put x.issued (part * 3 + slotNum slot) (s.throttleLeaf core l) })
  { s2 with cur := pick.map (fun c => (c.gid, c.p.born)) }

/-- The event of a slot. -/
def State.slotStep (s : State) (core part : Nat) (slot : Slot) : State :=
  (s.firstLook core part).fillSlot core part (s.slotTurn core part slot)

/-- SLOT_ISSUE (R125): the step that follows issues the chosen split's instruction. -/
def execSlotIssue (core part : Nat) (slot : Slot) (s : State) : Host.Outcome State Fault Refusal :=
  .next (s.slotStep core part slot)

/-- STARVATION_FLAG (R130). -/
def State.flagStarving (s : State) (gid born : Nat) : State :=
  let g := s.group gid
  (s.modSplit gid born (fun p => if 256 ≤ p.passed && p.starve = 0 then { p with starve := (s.core g.core).stamp } else p)).modCore
    g.core (fun c => { c with stamp := c.stamp + 1 })

/-- STARVATION_FLAG (R130). -/
def execStarvationFlag (gid born : Nat) (s : State) : Host.Outcome State Fault Refusal := .next (s.flagStarving gid born)

/-! ## The meridian ring (R127) -/

/-- Take a payment against a debt: what is left of both. -/
def repay (debt pay : Nat) : Nat × Nat := (debt - pay, pay - debt)

/-- The ring pays one core: debt of its slice is repaid first; payments to an idle cluster are lost (R28, R127, R132). -/
def State.payCore (s : State) (core : Nat) : State :=
  let d := dieOf core
  let f := s.factor d
  let c := s.core core
  let t := c.owner
  let pays := (List.range 8).map (fun _ => 4 * f) ++ [224 * f]
  let step (a : Nat × List Nat) (p : Nat) : Nat × List Nat := ((repay a.1 p).1, a.2 ++ [(repay a.1 p).2])
  let r := pays.foldl step (Tbl.get (s.die d).debt 0 t, [])
  let s1 := s.modDie d (fun x => { x with debt := Tbl.set x.debt 0 t r.1 })
  if !s.admitted core then s1
  else
    let w := s.now core / 1024
    s1.modCore core (fun c0 =>
      let c := c0.inWindow w
      { c with
        bkt := (List.range 8).foldl (fun b p => Tbl.put b p (min 65536 (Tbl.get b 0 p + r.2.getD p 0))) c.bkt,
        mbkt := min 1048576 (c.mbkt + r.2.getD 8 0),
        paid := (List.range 8).foldl (fun b p => Tbl.put b p (Tbl.get b 0 p + r.2.getD p 0)) c.paid,
        winPaid := (List.range 9).foldl (fun b p => Tbl.put b p (Tbl.get b 0 p + r.2.getD p 0)) c.winPaid })

/-- One cycle of the ring on a die in HS3. -/
def State.refill1 (s : State) (d : Nat) : State :=
  if (s.die d).curhs != 3 then s
  else (s.cores.filter (fun e => dieOf e.1 == d && e.2.owner < 16)).foldl (fun s e => s.payCore e.1) s

/-- MERIDIAN_REFILL (R127). -/
def execMeridianRefill (die : Nat) (s : State) : Host.Outcome State Fault Refusal := .next (s.refill1 die)

/-! ## Admission (R132) -/

/-- Empty the buckets of a cluster. -/
def State.emptyBuckets (s : State) (d cl : Nat) : State :=
  (zoneCores d cl).foldl (fun s c => s.modCore c (fun x => { x with bkt := [], mbkt := 0 })) s

/-- An admitted cluster becomes idle at the end of the last of 256 cycles without wide work. -/
def State.idleDue (s : State) (d cl : Nat) : Bool :=
  let x := s.die d
  x.adm.getLsbD cl && decide (Tbl.get x.lastWide 0 cl + 255 ≤ x.cyc)

/-- CLUSTER_IDLE (R132). -/
def execClusterIdle (die cl : Nat) (s : State) : Host.Outcome State Fault Refusal :=
  .next (if s.idleDue die cl then
      (s.emptyBuckets die cl).modDie die (fun x => { x with adm := x.adm &&& ~~~(BitVec.ofNat 9 (2 ^ cl)) })
    else s)

/-- A cluster requests admission: a split of it would be ready in slot V or M but for that. -/
def State.requests (s : State) (d cl : Nat) : Bool :=
  !(s.die d).adm.getLsbD cl &&
    s.groups.any (fun e => dieOf e.2.core == d && clusterOf e.2.core == cl &&
      e.2.splits.any (fun p => match s.peek e.2 p with
        | some i => (view i).slot != .c && s.ready4 e.1 e.2 p i
        | none => false))

/-- The first requesting cluster after PTR. -/
def State.nextGrant (s : State) (d : Nat) : Option Nat :=
  ((List.range 9).map (fun k => ((s.die d).ptr.toNat + 1 + k) % 9)).find? (s.requests d)

/-- One grant, at most four in a window of 16 cycles (R132). -/
def State.grant (s : State) (d : Nat) : State :=
  let x := s.die d
  let n := if x.grantWin = x.cyc / 16 then x.grants else 0
  if 4 ≤ n then s
  else
    match s.nextGrant d with
    | none => s
    | some cl => s.modDie d (fun x =>
        { x with adm := x.adm ||| BitVec.ofNat 9 (2 ^ cl), ptr := BitVec.ofNat 4 cl, grants := n + 1, grantWin := x.cyc / 16,
                 lastWide := Tbl.put x.lastWide cl (x.cyc + 1) })

/-- ADMISSION_GRANT (R132). -/
def execAdmissionGrant (die : Nat) (s : State) : Host.Outcome State Fault Refusal := .next (s.grant die)

/-! ## Eviction (R134, R135) -/

/-- A range of n bytes lies apart from some ranges. -/
def apart (l : List (Nat × Nat)) (a n : Nat) : Bool := l.all (fun r => decide (r.1 + r.2 ≤ a) || decide (a + n ≤ r.1))

/-- The frames of a group's area that no saved group of its slice holds, lowest first: an area is a range of the slice's memory,
whichever launches name it (R175). -/
def State.freeFrames (s : State) (g : Group) : List Nat :=
  let held := s.groups.filterMap (fun e =>
    if e.2.slice == g.slice then e.2.frame.map (fun k => (frameAddr (s.launchOf e.2) e.2.regs k, frameSize e.2.regs)) else none)
  (List.range (field (s.launchOf g).desc 0x2C 4)).filter (fun k => apart held (frameAddr (s.launchOf g) g.regs k) (frameSize g.regs))
def State.freeFrame (s : State) (g : Group) : Option Nat := (s.freeFrames g).head?

/-- Address of an image slot (R176). -/
def imageAddr (desc : List Byte) (k : Nat) : Nat := field desc 0x70 8 + k * isize desc

/-- The image slots of a launch's area that no saved workgroup of its slice holds, lowest first (R176). -/
def State.freeSlotList (s : State) (t launch : Nat) : List Nat :=
  let held := s.cores.flatMap (fun e => e.2.wgs.filterMap (fun w =>
    let d := (Tbl.get (s.slice t).launches {} w.launch).desc
    if w.slice == t then w.image.map (fun k => (imageAddr d k, isize d)) else none))
  let desc := (Tbl.get (s.slice t).launches {} launch).desc
  (List.range (field desc 0x78 4)).filter (fun k => apart held (imageAddr desc k) (isize desc))
def State.freeSlot (s : State) (t launch : Nat) : Option Nat := (s.freeSlotList t launch).head?

/-- What an item that waits on a core needs there (R117, R121, R136): for each of its groups, partition and blocks. -/
structure Need where
  who : Waiter
  slice : Nat
  launch : Nat
  prio : Nat
  groups : List (Nat × Nat)
  spad : Nat
  deriving DecidableEq, Repr

/-- The items that wait on a core in the order of R118: workgroups saved as a whole, gathered groups, dealt workgroups. -/
def State.waitersOn (s : State) (core : Nat) : List Need :=
  let c := s.core core
  let wholes := (c.wgs.filter (·.whole)).filterMap (fun w =>
    let gs := s.groups.filter (fun e => w.gids.contains e.1)
    if gs.any (fun e => s.waitsRestore e core) then
      some { who := .whole w.wg, slice := w.slice, launch := w.launch, prio := (gs.map (·.2.prio)).headD 0,
             groups := gs.map (fun e => (e.2.part, e.2.regs / 8)), spad := w.size : Need }
    else none)
  let gathers := (s.gathersOn core).filterMap (fun x =>
    if s.gatherCore x.2.1 x.2.2.die = some core && !x.2.1.yielded then
      some { who := .gathered x.1 x.2.1.id x.2.2.slot, slice := x.1, launch := x.2.1.id, prio := x.2.1.prio,
             groups := [(0, field x.2.1.desc 0x1E 1 / 8)], spad := 0 : Need }
    else none)
  let dealt := (byPrio c.waiting).filterMap (fun w =>
    let l := s.waitLaunch w
    if l.yielded || l.aborted.isSome then none
    else
      some { who := .dealt w.slice w.launch w.lin, slice := w.slice, launch := w.launch, prio := w.prio,
             groups := (List.range (groupsOf l.desc)).map (fun k => (k % 8, field l.desc 0x1E 1 / 8)), spad := spadSize l.desc : Need })
  wholes ++ gathers ++ dealt

/-- Slots and blocks that a partition lacks for an item, once the groups that leave already and some others are gone, and some
workgroups as a whole (R135, R146). -/
def State.lacks (s : State) (core p : Nat) (n : Need) (wholes gone : List Nat) : Bool :=
  let stay := (s.held_ core p).filter (fun e => e.2.place == .resident && !gone.contains e.1)
  let need := n.groups.filter (fun g => g.1 == p)
  let slots := goneSlots ((s.core core).wgs.filter (fun w => !w.leaving && !wholes.contains w.wg)) p
  let blocks : Nat := (stay.map (·.2.regs / 8)).foldr (· + ·) 0 + (need.map (·.2)).foldr (· + ·) 0
  !need.isEmpty && (decide (16 < stay.length + slots + need.length) || decide (128 < blocks))

/-- Ranges of a core's scratchpad that stay taken once the workgroups that leave already, and some others, are saved. -/
def State.ranges (s : State) (core : Nat) (wholes : List Nat) : List WgRes :=
  (s.core core).wgs.filter (fun w => !w.leaving && !wholes.contains w.wg)

/-- An item fits on a core as it stands (R117). -/
def State.needFits (s : State) (core : Nat) (n : Need) : Bool :=
  (List.range 8).all (fun p =>
    let need := n.groups.filter (fun g => g.1 == p)
    let blocks : Nat := (need.map (·.2)).foldr (· + ·) 0
    decide (need.length ≤ s.freeSlots core p) && decide (blocks ≤ s.freeBlocks core p)) &&
  (firstFit (s.core core).wgs n.spad).isSome && s.modeFits core (Tbl.get (s.slice n.slice).launches {} n.launch).desc

/-- A group may be a victim for an item of another context and of higher priority (R134). -/
def victimOk (ctx prio : Nat) (g : Group) : Bool := g.ctx != ctx && decide (g.prio < prio)

/-- Order of victims: lowest priority, youngest workgroup, highest group number (R135). -/
def victimBefore (a b : Nat × Group) : Bool :=
  decide (a.2.prio < b.2.prio) || (a.2.prio == b.2.prio && (decide (b.2.age < a.2.age) ||
    (b.2.age == a.2.age && decide (b.2.num < a.2.num))))

def insertVictim (a : Nat × Group) : List (Nat × Group) → List (Nat × Group)
  | [] => [a]
  | b :: r => if victimBefore a b then a :: b :: r else b :: insertVictim a r

/-- The groups of a core that an item may evict, in their order. -/
def State.victims (s : State) (core ctx prio : Nat) : List (Nat × Group) :=
  (s.groups.filter (fun e => e.2.core == core && victimOk ctx prio e.2)).foldr insertVictim []

/-- Choose groups one at a time from partitions that still lack room (R135). -/
def State.pickVictims (s : State) (core : Nat) (n : Need) : List (Nat × Group) → List Nat → List Nat
  | [], gone => gone
  | v :: r, gone => s.pickVictims core n r (if s.lacks core v.2.part n [] gone then gone ++ [v.1] else gone)

/-- A workgroup with a range on its core, all of whose groups may be victims. -/
def State.wholeOk (s : State) (core ctx prio : Nat) (w : WgRes) : Bool :=
  !w.whole && !w.leaving && w.size != 0 &&
    w.gids.all (fun g => match Tbl.find s.groups g with
      | some x => x.core == core && victimOk ctx prio x
      | none => true)

/-- The area of a workgroup's image slots, by its slice and base. -/
def State.slotArea (s : State) (w : WgRes) : Nat × Nat :=
  (w.slice, field (Tbl.get (s.slice w.slice).launches {} w.launch).desc 0x70 8)

/-- An image slot is left for a workgroup once those that leave already and some others have theirs (R176). -/
def State.slotLeft (s : State) (core : Nat) (taken : List Nat) (w : WgRes) : Bool :=
  let owed := s.cores.flatMap (fun e => e.2.wgs.filter (fun x =>
    !x.whole && s.slotArea x == s.slotArea w && (x.leaving || (e.1 == core && taken.contains x.wg))))
  decide (owed.length < (s.freeSlotList w.slice w.launch).length)

/-- Choose whole workgroups until a range fits (R135). -/
def State.pickWholes (s : State) (core size : Nat) : List WgRes → List Nat → List Nat
  | [], gone => gone
  | w :: r, gone =>
    if (firstFit (s.ranges core gone) size).isSome then gone
    else s.pickWholes core size r (if s.slotLeft core gone w then gone ++ [w.wg] else gone)

/-- Frames are left for some groups that are to leave, once those that leave already have theirs (R175). -/
def State.framesLeft (s : State) (gone : List Nat) : Bool :=
  let area (g : Group) : Nat × Nat := (g.slice, field (s.launchOf g).desc 0x38 8)
  let go := s.groups.filter (fun e => gone.contains e.1 || e.2.place == .freezing || e.2.place == .frozen)
  (s.groups.filter (fun e => gone.contains e.1)).all (fun v =>
    decide ((go.filter (fun e => area e.2 == area v.2)).length ≤ (s.freeFrames v.2).length))

/-- Workgroups that are chosen as a whole, and groups that are to be frozen, for an item that waits: groups first, then whole
workgroups for a range; none when it would not fit even then, or when frames are lacking (R134, R135, R175). -/
def State.evictionFor (s : State) (core : Nat) (n : Need) : Option (List Nat × List Nat) :=
  let l := Tbl.get (s.slice n.slice).launches {} n.launch
  let c := s.core core
  let vs := s.victims core l.ctx n.prio
  let single := s.pickVictims core n (vs.filter (fun v => v.2.place == .resident)) []
  let drains := (vs.filter (fun v => v.2.place == .freezing && v.2.why == 1 && n.groups.any (fun g => g.1 == v.2.part))).map (·.1)
  let order := (vs.map (·.2.wg)).eraseDups.filterMap (fun g => c.wgs.find? (fun x => x.wg == g))
  let wholes := s.pickWholes core n.spad (order.filter (s.wholeOk core l.ctx n.prio)) []
  let gone := single ++ (vs.filter (fun v => v.2.place == .resident && wholes.contains v.2.wg && !single.contains v.1)).map (·.1) ++ drains
  let fits := (List.range 8).all (fun p => !s.lacks core p n wholes gone) &&
    (firstFit (s.ranges core wholes) n.spad).isSome && s.modeFits core l.desc
  if fits && s.framesLeft gone && !(gone.isEmpty && wholes.isEmpty) then some (wholes, gone) else none

/-- Class I2 entries of a group that have not left its partition. -/
def State.unsentI2 (s : State) (g : Group) : List Entry := g.log.filter (fun e => e.cls == 2 && !e.sent && !s.hasLeft g e)

/-- A freeze drops the entries of class I2 that have not left, and with them what the group has issued since, to be executed
again (R105, R185). -/
def State.dropUnsent (s : State) (gid : Nat) : State :=
  let g := s.group gid
  match s.unsentI2 g with
  | [] => s
  | e :: r =>
    let c := (r.map (·.cyc)).foldr min e.cyc
    match ((s.die (dieOf g.core)).history.find? (fun k => k.cyc == c)).bind (fun k => Tbl.find k.groups gid) with
    | some ck => (s.undoSince g.core c (some gid)).rollGroup (s.now g.core) c gid ck
    | none => s

/-- A freeze for a page fault drops them as well; the access that faulted is executed again in its turn, so that the answer to its
record concerns no instruction (R185). -/
def State.dropFaulted (s : State) (d : Nat) : State :=
  (s.groups.filter (fun e => dieOf e.2.core == d && e.2.place == .freezing && e.2.why == 1 && !(s.unsentI2 e.2).isEmpty)).foldl
    (fun s e => (s.dropUnsent e.1).modGroup e.1 (fun g => { g with faultMask := 0 })) s

/-- Freeze a group: its splits stop at their next instruction boundaries (R144). A freeze for a page fault that waits for class I2
entries goes on under the rule, and the deadline, of a halt, an eviction or a yield that comes (R185). -/
def State.freeze (s : State) (gid why : Nat) : State :=
  let g := s.group gid
  if g.place == .freezing && g.why == 1 && why != 1 then s.modGroup gid (fun g => { g with why := why, frozeAt := s.cycle })
  else if g.place != .resident then s
  else
    (s.modGroup gid (fun g =>
      { g with place := .freezing, why := why, frozeAt := s.cycle, frozeCyc := s.now g.core })).dropUnsent gid

/-- Victims of an eviction freeze; a workgroup chosen whole is marked so, and waits for the item with its victims (R136). -/
def State.evict (s : State) (core : Nat) (n : Need) : State :=
  match s.evictionFor core n with
  | none => s
  | some (wholes, gone) =>
    let s1 := gone.foldl (fun s g => (s.freeze g 0).modGroup g (fun x => { x with wants := x.wants || x.token.isNone })) s
    let all := gone ++ (s1.groups.filter (fun e => wholes.contains e.2.wg)).map (·.1)
    ({ s1 with groups := s1.groups.map (fun (e : Nat × Group) =>
        (e.1, if all.contains e.1 then { e.2 with evictor := some n.who } else e.2)) } : State).modCore core (fun c =>
      { c with wgs := c.wgs.map (fun x => if wholes.contains x.wg then { x with leaving := true } else x) })

/-- EVICTION (R135): for the item at a place among those that wait on the core. -/
def execEvictFor (core wg : Nat) (s : State) : Host.Outcome State Fault Refusal :=
  .next (match (s.waitersOn core)[wg]? with
    | none => s
    | some n => if s.coreOpen n.slice core && !s.needFits core n then s.evict core n else s)

/-! ## Retirement (R165, R120, R122, R85) -/

/-- Contexts without a launch give up their numbers and their watermark windows (R137, R183). -/
def State.tidyCtxs (s : State) (t : Nat) : State :=
  let x := s.slice t
  let gone := (x.ctxs.filter (fun c => !x.launches.any (fun l => l.2.ctx == c.1 && l.2.aborted.isNone))).map (·.1)
  if gone.isEmpty then s
  else
    (s.modSlice t (fun x => { x with ctxs := x.ctxs.filter (fun c => !gone.contains c.1) })).modM (fun m =>
      { m with windows := m.windows.filter (fun w => !(w.1 == ownModule && w.2.1 == t && gone.contains (t * 256 + w.2.2.1 / 1048576 % 256))) })

/-- A launch whose workgroups and gathered groups have all retired, with no bin left, completes (R85, R122). -/
def State.launchDone (s : State) (t id : Nat) : State :=
  match Tbl.find (s.slice t).launches id with
  | none => s
  | some l =>
    if l.aborted.isNone && decide (l.total ≤ l.retired) && l.liveGathered = 0 &&
        s.dies.all (fun d => d.2.couch.all (fun b => !(b.2.slice == t && b.2.launch == id))) then
      let s1 := s.counterAdd t ((s.slice t).dies.headD 0) l.ctx (field l.pkt 0x28 8) (field l.pkt 0x30 4) 0
      ((s1.modSlice t (fun x => { x with launches := Tbl.del x.launches id })).packetDone t (some l.queue) l.num).tidyCtxs t
    else s

/-- A group with no live lane and an empty logbook whose last issue is past the strike horizon. -/
def State.mayRetire (s : State) (g : Group) : Bool :=
  g.place == .resident && g.live == 0 && g.log.isEmpty && g.flush.isEmpty && !s.struck g.core && decide (g.lastCyc + 64 ≤ s.now g.core)

/-- A retired group of a workgroup still holds its slot (R165). -/
def State.leaveSlot (s : State) (gid : Nat) (g : Group) : State :=
  s.modCore g.core (fun c => { c with wgs := c.wgs.map (fun w => if w.gids.contains gid then { w with gone := g.part :: w.gone } else w) })

/-- A group retires; its workgroup, with its range and slots, retires with its last group (R165). -/
def State.retire (s : State) (gid : Nat) : State :=
  match Tbl.find s.groups gid with
  | none => s
  | some g =>
    if !s.mayRetire g then s
    else
      let s1 := (s.dropPrivate gid false).leaveSlot gid g
      let s2 := { s1 with groups := Tbl.del s1.groups gid }
      let last := s2.groups.all (fun e => e.2.wg != g.wg)
      let s3 := (s2.dropEmptyWgs g.core).watchClaims (dieOf g.core)
      if !last then s3
      else if g.gathered then
        (s3.modSlice g.slice (fun x => { x with launches := Tbl.upd x.launches g.launch (fun l =>
          { l with liveGathered := l.liveGathered - 1 }) })).launchDone g.slice g.launch
      else
        let s4 := s3.modSlice g.slice (fun x => { x with launches := Tbl.upd x.launches g.launch (fun l =>
          { l with retired := l.retired + 1, retiredSet := l.retiredSet ++ [g.lin] }) })
        let l := Tbl.get (s4.slice g.slice).launches {} g.launch
        let s5 := if l.total ≤ l.retired then
            (List.range 4).foldl (fun s d => s.formBins d g.slice g.launch) s4
          else s4
        s5.launchDone g.slice g.launch

/-- GROUP_RETIRE (R165). -/
def execGroupRetire (gid : Nat) (s : State) : Host.Outcome State Fault Refusal := .next (s.retire gid)

/-- SCRUB_DONE (R160). -/
def execScrubDone (core : Nat) (s : State) : Host.Outcome State Fault Refusal :=
  .next (s.modCore core (fun c => if c.scrub ≤ s.now core then { c with scrub := 0 } else c))

end Sys2Proof.Machine
end

