-- ==== Sys2Proof/Machine/Saves.lean ====
section
/-! DEFINITION. Saving and restoring groups (R106, R136, R174 to R178, R184, R185, R409): the completion of a freeze, the save
to a frame and to an image slot, and the restoration with its replay. -/

namespace Sys2Proof.Machine

/-! ## Quotas (R139, R143) -/

/-- PERIOD of GANG.t, in us (R141). -/
def Slice.period (x : Slice) : Nat := max 100 (bits x.gang.toNat 31 16)

/-- The quota of a holder in instructions, none when it has no quota: its effective WATCHQ, as its RCB and those above it stand now
(R91, R139). Work that was dealt under a holder stays under it whatever a REGION changes since (R92). -/
def State.quota (s : State) (t h : Nat) : Option Nat :=
  match s.rcbChain t ((s.slice t).dies.headD 0) h 8 with
  | .error _ => none
  | .ok chain =>
    match chain.find? (fun n => nbit (field n.2 8 4) 9) with
    | none => none
    | some n => if field n.2 0x10 4 != 0xFFFFFFFF then some (field n.2 0x10 4 * 1048576) else none

/-- The quota holders of a launch: of its groups and waiting workgroups, as they were dealt, of its gathered groups that wait, and of
what is still to be dealt (R91, R92). -/
def State.holdersOf (s : State) (t id : Nat) (l : Launch) : List Nat :=
  ((s.groups.filter (fun e => e.2.slice == t && e.2.launch == id)).flatMap (·.2.holders) ++
    s.cores.flatMap (fun c => (c.2.waiting.filter (fun w => w.slice == t && w.launch == id)).flatMap (·.holders)) ++
    (if l.gathered.isEmpty then [] else l.holders) ++
    (if l.dealt < l.total then (s.regionNow t l).holders else [])).eraseDups

/-- A holder whose launches run again: its usage starts at the charge of its late save (R143). -/
def Ctx.preset (c : Ctx) (h charge : Nat) : Ctx :=
  { c with usage := if charge = 0 then c.usage else Tbl.put c.usage h charge, spent := Tbl.del c.spent h }

/-- The holders of a launch that runs again start with the charges of their late saves: floor(WATCHQ * 2^20 * L / PERIOD)
(R143). -/
def State.presetUsage (s : State) (t id : Nat) : State :=
  let l := Tbl.get (s.slice t).launches {} id
  (s.holdersOf t id l).foldl (fun s h =>
    s.modSlice t (fun x => { x with ctxs := Tbl.upd x.ctxs l.ctx (fun c =>
      match Tbl.find c.spent h with
      | some late => c.preset h ((s.quota t h).getD 0 * late / (x.period * 1000))
      | none => c) })) s

/-- Launches that yielded at an earlier tick and wait for this tick's saves run again once those are complete (R143). -/
def State.releaseDue (s : State) (t : Nat) : State :=
  let x := s.slice t
  let busy := s.groups.any (fun e => e.2.slice == t && e.2.place != .saved && e.2.place != .resident &&
    (s.launchOf e.2).yielded && !(s.launchOf e.2).due)
  if busy then s
  else
    let ids := (x.launches.filter (fun l => l.2.due)).map (·.1)
    if ids.isEmpty then s
    else
      let s1 := (ids.foldl (fun s id => s.presetUsage t id) s).modSlice t (fun x => { x with launches := x.launches.map (fun (e : Nat × Launch) =>
        (e.1, if e.2.due then { e.2 with yielded := false, due := false } else e.2)) })
      { s1 with groups := s1.groups.map (fun (e : Nat × Group) => (e.1,
          if e.2.slice == t && ids.contains e.2.launch && e.2.why == 2 then { e.2 with wants := true } else e.2)) }

/-- A save or restoration that meets a byte out of reach discards the group as a terminal cause does; for a tick its freeze
counts as complete (R409). -/
def State.areaLost (s : State) (gid : Nat) (f : Nat × Nat) : State :=
  (s.terminal gid { cause := f.2, addr := BitVec.ofNat 64 f.1 }).releaseDue (s.group gid).slice

/-! ## The completion of a freeze (R106, R185) -/

/-- Class I2 entries of a group that have left and are not complete. -/
def Group.i2Out (g : Group) : Bool := g.log.any (fun e => e.cls == 2 && e.sent && !e.failed)

/-- A frozen state is 64 cycles old, with no strike against it, no class I2 entry under way, and no tile.tld or tile.tst that has
still to run to its end (R106, R376). -/
def State.frozenNow (s : State) (g : Group) : Bool :=
  g.place == .freezing && !s.struck g.core && decide (g.frozeCyc + 64 ≤ s.now g.core) && !g.i2Out &&
    g.log.all (fun e => !(e.tileMove && !e.over && s.entryMay g e))

/-- FREEZE_COMPLETE (R106). -/
def execFreezeComplete (gid : Nat) (s : State) : Host.Outcome State Fault Refusal :=
  .next (s.modGroup gid (fun g => if s.frozenNow g then { g with place := .frozen } else g))

/-- A halt, eviction or yield still finds a class I2 entry after 2 us: rung 3 (R144, R185). -/
def State.i2Late (s : State) (g : Group) : Bool :=
  g.place == .freezing && g.why != 1 && g.i2Out && decide (g.frozeAt + 2000 ≤ s.cycle)

/-- The third rung: the slice is killed; a quiesce reports the rung (R144, R147). -/
def State.rung3 (s : State) (t : Nat) : State :=
  (s.modSlice t (fun x => { x with migRung := if x.migBusy then 3 else x.migRung })).startKill t 2 0

/-- I2_DRAIN_TIMEOUT (R185). -/
def execI2DrainTimeout (gid : Nat) (s : State) : Host.Outcome State Fault Refusal :=
  .next (if s.i2Late (s.group gid) then s.rung3 (s.group gid).slice else s)

/-! ## The save (R175 to R177, R193) -/

/-- The image of a workgroup: its scratchpad range, then its accumulators when the kernel has TILE and it holds the tile
store (R176). -/
def State.imageParts (s : State) (core : Nat) (w : WgRes) (desc : List Byte) : List Byte × List Byte :=
  let tile := nbit (field desc 0x1F 1) 1 && (s.core core).tileWg == some w.wg
  (s.spadBytes core w.base w.size,
   if tile then (List.range 8).flatMap (fun a => (List.range 128).flatMap (fun r => (List.range 192).flatMap (fun c =>
     leBytes 4 (s.accElem core a r c).toNat))) else [])

/-- ARRIVE of a copy or collective names a place in a range of a core: the offset within it. -/
def State.arriveIn (s : State) (t arr core base size : Nat) : Option Nat :=
  match s.arriveAt t arr with
  | some (c, o) => if c = core && decide (base ≤ o) && decide (o < base + size) then some (o - base) else none
  | none => none

/-- Copies and collectives whose ARRIVE lies in a workgroup's range remember it while the range is saved (R153). -/
def State.tieJobs (s : State) (t core : Nat) (w : WgRes) : State :=
  { s with dies := s.dies.map (fun (e : Nat × Die) => (e.1,
      { e.2 with
        engines := e.2.engines.map (fun (x : Nat × Engine) => (x.1, { x.2 with jobs := x.2.jobs.map (fun j =>
          if j.slice == t then
            match s.arriveIn t j.arrive core w.base w.size with
            | some o => { j with arrWg := some (w.wg, o) }
            | none => j
          else j) })),
        colls := e.2.colls.map (fun j =>
          if j.slice == t then
            match s.arriveIn t j.arrive core w.base w.size with
            | some o => { j with arrWg := some (w.wg, o) }
            | none => j
          else j) })) }

/-- The device addresses of some bytes of a slice's memory, as an engine of a die reaches them. -/
def State.devAddrs (s : State) (t d a n : Nat) : List Nat :=
  (List.range n).filterMap (fun i => match s.engineLoc t d (a + i) .load with
    | .ok (e, pa) => if e.target = 0 then some pa else none
    | .error _ => none)

/-- Bytes of an image whose words carry a poison mark on the core: their places in the image. -/
def State.badImage (s : State) (core base size : Nat) (tile : Bool) : List Nat :=
  s.m.badWords.flatMap (fun w => match w with
    | .spad c k => if c = core then ((List.range 8).map (fun i => k * 8 + i)).filterMap (fun o =>
        if base ≤ o && o < base + size then some (o - base) else none) else []
    | .tile c k => if c = core && tile then (List.range 8).map (fun i => size + k * 8 + i) else []
    | _ => [])

/-- The poison marks of a workgroup's words go with them into its image (R101). -/
def State.markImage (w : WgRes) (core a : Nat) (s : State) : State :=
  ((s.badImage core w.base w.size ((s.core core).tileWg == some w.wg)).flatMap (fun o => s.devAddrs w.slice (dieOf core) (a + o) 1)).foldl
    (fun s pa => s.markBad (.l2 (pa / 8))) s

/-- The poison marks of an image go with it to a core (R101). -/
def State.markLoaded (s : State) (t core a base size n : Nat) : State :=
  if s.m.poison.isEmpty && s.m.badWords.isEmpty then s
  else (List.range n).foldl (fun u o =>
    if (s.devAddrs t (dieOf core) (a + o) 1).any s.poisoned then
      u.markBad (if o < size then .spad core ((base + o) / 8) else .tile core ((o - size) / 8))
    else u) s

/-- A workgroup whose last group has just been saved gives up its range, its tile store and its array operations; its
image lies in a slot, whose accumulator part is undefined when it does not hold the tile store (R176, R184; log 5). -/
def State.saveWhole (s : State) (core : Nat) (w : WgRes) (slot : Option Nat) : State :=
  let desc := (Tbl.get (s.slice w.slice).launches {} w.launch).desc
  let img := s.imageParts core w desc
  let d := dieOf core
  let gid := (w.gids.find? (fun g => (Tbl.find s.groups g).isSome)).getD 0
  let put (s : State) (a : Nat) (l : List Byte) : Except (Nat × Nat) State :=
    if l.isEmpty then .ok s
    else match s.spanFail w.slice d a l.length .store with
      | some f => .error f
      | none => .ok ((s.engineWrite w.slice d a l).getD s)
  let done (s : State) : State :=
    let s1 := s.tieJobs w.slice core w
    { s1 with cores := s1.cores.map (fun (e : Nat × Core) =>
        let c := { e.2 with queue := e.2.queue.filter (fun o => !w.gids.contains o.gid) }
        if e.1 = core then
          (e.1, { c with
            wgs := c.wgs.map (fun x => if x.wg == w.wg then
              { x with whole := true, leaving := false, gone := [], image := slot, savedOn := core, tile := c.tileWg == some w.wg } else x),
            tileWg := if c.tileWg == some w.wg then none else c.tileWg })
        else (e.1, c)) }
  match slot with
  | none => done s
  | some k =>
    match put s (imageAddr desc k) img.1 with
    | .error f => s.areaLost gid f
    | .ok s1 =>
      match put s1 (imageAddr desc k + w.size) img.2 with
      | .error f => s.areaLost gid f
      | .ok s2 =>
        done <| State.markImage w core (imageAddr desc k) <| (if nbit (field desc 0x1F 1) 1 && img.2.isEmpty then s2.undefRange w.slice d (imageAddr desc k + w.size) 786432 else s2)

/-- A save that ends after the deadline of the tick at which its launch yielded charges the holders that were spent (R143). -/
def State.chargeLate (s : State) (g : Group) : State :=
  let l := s.launchOf g
  if l.yielded && decide (l.yieldAt + 200000 < s.cycle) then
    s.modSlice g.slice (fun x => { x with ctxs := Tbl.upd x.ctxs g.ctx (fun c =>
      { c with spent := c.spent.map (fun (h : Nat × Nat) => (h.1, if g.holders.contains h.1 then s.cycle - l.yieldAt else h.2)) }) })
  else s

/-- Every group of a workgroup is saved. -/
def State.allSaved (s : State) (w : WgRes) : Bool :=
  w.gids.all (fun k => match Tbl.find s.groups k with | some x => x.place == .saved | none => true)

/-- Some piece of a copy of the workgroup's groups is in flight: it lands before the workgroup is saved (R184). -/
def State.piecesOut (s : State) (w : WgRes) : Bool :=
  s.dies.any (fun d => d.2.engines.any (fun e => e.2.jobs.any (fun j =>
    match j.gid with | some (g, _) => w.gids.contains g && !j.inflight.isEmpty | none => false)))

/-- Workgroups of a core that pass a test and whose groups are all saved are saved as a whole, as far as image slots go
(R176). -/
def State.sweepCore (s : State) (core : Nat) (p : WgRes → Bool) : State :=
  ((s.core core).wgs.filter (fun w => p w && !w.whole)).foldl (fun s w =>
    let needs := isize (Tbl.get (s.slice w.slice).launches {} w.launch).desc != 0
    let slot := s.freeSlot w.slice w.launch
    let desc := (Tbl.get (s.slice w.slice).launches {} w.launch).desc
    if !s.allSaved w || s.piecesOut w || (needs && slot.isNone) ||
        (needs && s.spanBusy w.slice (dieOf core) (imageAddr desc (slot.getD 0)) (isize desc)) then s
    else s.saveWhole core w (if needs then slot else none)) s

/-- A frozen group is saved in the lowest free frame of its area: its unpublished stores are withdrawn, to be replayed (R226), and
the last group of a workgroup that leaves takes its range along. -/
def State.saveGroup (s : State) (gid : Nat) : State :=
  match Tbl.find s.groups gid with
  | none => s
  | some g =>
    if g.place != .frozen then s
    else
      match s.freeFrame g with
      | none => s
      | some k =>
        let a := frameAddr (s.launchOf g) g.regs k
        let bytes := frameBytes g g.why
        if s.spanBusy g.slice (dieOf g.core) a bytes.length then s
        else match s.spanFail g.slice (dieOf g.core) a bytes.length .store with
        | some f => s.areaLost gid f
        | none =>
          let s1 := (((s.engineWrite g.slice (dieOf g.core) a bytes).getD s).withdraw gid).dropPrivate gid true
          let s2 := s1.modGroup gid (fun g => { g with
            place := .saved, frame := some k, hz := [], accBusy := [], claim := false,
            dumpAt := if g.dbgHeld then 0 else g.dumpAt, fixStop := false })
          (((s2.chargeLate g).releaseDue g.slice).watchClaims (dieOf g.core)).sweepCore g.core (·.leaving)

/-- GROUP_SAVE (R175). -/
def execGroupSave (gid : Nat) (s : State) : Host.Outcome State Fault Refusal := .next (s.saveGroup gid)

/-! ## The restoration (R136, R174, R184) -/

/-- A location in a range of one core, at the same offset in a range of another. -/
def moveLoc (c0 b0 size c1 b1 : Nat) (l : Loc) : Loc :=
  match l with
  | .spad c o => if c = c0 && decide (b0 ≤ o) && decide (o < b0 + size) then .spad c1 (o - b0 + b1) else l
  | _ => l

/-- Replace n bytes of an image. -/
def patch (img : List Byte) (off : Nat) (l : List Byte) : List Byte := img.take off ++ l ++ img.drop (off + l.length)

/-- ARRIVE for a place in a scratchpad by logical numbers (R87). -/
def arriveWord (ld lc lk off : Nat) : Nat := 2 ^ 31 + ld * 2 ^ 29 + lc * 2 ^ 25 + lk * 2 ^ 23 + off

/-- A generic scratchpad address of an image that lies in the old range moves with it (R153). -/
def moveEnd (lk0 b0 size lk1 b1 : Nat) (a : Nat) : Nat :=
  let o := a - 0x01FFFFFFFF000000
  if windowOf a == .spad && o / 4194304 == lk0 && decide (b0 ≤ o % 4194304) && decide (o % 4194304 < b0 + size) then
    0x01FFFFFFFF000000 + lk1 * 4194304 + (o % 4194304 - b0 + b1)
  else a

/-- The image of an entry whose workgroup moves from one core's slot, by logical numbers, and range to another: the operands of a matrix
operation (R353), the ends and the arrival object of a copy or collective (R153). -/
def moveImage (e : Entry) (n0 n1 : Nat × Nat × Nat) (b0 size b1 : Nat) : List Byte :=
  let mv (i : List Byte) (off : Nat) : List Byte := patch i off (leBytes 8 (moveEnd n0.2.2 b0 size n1.2.2 b1 (field i off 8)))
  if e.img.isEmpty then []
  else if e.kind = 12 then [8, 0x10, 0x28, 0x30, 0x38].foldl mv e.img
  else
    let at_ := if pktType e.img = 2 then 0x2C else 0x34
    let w := field e.img at_ 4
    let off := w % 8388608
    let i := [8, 0x10].foldl mv e.img
    if b0 ≤ off && decide (off < b0 + size) && w == arriveWord n0.1 n0.2.1 n0.2.2 off then
      patch i at_ (leBytes 4 (arriveWord n1.1 n1.2.1 n1.2.2 (off - b0 + b1)))
    else i

/-- The entries and waits of a group follow its range to another place. -/
def moveGroup (c0 b0 size c1 b1 : Nat) (g : Group) : Group :=
  let accs (l : List Acc) : List Acc := l.map (fun a => { a with loc := moveLoc c0 b0 size c1 b1 a.loc })
  { g with
    spadBase := BitVec.ofNat 22 b1,
    log := g.log.map (fun e => { e with img := moveImage e (g.lDie, g.lCl, g.lCore) (g.lDie, g.lCl, g.lCore) b0 size b1, acc := accs e.acc, rng := e.rng.map (fun r =>
      if r.1 = c0 && decide (b0 ≤ r.2.1) && decide (r.2.1 < b0 + size) then (c1, r.2.1 - b0 + b1, r.2.2) else r) }),
    splits := g.splits.map (fun p => { p with wait := p.wait.map (fun w => { w with accs := accs w.accs }) }) }

/-- An image whose ARRIVE named a workgroup's scratchpad is retargeted to where the range is now (R153). -/
def retarget (img : List Byte) (nums : Nat × Nat × Nat) (b0 size b1 rel : Nat) : List Byte :=
  let at_ := if pktType img = 2 then 0x2C else 0x34
  let lk0 := bits (field img at_ 4) 24 23
  let i1 := patch img at_ (leBytes 4 (arriveWord nums.1 nums.2.1 nums.2.2 (b1 + rel)))
  let mv (i : List Byte) (off : Nat) : List Byte := patch i off (leBytes 8 (moveEnd lk0 b0 size nums.2.2 b1 (field i off 8)))
  mv (mv i1 8) 16

/-- Copies and collectives tied to a workgroup are untied at its new place. -/
def State.untieJobs (s : State) (w : WgRes) (nums : Nat × Nat × Nat) (b1 : Nat) : State :=
  { s with dies := s.dies.map (fun (e : Nat × Die) => (e.1,
      { e.2 with
        engines := e.2.engines.map (fun (x : Nat × Engine) => (x.1, { x.2 with jobs := x.2.jobs.map (fun j =>
          match j.arrWg with
          | some (k, o) => if k = w.wg then { j with arrWg := none, image := retarget j.image nums w.base w.size b1 o } else j
          | none => j) })),
        colls := e.2.colls.map (fun j =>
          match j.arrWg with
          | some (k, o) => if k = w.wg then { j with arrWg := none, image := retarget j.image nums w.base w.size b1 o } else j
          | none => j) })) }

/-- Load the accumulators of a core from an image. -/
def State.loadTile (s : State) (core : Nat) (img : List Byte) : State :=
  let s1 := (List.range 8).foldl (fun s a => s.accFill core a 0) s
  { s1 with tile := (List.range 8).foldl (fun t a => (List.range 128).foldl (fun t r => (List.range 192).foldl (fun t c =>
      Tbl.set t 0 (tileKey core a r c) (BitVec.ofNat 32 (field img (((a * 128 + r) * 192 + c) * 4) 4))) t) t) s1.tile }

/-- A workgroup saved as a whole takes a range again, with its image (R136, R176). -/
def State.loadWhole (s : State) (core gid : Nat) (w : WgRes) : State :=
  let l := Tbl.get (s.slice w.slice).launches {} w.launch
  let nums := l.numbers core
  match firstFit (s.core core).wgs w.size with
  | none => s
  | some b =>
    let d := dieOf core
    let a := imageAddr l.desc (w.image.getD 0)
    let tile := if w.tile && nbit (field l.desc 0x1F 1) 1 then 786432 else 0
    match (if w.image.isSome then s.spanFail w.slice d a (w.size + tile) .load else none) with
    | some f => s.areaLost gid f
    | none =>
      let img := match (if w.image.isSome then s.engineRead w.slice d a (w.size + tile) else .ok []) with
        | .ok i => i
        | .error _ => []
      let s1 := s.loadSpad core b (img.take w.size)
      let s2 := if w.tile then ((s1.clearBad (fun x => match x with | .tile c _ => c == core | _ => false)).loadTile core (img.drop w.size)).modCore
          core (fun c => { c with tileWg := some w.wg }) else s1
      let s2 := if w.image.isSome then s2.markLoaded w.slice core a b w.size (w.size + tile) else s2
      let s3 := (s2.untieJobs w nums b).modCore core (fun c => { c with wgs := c.wgs.map (fun x =>
        if x.wg == w.wg then { x with whole := false, image := none, base := b, tile := false } else x) })
      { s3 with groups := s3.groups.map (fun (e : Nat × Group) =>
          (e.1, if w.gids.contains e.1 then moveGroup w.savedOn w.base w.size core b e.2 else e.2)) }

/-- Registers as a frame holds them: a debugger may have rewritten them (R177, R232). -/
def Group.fromFrame (g : Group) (f : List Byte) : Group :=
  { g with
    p := (List.range 7).foldl (fun t n => Tbl.set t 0 n (BitVec.ofNat 32 (field f (0xC0 + 4 * n) 4))) [],
    s := (List.range 32).foldl (fun t n => Tbl.set t 0 n (BitVec.ofNat 32 (field f (0x100 + 4 * n) 4))) [],
    v := (List.range (g.regs * 32)).foldl (fun t n => Tbl.set t 0 n (BitVec.ofNat 32 (field f (0x1380 + 4 * n) 4))) [] }

/-- A split as it is restored: a wait is executed again, but for the waiting part of bar.arrive_wait (R178, R347); a sleep.yield is
over (R384). -/
def restoredSplit (now : Nat) (p : Split) : Split :=
  let keeps := match p.wait with
    | some w => (match w.insn with | .barArriveWait _ => true | _ => false)
    | none => false
  if p.st == .sleep && p.why == .idle then { p with readyAt := now, passed := 0, starve := 0, deadline := 0 }
  else if p.wait.isSome && !keeps then
    { p with st := .run, why := .awake, wait := none, mark := none, readyAt := now, passed := 0, starve := 0 }
  else { p with readyAt := now, passed := 0, starve := 0 }

/-- An entry as it is replayed: its lanes not yet done and still live are sent again, the one operation of a single-address form as
it is; copies, collectives and matrix operations go on in their engines (R184). -/
def replayed (live : Word) (e : Entry) : Entry :=
  if e.elsewhere then e
  else
    let done := if e.one || e.complete then e.done else e.done ||| (e.mask &&& ~~~live)
    { e with failed := false, cause := 0, info := 0, failMask := 0, asked := 0, got := [], done := done, perf := done,
             replay := !e.complete }

/-- Event 41 counts the entries replayed on a core (R237). -/
def State.countReplays (s : State) (core n : Nat) : State :=
  s.modCore core (fun c => c.count 41 n)

/-- The host failed the group's page fault: the group takes PAGE_NOTPRESENT (R174, R206), unless what it had issued before the access
is executed again first (R185). -/
def State.failedFault (s : State) (gid : Nat) : State :=
  let g := s.group gid
  match g.split? g.faultSplit with
  | none => s
  | some p =>
    if g.faultMask = 0 then s else
    let t0 : TrapInfo := { cause := 8, mask := g.faultMask, pc := p.pc, rpc := p.pc, addr := g.faultVa }
    let t := { t0 with fix := s.fixWord g p.pc.toNat }
    if g.handling p then s.terminal gid t
    else if s.handlerOf g ≠ 0 then s.enterHandler gid p.born t
    else s.noHandler gid p.born t

/-- What an access of an entry needs of its page. -/
def Entry.access (e : Entry) : Access :=
  match e.instr with
  | .cntRd _ => .load
  | _ => if e.kind = 1 || (e.kind = 12 && !isTst e.instr) then .load else .store

/-- A replayed entry translates its pieces afresh (R174, R184): the pieces at their places now, and the lanes that fail. -/
def State.relocate (s : State) (g : Group) (e : Entry) : List Acc × List (Nat × DWord × LaneFail) :=
  let one (a : Acc) : Acc × List (Nat × DWord × LaneFail) :=
    match a.loc with
    | .spad _ _ => (a, [])
    | .mcast _ _ => (a, [])
    | _ =>
      if e.done.getLsbD a.lane || a.size = 0 then (a, [])
      else match s.checkGlobal g { acc := e.access } (s.pieceVa g a) a.priv with
        | .ok l => ({ a with loc := l }, [])
        | .error f => (a, [(a.lane, a.ea, { f with va := some (s.pieceVa g a) })])
  ((e.acc.map one).map (·.1), (e.acc.map one).flatMap (·.2))

/-- A replayed entry would fault while no walk that faults may go on (R202). -/
def State.replayStuck (s : State) (g : Group) : Bool :=
  g.log.any (fun e => e.kind != 9 && e.kind != 10 && (s.relocate g e).2.any (fun x =>
    x.2.2.cause == 8 && s.walksWait g.slice (dieOf g.core) (nbit x.2.2.flags 0)))

/-- Re-send an entry: a page that is not present saves the group again, another failure is the entry's (R174, R184); a fault that
the host has failed is the entry's too (R206). -/
def State.replayEntry (s : State) (gid id : Nat) : State :=
  let g := s.group gid
  match g.entry? id with
  | none => s
  | some e =>
    if !e.replay || g.place != .resident then s
    else if g.why = 4 && g.faultEnt == some id then s.lateFail gid id 8 0 g.faultMask g.faultVa
    else
      let r := s.relocate g e
      let s1 := s.modEntry gid id (fun e => { e with acc := r.1 })
      let k := lowCause r.2
      let fs := r.2.filter (fun x => x.2.2.cause == k)
      match fs with
      | [] => s1
      | x :: _ =>
        let m := if e.one then e.mask else maskOf (fs.map (·.1))
        if k ≠ 8 then s1.lateFail gid id k x.2.2.info m x.2.1
        else
          match s1.pageFault gid (e.split.getD 0)
              { cause := 8, mask := m, pc := e.pc, rpc := e.pc, addr := x.2.1, flags := x.2.2.flags, ipa := x.2.2.ipa, va := x.2.2.va } with
          | (s2, true) => s2.modGroup gid (fun g => { g with faultEnt := some id })
          | (s2, false) => s2.lateFail gid id 8 0 m x.2.1

/-- A saved group has room on its core: a slot, blocks, and its workgroup's range and tile store (R136). -/
def State.restoreFits (s : State) (gid : Nat) (g : Group) : Bool :=
  let c := s.core g.core
  s.waitsRestore (gid, g) g.core && s.coreOpen g.slice g.core &&
  !s.groups.any (fun e => s.waitsRestore e g.core && tooLong s.cycle e.2.passedAt && decide (g.prio ≤ e.2.prio) && decide (e.2.frozeAt < g.frozeAt)) &&
  decide (1 ≤ s.freeSlots g.core g.part) && decide (g.regs / 8 ≤ s.freeBlocks g.core g.part) && s.modeFits g.core (s.launchOf g).desc &&
  (match c.wgs.find? (fun w => w.gids.contains gid) with
   | some w => !w.leaving && (!w.whole || ((firstFit c.wgs w.size).isSome && (!w.tile || c.tileWg.isNone)))
   | none => true)

/-- Give a restored group its registers, its replayed logbook and its slot. An entry with no lane left to replay is freed, and
its home learns of it (R183, R184). -/
def State.reenter (s : State) (gid : Nat) (f : List Byte) : State :=
  let g := s.group gid
  let now := s.now g.core
  let live := g.live
  let g1 := g.fromFrame f
  let stays (e : Entry) : Bool :=
    e.elsewhere || e.mask &&& ~~~e.done &&& live != 0 || e.complete
  let log := (g1.log.filter stays).map (replayed live)
  let g2 := { g1 with
    place := .resident, frame := none, wants := false, evictor := none, passedAt := 0, token := none, log := log, lastCyc := now,
    splits := g1.splits.map (restoredSplit now) }
  let s1 := s.setMode g.core (nbit (field (s.launchOf g).desc 0x1F 1) 0)
  let s2 := ((((s1.addGroups g.core [(gid, g2)]).giveUp gid (fun _ => true)).countReplays g.core (log.filter (·.replay)).length).openAt gid 10)
  let s3 := (s2.group gid).log.foldl (fun s e => s.mmaAgain gid e)
    ((g1.log.filter (fun e => !stays e && e.cls == 1)).foldl (fun s e => s.unrecord g.slice e.wmark.toNat) s2)
  let s4 := (log.filter (·.replay)).foldl (fun s e => s.replayEntry gid e.id) s3
  if g.why = 4 && g.faultEnt.isNone && (s4.group gid).place == .resident then s4.failedFault gid else s4

/-- Saved groups of a core that have waited longer are passed by one that is restored (R118). -/
def State.passBefore (s : State) (core at_ : Nat) : State :=
  { s with groups := s.groups.map (fun (e : Nat × Group) =>
      if s.waitsRestore e core && e.2.passedAt == 0 && decide (e.2.frozeAt < at_) then (e.1, { e.2 with passedAt := s.cycle }) else e) }

/-- The frame of a saved group, or the image of its workgroup, waits at a controller (R66, R67). -/
def State.areaBusy (s : State) (gid : Nat) (g : Group) : Bool :=
  let l := s.launchOf g
  s.spanBusy g.slice (dieOf g.core) (frameAddr l g.regs (g.frame.getD 0)) (frameSize g.regs) ||
    (s.core g.core).wgs.any (fun w => w.whole && w.gids.contains gid && w.image.isSome &&
      s.spanBusy g.slice (dieOf g.core) (imageAddr l.desc (w.image.getD 0)) (isize l.desc))

/-- A saved group is restored once room exists (R136). -/
def State.restore (s : State) (gid : Nat) : State :=
  match Tbl.find s.groups gid with
  | none => s
  | some g =>
    if !s.restoreFits gid g || s.replayStuck g || s.areaBusy gid g then s
    else if (s.core g.core).testing ≠ 0 then s.abandonTest g.core
    else
      let s := s.passBefore g.core g.frozeAt
      let s1 := match (s.core g.core).wgs.find? (fun w => w.whole && w.gids.contains gid) with
        | some w => s.loadWhole g.core gid w
        | none => s
      match Tbl.find s1.groups gid, g.frame with
      | some _, some k =>
        let a := frameAddr (s1.launchOf g) g.regs k
        let n := frameSize g.regs
        (match s1.spanFail g.slice (dieOf g.core) a n .load with
         | some f => s1.areaLost gid f
         | none =>
           match s1.engineRead g.slice (dieOf g.core) a n with
           | .ok f =>
             (match (s1.devAddrs g.slice (dieOf g.core) a n).find? s1.poisoned with
              | some pa => s1.consumePoison g.slice pa
              | none => s1.reenter gid f)
           | .error _ => s1)
      | _, _ => s1

/-- GROUP_RESTORE (R136). -/
def execGroupRestore (gid : Nat) (s : State) : Host.Outcome State Fault Refusal := .next (s.restore gid)

end Sys2Proof.Machine
end

