-- ==== Sys2Proof/Machine/Timeshare.lean ====
section
/-! DEFINITION. Time-sharing (R139 to R148): switch ticks, the escalation ladder, and the quiesce of a slice. -/

namespace Sys2Proof.Machine

/-! ## Switch ticks (R139 to R143) -/

/-- KILL and GRACE of LADDER.t, in us (R145). -/
def Slice.killLimit (x : Slice) : Nat := max 100 (bits x.ladder.toNat 31 16)
def Slice.grace (x : Slice) : Nat := bits x.ladder.toNat 15 0

/-- The spent holders of a context (R139). -/
def State.spentOf (s : State) (t : Nat) (c : Ctx) : List Nat :=
  let hs := (c.usage.map (·.1) ++
    ((s.slice t).launches.filter (fun l => l.2.ctx == c.num && l.2.aborted.isNone)).flatMap (fun l => s.holdersOf t l.1 l.2)).eraseDups
  hs.filter (fun h => match s.quota t h with | some q => decide (q ≤ Tbl.get c.usage 0 h) | none => false)

/-- A launch lies under one of some holders. -/
def State.underHolder (s : State) (t id : Nat) (l : Launch) (hs : List Nat) : Bool := (s.holdersOf t id l).any hs.contains

/-- The launches that yield at this tick. -/
def State.yielders (s : State) (t : Nat) : List Nat :=
  ((s.slice t).launches.filter (fun l => !l.2.yielded && l.2.aborted.isNone &&
    (match Tbl.find (s.slice t).ctxs l.2.ctx with
     | some c => let hs := s.spentOf t c; !hs.isEmpty && s.underHolder t l.1 l.2 hs
     | none => false))).map (·.1)

/-- A context after a tick: its usage counts start again, and the holders that are spent yield (R142). -/
def State.usageAfter (s : State) (t : Nat) (c : Ctx) : Ctx :=
  { c with usage := [], spent := (s.spentOf t c).foldl (fun l h => Tbl.put l h 0) c.spent }

/-- Every group of a launch that was to be saved is saved. -/
def State.savesDone (s : State) (t id : Nat) : Bool :=
  s.groups.all (fun e => e.2.slice != t || e.2.launch != id || e.2.place == .saved || e.2.place == .resident)

/-- A tick acts on a slice unless a quiesce, an export or a kill is under way (R142). -/
def Slice.ticking (x : Slice) : Bool := x.st == .active && !x.killing && !x.quiesced && !x.engStop

/-- Workgroups of yielding launches go to the tail of their cores' waiting lists; their saved groups wait behind those that froze
before (R142). -/
def State.toTail (s : State) (t : Nat) (ys : List Nat) : State :=
  let mine (w : Waiting) : Bool := w.slice == t && ys.contains w.launch
  { s with cores := s.cores.map (fun (e : Nat × Core) =>
      (e.1, { e.2 with waiting := e.2.waiting.filter (fun w => !mine w) ++ e.2.waiting.filter mine })) }

/-- A switch tick of a slice (R142). -/
def State.tickSlice (s : State) (t : Nat) : State :=
  let x := s.slice t
  if !x.ticking then s
  else
    let ys := s.yielders t
    let back := (x.launches.filter (fun l => l.2.yielded && s.savesDone t l.1)).map (·.1)
    let s1 := s.modSlice t (fun x =>
      { x with
        ticks := x.ticks + 1, deadlines := x.deadlines ++ [(x.ticks + 1, s.cycle + 200000)],
        ctxs := x.ctxs.map (fun (c : Nat × Ctx) => (c.1, s.usageAfter t c.2)),
        launches := x.launches.map (fun (l : Nat × Launch) => (l.1,
          if ys.contains l.1 then { l.2 with yielded := true, yieldTick := x.ticks + 1, yieldAt := s.cycle, due := false }
          else if back.contains l.1 then { l.2 with due := true }
          else l.2)) })
    let s2 := (s1.groups.filter (fun e => e.2.slice == t && ys.contains e.2.launch)).foldl (fun s e => s.freeze e.1 2) s1
    (s2.toTail t ys).releaseDue t

/-- SWITCH_TICK (R142). -/
def execSwitchTick (slice : Nat) (s : State) : Host.Outcome State Fault Refusal := .next (s.tickSlice slice)

/-- Yielded launches of a slice with a group whose save is not complete, whatever froze it first (R146). -/
def State.unsaved (s : State) (t : Nat) : List Launch :=
  ((s.groups.filter (fun e => e.2.slice == t && (e.2.place == .freezing || e.2.place == .frozen) && (s.launchOf e.2).yielded)).map
    (fun e => s.launchOf e.2))

/-- 200 us after a tick (R143): what has still to be saved since an earlier tick takes the third rung; what has since this one
holds back the launches that would have run. -/
def State.tickDeadline (s : State) (t : Nat) : State :=
  match (s.slice t).deadlines with
  | [] => s
  | (k, at_) :: r =>
    if s.cycle < at_ then s
    else
      let s1 := s.modSlice t (fun x => { x with deadlines := r })
      let l := s.unsaved t
      if l.any (fun l => decide (l.yieldTick < k)) then s1.rung3 t
      else if l.all (fun l => decide (k < l.yieldTick)) then s1
      else s1.modSlice t (fun x => { x with launches := x.launches.map (fun (e : Nat × Launch) => (e.1, { e.2 with due := false })) })

/-- TICK_SAVE_DEADLINE (R143). -/
def execTickSaveDeadline (slice : Nat) (s : State) : Host.Outcome State Fault Refusal := .next (s.tickDeadline slice)

/-! ## The quiesce and the ladder (R144 to R148) -/

/-- Rung 2 of a quiesce: every group halts, every workgroup leaves as a whole (R144, R148). -/
def State.rung2 (s : State) (t : Nat) : State :=
  let s1 := s.modSlice t (fun x => { x with migRung := 2, ladderAt := s.cycle })
  let s2 := (s1.groups.filter (fun e => e.2.slice == t)).foldl (fun s e => s.freeze e.1 3) s1
  { s2 with cores := s2.cores.map (fun (e : Nat × Core) =>
      (e.1, { e.2 with wgs := e.2.wgs.map (fun w => if w.slice == t && !w.whole then { w with leaving := true } else w) })) }

/-- QUIESCE (R147, R148): INPROG while busy, BAD_STATE unless ACTIVE. -/
def State.quiesce (s : State) (t : Nat) : State :=
  let x := s.slice t
  if x.migBusy then s.modSlice t (fun x => { x with migRes := 7 })
  else if x.st != .active || x.quiesced || x.killing then s.modSlice t (fun x => { x with migRes := 1 })
  else
    let s1 := s.modSlice t (fun x =>
      { x with migBusy := true, migOp := 1, migRes := 0, migRung := 1, engStop := true, ladderAt := s.cycle })
    if x.grace = 0 then s1.rung2 t else s1

/-- QUIESCE (R148). -/
def execQuiesce (slice : Nat) (s : State) : Host.Outcome State Fault Refusal := .next (s.bar0 (s.quiesce slice))

/-- A quiesce is under way: no other operation takes time. -/
def Slice.quiescing (x : Slice) : Bool := x.migBusy

/-- LADDER_GRACE_EXPIRY (R144). -/
def execLadderGraceExpiry (slice : Nat) (s : State) : Host.Outcome State Fault Refusal :=
  let x := s.slice slice
  .next (if x.quiescing && x.migRung = 1 && decide (x.ladderAt + x.grace * 1000 ≤ s.cycle) then s.rung2 slice else s)

/-- KILL has expired at rung 2 for the quiesce, or for a group that freezes or waits for a frame (R136, R144, R146). -/
def State.killDue (s : State) (t : Nat) : Bool :=
  let x := s.slice t
  let lim := x.killLimit * 1000
  (x.quiescing && x.migRung == 2 && decide (x.ladderAt + lim ≤ s.cycle)) ||
    s.groups.any (fun e => e.2.slice == t && (e.2.place == .freezing || e.2.place == .frozen) && e.2.why != 1 && !e.2.dbgHeld &&
      decide (e.2.frozeAt + lim ≤ s.cycle))

/-- LADDER_KILL_EXPIRY (R144). -/
def execLadderKillExpiry (slice : Nat) (s : State) : Host.Outcome State Fault Refusal :=
  .next (if s.killDue slice then s.rung3 slice else s)

/-- Workgroups whose groups are all saved already are saved as a whole, as far as image slots go (R176). -/
def State.saveRest (s : State) (t : Nat) : State := (s.cores.map (·.1)).foldl (fun s c => s.sweepCore c (·.slice == t)) s

/-- Nothing of the slice is under way: groups and workgroups saved, no piece in flight. -/
def State.quiet (s : State) (t : Nat) : Bool :=
  s.groups.all (fun e => e.2.slice != t || e.2.place == .saved) &&
  s.cores.all (fun e => e.2.wgs.all (fun w => w.slice != t || w.whole)) &&
  s.dies.all (fun d => d.2.engines.all (fun e => e.2.jobs.all (fun j => j.slice != t || j.inflight.isEmpty)))

/-- A slice that quiesces discards its waiting faults (R206). -/
def State.dropFaults (s : State) (t : Nat) : State :=
  let s1 := (s.modSlice t (fun x => { x with tokens := [] })).modSlice 16 (fun x =>
    { x with tokens := x.tokens.filter (fun e => e.2 % 32 != t) })
  { s1 with
    groups := s1.groups.map (fun (e : Nat × Group) => (e.1, if e.2.slice == t then { e.2 with token := none } else e.2)),
    dies := s1.dies.map (fun (e : Nat × Die) => (e.1, { e.2 with engines := e.2.engines.map (fun (x : Nat × Engine) =>
      (x.1, { x.2 with jobs := x.2.jobs.map (fun j => if j.slice == t then { j with token := none } else j) })) })) }

/-- The quiesce completes once everything is saved (R148 step 4); a kill overtakes it (R147). -/
def State.quiesceEnd (s : State) (t : Nat) : State :=
  if !(s.slice t).quiescing || (s.slice t).killing || !s.groups.all (fun e => e.2.slice != t || e.2.place == .saved) then s
  else
    let s1 := s.saveRest t
    if s1.quiet t then
      (s1.dropFaults t).modSlice t (fun x => { x with quiesced := true, migBusy := false, migRes := 0, wasDies := none })
    else s1

/-- QUIESCE_DONE (R148). -/
def execQuiesceDone (slice : Nat) (s : State) : Host.Outcome State Fault Refusal := .next (s.quiesceEnd slice)

end Sys2Proof.Machine
end

