-- ==== Sys2Proof/Machine/Counters.lean ====
section
/-! DEFINITION. Programmable counters (R238 to R240) and the profile that a ream carries (R242). -/

namespace Sys2Proof.Machine

/-! ## Programmable counters (R238 to R240) -/

/-- The slice's total of an event: what its cores count and what those that left it have counted. -/
def State.eventTotal (s : State) (t e : Nat) : Nat :=
  let on := s.cores.filter (fun c => c.2.owner == t)
  countOf (s.slice t).td e + (on.map (fun c => countOf c.2.counts e - Tbl.get c.2.gated 0 e)).foldr (· + ·) 0

/-- Event number, EN, and the status of a selection: UNAVAILABLE, DENIED (R239). -/
def Pmc.event (p : Pmc) : Nat := p.evsel.toNat % 256
def Pmc.on (p : Pmc) : Bool := p.evsel.getLsbD 31
def Slice.pmc_ (x : Slice) (k : Nat) : Pmc := Tbl.get x.pmc {} k
def Pmc.absent (p : Pmc) : Bool := !evPresent p.event
def Slice.denied (x : Slice) (p : Pmc) : Bool := !x.allows p.event

/-- The counter counts. -/
def Slice.counting (x : Slice) (p : Pmc) : Bool := p.on && !p.absent && !x.denied p

/-- What a counter has counted, its status apart. -/
def State.pmcHeld (s : State) (t : Nat) (p : Pmc) : Nat :=
  p.held + (if (s.slice t).counting p then s.eventTotal t p.event - p.mark else 0)

/-- CNT of PMC.k: 0 while UNAVAILABLE or DENIED (R239). -/
def State.pmcValue (s : State) (t k : Nat) : Nat :=
  let p := (s.slice t).pmc_ k
  if p.absent || (s.slice t).denied p then 0 else s.pmcHeld t p

/-- EVDENY records the first attempt until V is cleared (R240).  -/
def State.evDeny (s : State) (t e : Nat) : State :=
  s.modM (fun m => if m.evdeny.getLsbD 31 then m else { m with evdeny := BitVec.ofNat 32 (2 ^ 31 + t * 65536 + e) })

/-- A write of EVSEL (R240). -/
def State.writeEvsel (s : State) (t k : Nat) (v : Word) : State :=
  let x := s.slice t
  let e := v.toNat % 256
  let q : Pmc := { evsel := BitVec.ofNat 32 (b2n (v.getLsbD 31) * 2 ^ 31 + e) }
  if x.denied q && (Tbl.get x.mode 0 (e / 32)).getLsbD (e % 32) then s.evDeny t e
  else s.modSlice t (fun x => { x with pmc := Tbl.put x.pmc k { q with held := s.pmcHeld t (x.pmc_ k), mark := s.eventTotal t e } })

/-- EVSEL_WRITE (R240). -/
def execEvselWrite (slice k : Nat) (v : Word) (s : State) : Host.Outcome State Fault Refusal := .next (s.bar0 (s.writeEvsel slice k v))

/-- A write of ALLOW.w or MODE.w, applied at once to every counter in force (R240). -/
def State.writeAllow (s : State) (t : Nat) (mode : Bool) (w : Nat) (v : Word) : State :=
  s.modSlice t (fun x =>
    if mode then { x with mode := Tbl.set x.mode 0 w v }
    else
      { x with
        allow := Tbl.set x.allow 0xFFFFFFFF w v,
        pmc := x.pmc.map (fun (p : Nat × Pmc) => (p.1, { p.2 with held := s.pmcHeld t p.2, mark := s.eventTotal t p.2.event })) })

/-- ALLOW_WRITE (R240). -/
def execAllowWrite (slice : Nat) (mode : Bool) (w : Nat) (v : Word) (s : State) : Host.Outcome State Fault Refusal :=
  .next (s.bar0 (s.writeAllow slice mode w v))

/-! ## The profile of a ream (R242) -/

/-- The events whose totals the slice keeps: leaves, event 24, and those counted one by one. -/
def keptEvents : List Nat := [2, 3, 4, 6, 7, 8, 9, 11, 12, 13, 14, 15, 17, 18, 20, 24]

/-- What a slice with an open session carries. -/
def State.profile (s : State) (t : Nat) : Option Profile :=
  let x := s.slice t
  if !s.dbgEn t then none
  else some
    { ctl := x.dbg.ctl, bpt := x.dbg.bpt,
      pmc := x.pmc.map (fun (p : Nat × Pmc) => (p.1, { p.2 with held := s.pmcHeld t p.2, mark := 0 })),
      totals := keptEvents.map (fun e => (e, s.eventTotal t e)) }

/-- The session goes on in a slice: its totals continue, and every counter counts on, or is denied (R242). -/
def State.loadProfile (s : State) (t : Nat) (f : Profile) : State :=
  let s1 := s.modSlice t (fun x =>
    { x with
      dbg := { x.dbg with ctl := f.ctl, bpt := f.bpt },
      td := f.totals.foldl (fun l e => Tbl.put l e.1 (e.2 - (s.eventTotal t e.1 - Tbl.get x.td 0 e.1))) x.td })
  let s2 := s1.modSlice t (fun x =>
    { x with pmc := f.pmc.map (fun (p : Nat × Pmc) => (p.1, { p.2 with mark := s1.eventTotal t p.2.event })) })
  let x := s2.slice t
  f.pmc.foldl (fun s (p : Nat × Pmc) =>
    if x.denied p.2 && (Tbl.get x.mode 0 (p.2.event / 32)).getLsbD (p.2.event % 32) then s.evDeny t p.2.event else s) s2

/-- The records of section PROFILE (log 25). -/
def Profile.records (f : Profile) : List (List Byte) :=
  [ leBytes 4 f.ctl.toNat ++ f.bpt.flatMap (fun b => leBytes 4 b.1 ++ leBytes 4 b.2.toNat),
    f.pmc.flatMap (fun p => leBytes 4 p.1 ++ leBytes 4 p.2.evsel.toNat ++ leBytes 8 p.2.held),
    f.totals.flatMap (fun e => leBytes 8 e.1 ++ leBytes 8 e.2) ]

end Sys2Proof.Machine
end

