-- ==== Sys2Proof/Machine/Migration.lean ====
section
/-! DEFINITION. Migration (R147 to R156, R403 to R405): the re-deal, RESUME, EXPORT, IMPORT, RESHAPE, MERGE and SPLIT. -/

/-- What the plain bytes of a ream that another module has sealed hold: R152 gives its records no byte layout, so nothing of them
can be read but by this name; none for bytes that are no ream (log 24). -/
opaque Sys2Proof.Config.reamHolds : List Sys2Proof.Byte → Option Sys2Proof.Machine.Snapshot

namespace Sys2Proof.Machine

/-- RES of MIGSTS. -/
def State.migEnd_ (s : State) (t res : Nat) : State := s.modSlice t (fun x => { x with migRes := res })

/-! ## The re-deal (R153) -/

/-- A slice's workgroups with their cores, and its waiting workgroups. -/
def State.wgsOf (s : State) (t : Nat) : List (Nat × WgRes) :=
  s.cores.flatMap (fun e => (e.2.wgs.filter (fun w => w.slice == t)).map (fun w => (e.1, w)))
def State.waitingOf (s : State) (t : Nat) : List Waiting := s.cores.flatMap (fun e => e.2.waiting.filter (fun w => w.slice == t))

/-- The place of a gathered group of logical die ld: the eligible core of the same numbers, else one of that die, else any. -/
def gatherPlace (l : Launch) (nums : Nat × Nat × Nat) : Nat :=
  match l.cores.find? (fun c => c.2 == nums) with
  | some c => c.1
  | none =>
    match l.cores.find? (fun c => c.2.1 == nums.1) with
    | some c => c.1
    | none => (l.cores.map (·.1)).headD 0

/-- Put a saved workgroup on the core that the deal gives it; its groups take that core's logical numbers. -/
def State.placeWg (s : State) (t : Nat) (w : WgRes) : State :=
  let l := Tbl.get (s.slice t).launches {} w.launch
  let c := if w.gathered then
      (match w.gids.findSome? (fun g => Tbl.find s.groups g) with
       | some g => gatherPlace l (g.lDie, g.lCl, g.lCore)
       | none => gatherPlace l (0, 0, 0))
    else (l.coreOf w.lin).getD ((l.cores.map (·.1)).headD 0)
  let n := l.numbers c
  let s1 := s.modCore c (fun x => { x with wgs := x.wgs ++ [w] })
  { s1 with groups := s1.groups.map (fun (e : Nat × Group) =>
      if w.gids.contains e.1 then
        (e.1, { e.2 with
          core := c, lDie := n.1, lCl := n.2.1, lCore := n.2.2, evictor := none,
          log := e.2.log.map (fun f => { f with img := moveImage f (e.2.lDie, e.2.lCl, e.2.lCore) n w.base w.size w.base }) })
      else e) }

/-- Put a waiting workgroup on the core that the deal gives it. -/
def State.placeWaiting (s : State) (t : Nat) (w : Waiting) : State :=
  match (Tbl.get (s.slice t).launches {} w.launch).coreOf w.lin with
  | some c => s.modCore c (fun x => { x with waiting := x.waiting ++ [{ w with passedAt := 0 }] })
  | none => s

/-- The engine that takes a copy of a logical die and engine: the one so named, else the first of the slice. -/
def State.newEngine (s : State) (t ld e : Nat) : Nat × Nat :=
  match s.physDie t ld with
  | some d => if s.ceNamed t d e then (d, e) else any
  | none => any
where
  /-- The first engine that CEMASK names. -/
  any : Nat × Nat :=
    let k := ((List.range 32).find? (fun k => (s.slice t).cemask.getLsbD k)).getD 0
    (k / 8, k % 8)

/-- A slice's copies with their dies and engines, its collectives and bins with their dies. -/
def State.copiesOf (s : State) (t : Nat) : List (Nat × Nat × CopyJob) :=
  s.dies.flatMap (fun d => d.2.engines.flatMap (fun e => (e.2.jobs.filter (fun j => j.slice == t)).map (fun j => (d.1, e.1, j))))
def State.collsOf (s : State) (t : Nat) : List (Nat × CollJob) :=
  s.dies.flatMap (fun d => (d.2.colls.filter (fun j => j.slice == t)).map (fun j => (d.1, j)))
def State.binsOf (s : State) (t : Nat) : List (Nat × Bin) :=
  s.dies.flatMap (fun d => (d.2.couch.filter (fun b => b.2.slice == t)).map (fun b => (d.1, b.2)))

/-- The dies without a slice's copies, collectives and bins. -/
def State.clearDies (s : State) (t : Nat) : State :=
  { s with dies := s.dies.map (fun (d : Nat × Die) => (d.1,
    { d.2 with engines := d.2.engines.map (fun (e : Nat × Engine) => (e.1, { e.2 with jobs := e.2.jobs.filter (fun j => j.slice != t) })),
               colls := d.2.colls.filter (fun j => j.slice != t), couch := d.2.couch.filter (fun b => b.2.slice != t) })) }

/-- A copy goes on in an engine, a collective in a die's, a bin in a die's couch. -/
def State.putCopy (s : State) (t : Nat) (p : Nat × Nat) (j : CopyJob) : State :=
  s.modEngine p.1 p.2 (fun x => { x with jobs := x.jobs ++ [{ j with lDie := s.logDie t p.1 }] })
def State.putColl (s : State) (t d : Nat) (j : CollJob) : State :=
  s.modDie d (fun x => { x with colls := x.colls ++ [{ j with lDie := s.logDie t d }] })
def State.putBin (s : State) (t d : Nat) (b : Bin) : State :=
  let k := ((s.sliceBins t d).find? (fun k => (Tbl.find (s.die d).couch k).isNone)).getD (64 + (s.die d).couch.length)
  s.modDie d (fun x => { x with couch := Tbl.put x.couch k { b with slice := t, since := x.cyc } })

/-- Where work that stood on a die goes when the slice's deckle changes: there still, when the slice holds the die, else to the
die that has its logical number now, else to the first. -/
def State.dieNow (s : State) (t : Nat) (old : List Nat) (d : Nat) : Nat :=
  let ds := (s.slice t).dies
  if ds.contains d then d else (s.physDie t (old.idxOf d)).getD (ds.headD 0)

/-- Move the copies, collectives, bins, gathered groups and accepted packets of a slice to the dies and engines that it holds
now. -/
def State.moveEngines (s : State) (t : Nat) (old : List Nat) : State :=
  let s1 := s.clearDies t
  let s2 := (s.copiesOf t).foldl (fun (s : State) (c : Nat × Nat × CopyJob) =>
    s.putCopy t (if s.ceNamed t c.1 c.2.1 then (c.1, c.2.1) else s.newEngine t (old.idxOf c.1) c.2.1) c.2.2) s1
  let s3 := (s.collsOf t).foldl (fun (s : State) (c : Nat × CollJob) => s.putColl t (s.dieNow t old c.1) c.2) s2
  let s4 := (s.binsOf t).foldl (fun (s : State) (b : Nat × Bin) => s.putBin t (s.dieNow t old b.1) b.2) s3
  s4.modSlice t (fun x =>
    { x with
      launches := x.launches.map (fun (l : Nat × Launch) =>
        (l.1, { l.2 with gathered := l.2.gathered.map (fun g => { g with die := s4.dieNow t old g.die }) })),
      pending := x.pending.map (fun (q : Nat × List Pkt) =>
        (q.1, q.2.map (fun p => { p with die := (s4.queueDie t p.eng).getD (x.dies.headD 0) }))) })

/-- Re-deal every launch of a slice over its cores as they are now (R115, R153). -/
def State.redeal (s : State) (t : Nat) (wgs : List WgRes) (waiting : List Waiting) (old : List Nat) : State :=
  let s1 := s.modSlice t (fun x => { x with launches := x.launches.map (fun (l : Nat × Launch) =>
    (l.1, { l.2 with cores := (s.sliceCores t).take l.2.maxcores, skip := l.2.retiredSet })) })
  let s2 := wgs.foldl (fun s w => s.placeWg t w) s1
  let s3 := waiting.foldl (fun s w => s.placeWaiting t w) s2
  s3.moveEngines t old

/-- Take a slice's workgroups off the cores' lists. -/
def State.strip (s : State) (t : Nat) : State :=
  { s with cores := s.cores.map (fun (e : Nat × Core) =>
      (e.1, { e.2 with wgs := e.2.wgs.filter (fun w => w.slice != t), waiting := e.2.waiting.filter (fun w => w.slice != t) })) }

/-- Make the clusters of a slice those of its deckle: cores that leave and cores that come are scrubbed, failed ones are
fused out, and the work is dealt afresh (R114, R154, R160). -/
def State.recast (s : State) (t : Nat) (old : List Nat) : State :=
  let wgs := (s.wgsOf t).map (·.2)
  let waiting := s.waitingOf t
  let before := (s.slice t).coreList
  let s1 := (s.strip t).modSlice t (fun x => { x with clusters := x.clusterList })
  let after := (s1.slice t).coreList
  let s2 := (before.filter (fun c => !after.contains c && (s1.core c).owner == t)).foldl (fun s c => s.scrubCore c 31) (s1.fuseFailed (before ++ after))
  let s3 := after.foldl (fun s c => if (s.core c).owner = t then s else s.scrubCore c t) s2
  (s3.setEfloor t).redeal t wgs waiting old

/-! ## RESUME (R148) -/

/-- The slice goes on: its saved groups wait for restoration, but for those that a debugger holds (R148, R232). -/
def State.goActive (s : State) (t : Nat) : State :=
  let s1 := s.modSlice t (fun x => { x with quiesced := false, engStop := false, wasDies := none, stale := false })
  { s1 with groups := s1.groups.map (fun (e : Nat × Group) => (e.1,
      if e.2.slice == t && e.2.place == .saved && !e.2.dbgHeld then { e.2 with wants := true } else e.2)) }

/-- The slice's dies as its work was dealt over them. -/
def Slice.oldDies (x : Slice) : List Nat := x.wasDies.getD x.dies

/-- The checks of R59 on a deckle changed in QUIESCED, with the code in DCTL.ERR; when they pass, the slice takes its new cores
(R154). The logical dies are those that R13 gives the deckle as it was. -/
def State.reDeckle (s : State) (t : Nat) : Except State State :=
  let e := s.activateErr t
  if e ≠ 0 then .error ((s.modSlice t (fun x => { x with err := e })).migEnd_ t 3)
  else .ok ((s.recast t (s.slice t).oldDies).modSlice t (fun x => { x with err := 0, wasDies := none }))

/-- RESUME: a slice whose deckle has changed and was not reshaped is dealt afresh first, under the checks of R59 (R148; log 24). -/
def State.resume (s : State) (t : Nat) : State :=
  let x := s.slice t
  if x.migBusy then s.migEnd_ t 7
  else if x.st != .active || !x.quiesced || x.killing || x.exportKey.isSome then s.migEnd_ t 1
  else if x.wasDies.isNone then (s.goActive t).migEnd_ t 0
  else
    match s.reDeckle t with
    | .error s1 => s1
    | .ok s1 => (s1.goActive t).migEnd_ t 0

/-- MIG_RESUME (R148). -/
def execMigResume (slice : Nat) (s : State) : Host.Outcome State Fault Refusal := .next (s.bar0 (s.resume slice))

/-! ## RESHAPE (R154) -/

/-- RESHAPE: the checks of R59 on the changed deckle, then the new cores. -/
def State.reshape_ (s : State) (t : Nat) : State :=
  let x := s.slice t
  if x.migBusy then s.migEnd_ t 7
  else if x.st != .active || !x.quiesced || x.killing then s.migEnd_ t 1
  else
    match s.reDeckle t with
    | .error s1 => s1
    | .ok s1 => s1.migEnd_ t 0

/-- RESHAPE (R154). -/
def execReshape (slice : Nat) (s : State) : Host.Outcome State Fault Refusal := .next (s.bar0 (s.reshape_ slice))

/-! ## EXPORT (R149, R151, R152) -/

/-- A record of a ream, made a multiple of 64 bytes long. -/
def reamRec (l : List Byte) : List Byte := padTo ((l.length + 63) / 64 * 64) l

/-- Offset of a workgroup's scratchpad image within section SPAD. -/
def Snapshot.imageOff (n : Snapshot) (wg : Nat) : Nat :=
  ((n.images.takeWhile (fun i => i.1 != wg)).map (fun i => (reamRec i.2).length)).foldr (· + ·) 0

/-- A set of linear indices below n as a bitmap. -/
def bitmap (n : Nat) (l : List Nat) : List Byte :=
  leBytes ((n + 7) / 8) (l.eraseDups.map (fun k => if k < n then 2 ^ k else 0)).sum

/-- The words of records. -/
def wordBytes (rs : List (List Word)) : List Byte := rs.flatMap (fun r => r.flatMap (fun w => leBytes 4 w.toNat))

/-- The QTAB entries that a ream lists: those that are enabled or stopped, or have accepted packets. -/
def Snapshot.usedQueues (n : Snapshot) : List Nat :=
  ((n.queues.filter (fun q => q.2.en || q.2.stopped)).map (·.1) ++ (n.pending.filter (fun p => !p.2.isEmpty)).map (·.1)).eraseDups

/-- The sections of a ream that have records: TYPE and records (R152), one of QUEUE for each QTAB entry, one of WMARK for each
context's window, PROFILE only for an open session (R242). The layout of the records that R152 lists by their contents only is the
model's own (log 25). -/
def Snapshot.sections (n : Snapshot) : List (Nat × List (List Byte)) :=
  List.filter (fun e => !e.2.isEmpty) <|
  let b2 := leBytes 2
  let b4 := leBytes 4
  let b8 := leBytes 8
  let yields (c : Nat) : List Launch := (n.launches.filter (fun l => l.2.ctx == c && l.2.yielded)).map (·.2)
  let spad (l : Nat) : Nat := field (Tbl.get n.launches {} l).desc 0x20 4
  [ (1, n.ctxs.map (fun c => b2 c.1 ++ b8 c.2.rcb.toNat ++ b4 (b2n !(yields c.1).isEmpty) ++
      b8 (((yields c.1).map (·.yieldTick)).foldr max 0) ++ c.2.usage.flatMap (fun u => b8 u.1 ++ b8 u.2))),
    (2, n.launches.map (fun l => l.2.pkt ++ b2 l.2.ctx ++ b2 l.2.prio ++ b2 l.2.domain ++ b2 l.2.maxcores ++ b8 l.2.tokshare ++
      b8 (Tbl.get n.quotas 0 l.1) ++ bitmap l.2.total l.2.retiredSet)),
    (3, n.wgs.map (fun w => b4 w.2.launch ++ b4 w.2.lin ++ b4 (if w.2.whole then 2 else 1) ++ b8 w.2.age ++
        b8 (n.imageOff w.2.wg) ++ b4 w.2.size) ++
      n.waiting.map (fun w => b4 w.launch ++ b4 w.lin ++ b4 0 ++ b8 0 ++ b8 0 ++ b4 (spad w.launch))),
    (4, n.groups.map (fun g => frameBytes g.2 g.2.why)),
    (5, n.images.map (fun i => i.2)),
    (6, n.usedQueues.map (fun k =>
      let q := Tbl.get n.queues {} k
      b4 k ++ b8 q.qcb.toNat ++ b4 (b2n q.en) ++ b4 (b2n q.stopped) ++ b4 q.qerr ++ b4 q.prio ++ b4 q.eng ++
        (Tbl.get n.pending [] k).flatMap (fun p => b8 p.pos ++ b4 (b2n p.started) ++ p.bytes) ++
        (n.copies.filter (fun c => c.2.2.queue == some k)).flatMap (fun c => b8 c.2.2.pkt ++ b8 c.2.2.landed) ++
        (n.colls.filter (fun c => c.2.queue == some k)).flatMap (fun c => b8 c.2.pkt ++ b8 c.2.tiles.length))),
    (7, n.couch.map (fun b => b4 b.1 ++ b4 b.2.launch ++ b8 b.2.entry.toNat ++ wordBytes b.2.records)),
    (8, (n.windows.map (fun w => w.2.2.1 / 1048576)).eraseDups.map (fun c =>
      b4 c ++ (n.windows.filter (fun w => w.2.2.1 / 1048576 == c)).flatMap (fun w => b4 w.2.2.1 ++ b4 w.2.2.2.1 ++ b8 w.2.2.2.2))),
    (9, n.launches.flatMap (fun l => l.2.gathered.map (fun g => b4 l.1 ++ b4 g.die ++ b4 g.slot ++ b8 g.entry.toNat ++ wordBytes g.records))),
    (10, n.wgs.map (fun w =>
      let g := (w.2.gids.findSome? (fun k => Tbl.find n.groups k)).getD {}
      b4 w.2.launch ++ b4 w.2.lin ++ b2 g.lDie ++ b2 g.lCl ++ b2 g.lCore ++ b4 w.2.base)) ] ++
  (match n.prof with
   | some f => [(11, f.records ++ (n.groups.filter (fun g => g.2.dbgHeld)).map (fun g => b4 g.2.ctx ++ b4 g.2.lin ++ b4 g.2.num))]
   | none => [])

/-- Directory entries of the sections: TYPE, COUNT, OFFSET. -/
def reamDir : List (Nat × List (List Byte)) → Nat → List Byte
  | [], _ => []
  | (ty, rs) :: r, at_ =>
    leBytes 4 ty ++ leBytes 4 rs.length ++ leBytes 8 at_ ++ reamDir r (at_ + (rs.map (fun x => (reamRec x).length)).foldr (· + ·) 0)

/-- The plain contents of a ream from offset 0x40: the directory and the records (R151). -/
def Snapshot.plain (n : Snapshot) : List Byte :=
  let dir := (16 * n.sections.length + 63) / 64 * 64
  padTo dir (reamDir n.sections (0x40 + dir)) ++ n.sections.flatMap (fun e => e.2.flatMap reamRec)

/-- LENGTH of a ream: the header and the tag included. -/
def Ream.length (r : Ream) : Nat := 0x40 + r.plain.length + 16

/-- The header of a ream, in clear (R151). -/
def Ream.header (r : Ream) : List Byte :=
  leBytes 4 0x4D414552 ++ leBytes 4 1 ++ leBytes 8 r.length ++ leBytes 16 (Config.drawnIv r.iv).toNat ++
    leBytes 4 r.snap.sections.length ++ zeros 28

/-- Its sections as AES-256-GCM seals them (R149). -/
def Ream.sealed (r : Ream) : List Byte :=
  ((List.range r.plain.length).zip r.plain).map (fun e => Config.sealedByte (Config.drawnKey r.key) (Config.drawnIv r.iv) e.2 e.1)

/-- The bytes of a sealed ream: the header, authenticated in clear, the sealed sections, and the tag over both (R149, R151). -/
def Ream.bytes (r : Ream) : List Byte :=
  r.header ++ r.sealed ++ leBytes 16 (Config.sealTag (Config.drawnKey r.key) (Config.drawnIv r.iv) r.header r.sealed).toNat

/-- What a quiesced slice holds (R152). -/
def State.snapshot (s : State) (t : Nat) : Snapshot :=
  let x := s.slice t
  let d := x.dies.headD 0
  let wgs := s.wgsOf t
  let ld (d : Nat) : Nat := x.oldDies.idxOf d
  { slice := t, ctxs := x.ctxs,
    launches := x.launches.map (fun l => (l.1, { l.2 with gathered := l.2.gathered.map (fun g => { g with die := ld g.die }) })),
    groups := s.groups.filter (fun e => e.2.slice == t), wgs := wgs, waiting := s.waitingOf t,
    images := wgs.filterMap (fun cw => cw.2.image.map (fun k =>
      let l := Tbl.get x.launches {} cw.2.launch
      (cw.2.wg, match s.engineRead t d (imageAddr l.desc k) (isize l.desc) with | .ok i => i | .error _ => []))),
    queues := x.queues, pending := x.pending,
    quotas := x.launches.filterMap (fun l => (l.2.holders.findSome? (s.quota t)).map (fun q => (l.1, q))),
    copies := (s.copiesOf t).map (fun c => (ld c.1, c.2)), colls := (s.collsOf t).map (fun c => (ld c.1, c.2)),
    couch := (s.binsOf t).map (fun b => (ld b.1, b.2)),
    windows := s.m.windows.filter (fun w => w.1 == ownModule && w.2.1 == t), nextLaunch := x.nextLaunch, nextPkt := x.nextPkt,
    prof := s.profile t }

/-- The PF's frames from an address upward can hold n bytes (R149). -/
def State.pfRoom (s : State) (a n : Nat) : Bool :=
  decide (a + n ≤ 0x7FFF800000) && (List.range ((n + 65535) / 65536)).all (fun k => s.owner (a / 65536 + k) == 16)

/-- EXPORT. -/
def State.export_ (s : State) (t : Nat) : State :=
  let x := s.slice t
  if x.migBusy then s.migEnd_ t 7
  else if x.st != .active || !x.quiesced || x.killing then s.migEnd_ t 1
  else
    let snap := s.snapshot t
    let r : Ream := { key := s.m.keys, iv := s.m.ivs, plain := snap.plain, snap := snap }
    let a := x.migAddr.toNat
    if !s.pfRoom a r.length then s.migEnd_ t 5
    else
      (((s.setMem a r.bytes).modM (fun m =>
        { m with keys := m.keys + 1, ivs := m.ivs + 1, reams := m.reams ++ [r] })).modSlice t (fun x =>
        { x with exportKey := some (Config.drawnKey r.key).toNat, exportLen := r.length, stale := false,
                 migSize := (r.length + 65535) / 65536 })).migEnd_ t 0

/-- EXPORT (R149). -/
def execExportReam (slice : Nat) (s : State) : Host.Outcome State Fault Refusal := .next (s.bar0 (s.export_ slice))

/-! ## Renumbering (R153, R155, R156, R404) -/

/-- The context field of a watermark takes a new number. -/
def newMark (f : Nat → Nat) (t : Nat) (w : Word) : Word :=
  BitVec.ofNat 32 (f (t * 256 + w.toNat / 1048576 % 256) % 4096 * 1048576 + w.toNat % 1048576)

/-- A group of slice u moves to slice t: its context, launch and watermarks are renumbered. -/
def movedGroup (u t : Nat) (f : Nat → Nat) (off : Nat) (g : Group) : Group :=
  { g with slice := t, ctx := f g.ctx, launch := g.launch + off,
           log := g.log.map (fun e => if e.cls = 1 then { e with wmark := newMark f u e.wmark } else e) }

/-- A watermark window entry of slice u moves to slice t. -/
def movedWindow (u t : Nat) (f : Nat → Nat) (w : Nat × Nat × Nat × Nat × Nat) : Nat × Nat × Nat × Nat × Nat :=
  (w.1, t, (newMark f u (BitVec.ofNat 32 w.2.2.1)).toNat, w.2.2.2.1, w.2.2.2.2)

/-! ## IMPORT (R153) -/

/-- What the plain bytes of a ream hold: those that this module has sealed, or another one's (log 24). -/
def State.reamPlain (s : State) (plain : List Byte) : Option Snapshot :=
  match s.m.reams.find? (fun r => r.plain == plain) with
  | some r => some r.snap
  | none => Config.reamHolds plain

/-- The ream at an address, opened with a key, and its LENGTH: MAGIC, VERSION and the tag are right (R149, R151, R153). A ream of
this module, unchanged and under its own key, opens to what was sealed. The spec has EXPORT write frames of the PF and does not say what
IMPORT and SPLIT do at MIGADDR with frames of another owner: the model reads them whatever their owner (DESIGN CHOICE, log 77). -/
def State.reamAt (s : State) (a : Nat) (key : Nat) : Option (Snapshot × Nat) :=
  match s.m.reams.find? (fun r => key == (Config.drawnKey r.key).toNat && s.memBytes a r.length == r.bytes) with
  | some r => some (r.snap, r.length)
  | none =>
    let h := s.memBytes a 64
    let len := field h 8 8
    let k := BitVec.ofNat 256 key
    let iv := BitVec.ofNat 128 (field h 16 16)
    let body := s.memBytes (a + 64) (len - 80)
    if field h 0 4 ≠ 0x4D414552 || field h 4 4 ≠ 1 || len < 80 || 0x8000000000 < len then none
    else if s.memBytes (a + len - 16) 16 != leBytes 16 (Config.sealTag k iv h body).toNat then none
    else (s.reamPlain (((List.range body.length).zip body).map (fun e => Config.openedByte k iv e.2 e.1))).map (fun n => (n, len))

/-- The workgroups of a ream fit an empty core (R118). -/
def Snapshot.fits (n : Snapshot) : Bool := n.launches.all (fun l => descOk l.2.desc)

/-- Discard what a slice holds without effect on memory: a ream takes its place (R153). -/
def State.discardHeld (s : State) (t : Nat) : State :=
  let s1 := (s.strip t).clearDies t
  let mine (g : Nat) : Bool := s1.groups.any (fun e => e.1 == g && e.2.slice == t)
  ({ s1 with
     groups := s1.groups.filter (fun e => e.2.slice != t),
     dies := s1.dies.map (fun (d : Nat × Die) => (d.1, { d.2 with unpub := d.2.unpub.filter (fun u => !mine u.2.by_) })) } : State).modM (fun m =>
    { m with windows := m.windows.filter (fun w => !(w.1 == ownModule && w.2.1 == t)) }) |>.modSlice t (fun x =>
    { x with launches := [], ctxs := [], pending := [], tokens := [] })

/-- A saved copy or collective under fresh numbers (R153). -/
def CopyJob.loaded (j : CopyJob) (t j0 g0 w0 : Nat) (f : Nat → Nat) : CopyJob :=
  { j with id := j0 + j.id, slice := t, ctx := f j.ctx, gid := j.gid.map (fun g => (g0 + g.1, g.2)),
           arrWg := j.arrWg.map (fun a => (w0 + a.1, a.2)) }
def CollJob.loaded (j : CollJob) (t j0 g0 w0 : Nat) (f : Nat → Nat) : CollJob :=
  { j with id := j0 + j.id, slice := t, ctx := f j.ctx, gid := j.gid.map (fun g => (g0 + g.1, g.2)),
           arrWg := j.arrWg.map (fun a => (w0 + a.1, a.2)) }

/-- Put the contents of a snapshot into a slice, under fresh group, workgroup and job numbers (R153). -/
def State.load (s : State) (t : Nat) (n : Snapshot) : State :=
  let f (c : Nat) : Nat := t * 256 + c % 256
  let g0 := s.nextGid
  let w0 := s.nextWg
  let j0 := s.nextJob
  let maxOf (l : List Nat) : Nat := l.foldr max 0 + 1
  let s1 : State :=
  { s with
    nextGid := g0 + maxOf (n.groups.map (·.1)), nextWg := w0 + maxOf (n.wgs.map (·.2.wg)),
    nextJob := j0 + maxOf (n.copies.map (·.2.2.id) ++ n.colls.map (·.2.id)),
    groups := n.groups.foldl (fun gs (e : Nat × Group) => Tbl.put gs (g0 + e.1)
      { movedGroup n.slice t f 0 e.2 with wg := w0 + e.2.wg, token := none }) s.groups }
  let s2 := s1.modM (fun m => { m with windows := n.windows.map (movedWindow n.slice t f) ++ m.windows })
  let head := (s2.slice t).dies.headD 0
  let die (l : Nat) : Nat := (s2.physDie t l).getD head
  let s3 := s2.modSlice t (fun x =>
    { x with ctxs := n.ctxs.map (fun (c : Nat × Ctx) => (f c.1, { c.2 with num := f c.1 })), nextLaunch := n.nextLaunch,
             nextPkt := n.nextPkt, queues := n.queues, pending := n.pending,
             launches := n.launches.map (fun (l : Nat × Launch) =>
               (l.1, { l.2 with ctx := f l.2.ctx, gathered := l.2.gathered.map (fun g => { g with die := die g.die }) })) })
  let s4 := n.copies.foldl (fun (s : State) (c : Nat × Nat × CopyJob) =>
    s.putCopy t (s.newEngine t c.1 c.2.1) (c.2.2.loaded t j0 g0 w0 f)) s3
  let s5 := n.colls.foldl (fun (s : State) (c : Nat × CollJob) => s.putColl t (die c.1) (c.2.loaded t j0 g0 w0 f)) s4
  let s6 := n.couch.foldl (fun (s : State) (b : Nat × Bin) => s.putBin t (die b.1) b.2) s5
  let wgs := n.wgs.map (fun (w : Nat × WgRes) => { w.2 with slice := t, wg := w0 + w.2.wg, gids := w.2.gids.map (g0 + ·) })
  let s7 := n.images.foldl (fun s (i : Nat × List Byte) =>
    match n.wgs.find? (fun w => w.2.wg == i.1) with
    | some w => (match w.2.image with
      | some k => (s.engineWrite t head (imageAddr (Tbl.get (s.slice t).launches {} w.2.launch).desc k) i.2).getD s
      | none => s)
    | none => s) s6
  let frames := s7.groups.filter (fun e => e.2.slice == t)
  let s8 := frames.foldl (fun s (e : Nat × Group) =>
    match e.2.frame with
    | some k => (s.engineWrite t head (frameAddr (s.launchOf e.2) e.2.regs k) (frameBytes e.2 e.2.why)).getD s
    | none => s) s7
  s8.redeal t wgs (n.waiting.map (fun (w : Waiting) => { w with slice := t })) (s8.slice t).dies

/-- IMPORT: in CONFIG, ACTIVATE under way or not (R59), or QUIESCED after the slice's own EXPORT. The spec does not say which RES a deckle
that fails R59 gives: it is NO_FIT, with DCTL.ERR, after BAD_REAM (DESIGN CHOICE, log 77). -/
def State.import_ (s : State) (t : Nat) : State :=
  let x := s.slice t
  let own := x.st == .active && x.quiesced && x.exportKey.isSome && !x.stale
  if x.migBusy then s.migEnd_ t 7
  else if !(x.st == .config || x.st == .activating || own) || x.killing || x.importKey.isNone then s.migEnd_ t 1
  else
    match s.reamAt x.migAddr.toNat (x.importKey.getD 0) with
    | none => s.migEnd_ t 2
    | some (n, len) =>
      let e := s.activateErr t
      if e ≠ 0 then (s.modSlice t (fun x => { x with err := e })).migEnd_ t 3
      else if !n.fits then s.migEnd_ t 3
      else
        let s1 := if own then s.discardHeld t else s
        let s2 := (s1.modSlice t (fun x => { x with st := .active, err := 0, quiesced := true })).recast t []
        let s2a := s2.load t n
        let s3 := (match n.prof with | some f => s2a.loadProfile t f | none => s2a).modSlice t (fun x =>
          { x with exportKey := none, exportLen := 0, importKey := none, migSize := (len + 65535) / 65536 })
        (s3.goActive t).migEnd_ t 0

/-- IMPORT (R153). -/
def execImportReam (slice : Nat) (s : State) : Host.Outcome State Fault Refusal := .next (s.bar0 (s.import_ slice))

/-! ## MERGE (R155, R404) -/

/-- The locked VF of a slice has consented to an operation with another slice. -/
def State.consents (s : State) (t u : Nat) : Bool :=
  let x := s.slice t
  !(x.tdi == .configLocked || x.tdi == .run) || (x.mergeOk.getLsbD 31 && x.mergeOk.toNat % 32 == u)

/-- The deckle of two slices together (R155 step 1). -/
def mergedDeckle (x y : Slice) : Slice :=
  let orT {n : Nat} (a b : Tbl (BitVec n)) : Tbl (BitVec n) :=
    (List.range 4).foldl (fun t d => Tbl.set t 0 d (Tbl.get a 0 d ||| Tbl.get b 0 d)) []
  let band (f : Nat → Nat) (dflt : Nat) : Tbl Nat := (List.range 8).foldl (fun t k => Tbl.set t dflt k (f k)) []
  { x with
    cld := orT x.cld y.cld, ways := orT x.ways y.ways, chlo := orT x.chlo y.chlo, chhi := orT x.chhi y.chhi,
    cemask := x.cemask ||| y.cemask,
    floor := band (fun k => Tbl.get x.floor 0 k + Tbl.get y.floor 0 k) 0,
    ceil := band (fun k => max (Tbl.get x.ceil 255 k) (Tbl.get y.ceil 255 k)) 255,
    weight := band (fun k => min 255 (Tbl.get x.weight 16 k + Tbl.get y.weight 16 k)) 16,
    ual := min 65535 (x.ual + y.ual), eth := min 65535 (x.eth + y.eth) }

/-- Routing entry of a slice for a peer number. -/
def State.routeWord (s : State) (t p : Nat) : Word := Tbl.get s.m.routes 0 (t * 1024 + p)

/-- Two routing entries for one peer number, both valid under R41, differ (R404). -/
def State.routesClash (s : State) (t u : Nat) : Bool :=
  s.m.routes.any (fun e => e.1 / 1024 == u && (s.route u (e.1 % 1024)).isSome &&
    (s.route t (e.1 % 1024)).isSome && s.routeWord t (e.1 % 1024) != e.2)

/-- The routing tables after a merge of u into t: t's valid entries, else u's; u has none (R404). -/
def State.mergedRoutes (s : State) (t u : Nat) : Tbl Word :=
  let stays (p : Nat) : Bool := (s.route t p).isSome
  (s.m.routes.filter (fun e => e.1 / 1024 == u && !stays (e.1 % 1024))).foldl (fun r e => Tbl.put r (t * 1024 + e.1 % 1024) e.2)
    (s.m.routes.filter (fun e => e.1 / 1024 != u && (e.1 / 1024 != t || stays (e.1 % 1024))))

/-- A merge does not fit (R155). -/
def State.mergeUnfit (s : State) (t u : Nat) : Bool :=
  let x := s.slice t
  let y := s.slice u
  let on (z : Slice) : Nat := (z.queues.filter (fun q => q.2.en)).length
  let m := mergedDeckle x y
  decide (64 < on x + on y) || decide (256 < x.ctxs.length + y.ctxs.length) || s.routesClash t u ||
    (List.range 8).any (fun k =>
      decide (6 * popcount (m.channels k) < m.floorOn k) ||
      decide (192 < m.floorOn k + (((s.others t).filter (fun z => z != y)).map (·.floorOn k)).foldr (· + ·) 0))

/-- New numbers for a slice's contexts: the free ones of another slice's range in ascending order (R155 step 3). -/
def State.ctxMap (s : State) (u t : Nat) (cs : List Nat) : List (Nat × Nat) :=
  cs.zip (((List.range 256).map (t * 256 + ·)).filter (fun n => u == t || (Tbl.find (s.slice t).ctxs n).isNone))

/-- A number under a map. -/
def mapNat (m : List (Nat × Nat)) (k : Nat) : Nat := ((m.find? (fun e => e.1 == k)).map (·.2)).getD k

/-- Numbers for the queues of a slice that keep accepted work but are not enabled, beyond the entries of slice t: nothing is
accepted under them (R155; log 24). -/
def State.idleQueues (s : State) (u t : Nat) : List (Nat × Nat) :=
  let x := s.slice u
  let y := s.slice t
  let busy := x.pending.map (·.1) ++ x.launches.map (·.2.queue) ++ (s.copiesOf u).filterMap (·.2.2.queue) ++ (s.collsOf u).filterMap (·.2.queue)
  let ks := (busy.eraseDups.filter (fun k => !(x.queue k).en))
  let first := (y.pending.map (·.1) ++ y.queues.map (·.1) ++ y.launches.map (·.2.queue)).foldr max 63 + 1
  ks.zip ((List.range ks.length).map (first + ·))

/-- The accepted work of a slice's queues under other numbers. -/
def State.renumQueues (s : State) (t : Nat) (m : List (Nat × Nat)) : State :=
  let s1 := s.modSlice t (fun x =>
    { x with
      pending := m.foldl (fun ps e => Tbl.put (Tbl.del ps e.1) e.2 (Tbl.get x.pending [] e.1)) x.pending,
      launches := x.launches.map (fun (l : Nat × Launch) => (l.1, { l.2 with queue := mapNat m l.2.queue })) })
  { s1 with dies := s1.dies.map (fun (e : Nat × Die) => (e.1, { e.2 with
      engines := e.2.engines.map (fun (y : Nat × Engine) => (y.1, { y.2 with jobs := y.2.jobs.map (fun j =>
        if j.slice == t then { j with queue := j.queue.map (mapNat m) } else j) })),
      colls := e.2.colls.map (fun j => if j.slice == t then { j with queue := j.queue.map (mapNat m) } else j) })) }

/-- Move the work of some contexts of slice u, and some of its queues, to slice t (R155, R156, R404). The packets of u count on
after those of t. -/
def State.moveWork (s : State) (u t : Nat) (cm qm : List (Nat × Nat)) : State :=
  let x := s.slice u
  let off := (s.slice t).nextLaunch
  let pk := (s.slice t).nextPkt
  let f := mapNat cm
  let mine (c : Nat) : Bool := cm.any (fun e => e.1 == c)
  let ids := (x.launches.filter (fun l => mine l.2.ctx)).map (·.1)
  let gids := (s.groups.filter (fun e => e.2.slice == u && mine e.2.ctx)).map (·.1)
  let job (sl : Nat) (q : Option Nat) (g : Option (Nat × Nat)) : Bool :=
    sl == u && ((match q with | some k => qm.any (fun e => e.1 == k) | none => false) ||
      (match g with | some (k, _) => gids.contains k | none => false))
  -- The saved frames carry the new numbers (R404).
  let s0 := (s.groups.filter (fun e => gids.contains e.1)).foldl (fun s e =>
    match e.2.frame with
    | some k =>
      let g := movedGroup u t f 0 e.2
      let a := frameAddr (s.launchOf e.2) e.2.regs k
      let d := dieOf e.2.core
      let s1 := (s.engineWrite u d (a + 10) (leBytes 2 (f e.2.ctx))).getD s
      (s1.engineWrite u d (a + 0x780) (logBytes g)).getD s1
    | none => s) s
  let s1 : State := { s0 with
    groups := s0.groups.map (fun (e : Nat × Group) => (e.1, if gids.contains e.1 then movedGroup u t f off e.2 else e.2)),
    cores := s0.cores.map (fun (e : Nat × Core) => (e.1, { e.2 with
      wgs := e.2.wgs.map (fun w => if w.slice == u && ids.contains w.launch then { w with slice := t, launch := w.launch + off } else w),
      waiting := e.2.waiting.map (fun w => if w.slice == u && ids.contains w.launch then { w with slice := t, launch := w.launch + off } else w) })),
    dies := s0.dies.map (fun (e : Nat × Die) => (e.1, { e.2 with
      engines := e.2.engines.map (fun (y : Nat × Engine) => (y.1, { y.2 with jobs := y.2.jobs.map (fun j =>
        if job j.slice j.queue j.gid then { j with slice := t, queue := j.queue.map (mapNat qm), pkt := pk + j.pkt, ctx := f j.ctx } else j) })),
      colls := e.2.colls.map (fun j =>
        if job j.slice j.queue j.gid then { j with slice := t, queue := j.queue.map (mapNat qm), pkt := pk + j.pkt, ctx := f j.ctx } else j),
      couch := e.2.couch.map (fun b => if b.2.slice == u && ids.contains b.2.launch then (b.1, { b.2 with slice := t, launch := b.2.launch + off }) else b),
      seq := cm.foldl (fun q e => match Tbl.find q e.1 with | some v => Tbl.put (Tbl.del q e.1) e.2 v | none => q) e.2.seq })) }
  let s2 := s1.modM (fun m => { m with windows := m.windows.map (fun w =>
    if w.1 == ownModule && w.2.1 == u && mine (u * 256 + w.2.2.1 / 1048576 % 256) then movedWindow u t f w else w) })
  let moved := (x.launches.filter (fun l => ids.contains l.1)).map (fun l =>
    (l.1 + off, { l.2 with id := l.1 + off, ctx := f l.2.ctx, queue := mapNat qm l.2.queue, num := pk + l.2.num }))
  let s3 := s2.modSlice t (fun y =>
    { y with
      launches := moved.foldl (fun ls l => Tbl.put ls l.1 l.2) y.launches, nextLaunch := off + x.nextLaunch, nextPkt := pk + x.nextPkt,
      ctxs := (x.ctxs.filter (fun c => mine c.1)).foldl (fun cs c => Tbl.put cs (f c.1) { c.2 with num := f c.1 }) y.ctxs,
      queues := qm.foldl (fun qs e => Tbl.put qs e.2 (x.queue e.1)) y.queues,
      pending := qm.foldl (fun ps e => Tbl.put ps e.2 ((Tbl.get x.pending [] e.1).map (fun p => { p with num := pk + p.num }))) y.pending })
  s3.modSlice u (fun y =>
    { y with
      launches := y.launches.filter (fun l => !ids.contains l.1), ctxs := y.ctxs.filter (fun c => !mine c.1),
      queues := qm.foldl (fun qs e => Tbl.put qs e.1 {}) y.queues, pending := qm.foldl (fun ps e => Tbl.put ps e.1 []) y.pending })

/-- Translations of a slice leave every TLB. -/
def State.dropTlb (s : State) (t : Nat) : State :=
  { s with cores := s.cores.map (fun (e : Nat × Core) => (e.1, { e.2 with tlb := e.2.tlb.filter (fun x => x.slice != t) })),
           dies := s.dies.map (fun (e : Nat × Die) => (e.1, { e.2 with
             stlb := e.2.stlb.filter (fun x => x.slice != t), upper := e.2.upper.filter (fun x => x.slice != t) })) }

/-- MERGE of slice u into slice t. -/
def State.merge_ (s : State) (t u : Nat) : State :=
  let x := s.slice t
  let y := s.slice u
  if x.migBusy then s.migEnd_ t 7
  else if t = u || 16 ≤ u || !(x.st == .active && x.quiesced && !x.killing) || !(y.st == .active && y.quiesced && !y.killing) then
    s.migEnd_ t 1
  else if !s.consents t u || !s.consents u t then s.migEnd_ t 4
  else if s.mergeUnfit t u then s.migEnd_ t 3
  else
    let old := x.oldDies
    let cm := s.ctxMap u t (y.ctxs.map (·.1))
    let qs := (y.queues.filter (fun q => q.2.en)).map (·.1)
    -- What t has accepted on entries that are not enabled runs to its end under numbers of its own (R80).
    let s0 := s.renumQueues t ((s.idleQueues t t).filter (fun e => e.1 < 64))
    let qm := qs.zip ((List.range 64).filter (fun k => !(x.queue k).en)) ++ s0.idleQueues u t
    let frames := s.framesOf u
    let s1 := s0.moveWork u t cm qm
    let s2 := frames.foldl (fun s f => s.setOwner f t) (s1.modSlice t (fun z => mergedDeckle z y))
    let s3 := ((s2.dropTlb u).dropTlb t).modM (fun m =>
      { m with
        routes := s.mergedRoutes t u, mcjoin := m.mcjoin.filter (fun e => e.1 / 256 != u) })
    let s4 := s3.modSlice u (fun z =>
      { z with
        st := .free, key := 0, tdi := .configUnlocked, mergeOk := 0, clusters := [], quiesced := false, engStop := false,
        migRung := 0, exportKey := none, exportLen := 0, importKey := none, stale := false, wasDies := none, session := false,
        queues := [], pending := [], launches := [], ctxs := [], tokens := [] })
    ((s4.recast t old).modSlice t (fun z =>
      { z with mergeOk := 0, exportKey := none, exportLen := 0, stale := true, wasDies := none })).migEnd_ t 0

/-- MERGE (R155). -/
def execMergeSlices (slice peer : Nat) (s : State) : Host.Outcome State Fault Refusal := .next (s.bar0 (s.merge_ slice peer))

/-! ## SPLIT (R156) -/

/-- The split list at MIGADDR: queues and frames. -/
def State.splitList (s : State) (a : Nat) : List Nat × List Nat :=
  let nq := ofLe (s.memBytes a 4)
  let nf := ofLe (s.memBytes (a + 4) 4)
  let qs := (s.memBytes (a + 8) (min nq 64)).map (·.toNat)
  let fa := a + 8 + (nq + 7) / 8 * 8
  (qs, (List.range nf).map (fun i => ofLe (s.memBytes (fa + 4 * i) 4)))

/-- A deckle names only resources of another one. -/
def within (y x : Slice) : Bool :=
  let sub {n : Nat} (a b : Tbl (BitVec n)) : Bool := (List.range 4).all (fun d => Tbl.get a 0 d &&& ~~~(Tbl.get b 0 d) == 0)
  sub y.cld x.cld && sub y.ways x.ways && sub y.chlo x.chlo && sub y.chhi x.chhi && y.cemask &&& ~~~x.cemask == 0

/-- A deckle without the resources of another one. -/
def without (x y : Slice) : Slice :=
  let sub {n : Nat} (a b : Tbl (BitVec n)) : Tbl (BitVec n) :=
    (List.range 4).foldl (fun t d => Tbl.set t 0 d (Tbl.get a 0 d &&& ~~~(Tbl.get b 0 d))) []
  { x with cld := sub x.cld y.cld, ways := sub x.ways y.ways, chlo := sub x.chlo y.chlo, chhi := sub x.chhi y.chhi,
           cemask := x.cemask &&& ~~~y.cemask }

/-- A deckle holds what R54 asks of a slice. -/
def Slice.sound (x : Slice) : Bool :=
  (List.range 4).any (fun d => Tbl.get x.cld 0 d != 0) && (List.range 8).any (fun k => x.channels k != 0) && x.cemask != 0 &&
    x.dies.all (fun d => Tbl.get x.ways 0 d != 0)

/-- SPLIT of slice t into t and u, u in CONFIG, ACTIVATE under way or not (R59). The spec does not say which RES a listed frame that t
does not own gives: it is BAD_STATE (DESIGN CHOICE, log 77). -/
def State.split_ (s : State) (t u : Nat) : State :=
  let x := s.slice t
  let y := s.slice u
  let l := s.splitList x.migAddr.toNat
  let moved := (x.launches.filter (fun e => l.1.contains e.2.queue)).map (·.2.ctx) |>.eraseDups
  let mixed := x.launches.any (fun e => moved.contains e.2.ctx && !l.1.contains e.2.queue)
  if x.migBusy then s.migEnd_ t 7
  else if t = u || 16 ≤ u || !(x.st == .active && x.quiesced && !x.killing) || !(y.st == .config || y.st == .activating) || !within y x || mixed ||
      !(without x y).sound || !y.sound || (s.others u).any (fun z => z.helm == y.helm) || l.2.any (fun f => s.owner f != t) then s.migEnd_ t 1
  else if !s.consents t u then s.migEnd_ t 4
  else
    let old := x.oldDies
    let cm := s.ctxMap t u moved
    let s1 := s.moveWork t u cm (l.1.map (fun k => (k, k)))
    let s2 := l.2.foldl (fun s f => s.setOwner f u) s1
    let s3 := (s2.dropTlb t).modSlice t (fun z =>
      { without z y with exportKey := none, exportLen := 0, stale := true })
    let wgs := (s3.wgsOf u).map (·.2)
    let waiting := s3.waitingOf u
    let s4 := ((s3.strip u).recast t old).modSlice u (fun z => { z with st := .active, quiesced := true, engStop := true, err := 0 })
    ((s4.recast u []).redeal u wgs waiting old).migEnd_ t 0

/-- SPLIT (R156). -/
def execSplitSlice (slice peer : Nat) (s : State) : Host.Outcome State Fault Refusal := .next (s.bar0 (s.split_ slice peer))

end Sys2Proof.Machine
end

