-- ==== Sys2Proof/Machine/Rings.lean ====
section
/-! DEFINITION. Translation events and the record rings (R198 to R206, R230): walks, TLBINV, RBASE, RCTL and RHEAD, the
reporting port, and FAULTACK. -/

namespace Sys2Proof.Machine

/-! ## Walks and TLBINV (R199 to R201) -/

/-- PAGE_WALK: a walk for the slice that holds the core, which fills the TLBs; the access that asked for a walk that fails
takes the failure at its own step (R199, R200). -/
def execPageWalk (core : Nat) (va : DWord) (acc : Access) (s : State) : Host.Outcome State Fault Refusal :=
  let t := (s.core core).owner
  .next (match s.checkPage t core va.toNat acc with
    | .error _ => s
    | .ok _ => s.fillTlb t core va.toNat)

/-- The invalidation registers of one stage. -/
def Slice.tlbinv (x : Slice) (host : Bool) : Tlbinv := if host then x.hinv else x.inv

/-- Change them. -/
def State.modTlbinv (s : State) (t : Nat) (host : Bool) (f : Tlbinv → Tlbinv) : State :=
  s.modSlice t (fun x => if host then { x with hinv := f x.hinv } else { x with inv := f x.inv })

/-- GO starts the invalidation; one made while BUSY is ignored (R201). -/
def State.startTlbinv (s : State) (t : Nat) (host : Bool) : State :=
  s.modTlbinv t host (fun v => 
    if v.busy then v
    else { v with busy := true, endAt := s.cycle + 20000, rAll := v.all, rLo := v.addr.toNat,
                  rHi := v.addr.toNat + v.count * 65536 })

/-- TLBINV (R201). -/
def execTlbinvStart (slice : Nat) (host : Bool) (s : State) : Host.Outcome State Fault Refusal := .next (s.bar0 (s.startTlbinv slice host))

/-- Bytes from a to a + n meet the range of an invalidation. -/
def Tlbinv.meets (v : Tlbinv) (a n : Nat) : Bool :=
  v.rAll || (decide (a < v.rHi) && decide (v.rLo < a + n))

/-- A translation of the slice is drawn from the range. -/
def Tlbinv.hits (v : Tlbinv) (t : Nat) (host : Bool) (e : TlbEntry) : Bool :=
  e.slice == t && v.meets (if host then e.ipa else e.va) e.size

/-- An access that may have used such a translation is not performed: one of the guest range for the guest stage, any global
access of the slice for the host stage, or a piece in flight. A saved group's entries translate afresh when they are replayed
(State.relocate). -/
def State.usesRange (s : State) (t : Nat) (host : Bool) (v : Tlbinv) : Bool :=
  s.groups.any (fun g => g.2.slice == t && g.2.place != .saved && g.2.log.any (fun e => !e.failed && e.acc.any (fun a =>
    (match a.loc with | .spad _ _ => false | .mcast _ _ => false | _ => true) &&
    ((e.mask &&& ~~~(e.done ||| e.perf)).getLsbD a.lane) && (host || v.meets (s.pieceVa g.2 a) a.size)))) ||
  s.dies.any (fun d => d.2.engines.any (fun e => e.2.jobs.any (fun j => j.slice == t && !j.inflight.isEmpty)))

/-- An upper-level entry of a walker is drawn from the range; what a guest table held was read through the host stage. -/
def Tlbinv.drops (v : Tlbinv) (t : Nat) (host : Bool) (u : Upper) : Bool :=
  u.slice == t && (if u.host == host then v.meets (u.page * 2 ^ levelShift u.level) (2 ^ levelShift u.level) else host)

/-- A split polls a place that its address of the range no longer names: it executes its wait again. -/
def State.staleWait (s : State) (t : Nat) (host : Bool) (v : Tlbinv) (g : Group) (p : Split) : Bool :=
  g.slice == t && g.place == .resident && (match p.wait with
    | none => false
    | some w => w.accs.any (fun a =>
        (match a.loc with | .spad _ _ => false | .mcast _ _ => false | _ => true) && (host || v.meets (s.pieceVa g a) a.size) &&
        (match s.checkGlobal g { acc := .load } (s.pieceVa g a) a.priv with | .ok l => l != a.loc | .error _ => true)))

/-- The caches drop the range; BUSY clears once no access holds on to it (R201). -/
def State.invalidate (s : State) (t : Nat) (host : Bool) : State :=
  let v := (s.slice t).tlbinv host
  if !v.busy then s
  else
    let keep (l : List TlbEntry) : List TlbEntry := l.filter (fun e => !v.hits t host e)
    let s1 : State :=
      { s with
        cores := s.cores.map (fun (c : Nat × Core) => (c.1, { c.2 with tlb := keep c.2.tlb })),
        dies := s.dies.map (fun (d : Nat × Die) =>
          (d.1, { d.2 with stlb := keep d.2.stlb, upper := d.2.upper.filter (fun u => !v.drops t host u) })) }
    let s2 := s1.groups.foldl (fun s e =>
      (e.2.splits.filter (s1.staleWait t host v e.2)).foldl (fun s p => s.stopWait e.1 p.born) s) s1
    if s.usesRange t host v then s2 else s2.modTlbinv t host (fun v => { v with busy := false })

/-- TLBINV_DONE (R201). -/
def execTlbinvDone (slice : Nat) (host : Bool) (s : State) : Host.Outcome State Fault Refusal := .next (s.invalidate slice host)

/-! ## Rings (R202, R230) -/

/-- A ring of a function: rings 0 to 2, and 3 for the trace buffer of the VF's slice. -/
def State.ringOf (s : State) (fn ring : Nat) : Ring :=
  if ring < 3 then (s.slice (fnSlice fn)).ring ring else (s.slice (fnSlice fn)).dbg.trace

/-- Change it; the PF has no trace buffer. -/
def State.modRing (s : State) (fn ring : Nat) (f : Ring → Ring) : State :=
  if ring < 3 then s.modSlice (fnSlice fn) (fun x => { x with rings := Tbl.put x.rings ring (f (x.ring ring)) })
  else if fn = 0 then s
  else s.modSlice (fnSlice fn) (fun x => { x with dbg := { x.dbg with trace := f x.dbg.trace } })

/-- A ring is full (R202). -/
def Ring.full (r : Ring) : Bool := (r.tail - r.head).toNat == 2 ^ r.log2n

/-- A record dropped: LOST and OVF. -/
def Ring.drop (r : Ring) : Ring := { r with lost := r.lost + 1, ovf := true }

/-- Write the record at TAIL of a ring whose records have as many bytes, then advance TAIL; none when the place does not
translate, is not writable, or is not the owner's (R202). -/
def State.writeRing (s : State) (fn ring : Nat) (bytes : List Byte) : Option State :=
  let r := s.ringOf fn ring
  let a := r.base.toNat + bytes.length * (r.tail.toNat % 2 ^ r.log2n)
  let s1 := if fn = 0 then
      (if decide (a + bytes.length ≤ 0x7FFF800000) && s.owner (a / 65536) == 16 then some (s.publishBytes a bytes) else none)
    else s.engineWrite (fnSlice fn) (((s.slice (fnSlice fn)).dies).headD 0) a bytes
  s1.map (fun s => s.modRing fn ring (fun r => { r with tail := r.tail + 1 }))

/-- The records held for ring 0 of a function are tried again. -/
def State.retryHeld (s : State) (fn ring : Nat) : State :=
  if ring ≠ 0 then s
  else
    let mine := s.dies.flatMap (fun d => (d.2.heldRecs.filter (fun r => r.1 == fn)).map (fun r => (0, fn, d.1, r.2)))
    ({ s with dies := s.dies.map (fun (d : Nat × Die) =>
        (d.1, { d.2 with heldRecs := d.2.heldRecs.filter (fun r => r.1 != fn) })) } : State).modM (fun m =>
      { m with records := mine ++ m.records })

/-- A write to RCTL or TCTL (R202, R230): one whose LOG2N is out of range is ignored as a whole. -/
def State.writeRctl (s : State) (fn ring : Nat) (v : Word) : State :=
  let n := v.toNat % 32
  if n < 4 || (if ring < 3 then 16 else 20) < n then s
  else (s.modRing fn ring (fun r => { r with en := v.getLsbD 31, ovf := r.ovf && !v.getLsbD 30, log2n := n })).retryHeld fn ring

/-- RING_CTL_WRITE (R202). -/
def execRingCtlWrite (fn ring : Nat) (v : Word) (s : State) : Host.Outcome State Fault Refusal := .next (s.bar0 (s.writeRctl fn ring v))

/-- A write to RHEAD or THEAD. -/
def State.writeRhead (s : State) (fn ring : Nat) (v : Word) : State :=
  (s.modRing fn ring (fun r => { r with head := v })).retryHeld fn ring

/-- RING_HEAD_WRITE (R202). -/
def execRingHeadWrite (fn ring : Nat) (v : Word) (s : State) : Host.Outcome State Fault Refusal := .next (s.bar0 (s.writeRhead fn ring v))

/-- An address register pair after a write to one half: the low half keeps bits 31 to lo, the high half n bits. -/
def halfWrite (old : DWord) (hi : Bool) (lo n : Nat) (v : Word) : DWord :=
  if hi then BitVec.ofNat 64 (v.toNat % 2 ^ n * 2 ^ 32 + old.toNat % 2 ^ 32)
  else BitVec.ofNat 64 (old.toNat / 2 ^ 32 * 2 ^ 32 + v.toNat / 2 ^ lo * 2 ^ lo)

/-- A write to one half of RBASE or TBASE. -/
def State.writeRbase (s : State) (fn ring : Nat) (hi : Bool) (v : Word) : State :=
  (s.modRing fn ring (fun r => { r with base := halfWrite r.base hi 12 25 v })).retryHeld fn ring

/-- RING_BASE_WRITE (R202). -/
def execRingBaseWrite (fn ring : Nat) (hi : Bool) (v : Word) (s : State) : Host.Outcome State Fault Refusal :=
  .next (s.bar0 (s.writeRbase fn ring hi v))

/-! ## Answers to faults (R206) -/

/-- The token is taken from those that wait; none for a stale or unknown one. -/
def State.takeToken (s : State) (fn token : Nat) : Option State :=
  if ((s.slice (fnSlice fn)).tokens).any (fun e => e.1 == token) then
    some (s.modSlice (fnSlice fn) (fun x => { x with tokens := x.tokens.filter (fun e => e.1 != token) }))
  else none

/-- Groups that wait on a token go to restoration (R174). -/
def State.freeWaiters (s : State) (fn token : Nat) (why : Option Nat) : State :=
  (s.groups.filter (fun e => e.2.token == some (fn, token))).foldl (fun s e =>
    let s1 := s.modGroup e.1 (fun g => { g with token := none, wants := true, why := why.getD g.why })
    match why, e.2.place, e.2.frame with
    | some w, .saved, some k =>
      (s1.engineWrite e.2.slice (dieOf e.2.core) (frameAddr (s.launchOf e.2) e.2.regs k + 9) (leBytes 1 w)).getD s1
    | _, _, _ => s1) s

/-- The copies that wait on a token: die, engine, job. -/
def State.tokenCopies (s : State) (fn token : Nat) : List (Nat × Nat × CopyJob) :=
  s.dies.flatMap (fun d => d.2.engines.flatMap (fun e =>
    (e.2.jobs.filter (fun j => j.token == some (fn, token))).map (fun j => (d.1, e.1, j))))

/-- RETRY: groups go to restoration, copies retry their piece. -/
def State.faultRetry (s : State) (fn token : Nat) : State :=
  match s.takeToken fn token with
  | none => s
  | some s1 =>
    (s.tokenCopies fn token).foldl (fun s (c : Nat × Nat × CopyJob) =>
      s.modCopy c.1 c.2.1 c.2.2.id (fun j => { j with token := none })) (s1.freeWaiters fn token none)

/-- FAIL: groups are restored with WHY 4, copies stop with CAUSE PAGE. -/
def State.faultFail (s : State) (fn token : Nat) : State :=
  match s.takeToken fn token with
  | none => s
  | some s1 =>
    (s.tokenCopies fn token).foldl (fun s (c : Nat × Nat × CopyJob) =>
      (s.modCopy c.1 c.2.1 c.2.2.id (fun j => { j with token := none })).stopCopy c.1 c.2.1 { c.2.2 with token := none } 4 0
        c.2.2.failAddr) (s1.freeWaiters fn token (some 4))

/-- FAULTACK_RETRY (R206). -/
def execFaultackRetry (fn token : Nat) (s : State) : Host.Outcome State Fault Refusal := .next (s.bar0 (s.faultRetry fn (token % 16777216)))

/-- FAULTACK_FAIL (R206). -/
def execFaultackFail (fn token : Nat) (s : State) : Host.Outcome State Fault Refusal := .next (s.bar0 (s.faultFail fn (token % 16777216)))

/-! ## The reporting port (R203) -/

/-- The kind that a grant of a round of seven is for: four of ring 0, two of ring 1, one of ring 2. -/
def grantKind (pos : Nat) : Nat := if pos < 4 then 0 else if pos < 6 then 1 else 2

/-- The first kind from k that has a record pending. -/
def State.pendingKind (s : State) (k : Nat) : Option Nat :=
  [k, (k + 1) % 3, (k + 2) % 3].find? (fun k => s.m.records.any (fun r => r.1 == k))

/-- The function of a kind whose turn it is: the next one, in ascending order, with a record pending. -/
def State.turnFn (s : State) (k : Nat) : Nat :=
  let fns := (s.m.records.filter (fun r => r.1 == k)).map (fun r => r.2.1)
  let from_ := Tbl.get s.m.rrRing 0 k
  (((List.range 17).map (fun i => (from_ + i) % 17)).find? (fun f => fns.contains f)).getD 0

/-- The record of a ring is written, held or dropped (R202); a ring 0 record of a ring that is off is failed at once. -/
def State.putRecord_ (s : State) (fn ring die : Nat) (bytes : List Byte) : State :=
  let r := s.ringOf fn ring
  if !r.en then
    (if ring = 0 then s.faultFail fn (field bytes 0x20 4) else s.modRing fn ring (fun r => { r with lost := r.lost + 1 }))
  else
    match (if r.full then none else s.writeRing fn ring bytes) with
    | some s1 => s1
    | none =>
      if ring = 0 then s.modDie die (fun d => { d with heldRecs := d.heldRecs ++ [(fn, bytes)] })
      else s.modRing fn ring Ring.drop

/-- One grant of the reporting port. -/
def State.report_ (s : State) : State :=
  match s.pendingKind (grantKind s.m.rrPos) with
  | none => s
  | some k =>
    let fn := s.turnFn k
    match s.m.records.find? (fun r => r.1 == k && r.2.1 == fn) with
    | none => s
    | some r =>
      (s.modM (fun m =>
        { m with records := m.records.erase r, rrPos := (m.rrPos + 1) % 7, rrRing := Tbl.put m.rrRing k ((fn + 1) % 17) })).putRecord_
          fn k r.2.2.1 r.2.2.2

/-- REPORT_GRANT (R203). -/
def execReportGrant (s : State) : Host.Outcome State Fault Refusal := .next s.report_

end Sys2Proof.Machine
end

