-- ==== Sys2Proof/Machine/Debug.lean ====
section
/-! DEFINITION. The debug session of a slice (R230 to R234, R241): RESUME, STEP, DUMP, the trace buffer, and the reads of split
counters. -/

namespace Sys2Proof.Machine

/-! ## Stopped groups (R232, R233) -/

/-- DBGSTS.BUSY: a DUMP has not stopped every group yet. -/
def State.dbgBusy (s : State) (t : Nat) : Bool := s.groups.any (fun e => e.2.slice == t && e.2.dumpAt != 0)

/-- The group that DBGCMD and DBGLIN name. -/
def Debug.names (d : Debug) (g : Group) : Bool :=
  g.ctx % 4096 == bits d.cmd.toNat 23 12 && g.num == d.cmd.toNat % 32 && g.lin == d.lin.toNat

/-- Stopped groups of a slice. -/
def State.stoppedGroups (s : State) (t : Nat) : List (Nat × Group) := s.groups.filter (fun e => e.2.slice == t && e.2.dbgHeld)

/-- Restore a stopped group; one that also waits for a fault's answer waits on. -/
def State.dbgGo (s : State) (gid : Nat) (stepping : Bool) : State :=
  s.modGroup gid (fun g => { g with dbgHeld := false, stepping := stepping, wants := g.wants || g.token.isNone })

/-- A command on the groups of the slice that pass a test; a GO while BUSY is ignored (R230). -/
def State.dbgCommand (s : State) (t : Nat) (p : Group → Bool) (stepping : Bool) : State :=
  if s.dbgBusy t then s else ((s.stoppedGroups t).filter (fun e => p e.2)).foldl (fun s e => s.dbgGo e.1 stepping) s

/-- DBG_RESUME (R232). -/
def execDbgResume (slice : Nat) (s : State) : Host.Outcome State Fault Refusal :=
  .next (s.bar0 (s.dbgCommand slice (s.slice slice).dbg.names false))

/-- DBG_STEP (R232). -/
def execDbgStep (slice : Nat) (s : State) : Host.Outcome State Fault Refusal :=
  .next (s.bar0 (s.dbgCommand slice (s.slice slice).dbg.names true))

/-- RESUME_ALL (R232). -/
def execDbgResumeAll (slice : Nat) (s : State) : Host.Outcome State Fault Refusal :=
  .next (s.bar0 (s.dbgCommand slice (fun _ => true) false))

/-- DUMP: every group of the slice stops at its next fix, or is halted after 100 us (R233). -/
def State.dump (s : State) (t : Nat) : State :=
  if s.dbgBusy t then s
  else { s with groups := s.groups.map (fun (e : Nat × Group) =>
    (e.1, if e.2.slice == t && !e.2.dbgHeld then { e.2 with dumpAt := s.cycle + 100000 } else e.2)) }

/-- DBG_DUMP (R233). -/
def execDbgDump (slice : Nat) (s : State) : Host.Outcome State Fault Refusal := .next (s.bar0 (s.dump slice))

/-- A group that has reached no fix since a DUMP is halted; its record has no ordinal (R233). -/
def State.dumpLate (s : State) (gid : Nat) : State :=
  match Tbl.find s.groups gid with
  | none => s
  | some g =>
    if g.dumpAt = 0 || decide (s.cycle < g.dumpAt) || g.dbgHeld then s
    else
      let p := g.splits.headD {}
      let s1 := s.trace g 4 0 (slotNum (s.slotOf g p)) (g.splitNo p.born) 0xFFFFF p.mask.toNat
      (s1.freeze gid 3).modGroup gid (fun g => { g with dbgHeld := true, dumpAt := 0 })

/-- DUMP_TIMEOUT (R233). -/
def execDumpTimeout (gid : Nat) (s : State) : Host.Outcome State Fault Refusal := .next (s.dumpLate gid)

/-! ## The trace buffer (R230, R234) -/

/-- Write one trace record; a record that cannot be written is dropped. -/
def State.putTrace (s : State) (fn : Nat) (bytes : List Byte) : State :=
  let r := s.ringOf fn 3
  match (if r.full then none else s.writeRing fn 3 bytes) with
  | some s1 => s1
  | none => s.modRing fn 3 Ring.drop

/-- A LOST record, once space has returned. -/
def State.tellLost (s : State) (fn : Nat) : State :=
  let r := s.ringOf fn 3
  if r.lost = 0 || r.full || !r.en then s
  else
    match s.writeRing fn 3 (leBytes 1 6 ++ zeros 19 ++ leBytes 4 r.lost.toNat ++ leBytes 8 s.cycle) with
    | some s1 => s1.modRing fn 3 (fun r => { r with lost := 0 })
    | none => s

/-- Trace records of a slice that are 64 cycles old leave the horizon buffer. -/
def State.flushTrace (s : State) (t : Nat) : State :=
  let old (r : Nat × List Byte) : Bool := decide (r.1 % 2 ^ 64 + 64 ≤ s.now (r.1 / 2 ^ 64))
  let l := (s.slice t).dbg.held
  let s1 := s.tellLost (t + 1)
  if l.isEmpty then s1
  else
    (l.filter old).foldl (fun s r => s.putTrace (t + 1) r.2)
      (s1.modSlice t (fun x => { x with dbg := { x.dbg with held := l.filter (fun r => !old r) } }))

/-! ## Split counters (R241) -/

/-- EVPRES.w (R238). -/
def evpresWord (w : Nat) : Nat := ((List.range 32).filter (fun i => evPresent (32 * w + i))).foldr (fun i a => 2 ^ i + a) 0

/-- The 64-bit counter of a slice that has its LO half at an offset of VF BAR0: CYCLE, PERMCHG, ENERGY, TD, CNT (R26, R28,
R238, R239, R241). -/
def State.counter64 (s : State) (t off : Nat) : Option Nat :=
  if off = 0x2380 then some s.cycle
  else if off = 0x2390 then some (s.slice t).permchg.toNat
  else if off = 0x2398 then some (s.slice t).energy.toNat
  else if 0x2200 ≤ off && off < 0x2300 && off % 8 = 0 then
    let e := (off - 0x2200) / 8
    some (if evPresent e then s.eventTotal t e else 0)
  else if 0x2400 ≤ off && off < 0x2480 && off % 16 = 8 then some (s.pmcValue t ((off - 0x2400) / 16))
  else none

/-- The slice and offset within its VF window that a PF BAR0 offset names. -/
def windowPlace (off : Nat) : Option (Nat × Nat) :=
  if 0x800000 ≤ off && off < 0x900000 then some ((off - 0x800000) / 65536, off % 65536) else none

/-- The counter at an offset of a function's BAR0: VF fn's own, or the PF's. -/
def State.counterOf (s : State) (fn off : Nat) : Option Nat :=
  if fn ≠ 0 then s.counter64 (fn - 1) off
  else if off = 0x20120 then some s.m.energyPf.toNat
  else match windowPlace off with
    | some (t, o) => s.counter64 t o
    | none => none

/-- The PF reads a locked window: all ones (R34). -/
def State.windowShut (s : State) (fn off : Nat) : Bool :=
  fn == 0 && (match windowPlace off with | some (t, _) => s.vfLocked t | none => false)

/-- The host reads a word. -/
def State.give (s : State) (v : Nat) : State := s.modM (fun m => { m with lastRead := BitVec.ofNat 64 (v % 2 ^ 32) })

/-- SHTAG of a LO half at an offset: V, and the offset (R241). -/
def shadowTag (off : Nat) : Nat := 2 ^ 31 + off

/-- A read of a LO half: the HI half of the same instant goes to the reader's shadow (R241). -/
def State.readLo (s : State) (fn off : Nat) : State :=
  if s.windowShut fn off then s.give 0xFFFFFFFF
  else match s.counterOf fn off with
    | none => s
    | some v =>
      (s.give v).modSlice (fnSlice fn) (fun x => { x with shVal := BitVec.ofNat 32 (v / 2 ^ 32), shTag := shadowTag off })

/-- A read of a HI half: the shadow when its tag matches, else the live value (R241). -/
def State.readHi (s : State) (fn off : Nat) : State :=
  let lo := off - 4
  if s.windowShut fn off then s.give 0xFFFFFFFF
  else match s.counterOf fn lo with
    | none => s
    | some v =>
      let x := s.slice (fnSlice fn)
      if x.shTag = shadowTag lo then s.give x.shVal.toNat else s.give (v / 2 ^ 32)

end Sys2Proof.Machine
end

