-- ==== Sys2Proof/Machine/Registers.lean ====
section
/-! DEFINITION. Register accesses of the host (R5, R34, R35): the VF registers of a slice, reached by its VF or through the
slice's VF window, and the registers of PF BAR0. Reserved fields are ignored and read zero. -/

namespace Sys2Proof.Machine

/-! ## VF registers of a slice -/

/-- A root register after a write to one half: the low half holds bits 31 to 12 and EN, the high half n bits (R197). -/
def rootWrite (old : DWord) (hi : Bool) (n : Nat) (v : Word) : DWord :=
  if hi then halfWrite old true 0 n v else halfWrite old false 0 32 (v &&& 0xFFFFF001)

/-- DBGCMD: the fields are kept, and GO performs OP (R230). -/
def State.writeDbgcmd (s : State) (t : Nat) (v : Word) : State :=
  let x := s.slice t
  let s1 := s.modSlice t (fun x => { x with dbg := { x.dbg with cmd := v &&& 0x70FFF01F } })
  if !v.getLsbD 31 then s1
  else
    let names := { x.dbg with cmd := v &&& 0x70FFF01F }.names
    match bits v.toNat 30 28 with
    | 1 => s1.dbgCommand t names false
    | 2 => s1.dbgCommand t names true
    | 3 => s1.dump t
    | 4 => s1.dbgCommand t (fun _ => true) false
    | _ => s1

/-- A word of a TLBINV block (R201). -/
def State.writeTlbinv (s : State) (t : Nat) (host : Bool) (k : Nat) (v : Word) : State :=
  match k with
  | 0 => s.modTlbinv t host (fun r => { r with addr := halfWrite r.addr false 16 25 v })
  | 1 => s.modTlbinv t host (fun r => { r with addr := halfWrite r.addr true 16 25 v })
  | 2 =>
    let s1 := s.modTlbinv t host (fun r => { r with all := v.getLsbD 30, count := v.toNat % 1048576 })
    if v.getLsbD 31 then s1.startTlbinv t host else s1
  | _ => s

/-- FAULTACK of a ring's owner (R206). -/
def State.faultAck (s : State) (fn : Nat) (v : Word) : State :=
  match bits v.toNat 31 30 with
  | 1 => s.faultRetry fn (v.toNat % 16777216)
  | 2 => s.faultFail fn (v.toNat % 16777216)
  | _ => s

/-- A register of a ring (R202). -/
def State.writeRingReg (s : State) (fn ring k : Nat) (v : Word) : State :=
  match k with
  | 0 => s.writeRbase fn ring false v
  | 1 => s.writeRbase fn ring true v
  | 2 => s.writeRctl fn ring v
  | 4 => s.writeRhead fn ring v
  | _ => s

/-- A word of QTAB.k (R80). -/
def State.writeQtab (s : State) (t k w : Nat) (v : Word) : State :=
  match w with
  | 0 => s.modQueue t k (fun q => if q.en then q else { q with qcb := halfWrite q.qcb false 7 25 v })
  | 1 => s.modQueue t k (fun q => if q.en then q else { q with qcb := halfWrite q.qcb true 7 25 v })
  | 2 => s.writeQueue t k v.toNat
  | _ => s

/-- A debug register of a slice (R230). -/
def State.writeDbg (s : State) (t off : Nat) (v : Word) : State :=
  let put (f : Debug → Debug) : State := s.modSlice t (fun x => { x with dbg := f x.dbg })
  match off with
  | 0x00 => put (fun d => { d with ctl := v &&& 0xC0FFFFFF })
  | 0x04 => s.writeDbgcmd t v
  | 0x08 => put (fun d => { d with lin := v })
  | 0x10 => s.writeRbase (t + 1) 3 false v
  | 0x14 => s.writeRbase (t + 1) 3 true v
  | 0x18 => s.writeRctl (t + 1) 3 v
  | 0x20 => s.writeRhead (t + 1) 3 v
  | _ => s

/-- A write to a register of a slice's VF BAR0. -/
def State.writeVf (s : State) (t off : Nat) (v : Word) : State :=
  if off % 4 ≠ 0 then s
  else if 0x800 ≤ off && off < 0x860 then s.writeRingReg (t + 1) ((off - 0x800) / 0x20) (off % 0x20 / 4) v
  else if off = 0xE00 then s.modSlice t (fun x => { x with gtroot := rootWrite x.gtroot false 25 v })
  else if off = 0xE04 then s.modSlice t (fun x => { x with gtroot := rootWrite x.gtroot true 25 v })
  else if 0xE10 ≤ off && off < 0xE20 then s.writeTlbinv t false ((off - 0xE10) / 4) v
  else if off = 0xE20 then s.faultAck (t + 1) v
  else if off = 0xF00 then s.modSlice t (fun x => { x with mergeOk := v &&& 0x8000001F })
  else if 0x1000 ≤ off && off < 0x1400 then s.writeQtab t ((off - 0x1000) / 16) (off % 16 / 4) v
  else if 0x2000 ≤ off && off < 0x2024 then s.writeDbg t (off - 0x2000) v
  else if 0x2100 ≤ off && off < 0x2140 then
    let k := (off - 0x2100) / 4
    s.modSlice t (fun x => { x with dbg := { x.dbg with
      bpt := Tbl.set x.dbg.bpt 0 k (if k % 2 = 0 then v &&& 0x800FFFFF else v &&& 0xFFFF) } })
  else if 0x2400 ≤ off && off < 0x2480 && off % 16 = 0 then s.writeEvsel t ((off - 0x2400) / 16) v
  else s

/-- A register of a ring as it reads (R202). -/
def Ring.word (r : Ring) (k : Nat) : Nat :=
  match k with
  | 0 => r.base.toNat % 2 ^ 32
  | 1 => r.base.toNat / 2 ^ 32
  | 2 => b2n r.en * 2 ^ 31 + b2n r.ovf * 2 ^ 30 + r.log2n
  | 3 => r.tail.toNat
  | 4 => r.head.toNat
  | 5 => r.lost.toNat
  | _ => 0

/-- A word of a TLBINV block as it reads. -/
def Tlbinv.word (r : Tlbinv) (k : Nat) : Nat :=
  match k with
  | 0 => r.addr.toNat % 2 ^ 32
  | 1 => r.addr.toNat / 2 ^ 32
  | 2 => b2n r.all * 2 ^ 30 + r.count
  | _ => b2n r.busy * 2 ^ 31

/-- A word of QTAB.k as it reads (R80). -/
def Queue.word (q : Queue) (w : Nat) : Nat :=
  match w with
  | 0 => q.qcb.toNat % 2 ^ 32
  | 1 => q.qcb.toNat / 2 ^ 32
  | 2 => b2n q.en * 2 ^ 31 + b2n q.stopped * 2 ^ 30 + q.qerr * 2 ^ 16 + q.prio * 2 ^ 12 + q.eng
  | _ => q.rdlo

/-- A debug register as it reads (R230). -/
def State.readDbg (s : State) (t off : Nat) : Nat :=
  let d := (s.slice t).dbg
  match off with
  | 0x00 => d.ctl.toNat
  | 0x04 => d.cmd.toNat
  | 0x08 => d.lin.toNat
  | 0x0C => b2n (s.dbgBusy t) * 2 ^ 31 + min 255 (s.stoppedGroups t).length
  | 0x10 => d.trace.word 0
  | 0x14 => d.trace.word 1
  | 0x18 => d.trace.word 2
  | 0x1C => d.trace.word 3
  | 0x20 => d.trace.word 4
  | _ => 0

/-- A word of PMC.k as it reads, the count apart (R239). -/
def Slice.pmcWord (x : Slice) (k w : Nat) : Nat :=
  let p := x.pmc_ k
  if w = 0 then p.evsel.toNat else b2n p.absent * 2 ^ 31 + b2n (x.denied p) * 2 ^ 30 + p.event

/-- A register of a slice's VF BAR0 as it reads, split counters apart. -/
def State.readVf (s : State) (t off : Nat) : Nat :=
  let x := s.slice t
  if off % 4 ≠ 0 then 0
  else if 0x800 ≤ off && off < 0x860 then (x.ring ((off - 0x800) / 0x20)).word (off % 0x20 / 4)
  else if off = 0xE00 then x.gtroot.toNat % 2 ^ 32
  else if off = 0xE04 then x.gtroot.toNat / 2 ^ 32
  else if 0xE10 ≤ off && off < 0xE20 then x.inv.word ((off - 0xE10) / 4)
  else if off = 0xF00 then x.mergeOk.toNat
  else if 0x1000 ≤ off && off < 0x1400 then (x.queue ((off - 0x1000) / 16)).word (off % 16 / 4)
  else if 0x2000 ≤ off && off < 0x2024 then s.readDbg t (off - 0x2000)
  else if 0x2100 ≤ off && off < 0x2140 then (Tbl.get x.dbg.bpt 0 ((off - 0x2100) / 4)).toNat
  else if 0x2300 ≤ off && off < 0x2320 then evpresWord ((off - 0x2300) / 4)
  else if 0x2400 ≤ off && off < 0x2480 && off % 16 < 8 then x.pmcWord ((off - 0x2400) / 16) (off % 16 / 4)
  else 0

/-- An access of the PF through a slice's VF window (R34). -/
def State.window_ (s : State) (t : Nat) (write : Bool) (o : Nat) (v : Word) : State :=
  let off := 0x800000 + 0x10000 * t + o % 65536
  let o := o % 65536
  if s.vfLocked t then (if write then s.locked off else s.give 0xFFFFFFFF)
  else if write then s.writeVf t o v
  else if (s.counter64 t o).isSome then s.readLo 0 off
  else if 4 ≤ o && (s.counter64 t (o - 4)).isSome then s.readHi 0 off
  else s.give (s.readVf t o)

/-- VF_WINDOW_ACCESS (R34). -/
def execVfWindowAccess (slice : Nat) (write : Bool) (off : Nat) (v : Word) (s : State) : Host.Outcome State Fault Refusal :=
  .next (s.bar0 (s.window_ slice write off v))

/-! ## PF registers -/

/-- PFERR: W1C of LOCKED, which clears FIRST, and of DIE_OFF (R35). -/
def State.writePferr (s : State) (v : Word) : State :=
  s.modM (fun m =>
    { m with locked := m.locked && !v.getLsbD 31, first := if v.getLsbD 31 then 0 else m.first,
             dieOff := m.dieOff && !v.getLsbD 30 })

/-- PFERR_WRITE (R35). -/
def execPferrWrite (v : Word) (s : State) : Host.Outcome State Fault Refusal := .next (s.bar0 (s.writePferr v))

/-- A register of a die (R16, R19, R29). -/
def State.writeDieReg (s : State) (d k : Nat) (v : Word) : State :=
  match k with
  | 0x00 => s.writePower d v.toNat
  | 0x08 => s.writeTherm d v
  | 0x14 => s.writeWays d v
  | _ => s

/-- OWNCMD (R64). -/
def State.writeOwncmd (s : State) (v : Word) : State :=
  let mode := bits v.toNat 30 29
  let owner := bits v.toNat 28 24
  let f := bits v.toNat 22 0
  if v.getLsbD 31 then s.ownGo mode f owner else s.modM (fun m => { m with ownMode := mode, ownNew := owner, ownFrame := f })

/-- MIGCMD, MIGADDR (R147): GO starts OP. -/
def State.writeMig (s : State) (t k : Nat) (v : Word) : State :=
  let op := bits v.toNat 30 28
  let peer := bits v.toNat 24 20
  match k with
  | 0 =>
    let s1 := s.modSlice t (fun x => { x with migOp := op, migPeer := peer })
    if !v.getLsbD 31 then s1
    else
      (match op with
       | 1 => s1.quiesce t
       | 2 => s1.export_ t
       | 3 => s1.import_ t
       | 4 => s1.resume t
       | 5 => s1.reshape_ t
       | 6 => s1.merge_ t peer
       | 7 => s1.split_ t peer
       | _ => s1)
  | 2 => s.modSlice t (fun x => { x with migAddr := halfWrite x.migAddr false 16 32 v })
  | 3 => s.modSlice t (fun x => { x with migAddr := halfWrite x.migAddr true 16 32 v })
  | _ => s

/-- GANG.t and LADDER.t: writable in CONFIG, which an activation has not left yet (R59), and QUIESCED (R141, R145). -/
def State.writeGang (s : State) (t k : Nat) (v : Word) : State :=
  let x := s.slice t
  if 2 ≤ k then s
  else if x.st == .config || x.st == .activating || (x.st == .active && x.quiesced) then
    s.modSlice t (fun x => if k = 0 then { x with gang := v } else { x with ladder := v })
  else s.locked (0x20800 + 0x10 * t + 4 * k)

/-- HTROOT.t (R197). -/
def State.writeHtroot (s : State) (t : Nat) (hi : Bool) (v : Word) : State :=
  if (s.slice t).tdi == .configUnlocked then s.modSlice t (fun x => { x with htroot := rootWrite x.htroot hi 7 v })
  else s.locked (0x20A00 + 8 * t + 4 * b2n hi)

/-- ALLOW.w, MODE.w, SHVAL and SHTAG of a slice (R240, R241). -/
def State.writeAllowBlock (s : State) (t o : Nat) (v : Word) : State :=
  if o < 0x20 then s.writeAllow t false (o / 4) v
  else if o < 0x40 then s.writeAllow t true ((o - 0x20) / 4) v
  else if o = 0x40 then s.modSlice t (fun x => { x with shVal := v })
  else if o = 0x44 then s.modSlice t (fun x => { x with shTag := v.toNat / 2 ^ 31 * 2 ^ 31 + v.toNat % 65536 })
  else s

/-- A routing entry: table 16 is the PF's (R36, R41). -/
def State.writeRoute (s : State) (t p : Nat) (v : Word) : State :=
  if t < 16 && s.vfLocked t then s.locked (0x40000 + 0x1000 * t + 4 * p)
  else s.modM (fun m => { m with routes := Tbl.set m.routes 0 (t * 1024 + p) (v &&& 0xFFFC03FF) })

/-- A write to a register of PF BAR0; in recovery it offers FWLOAD alone (R77). -/
def State.writePf (s : State) (off : Nat) (v : Word) : State :=
  if off % 4 ≠ 0 then s
  else if off = 0 then s.fwload v.toNat
  else if s.m.recovery then s
  else if 0x20000 ≤ off && off < 0x20100 then s.writeDieReg ((off - 0x20000) / 0x40) (off % 0x40) v
  else if off = 0x20100 then s.modM (fun m => { m with watts := BitVec.ofNat 12 (max 100 (min 2000 (v.toNat % 4096))) })
  else if off = 0x20110 then s.modM (fun m => { m with bar2win := BitVec.ofNat 3 v.toNat })
  else if off = 0x20114 then s.writePferr v
  else if off = 0x20200 then s.writeOwncmd v
  else if 0x20300 ≤ off && off < 0x20340 then (if v.getLsbD 0 then s.startKill ((off - 0x20300) / 4) 2 0 else s)
  else if 0x20500 ≤ off && off < 0x20520 then s.retireBank ((off - 0x20500) / 4) v.toNat
  else if off = 0x20600 then s.modM (fun m => { m with intest := v.getLsbD 31, inperiod := v.toNat % 65536 })
  else if 0x20700 ≤ off && off < 0x20800 then s.writeMig ((off - 0x20700) / 16) (off % 16 / 4) v
  else if 0x20800 ≤ off && off < 0x20900 then s.writeGang ((off - 0x20800) / 16) (off % 16 / 4) v
  else if 0x20900 ≤ off && off < 0x20960 then s.writeRingReg 0 ((off - 0x20900) / 0x20) (off % 0x20 / 4) v
  else if off = 0x20980 then s.faultAck 0 v
  else if 0x20A00 ≤ off && off < 0x20A80 then s.writeHtroot ((off - 0x20A00) / 8) (off % 8 == 4) v
  else if 0x20A80 ≤ off && off < 0x20B80 then s.writeTlbinv ((off - 0x20A80) / 16) true (off % 16 / 4) v
  else if off = 0x20B80 then s.modM (fun m => if v.getLsbD 31 then { m with evdeny := m.evdeny &&& 0x7FFFFFFF } else m)
  else if 0x20C00 ≤ off && off < 0x21400 then s.writeAllowBlock ((off - 0x20C00) / 0x80) ((off - 0x20C00) % 0x80) v
  else if 0x30000 ≤ off && off < 0x31000 then s.writeDeckle ((off - 0x30000) / 0x100) (off % 0x100) v
  else if 0x40000 ≤ off && off < 0x51000 then s.writeRoute ((off - 0x40000) / 0x1000) (off % 0x1000 / 4) v
  else if 0x58000 ≤ off && off < 0x5C000 then s.writeMcjoin ((off - 0x58000) / 0x400) (off % 0x400 / 16) (off % 16 / 4) v
  else match windowPlace off with
    | some (t, o) => s.window_ t true o v
    | none => s

/-! ## PF registers as they read -/

/-- PWRCTL, PWRSTS, THERM, SLEW, STRIKES and L2WAYDIS of a die (R16, R19, R21, R29, R106, R133). -/
def State.readDieReg (s : State) (d k : Nat) : Nat :=
  let x := s.die d
  match k with
  | 0x00 => x.pbudget.toNat * 2 ^ 24 + x.bvf.toNat * 2 ^ 20 + x.vf.toNat * 2 ^ 16 + b2n x.boosten * 4 + x.hs.toNat
  | 0x04 =>
    x.permits.toNat * 2 ^ 24 + x.curvf.toNat * 2 ^ 20 + x.cmdst.toNat * 2 ^ 13 + b2n x.busy * 2 ^ 12 + b2n x.fall * 2 ^ 11 +
      b2n x.boosting * 2 ^ 10 + x.curhs.toNat
  | 0x08 => b2n x.trip * 2 ^ 31 + x.fact.toNat * 2 ^ 16 + x.tdie.toNat
  | 0x0C => x.adm.toNat * 2 ^ 16 + x.ptr.toNat
  | 0x10 => x.strikes.toNat
  | 0x14 => (s.wayDis d).toNat
  | _ => 0

/-- A sounding entry as 64 bits (R110). -/
def Sounding.word (e : Sounding) : Nat :=
  2 ^ 63 + e.cls * 2 ^ 60 + min e.count 255 * 2 ^ 45 + e.ch * 2 ^ 40 + e.bank * 2 ^ 34 + e.row * 2 ^ 19 + e.col * 2 ^ 14

/-- MIGCMD, MIGSTS and MIGADDR (R147). -/
def Slice.migWord (x : Slice) (k : Nat) : Nat :=
  match k with
  | 0 => x.migOp * 2 ^ 28 + x.migPeer * 2 ^ 20
  | 1 => b2n x.migBusy * 2 ^ 31 + x.migRes * 2 ^ 28 + x.migRung * 2 ^ 26 + x.migSize % 2 ^ 24
  | 2 => x.migAddr.toNat % 2 ^ 32
  | _ => x.migAddr.toNat / 2 ^ 32

/-- ALLOW.w, MODE.w, SHVAL and SHTAG as they read (R240, R241). -/
def Slice.allowWord (x : Slice) (o : Nat) : Nat :=
  if o < 0x20 then (Tbl.get x.allow 0xFFFFFFFF (o / 4)).toNat
  else if o < 0x40 then (Tbl.get x.mode 0 ((o - 0x20) / 4)).toNat
  else if o = 0x40 then x.shVal.toNat
  else if o = 0x44 then x.shTag
  else 0

/-- A register of PF BAR0 as it reads, the VF windows and split counters apart; write-only and reserved fields read zero (R5).
In recovery it offers FWSTS alone (R77). -/
def State.readPf (s : State) (off : Nat) : Nat :=
  let m := s.m
  if off % 4 ≠ 0 then 0
  else if off = 4 then m.fwsts.toNat
  else if m.recovery then 0
  else if 0x20000 ≤ off && off < 0x20100 then s.readDieReg ((off - 0x20000) / 0x40) (off % 0x40)
  else if off = 0x20100 then m.watts.toNat
  else if off = 0x20110 then m.bar2win.toNat
  else if off = 0x20114 then b2n m.locked * 2 ^ 31 + b2n m.dieOff * 2 ^ 30 + m.first.toNat
  else if off = 0x20200 then m.ownMode * 2 ^ 29 + m.ownNew * 2 ^ 24 + m.ownFrame
  else if off = 0x20204 then b2n m.ownBusy * 2 ^ 31 + m.ownRes * 2 ^ 28 + m.ownOwner
  else if 0x20400 ≤ off && off < 0x20420 then
    let x := s.stack ((off - 0x20400) / 4)
    x.level * 2 ^ 16 + x.d % 256 * 2 ^ 8 + x.tstk.toNat
  else if 0x20480 ≤ off && off < 0x204A0 then (s.stack ((off - 0x20480) / 4)).lost.toNat
  else if 0x20500 ≤ off && off < 0x20520 then (s.stack ((off - 0x20500) / 4)).retire.toNat
  else if off = 0x20600 then b2n m.intest * 2 ^ 31 + m.inperiod % 65536
  else if 0x20700 ≤ off && off < 0x20800 then (s.slice ((off - 0x20700) / 16)).migWord (off % 16 / 4)
  else if 0x20800 ≤ off && off < 0x20900 then
    let x := s.slice ((off - 0x20800) / 16)
    (match off % 16 / 4 with | 0 => x.gang.toNat | 1 => x.ladder.toNat | _ => 0)
  else if 0x20900 ≤ off && off < 0x20960 then ((s.slice 16).ring ((off - 0x20900) / 0x20)).word (off % 0x20 / 4)
  else if 0x20A00 ≤ off && off < 0x20A80 then
    let h := (s.slice ((off - 0x20A00) / 8)).htroot.toNat
    (if off % 8 = 0 then h % 2 ^ 32 else h / 2 ^ 32)
  else if 0x20A80 ≤ off && off < 0x20B80 then (s.slice ((off - 0x20A80) / 16)).hinv.word (off % 16 / 4)
  else if off = 0x20B80 then m.evdeny.toNat
  else if 0x20C00 ≤ off && off < 0x21400 then (s.slice ((off - 0x20C00) / 0x80)).allowWord ((off - 0x20C00) % 0x80)
  else if 0x30000 ≤ off && off < 0x31000 then s.readDeckle ((off - 0x30000) / 0x100) (off % 0x100)
  else if 0x40000 ≤ off && off < 0x51000 then
    (Tbl.get m.routes 0 ((off - 0x40000) / 0x1000 * 1024 + off % 0x1000 / 4)).toNat
  else if 0x58000 ≤ off && off < 0x5C000 then (Tbl.get m.mcjoin 0 ((off - 0x58000) / 4)).toNat
  else if 0x60000 ≤ off && off < 0x70000 then
    let w := ((Tbl.find (s.stack ((off - 0x60000) / 0x2000)).table (off % 0x2000 / 8)).map Sounding.word).getD 0
    (if off % 8 = 0 then w % 2 ^ 32 else w / 2 ^ 32)
  else 0

/-- A read of a register: a counter's halves latch (R241); any other register gives its word (R5, R34). In recovery a VF has
none (R77). -/
def State.readRegister (s : State) (fn off : Nat) : State :=
  if s.m.recovery then (if fn = 0 then s.give (s.readPf off) else s)
  else if s.windowShut fn off || (s.counterOf fn off).isSome then s.readLo fn off
  else if 4 ≤ off && (s.counterOf fn (off - 4)).isSome then s.readHi fn off
  else if fn ≠ 0 then (if s.vfExists (fn - 1) then s.give (s.readVf (fn - 1) off) else s)
  else match windowPlace off with
    | some (t, o) => s.give (s.readVf t o)
    | none => s.give (s.readPf off)

/-- COUNTER_LO_READ (R241); at an offset where no counter lies, the read of the register there (log 31). -/
def execCounterLoRead (fn off : Nat) (s : State) : Host.Outcome State Fault Refusal := .next (s.readRegister fn off)

/-- COUNTER_HI_READ (R241). -/
def execCounterHiRead (fn off : Nat) (s : State) : Host.Outcome State Fault Refusal := .next (s.bar0 (s.readHi fn off))

/-- A register write: at an offset of PF BAR0 below 2^24 by the PF; at 2^24 + 2^16 * n + o by VF n at o of its own BAR0
(log 31). -/
def State.writeRegister (s : State) (off : Nat) (v : Word) : State :=
  if off < 0x1000000 then s.writePf off v
  else
    let n := (off - 0x1000000) / 65536
    if 1 ≤ n && s.vfExists (n - 1) then s.bar0 (s.writeVf (n - 1) (off % 65536) v) else s

/-- PF_REGISTER_WRITE (R5, R34 to R36). -/
def execPfRegisterWrite (off : Nat) (v : Word) (s : State) : Host.Outcome State Fault Refusal := .next (s.writeRegister off v)

end Sys2Proof.Machine
end

