-- ==== Sys2Proof/Machine/Cycle.lean ====
section
/-! DEFINITION. What a step does around an instruction or an operation of the part: the stage before issue (R166, R231 to R233,
R396), the cycle of a die (R4, R18, R236), and the nanosecond of CYCLE (R32). An event that the machine posts to itself
stands in State.agenda and is the instruction of a later step; its meaning checks its own conditions again (log 1). -/

namespace Sys2Proof.Machine

/-- The state of an outcome; one that is none leaves the state as it was. -/
def after (s : State) (o : Host.Outcome State Fault Refusal) : State :=
  match o with
  | .next t => t
  | _ => s

/-! ## Before issue -/

/-- What the stage before issue answers: the machine's next state, or the instruction to execute. -/
inductive Front where
  | done (s : State)
  | run (i : Instr) (s : State)

/-- Take a late cause at an instruction boundary (R166); PHASE_ERROR frees its entry (R168). -/
def State.takeLate (s : State) (gid : Nat) (p : Split) (e : Entry) : State :=
  let t := s.takeTrap gid p.born (e.trap p)
  if e.cause = 17 then t.freeEntry gid e.id else t

/-- An enabled breakpoint names a fix of a group's code object (R231). -/
def State.breaksAt (s : State) (g : Group) (ord : Nat) : Bool :=
  let b := (s.slice g.slice).dbg.bpt
  s.dbgEn g.slice && (List.range 8).any (fun k =>
    (Tbl.get b 0 (2 * k)).getLsbD 31 && (Tbl.get b 0 (2 * k)).toNat % 1048576 == ord && (Tbl.get b 0 (2 * k + 1)).toNat % 65536 == s.ktag g)

/-- The debugger's part before a fix issues: a stop, or a record only; the fix at which a restored group stopped is passed (R231 to
R233). In a handler a breakpoint and a STEP write a BREAK record while EN is 1, and stop nothing (R396). -/
def State.atFix (s : State) (gid : Nat) (g : Group) (p : Split) : Option State × State :=
  let record (kind : Nat) : State := s.traceStop g kind (slotNum (s.slotOf g p)) p
  let stop (kind : Nat) : Option State × State := (some ((record kind).breakStop gid p.born), s)
  match s.fixAt g p.pc.toNat with
  | none => (none, s)
  | some k =>
    if g.skipBrk == some p.born then (none, s)
    else if g.dumpAt != 0 then stop 4
    else if g.inh then (none, if s.breaksAt g k || (g.stepping && s.dbgEn g.slice) then record 2 else s)
    else if g.stepping then stop 3
    else if s.breaksAt g k then (if s.dbgStop g.slice then stop 2 else (none, record 2))
    else (none, s)

/-- Poison among the bytes of the next instruction of a split (R101). -/
def State.fetchPoison (s : State) (g : Group) (p : Split) : Option Nat :=
  if s.m.poison.isEmpty && s.m.badWords.isEmpty then none
  else
    let a := p.pc.toNat
    let n := match s.fetch g p with | .ok (w, _) => if w % 2 = 0 then 1 else 2 | .error _ => 0
    (List.range n).findSome? (fun k =>
      match s.checkPage g.slice g.core (a + 2 * k) .fetch with
      | .ok e => if s.poisoned (e.out + (a + 2 * k) % e.size) then some (e.out + (a + 2 * k) % e.size) else none
      | .error _ => none)

/-- The instruction of the split that issues: a late cause, the debugger, poison and a failed fetch come first. A form in progress
goes on. -/
def State.front (s : State) (gid born : Nat) : Front :=
  let s0 := { s with cur := none }
  match Tbl.find s.groups gid with
  | none => .done s0
  | some g =>
    match g.split? born with
    | none => .done s0
    | some p =>
      if p.wait.isSome then
        (match s.fetch g p with
         | .ok (_, .ok i) => if p.st == .sleep then .run i s else .done s0
         | _ => .done (s0.stopWait gid born))
      else if !s.live1 g p then .done s0
      else
        match g.lateCause p with
        | some e => .done (s0.takeLate gid p e)
        | none =>
          match s.atFix gid g p with
          | (some t, _) => .done { t with cur := none }
          | (none, t) =>
            if (t.fetchPoison g p).isSome then .done (({ t with cur := none } : State).consumePoison g.slice ((t.fetchPoison g p).getD 0))
            else match t.fetch g p with
            | .error r => .done (({ t with cur := none } : State).takeTrap gid born r)
            | .ok (_, .error (.illegal d)) =>
              .done (({ t with cur := none } : State).takeTrap gid born
                { cause := 1, detail := d, mask := p.mask, pc := p.pc, rpc := p.pc })
            | .ok (_, .error .truncated) => .done s0
            | .ok (_, .ok i) => .run i t

/-- Once the split that stopped at a fix has issued it, its fixes count again (R396). -/
def State.clearSkip (s t : State) (gid born : Nat) : State :=
  if (s.group gid).skipBrk == some born && !(s.group gid).inh && (t.group gid).count_ ≠ (s.group gid).count_ then
    t.modGroup gid (fun g => { g with skipBrk := none })
  else t

/-! ## Slots of the last cycle (R236) -/

/-- The leaf of a slot: what issued in it, or what its first event of the cycle, or a throttle, left. -/
def State.leafOf (s : State) (core part : Nat) (slot : Slot) : Nat :=
  match Tbl.find (s.core core).issued (part * 3 + slotNum slot) with
  | some v => if v = 1 then 2 + slotNum slot else v
  | none => s.idleLeaf core part slot

/-- The leaves of the 24 slots of a core in the cycle that ends. -/
def State.coreLeaves (s : State) (core : Nat) : Tbl Nat :=
  if s.struck core then [(20, 24)]
  else ((List.range 8).flatMap (fun p => [Slot.v, Slot.m, Slot.c].map (fun k => s.leafOf core p k))).foldl
    (fun t l => Tbl.put t l (Tbl.get t 0 l + 1)) []

/-- What a core has counted of the events that the spec only names (log 5). -/
def Core.countNamed (c : Core) (draw core : Nat) : Core :=
  evNamed.foldl (fun c e => c.count e (Config.freeWord draw e core).toNat) c

/-- Classify the slots of the cycle that ends, and count those that are 64 cycles old (R236). -/
def State.countSlots (s : State) (d : Nat) : State :=
  let now := (s.die d).cyc
  { s with
    free := s.free + 1,
    cores := s.cores.map (fun (e : Nat × Core) =>
      if dieOf e.1 == d && e.2.owner < 16 then
        let all := e.2.leaves ++ [(now, s.coreLeaves e.1)]
        let old := all.filter (fun l => decide (l.1 + 64 ≤ now))
        (e.1, { (e.2.countLeaves old).countNamed s.free e.1 with
                leaves := all.filter (fun l => !decide (l.1 + 64 ≤ now)), issued := [], served := [] })
      else e) }

/-! ## The events of a die's cycle -/

/-- A checkpoint of a die as it stands at the start of a cycle (R105). -/
def State.mark (s : State) (d : Nat) : State :=
  let now := (s.die d).cyc
  let ck : Checkpoint :=
    { cyc := now, groups := s.groups.filter (fun e => dieOf e.2.core == d),
      cores := (s.cores.filter (fun e => dieOf e.1 == d)).map (fun e =>
        (e.1, { bkt := e.2.bkt, paid := e.2.paid, win := e.2.win, winSpent := e.2.winSpent })) }
  ({ s with cores := s.cores.map (fun (e : Nat × Core) =>
      if dieOf e.1 == d then (e.1, { e.2 with undo := e.2.undo.filter (fun u => decide (now < u.cyc + 65)) }) else e) } : State).modDie d
    (fun x => { x with history := ck :: x.history.filter (fun c => decide (now < c.cyc + 65)) })

/-- The groups on a die. -/
def State.groupsOn (s : State) (d : Nat) : List (Nat × Group) := s.groups.filter (fun e => dieOf e.2.core == d)

/-- Splits that merge or wake. -/
def State.wakeEvents (s : State) (gid : Nat) (g : Group) : List Instr :=
  if g.place != .resident then []
  else
    (if (g.runPair).isSome || g.splits.any (fun p => p.st == .park) then [.splitMerge gid] else []) ++
    g.splits.filterMap (fun p =>
      if p.st != .sleep then none
      else match p.why with
        | .cond => some (.waitWake gid p.born)
        | .promise => if p.deadline ≤ s.cycle then some (.promiseDeadline gid p.born) else none
        | _ => if s.sleepDue gid g p then some (.sleepDeadline gid p.born) else none)

/-- Entries past the strike horizon go forward. -/
def State.entryEvents (s : State) (gid : Nat) (g : Group) : List Instr :=
  (g.log.filter (fun e => s.hasLeft g e && !e.failed)).flatMap (fun e =>
    (if e.kind = 4 || e.kind = 6 || e.kind = 8 then
      ((lanesOf (e.mask &&& ~~~(e.done ||| e.perf))).filter e.leads).map (fun l => Instr.i1HomeRequest gid e.id l) else []) ++
    [.entryComplete gid e.id])

/-- The slots of a partition that holds a group are filled, V and M before C (R128; log 26). -/
def State.slotEvents (s : State) (core part : Nat) : List Instr :=
  if s.groups.any (fun e => e.2.core == core && e.2.part == part && e.2.place != .saved) then
    [Slot.v, Slot.m, Slot.c].map (fun k => .slotIssue core part k)
  else []

/-- A group in its place among those that froze earlier. -/
def insertFroze (a : Nat × Group) : List (Nat × Group) → List (Nat × Group)
  | [] => [a]
  | b :: r => if a.2.frozeAt ≤ b.2.frozeAt then a :: b :: r else b :: insertFroze a r

/-- Saved groups that may return, in the order in which they froze (R118, R142). -/
def State.restoreEvents (s : State) (gs : List (Nat × Group)) : List Instr :=
  ((gs.filter (fun e => s.waitsRestore e e.2.core)).foldr insertFroze []).map (fun e => .groupRestore e.1)

/-- Groups freeze, are saved, retire. -/
def State.placeEvents (s : State) (gid : Nat) (g : Group) : List Instr :=
  List.flatten
    [ (if s.frozenNow g then [.freezeComplete gid] else []),
      (if s.i2Late g then [.i2DrainTimeout gid] else []),
      (if g.place == .frozen then [.groupSave gid] else []),
      (if s.mayRetire g then [.groupRetire gid] else []) ]

/-- An operation of the array of a core starts. -/
def State.arrayEvents (s : State) (core : Nat) : List Instr :=
  match s.headMma core with
  | none => []
  | some _ => if s.mmaCanStart core then [.mmaOpStart core] else []

/-- Pieces of a copy engine start and land. -/
def State.engineEvents (s : State) (d e : Nat) : List Instr :=
  (if (s.copyCandidates d e).isEmpty then [] else [.copyPieceStart d e]) ++
  (match s.landable d e with | some _ => [.copyPieceLand d e] | none => [])

/-- The tile that the collective engine of a die lands in its turn (R99). -/
def State.tileEvents (s : State) (d : Nat) : List Instr :=
  match s.tileTurn d with
  | some (j, t) => [.collTileLand d j.id t]
  | none => []

/-- The slice served becomes the last one (R99). -/
def State.turnTile (s : State) (d : Nat) : State :=
  match s.tileTurn d with
  | some (j, _) => s.modDie d (fun x =>
      let t := Tbl.put x.turn 15 j.slice
      { x with turn := match j.queue with | some q => Tbl.put t (48 + j.slice) q | none => t })
  | none => s

/-- Bins that are 2,048 cycles old, or wait for the area, are formed, unless the slice is at rung 2 (R120, R148). -/
def State.binEvents (s : State) (d : Nat) : List Instr :=
  ((s.die d).couch.filter (fun b => !((s.slice b.2.slice).engStop && (s.slice b.2.slice).migRung == 2) && !(s.slice b.2.slice).quiesced &&
    (decide (b.2.since + 2048 ≤ (s.die d).cyc) || b.2.formed) && !s.areaFull b.2.slice b.2.launch)).map (fun b => .binForm d b.1)

/-- What a die does in a cycle, in order. -/
def State.dieEvents (s : State) (d : Nat) : List Instr :=
  let gs := s.groupsOn d
  let cs := (s.cores.filter (fun e => dieOf e.1 == d && e.2.owner < 16)).map (·.1)
  let t := (cs.map (fun c => (s.core c).owner)).eraseDups
  List.flatten
    [ (if (s.die d).curhs == 3 && !cs.isEmpty then [.meridianRefill d] else []),
      gs.flatMap (fun e => s.wakeEvents e.1 e.2),
      gs.flatMap (fun e => s.entryEvents e.1 e.2),
      cs.flatMap (fun c =>
    if s.groups.any (fun e => e.2.core == c && e.2.place != .saved) then (List.range 8).flatMap (s.slotEvents c) else []),
      cs.flatMap s.arrayEvents,
      (s.die d).engines.flatMap (fun e => s.engineEvents d e.1),
      s.tileEvents d,
      s.binEvents d,
      gs.flatMap (fun e => s.placeEvents e.1 e.2),
      s.restoreEvents gs,
      t.flatMap (fun t => ((s.slice t).launches.filter (fun l => !l.2.gathered.isEmpty)).map (fun l => .gatheredResident t l.1)),
      cs.flatMap (fun c => if (s.core c).waiting.isEmpty then [] else [.wgResident c]),
      (cs.filter (fun c => (s.core c).scrub != 0 && decide ((s.core c).scrub ≤ (s.die d).cyc))).map (fun c => .scrubDone c),
      ((List.range 9).filter (s.idleDue d)).map (fun cl => .clusterIdle d cl),
      (if (s.nextGrant d).isSome then [.admissionGrant d] else []) ]

/-- Items that wait on cores of a die find victims (R134, R135); workgroups that leave are saved as a whole once an image slot is
free (R176). -/
def State.evictions (s : State) (d : Nat) : State :=
  (s.cores.filter (fun e => dieOf e.1 == d)).foldl (fun s e =>
    (List.range (s.waitersOn e.1).length).foldl (fun s k => after s (execEvictFor e.1 k s)) (s.sweepCore e.1 (·.leaving))) s

/-- What waits at the strike horizon of a die leaves it: promises of direct copies, cp.cancel, and cont.flush (R105, R375). -/
def State.leaveHorizon (s : State) (d : Nat) : State :=
  let s1 := (s.flushPromises d).flushCancels d
  (s1.groupsOn d).foldl (fun s e => if !e.2.flush.isEmpty then s.flushCouch e.1 else s) s1

/-- One cycle of a die's arithmetic clock. -/
def State.dieCycle (s : State) (d : Nat) : State :=
  let s1 := (s.countSlots d).modDie d (fun x => { x with cyc := x.cyc + 1, frac := x.frac - 20 })
  let s2 := ((s1.die d).frozen.map (·.1)).foldl (fun s cl => s.strikeEnd d cl) (s1.mark d)
  let s3 := (s2.cores.filter (fun e => dieOf e.1 == d && !e.2.queue.isEmpty)).foldl
    (fun s e => (s.arrayTile e.1 []).arrayCycle e.1) s2
  let s4 := (((s3.dropFaulted d).evictions d).leaveHorizon d).watchClaims d
  let s5 := sliceNums.foldl (fun s t => s.flushTrace t) s4
  { s5.turnTile d with agenda := s5.agenda ++ s5.dieEvents d }

/-! ## The nanosecond -/

/-- The head of a queue can be taken now: it stops the queue, or is accepted; a CWAIT waits for its counter and its place (R82, R83,
R85, R89). -/
def State.headMoves (s : State) (t k : Nat) : Bool :=
  match s.queueHead t k with
  | .idle => false
  | .poison _ => true
  | .stop _ _ => true
  | .packet d _ _ b =>
    if s.packetErr t d ((s.slice t).queue k).eng b ≠ 0 || 9 ≤ pktType b then true
    else if pktType b = 5 then
      (match s.engineRead t d (pktCnt b) 16 with
       | .error _ => true
       | .ok c => nbit (field c 8 8) 63 || (decide (field b 0x10 8 ≤ field c 0 8) && s.mayStart t k b))
    else true

/-- Parse the head of a queue. -/
def State.parseHead (s : State) (t k : Nat) : State :=
  match s.queueHead t k with
  | .idle => s
  | .poison _ => after s (execPktBadType t k s)
  | .stop _ _ => after s (execPktBadType t k s)
  | .packet _ _ _ b =>
    match pktType b with
    | 1 => s.post (.pktLaunch t k)
    | 2 => s.post (.pktCopy t k)
    | 3 => s.post (.pktCopy2d t k)
    | 4 => s.post (.pktColl t k)
    | 5 => s.post (.pktCwait t k)
    | 6 => s.post (.pktCadd t k)
    | 7 => s.post (.pktMarker t k)
    | 8 => after s (execPktRegion t k s)
    | _ => after s (execPktBadType t k s)

/-- The queue of an engine that is served next: highest PRIO, then round robin after the one last served (R99). -/
def State.nextQueue (s : State) (t eng : Nat) : Option Nat :=
  let x := s.slice t
  let d := (s.queueDie t eng).getD 0
  let last := Tbl.get (s.die d).turn 0 (turnKey t eng)
  let ks := (x.queues.filter (fun q => q.2.en && !q.2.stopped && q.2.eng == eng)).map (·.1)
  let moves := ks.filter (s.headMoves t)
  let top := (moves.map (fun k => (x.queue k).prio)).foldr max 0
  let order := (List.range 64).map (fun i => (last % 64 + 1 + i) % 64)
  order.find? (fun k => moves.contains k && (x.queue k).prio == top)

/-- Every engine of a slice parses one packet. -/
def State.serveQueues (s : State) (t : Nat) : State :=
  let x := s.slice t
  ((x.queues.filter (fun q => q.2.en && !q.2.stopped && x.accepts q.2.eng)).map (·.2.eng)).eraseDups.foldl (fun s eng =>
    match s.nextQueue t eng with
    | some k => s.parseHead t k
    | none => s) s

/-- The next accepted packet of every queue starts when it may (R85). -/
def State.startQueues (s : State) (t : Nat) : State :=
  ((s.slice t).pending.map (·.1)).foldl (fun s k => s.startNext t k) s

/-- The launch whose workgroup the helm of a slice deals next: highest PRIO of its queue, round robin by queue (R99). -/
def State.nextDeal (s : State) (t : Nat) : Option Nat :=
  let x := s.slice t
  let ls := x.launches.filter (fun l => decide (l.2.dealt < l.2.total) && l.2.aborted.isNone && x.started (some l.2.queue) l.2.num)
  let top := (ls.map (fun l => (x.queue l.2.queue).prio)).foldr max 0
  let last := Tbl.get (s.die 0).turn 63 (64 + t)
  ((List.range 64).map (fun i => (last + 1 + i) % 64) ++ (ls.map (·.2.queue)).filter (64 ≤ ·)).findSome? (fun k =>
    (ls.find? (fun l => l.2.queue == k && (x.queue k).prio == top)).map (·.1))

/-- The helm of a slice deals one workgroup. -/
def State.dealNext (s : State) (t : Nat) : State :=
  if !(s.slice t).accepts 0 then s
  else match s.nextDeal t with
    | none => s
    | some id =>
      (s.post (.wgDeal t id)).modDie 0 (fun x =>
        { x with turn := Tbl.put x.turn (64 + t) (Tbl.get (s.slice t).launches {} id).queue })

/-- A die's timed events: transitions, boost, ways, current slope. -/
def State.powerEvents (s : State) (d : Nat) : List Instr :=
  let x := s.die d
  let due (a : Nat) : Bool := a != 0 && decide (a ≤ s.cycle)
  List.flatten
    [ (if due x.vfEnd then [.vfChangeDone d] else []),
      (if due x.hsEnd then [.hostStateTransitionDone d] else []),
      (if s.waysDue d != 0 then [.l2WayDisableDone d] else []),
      (if x.boosting && !x.fall && due x.boostEnd then [.permitDebit d] else []),
      (if x.fall && x.boosting && decide (x.fallEnd + 10000 ≤ s.cycle) then [.fallToNominal d] else []),
      (if x.fall && !x.boosting && decide (x.fallEnd + 20000 ≤ s.cycle) then [.fallComplete d] else []),
      (if due x.refillAt then [.permitRefill d] else []),
      (if x.usAt ≤ s.cycle && 2 ≤ x.curhs.toNat then [.currentSlopeTick d] else []) ]

/-- A slice's timed events. -/
def State.sliceEvents (s : State) (t : Nat) : List Instr :=
  let x := s.slice t
  let ended := decide (x.busyEnd ≤ s.cycle)
  List.flatten
    [ (if ended && x.st == .activating then [.activateDone t] else []),
      (if ended && x.st == .resetting then (if x.dissolving then [.dissolveDone t] else [.flrComplete (t + 1)]) else []),
      (if ended && x.killing then [.killComplete t] else []),
      (if x.inv.busy && decide (x.inv.endAt ≤ s.cycle) then [.tlbinvDone t false] else []),
      (if x.hinv.busy && decide (x.hinv.endAt ≤ s.cycle) then [.tlbinvDone t true] else []),
      (match x.deadlines with | e :: _ => if e.2 ≤ s.cycle then [.tickSaveDeadline t] else [] | [] => []),
      (if x.quiescing && x.migRung = 1 && decide (x.ladderAt + x.grace * 1000 ≤ s.cycle) then [.ladderGraceExpiry t] else []),
      (if s.killDue t then [.ladderKillExpiry t] else []),
      (if x.quiescing then [.quiesceDone t] else []) ]

/-- PTPTIME has passed a tick instant of a slice since it was last looked at (R141). -/
def State.tickPassed (s : State) (t now : Nat) : Bool :=
  let x := s.slice t
  let p := x.period * 1000
  let phase := bits x.gang.toNat 15 0 * 1000 % p
  decide ((s.ptp.seen + p - phase) / p < (now + p - phase) / p)

/-- The switch ticks of this nanosecond. -/
def State.tickEvents (s : State) : State :=
  let now := s.ptpTime
  let ev := (sliceNums.filter (fun t => (s.slice t).ticking && s.tickPassed t now)).map (fun t => Instr.switchTick t)
  { s with ptp := { s.ptp with seen := now }, agenda := s.agenda ++ ev }

/-- The module's timed events. -/
def State.moduleEvents (s : State) : List Instr :=
  List.flatten
    [ (if s.cycle % 1000 = 0 then [.fabricMeterTick] else []),
      (if s.cycle % 8 = 0 && !s.m.records.isEmpty then [.reportGrant] else []),
      (match s.m.ownJob with | some j => if j.endAt ≤ s.cycle then [.owncmdDone] else [] | none => []) ]

/-- What acts at once when it is due: timeouts of peers (R49), dumps (R233), repairs (R111), a rise of the boost point (R23). -/
def State.deadlines (s : State) : State :=
  let s1 := (s.m.peers.filter (fun q => !q.2.late && decide (q.2.sentAt + 50000 ≤ s.cycle))).foldl (fun s q => after s (execPeerTimeout q.1 s)) s
  let s2 := (s1.groups.filter (fun e => e.2.dumpAt != 0 && decide (e.2.dumpAt ≤ s.cycle) && !e.2.dbgHeld)).foldl (fun s e => s.dumpLate e.1) s1
  let s3 := (s2.hbm.filter (fun k => k.2.repairs.any (fun r => decide (r.endAt ≤ s.cycle)))).foldl
    (fun s k => after s (execRepairDone k.1 s)) s2
  (List.range 4).foldl (fun s d => if s.mayRise d then after s (execBoostRise d s) else s) s3

/-- What waits at the sending ports is sent, UALink and Ethernet (R44). -/
def State.sendPackets (s : State) : State :=
  let s1 := ((s.m.peers.filter (fun q => !q.2.out)).map (fun q => q.2.slice)).eraseDups.foldl
    (fun s t => after s (execFabricPacketSend t true s)) s
  (s1.m.ethOut.map (·.1)).eraseDups.foldl (fun s t => after s (execFabricPacketSend t false s)) s1

/-- A slice whose engines consumed poison in an object is killed (R101; log 47). -/
def State.killConsumed (s : State) (t : Nat) : State :=
  match (s.slice t).consumed with
  | none => s
  | some f => (s.modSlice t (fun x => { x with consumed := none })).startKill t 9 f

/-- One nanosecond of CYCLE: every clocked die gains its share of a cycle, and what is due is posted. -/
def State.nanosecond (s : State) : State :=
  let s1 : State :=
    { s with
      cycle := s.cycle + 1,
      dies := s.dies.map (fun (e : Nat × Die) =>
        (e.1, if 2 ≤ e.2.curhs.toNat then { e.2 with frac := e.2.frac + 9 + e.2.rate } else e.2)) }
  let s2 := s1.tryWaiting.deadlines.sendPackets.tickEvents
  let s3 := sliceNums.foldl (fun s t => (((s.killConsumed t).serveQueues t).startQueues t).dealNext t) s2
  let s4 := sliceNums.foldl (fun s t => s.tidyCtxs t) s3
  let s5 : State :=
    { s4 with agenda := s4.agenda ++ (s4.dies.flatMap (fun d => s4.powerEvents d.1)) ++ sliceNums.flatMap s4.sliceEvents ++ s4.moduleEvents }
  s5.flashDone

/-- What the machine does when no split issues and nothing is posted: the next cycle of a die that is due one, else the next
nanosecond. -/
def State.idle (s : State) : State :=
  match s.dies.find? (fun d => decide (20 ≤ d.2.frac)) with
  | some d => s.dieCycle d.1
  | none => s.nanosecond

/-- The operations and events that a step may take from the agenda: those that the part makes itself, well formed. -/
def Instr.posted (i : Instr) : Bool := (view i).lay == .event && i.wf

end Sys2Proof.Machine
end

