-- ==== Sys2Proof/Machine/Boot.lean ====
section
/-! DEFINITION. The load that State.withFetchWord stands for: the least that a host sets up before the first instruction of a
kernel issues (log 2). -/

namespace Sys2Proof.Machine

/-- Device address of the next instruction of the split that issues, when that split is live, has no late cause and its next
four bytes lie in one page that it may fetch from. -/
def State.fetchPlace (s : State) : Option Nat :=
  match s.cur with
  | none => none
  | some (gid, born) =>
    match Tbl.find s.groups gid with
    | none => none
    | some g =>
      match g.split? born with
      | none => none
      | some p =>
        let a := p.pc.toNat
        if !s.live1 g p || (g.lateCause p).isSome || windowOf a != .glob || 65532 < a % 65536 then none
        else match s.checkPage g.slice g.core a .fetch with
          | .ok e => some (e.out + a % e.size)
          | .error _ => none

/-- Where the loaded kernel has its first instruction; the address is the same in device memory. -/
def bootPc : Nat := 0x20000

/-- Device memory of the load: frame 1 of the PF with the host table, which maps the first GiB onto itself, and frames 0 and
2 of slice 0. -/
def State.bootMem (s : State) : State :=
  (((((s.setMem 0x7FFF800000 [0, 16, 0]).setMem 0x10000 (leBytes 8 0x11001)).setMem 0x11000 (leBytes 8 0x12001)).setMem
    0x12000 (leBytes 8 0x1F)))

/-- The kernel descriptor of the load: a handler, 64 registers, 4 KiB of scratchpad. -/
def bootDesc : List Byte := zeros 0x10 ++ leBytes 8 0x20100 ++ zeros 6 ++ [64, 0] ++ leBytes 4 4096 ++ zeros 0xDC

/-- The group of the load: workgroup 0 of launch 0 on core 0, all lanes at the kernel's entry. -/
def bootGroup : Group :=
  { regs := 64, entry := 0x20000, spadLimit := 4096, nextBorn := 1,
    splits := [{ born := 0, pc := 0x20000, mask := 0xFFFFFFFF }] }

/-- A state with slice 0 active on cluster 0 of die 0, which runs at the nominal point with full buckets, and a group
resident there whose split issues next. -/
def State.boot (s : State) : State :=
  let s1 := s.bootMem
  { s1 with
    dies := Tbl.put s1.dies 0 { hs := 3, curhs := 3, vf := 11, curvf := 11, adm := 1 },
    cores := Tbl.put s1.cores 0
      { owner := 0, bkt := (List.range 8).map (fun p => (p, 65536)), mbkt := 1048576,
        wgs := [{ wg := 0, slice := 0, launch := 0, size := 4096, gids := [0] }] },
    slices := Tbl.put s1.slices 0
      { st := .active, key := 1, cld := [(0, 1)], clusters := [(0, 0)], htroot := 0x10001, ctxs := [(0, {})],
        launches := [(0, { desc := bootDesc, total := 1, dealt := 1 })], nextLaunch := 1 },
    groups := Tbl.put s1.groups 0 bootGroup,
    nextGid := max s1.nextGid 1, nextWg := max s1.nextWg 1, cur := some (0, 0) }

end Sys2Proof.Machine
end

