-- ==== Sys2Proof/Machine/Lanes.lean ====
section
/-! DEFINITION. The lane and group-scalar arithmetic instructions (14: R292 to R318), one meaning a row. -/

namespace Sys2Proof.Machine

/-! ## Shared shapes -/

/-- The rounding mode and FTZ of the group (R257). -/
def Cx.rm (c : Cx) : Nat := fmRm c.g.fmode
def Cx.ftz (c : Cx) : Bool := fmFtz c.g.fmode

/-- A lane result without flags. -/
def Cx.lane (c : Cx) (t : State) (f : Nat → Word) : Res := .ok (c.writeV t c.vw.d f)

/-- A lane result with flags. -/
def Cx.laneF (c : Cx) (t : State) (f : Nat → Flagged) : Res :=
  .ok (c.flags (c.writeV t c.vw.d (fun l => BitVec.ofNat 32 (f l).1)) (allFlags (c.lanes.map f)))

/-- A lane result of class V with flags. -/
def Cx.laneV (c : Cx) (t : State) (f : Nat → Flagged) : Res :=
  .ok (c.flags (c.giveV t c.vw.d (fun l => BitVec.ofNat 32 (f l).1)) (allFlags (c.lanes.map f)))

/-- A predicate result with flags. -/
def Cx.predF (c : Cx) (t : State) (f : Nat → Bool × Nat) : Res :=
  .ok (c.flags (c.writeP t c.vw.d (fun l => (f l).1)) ((c.lanes.map f).foldr (fun x a => orFlags x.2 a) 0))

/-- A group-scalar result. -/
def Cx.scalar (c : Cx) (t : State) (v : Word) : Res := .ok (c.writeS t c.vw.d v)

/-- Both halves of a packed pair (R293). -/
def halves (f : Nat → Nat → Flagged) (a b : Nat) : Flagged :=
  let lo := f (a % 65536) (b % 65536)
  let hi := f (a / 65536) (b / 65536)
  (lo.1 + 65536 * hi.1, orFlags lo.2 hi.2)

/-- Both halves of a packed triple. -/
def halves3 (f : Nat → Nat → Nat → Flagged) (a b d : Nat) : Flagged :=
  let lo := f (a % 65536) (b % 65536) (d % 65536)
  let hi := f (a / 65536) (b / 65536) (d / 65536)
  (lo.1 + 65536 * hi.1, orFlags lo.2 hi.2)

/-- A two-operand operation of a type: X 0 i32, 1 f32, 2 f16x2, 3 bf16x2 (R295). -/
def typed2 (iop : Nat → Nat → Nat) (fop : Fmt → Bool → Nat → Nat → Nat → Flagged) (ftz : Bool) (rm x a b : Nat) : Flagged :=
  match x with
  | 0 => (iop a b % 2 ^ 32, 0)
  | 1 => fop f32 ftz rm a b
  | 2 => halves (fop f16 ftz rm) a b
  | _ => halves (fop bf16 ftz rm) a b

def addN (a b : Nat) : Nat := a + b
def subN (a b : Nat) : Nat := a + 2 ^ 32 - b
def mulN (a b : Nat) : Nat := a * b

/-- The lane operands a and b of the register class, as numbers. -/
def Cx.va (c : Cx) (l : Nat) : Nat := (c.v c.vw.a l).toNat
def Cx.vb (c : Cx) (l : Nat) : Nat := (c.v c.vw.b l).toNat
def Cx.vd (c : Cx) (l : Nat) : Nat := (c.v c.vw.d l).toNat

/-- Signed and unsigned minimum and maximum of words. -/
def pickInt (signed lo : Bool) (a b : Nat) : Nat :=
  let le := if signed then decide (sext 32 a ≤ sext 32 b) else decide (a ≤ b)
  if le == lo then a else b

/-- min and max: X 0 i32, 1 n32, 2 f32, 3 f16x2 (R297). -/
def minmaxX (ftz lo : Bool) (x a b : Nat) : Flagged :=
  match x with
  | 0 => (pickInt true lo a b, 0)
  | 1 => (pickInt false lo a b, 0)
  | 2 => f32.minmax ftz lo a b
  | _ => halves (f16.minmax ftz lo) a b

/-- fma: X 0 f32, 1 f16x2, 2 bf16x2, 3 i32 (R296). -/
def fmaX (ftz : Bool) (rm x a b d : Nat) : Flagged :=
  match x with
  | 0 => f32.fma ftz rm a b d
  | 1 => halves3 (f16.fma ftz rm) a b d
  | 2 => halves3 (bf16.fma ftz rm) a b d
  | _ => ((a * b + d) % 2 ^ 32, 0)

/-- Shift counts are b[4:0] (R298). -/
def shiftOf (b : Word) : Nat := b.toNat % 32

def shlW (a b : Word) : Word := a <<< shiftOf b
def shrW (a b : Word) : Word := a >>> shiftOf b
def sarW (a b : Word) : Word := a.sshiftRight (shiftOf b)
def rolW (a b : Word) : Word := a.rotateLeft (shiftOf b)

/-- The 64-bit product of two words (R299). -/
def product (signed : Bool) (a b : Nat) : DWord :=
  if signed then BitVec.ofInt 64 (sext 32 a * sext 32 b) else BitVec.ofNat 64 (a * b)

/-- dp4: signedness of the bytes of a and of b by X (R306). -/
def dp4X (x a b d : Nat) : Word :=
  let ea := fun i => if x = 0 || x = 2 then sext 8 (elem 8 a i) else (elem 8 a i : Int)
  let eb := fun i => if x = 0 || x = 1 then sext 8 (elem 8 b i) else (elem 8 b i : Int)
  BitVec.ofInt 32 (d + (ea 0 * eb 0 + ea 1 * eb 1 + ea 2 * eb 2 + ea 3 * eb 3))

/-- dp2 by X (R307). -/
def dp2X (ftz : Bool) (rm x a b d : Nat) : Flagged :=
  match x with
  | 0 => (wrap 32 (d + (sext 16 (elem 16 a 0) * sext 16 (elem 16 b 0) + sext 16 (elem 16 a 1) * sext 16 (elem 16 b 1))), 0)
  | 1 => dp2Float f16 ftz rm a b d
  | 2 => dp2Float bf16 ftz rm a b d
  | _ => dp2Float f8e4 ftz rm a b d

/-- Number of 1 bits, of leading zeros, the reversal, the lowest 1 bit (R308). -/
def popcN (a : Nat) : Nat := ((List.range 32).filter (nbit a)).length
def clzN (a : Nat) : Nat := if a = 0 then 32 else 31 - Nat.log2 a
def brevN (a : Nat) : Nat := (List.range 32).foldr (fun i r => b2n (nbit a i) * 2 ^ (31 - i) + r) 0
def ffsN (a : Nat) : Nat := ((List.range 32).find? (nbit a)).getD 32

/-- Position and length of a bit field operand (R309). -/
def fieldPos (b : Nat) : Nat := b % 32
def fieldLen (b : Nat) : Nat := min (b / 256 % 64) (32 - fieldPos b)

/-- bfe by signedness (R309). -/
def bfeX (signed : Bool) (a b : Nat) : Nat :=
  let len := fieldLen b
  let f := a / 2 ^ fieldPos b % 2 ^ len
  if len = 0 then 0 else if signed then wrap 32 (sext len f) else f

/-- bfi (R309). -/
def bfiX (a b d : Nat) : Nat :=
  let pos := fieldPos b
  let len := fieldLen b
  d % 2 ^ pos + (a % 2 ^ len) * 2 ^ pos + d / 2 ^ (pos + len) * 2 ^ (pos + len)

/-- One byte of perm (R310). -/
def permByte (a c : Nat) : Nat :=
  let y := elem 8 a (c % 4)
  match c / 4 % 4 with
  | 0 => y
  | 1 => 0
  | 2 => if 128 ≤ y then 255 else 0
  | _ => 255

def permX (a b : Nat) : Nat :=
  permByte a (elem 4 b 0) + 256 * permByte a (elem 4 b 1) + 65536 * permByte a (elem 4 b 2) +
    16777216 * permByte a (elem 4 b 3)

/-- The source lane of shfl; 32 when it lies outside the group (R311). -/
def shflLane (x l t : Nat) : Nat :=
  match x with
  | 0 => t
  | 1 => if t ≤ l then l - t else 32
  | 2 => if l + t < 32 then l + t else 32
  | _ => Nat.xor l t

/-- The integer relations of cmp.i32 and scmp (R304, R315) and of cmp.n32. -/
def relInt (x : Nat) (a b : Int) : Bool :=
  match x with
  | 0 => a == b
  | 1 => a != b
  | 2 => decide (a < b)
  | _ => decide (a ≤ b)

def relNat (x a b : Nat) : Bool :=
  match x with
  | 0 => decide (a < b)
  | 1 => decide (a ≤ b)
  | 2 => decide (b < a)
  | _ => decide (b ≤ a)

/-- pk by X (R302). -/
def pkX (ftz : Bool) (rm x a b : Nat) : Flagged :=
  let wide := fun (f : Fmt) =>
    let p := pkWide f ftz rm a
    let q := pkWide f ftz rm b
    (p.1 + 65536 * q.1, orFlags p.2 q.2)
  let quad := fun (f : Fmt) =>
    let e := fun (v i : Nat) => f.narrow rm (f16.value ftz (elem 16 v i))
    ((e a 0).1 + 256 * (e a 1).1 + 65536 * (e b 0).1 + 16777216 * (e b 1).1,
      orFlags (orFlags (e a 0).2 (e a 1).2) (orFlags (e b 0).2 (e b 1).2))
  match x with
  | 0 => wide f16
  | 1 => wide bf16
  | 2 => quad f8e4
  | _ => quad f8e5

/-- upk by X and index (R303). -/
def upkX (ftz : Bool) (x a k : Nat) : Flagged :=
  match x with
  | 0 => upkVal f16 ftz (elem 16 a k)
  | 1 => upkVal bf16 ftz (elem 16 a k)
  | 2 => upkVal f8e4 ftz (elem 8 a k)
  | _ => upkVal f8e5 ftz (elem 8 a k)

/-- gred.add.f32 (R313): the exact sum of the values, one rounding; zeros that are all -0 give -0, and infinities of both signs raise NV
beside a NaN as well. -/
def gredAddF (ftz : Bool) (rm : Nat) (l : List Nat) : Flagged :=
  f32.finish ftz rm (sumAll true rm (l.map (f32.value ftz)))

/-- gred by X over the active values (R313). -/
def gredX (ftz : Bool) (rm x : Nat) (l : List Nat) : Flagged :=
  match x with
  | 0 => (l.foldr (· + ·) 0 % 2 ^ 32, 0)
  | 1 => gredAddF ftz rm l
  | 2 => (l.foldr (pickInt true false) (l.headD 0), 0)
  | _ => (l.foldr (pickInt true true) (l.headD 0), 0)

/-- Immediates of RI (R271, R317). -/
def Cx.simm (c : Cx) : Nat := wrap 32 (sext 16 c.vw.imm)

/-- A bf16 immediate widened exactly to f32. -/
def Cx.fimm (c : Cx) : Nat := c.vw.imm * 65536

/-- An immediate in both halves. -/
def Cx.imm2 (c : Cx) : Nat := c.vw.imm * 65537

def w32 (v : Nat) : Word := BitVec.ofNat 32 v


/-! ## 16-bit forms (R318): D = A = D5, B = B5 -/

/-- NOP_H: changes nothing (R268). -/
def execNopH (s : State) : Host.Outcome State Fault Refusal :=
  issue .nopH s (fun _ t => .ok t)

/-- MOV: d := b (R318). -/
def execMov16 (f : H16) (s : State) : Host.Outcome State Fault Refusal :=
  issue (.mov16 f) s (fun c t => c.lane t (fun l => c.v c.vw.b l))

/-- ADD_I32_16: d := d + b (R318). -/
def execAddI3216 (f : H16) (s : State) : Host.Outcome State Fault Refusal :=
  issue (.addI3216 f) s (fun c t => c.laneF t (fun l => typed2 addN Fmt.add c.ftz c.rm 0 (c.vd l) (c.vb l)))

/-- SUB_I32_16: d := d - b (R318). -/
def execSubI3216 (f : H16) (s : State) : Host.Outcome State Fault Refusal :=
  issue (.subI3216 f) s (fun c t => c.laneF t (fun l => typed2 subN Fmt.sub c.ftz c.rm 0 (c.vd l) (c.vb l)))

/-- ADD_F32_16 (R318). -/
def execAddF3216 (f : H16) (s : State) : Host.Outcome State Fault Refusal :=
  issue (.addF3216 f) s (fun c t => c.laneF t (fun l => f32.add c.ftz c.rm (c.vd l) (c.vb l)))

/-- SUB_F32_16 (R318). -/
def execSubF3216 (f : H16) (s : State) : Host.Outcome State Fault Refusal :=
  issue (.subF3216 f) s (fun c t => c.laneF t (fun l => f32.sub c.ftz c.rm (c.vd l) (c.vb l)))

/-- MUL_F32_16 (R318). -/
def execMulF3216 (f : H16) (s : State) : Host.Outcome State Fault Refusal :=
  issue (.mulF3216 f) s (fun c t => c.laneF t (fun l => f32.mul c.ftz c.rm (c.vd l) (c.vb l)))

/-- MAX_F32_16 (R318). -/
def execMaxF3216 (f : H16) (s : State) : Host.Outcome State Fault Refusal :=
  issue (.maxF3216 f) s (fun c t => c.laneF t (fun l => minmaxX c.ftz false 2 (c.vd l) (c.vb l)))

/-- MIN_F32_16 (R318). -/
def execMinF3216 (f : H16) (s : State) : Host.Outcome State Fault Refusal :=
  issue (.minF3216 f) s (fun c t => c.laneF t (fun l => minmaxX c.ftz true 2 (c.vd l) (c.vb l)))

/-- AND_16 (R318). -/
def execAnd16 (f : H16) (s : State) : Host.Outcome State Fault Refusal :=
  issue (.and16 f) s (fun c t => c.lane t (fun l => c.v c.vw.d l &&& c.v c.vw.b l))

/-- OR_16 (R318). -/
def execOr16 (f : H16) (s : State) : Host.Outcome State Fault Refusal :=
  issue (.or16 f) s (fun c t => c.lane t (fun l => c.v c.vw.d l ||| c.v c.vw.b l))

/-- XOR_16 (R318). -/
def execXor16 (f : H16) (s : State) : Host.Outcome State Fault Refusal :=
  issue (.xor16 f) s (fun c t => c.lane t (fun l => c.v c.vw.d l ^^^ c.v c.vw.b l))

/-- SHL_16 (R318). -/
def execShl16 (f : H16) (s : State) : Host.Outcome State Fault Refusal :=
  issue (.shl16 f) s (fun c t => c.lane t (fun l => shlW (c.v c.vw.d l) (c.v c.vw.b l)))

/-- SHR_16 (R318). -/
def execShr16 (f : H16) (s : State) : Host.Outcome State Fault Refusal :=
  issue (.shr16 f) s (fun c t => c.lane t (fun l => shrW (c.v c.vw.d l) (c.v c.vw.b l)))

/-- MUL_I32_16 (R318). -/
def execMulI3216 (f : H16) (s : State) : Host.Outcome State Fault Refusal :=
  issue (.mulI3216 f) s (fun c t => c.laneF t (fun l => typed2 mulN Fmt.mul c.ftz c.rm 0 (c.vd l) (c.vb l)))

/-- MAX_I32_16 (R318). -/
def execMaxI3216 (f : H16) (s : State) : Host.Outcome State Fault Refusal :=
  issue (.maxI3216 f) s (fun c t => c.laneF t (fun l => minmaxX c.ftz false 0 (c.vd l) (c.vb l)))

/-- ADD_F16X2_16 (R318). -/
def execAddF16x216 (f : H16) (s : State) : Host.Outcome State Fault Refusal :=
  issue (.addF16x216 f) s (fun c t => c.laneF t (fun l => typed2 addN Fmt.add c.ftz c.rm 2 (c.vd l) (c.vb l)))

/-! ## Immediate forms (R317) -/

/-- MOVI (R317). -/
def execMovi (f : RI) (s : State) : Host.Outcome State Fault Refusal :=
  issue (.movi f) s (fun c t => c.lane t (fun _ => w32 c.simm))

/-- MOVHI: the upper half replaced (R317). -/
def execMovhi (f : RI) (s : State) : Host.Outcome State Fault Refusal :=
  issue (.movhi f) s (fun c t => c.lane t (fun l => w32 (c.vw.imm * 65536 + c.vd l % 65536)))

/-- ADDI_I32 (R317). -/
def execAddiI32 (f : RI) (s : State) : Host.Outcome State Fault Refusal :=
  issue (.addiI32 f) s (fun c t => c.lane t (fun l => w32 (c.vd l + c.simm)))

/-- MULI_I32 (R317). -/
def execMuliI32 (f : RI) (s : State) : Host.Outcome State Fault Refusal :=
  issue (.muliI32 f) s (fun c t => c.lane t (fun l => w32 (c.vd l * c.simm)))

/-- ANDI (R317). -/
def execAndi (f : RI) (s : State) : Host.Outcome State Fault Refusal :=
  issue (.andi f) s (fun c t => c.lane t (fun l => c.v c.vw.d l &&& w32 c.vw.imm))

/-- ORI (R317). -/
def execOri (f : RI) (s : State) : Host.Outcome State Fault Refusal :=
  issue (.ori f) s (fun c t => c.lane t (fun l => c.v c.vw.d l ||| w32 c.vw.imm))

/-- XORI (R317). -/
def execXori (f : RI) (s : State) : Host.Outcome State Fault Refusal :=
  issue (.xori f) s (fun c t => c.lane t (fun l => c.v c.vw.d l ^^^ w32 c.vw.imm))

/-- SHLI (R317). -/
def execShli (f : RI) (s : State) : Host.Outcome State Fault Refusal :=
  issue (.shli f) s (fun c t => c.lane t (fun l => shlW (c.v c.vw.d l) (w32 c.vw.imm)))

/-- ADDI_F32 (R317). -/
def execAddiF32 (f : RI) (s : State) : Host.Outcome State Fault Refusal :=
  issue (.addiF32 f) s (fun c t => c.laneF t (fun l => f32.add c.ftz c.rm (c.vd l) c.fimm))

/-- MULI_F32 (R317). -/
def execMuliF32 (f : RI) (s : State) : Host.Outcome State Fault Refusal :=
  issue (.muliF32 f) s (fun c t => c.laneF t (fun l => f32.mul c.ftz c.rm (c.vd l) c.fimm))

/-- MOVI_F16X2 (R317). -/
def execMoviF16x2 (f : RI) (s : State) : Host.Outcome State Fault Refusal :=
  issue (.moviF16x2 f) s (fun c t => c.lane t (fun _ => w32 c.imm2))

/-- ADDI_F16X2 (R317). -/
def execAddiF16x2 (f : RI) (s : State) : Host.Outcome State Fault Refusal :=
  issue (.addiF16x2 f) s (fun c t => c.laneF t (fun l => typed2 addN Fmt.add c.ftz c.rm 2 (c.vd l) c.imm2))

/-- MULI_F16X2 (R317). -/
def execMuliF16x2 (f : RI) (s : State) : Host.Outcome State Fault Refusal :=
  issue (.muliF16x2 f) s (fun c t => c.laneF t (fun l => typed2 mulN Fmt.mul c.ftz c.rm 2 (c.vd l) c.imm2))

/-- ADDI_BF16X2 (R317). -/
def execAddiBf16x2 (f : RI) (s : State) : Host.Outcome State Fault Refusal :=
  issue (.addiBf16x2 f) s (fun c t => c.laneF t (fun l => typed2 addN Fmt.add c.ftz c.rm 3 (c.vd l) c.imm2))

/-- MULI_BF16X2 (R317). -/
def execMuliBf16x2 (f : RI) (s : State) : Host.Outcome State Fault Refusal :=
  issue (.muliBf16x2 f) s (fun c t => c.laneF t (fun l => typed2 mulN Fmt.mul c.ftz c.rm 3 (c.vd l) c.imm2))

/-- MOVI_F8X4 (R317). -/
def execMoviF8x4 (f : RI) (s : State) : Host.Outcome State Fault Refusal :=
  issue (.moviF8x4 f) s (fun c t => c.lane t (fun _ => w32 c.imm2))

/-! ## The register class -/

/-- ADD (R295). -/
def execAdd (f : RG) (s : State) : Host.Outcome State Fault Refusal :=
  issue (.add f) s (fun c t => c.laneF t (fun l => typed2 addN Fmt.add c.ftz c.rm c.vw.x (c.va l) (c.vb l)))

/-- SUB (R295). -/
def execSub (f : RG) (s : State) : Host.Outcome State Fault Refusal :=
  issue (.sub f) s (fun c t => c.laneF t (fun l => typed2 subN Fmt.sub c.ftz c.rm c.vw.x (c.va l) (c.vb l)))

/-- MUL (R295). -/
def execMul (f : RG) (s : State) : Host.Outcome State Fault Refusal :=
  issue (.mul f) s (fun c t => c.laneF t (fun l => typed2 mulN Fmt.mul c.ftz c.rm c.vw.x (c.va l) (c.vb l)))

/-- FMA: d := a × b + d (R296). -/
def execFma (f : RG) (s : State) : Host.Outcome State Fault Refusal :=
  issue (.fma f) s (fun c t => c.laneF t (fun l => fmaX c.ftz c.rm c.vw.x (c.va l) (c.vb l) (c.vd l)))

/-- MIN (R297). -/
def execMinL (f : RG) (s : State) : Host.Outcome State Fault Refusal :=
  issue (.minL f) s (fun c t => c.laneF t (fun l => minmaxX c.ftz true c.vw.x (c.va l) (c.vb l)))

/-- MAX (R297). -/
def execMaxL (f : RG) (s : State) : Host.Outcome State Fault Refusal :=
  issue (.maxL f) s (fun c t => c.laneF t (fun l => minmaxX c.ftz false c.vw.x (c.va l) (c.vb l)))

/-- AND (R298). -/
def execAndL (f : RG) (s : State) : Host.Outcome State Fault Refusal :=
  issue (.andL f) s (fun c t => c.lane t (fun l => c.v c.vw.a l &&& c.v c.vw.b l))

/-- OR (R298). -/
def execOrL (f : RG) (s : State) : Host.Outcome State Fault Refusal :=
  issue (.orL f) s (fun c t => c.lane t (fun l => c.v c.vw.a l ||| c.v c.vw.b l))

/-- XOR (R298). -/
def execXorL (f : RG) (s : State) : Host.Outcome State Fault Refusal :=
  issue (.xorL f) s (fun c t => c.lane t (fun l => c.v c.vw.a l ^^^ c.v c.vw.b l))

/-- ANDN (R298). -/
def execAndn (f : RG) (s : State) : Host.Outcome State Fault Refusal :=
  issue (.andn f) s (fun c t => c.lane t (fun l => c.v c.vw.a l &&& ~~~(c.v c.vw.b l)))

/-- SHL (R298). -/
def execShl (f : RG) (s : State) : Host.Outcome State Fault Refusal :=
  issue (.shl f) s (fun c t => c.lane t (fun l => shlW (c.v c.vw.a l) (c.v c.vw.b l)))

/-- SHR (R298). -/
def execShr (f : RG) (s : State) : Host.Outcome State Fault Refusal :=
  issue (.shr f) s (fun c t => c.lane t (fun l => shrW (c.v c.vw.a l) (c.v c.vw.b l)))

/-- SAR (R298). -/
def execSar (f : RG) (s : State) : Host.Outcome State Fault Refusal :=
  issue (.sar f) s (fun c t => c.lane t (fun l => sarW (c.v c.vw.a l) (c.v c.vw.b l)))

/-- ROL (R298). -/
def execRol (f : RG) (s : State) : Host.Outcome State Fault Refusal :=
  issue (.rol f) s (fun c t => c.lane t (fun l => rolW (c.v c.vw.a l) (c.v c.vw.b l)))

/-- MULH_HI (R299). -/
def execMulhHi (f : RG) (s : State) : Host.Outcome State Fault Refusal :=
  issue (.mulhHi f) s (fun c t => c.lane t (fun l => (product (c.vw.x == 0) (c.va l) (c.vb l)).extractLsb' 32 32))

/-- MULH_WIDE (R299). -/
def execMulhWide (f : RG) (s : State) : Host.Outcome State Fault Refusal :=
  issue (.mulhWide f) s (fun c t => .ok (c.writeVp t c.vw.d (fun l => product (c.vw.x == 2) (c.va l) (c.vb l))))

/-- RCP (R300). -/
def execRcp (f : RG) (s : State) : Host.Outcome State Fault Refusal :=
  issue (.rcp f) s (fun c t => c.laneV t (fun l => sfu 0 c.ftz c.rm (c.va l)))

/-- RSQ (R300). -/
def execRsq (f : RG) (s : State) : Host.Outcome State Fault Refusal :=
  issue (.rsq f) s (fun c t => c.laneV t (fun l => sfu 1 c.ftz c.rm (c.va l)))

/-- SQRT (R300). -/
def execSqrt (f : RG) (s : State) : Host.Outcome State Fault Refusal :=
  issue (.sqrt f) s (fun c t => c.laneV t (fun l => sfu 2 c.ftz c.rm (c.va l)))

/-- EXP2 (R300). -/
def execExp2 (f : RG) (s : State) : Host.Outcome State Fault Refusal :=
  issue (.exp2 f) s (fun c t => c.laneV t (fun l => sfu 3 c.ftz c.rm (c.va l)))

/-- LOG2 (R300). -/
def execLog2 (f : RG) (s : State) : Host.Outcome State Fault Refusal :=
  issue (.log2 f) s (fun c t => c.laneV t (fun l => sfu 4 c.ftz c.rm (c.va l)))

/-- SIN (R300). -/
def execSin (f : RG) (s : State) : Host.Outcome State Fault Refusal :=
  issue (.sin f) s (fun c t => c.laneV t (fun l => sfu 5 c.ftz c.rm (c.va l)))

/-- COS (R300). -/
def execCos (f : RG) (s : State) : Host.Outcome State Fault Refusal :=
  issue (.cos f) s (fun c t => c.laneV t (fun l => sfu 6 c.ftz c.rm (c.va l)))

/-- TANH (R300). -/
def execTanh (f : RG) (s : State) : Host.Outcome State Fault Refusal :=
  issue (.tanh f) s (fun c t => c.laneV t (fun l => sfu 7 c.ftz c.rm (c.va l)))

/-- CVT: the mode is X (R301). -/
def execCvt (f : RG) (s : State) : Host.Outcome State Fault Refusal :=
  issue (.cvt f) s (fun c t => c.laneF t (fun l => cvtVal c.ftz c.vw.x (c.vw.b / 8) (c.vw.b % 8) (c.va l)))

/-- PK (R302). -/
def execPk (f : RG) (s : State) : Host.Outcome State Fault Refusal :=
  issue (.pk f) s (fun c t => c.laneF t (fun l => pkX c.ftz c.rm c.vw.x (c.va l) (c.vb l)))

/-- UPK: element B (R303). -/
def execUpk (f : RG) (s : State) : Host.Outcome State Fault Refusal :=
  issue (.upk f) s (fun c t => c.laneF t (fun l => upkX c.ftz c.vw.x (c.va l) c.vw.b))

/-- CMP_I32 (R304). -/
def execCmpI32 (f : RG) (s : State) : Host.Outcome State Fault Refusal :=
  issue (.cmpI32 f) s (fun c t => c.predF t (fun l => (relInt c.vw.x (sext 32 (c.va l)) (sext 32 (c.vb l)), 0)))

/-- CMP_N32 (R304). -/
def execCmpN32 (f : RG) (s : State) : Host.Outcome State Fault Refusal :=
  issue (.cmpN32 f) s (fun c t => c.predF t (fun l => (relNat c.vw.x (c.va l) (c.vb l), 0)))

/-- CMP_F32 (R304). -/
def execCmpF32 (f : RG) (s : State) : Host.Outcome State Fault Refusal :=
  issue (.cmpF32 f) s (fun c t => c.predF t (fun l => f32.rel c.ftz c.vw.x (c.va l) (c.vb l)))

/-- CMPX_F32 (R304). -/
def execCmpxF32 (f : RG) (s : State) : Host.Outcome State Fault Refusal :=
  issue (.cmpxF32 f) s (fun c t => c.predF t (fun l => f32.rel c.ftz (4 + c.vw.x) (c.va l) (c.vb l)))

/-- SEL: predicate X chooses (R305). -/
def execSel (f : RG) (s : State) : Host.Outcome State Fault Refusal :=
  issue (.sel f) s (fun c t => c.lane t (fun l => if (c.p c.vw.x).getLsbD l then c.v c.vw.a l else c.v c.vw.b l))

/-- DP4 (R306). -/
def execDp4 (f : RG) (s : State) : Host.Outcome State Fault Refusal :=
  issue (.dp4 f) s (fun c t => c.lane t (fun l => dp4X c.vw.x (c.va l) (c.vb l) (c.vd l)))

/-- DP2 (R307). -/
def execDp2 (f : RG) (s : State) : Host.Outcome State Fault Refusal :=
  issue (.dp2 f) s (fun c t => c.laneF t (fun l => dp2X c.ftz c.rm c.vw.x (c.va l) (c.vb l) (c.vd l)))

/-- POPC (R308). -/
def execPopc (f : RG) (s : State) : Host.Outcome State Fault Refusal :=
  issue (.popc f) s (fun c t => c.lane t (fun l => w32 (popcN (c.va l))))

/-- CLZ (R308). -/
def execClz (f : RG) (s : State) : Host.Outcome State Fault Refusal :=
  issue (.clz f) s (fun c t => c.lane t (fun l => w32 (clzN (c.va l))))

/-- BREV (R308). -/
def execBrev (f : RG) (s : State) : Host.Outcome State Fault Refusal :=
  issue (.brev f) s (fun c t => c.lane t (fun l => w32 (brevN (c.va l))))

/-- FFS (R308). -/
def execFfs (f : RG) (s : State) : Host.Outcome State Fault Refusal :=
  issue (.ffs f) s (fun c t => c.lane t (fun l => w32 (ffsN (c.va l))))

/-- BFE: signed for X = 0 (R309). -/
def execBfe (f : RG) (s : State) : Host.Outcome State Fault Refusal :=
  issue (.bfe f) s (fun c t => c.lane t (fun l => w32 (bfeX (c.vw.x == 0) (c.va l) (c.vb l))))

/-- BFI (R309). -/
def execBfi (f : RG) (s : State) : Host.Outcome State Fault Refusal :=
  issue (.bfi f) s (fun c t => c.lane t (fun l => w32 (bfiX (c.va l) (c.vb l) (c.vd l))))

/-- PERM (R310). -/
def execPerm (f : RG) (s : State) : Host.Outcome State Fault Refusal :=
  issue (.perm f) s (fun c t => c.lane t (fun l => w32 (permX (c.va l) (c.vb l))))

/-- SHFL: a of the source lane when it is active, else its own (R311). -/
def execShfl (f : RG) (s : State) : Host.Outcome State Fault Refusal :=
  issue (.shfl f) s (fun c t => c.lane t (fun l =>
    let src := shflLane c.vw.x l (c.vb l % 32)
    c.v c.vw.a (if c.mask.getLsbD src then src else l)))

/-- VOTE_ALL (R312). -/
def execVoteAll (f : RG) (s : State) : Host.Outcome State Fault Refusal :=
  issue (.voteAll f) s (fun c t => .ok (c.writeP t c.vw.d (fun _ => c.lanes.all (fun l => (c.p c.vw.a).getLsbD l))))

/-- VOTE_ANY (R312). -/
def execVoteAny (f : RG) (s : State) : Host.Outcome State Fault Refusal :=
  issue (.voteAny f) s (fun c t => .ok (c.writeP t c.vw.d (fun _ => c.lanes.any (fun l => (c.p c.vw.a).getLsbD l))))

/-- VOTE_BALLOT (R312). -/
def execVoteBallot (f : RG) (s : State) : Host.Outcome State Fault Refusal :=
  issue (.voteBallot f) s (fun c t => c.scalar t (c.p c.vw.a &&& c.mask))

/-- VOTE_EQ (R312). -/
def execVoteEq (f : RG) (s : State) : Host.Outcome State Fault Refusal :=
  issue (.voteEq f) s (fun c t => .ok (c.writeP t c.vw.d (fun _ => c.lanes.all (fun l => c.v c.vw.a l == c.v c.vw.a (firstLane c.mask)))))

/-- GRED (R313). -/
def execGred (f : RG) (s : State) : Host.Outcome State Fault Refusal :=
  issue (.gred f) s (fun c t => 
    let r := gredX c.ftz c.rm c.vw.x (c.lanes.map c.va)
    .ok (c.flags (c.giveS t c.vw.d (w32 r.1)) r.2))

/-- XMOV_VS (R314). -/
def execXmovVs (f : RG) (s : State) : Host.Outcome State Fault Refusal :=
  issue (.xmovVs f) s (fun c t => c.lane t (fun _ => c.s c.vw.a))

/-- XMOV_SV: lane B, active or not (R314). -/
def execXmovSv (f : RG) (s : State) : Host.Outcome State Fault Refusal :=
  issue (.xmovSv f) s (fun c t => c.scalar t (c.v c.vw.a c.vw.b))

/-- XMOV_VP (R314). -/
def execXmovVp (f : RG) (s : State) : Host.Outcome State Fault Refusal :=
  issue (.xmovVp f) s (fun c t => c.lane t (fun l => w32 (b2n ((c.p c.vw.a).getLsbD l))))

/-- XMOV_PV (R314). -/
def execXmovPv (f : RG) (s : State) : Host.Outcome State Fault Refusal :=
  issue (.xmovPv f) s (fun c t => .ok (c.writeP t c.vw.d (fun l => c.v c.vw.a l != 0)))

/-- SADD (R315). -/
def execSadd (f : RG) (s : State) : Host.Outcome State Fault Refusal :=
  issue (.sadd f) s (fun c t => c.scalar t (c.s c.vw.a + c.s c.vw.b))

/-- SSUB (R315). -/
def execSsub (f : RG) (s : State) : Host.Outcome State Fault Refusal :=
  issue (.ssub f) s (fun c t => c.scalar t (c.s c.vw.a - c.s c.vw.b))

/-- SMUL (R315). -/
def execSmul (f : RG) (s : State) : Host.Outcome State Fault Refusal :=
  issue (.smul f) s (fun c t => c.scalar t (c.s c.vw.a * c.s c.vw.b))

/-- SAND (R315). -/
def execSand (f : RG) (s : State) : Host.Outcome State Fault Refusal :=
  issue (.sand f) s (fun c t => c.scalar t (c.s c.vw.a &&& c.s c.vw.b))

/-- SOR (R315). -/
def execSor (f : RG) (s : State) : Host.Outcome State Fault Refusal :=
  issue (.sor f) s (fun c t => c.scalar t (c.s c.vw.a ||| c.s c.vw.b))

/-- SXOR (R315). -/
def execSxor (f : RG) (s : State) : Host.Outcome State Fault Refusal :=
  issue (.sxor f) s (fun c t => c.scalar t (c.s c.vw.a ^^^ c.s c.vw.b))

/-- SSHL (R315). -/
def execSshl (f : RG) (s : State) : Host.Outcome State Fault Refusal :=
  issue (.sshl f) s (fun c t => c.scalar t (shlW (c.s c.vw.a) (c.s c.vw.b)))

/-- SSHR (R315). -/
def execSshr (f : RG) (s : State) : Host.Outcome State Fault Refusal :=
  issue (.sshr f) s (fun c t => c.scalar t (shrW (c.s c.vw.a) (c.s c.vw.b)))

/-- SCMP (R315). -/
def execScmp (f : RG) (s : State) : Host.Outcome State Fault Refusal :=
  issue (.scmp f) s (fun c t => c.scalar t (w32 (b2n (relInt c.vw.x (c.s c.vw.a).toInt (c.s c.vw.b).toInt))))

/-- ADD64 (R316). -/
def execAdd64 (f : RG) (s : State) : Host.Outcome State Fault Refusal :=
  issue (.add64 f) s (fun c t => .ok (c.writeVp t c.vw.d (fun l => c.vp c.vw.a l + c.vp c.vw.b l)))

/-- SUB64 (R316). -/
def execSub64 (f : RG) (s : State) : Host.Outcome State Fault Refusal :=
  issue (.sub64 f) s (fun c t => .ok (c.writeVp t c.vw.d (fun l => c.vp c.vw.a l - c.vp c.vw.b l)))

/-- SADD64 (R316). -/
def execSadd64 (f : RG) (s : State) : Host.Outcome State Fault Refusal :=
  issue (.sadd64 f) s (fun c t => .ok (c.writeSp t c.vw.d (c.sp2 c.vw.a + c.sp2 c.vw.b)))

/-- MAD64 (R316). -/
def execMad64 (f : RG) (s : State) : Host.Outcome State Fault Refusal :=
  issue (.mad64 f) s (fun c t => .ok (c.writeVp t c.vw.d (fun l => c.vp c.vw.d l + BitVec.ofNat 64 (c.va l * c.vb l))))

end Sys2Proof.Machine
end

