-- ==== Sys2Proof/Machine/Dispatch.lean ====
section
/-! DEFINITION. One arm per constructor of Instr: what each instruction, operation and event of the part does. -/

namespace Sys2Proof.Machine

/-- The meaning of an instruction, an operation or an event of the part. -/
def exec (i : Instr) (s : State) : Host.Outcome State Fault Refusal :=
  match i with
  | .pfRegisterWrite off v => Sys2Proof.Machine.execPfRegisterWrite off v s
  | .counterLoRead fn off => Sys2Proof.Machine.execCounterLoRead fn off s
  | .counterHiRead fn off => Sys2Proof.Machine.execCounterHiRead fn off s
  | .pwrctlWrite die v => Sys2Proof.Machine.execPwrctlWrite die v s
  | .hostStateTransitionDone die => Sys2Proof.Machine.execHostStateTransitionDone die s
  | .vfChangeDone die => Sys2Proof.Machine.execVfChangeDone die s
  | .l2waydisWrite die v => Sys2Proof.Machine.execL2waydisWrite die v s
  | .l2WayDisableDone die => Sys2Proof.Machine.execL2WayDisableDone die s
  | .boostRise die => Sys2Proof.Machine.execBoostRise die s
  | .permitDebit die => Sys2Proof.Machine.execPermitDebit die s
  | .fallToNominal die => Sys2Proof.Machine.execFallToNominal die s
  | .fallComplete die => Sys2Proof.Machine.execFallComplete die s
  | .permitRefill die => Sys2Proof.Machine.execPermitRefill die s
  | .currentSlopeTick die => Sys2Proof.Machine.execCurrentSlopeTick die s
  | .thermUpdate die tdie => Sys2Proof.Machine.execThermUpdate die tdie s
  | .thermWrite die v => Sys2Proof.Machine.execThermWrite die v s
  | .powerCapTick watts => Sys2Proof.Machine.execPowerCapTick watts s
  | .meridianRefill die => Sys2Proof.Machine.execMeridianRefill die s
  | .bar2Access op off size data data2 => Sys2Proof.Machine.execBar2Access op off size data data2 s
  | .vfWindowAccess slice write off v => Sys2Proof.Machine.execVfWindowAccess slice write off v s
  | .pferrWrite v => Sys2Proof.Machine.execPferrWrite v s
  | .tdiStop vf => Sys2Proof.Machine.execTdiStop vf s
  | .vfTlpReceive vf onStream intact posted => Sys2Proof.Machine.execVfTlpReceive vf onStream intact posted s
  | .ptpCorrection rho offset => Sys2Proof.Machine.execPtpCorrection rho offset s
  | .ptpLockLoss port => Sys2Proof.Machine.execPtpLockLoss port s
  | .fabricMeterTick => Sys2Proof.Machine.execFabricMeterTick s
  | .fabricPacketSend slice ual => Sys2Proof.Machine.execFabricPacketSend slice ual s
  | .inboundPeerRequest r => Sys2Proof.Machine.execInboundPeerRequest r s
  | .peerResponse req r => Sys2Proof.Machine.execPeerResponse req r s
  | .peerTimeout req => Sys2Proof.Machine.execPeerTimeout req s
  | .mcjoinWrite slice entry word v => Sys2Proof.Machine.execMcjoinWrite slice entry word v s
  | .collTileLand die id t => Sys2Proof.Machine.execCollTileLand die id t s
  | .ucieRetrain pair module failed => Sys2Proof.Machine.execUcieRetrain pair module failed s
  | .ucieFlitFail pair slices => Sys2Proof.Machine.execUcieFlitFail pair slices s
  | .createSlice slice => Sys2Proof.Machine.execCreateSlice slice s
  | .activateSlice slice => Sys2Proof.Machine.execActivateSlice slice s
  | .activateDone slice => Sys2Proof.Machine.execActivateDone slice s
  | .dissolveSlice slice => Sys2Proof.Machine.execDissolveSlice slice s
  | .dissolveDone slice => Sys2Proof.Machine.execDissolveDone slice s
  | .deckleWrite slice off v => Sys2Proof.Machine.execDeckleWrite slice off v s
  | .assignFrame frame owner => Sys2Proof.Machine.execAssignFrame frame owner s
  | .rekeyFrame frame owner => Sys2Proof.Machine.execRekeyFrame frame owner s
  | .releaseFrame frame => Sys2Proof.Machine.execReleaseFrame frame s
  | .queryFrame frame => Sys2Proof.Machine.execQueryFrame frame s
  | .owncmdDone => Sys2Proof.Machine.execOwncmdDone s
  | .bwWindow stack want => Sys2Proof.Machine.execBwWindow stack want s
  | .hbmThermalLevelChange stack temp => Sys2Proof.Machine.execHbmThermalLevelChange stack temp s
  | .functionLevelReset vf => Sys2Proof.Machine.execFunctionLevelReset vf s
  | .flrComplete vf => Sys2Proof.Machine.execFlrComplete vf s
  | .vfEnableClear => Sys2Proof.Machine.execVfEnableClear s
  | .vfEnableSet num => Sys2Proof.Machine.execVfEnableSet num s
  | .getVersion fn => Sys2Proof.Machine.execGetVersion fn s
  | .getCapabilities fn => Sys2Proof.Machine.execGetCapabilities fn s
  | .negotiateAlgorithms fn => Sys2Proof.Machine.execNegotiateAlgorithms fn s
  | .getDigests fn => Sys2Proof.Machine.execGetDigests fn s
  | .getCertificate fn slot off len => Sys2Proof.Machine.execGetCertificate fn slot off len s
  | .spdmChallenge fn slot nonce => Sys2Proof.Machine.execSpdmChallenge fn slot nonce s
  | .getMeasurements fn index => Sys2Proof.Machine.execGetMeasurements fn index s
  | .keyExchange fn slot body => Sys2Proof.Machine.execKeyExchange fn slot body s
  | .spdmFinish fn => Sys2Proof.Machine.execSpdmFinish fn s
  | .spdmHeartbeat fn => Sys2Proof.Machine.execSpdmHeartbeat fn s
  | .spdmEndSession fn => Sys2Proof.Machine.execSpdmEndSession fn s
  | .ideKm fn body => Sys2Proof.Machine.execIdeKm fn body s
  | .tdispMessage fn m => Sys2Proof.Machine.execTdispMessage fn m s
  | .getExportKey fn body => Sys2Proof.Machine.execGetExportKey fn body s
  | .setImportKey fn body => Sys2Proof.Machine.execSetImportKey fn body s
  | .moduleReset => Sys2Proof.Machine.execModuleReset s
  | .fwloadWrite len => Sys2Proof.Machine.execFwloadWrite len s
  | .qtabCtlWrite slice k v => Sys2Proof.Machine.execQtabCtlWrite slice k v s
  | .pktLaunch slice k => Sys2Proof.Machine.execPktLaunch slice k s
  | .pktCopy slice k => Sys2Proof.Machine.execPktCopy slice k s
  | .pktCopy2d slice k => Sys2Proof.Machine.execPktCopy2d slice k s
  | .pktColl slice k => Sys2Proof.Machine.execPktColl slice k s
  | .pktCwait slice k => Sys2Proof.Machine.execPktCwait slice k s
  | .pktCadd slice k => Sys2Proof.Machine.execPktCadd slice k s
  | .pktMarker slice k => Sys2Proof.Machine.execPktMarker slice k s
  | .pktRegion slice k => Sys2Proof.Machine.execPktRegion slice k s
  | .wgDeal slice launch => Sys2Proof.Machine.execWgDeal slice launch s
  | .wgResident core => Sys2Proof.Machine.execWgResident core s
  | .copyPieceStart die eng => Sys2Proof.Machine.execCopyPieceStart die eng s
  | .copyPieceLand die eng => Sys2Proof.Machine.execCopyPieceLand die eng s
  | .patrolScrub site uncorrectable => Sys2Proof.Machine.execPatrolScrub site uncorrectable s
  | .dkill slice v => Sys2Proof.Machine.execDkill slice v s
  | .killComplete slice => Sys2Proof.Machine.execKillComplete slice s
  | .strikeReport die cl => Sys2Proof.Machine.execStrikeReport die cl s
  | .strikeResume die cl => Sys2Proof.Machine.execStrikeResume die cl s
  | .engineCompareMismatch slice eng => Sys2Proof.Machine.execEngineCompareMismatch slice eng s
  | .correctedError stack ch bank row col => Sys2Proof.Machine.execCorrectedError stack ch bank row col s
  | .repairDone stack => Sys2Proof.Machine.execRepairDone stack s
  | .bankRetire stack v => Sys2Proof.Machine.execBankRetire stack v s
  | .infieldTestStart core => Sys2Proof.Machine.execInfieldTestStart core s
  | .infieldTestDone core pass => Sys2Proof.Machine.execInfieldTestDone core pass s
  | .slotIssue core part slot => Sys2Proof.Machine.execSlotIssue core part slot s
  | .starvationFlag gid born => Sys2Proof.Machine.execStarvationFlag gid born s
  | .clusterIdle die cl => Sys2Proof.Machine.execClusterIdle die cl s
  | .admissionGrant die => Sys2Proof.Machine.execAdmissionGrant die s
  | .binForm die bin => Sys2Proof.Machine.execBinForm die bin s
  | .gatheredResident slice launch => Sys2Proof.Machine.execGatheredResident slice launch s
  | .evictFor core wg => Sys2Proof.Machine.execEvictFor core wg s
  | .groupRestore gid => Sys2Proof.Machine.execGroupRestore gid s
  | .switchTick slice => Sys2Proof.Machine.execSwitchTick slice s
  | .tickSaveDeadline slice => Sys2Proof.Machine.execTickSaveDeadline slice s
  | .ladderGraceExpiry slice => Sys2Proof.Machine.execLadderGraceExpiry slice s
  | .ladderKillExpiry slice => Sys2Proof.Machine.execLadderKillExpiry slice s
  | .i2DrainTimeout gid => Sys2Proof.Machine.execI2DrainTimeout gid s
  | .freezeComplete gid => Sys2Proof.Machine.execFreezeComplete gid s
  | .quiesce slice => Sys2Proof.Machine.execQuiesce slice s
  | .quiesceDone slice => Sys2Proof.Machine.execQuiesceDone slice s
  | .exportReam slice => Sys2Proof.Machine.execExportReam slice s
  | .importReam slice => Sys2Proof.Machine.execImportReam slice s
  | .migResume slice => Sys2Proof.Machine.execMigResume slice s
  | .reshape slice => Sys2Proof.Machine.execReshape slice s
  | .mergeSlices slice peer => Sys2Proof.Machine.execMergeSlices slice peer s
  | .splitSlice slice peer => Sys2Proof.Machine.execSplitSlice slice peer s
  | .splitMerge gid => Sys2Proof.Machine.execSplitMerge gid s
  | .groupSave gid => Sys2Proof.Machine.execGroupSave gid s
  | .groupRetire gid => Sys2Proof.Machine.execGroupRetire gid s
  | .entryComplete gid ent => Sys2Proof.Machine.execEntryComplete gid ent s
  | .i1HomeRequest gid ent lane => Sys2Proof.Machine.execI1HomeRequest gid ent lane s
  | .scrubDone core => Sys2Proof.Machine.execScrubDone core s
  | .pageWalk core va acc => Sys2Proof.Machine.execPageWalk core va acc s
  | .tlbinvStart slice host => Sys2Proof.Machine.execTlbinvStart slice host s
  | .tlbinvDone slice host => Sys2Proof.Machine.execTlbinvDone slice host s
  | .ringCtlWrite fn ring v => Sys2Proof.Machine.execRingCtlWrite fn ring v s
  | .ringHeadWrite fn ring v => Sys2Proof.Machine.execRingHeadWrite fn ring v s
  | .ringBaseWrite fn ring hi v => Sys2Proof.Machine.execRingBaseWrite fn ring hi v s
  | .reportGrant => Sys2Proof.Machine.execReportGrant s
  | .faultackRetry fn token => Sys2Proof.Machine.execFaultackRetry fn token s
  | .faultackFail fn token => Sys2Proof.Machine.execFaultackFail fn token s
  | .dbgResume slice => Sys2Proof.Machine.execDbgResume slice s
  | .dbgStep slice => Sys2Proof.Machine.execDbgStep slice s
  | .dbgDump slice => Sys2Proof.Machine.execDbgDump slice s
  | .dbgResumeAll slice => Sys2Proof.Machine.execDbgResumeAll slice s
  | .dumpTimeout gid => Sys2Proof.Machine.execDumpTimeout gid s
  | .evselWrite slice k v => Sys2Proof.Machine.execEvselWrite slice k v s
  | .allowWrite slice mode w v => Sys2Proof.Machine.execAllowWrite slice mode w v s
  | .waitWake gid born => Sys2Proof.Machine.execWaitWake gid born s
  | .promiseDeadline gid born => Sys2Proof.Machine.execPromiseDeadline gid born s
  | .sleepDeadline gid born => Sys2Proof.Machine.execSleepDeadline gid born s
  | .mmaOpStart core => Sys2Proof.Machine.execMmaOpStart core s
  | .arrayTileWrite core faults => Sys2Proof.Machine.execArrayTileWrite core faults s
  | .nopH => Sys2Proof.Machine.execNopH s
  | .mov16 f => Sys2Proof.Machine.execMov16 f s
  | .addI3216 f => Sys2Proof.Machine.execAddI3216 f s
  | .subI3216 f => Sys2Proof.Machine.execSubI3216 f s
  | .addF3216 f => Sys2Proof.Machine.execAddF3216 f s
  | .subF3216 f => Sys2Proof.Machine.execSubF3216 f s
  | .mulF3216 f => Sys2Proof.Machine.execMulF3216 f s
  | .maxF3216 f => Sys2Proof.Machine.execMaxF3216 f s
  | .minF3216 f => Sys2Proof.Machine.execMinF3216 f s
  | .and16 f => Sys2Proof.Machine.execAnd16 f s
  | .or16 f => Sys2Proof.Machine.execOr16 f s
  | .xor16 f => Sys2Proof.Machine.execXor16 f s
  | .shl16 f => Sys2Proof.Machine.execShl16 f s
  | .shr16 f => Sys2Proof.Machine.execShr16 f s
  | .mulI3216 f => Sys2Proof.Machine.execMulI3216 f s
  | .maxI3216 f => Sys2Proof.Machine.execMaxI3216 f s
  | .addF16x216 f => Sys2Proof.Machine.execAddF16x216 f s
  | .movi f => Sys2Proof.Machine.execMovi f s
  | .movhi f => Sys2Proof.Machine.execMovhi f s
  | .addiI32 f => Sys2Proof.Machine.execAddiI32 f s
  | .muliI32 f => Sys2Proof.Machine.execMuliI32 f s
  | .andi f => Sys2Proof.Machine.execAndi f s
  | .ori f => Sys2Proof.Machine.execOri f s
  | .xori f => Sys2Proof.Machine.execXori f s
  | .shli f => Sys2Proof.Machine.execShli f s
  | .addiF32 f => Sys2Proof.Machine.execAddiF32 f s
  | .muliF32 f => Sys2Proof.Machine.execMuliF32 f s
  | .moviF16x2 f => Sys2Proof.Machine.execMoviF16x2 f s
  | .addiF16x2 f => Sys2Proof.Machine.execAddiF16x2 f s
  | .muliF16x2 f => Sys2Proof.Machine.execMuliF16x2 f s
  | .addiBf16x2 f => Sys2Proof.Machine.execAddiBf16x2 f s
  | .muliBf16x2 f => Sys2Proof.Machine.execMuliBf16x2 f s
  | .moviF8x4 f => Sys2Proof.Machine.execMoviF8x4 f s
  | .add f => Sys2Proof.Machine.execAdd f s
  | .sub f => Sys2Proof.Machine.execSub f s
  | .mul f => Sys2Proof.Machine.execMul f s
  | .fma f => Sys2Proof.Machine.execFma f s
  | .minL f => Sys2Proof.Machine.execMinL f s
  | .maxL f => Sys2Proof.Machine.execMaxL f s
  | .andL f => Sys2Proof.Machine.execAndL f s
  | .orL f => Sys2Proof.Machine.execOrL f s
  | .xorL f => Sys2Proof.Machine.execXorL f s
  | .andn f => Sys2Proof.Machine.execAndn f s
  | .shl f => Sys2Proof.Machine.execShl f s
  | .shr f => Sys2Proof.Machine.execShr f s
  | .sar f => Sys2Proof.Machine.execSar f s
  | .rol f => Sys2Proof.Machine.execRol f s
  | .mulhHi f => Sys2Proof.Machine.execMulhHi f s
  | .mulhWide f => Sys2Proof.Machine.execMulhWide f s
  | .rcp f => Sys2Proof.Machine.execRcp f s
  | .rsq f => Sys2Proof.Machine.execRsq f s
  | .sqrt f => Sys2Proof.Machine.execSqrt f s
  | .exp2 f => Sys2Proof.Machine.execExp2 f s
  | .log2 f => Sys2Proof.Machine.execLog2 f s
  | .sin f => Sys2Proof.Machine.execSin f s
  | .cos f => Sys2Proof.Machine.execCos f s
  | .tanh f => Sys2Proof.Machine.execTanh f s
  | .cvt f => Sys2Proof.Machine.execCvt f s
  | .pk f => Sys2Proof.Machine.execPk f s
  | .upk f => Sys2Proof.Machine.execUpk f s
  | .cmpI32 f => Sys2Proof.Machine.execCmpI32 f s
  | .cmpN32 f => Sys2Proof.Machine.execCmpN32 f s
  | .cmpF32 f => Sys2Proof.Machine.execCmpF32 f s
  | .cmpxF32 f => Sys2Proof.Machine.execCmpxF32 f s
  | .sel f => Sys2Proof.Machine.execSel f s
  | .dp4 f => Sys2Proof.Machine.execDp4 f s
  | .dp2 f => Sys2Proof.Machine.execDp2 f s
  | .popc f => Sys2Proof.Machine.execPopc f s
  | .clz f => Sys2Proof.Machine.execClz f s
  | .brev f => Sys2Proof.Machine.execBrev f s
  | .ffs f => Sys2Proof.Machine.execFfs f s
  | .bfe f => Sys2Proof.Machine.execBfe f s
  | .bfi f => Sys2Proof.Machine.execBfi f s
  | .perm f => Sys2Proof.Machine.execPerm f s
  | .shfl f => Sys2Proof.Machine.execShfl f s
  | .voteAll f => Sys2Proof.Machine.execVoteAll f s
  | .voteAny f => Sys2Proof.Machine.execVoteAny f s
  | .voteBallot f => Sys2Proof.Machine.execVoteBallot f s
  | .voteEq f => Sys2Proof.Machine.execVoteEq f s
  | .gred f => Sys2Proof.Machine.execGred f s
  | .xmovVs f => Sys2Proof.Machine.execXmovVs f s
  | .xmovSv f => Sys2Proof.Machine.execXmovSv f s
  | .xmovVp f => Sys2Proof.Machine.execXmovVp f s
  | .xmovPv f => Sys2Proof.Machine.execXmovPv f s
  | .sadd f => Sys2Proof.Machine.execSadd f s
  | .ssub f => Sys2Proof.Machine.execSsub f s
  | .smul f => Sys2Proof.Machine.execSmul f s
  | .sand f => Sys2Proof.Machine.execSand f s
  | .sor f => Sys2Proof.Machine.execSor f s
  | .sxor f => Sys2Proof.Machine.execSxor f s
  | .sshl f => Sys2Proof.Machine.execSshl f s
  | .sshr f => Sys2Proof.Machine.execSshr f s
  | .scmp f => Sys2Proof.Machine.execScmp f s
  | .add64 f => Sys2Proof.Machine.execAdd64 f s
  | .sub64 f => Sys2Proof.Machine.execSub64 f s
  | .sadd64 f => Sys2Proof.Machine.execSadd64 f s
  | .mad64 f => Sys2Proof.Machine.execMad64 f s
  | .ldB f => Sys2Proof.Machine.execLdB f s
  | .ldBn f => Sys2Proof.Machine.execLdBn f s
  | .ldH f => Sys2Proof.Machine.execLdH f s
  | .ldHn f => Sys2Proof.Machine.execLdHn f s
  | .ldW f => Sys2Proof.Machine.execLdW f s
  | .ldD f => Sys2Proof.Machine.execLdD f s
  | .ldQ f => Sys2Proof.Machine.execLdQ f s
  | .stB f => Sys2Proof.Machine.execStB f s
  | .stH f => Sys2Proof.Machine.execStH f s
  | .stW f => Sys2Proof.Machine.execStW f s
  | .stD f => Sys2Proof.Machine.execStD f s
  | .stQ f => Sys2Proof.Machine.execStQ f s
  | .ldsW f => Sys2Proof.Machine.execLdsW f s
  | .ldsD f => Sys2Proof.Machine.execLdsD f s
  | .stsW f => Sys2Proof.Machine.execStsW f s
  | .pf f => Sys2Proof.Machine.execPf f s
  | .atomA f => Sys2Proof.Machine.execAtomA f s
  | .atomB f => Sys2Proof.Machine.execAtomB f s
  | .atomC f => Sys2Proof.Machine.execAtomC f s
  | .red f => Sys2Proof.Machine.execRed f s
  | .fence f => Sys2Proof.Machine.execFence f s
  | .phaseClose f => Sys2Proof.Machine.execPhaseClose f s
  | .phaseOpen f => Sys2Proof.Machine.execPhaseOpen f s
  | .phaseCycle f => Sys2Proof.Machine.execPhaseCycle f s
  | .phaseTest f => Sys2Proof.Machine.execPhaseTest f s
  | .barArrive f => Sys2Proof.Machine.execBarArrive f s
  | .barWait f => Sys2Proof.Machine.execBarWait f s
  | .barArriveWait f => Sys2Proof.Machine.execBarArriveWait f s
  | .barCount f => Sys2Proof.Machine.execBarCount f s
  | .arrArrive f => Sys2Proof.Machine.execArrArrive f s
  | .arrExpect f => Sys2Proof.Machine.execArrExpect f s
  | .arrTest f => Sys2Proof.Machine.execArrTest f s
  | .arrWait f => Sys2Proof.Machine.execArrWait f s
  | .cpIssue f => Sys2Proof.Machine.execCpIssue f s
  | .cpIssue2d f => Sys2Proof.Machine.execCpIssue2d f s
  | .cpRekey f => Sys2Proof.Machine.execCpRekey f s
  | .cpCancel f => Sys2Proof.Machine.execCpCancel f s
  | .stMc f => Sys2Proof.Machine.execStMc f s
  | .ldRedAddF32 f => Sys2Proof.Machine.execLdRedAddF32 f s
  | .ldRedAddBf16 f => Sys2Proof.Machine.execLdRedAddBf16 f s
  | .ldRedMaxF32 f => Sys2Proof.Machine.execLdRedMaxF32 f s
  | .cntAdd f => Sys2Proof.Machine.execCntAdd f s
  | .cntRd f => Sys2Proof.Machine.execCntRd f s
  | .cntWait f => Sys2Proof.Machine.execCntWait f s
  | .cntTest f => Sys2Proof.Machine.execCntTest f s
  | .tileTld f => Sys2Proof.Machine.execTileTld f s
  | .tileTst f => Sys2Proof.Machine.execTileTst f s
  | .tileTzero f => Sys2Proof.Machine.execTileTzero f s
  | .tileTcvt f => Sys2Proof.Machine.execTileTcvt f s
  | .mmaIssueCore f => Sys2Proof.Machine.execMmaIssueCore f s
  | .mmaIssueCl f => Sys2Proof.Machine.execMmaIssueCl f s
  | .mmaWait f => Sys2Proof.Machine.execMmaWait f s
  | .mmaFence f => Sys2Proof.Machine.execMmaFence f s
  | .collIssue f => Sys2Proof.Machine.execCollIssue f s
  | .collWait f => Sys2Proof.Machine.execCollWait f s
  | .collTest f => Sys2Proof.Machine.execCollTest f s
  | .collSignal f => Sys2Proof.Machine.execCollSignal f s
  | .contEmit f => Sys2Proof.Machine.execContEmit f s
  | .contFlush f => Sys2Proof.Machine.execContFlush f s
  | .bra f => Sys2Proof.Machine.execBra f s
  | .brP f => Sys2Proof.Machine.execBrP f s
  | .brAny f => Sys2Proof.Machine.execBrAny f s
  | .brAll f => Sys2Proof.Machine.execBrAll f s
  | .call f => Sys2Proof.Machine.execCall f s
  | .ret f => Sys2Proof.Machine.execRet f s
  | .jmpR f => Sys2Proof.Machine.execJmpR f s
  | .rcv f => Sys2Proof.Machine.execRcv f s
  | .yieldSplit f => Sys2Proof.Machine.execYieldSplit f s
  | .resync f => Sys2Proof.Machine.execResync f s
  | .exitLanes f => Sys2Proof.Machine.execExitLanes f s
  | .swTrap f => Sys2Proof.Machine.execSwTrap f s
  | .sleepUntil f => Sys2Proof.Machine.execSleepUntil f s
  | .sleepNs f => Sys2Proof.Machine.execSleepNs f s
  | .sleepYield f => Sys2Proof.Machine.execSleepYield f s
  | .srRd f => Sys2Proof.Machine.execSrRd f s
  | .srWr f => Sys2Proof.Machine.execSrWr f s
  | .ctrRd f => Sys2Proof.Machine.execCtrRd f s
  | .ctrStart f => Sys2Proof.Machine.execCtrStart f s
  | .ctrStop f => Sys2Proof.Machine.execCtrStop f s
  | .ctrMark f => Sys2Proof.Machine.execCtrMark f s
  | .brk f => Sys2Proof.Machine.execBrk f s
  | .boostClaim f => Sys2Proof.Machine.execBoostClaim f s
  | .boostRelease f => Sys2Proof.Machine.execBoostRelease f s
  | .boostQuery f => Sys2Proof.Machine.execBoostQuery f s
  | .rfe f => Sys2Proof.Machine.execRfe f s
  | .nop f => Sys2Proof.Machine.execNop f s
  | .nopWaitsb f => Sys2Proof.Machine.execNopWaitsb f s
  | .maskRd f => Sys2Proof.Machine.execMaskRd f s
  | .maskWr f => Sys2Proof.Machine.execMaskWr f s
  | .pand f => Sys2Proof.Machine.execPand f s
  | .por f => Sys2Proof.Machine.execPor f s
  | .pxor f => Sys2Proof.Machine.execPxor f s
  | .pnot f => Sys2Proof.Machine.execPnot f s
  | .chartSel f => Sys2Proof.Machine.execChartSel f s
  | .chartRd f => Sys2Proof.Machine.execChartRd f s
  | .pktBadType slice k => Sys2Proof.Machine.execPktBadType slice k s
  | .rdmaInbound slice r => Sys2Proof.Machine.execRdmaInbound slice r s

end Sys2Proof.Machine
end

