-- ==== Sys2Proof/Machine/Step.lean ====
section
/-! DEFINITION. The step of the machine, and the placing of an instruction where the next step fetches (log 1, 2). -/

namespace Sys2Proof.Machine

/-- An outcome after the step's own bookkeeping: the fix that a split was let pass counts again once it has issued. -/
def closeIssue (s : State) (gid born : Nat) (o : Host.Outcome State Fault Refusal) : Host.Outcome State Fault Refusal :=
  match o with
  | .next t => .next (s.clearSkip t gid born)
  | .fault f => .fault f
  | .refused r => .refused r

/-- One step. The split that the scheduler chose issues its instruction; else the oldest operation or event posted is
performed; else time goes on. -/
def step (s : State) : Host.Outcome State Fault Refusal :=
  match s.cur with
  | some (gid, born) =>
    match s.front gid born with
    | .done t => .next t
    | .run i t => closeIssue t gid born (exec i t)
  | none =>
    match s.agenda with
    | i :: r => if Instr.posted i then exec i { s with agenda := r } else .next { s with agenda := r }
    | [] => .next s.idle

/-- The state with an instruction where the next step fetches: at the program counter of the split that issues, or, when
none does, at that of a group that a launch has made resident (log 2). -/
def State.withFetchWord (s : State) (nbits w : Nat) : State :=
  let b := Sys2Proof.tableBytes nbits w
  match s.fetchPlace with
  | some a => s.setMem a b
  | none => s.boot.setMem bootPc b

end Sys2Proof.Machine
end

