-- ==== Sys2Proof/Safety.lean ====
section
/-! DEFINITION. What counts as a safe run of the machine, and the terms in which claims speak of one instruction: when it
issues, what its next state keeps, and what a result register holds. -/

namespace Sys2Proof.Safety

open Machine

/-- A step that neither faults nor is refused. -/
def Safe (s : State) : Prop := ∃ t, step s = .next t

/-- The states that a number of steps reach from a state, each step safe. -/
inductive Reach (s : State) : State → Prop where
  | start : Reach s s
  | next {t u : State} : Reach s t → step t = .next u → Reach s u

/-- A run that stays safe: every state it reaches makes a safe step. -/
def SafeRun (s : State) : Prop := ∀ t, Reach s t → Safe t

/-- The canonical form of the three byte memories. -/
def Canonical (s : State) : Prop :=
  Memory.wf memDefault s.mem = true ∧ Memory.wf zeroDefault s.hostMem = true ∧ Memory.wf zeroDefault s.spad = true

/-! ## One instruction -/

/-- The instruction answers a next state of which something holds. -/
def Gives (i : Instr) (s : State) (post : State → Prop) : Prop := ∃ t, exec i s = .next t ∧ post t

/-- Split p of group gid issues instruction i in state s: it is the split of the slot, the word is legal for the kernel's
REGS (R278), the split is ready (R124) on a die that powers its slot (R17), no hazard of R274 is raised, and its token can be paid
(R128, R130). -/
structure Issues (i : Instr) (s : State) (gid : Nat) (g : Group) (p : Split) : Prop where
  cur : s.cur = some (gid, p.born)
  group : Tbl.find s.groups gid = some g
  split : g.split? p.born = some p
  legal : illegalDetail i g.regs = 0
  ready : s.ready gid g p i = true
  powered : slotPowered (s.die (dieOf g.core)) (view i).slot = true
  clean : (g.fmode.getLsbD 15 && g.anyHazard (s.now g.core) (readsOf i ++ writesOf i)) = false
  pays : s.canPay gid g p i = true

/-- The context and the state in which the effect of an issuing instruction takes place. -/
def ctx (i : Instr) (s : State) (gid : Nat) (g : Group) (p : Split) : Cx := s.cx gid g p i
def afterIssue (i : Instr) (s : State) (gid : Nat) (g : Group) (p : Split) : State :=
  State.issued { s with cur := none } gid g p i

/-- The instruction raises a cause of its own for every lane of its split (R166): it does not issue, and the trap is taken. -/
def Raises (i : Instr) (s : State) (gid : Nat) (_g : Group) (p : Split) (r : TrapInfo) : Prop :=
  exec i s = .next (State.takeTrap { s with cur := none } gid p.born { r with mask := p.mask, pc := p.pc, rpc := p.pc })

/-! ## Frames -/

/-- No byte of any memory, no element of the tile store, no byte of an L1 and no unpublished byte at a home differs. -/
structure SameMemory (s t : State) : Prop where
  mem : ∀ a, t.memByte a = s.memByte a
  host : ∀ a, t.hostByte a = s.hostByte a
  spad : ∀ c o, t.spadByte c o = s.spadByte c o
  tile : t.tile = s.tile
  lines : ∀ c, (t.core c).lines = (s.core c).lines
  unpub : ∀ d, (t.die d).unpub = (s.die d).unpub

/-- The registers of a group outside a list, numbered as readsOf and writesOf number them: v n is n, s n is 64 + n and p n is
96 + n. -/
structure KeepsRegs (ex : List Nat) (g g' : Group) : Prop where
  v : ∀ n < 64, n ∉ ex → ∀ l < 32, g'.vReg n l = g.vReg n l
  s : ∀ n < 32, 64 + n ∉ ex → g'.sReg n = g.sReg n
  p : ∀ n < 8, 96 + n ∉ ex → g'.pReg n = g.pReg n

/-- Everything of a group but its register files, its windows, its splits, FMODE and the two counts of issue: the trap record
and TRAP.CTL, the logbook, the scratchpad and private windows, the claim bit and the rest. -/
def rest (g : Group) : Group :=
  { g with v := [], s := [], p := [], hz := [], splits := [], fmode := 0, lastCyc := 0, count_ := 0 }

/-- None of that differs. -/
def KeepsRest (g g' : Group) : Prop := rest g' = rest g

/-- The issuing split is at an address, held for its stall count (R272); its mask, state and merge stack are as they were,
and so are the group's other splits. -/
structure MovesTo (i : Instr) (s : State) (g : Group) (p : Split) (g' : Group) (a : DWord) : Prop where
  split : ∃ q, g'.split? p.born = some q ∧ q.pc = a ∧
    q.readyAt = s.now g.core + 1 + (view i).w ∧ q.mask = p.mask ∧ q.st = p.st ∧ q.stack = p.stack ∧ q.held = p.held
  others : ∀ b, b ≠ p.born → g'.split? b = g.split? b

/-- The issuing split goes on at the next instruction. -/
abbrev GoesOn (i : Instr) (s : State) (g : Group) (p : Split) (g' : Group) : Prop :=
  MovesTo i s g p g' (p.pc + BitVec.ofNat 64 (instrLen i))

/-- What an instruction that only writes registers, those of a list, leaves alone. -/
structure RegsOnly (ex : List Nat) (s t : State) (gid : Nat) (g : Group) : Prop where
  memory : SameMemory s t
  groups : ∀ h, h ≠ gid → Tbl.find t.groups h = Tbl.find s.groups h
  regs : KeepsRegs ex g (t.group gid)
  rest : KeepsRest g (t.group gid)

/-- A lane register after the instruction (R292): the active lanes hold the result, and the others what they held. Where the write
meets another that has not yet settled, the lanes of both are undefined (R273, R294). -/
def LaneHolds (c : Cx) (g' : Group) (n : Nat) (val : Nat → Word) : Prop :=
  ∀ l < 32, g'.vReg n l = if (c.spread n).getLsbD l then c.put n l (val l) else c.g.vReg n l

/-- A predicate after the instruction; p7 reads 1 in every lane (R158). -/
def PredHolds (c : Cx) (g' : Group) (n : Nat) (val : Nat → Bool) : Prop :=
  ∀ l < 32, (g'.pReg n).getLsbD l =
    if n = 7 then true
    else if (c.spread (96 + n)).getLsbD l then (c.put (96 + n) l (BitVec.ofNat 32 (b2n (val l)))).getLsbD 0 else (c.g.pReg n).getLsbD l

/-- A group-scalar register after the instruction. -/
def ScalarHolds (c : Cx) (g' : Group) (n : Nat) (val : Word) : Prop := g'.sReg n = c.put (64 + n) 0 val

/-- FMODE after flags were ORed into its bits 12 to 8 (R257, R258). -/
def FlagsRaised (g g' : Group) (fl : Nat) : Prop := g'.fmode = g.fmode ||| BitVec.ofNat 32 (fl % 32 * 256)

/-- The instruction issues and writes a lane register with values of its context, raises flags, and changes nothing else. -/
def GivesLane (i : Instr) (n : Cx → Nat) (val : Cx → Nat → Word) (fl : Cx → Nat := fun _ => 0) : Prop :=
  ∀ s gid g p, Issues i s gid g p → Gives i s (fun t =>
    let c := ctx i s gid g p
    LaneHolds c (t.group gid) (n c) (val c) ∧ FlagsRaised g (t.group gid) (fl c) ∧
      RegsOnly [n c] s t gid g ∧ GoesOn i s g p (t.group gid))

/-- A lane result whose value and flags come from one function: each active lane's value, and the OR of their flags (R258). -/
def GivesFlagged (i : Instr) (n : Cx → Nat) (val : Cx → Nat → Flagged) : Prop :=
  GivesLane i n (fun c l => BitVec.ofNat 32 (val c l).1) (fun c => allFlags (c.lanes.map (val c)))

/-- The relations of R304 on two values: 0 eq, 1 ne, 2 lt, 3 le, 4 gt, 5 ge, 6 un, 7 num. -/
def relates (x y : Machine.Num) (op : Nat) : Bool :=
  let un := x.isNan || y.isNan
  if op = 6 then un
  else if op = 7 then !un
  else if un then op == 1
  else
    let c := cmpNum x y
    if op = 0 then decide (c = 0) else if op = 1 then decide (c ≠ 0) else if op = 2 then decide (c < 0)
    else if op = 3 then decide (c ≤ 0) else if op = 4 then decide (0 < c) else decide (0 ≤ c)

/-- The instruction issues and changes nothing but the program counter of its split. -/
def GivesNothing (i : Instr) : Prop :=
  ∀ s gid g p, Issues i s gid g p → Gives i s (fun t =>
    (t.group gid).fmode = g.fmode ∧ RegsOnly [] s t gid g ∧ GoesOn i s g p (t.group gid))

/-- The same for a lane pair, its even register low (R270). -/
def GivesLanePair (i : Instr) (n : Cx → Nat) (val : Cx → Nat → DWord) : Prop :=
  ∀ s gid g p, Issues i s gid g p → Gives i s (fun t =>
    let c := ctx i s gid g p
    LaneHolds c (t.group gid) (n c) (fun l => (val c l).extractLsb' 0 32) ∧
      LaneHolds c (t.group gid) (n c + 1) (fun l => (val c l).extractLsb' 32 32) ∧ (t.group gid).fmode = g.fmode ∧
      RegsOnly [n c, n c + 1] s t gid g ∧ GoesOn i s g p (t.group gid))

/-- The same for a predicate. -/
def GivesPred (i : Instr) (n : Cx → Nat) (val : Cx → Nat → Bool) (fl : Cx → Nat := fun _ => 0) : Prop :=
  ∀ s gid g p, Issues i s gid g p → Gives i s (fun t =>
    let c := ctx i s gid g p
    PredHolds c (t.group gid) (n c) (val c) ∧ FlagsRaised g (t.group gid) (fl c) ∧
      RegsOnly [96 + n c] s t gid g ∧ GoesOn i s g p (t.group gid))

/-- The same for a group-scalar register. -/
def GivesScalar (i : Instr) (n : Cx → Nat) (val : Cx → Word) (fl : Cx → Nat := fun _ => 0) : Prop :=
  ∀ s gid g p, Issues i s gid g p → Gives i s (fun t =>
    let c := ctx i s gid g p
    ScalarHolds c (t.group gid) (n c) (val c) ∧ FlagsRaised g (t.group gid) (fl c) ∧
      RegsOnly [64 + n c] s t gid g ∧ GoesOn i s g p (t.group gid))

/-- The same for a group-scalar pair. -/
def GivesScalarPair (i : Instr) (n : Cx → Nat) (val : Cx → DWord) : Prop :=
  ∀ s gid g p, Issues i s gid g p → Gives i s (fun t =>
    let c := ctx i s gid g p
    ScalarHolds c (t.group gid) (n c) ((val c).extractLsb' 0 32) ∧
      ScalarHolds c (t.group gid) (n c + 1) ((val c).extractLsb' 32 32) ∧ (t.group gid).fmode = g.fmode ∧
      RegsOnly [64 + n c, 64 + n c + 1] s t gid g ∧ GoesOn i s g p (t.group gid))

/-- The rational number (-1)^neg × m × 2^e. -/
def ratOf (neg : Bool) (m : Nat) (e : Int) : ℚ := (if neg then -1 else 1) * (m * (2 : ℚ) ^ e)

/-! ## The logbook -/

/-- Everything of a group but its register files, its windows, its splits, FMODE, the two counts of issue and its logbook. -/
def restLog (g : Group) : Group := { rest g with log := [], nextNum := 0 }

/-- The instruction leaves an entry at the end of the logbook (R180, R322) and changes nothing else of its group but its
split's program counter, no other group and no byte of memory. -/
structure Records (i : Instr) (s t : State) (gid : Nat) (g : Group) (p : Split) (e : Entry) : Prop where
  log : (t.group gid).log = g.log ++ [e]
  num : (t.group gid).nextNum = g.nextNum + 1
  rest : restLog (t.group gid) = restLog g
  regs : KeepsRegs [] g (t.group gid)
  fmode : (t.group gid).fmode = g.fmode
  memory : SameMemory s t
  groups : ∀ h, h ≠ gid → Tbl.find t.groups h = Tbl.find s.groups h
  goes : GoesOn i s g p (t.group gid)

/-- The entry of an instruction as it stands after its issue: no lane done, not failed, its registers, its pieces. -/
structure Fresh (i : Instr) (g : Group) (p : Split) (kind cls : Nat) (accs : List Acc) (e : Entry) : Prop where
  kind : e.kind = kind
  cls : e.cls = cls
  mask : e.mask = p.mask
  done : e.done = 0
  failed : e.failed = false
  pc : e.pc = p.pc
  insn : e.insn = insnOf i
  acc : e.acc = accs
  num : e.num = g.nextNum
  id : e.id = freePlace g.log

/-- The instruction issues and records such an entry, whose destinations are the registers it writes. -/
def RecordsAs (i : Instr) (s : State) (gid : Nat) (g : Group) (p : Split) (kind cls : Nat) (accs : List Acc) : Prop :=
  Gives i s (fun t => ∃ e, Records i s t gid g p e ∧ Fresh i g p kind cls accs e ∧ e.dst = writesOf i)

/-- The trap of an instruction that does not issue, as given. -/
def Traps (i : Instr) (s : State) (gid : Nat) (p : Split) (r : TrapInfo) : Prop :=
  exec i s = .next (State.takeTrap { s with cur := none } gid p.born r)

/-- An access of every active lane at its own address: the pieces that R188 gives are recorded, with a KIND, a class and
operands; a failing lane traps instead. -/
def LaneAccess (i : Instr) (o : AccOpt) (size : Nat) (addr : Cx → Nat → DWord) (kind : Group → List Acc → Nat × Nat)
    (data : Cx → List Acc → List Acc) : Prop :=
  ∀ s gid g p, Issues i s gid g p →
    let c := ctx i s gid g p
    let u := afterIssue i s gid g p
    (∀ accs, c.checkLanes u o size (addr c) = .ok accs →
      RecordsAs i s gid g p (kind g accs).1 (kind g accs).2 (data c accs)) ∧
    (∀ r, c.checkLanes u o size (addr c) = .error r → Traps i s gid p r)

/-- An access at one address (R320, R350): that of the lowest active lane. -/
def OneAccess (i : Instr) (o : AccOpt) (size : Nat) (addr : Cx → DWord) (kind : Group → List Acc → Nat × Nat)
    (data : Cx → List Acc → List Acc) : Prop :=
  ∀ s gid g p, Issues i s gid g p →
    let c := ctx i s gid g p
    let u := afterIssue i s gid g p
    (∀ accs, c.checkOne u o size (addr c) = .ok accs →
      RecordsAs i s gid g p (kind g accs).1 (kind g accs).2 (data c accs)) ∧
    (∀ r, c.checkOne u o size (addr c) = .error r → Traps i s gid p r)

/-- The address of a lane in layout MO (R320): OFF counts datum sizes. -/
def moAt (a : BitVec 6) (off : BitVec 8) (size : Nat) (c : Cx) (l : Nat) : DWord :=
  c.addr a.toNat l + BitVec.ofInt 64 (off.toInt * size)

/-- The issuing split sleeps at its instruction until the condition of its wait holds (R347). -/
def SleepsAt (g : Group) (p : Split) (g' : Group) (w : Wait) (mark : Option Nat) : Prop :=
  (∃ q, g'.split? p.born = some q ∧ q.st = .sleep ∧ q.why = .cond ∧ q.pc = p.pc ∧ q.mask = p.mask ∧ q.stack = p.stack ∧
    q.wait = some w ∧ q.mark = mark) ∧ (∀ b, b ≠ p.born → g'.split? b = g.split? b)

/-- The issuing split has gone on after its wait, at the next instruction. -/
def WaitOver (p : Split) (g' : Group) : Prop :=
  ∃ q, g'.split? p.born = some q ∧ q.st = .run ∧ q.pc = p.pc + 4 ∧ q.mask = p.mask ∧ q.stack = p.stack ∧ q.wait = none ∧
    q.mark = none

/-! ## Parts of the module -/

/-- Only one die differs. -/
structure OnlyDie (d : Nat) (s t : State) : Prop where
  whole : t = { s with dies := t.dies }
  others : ∀ e, e ≠ d → t.die e = s.die e

/-- Only one slice differs. -/
structure OnlySlice (k : Nat) (s t : State) : Prop where
  whole : t = { s with slices := t.slices }
  others : ∀ e, e ≠ k → t.slice e = s.slice e

/-- Only one core differs. -/
structure OnlyCore (c : Nat) (s t : State) : Prop where
  whole : t = { s with cores := t.cores }
  others : ∀ e, e ≠ c → t.core e = s.core e

/-- Only one memory stack differs. -/
structure OnlyStack (k : Nat) (s t : State) : Prop where
  whole : t = { s with hbm := t.hbm }
  others : ∀ e, e ≠ k → t.stack e = s.stack e

/-- Only one group differs. -/
structure OnlyGroup (gid : Nat) (s t : State) : Prop where
  whole : t = { s with groups := t.groups }
  others : ∀ h, h ≠ gid → Tbl.find t.groups h = Tbl.find s.groups h

/-- Only the registers and units of the module differ. -/
def OnlyModule (s t : State) : Prop := t = { s with m := t.m }

/-- No group, no byte of a memory and no element of a tile store differs. -/
structure SameWork (s t : State) : Prop where
  groups : t.groups = s.groups
  mem : t.mem = s.mem
  host : t.hostMem = s.hostMem
  spad : t.spad = s.spad
  tile : t.tile = s.tile

/-- The event finds nothing to do: the state stands as it was. -/
def Idles (i : Instr) (s : State) : Prop := exec i s = .next s

/-! ## What forms name -/

/-- Byte i of a word, signed or not. -/
def byteOf (signed : Bool) (w : Word) (i : Nat) : Int :=
  if signed then (w.extractLsb' (8 * i) 8).toInt else (w.extractLsb' (8 * i) 8).toNat

/-- One byte of perm (R310): the nibble's high half chooses the byte, 0, the sign fill or 0xFF. -/
def permPick (a : Word) (c : BitVec 4) : BitVec 8 :=
  let y := a.extractLsb' (8 * (c.extractLsb' 0 2).toNat) 8
  if c.extractLsb' 2 2 = 0 then y
  else if c.extractLsb' 2 2 = 1 then 0
  else if c.extractLsb' 2 2 = 2 then (if y.msb then 0xFF else 0)
  else 0xFF

/-- The source lane that shfl names (R311). -/
def shflSource (x : BitVec 2) (l : Nat) (t : Nat) : Int :=
  if x = 0 then t else if x = 1 then (l : Int) - t else if x = 2 then l + t else ((l ^^^ t : Nat) : Int)

end Sys2Proof.Safety
end

