-- ==== Sys2Proof/Certificates/Slice0/Obligations.lean ====
section
/-! DEFINITION. The statements for the provers. -/

open Sys2Proof Sys2Proof.Machine Sys2Proof.Safety

/-! ## Lane arithmetic (R292 to R318) -/

/-- Tier 2, stated (R298): the logic and shift forms, and the 16-bit ones with a = d. -/
def Obligations.LogicAndShifts : Prop :=
  (∀ f : RG, GivesLane (.andL f) (fun _ => f.d.toNat) (fun c l => c.v f.a.toNat l &&& c.v f.b.toNat l)) ∧
  (∀ f : RG, GivesLane (.orL f) (fun _ => f.d.toNat) (fun c l => c.v f.a.toNat l ||| c.v f.b.toNat l)) ∧
  (∀ f : RG, GivesLane (.xorL f) (fun _ => f.d.toNat) (fun c l => c.v f.a.toNat l ^^^ c.v f.b.toNat l)) ∧
  (∀ f : RG, GivesLane (.andn f) (fun _ => f.d.toNat) (fun c l => c.v f.a.toNat l &&& ~~~(c.v f.b.toNat l))) ∧
  (∀ f : RG, GivesLane (.shl f) (fun _ => f.d.toNat)
    (fun c l => c.v f.a.toNat l <<< ((c.v f.b.toNat l).extractLsb' 0 5).toNat)) ∧
  (∀ f : RG, GivesLane (.shr f) (fun _ => f.d.toNat)
    (fun c l => c.v f.a.toNat l >>> ((c.v f.b.toNat l).extractLsb' 0 5).toNat)) ∧
  (∀ f : RG, GivesLane (.sar f) (fun _ => f.d.toNat)
    (fun c l => (c.v f.a.toNat l).sshiftRight ((c.v f.b.toNat l).extractLsb' 0 5).toNat)) ∧
  (∀ f : RG, GivesLane (.rol f) (fun _ => f.d.toNat)
    (fun c l => (c.v f.a.toNat l).rotateLeft ((c.v f.b.toNat l).extractLsb' 0 5).toNat)) ∧
  (∀ f : H16, GivesLane (.and16 f) (fun _ => f.d.toNat) (fun c l => c.v f.d.toNat l &&& c.v f.b.toNat l)) ∧
  (∀ f : H16, GivesLane (.or16 f) (fun _ => f.d.toNat) (fun c l => c.v f.d.toNat l ||| c.v f.b.toNat l)) ∧
  (∀ f : H16, GivesLane (.xor16 f) (fun _ => f.d.toNat) (fun c l => c.v f.d.toNat l ^^^ c.v f.b.toNat l)) ∧
  (∀ f : H16, GivesLane (.shl16 f) (fun _ => f.d.toNat)
    (fun c l => c.v f.d.toNat l <<< ((c.v f.b.toNat l).extractLsb' 0 5).toNat)) ∧
  (∀ f : H16, GivesLane (.shr16 f) (fun _ => f.d.toNat)
    (fun c l => c.v f.d.toNat l >>> ((c.v f.b.toNat l).extractLsb' 0 5).toNat))

/-- Tier 2, derived (R271, R295, R296, R297, R317, R318): the integer types of add, sub, mul, fma, min and max wrap modulo 2^32
and raise no flag, in the 32-bit, the 16-bit and the immediate forms. -/
def Obligations.IntegerForms : Prop :=
  ((∀ f : RG, f.x = 0 → GivesLane (.add f) (fun _ => f.d.toNat) (fun c l => c.v f.a.toNat l + c.v f.b.toNat l)) ∧
  (∀ f : RG, f.x = 0 → GivesLane (.sub f) (fun _ => f.d.toNat) (fun c l => c.v f.a.toNat l - c.v f.b.toNat l)) ∧
  (∀ f : RG, f.x = 0 → GivesLane (.mul f) (fun _ => f.d.toNat) (fun c l => c.v f.a.toNat l * c.v f.b.toNat l)) ∧
  (∀ f : RG, f.x = 3 → GivesLane (.fma f) (fun _ => f.d.toNat)
    (fun c l => c.v f.a.toNat l * c.v f.b.toNat l + c.v f.d.toNat l)) ∧
  (∀ f : RG, f.x = 0 → GivesLane (.minL f) (fun _ => f.d.toNat)
    (fun c l => if (c.v f.a.toNat l).toInt ≤ (c.v f.b.toNat l).toInt then c.v f.a.toNat l else c.v f.b.toNat l)) ∧
  (∀ f : RG, f.x = 1 → GivesLane (.minL f) (fun _ => f.d.toNat)
    (fun c l => if (c.v f.a.toNat l).toNat ≤ (c.v f.b.toNat l).toNat then c.v f.a.toNat l else c.v f.b.toNat l)) ∧
  (∀ f : RG, f.x = 0 → GivesLane (.maxL f) (fun _ => f.d.toNat)
    (fun c l => if (c.v f.a.toNat l).toInt ≤ (c.v f.b.toNat l).toInt then c.v f.b.toNat l else c.v f.a.toNat l)) ∧
  (∀ f : RG, f.x = 1 → GivesLane (.maxL f) (fun _ => f.d.toNat)
    (fun c l => if (c.v f.a.toNat l).toNat ≤ (c.v f.b.toNat l).toNat then c.v f.b.toNat l else c.v f.a.toNat l)) ∧
  (∀ f : H16, GivesLane (.mov16 f) (fun _ => f.d.toNat) (fun c l => c.v f.b.toNat l)) ∧
  (∀ f : H16, GivesLane (.addI3216 f) (fun _ => f.d.toNat) (fun c l => c.v f.d.toNat l + c.v f.b.toNat l)) ∧
  (∀ f : H16, GivesLane (.subI3216 f) (fun _ => f.d.toNat) (fun c l => c.v f.d.toNat l - c.v f.b.toNat l)) ∧
  (∀ f : H16, GivesLane (.mulI3216 f) (fun _ => f.d.toNat) (fun c l => c.v f.d.toNat l * c.v f.b.toNat l)) ∧
  (∀ f : H16, GivesLane (.maxI3216 f) (fun _ => f.d.toNat)
    (fun c l => if (c.v f.d.toNat l).toInt ≤ (c.v f.b.toNat l).toInt then c.v f.b.toNat l else c.v f.d.toNat l))) ∧
  ((∀ f : RI, GivesLane (.movi f) (fun _ => f.d.toNat) (fun _ _ => f.i.signExtend 32)) ∧
  (∀ f : RI, GivesLane (.movhi f) (fun _ => f.d.toNat) (fun c l => f.i ++ (c.v f.d.toNat l).extractLsb' 0 16)) ∧
  (∀ f : RI, GivesLane (.addiI32 f) (fun _ => f.d.toNat) (fun c l => c.v f.d.toNat l + f.i.signExtend 32)) ∧
  (∀ f : RI, GivesLane (.muliI32 f) (fun _ => f.d.toNat) (fun c l => c.v f.d.toNat l * f.i.signExtend 32)) ∧
  (∀ f : RI, GivesLane (.andi f) (fun _ => f.d.toNat) (fun c l => c.v f.d.toNat l &&& f.i.setWidth 32)) ∧
  (∀ f : RI, GivesLane (.ori f) (fun _ => f.d.toNat) (fun c l => c.v f.d.toNat l ||| f.i.setWidth 32)) ∧
  (∀ f : RI, GivesLane (.xori f) (fun _ => f.d.toNat) (fun c l => c.v f.d.toNat l ^^^ f.i.setWidth 32)) ∧
  (∀ f : RI, GivesLane (.shli f) (fun _ => f.d.toNat) (fun c l => c.v f.d.toNat l <<< (f.i.extractLsb' 0 5).toNat)) ∧
  (∀ f : RI, GivesLane (.moviF16x2 f) (fun _ => f.d.toNat) (fun _ _ => f.i ++ f.i)) ∧
  (∀ f : RI, GivesLane (.moviF8x4 f) (fun _ => f.d.toNat) (fun _ _ => f.i ++ f.i)))

/-- Tier 2, derived (R295 to R297, R317, R318, R258): the floating types give the exact value rounded once by Fmt.round, in
each element, and raise the OR of the flags of their active lanes and elements. -/
def Obligations.FloatingArithmetic : Prop :=
  (∀ f : RG, f.x ≠ 0 → GivesFlagged (.add f) (fun _ => f.d.toNat)
    (fun c l => typed2 addN Fmt.add c.ftz c.rm f.x.toNat (c.v f.a.toNat l).toNat (c.v f.b.toNat l).toNat)) ∧
  (∀ f : RG, f.x ≠ 0 → GivesFlagged (.sub f) (fun _ => f.d.toNat)
    (fun c l => typed2 subN Fmt.sub c.ftz c.rm f.x.toNat (c.v f.a.toNat l).toNat (c.v f.b.toNat l).toNat)) ∧
  (∀ f : RG, f.x ≠ 0 → GivesFlagged (.mul f) (fun _ => f.d.toNat)
    (fun c l => typed2 mulN Fmt.mul c.ftz c.rm f.x.toNat (c.v f.a.toNat l).toNat (c.v f.b.toNat l).toNat)) ∧
  (∀ f : RG, f.x ≠ 3 → GivesFlagged (.fma f) (fun _ => f.d.toNat)
    (fun c l => fmaX c.ftz c.rm f.x.toNat (c.v f.a.toNat l).toNat (c.v f.b.toNat l).toNat (c.v f.d.toNat l).toNat)) ∧
  (∀ f : RG, 2 ≤ f.x.toNat → GivesFlagged (.minL f) (fun _ => f.d.toNat)
    (fun c l => minmaxX c.ftz true f.x.toNat (c.v f.a.toNat l).toNat (c.v f.b.toNat l).toNat)) ∧
  (∀ f : RG, 2 ≤ f.x.toNat → GivesFlagged (.maxL f) (fun _ => f.d.toNat)
    (fun c l => minmaxX c.ftz false f.x.toNat (c.v f.a.toNat l).toNat (c.v f.b.toNat l).toNat)) ∧
  (∀ f : H16, GivesFlagged (.addF3216 f) (fun _ => f.d.toNat)
    (fun c l => f32.add c.ftz c.rm (c.v f.d.toNat l).toNat (c.v f.b.toNat l).toNat)) ∧
  (∀ f : H16, GivesFlagged (.subF3216 f) (fun _ => f.d.toNat)
    (fun c l => f32.sub c.ftz c.rm (c.v f.d.toNat l).toNat (c.v f.b.toNat l).toNat)) ∧
  (∀ f : H16, GivesFlagged (.mulF3216 f) (fun _ => f.d.toNat)
    (fun c l => f32.mul c.ftz c.rm (c.v f.d.toNat l).toNat (c.v f.b.toNat l).toNat)) ∧
  (∀ f : H16, GivesFlagged (.maxF3216 f) (fun _ => f.d.toNat)
    (fun c l => f32.minmax c.ftz false (c.v f.d.toNat l).toNat (c.v f.b.toNat l).toNat)) ∧
  (∀ f : H16, GivesFlagged (.minF3216 f) (fun _ => f.d.toNat)
    (fun c l => f32.minmax c.ftz true (c.v f.d.toNat l).toNat (c.v f.b.toNat l).toNat)) ∧
  (∀ f : H16, GivesFlagged (.addF16x216 f) (fun _ => f.d.toNat)
    (fun c l => halves (f16.add c.ftz c.rm) (c.v f.d.toNat l).toNat (c.v f.b.toNat l).toNat)) ∧
  (∀ f : RI, GivesFlagged (.addiF32 f) (fun _ => f.d.toNat)
    (fun c l => f32.add c.ftz c.rm (c.v f.d.toNat l).toNat (f.i.toNat * 65536))) ∧
  (∀ f : RI, GivesFlagged (.muliF32 f) (fun _ => f.d.toNat)
    (fun c l => f32.mul c.ftz c.rm (c.v f.d.toNat l).toNat (f.i.toNat * 65536))) ∧
  (∀ f : RI, GivesFlagged (.addiF16x2 f) (fun _ => f.d.toNat)
    (fun c l => halves (f16.add c.ftz c.rm) (c.v f.d.toNat l).toNat (f.i.toNat * 65537))) ∧
  (∀ f : RI, GivesFlagged (.muliF16x2 f) (fun _ => f.d.toNat)
    (fun c l => halves (f16.mul c.ftz c.rm) (c.v f.d.toNat l).toNat (f.i.toNat * 65537))) ∧
  (∀ f : RI, GivesFlagged (.addiBf16x2 f) (fun _ => f.d.toNat)
    (fun c l => halves (bf16.add c.ftz c.rm) (c.v f.d.toNat l).toNat (f.i.toNat * 65537))) ∧
  (∀ f : RI, GivesFlagged (.muliBf16x2 f) (fun _ => f.d.toNat)
    (fun c l => halves (bf16.mul c.ftz c.rm) (c.v f.d.toNat l).toNat (f.i.toNat * 65537)))

/-- Tier 2, derived (R300 to R303, R307, R313): special functions, conversions, packing, widening, dp2 and gred, by the functions
of the number formats. -/
def Obligations.FunctionsConversionsReductions : Prop :=
  ((∀ f : RG, GivesFlagged (.rcp f) (fun _ => f.d.toNat) (fun c l => sfu 0 c.ftz c.rm (c.v f.a.toNat l).toNat)) ∧
  (∀ f : RG, GivesFlagged (.rsq f) (fun _ => f.d.toNat) (fun c l => sfu 1 c.ftz c.rm (c.v f.a.toNat l).toNat)) ∧
  (∀ f : RG, GivesFlagged (.sqrt f) (fun _ => f.d.toNat) (fun c l => sfu 2 c.ftz c.rm (c.v f.a.toNat l).toNat)) ∧
  (∀ f : RG, GivesFlagged (.exp2 f) (fun _ => f.d.toNat) (fun c l => sfu 3 c.ftz c.rm (c.v f.a.toNat l).toNat)) ∧
  (∀ f : RG, GivesFlagged (.log2 f) (fun _ => f.d.toNat) (fun c l => sfu 4 c.ftz c.rm (c.v f.a.toNat l).toNat)) ∧
  (∀ f : RG, GivesFlagged (.sin f) (fun _ => f.d.toNat) (fun c l => sfu 5 c.ftz c.rm (c.v f.a.toNat l).toNat)) ∧
  (∀ f : RG, GivesFlagged (.cos f) (fun _ => f.d.toNat) (fun c l => sfu 6 c.ftz c.rm (c.v f.a.toNat l).toNat)) ∧
  (∀ f : RG, GivesFlagged (.tanh f) (fun _ => f.d.toNat) (fun c l => sfu 7 c.ftz c.rm (c.v f.a.toNat l).toNat)) ∧
  (∀ f : RG, GivesFlagged (.cvt f) (fun _ => f.d.toNat)
    (fun c l => cvtVal c.ftz f.x.toNat (f.b.toNat / 8) (f.b.toNat % 8) (c.v f.a.toNat l).toNat)) ∧
  (∀ f : RG, GivesFlagged (.pk f) (fun _ => f.d.toNat)
    (fun c l => pkX c.ftz c.rm f.x.toNat (c.v f.a.toNat l).toNat (c.v f.b.toNat l).toNat)) ∧
  (∀ f : RG, GivesFlagged (.upk f) (fun _ => f.d.toNat)
    (fun c l => upkX c.ftz f.x.toNat (c.v f.a.toNat l).toNat f.b.toNat)) ∧
  (∀ f : RG, GivesFlagged (.dp2 f) (fun _ => f.d.toNat)
    (fun c l => dp2X c.ftz c.rm f.x.toNat (c.v f.a.toNat l).toNat (c.v f.b.toNat l).toNat (c.v f.d.toNat l).toNat))) ∧
  ((∀ f : RG, f.x = 0 → GivesScalar (.gred f) (fun _ => f.d.toNat) (fun c => (c.lanes.map (c.v f.a.toNat)).sum)) ∧
  (∀ f : RG, f.x = 1 → GivesScalar (.gred f) (fun _ => f.d.toNat)
    (fun c => BitVec.ofNat 32 (gredAddF c.ftz c.rm (c.lanes.map (fun l => (c.v f.a.toNat l).toNat))).1)
    (fun c => (gredAddF c.ftz c.rm (c.lanes.map (fun l => (c.v f.a.toNat l).toNat))).2)) ∧
  (∀ f : RG, 2 ≤ f.x.toNat → ∀ s gid g p, Issues (.gred f) s gid g p → p.mask ≠ 0 → Gives (.gred f) s (fun t =>
    let c := ctx (.gred f) s gid g p
    (∃ l, p.mask.getLsbD l = true ∧ (t.group gid).sReg f.d.toNat = c.put (64 + f.d.toNat) 0 (c.v f.a.toNat l) ∧
      ∀ k, p.mask.getLsbD k = true → if f.x = 2 then (c.v f.a.toNat k).toInt ≤ (c.v f.a.toNat l).toInt
        else (c.v f.a.toNat l).toInt ≤ (c.v f.a.toNat k).toInt) ∧
    (t.group gid).fmode = g.fmode ∧ RegsOnly [64 + f.d.toNat] s t gid g ∧ GoesOn (.gred f) s g p (t.group gid))))

/-- Tier 2, stated (R305, R306, R308, R309, R310): selection, byte dot product, bit operations, bit fields and byte
permutation. -/
def Obligations.SelectAndBits : Prop :=
  (∀ f : RG, GivesLane (.sel f) (fun _ => f.d.toNat)
    (fun c l => if (c.p f.x.toNat).getLsbD l then c.v f.a.toNat l else c.v f.b.toNat l)) ∧
  (∀ f : RG, GivesLane (.dp4 f) (fun _ => f.d.toNat) (fun c l => BitVec.ofInt 32 ((c.v f.d.toNat l).toNat +
    ((List.range 4).map (fun i => byteOf (f.x == 0 || f.x == 2) (c.v f.a.toNat l) i *
      byteOf (f.x == 0 || f.x == 1) (c.v f.b.toNat l) i)).sum))) ∧
  (∀ f : RG, GivesLane (.popc f) (fun _ => f.d.toNat)
    (fun c l => BitVec.ofNat 32 ((List.range 32).countP (fun i => (c.v f.a.toNat l).getLsbD i)))) ∧
  (∀ f : RG, GivesLane (.clz f) (fun _ => f.d.toNat)
    (fun c l => if c.v f.a.toNat l = 0 then 32 else BitVec.ofNat 32 (31 - Nat.log2 (c.v f.a.toNat l).toNat))) ∧
  (∀ f : RG, GivesLane (.brev f) (fun _ => f.d.toNat) (fun c l => (c.v f.a.toNat l).reverse)) ∧
  (∀ f : RG, GivesLane (.ffs f) (fun _ => f.d.toNat)
    (fun c l => BitVec.ofNat 32 (((List.range 32).find? (fun i => (c.v f.a.toNat l).getLsbD i)).getD 32))) ∧
  (∀ f : RG, f.x.toNat < 2 → GivesLane (.bfe f) (fun _ => f.d.toNat) (fun c l =>
    let pos := ((c.v f.b.toNat l).extractLsb' 0 5).toNat
    let len := min ((c.v f.b.toNat l).extractLsb' 8 6).toNat (32 - pos)
    if f.x = 0 then ((c.v f.a.toNat l).extractLsb' pos len).signExtend 32
    else ((c.v f.a.toNat l).extractLsb' pos len).setWidth 32)) ∧
  (∀ f : RG, GivesLane (.bfi f) (fun _ => f.d.toNat) (fun c l =>
    let pos := ((c.v f.b.toNat l).extractLsb' 0 5).toNat
    let len := min ((c.v f.b.toNat l).extractLsb' 8 6).toNat (32 - pos)
    let m := ((BitVec.allOnes len).setWidth 32) <<< pos
    (c.v f.d.toNat l &&& ~~~m) ||| ((c.v f.a.toNat l <<< pos) &&& m))) ∧
  (∀ f : RG, GivesLane (.perm f) (fun _ => f.d.toNat) (fun c l =>
    permPick (c.v f.a.toNat l) ((c.v f.b.toNat l).extractLsb' 12 4) ++
    permPick (c.v f.a.toNat l) ((c.v f.b.toNat l).extractLsb' 8 4) ++
    permPick (c.v f.a.toNat l) ((c.v f.b.toNat l).extractLsb' 4 4) ++
    permPick (c.v f.a.toNat l) ((c.v f.b.toNat l).extractLsb' 0 4)))

/-- Tier 2, stated (R304, R311, R312, R314): comparisons, the cross-lane forms and the moves between register files. -/
def Obligations.CrossLaneForms : Prop :=
  (∀ f : RG, GivesPred (.cmpI32 f) (fun _ => f.d.toNat) (fun c l =>
    let a := (c.v f.a.toNat l).toInt
    let b := (c.v f.b.toNat l).toInt
    if f.x = 0 then a == b else if f.x = 1 then a != b else if f.x = 2 then decide (a < b) else decide (a ≤ b))) ∧
  (∀ f : RG, GivesPred (.cmpN32 f) (fun _ => f.d.toNat) (fun c l =>
    let a := (c.v f.a.toNat l).toNat
    let b := (c.v f.b.toNat l).toNat
    if f.x = 0 then decide (a < b) else if f.x = 1 then decide (a ≤ b) else if f.x = 2 then decide (b < a) else decide (b ≤ a))) ∧
  (∀ f : RG, GivesPred (.cmpF32 f) (fun _ => f.d.toNat)
    (fun c l => relates (f32.value c.ftz (c.v f.a.toNat l).toNat) (f32.value c.ftz (c.v f.b.toNat l).toNat) f.x.toNat)
    (fun c => if c.lanes.any (fun l => (f32.value false (c.v f.a.toNat l).toNat).isSig ||
      (f32.value false (c.v f.b.toNat l).toNat).isSig) then flagNV else 0)) ∧
  (∀ f : RG, GivesPred (.cmpxF32 f) (fun _ => f.d.toNat)
    (fun c l => relates (f32.value c.ftz (c.v f.a.toNat l).toNat) (f32.value c.ftz (c.v f.b.toNat l).toNat) (4 + f.x.toNat))
    (fun c => if c.lanes.any (fun l => (f32.value false (c.v f.a.toNat l).toNat).isSig ||
      (f32.value false (c.v f.b.toNat l).toNat).isSig) then flagNV else 0)) ∧
  (∀ f : RG, GivesLane (.shfl f) (fun _ => f.d.toNat) (fun c l =>
    let src := shflSource f.x l ((c.v f.b.toNat l).extractLsb' 0 5).toNat
    if 0 ≤ src ∧ src ≤ 31 ∧ c.mask.getLsbD src.toNat then c.v f.a.toNat src.toNat else c.v f.a.toNat l)) ∧
  (∀ f : RG, GivesPred (.voteAll f) (fun _ => f.d.toNat)
    (fun c _ => decide (c.mask &&& ~~~(c.p f.a.toNat) = 0))) ∧
  (∀ f : RG, GivesPred (.voteAny f) (fun _ => f.d.toNat)
    (fun c _ => decide (c.mask &&& c.p f.a.toNat ≠ 0))) ∧
  (∀ f : RG, GivesScalar (.voteBallot f) (fun _ => f.d.toNat) (fun c => c.p f.a.toNat &&& c.mask)) ∧
  (∀ f : RG, GivesPred (.voteEq f) (fun _ => f.d.toNat) (fun c _ =>
    c.lanes.all (fun j => c.lanes.all (fun k => c.v f.a.toNat j == c.v f.a.toNat k)))) ∧
  (∀ f : RG, GivesLane (.xmovVs f) (fun _ => f.d.toNat) (fun c _ => c.s f.a.toNat)) ∧
  (∀ f : RG, GivesScalar (.xmovSv f) (fun _ => f.d.toNat) (fun c => c.v f.a.toNat f.b.toNat)) ∧
  (∀ f : RG, GivesLane (.xmovVp f) (fun _ => f.d.toNat) (fun c l => if (c.p f.a.toNat).getLsbD l then 1 else 0)) ∧
  (∀ f : RG, GivesPred (.xmovPv f) (fun _ => f.d.toNat) (fun c l => c.v f.a.toNat l != 0))

/-- Tier 2, stated (R315): the group-scalar forms; they issue in slot C with Tk 0 and name s registers only. -/
def Obligations.ScalarForms : Prop :=
  (∀ f : RG, ∀ i ∈ [Instr.sadd f, .ssub f, .smul f, .sand f, .sor f, .sxor f, .sshl f, .sshr f, .scmp f],
    (view i).slot = .c ∧ (view i).tk = 0 ∧ (view i).dk = .s ∧ (view i).ak = .s ∧ (view i).bk = .s) ∧
  (∀ f : RG, GivesScalar (.sadd f) (fun _ => f.d.toNat) (fun c => c.s f.a.toNat + c.s f.b.toNat)) ∧
  (∀ f : RG, GivesScalar (.ssub f) (fun _ => f.d.toNat) (fun c => c.s f.a.toNat - c.s f.b.toNat)) ∧
  (∀ f : RG, GivesScalar (.smul f) (fun _ => f.d.toNat) (fun c => c.s f.a.toNat * c.s f.b.toNat)) ∧
  (∀ f : RG, GivesScalar (.sand f) (fun _ => f.d.toNat) (fun c => c.s f.a.toNat &&& c.s f.b.toNat)) ∧
  (∀ f : RG, GivesScalar (.sor f) (fun _ => f.d.toNat) (fun c => c.s f.a.toNat ||| c.s f.b.toNat)) ∧
  (∀ f : RG, GivesScalar (.sxor f) (fun _ => f.d.toNat) (fun c => c.s f.a.toNat ^^^ c.s f.b.toNat)) ∧
  (∀ f : RG, GivesScalar (.sshl f) (fun _ => f.d.toNat)
    (fun c => c.s f.a.toNat <<< ((c.s f.b.toNat).extractLsb' 0 5).toNat)) ∧
  (∀ f : RG, GivesScalar (.sshr f) (fun _ => f.d.toNat)
    (fun c => c.s f.a.toNat >>> ((c.s f.b.toNat).extractLsb' 0 5).toNat)) ∧
  (∀ f : RG, GivesScalar (.scmp f) (fun _ => f.d.toNat) (fun c =>
    let a := (c.s f.a.toNat).toInt
    let b := (c.s f.b.toNat).toInt
    if (if f.x = 0 then a == b else if f.x = 1 then a != b else if f.x = 2 then decide (a < b) else decide (a ≤ b))
    then 1 else 0))

/-- Tier 2, stated (R299, R316): the 64-bit products and the 64-bit forms, the even register of a pair low. -/
def Obligations.WideForms : Prop :=
  (∀ f : RG, f.x.toNat < 2 → GivesLane (.mulhHi f) (fun _ => f.d.toNat) (fun c l =>
    (if f.x = 0 then (c.v f.a.toNat l).signExtend 64 * (c.v f.b.toNat l).signExtend 64
     else (c.v f.a.toNat l).setWidth 64 * (c.v f.b.toNat l).setWidth 64).extractLsb' 32 32)) ∧
  (∀ f : RG, 2 ≤ f.x.toNat → GivesLanePair (.mulhWide f) (fun _ => f.d.toNat) (fun c l =>
    if f.x = 2 then (c.v f.a.toNat l).signExtend 64 * (c.v f.b.toNat l).signExtend 64
    else (c.v f.a.toNat l).setWidth 64 * (c.v f.b.toNat l).setWidth 64)) ∧
  (∀ f : RG, ∀ i ∈ [Instr.add64 f, .sub64 f, .sadd64 f, .mad64 f], (view i).slot = .c ∧ (view i).tk = 0) ∧
  (∀ f : RG, GivesLanePair (.add64 f) (fun _ => f.d.toNat) (fun c l => c.vp f.a.toNat l + c.vp f.b.toNat l)) ∧
  (∀ f : RG, GivesLanePair (.sub64 f) (fun _ => f.d.toNat) (fun c l => c.vp f.a.toNat l - c.vp f.b.toNat l)) ∧
  (∀ f : RG, GivesScalarPair (.sadd64 f) (fun _ => f.d.toNat) (fun c => c.sp2 f.a.toNat + c.sp2 f.b.toNat)) ∧
  (∀ f : RG, GivesLanePair (.mad64 f) (fun _ => f.d.toNat) (fun c l =>
    c.vp f.d.toNat l + (c.v f.a.toNat l).setWidth 64 * (c.v f.b.toNat l).setWidth 64))

/-- Tier 2, stated (R391): the predicate forms decode D, A and B as p and have latency class F; p7 reads 1 and a write to it
is discarded (PredHolds). -/
def Obligations.PredicateForms : Prop :=
  (∀ f : RG, ∀ i ∈ [Instr.pand f, .por f, .pxor f], (view i).lat = .f ∧ (view i).dk = .p ∧ (view i).ak = .p ∧
    (view i).bk = .p) ∧
  (∀ f : RG, (view (.pnot f)).lat = .f ∧ (view (.pnot f)).dk = .p ∧ (view (.pnot f)).ak = .p ∧
    (∀ r, f.b ≠ 0 → illegalDetail (.pnot f) r ≠ 0)) ∧
  (∀ f : RG, GivesPred (.pand f) (fun _ => f.d.toNat)
    (fun c l => (c.p f.a.toNat).getLsbD l && (c.p f.b.toNat).getLsbD l)) ∧
  (∀ f : RG, GivesPred (.por f) (fun _ => f.d.toNat)
    (fun c l => (c.p f.a.toNat).getLsbD l || (c.p f.b.toNat).getLsbD l)) ∧
  (∀ f : RG, GivesPred (.pxor f) (fun _ => f.d.toNat)
    (fun c l => Bool.xor ((c.p f.a.toNat).getLsbD l) ((c.p f.b.toNat).getLsbD l))) ∧
  (∀ f : RG, GivesPred (.pnot f) (fun _ => f.d.toNat) (fun c l => !(c.p f.a.toNat).getLsbD l))

/-! ## Control forms (R377 to R394) -/

/-- Tier 2, derived (R162, R379): bra, br.any and br.all move the whole split to the target or to the next instruction, and
change no register and no memory. br.p moves the split when its taken lanes are all or none of its lanes; else, with fewer than
eight masks on its stack, it keeps the taken lanes at the target and a new split, last in age, takes the others at the next
instruction, both with the old mask pushed; with eight, ILLEGAL with DETAIL 5 is raised and nothing divides. Model's choice, log
21: where a divided split enters. -/
def Obligations.Branches : Prop :=
  (∀ (f : CB) s gid g p, let c := ctx (.bra f) s gid g p
    let target := p.pc + BitVec.ofInt 64 (2 * f.off.toInt)
    let holds := if f.n then ~~~(c.p f.p.toNat) else c.p f.p.toNat
    (Issues (.bra f) s gid g p → Gives (.bra f) s (fun t =>
      (t.group gid).fmode = g.fmode ∧ RegsOnly [] s t gid g ∧ MovesTo (.bra f) s g p (t.group gid) target)) ∧
    (Issues (.brAny f) s gid g p → Gives (.brAny f) s (fun t =>
      (t.group gid).fmode = g.fmode ∧ RegsOnly [] s t gid g ∧ MovesTo (.brAny f) s g p (t.group gid)
        (if p.mask &&& holds ≠ 0 then target else p.pc + 4))) ∧
    (Issues (.brAll f) s gid g p → Gives (.brAll f) s (fun t =>
      (t.group gid).fmode = g.fmode ∧ RegsOnly [] s t gid g ∧ MovesTo (.brAll f) s g p (t.group gid)
        (if p.mask &&& ~~~holds = 0 then target else p.pc + 4)))) ∧
  (∀ (f : CB) s gid g p, Issues (.brP f) s gid g p →
    let c := ctx (.brP f) s gid g p
    let target := p.pc + BitVec.ofInt 64 (2 * f.off.toInt)
    let taken := p.mask &&& (if f.n then ~~~(c.p f.p.toNat) else c.p f.p.toNat)
    (taken = p.mask → Gives (.brP f) s (fun t => (t.group gid).fmode = g.fmode ∧ RegsOnly [] s t gid g ∧
      MovesTo (.brP f) s g p (t.group gid) target)) ∧
    (taken ≠ p.mask → taken = 0 → Gives (.brP f) s (fun t => (t.group gid).fmode = g.fmode ∧ RegsOnly [] s t gid g ∧
      MovesTo (.brP f) s g p (t.group gid) (p.pc + 4))) ∧
    (taken ≠ p.mask → taken ≠ 0 → p.stack.length < 8 → Gives (.brP f) s (fun t =>
      let g' := t.group gid
      (∃ q, g'.split? p.born = some q ∧ q.mask = taken ∧ q.pc = target ∧ q.stack = p.mask :: p.stack ∧ q.st = p.st ∧
        q.readyAt = s.now g.core + 1 + f.w.toNat) ∧
      (∃ q, g'.splits.getLast? = some q ∧ q.born = g.nextBorn ∧ q.mask = p.mask &&& ~~~taken ∧ q.pc = p.pc + 4 ∧
        q.stack = p.mask :: p.stack ∧ q.st = (if g.busy < 4 then .run else .wait) ∧
        q.readyAt = s.now g.core + 1 + f.w.toNat) ∧
      g'.splits.length = g.splits.length + 1 ∧ (∀ b, b ≠ p.born → b ≠ g.nextBorn → g'.split? b = g.split? b) ∧
      g'.fmode = g.fmode ∧ SameMemory s t ∧ KeepsRegs [] g g' ∧ (∀ h, h ≠ gid → Tbl.find t.groups h = Tbl.find s.groups h))) ∧
    (taken ≠ p.mask → taken ≠ 0 → 8 ≤ p.stack.length → Raises (.brP f) s gid g p { cause := 1, detail := 5 }))

/-- Tier 2, stated (R381): call links and jumps, ret and jmp.r jump to an even target; an odd target raises MISALIGN with
INFO 1 and TRAP.ADDR the target, and the split stays at the jump. -/
def Obligations.CallsAndJumps : Prop :=
  (∀ (f : CB) s gid g p, Issues (.call f) s gid g p → Gives (.call f) s (fun t =>
    let c := ctx (.call f) s gid g p
    ScalarHolds c (t.group gid) 30 ((p.pc + 4).extractLsb' 0 32) ∧
    ScalarHolds c (t.group gid) 31 ((p.pc + 4).extractLsb' 32 32) ∧ (t.group gid).fmode = g.fmode ∧
    RegsOnly [94, 95] s t gid g ∧ MovesTo (.call f) s g p (t.group gid) (p.pc + BitVec.ofInt 64 (2 * f.off.toInt)))) ∧
  (∀ f : CB, (view (.call f)).lat = .f ∧ ∀ r, (f.n = true ∨ f.p ≠ 0) → illegalDetail (.call f) r ≠ 0) ∧
  (∀ (f : RG) r, f.a.toNat % 2 = 1 → illegalDetail (.jmpR f) r ≠ 0) ∧
  (∀ (f : RG) s gid g p, Issues (.ret f) s gid g p → let a := (ctx (.ret f) s gid g p).sp2 30
    (a.getLsbD 0 = false → Gives (.ret f) s (fun t => (t.group gid).fmode = g.fmode ∧ RegsOnly [] s t gid g ∧
      MovesTo (.ret f) s g p (t.group gid) a)) ∧
    (a.getLsbD 0 = true → Raises (.ret f) s gid g p { cause := 4, info := 1, addr := a })) ∧
  (∀ (f : RG) s gid g p, Issues (.jmpR f) s gid g p → let a := (ctx (.jmpR f) s gid g p).sp2 f.a.toNat
    (a.getLsbD 0 = false → Gives (.jmpR f) s (fun t => (t.group gid).fmode = g.fmode ∧ RegsOnly [] s t gid g ∧
      MovesTo (.jmpR f) s g p (t.group gid) a)) ∧
    (a.getLsbD 0 = true → Raises (.jmpR f) s gid g p { cause := 4, info := 1, addr := a }))

/-- Tier 2, derived (R161, R164, R382): rcv and resync park the split at their address while the merge is not complete; rcv of a
split that alone covers its merge set completes at once, with the stack popped. yield goes on while the WAIT list is empty;
where the group's four places are taken and a split waits, the issuing split takes the tail of the list, at its next
instruction, and the head enters RUN. Model's choice, log 21: where a split enters RUN or WAIT. -/
def Obligations.ParkMergeAndYield : Prop :=
  ((∀ (f : RG) (i : Instr) s gid g p, (i = .rcv f ∨ i = .resync f) → Issues i s gid g p →
    (∀ q ∈ g.splits, q.st ≠ .park) → (∃ q ∈ g.splits, q.born ≠ p.born) →
    (if i = .resync f then g.live else g.mergeSet p) &&& ~~~p.lanes ≠ 0 →
    Gives i s (fun t => (∃ q, (t.group gid).split? p.born = some q ∧ q.st = .park ∧ q.pc = p.pc ∧ q.mask = p.mask ∧
      q.stack = p.stack ∧ (q.resync = true ↔ i = .resync f)) ∧
      (t.group gid).fmode = g.fmode ∧ RegsOnly [] s t gid g)) ∧
  (∀ (f : RG) s gid g p, Issues (.rcv f) s gid g p → g.splits = [p] → p.held = 0 → p.mask ≠ 0 →
    p.mask &&& (p.stack.headD 0xFFFFFFFF) = p.mask →
    Gives (.rcv f) s (fun t => (∃ q, (t.group gid).splits = [q] ∧ q.born = p.born ∧ q.st = .run ∧ q.pc = p.pc + 4 ∧
      q.mask = p.mask ∧ q.stack = p.stack.drop 1) ∧ (t.group gid).fmode = g.fmode ∧ RegsOnly [] s t gid g)) ∧
  (∀ (f : RG) s gid g p, Issues (.resync f) s gid g p → g.splits = [p] → p.held = 0 → p.mask ≠ 0 →
    Gives (.resync f) s (fun t => (∃ q, (t.group gid).splits = [q] ∧ q.born = p.born ∧ q.st = .run ∧ q.pc = p.pc + 4 ∧
      q.mask = p.mask ∧ q.stack = []) ∧ (t.group gid).fmode = g.fmode ∧ RegsOnly [] s t gid g))) ∧
  (∀ (f : RG) s gid g p, Issues (.yieldSplit f) s gid g p →
    (g.waitHead = none → Gives (.yieldSplit f) s (fun t => (t.group gid).fmode = g.fmode ∧ RegsOnly [] s t gid g ∧
      GoesOn (.yieldSplit f) s g p (t.group gid))) ∧
    (∀ h, g.waitHead = some h → g.split? h.born = some h → g.busy = 4 → Gives (.yieldSplit f) s (fun t =>
      (∃ q, (t.group gid).split? p.born = some q ∧ q.st = .wait ∧ q.pc = p.pc + 4 ∧ q.mask = p.mask ∧ q.stack = p.stack ∧
        ∀ r ∈ g.splits, r.queued < q.queued) ∧
      (∃ q, (t.group gid).split? h.born = some q ∧ q.st = .run ∧ q.pc = h.pc ∧ q.mask = h.mask) ∧
      (t.group gid).busy = 4 ∧ (t.group gid).fmode = g.fmode ∧ RegsOnly [] s t gid g)))

/-- Tier 2, derived (R162, R383, R384): exit outside a handler, in a group with no split parked and an empty logbook: the split
ceases, its lanes leave every stack of the group, and the other splits keep their lanes and program counters. A deadline
that has passed gives no sleep; else the split sleeps at its instruction until CYCLE reaches the deadline, or, for
sleep.yield, until 256 cycles of its die have gone by at the latest. -/
def Obligations.ExitAndSleep : Prop :=
  (∀ (f : RG) s gid g p, Issues (.exitLanes f) s gid g p → g.inh = false → p.held = 0 → g.log = [] →
    (∀ q ∈ g.splits, q.st ≠ .park) → Gives (.exitLanes f) s (fun t =>
      (t.group gid).split? p.born = none ∧
      (∀ b q, b ≠ p.born → g.split? b = some q → ∃ r, (t.group gid).split? b = some r ∧ r.mask = q.mask ∧ r.pc = q.pc ∧
        r.stack = q.stack.map (fun m => m &&& ~~~p.mask)) ∧
      (t.group gid).fmode = g.fmode ∧ RegsOnly [] s t gid g)) ∧
  ((∀ (f : RG) (i : Instr) s gid g p, Issues i s gid g p → ∀ d,
    (i = .sleepUntil f ∧ d = ((ctx i s gid g p).sp2 f.a.toNat).toNat) ∨
    (i = .sleepNs f ∧ d = min (s.cycle + ((ctx i s gid g p).sp2 f.a.toNat).toNat) (2 ^ 64 - 1)) →
    (d ≤ s.cycle → Gives i s (fun t => (t.group gid).fmode = g.fmode ∧ RegsOnly [] s t gid g ∧ GoesOn i s g p (t.group gid))) ∧
    (s.cycle < d → Gives i s (fun t => (t.group gid).fmode = g.fmode ∧ RegsOnly [] s t gid g ∧
      ∃ q, (t.group gid).split? p.born = some q ∧ q.st = .sleep ∧ q.why = .time ∧ q.deadline = d ∧ q.pc = p.pc ∧
        q.mask = p.mask ∧ q.stack = p.stack))) ∧
  (∀ (f : RG) s gid g p, Issues (.sleepYield f) s gid g p → Gives (.sleepYield f) s (fun t =>
    (t.group gid).fmode = g.fmode ∧ RegsOnly [] s t gid g ∧
      ∃ q, (t.group gid).split? p.born = some q ∧ q.st = .sleep ∧ q.why = .idle ∧ q.deadline = s.now g.core + 256 ∧
        q.pc = p.pc ∧ q.mask = p.mask ∧ q.stack = p.stack)))

/-- Tier 2, derived (R166 to R170, R273, R274, R278): a cause that goes to the handler writes the trap record, sends the split to
the handler address of the kernel descriptor with its mask, and marks the group as in its handler; no register, no memory
and no other split changes. An encoding that is illegal for the kernel raises ILLEGAL with the lowest DETAIL of its checks,
whatever else holds. A split that is not ready, or that is in the middle of another form, issues nothing. While FMODE.CHKSB is 1, an
instruction that would read or write a register 1 to 3 cycles after its F-class writer raises SCOREBOARD instead of issuing, with
TRAP.PC its address, unless it raises a cause of a lower code, which one of slot V never does. Model's choice, log 71: a form that reads
memory itself is in the middle of its execution after its issue. -/
def Obligations.TrapsAreTaken : Prop :=
  (∀ s gid g p (r : TrapInfo), Tbl.find s.groups gid = some g → g.split? p.born = some p → g.inh = false →
    s.handlerOf g ≠ 0 → r.cause ≠ 8 → r.cause ≠ 14 → r.cause ≠ 16 →
    let t := s.takeTrap gid p.born r
    let g' := t.group gid
    g'.trap.cause = BitVec.ofNat 32 (r.entry % 64 * 2 ^ 26 + r.how % 4 * 2 ^ 24 + r.detail % 256 * 2 ^ 16 +
      r.info % 256 * 2 ^ 8 + r.cause % 32) ∧
    g'.trap.mask = r.mask ∧ g'.trap.smask = p.mask ∧ g'.trap.pc = r.pc ∧ g'.trap.rpc = r.rpc ∧ g'.trap.addr = r.addr ∧
    g'.trap.ctl = 0 ∧ g'.trap.fix = s.fixWord g r.pc.toNat ∧ g'.inh = true ∧
    (∃ q, g'.split? p.born = some q ∧ q.pc = BitVec.ofNat 64 (s.handlerOf g) ∧ q.mask = p.mask ∧ q.st = .run ∧
      q.stack = p.stack) ∧
    (∀ b, b ≠ p.born → g'.split? b = g.split? b) ∧ g'.fmode = g.fmode ∧ g'.log = g.log ∧ KeepsRegs [] g g' ∧
    SameMemory s t ∧ (∀ h, h ≠ gid → Tbl.find t.groups h = Tbl.find s.groups h)) ∧
  (∀ i s gid g p, (view i).lay ≠ .event → s.cur = some (gid, p.born) → Tbl.find s.groups gid = some g →
    g.split? p.born = some p →
    (p.wait = none → illegalDetail i g.regs ≠ 0 → Raises i s gid g p { cause := 1, detail := illegalDetail i g.regs }) ∧
    (p.wait = none → illegalDetail i g.regs = 0 → s.ready gid g p i = false → exec i s = .next { s with cur := none }) ∧
    (∀ w, p.wait = some w → w.insn ≠ i → exec i s = .next { s with cur := none })) ∧
  (∀ i s gid g p, (view i).lay ≠ .event → s.cur = some (gid, p.born) → Tbl.find s.groups gid = some g →
    g.split? p.born = some p → illegalDetail i g.regs = 0 → s.ready gid g p i = true →
    slotPowered (s.die (dieOf g.core)) (view i).slot = true → s.canPay gid g p i = true → g.fmode.getLsbD 15 = true →
    (∃ h ∈ g.hz, h.fixed = true ∧ h.cyc < s.now g.core ∧ s.now g.core ≤ h.cyc + 3 ∧ (h.reg ∈ readsOf i ∨ h.reg ∈ writesOf i)) →
    ((view i).slot = .v → Raises i s gid g p { cause := 3 }) ∧
    (∃ r : TrapInfo, exec i s = .next (State.takeTrap { s with cur := none } gid p.born r) ∧
      (r = { cause := 3, mask := p.mask, pc := p.pc, rpc := p.pc } ∨ r.cause < 3)))

/-- Tier 2, derived (R167, R231, R385): trap raises SWTRAP; brk raises BREAK, which, with no debug session open, enters the
handler when the descriptor names one and else goes on at the next instruction. -/
def Obligations.SoftwareTraps : Prop :=
  (∀ (f : RG) s gid g p, Issues (.swTrap f) s gid g p → Raises (.swTrap f) s gid g p { cause := 15 } ∧
    (g.inh = false → s.handlerOf g ≠ 0 → Gives (.swTrap f) s (fun t =>
      (t.group gid).trap.cause = 0xFC00000F ∧ (t.group gid).trap.mask = p.mask ∧ (t.group gid).trap.pc = p.pc ∧
      (t.group gid).trap.rpc = p.pc ∧ (t.group gid).inh = true ∧
      ∃ q, (t.group gid).split? p.born = some q ∧ q.pc = BitVec.ofNat 64 (s.handlerOf g) ∧ q.mask = p.mask))) ∧
  (∀ (f : RG) s gid g p, Issues (.brk f) s gid g p → g.inh = false → g.skipBrk ≠ some p.born →
    (s.slice g.slice).dbg.ctl.getLsbD 31 = false →
    (s.handlerOf g ≠ 0 → Gives (.brk f) s (fun t =>
      (t.group gid).trap.cause = 0xFC000010 ∧ (t.group gid).trap.mask = p.mask ∧ (t.group gid).trap.pc = p.pc ∧
      (t.group gid).trap.rpc = p.pc ∧ (t.group gid).inh = true ∧
      ∃ q, (t.group gid).split? p.born = some q ∧ q.pc = BitVec.ofNat 64 (s.handlerOf g) ∧ q.mask = p.mask)) ∧
    (s.handlerOf g = 0 → Gives (.brk f) s (fun t =>
      (∃ q, (t.group gid).split? p.born = some q ∧ q.pc = p.pc + 4 ∧ q.mask = p.mask ∧ q.st = p.st) ∧
      (t.group gid).fmode = g.fmode ∧ RegsOnly [] s t gid g)))

/-- Tier 2, derived (R171, R386, R387): rfe outside a handler raises ILLEGAL with DETAIL 7, and with live lanes of TRAP.SMASK
outside the split ILLEGAL with DETAIL 6; else, with DROP 0, no failed entry and no split parked, the split resumes at
TRAP.RPC, bit 0 cleared, with the live lanes of TRAP.SMASK, and the group leaves its handler with DROP clear. mask.rd gives
the issuing split's mask; mask.wr outside a handler raises PRIV, in one it sets the mask to the live lanes of TRAP.SMASK
that s(A) names, holding the others, and raises ILLEGAL with DETAIL 2 for an empty result or for live lanes of TRAP.SMASK
outside the split. -/
def Obligations.HandlerForms : Prop :=
  (∀ (f : RG) s gid g p, Issues (.rfe f) s gid g p →
    (g.inh = false → Raises (.rfe f) s gid g p { cause := 1, detail := 7 }) ∧
    (g.inh = true → g.trap.smask &&& g.live &&& ~~~p.lanes ≠ 0 → Raises (.rfe f) s gid g p { cause := 1, detail := 6 }) ∧
    (g.inh = true → g.trap.smask &&& g.live &&& ~~~p.lanes = 0 → g.trap.ctl.getLsbD 0 = false → g.failedOf = [] →
      (∀ q ∈ g.splits, q.st ≠ .park) → Gives (.rfe f) s (fun t =>
        let g' := t.group gid
        (∃ q, g'.split? p.born = some q ∧ q.pc = g.trap.rpc &&& ~~~1 ∧ q.mask = g.trap.smask &&& g.live ∧ q.held = 0 ∧
          q.st = .run ∧ q.stack = p.stack) ∧
        g'.inh = false ∧ g'.trap = { g.trap with ctl := 0 } ∧ g'.fmode = g.fmode ∧ g'.log = g.log ∧ KeepsRegs [] g g' ∧
        SameMemory s t ∧ (∀ h, h ≠ gid → Tbl.find t.groups h = Tbl.find s.groups h)))) ∧
  ((∀ f : RG, GivesScalar (.maskRd f) (fun _ => f.d.toNat) (fun c => c.mask)) ∧
  (∀ (f : RG) s gid g p, Issues (.maskWr f) s gid g p →
    let m := (ctx (.maskWr f) s gid g p).s f.a.toNat &&& g.live &&& g.trap.smask
    let inHandler := g.inh = true ∧ p.lanes &&& g.trap.smask ≠ 0
    (¬ inHandler → Raises (.maskWr f) s gid g p { cause := 2 }) ∧
    (inHandler → (m = 0 ∨ g.trap.smask &&& g.live &&& ~~~p.lanes ≠ 0) →
      Raises (.maskWr f) s gid g p { cause := 1, detail := 2 }) ∧
    (inHandler → m ≠ 0 → g.trap.smask &&& g.live &&& ~~~p.lanes = 0 → Gives (.maskWr f) s (fun t =>
      (∃ q, (t.group gid).split? p.born = some q ∧ q.mask = m ∧ q.held = p.lanes &&& ~~~m ∧ q.pc = p.pc + 4 ∧
        q.stack = p.stack ∧ q.st = p.st) ∧
      (t.group gid).fmode = g.fmode ∧ RegsOnly [] s t gid g))))

/-- Tier 2, derived (R280, R281, R388): sr.rd gives LANE in lanes, a 64-bit register in an s pair and any other in an s
register, with the values listed; sr.wr writes the RW bits of FMODE, in a handler TRAP.RPC and TRAP.CTL, and raises PRIV for
every other register. -/
def Obligations.SpecialRegisters : Prop :=
  (∀ (f : RG) s gid g p, Issues (.srRd f) s gid g p →
    let n := f.a.toNat * 64 + f.b.toNat
    let c := ctx (.srRd f) s gid g p
    let v := (afterIssue (.srRd f) s gid g p).srValue gid n
    (n = 8 → Gives (.srRd f) s (fun t => LaneHolds c (t.group gid) f.d.toNat (fun l => BitVec.ofNat 32 l) ∧
      (t.group gid).fmode = g.fmode ∧ RegsOnly [f.d.toNat] s t gid g ∧ GoesOn (.srRd f) s g p (t.group gid))) ∧
    (srWide n = true → Gives (.srRd f) s (fun t =>
      ScalarHolds c (t.group gid) f.d.toNat ((BitVec.ofNat 64 v).extractLsb' 0 32) ∧
      ScalarHolds c (t.group gid) (f.d.toNat + 1) ((BitVec.ofNat 64 v).extractLsb' 32 32) ∧ (t.group gid).fmode = g.fmode ∧
      RegsOnly [64 + f.d.toNat, 64 + f.d.toNat + 1] s t gid g ∧ GoesOn (.srRd f) s g p (t.group gid))) ∧
    (n ≠ 8 → srWide n = false → Gives (.srRd f) s (fun t => ScalarHolds c (t.group gid) f.d.toNat (BitVec.ofNat 32 v) ∧
      (t.group gid).fmode = g.fmode ∧ RegsOnly [64 + f.d.toNat] s t gid g ∧ GoesOn (.srRd f) s g p (t.group gid))) ∧
    (n = 0 → v = s.cycle) ∧ (n = 9 → v = g.num) ∧ (n = 0x10 → v = g.lCore) ∧ (n = 0x11 → v = g.lCl) ∧
    (n = 0x12 → v = g.lDie) ∧ (n = 0x13 → v = g.slice) ∧ (n = 0x30 → v = g.fmode.toNat) ∧
    (n = 0x31 → v = g.spadBase.toNat) ∧ (n = 0x32 → v = g.spadLimit.toNat) ∧ (n = 0x33 → v = g.privWords.toNat) ∧
    (n = 0x40 → v = g.trap.fix.toNat) ∧ (n = 0x41 → v = g.trap.cause.toNat) ∧ (n = 0x42 → v = g.trap.mask.toNat) ∧
    (n = 0x43 → v = g.trap.smask.toNat) ∧ (n = 0x44 → v = g.trap.pc.toNat) ∧ (n = 0x45 → v = g.trap.rpc.toNat) ∧
    (n = 0x46 → v = g.trap.addr.toNat) ∧ (n = 0x47 → v = g.trap.ctl.toNat)) ∧
  (∀ (f : RG) s gid g p, Issues (.srWr f) s gid g p →
    let n := f.a.toNat * 64 + f.b.toNat
    let c := ctx (.srWr f) s gid g p
    let inHandler := g.inh = true ∧ p.lanes &&& g.trap.smask ≠ 0
    (n = 0x30 → Gives (.srWr f) s (fun t =>
      (t.group gid).fmode = (g.fmode &&& ~~~0x9F07) ||| (c.s f.d.toNat &&& 0x9F07) ∧
      RegsOnly [] s t gid g ∧ GoesOn (.srWr f) s g p (t.group gid))) ∧
    (n = 0x45 → inHandler → Gives (.srWr f) s (fun t => (t.group gid).trap = { g.trap with rpc := c.sp2 f.d.toNat } ∧
      (t.group gid).fmode = g.fmode ∧ KeepsRegs [] g (t.group gid) ∧ SameMemory s t ∧
      GoesOn (.srWr f) s g p (t.group gid))) ∧
    (n = 0x47 → inHandler → Gives (.srWr f) s (fun t => (t.group gid).trap = { g.trap with ctl := c.s f.d.toNat &&& 1 } ∧
      (t.group gid).fmode = g.fmode ∧ KeepsRegs [] g (t.group gid) ∧ SameMemory s t ∧
      GoesOn (.srWr f) s g p (t.group gid))) ∧
    (n ≠ 0x30 → (¬ inHandler ∨ (n ≠ 0x45 ∧ n ≠ 0x47)) → Raises (.srWr f) s gid g p { cause := 2 }))

/-- Tier 2, derived (R389, R390, R392): nop, nop.waitsb, counter reads, gates and marks, and the boost forms. -/
def Obligations.CountersBoostAndNops : Prop :=
  GivesNothing .nopH ∧ (∀ f : RG, GivesNothing (.nop f)) ∧ (∀ f : RG, GivesNothing (.nopWaitsb f)) ∧
  (∀ (f : RG) s gid g p, Issues (.ctrRd f) s gid g p →
    let c := ctx (.ctrRd f) s gid g p
    let v := BitVec.ofNat 64 ((afterIssue (.ctrRd f) s gid g p).eventCount g.slice g.core (f.a.toNat * 64 + f.b.toNat))
    Gives (.ctrRd f) s (fun t => ScalarHolds c (t.group gid) f.d.toNat (v.extractLsb' 0 32) ∧
      ScalarHolds c (t.group gid) (f.d.toNat + 1) (v.extractLsb' 32 32) ∧ (t.group gid).fmode = g.fmode ∧
      RegsOnly [64 + f.d.toNat, 64 + f.d.toNat + 1] s t gid g ∧ GoesOn (.ctrRd f) s g p (t.group gid))) ∧
  (∀ (f : RG) (i : Instr) s gid g p, i = .ctrStart f ∨ i = .ctrStop f → Issues i s gid g p →
    let e := f.a.toNat * 64 + f.b.toNat
    Gives i s (fun t => (∀ k, Tbl.get (t.core g.core).closed false k =
        if k = e ∧ evPresent e = true ∧ (s.slice g.slice).allows e = true then decide (i = .ctrStop f)
        else Tbl.get (s.core g.core).closed false k) ∧
      (t.group gid).fmode = g.fmode ∧ RegsOnly [] s t gid g ∧ GoesOn i s g p (t.group gid))) ∧
  (∀ (f : RG) s gid g p, Issues (.ctrMark f) s gid g p → Gives (.ctrMark f) s (fun t =>
    ((s.slice g.slice).dbg.ctl.getLsbD 31 = true → (s.slice g.slice).dbg.trace.en = true →
      ∃ r, (t.slice g.slice).dbg.held.getLast? = some (g.core * 2 ^ 64 + s.now g.core, r) ∧ r.length = 32 ∧ r.head? = some 5 ∧
        (r.drop 20).take 4 = leBytes 4 ((ctx (.ctrMark f) s gid g p).s f.d.toNat).toNat) ∧
    (t.group gid).fmode = g.fmode ∧ RegsOnly [] s t gid g ∧ GoesOn (.ctrMark f) s g p (t.group gid))) ∧
  (∀ (f : RG) (i : Instr) s gid g p, i = .boostClaim f ∨ i = .boostRelease f → Issues i s gid g p → Gives i s (fun t =>
    (t.group gid).claim = decide (i = .boostClaim f) ∧ (t.group gid).fmode = g.fmode ∧ KeepsRegs [] g (t.group gid) ∧
    SameMemory s t ∧ GoesOn i s g p (t.group gid))) ∧
  (∀ (f : RG) s gid g p, Issues (.boostQuery f) s gid g p →
    let d := (afterIssue (.boostQuery f) s gid g p).die (dieOf g.core)
    Gives (.boostQuery f) s (fun t => (∃ w : Word, ScalarHolds (ctx (.boostQuery f) s gid g p) (t.group gid) f.d.toNat w ∧
        w.getLsbD 31 = d.boosting ∧ w.getLsbD 30 = d.fall ∧ w.getLsbD 28 = g.claim ∧ w.extractLsb' 24 4 = d.curvf ∧
        w.extractLsb' 16 8 = d.permits ∧ w.extractLsb' 0 16 = 0) ∧
      (t.group gid).fmode = g.fmode ∧ RegsOnly [64 + f.d.toNat] s t gid g ∧ GoesOn (.boostQuery f) s g p (t.group gid)))

/-- Tier 2, derived (R93, R393, R394): chart.sel and chart.rd of a table that can be read; without a table, or for a word that
selects nothing, the result is 0. -/
def Obligations.Charts : Prop :=
  (∀ (f : RG) s gid g p, Issues (.chartSel f) s gid g p →
    let c := ctx (.chartSel f) s gid g p
    let w := (c.s f.a.toNat).toNat
    let u := afterIssue (.chartSel f) s gid g p
    (16 ≤ w → Raises (.chartSel f) s gid g p { cause := 1, detail := 2 }) ∧
    (w < 16 → s.chartAt g w 0 = none → Gives (.chartSel f) s (fun t => ScalarHolds c (t.group gid) f.d.toNat 0 ∧
      ScalarHolds c (t.group gid) (f.d.toNat + 1) 0 ∧ (t.group gid).fmode = g.fmode ∧
      RegsOnly [64 + f.d.toNat, 64 + f.d.toNat + 1] s t gid g ∧ GoesOn (.chartSel f) s g p (t.group gid))) ∧
    (∀ a b, w < 16 → s.chartAt g w 0 = some a → u.tableBytes g a 256 = .ok b → u.tablePoison g a 256 = none → Gives (.chartSel f) s (fun t =>
      (∃ lo hi, ScalarHolds c (t.group gid) f.d.toNat lo ∧ ScalarHolds c (t.group gid) (f.d.toNat + 1) hi ∧
        ((∀ k < 8, field b (32 * k + 4) 4 % 2 = 0) → lo = 0 ∧ hi = 0) ∧
        (∀ k < 8, field b (32 * k + 4) 4 % 2 = 1 → (c.s f.b.toNat).toNat ≤ field b (32 * k) 4 →
          lo.getLsbD 31 = true ∧ lo.getLsbD 30 = false ∧ (c.s f.b.toNat).toNat ≤ hi.toNat ∧ hi.toNat ≤ field b (32 * k) 4)) ∧
      (t.group gid).fmode = g.fmode ∧ RegsOnly [64 + f.d.toNat, 64 + f.d.toNat + 1] s t gid g ∧
      GoesOn (.chartSel f) s g p (t.group gid)))) ∧
  (∀ (f : RG) s gid g p, Issues (.chartRd f) s gid g p →
    let c := ctx (.chartRd f) s gid g p
    let w := (c.s f.a.toNat).toNat
    let k := (c.s f.b.toNat).toNat
    let u := afterIssue (.chartRd f) s gid g p
    (7 < k → Raises (.chartRd f) s gid g p { cause := 1, detail := 2 }) ∧
    (k ≤ 7 → bits w 29 8 = 0 → nbit w 3 = false → nbit w 31 = false → Gives (.chartRd f) s (fun t =>
      ScalarHolds c (t.group gid) f.d.toNat 0 ∧ (t.group gid).fmode = g.fmode ∧
      RegsOnly [64 + f.d.toNat] s t gid g ∧ GoesOn (.chartRd f) s g p (t.group gid))) ∧
    (∀ a b, k ≤ 7 → bits w 29 8 = 0 → nbit w 3 = false → nbit w 31 = true →
      s.chartAt g (bits w 7 4) (bits w 2 0) = some a → u.tableBytes g a 32 = .ok b → u.tablePoison g a 32 = none → Gives (.chartRd f) s (fun t =>
        (∃ v, ScalarHolds c (t.group gid) f.d.toNat v ∧ (k = 7 → v = BitVec.ofNat 32 (field b 0 4)) ∧
          (2 ≤ k → k ≤ 6 → v = BitVec.ofNat 32 (field b (12 + 4 * (k - 2)) 4))) ∧
        (t.group gid).fmode = g.fmode ∧ RegsOnly [64 + f.d.toNat] s t gid g ∧ GoesOn (.chartRd f) s g p (t.group gid))))

/-! ## Memory and synchronisation forms (R319 to R376) -/

/-- Tier 2, derived (R187, R188, R189, R192): the checks of one lane, in their order: alignment, window, bounds. -/
def Obligations.AccessChecks : Prop :=
  ∀ (s : State) (g : Group) (o : AccOpt) (size lane : Nat) (ea : DWord), 0 < size → size ≤ 16 →
    let a := ea.toNat
    let x := a % 4194304
    let slot := (a - 0x01FFFFFFFF000000) / 4194304
    (a % size ≠ 0 → s.checkLane g o size lane ea = .error { cause := 4, info := Nat.log2 size }) ∧
    (a % size = 0 → 0x0200000000000000 ≤ a → s.checkLane g o size lane ea = .error { cause := 5 }) ∧
    (a % size = 0 → a < 0x01FFFFFF00000000 → o.glob = false → s.checkLane g o size lane ea = .error { cause := 5 }) ∧
    (a % size = 0 → 0x01FFFFFF00000000 ≤ a → a < 0x01FFFFFFFF000000 → o.priv = false →
      s.checkLane g o size lane ea = .error { cause := 5 }) ∧
    (a % size = 0 → 0x01FFFFFF00000000 ≤ a → a < 0x01FFFFFFFF000000 → o.priv = true →
      g.privWords.toNat < (a - 0x01FFFFFF00000000) / 4 + (size + 3) / 4 →
      s.checkLane g o size lane ea = .error { cause := 7 }) ∧
    (a % size = 0 → 0x01FFFFFFFF000000 ≤ a → a < 0x0200000000000000 → o.spad = false →
      s.checkLane g o size lane ea = .error { cause := 5 }) ∧
    (a % size = 0 → 0x01FFFFFFFF000000 ≤ a → a < 0x0200000000000000 → o.spad = true → slot = g.lCore →
      s.checkLane g o size lane ea =
        if x + size ≤ g.spadLimit.toNat then
          .ok [{ lane := lane, ea := ea, size := size, loc := .spad g.core (g.spadBase.toNat + x) }]
        else .error { cause := 6 }) ∧
    (a % size = 0 → 0x01FFFFFFFF000000 ≤ a → a < 0x0200000000000000 → o.spad = true → slot ≠ g.lCore →
      (s.clusterCores g.core).length ≤ slot → s.checkLane g o size lane ea = .error { cause := 5 })

/-- Tier 2, derived (R320, R322, R323, R326, R342, R346): a load, cnt.rd or ld.red whose lanes pass the checks records an entry of
KIND 1 and class I0 for its lanes, and goes on; a failing lane traps instead. -/
def Obligations.LoadsAreRecorded : Prop :=
  (∀ f : MO, LaneAccess (.ldB f) {} 1 (moAt f.a f.off 1) (fun _ _ => (1, 0)) (fun _ l => l)) ∧
  (∀ f : MO, LaneAccess (.ldBn f) {} 1 (moAt f.a f.off 1) (fun _ _ => (1, 0)) (fun _ l => l)) ∧
  (∀ f : MO, LaneAccess (.ldH f) {} 2 (moAt f.a f.off 2) (fun _ _ => (1, 0)) (fun _ l => l)) ∧
  (∀ f : MO, LaneAccess (.ldHn f) {} 2 (moAt f.a f.off 2) (fun _ _ => (1, 0)) (fun _ l => l)) ∧
  (∀ f : MO, LaneAccess (.ldW f) {} 4 (moAt f.a f.off 4) (fun _ _ => (1, 0)) (fun _ l => l)) ∧
  (∀ f : MO, LaneAccess (.ldD f) {} 8 (moAt f.a f.off 8) (fun _ _ => (1, 0)) (fun _ l => l)) ∧
  (∀ f : MO, LaneAccess (.ldQ f) {} 16 (moAt f.a f.off 16) (fun _ _ => (1, 0)) (fun _ l => l)) ∧
  (∀ f : MO, OneAccess (.ldsW f) { priv := false } 4 (fun c => moAt f.a f.off 4 c 0) (fun _ _ => (1, 0)) (fun _ l => l)) ∧
  (∀ f : MO, OneAccess (.ldsD f) { priv := false } 8 (fun c => moAt f.a f.off 8 c 0) (fun _ _ => (1, 0)) (fun _ l => l)) ∧
  (∀ f : MA, OneAccess (.cntRd f) { priv := false, spad := false, peer := false } 16
    (fun c => c.addr f.a.toNat (firstLane c.mask)) (fun _ _ => (1, 0)) (fun _ l => l)) ∧
  (∀ (f : MA) (i : Instr) s gid g p, i = .ldRedAddF32 f ∨ i = .ldRedAddBf16 f ∨ i = .ldRedMaxF32 f → Issues i s gid g p →
    let c := ctx i s gid g p
    let u := afterIssue i s gid g p
    ∀ at_ : Nat → Acc, (∀ l ∈ c.lanes, u.checkMc g.slice l (c.addr f.a.toNat l) = .ok [at_ l]) →
      RecordsAs i s gid g p 1 0 (c.lanes.map at_))

/-- Tier 2, derived (R320, R322, R324, R326, R345): a store whose lanes pass the checks records an entry whose KIND and class
its targets give and whose pieces hold the stored bytes; no byte is stored by the issue. -/
def Obligations.StoresAreRecorded : Prop :=
  (∀ f : MO, LaneAccess (.stB f) { acc := .store } 1 (moAt f.a f.off 1) storeEntry
    (fun c l => withData l (fun n => (c.v f.d.toNat n).toNat))) ∧
  (∀ f : MO, LaneAccess (.stH f) { acc := .store } 2 (moAt f.a f.off 2) storeEntry
    (fun c l => withData l (fun n => (c.v f.d.toNat n).toNat))) ∧
  (∀ f : MO, LaneAccess (.stW f) { acc := .store } 4 (moAt f.a f.off 4) storeEntry
    (fun c l => withData l (fun n => (c.v f.d.toNat n).toNat))) ∧
  (∀ f : MO, LaneAccess (.stD f) { acc := .store } 8 (moAt f.a f.off 8) storeEntry
    (fun c l => withData l (fun n => (c.vp f.d.toNat n).toNat))) ∧
  (∀ f : MO, LaneAccess (.stQ f) { acc := .store } 16 (moAt f.a f.off 16) storeEntry
    (fun c l => withData l (fun n => (c.v (f.d.toNat + 3) n ++ c.v (f.d.toNat + 2) n ++ c.v (f.d.toNat + 1) n ++
      c.v f.d.toNat n).toNat))) ∧
  (∀ f : MO, OneAccess (.stsW f) { acc := .store, priv := false } 4 (fun c => moAt f.a f.off 4 c 0) storeEntry
    (fun c l => withData l (fun _ => (c.s f.d.toNat).toNat))) ∧
  (∀ (f : MA) s gid g p, Issues (.stMc f) s gid g p →
    let c := ctx (.stMc f) s gid g p
    let u := afterIssue (.stMc f) s gid g p
    ∀ at_ : Nat → Acc, (∀ l ∈ c.lanes, u.checkMc g.slice l (c.addr f.a.toNat l) = .ok [at_ l]) →
      RecordsAs (.stMc f) s gid g p 14 2 (c.lanes.map (fun l => { at_ l with v := (c.v f.d.toNat (at_ l).lane).toNat })))

/-- Tier 2, derived (R320, R328, R331, R336, R339, R342, R372): atomics, reductions, arrivals, cnt.add and coll.signal record an
entry of class I1 with the operands read at issue. -/
def Obligations.AtomicsAreRecorded : Prop :=
  (∀ f : MA, LaneAccess (.atomA f) { acc := .store, priv := false, host := f.x == 0 } 4 (fun c l => c.addr f.a.toNat l)
    (fun _ _ => (6, 1)) (fun c l => l.map (fun a => { a with v := (c.v (f.d.toNat + 1) a.lane).toNat, v2 := 0 }))) ∧
  (∀ f : MA, LaneAccess (.atomB f) { acc := .store, priv := false, host := f.x == 3 } 4 (fun c l => c.addr f.a.toNat l)
    (fun _ _ => (6, 1)) (fun c l => l.map (fun a => { a with v := (c.v (f.d.toNat + 1) a.lane).toNat, v2 := 0 }))) ∧
  (∀ f : MA, f.x = 0 → LaneAccess (.atomC f) { acc := .store, priv := false } 4 (fun c l => c.addr f.a.toNat l)
    (fun _ _ => (6, 1)) (fun c l => l.map (fun a =>
      { a with v := (c.v (f.d.toNat + 1) a.lane).toNat, v2 := (c.v (f.d.toNat + 2) a.lane).toNat }))) ∧
  (∀ f : MA, f.x = 1 ∨ f.x = 2 → LaneAccess (.atomC f) { acc := .store, priv := false, host := false } 4
    (fun c l => c.addr f.a.toNat l) (fun _ _ => (6, 1))
    (fun c l => l.map (fun a => { a with v := (c.v (f.d.toNat + 1) a.lane).toNat, v2 := 0 }))) ∧
  (∀ f : MA, f.x = 3 → LaneAccess (.atomC f) { acc := .store, priv := false } 8 (fun c l => c.addr f.a.toNat l)
    (fun _ _ => (6, 1)) (fun c l => l.map (fun a =>
      { a with v := (c.vp (f.d.toNat + 2) a.lane).toNat, v2 := 0 }))) ∧
  (∀ f : MA, LaneAccess (.red f) { acc := .store, priv := false, host := f.x == 0 } 4 (fun c l => c.addr f.a.toNat l)
    (fun _ _ => (6, 1)) (fun c l => l.map (fun a => { a with v := (c.v f.d.toNat a.lane).toNat, v2 := 0 }))) ∧
  (∀ f : MA, OneAccess (.barArrive f) { acc := .store, priv := false, peer := false, host := false } 8
    (fun c => c.addr f.a.toNat (firstLane c.mask)) (fun _ _ => (8, 1)) (fun _ l => l)) ∧
  (∀ f : RG, LaneAccess (.arrArrive f) { acc := .store, glob := false, priv := false } 16 (fun c l => c.addr f.a.toNat l)
    (fun _ _ => (8, 1)) (fun c l => l.map (fun a => { a with v := wrap 48 (c.v f.d.toNat a.lane).toInt }))) ∧
  (∀ f : RG, LaneAccess (.arrExpect f) { acc := .store, glob := false, priv := false } 16 (fun c l => c.addr f.a.toNat l)
    (fun _ _ => (8, 1)) (fun c l => groupByObject l (fun n => (c.v f.d.toNat n).toInt))) ∧
  (∀ f : MA, OneAccess (.cntAdd f) { acc := .store, priv := false, spad := false, peer := false } 16
    (fun c => c.addr f.a.toNat (firstLane c.mask)) (fun _ _ => (8, 1))
    (fun c l => l.map (fun a => { a with v := (c.sp2 f.d.toNat).toNat }))) ∧
  (∀ (f : RG) s gid g p, Issues (.collSignal f) s gid g p →
    let c := ctx (.collSignal f) s gid g p
    let l := firstLane c.mask
    Gives (.collSignal f) s (fun t => ∃ e, Records (.collSignal f) s t gid g p e ∧ Fresh (.collSignal f) g p 11 1
      [{ lane := l, ea := c.addr f.a.toNat l, size := 0, v := (c.s f.b.toNat).toNat }] e))

/-- Tier 2, derived (R217, R220, R332, R333, R334): the fences and phase operations: an acquire with every earlier value back goes
on; a release makes its split sleep; a close is an entry of KIND 7; phase.cycle is one and its split sleeps until it is freed;
phase.test tells whether every entry is covered. -/
def Obligations.FencesAndPhases : Prop :=
  (∀ (f : MA) s gid g p, Issues (.fence f) s gid g p →
    (f.x = 0 → g.valuesBack g.nextNum = true → Gives (.fence f) s (fun t => WaitOver p (t.group gid) ∧
      t.group gid = { g with splits := (t.group gid).splits, lastCyc := s.now g.core, count_ := g.count_ + 1 } ∧
      (∀ a, t.memByte a = s.memByte a) ∧ (∀ h, h ≠ gid → Tbl.find t.groups h = Tbl.find s.groups h))) ∧
    (f.x ≠ 0 → Gives (.fence f) s (fun t =>
      SleepsAt g p (t.group gid) { insn := .fence f, num := g.nextNum } (some g.nextNum) ∧
      (t.group gid).fmode = g.fmode ∧ RegsOnly [] s t gid g))) ∧
  (∀ (f : MA) s gid g p, Issues (.phaseOpen f) s gid g p → g.valuesBack g.nextNum = true →
    Gives (.phaseOpen f) s (fun t => WaitOver p (t.group gid) ∧
      t.group gid = { g with splits := (t.group gid).splits, lastCyc := s.now g.core, count_ := g.count_ + 1 } ∧
      (∀ a, t.memByte a = s.memByte a) ∧ (∀ h, h ≠ gid → Tbl.find t.groups h = Tbl.find s.groups h) ∧
      (f.sc.toNat < 5 → SameMemory s t) ∧
      (5 ≤ f.sc.toNat → (s.core g.core).fused = false →
        ∀ l ∈ (t.core g.core).lines, l.priv = true ∨ ∀ e ∈ l.bytes, e.2.dirty = true))) ∧
  (∀ (f : MA) s gid g p, Issues (.phaseClose f) s gid g p →
    (f.sc.toNat < 6 ∨ ∀ b ∈ (s.die (dieOf g.core)).couch, b.2.slice ≠ g.slice ∨ b.2.launch ≠ g.launch) →
    Gives (.phaseClose f) s (fun t => ∃ e, Records (.phaseClose f) s t gid g p e ∧ Fresh (.phaseClose f) g p 7 1 [] e ∧
      e.sc = f.sc.toNat)) ∧
  (∀ (f : MA) s gid g p, Issues (.phaseCycle f) s gid g p →
    (f.sc.toNat < 6 ∨ ∀ b ∈ (s.die (dieOf g.core)).couch, b.2.slice ≠ g.slice ∨ b.2.launch ≠ g.launch) →
    (∀ e ∈ g.log, e.id ≠ freePlace g.log) →
    Gives (.phaseCycle f) s (fun t => (∃ e, (t.group gid).log = g.log ++ [e] ∧ Fresh (.phaseCycle f) g p 7 1 [] e ∧
        e.sc = f.sc.toNat) ∧
      SleepsAt g p (t.group gid) { insn := .phaseCycle f, num := g.nextNum + 1, ent := some (freePlace g.log) } none ∧
      restLog (t.group gid) = restLog g ∧ KeepsRegs [] g (t.group gid) ∧ SameMemory s t)) ∧
  (∀ f : MA, GivesPred (.phaseTest f) (fun _ => f.d.toNat)
    (fun c _ => c.g.log.all (covered c.g.core f.sc.toNat)))

/-- Tier 2, derived (R336, R340 to R343, R360, R361, R373): a wait whose condition holds goes on at once, and a test or count
writes what it finds. -/
def Obligations.WaitsAndTests : Prop :=
  (∀ (f : MA) s gid g p (a : Acc), Issues (.barWait f) s gid g p → f.o.toNat < 2 →
    let c := ctx (.barWait f) s gid g p
    let u := afterIssue (.barWait f) s gid g p
    let v := ofLe (u.homeRead g f.sc.toNat a.loc 8)
    c.checkOne u { priv := false, peer := false, host := false } 8 (c.addr f.a.toNat (firstLane c.mask)) = .ok [a] →
    barBad v = false → barGen v ≠ (c.s f.d.toNat).toNat % 2 ^ 20 → waitTurn g g.nextNum [a] = true →
    u.locPoison a.loc 8 = none →
    (f.o.toNat = 0 ∨ g.valuesBack g.nextNum = true) →
    Gives (.barWait f) s (fun t => WaitOver p (t.group gid) ∧ KeepsRegs [] g (t.group gid) ∧ KeepsRest g (t.group gid) ∧
      ∀ x, t.memByte x = s.memByte x)) ∧
  (∀ (f : MA) s gid g p (a : Acc), Issues (.barArriveWait f) s gid g p →
    let c := ctx (.barArriveWait f) s gid g p
    let u := afterIssue (.barArriveWait f) s gid g p
    (c.arrived = none →
      c.checkOne u { acc := .store, priv := false, peer := false, host := false } 8 (c.addr f.a.toNat (firstLane c.mask)) = .ok [a] →
      (∀ e ∈ g.log, e.id ≠ freePlace g.log) → p.mask ≠ 0 →
      Gives (.barArriveWait f) s (fun t =>
        (∃ e, (t.group gid).log = g.log ++ [e] ∧ Fresh (.barArriveWait f) g p 8 1 [a] e) ∧
        SleepsAt g p (t.group gid)
          { insn := .barArriveWait f, num := g.nextNum + 1, accs := [a], ent := some (freePlace g.log) } none ∧
        restLog (t.group gid) = restLog g ∧ KeepsRegs [] g (t.group gid) ∧ SameMemory s t)) ∧
    (∀ e, c.arrived = some e → g.entry? e.id = some e → e.complete = false → Gives (.barArriveWait f) s (fun t =>
      SleepsAt g p (t.group gid) { insn := .barArriveWait f, num := g.nextNum, accs := e.acc, ent := some e.id } none ∧
      (t.group gid).log = g.log ∧ (t.group gid).fmode = g.fmode ∧ RegsOnly [] s t gid g))) ∧
  (∀ (f : MA) s gid g p (a : Acc), Issues (.barCount f) s gid g p →
    let c := ctx (.barCount f) s gid g p
    let u := afterIssue (.barCount f) s gid g p
    let v := ofLe (u.homeRead g f.sc.toNat a.loc 8)
    c.checkOne u { priv := false, peer := false, host := false } 8 (c.addr f.a.toNat (firstLane c.mask)) = .ok [a] →
    barBad v = false → waitTurn g g.nextNum [a] = true → u.locPoison a.loc 8 = none → (f.o.toNat % 2 = 0 ∨ g.valuesBack g.nextNum = true) →
    Gives (.barCount f) s (fun t => ScalarHolds c (t.group gid) f.d.toNat (BitVec.ofNat 32 (barPend v)) ∧
      KeepsRegs [64 + f.d.toNat] g (t.group gid) ∧ KeepsRest g (t.group gid) ∧ GoesOn (.barCount f) s g p (t.group gid) ∧
      ∀ x, t.memByte x = s.memByte x)) ∧
  (∀ (f : RG) s gid g p accs, Issues (.arrTest f) s gid g p →
    let c := ctx (.arrTest f) s gid g p
    let u := afterIssue (.arrTest f) s gid g p
    let tgt := (c.s f.b.toNat).toNat % 65536
    c.checkLanes u { glob := false, priv := false } 16 (fun l => c.addr f.a.toNat l) = .ok accs →
    waitTurn g g.nextNum accs = true → accs.findSome? (fun a => u.locPoison a.loc 16) = none →
    Gives (.arrTest f) s (fun t => PredHolds c (t.group gid) f.d.toNat (fun l =>
        match (u.arrivalsOf accs).find? (fun x => x.1 == l) with | some x => reached x.2.gen tgt | none => false) ∧
      RegsOnly [96 + f.d.toNat] s t gid g ∧ GoesOn (.arrTest f) s g p (t.group gid))) ∧
  (∀ (f : RG) s gid g p accs, Issues (.arrWait f) s gid g p →
    let c := ctx (.arrWait f) s gid g p
    let u := afterIssue (.arrWait f) s gid g p
    let tgt := (c.s f.d.toNat).toNat % 65536
    c.checkLanes u { glob := false, priv := false } 16 (fun l => c.addr f.a.toNat l) = .ok accs →
    waitTurn g g.nextNum accs = true → accs.findSome? (fun a => u.locPoison a.loc 16) = none →
    (∀ x ∈ u.arrivalsOf accs, x.2.err = 0 ∧ reached x.2.gen tgt = true) →
    Gives (.arrWait f) s (fun t => WaitOver p (t.group gid) ∧ (t.group gid).fmode = g.fmode ∧ RegsOnly [] s t gid g)) ∧
  (∀ (f : MA) s gid g p (a : Acc), Issues (.cntWait f) s gid g p →
    let c := ctx (.cntWait f) s gid g p
    let u := afterIssue (.cntWait f) s gid g p
    let b := u.homeRead g f.sc.toNat a.loc 16
    c.checkOne u { priv := false, spad := false, peer := false } 16 (c.addr f.a.toNat (firstLane c.mask)) = .ok [a] →
    waitTurn g g.nextNum [a] = true → u.locPoison a.loc 16 = none → nbit (field b 8 8) 63 = false → (c.sp2 f.d.toNat).toNat ≤ field b 0 8 →
    Gives (.cntWait f) s (fun t => WaitOver p (t.group gid) ∧ (t.group gid).fmode = g.fmode ∧ RegsOnly [] s t gid g)) ∧
  (∀ (f : MA) s gid g p (a : Acc), Issues (.cntTest f) s gid g p →
    let c := ctx (.cntTest f) s gid g p
    let u := afterIssue (.cntTest f) s gid g p
    let b := u.homeRead g f.sc.toNat a.loc 16
    c.checkOne u { priv := false, spad := false, peer := false } 16 (c.addr f.a.toNat (firstLane c.mask)) = .ok [a] →
    waitTurn g g.nextNum [a] = true → u.locPoison a.loc 16 = none →
    Gives (.cntTest f) s (fun t =>
      ScalarHolds c (t.group gid) f.d.toNat (if nbit (field b 8 8) 63 then 2
        else if (c.sp2 f.d.toNat).toNat ≤ field b 0 8 then 1 else 0) ∧
      ScalarHolds c (t.group gid) (f.d.toNat + 1) 0 ∧ (t.group gid).fmode = g.fmode ∧
      RegsOnly [64 + f.d.toNat, 64 + f.d.toNat + 1] s t gid g ∧ GoesOn (.cntTest f) s g p (t.group gid))) ∧
  (∀ (f : RG) s gid g p, Issues (.collWait f) s gid g p →
    (∀ e ∈ g.log, e.kind ≠ 11 ∨ isColl e.instr = false ∨ ∀ a ∈ e.acc, a.ea ≠ (ctx (.collWait f) s gid g p).addr1) →
    Gives (.collWait f) s (fun t => WaitOver p (t.group gid) ∧ (t.group gid).fmode = g.fmode ∧ RegsOnly [] s t gid g)) ∧
  (∀ f : RG, GivesPred (.collTest f) (fun _ => f.d.toNat) (fun c _ =>
    !c.g.log.any (fun e => e.kind == 11 && isColl e.instr && e.acc.any (fun a => a.ea == c.addr1)))) ∧
  (∀ (f : RG) s gid g p w, Issues (.mmaWait f) s gid g p → (s.core g.core).tileWg = some w → w = g.wg →
    (∀ e ∈ g.log, e.kind ≠ 12 ∨ isMma e.instr = false ∨ (view e.instr).d ≠ f.d.toNat) →
    Gives (.mmaWait f) s (fun t => WaitOver p (t.group gid) ∧ (t.group gid).fmode = g.fmode ∧ RegsOnly [] s t gid g)) ∧
  (∀ (f : RG) s gid g p w, Issues (.mmaFence f) s gid g p → (s.core g.core).tileWg = some w →
    (∀ e ∈ g.log, e.num < g.nextNum → mmaFenced g.core f.b.toNat e = true) → g.zeroed (s.now g.core) = true →
    g.converted g.nextNum = true →
    Gives (.mmaFence f) s (fun t => WaitOver p (t.group gid) ∧ (t.group gid).fmode = g.fmode ∧ RegsOnly [] s t gid g))

/-- Tier 2, derived (R98, R366 to R371): copies and collectives: a cp.issue whose image can be read and accepted gives the
promise of R98, an entry and a copy on the engine; an image at a peer is asked for in a load of the group, for which the split waits.
cp.rekey and cp.cancel answer for the outstanding copy of an engine that CEMASK names, and raise PRIV for any other; a copy with
pieces not yet started is marked as cancelled. Model's choice, log 36 and 71: the selector bits and field limits that the spec does
not spell out, and that the split waits after the issue. -/
def Obligations.CopiesAndCollectives : Prop :=
  (∀ (f : RG) (i : Instr) (ty : Nat) s gid g p (a : Acc) b ld e d, (i = .cpIssue f ∧ ty = 2) ∨ (i = .cpIssue2d f ∧ ty = 3) →
    Issues i s gid g p →
    let c := ctx i s gid g p
    let u := afterIssue i s gid g p
    let x := (u.die d).engine e
    let pr := promiseOf s.cycle (owedBytes x.jobs none) (CopyJob.size { image := b })
    selector (c.s f.b.toNat) = some (ld, e) → u.physDie g.slice ld = some d → d < 4 → u.ceNamed g.slice d e = true →
    (x.jobs.filter (·.queue.isNone)).length < 64 →
    c.checkOne u { priv := false } 64 (c.addr f.a.toNat (firstLane c.mask)) = .ok [a] → a.remote = false →
    waitTurn g g.nextNum [a] = true → u.frameBusy g.slice a = false → u.ctlOwner g a = true → u.readsPoison g a = none → b = u.readLoc g a.loc 64 →
    u.imageBad g.slice d ty b = false → u.objFault g.slice d b = none →
    (∀ n ∈ g.log, n.id ≠ freePlace g.log) →
    Gives i s (fun t =>
      ScalarHolds c (t.group gid) f.d.toNat (BitVec.ofNat 32 pr) ∧
      ScalarHolds c (t.group gid) (f.d.toNat + 1) ((BitVec.ofNat 64 pr).extractLsb' 32 32) ∧
      (∃ j, ((t.die d).engine e).jobs = x.jobs ++ [j] ∧ j.image = b ∧ j.slice = g.slice ∧ j.ctx = g.ctx ∧
        j.gid = some (gid, freePlace g.log) ∧ j.next = 0 ∧ j.landed = 0 ∧ j.accepted = s.cycle) ∧
      (∃ n, (t.group gid).log = g.log ++ [n] ∧ n.kind = (if spansMeet b then 10 else 9) ∧ n.mask = p.mask ∧ n.pc = p.pc ∧
        n.img = b ∧ n.promise = BitVec.ofNat 64 pr) ∧
      KeepsRegs [64 + f.d.toNat, 64 + f.d.toNat + 1] g (t.group gid) ∧ restLog (t.group gid) = restLog g ∧ SameMemory s t ∧
      GoesOn i s g p (t.group gid))) ∧
  (∀ (f : RG) (i : Instr) s gid g p (a : Acc), i = .cpIssue f ∨ i = .cpIssue2d f ∨ i = .collIssue f → Issues i s gid g p →
    let c := ctx i s gid g p
    let u := afterIssue i s gid g p
    (i = .collIssue f ∨ ∃ ld e d, selector (c.s f.b.toNat) = some (ld, e) ∧ u.physDie g.slice ld = some d ∧ d < 4 ∧
      u.ceNamed g.slice d e = true ∧ ((((u.die d).engine e).jobs.filter (·.queue.isNone)).length < 64)) →
    c.checkOne u { priv := false } 64 (c.addr f.a.toNat (firstLane c.mask)) = .ok [a] → a.remote = true →
    waitTurn g g.nextNum [a] = true → c.asked = false → (∀ n ∈ g.log, n.id ≠ freePlace g.log) →
    Gives i s (fun t =>
      (∃ n, (t.group gid).log = g.log ++ [n] ∧ n.kind = 1 ∧ n.cls = 0 ∧ n.mask = p.mask ∧ n.dst = [] ∧ n.done = 0 ∧
        n.acc.map (fun x => (x.ea, x.off, x.size)) = (List.range 16).map (fun k => (a.ea + BitVec.ofNat 64 (4 * k), 4 * k, 4))) ∧
      SleepsAt g p (t.group gid) { insn := i, num := g.nextNum, kept := c.kept } none ∧
      restLog (t.group gid) = restLog g ∧ KeepsRegs [] g (t.group gid) ∧ SameMemory s t)) ∧
  (∀ (f : RG) (i : Instr) s gid g p ld e, i = .cpRekey f ∨ i = .cpCancel f → Issues i s gid g p →
    selector ((ctx i s gid g p).s f.b.toNat) = some (ld, e) →
    let d := ((afterIssue i s gid g p).physDie g.slice ld).getD 4
    (4 ≤ d ∨ (afterIssue i s gid g p).ceNamed g.slice d e = false) → Raises i s gid g p { cause := 2 }) ∧
  (∀ (f : RG) s gid g p ld e, Issues (.cpRekey f) s gid g p →
    let c := ctx (.cpRekey f) s gid g p
    let u := afterIssue (.cpRekey f) s gid g p
    let d := (u.physDie g.slice ld).getD 4
    selector (c.s f.b.toNat) = some (ld, e) → d < 4 → u.ceNamed g.slice d e = true →
    let v := BitVec.ofNat 64 (match u.copyFrom g d e c.addr1 with
      | some j => if j.stopped.isSome then 0
          else promiseOf s.cycle (owedBytes ((u.die d).engine e).jobs (some j.id)) (j.size - j.landed)
      | none => s.cycle)
    Gives (.cpRekey f) s (fun t => ScalarHolds c (t.group gid) f.d.toNat (v.extractLsb' 0 32) ∧
      ScalarHolds c (t.group gid) (f.d.toNat + 1) (v.extractLsb' 32 32) ∧ (t.group gid).fmode = g.fmode ∧
      RegsOnly [64 + f.d.toNat, 64 + f.d.toNat + 1] s t gid g ∧ GoesOn (.cpRekey f) s g p (t.group gid))) ∧
  (∀ (f : RG) s gid g p ld e, Issues (.cpCancel f) s gid g p →
    let c := ctx (.cpCancel f) s gid g p
    let u := afterIssue (.cpCancel f) s gid g p
    let d := (u.physDie g.slice ld).getD 4
    selector (c.s f.b.toNat) = some (ld, e) → d < 4 → u.ceNamed g.slice d e = true →
    ((∀ j, u.copyFrom g d e c.addr1 = some j → j.stopped ≠ none ∨ j.cancel ≠ none ∨ j.size ≤ j.next) → Gives (.cpCancel f) s (fun t => ScalarHolds c (t.group gid) f.d.toNat 0 ∧
      ScalarHolds c (t.group gid) (f.d.toNat + 1) 0 ∧ (t.group gid).fmode = g.fmode ∧
      RegsOnly [64 + f.d.toNat, 64 + f.d.toNat + 1] s t gid g ∧ GoesOn (.cpCancel f) s g p (t.group gid))) ∧
    (∀ j, u.copyFrom g d e c.addr1 = some j → j.stopped = none → j.cancel = none → j.next < j.size →
      Gives (.cpCancel f) s (fun t => ScalarHolds c (t.group gid) f.d.toNat 1 ∧
        ScalarHolds c (t.group gid) (f.d.toNat + 1) 0 ∧
        (∀ k ∈ ((t.die d).engine e).jobs, k.id = j.id → k.cancel = some (gid, s.now g.core, g.nextNum)) ∧
        RegsOnly [64 + f.d.toNat, 64 + f.d.toNat + 1] s t gid g ∧ GoesOn (.cpCancel f) s g p (t.group gid)))) ∧
  (∀ (f : RG) s gid g p (a : Acc) b, Issues (.collIssue f) s gid g p →
    let c := ctx (.collIssue f) s gid g p
    let u := afterIssue (.collIssue f) s gid g p
    let d := dieOf g.core
    let j0 : CollJob := { image := b }
    let pr := promiseOf s.cycle ((u.die d).collOwed g.slice) (j0.bytes * (j0.nmem - 1))
    c.checkOne u { priv := false } 64 (c.addr f.a.toNat (firstLane c.mask)) = .ok [a] → a.remote = false →
    waitTurn g g.nextNum [a] = true → u.frameBusy g.slice a = false → u.ctlOwner g a = true → u.readsPoison g a = none → b = u.readLoc g a.loc 64 →
    u.imageBad g.slice d 4 b = false → u.objFault g.slice d b = none → (∀ n ∈ g.log, n.id ≠ freePlace g.log) →
    Gives (.collIssue f) s (fun t =>
      ScalarHolds c (t.group gid) f.d.toNat (BitVec.ofNat 32 pr) ∧
      ScalarHolds c (t.group gid) (f.d.toNat + 1) ((BitVec.ofNat 64 pr).extractLsb' 32 32) ∧
      (∃ j, (t.die d).colls = (u.die d).colls ++ [j] ∧ j.image = b ∧ j.slice = g.slice ∧ j.gid = some (gid, freePlace g.log) ∧
        j.tiles = [] ∧ j.gated = (field b 0x26 1 == 1) ∧ j.accepted = s.cycle) ∧
      (∃ n, (t.group gid).log = g.log ++ [n] ∧ n.kind = 11 ∧ n.cls = 1 ∧ n.mask = p.mask ∧ n.pc = p.pc ∧ n.img = b) ∧
      KeepsRegs [64 + f.d.toNat, 64 + f.d.toNat + 1] g (t.group gid) ∧ restLog (t.group gid) = restLog g ∧ SameMemory s t ∧
      GoesOn (.collIssue f) s g p (t.group gid)))

/-- Tier 2, derived (R351, R353, R356, R363, R364, R365): the matrix and tile forms on a tile store that the workgroup holds: an
mma.issue with a good format block and operands queues its operation on the participating cores and records an entry of KIND 12;
tile.tld and tile.tst record one; tile.tzero zeroes its accumulator; tile.tcvt writes its rows. Model's choice, log 38 and 5:
mma.fence takes the tile store; undefined elements are free values. -/
def Obligations.MatrixForms : Prop :=
  (∀ (f : RG) (i : Instr) (cl : Bool) s gid g p (a : Acc) b, (i = .mmaIssueCore f ∧ cl = false) ∨ (i = .mmaIssueCl f ∧ cl = true) →
    Issues i s gid g p → (cl = true → f.d.toNat % 4 = 0) → (s.core g.core).tileWg = some g.wg →
    let c := ctx i s gid g p
    let u := afterIssue i s gid g p
    (∀ k ∈ u.mmaCores g (Fb.of b), (u.core k).queue.length < 8) →
    c.checkOne u { priv := false, peer := false } 64 (c.addr f.a.toNat (firstLane c.mask)) = .ok [a] →
    waitTurn g g.nextNum [a] = true → u.frameBusy g.slice a = false → u.ctlOwner g a = true → u.readsPoison g a = none → b = u.readLoc g a.loc 64 →
    (Fb.of b).ok b cl = true → (Fb.of b).gather = false → u.operandFails g (u.operandRanges g (Fb.of b)) = [] →
    (∀ n ∈ g.log, n.id ≠ freePlace g.log) →
    Gives i s (fun t =>
      (∃ n, (t.group gid).log = g.log ++ [n] ∧ n.kind = 12 ∧ n.cls = 0 ∧ n.mask = p.mask ∧ n.pc = p.pc ∧ n.img = b ∧
        n.done = 0) ∧
      (∀ k, k ∈ u.mmaCores g (Fb.of b) → (u.mmaCores g (Fb.of b)).count k = 1 → (t.core k).queue = (s.core k).queue ++
        [{ gid := gid, ent := freePlace g.log, acc := f.d.toNat, cluster := cl, cores := u.mmaCores g (Fb.of b), block := b }]) ∧
      (∀ k, k ∉ u.mmaCores g (Fb.of b) → (t.core k).queue = (s.core k).queue) ∧
      KeepsRegs [] g (t.group gid) ∧ restLog (t.group gid) = restLog g ∧ SameMemory s t ∧ GoesOn i s g p (t.group gid))) ∧
  (∀ (f : RG) s gid g p, Issues (.tileTld f) s gid g p → (s.core g.core).tileWg = some g.wg →
    let c := ctx (.tileTld f) s gid g p
    let u := afterIssue (.tileTld f) s gid g p
    let w := (c.s f.b.toNat).toNat
    let good := tilePitch w ≠ 0 ∧ tileCols w ≤ 192 ∧ 4 * tileCols w ≤ tilePitch w ∧ w % 512 = 0
    (¬ good → Raises (.tileTld f) s gid g p { cause := 1, detail := 2 }) ∧
    (∀ accs, good → c.tileCheck u .load w = .ok accs → Gives (.tileTld f) s (fun t =>
      ∃ e, Records (.tileTld f) s t gid g p e ∧ Fresh (.tileTld f) g p 12 0 accs e)) ∧
    (∀ r, good → c.tileCheck u .load w = .error r → Traps (.tileTld f) s gid p r)) ∧
  (∀ (f : RG) s gid g p, Issues (.tileTst f) s gid g p → (s.core g.core).tileWg = some g.wg →
    let c := ctx (.tileTst f) s gid g p
    let u := afterIssue (.tileTst f) s gid g p
    let w := (c.s f.b.toNat).toNat
    let good := tilePitch w ≠ 0 ∧ tileCols w ≤ 192 ∧ 4 * tileCols w ≤ tilePitch w ∧ w % 512 = 0
    (¬ good → Raises (.tileTst f) s gid g p { cause := 1, detail := 2 }) ∧
    (∀ accs, good → c.tileCheck u .store w = .ok accs → u.tileReads g.core f.d.toNat w = false → Gives (.tileTst f) s (fun t =>
      ∃ e, Records (.tileTst f) s t gid g p e ∧ Fresh (.tileTst f) g p 12 0
        (accs.map (fun a => { a with v := u.tileBytes g.core f.d.toNat a })) e)) ∧
    (∀ r, good → c.tileCheck u .store w = .error r → Traps (.tileTst f) s gid p r)) ∧
  (∀ (f : RG) s gid g p, Issues (.tileTzero f) s gid g p → (s.core g.core).tileWg = some g.wg →
    s.accInFlight g.core f.d.toNat = false → f.d.toNat < 8 → Gives (.tileTzero f) s (fun t =>
      (∀ row < 128, ∀ col < 192, t.accElem g.core f.d.toNat row col = 0) ∧
      (∀ a < 8, a ≠ f.d.toNat → ∀ row < 128, ∀ col < 192, t.accElem g.core a row col = s.accElem g.core a row col) ∧
      (∀ k, Tbl.get (t.group gid).accBusy 0 k = if k = f.d.toNat then s.now g.core + 48 else Tbl.get g.accBusy 0 k) ∧
      KeepsRegs [] g (t.group gid) ∧ (t.group gid).log = g.log ∧ (t.group gid).fmode = g.fmode ∧
      (∀ x, t.memByte x = s.memByte x) ∧ (∀ k x, t.spadByte k x = s.spadByte k x) ∧
      GoesOn (.tileTzero f) s g p (t.group gid))) ∧
  (∀ (f : RG) s gid g p row, Issues (.tileTcvt f) s gid g p → (s.core g.core).tileWg = some g.wg →
    let c := ctx (.tileTcvt f) s gid g p
    let u := afterIssue (.tileTcvt f) s gid g p
    let w := (c.s f.b.toNat).toNat
    let a := (c.addr f.a.toNat (firstLane c.mask)).toNat
    let o := g.spadBase.toNat + (a - 0x01FFFFFFFF000000) % 4194304
    cvtRow w = some row → tilePitch w ≠ 0 → tileCols w ≤ 192 → row ≤ tilePitch w → a % 16 = 0 →
    0x01FFFFFFFF000000 ≤ a → a + tilePitch w * tileRows w ≤ 0x01FFFFFFFF000000 + (g.lCore + 1) * 4194304 →
    (a - 0x01FFFFFFFF000000) / 4194304 = g.lCore → g.lCore < 4 →
    (a - 0x01FFFFFFFF000000) % 4194304 + tilePitch w * tileRows w ≤ g.spadLimit.toNat → g.log = [] →
    o + tilePitch w * tileRows w ≤ 4194304 → s.inOperand g.core o (tilePitch w * tileRows w) = false →
    u.tileReads g.core f.d.toNat w = false → (∀ i < tileRows w, u.spadCut g.core (o + tilePitch w * i) row = false) →
    Gives (.tileTcvt f) s (fun t =>
      (∀ k x, (k ≠ g.core ∨ x < o ∨ o + tilePitch w * tileRows w ≤ x) → x < 4194304 → t.spadByte k x = s.spadByte k x) ∧
      (∀ i < tileRows w, t.spadBytes g.core (o + tilePitch w * i) row =
        packRow (tcvtBits (tileFmt w)) row ((List.range (tileCols w)).map (fun j =>
          tcvtVal (tileFmt w) (tileShift w) (u.accRead g.core f.d.toNat i j)))) ∧
      (∀ x, t.memByte x = s.memByte x) ∧ t.tile = s.tile ∧ KeepsRegs [] g (t.group gid) ∧ (t.group gid).fmode = g.fmode))

/-- Tier 2, derived (R327, R374, R375): cont.emit records its records for the couch; cont.flush takes its place behind the earlier
emits, which its flush waits for; a prefetch changes no register, no memory and no logbook. -/
def Obligations.CouchAndPrefetch : Prop :=
  (∀ (f : RG) s gid g p, Issues (.contEmit f) s gid g p →
    let c := ctx (.contEmit f) s gid g p
    let u := afterIssue (.contEmit f) s gid g p
    let entry := c.addr f.a.toNat (firstLane c.mask)
    ((s.launchOf g).contBase = 0 → Raises (.contEmit f) s gid g p { cause := 2 }) ∧
    ((s.launchOf g).contBase ≠ 0 → entry.toNat % 2 = 1 →
      Raises (.contEmit f) s gid g p { cause := 4, info := 1, addr := entry }) ∧
    ((s.launchOf g).contBase ≠ 0 → entry.toNat % 2 = 0 → windowOf entry.toNat ≠ .glob →
      Raises (.contEmit f) s gid g p { cause := 5, addr := entry }) ∧
    ((s.launchOf g).contBase ≠ 0 → entry.toNat % 2 = 0 → windowOf entry.toNat = .glob →
      u.areaFull g.slice g.launch = false → (∃ k, u.binFor (dieOf g.core) g.slice g.launch entry = some k) →
      (∀ n ∈ g.log, n.id ≠ freePlace g.log) →
      Gives (.contEmit f) s (fun t => ∃ e, Records (.contEmit f) s t gid g p e ∧ Fresh (.contEmit f) g p 13 1 [] e ∧
        e.addr = entry ∧ e.img = c.lanes.flatMap (fun l => (List.range 14).flatMap (fun k =>
          leBytes 4 (c.v (f.d.toNat + k) l).toNat))))) ∧
  (∀ (f : RG) s gid g p, Issues (.contFlush f) s gid g p →
    Gives (.contFlush f) s (fun t =>
      t.group gid = { g with splits := (t.group gid).splits, flush := g.flush ++ [(g.nextNum, s.now g.core)],
                             lastCyc := s.now g.core, count_ := g.count_ + 1 } ∧
      SameMemory s t ∧ GoesOn (.contFlush f) s g p (t.group gid))) ∧
  (∀ (f : MO) s gid g p, Issues (.pf f) s gid g p → Gives (.pf f) s (fun t =>
    t.group gid = { g with splits := (t.group gid).splits, lastCyc := s.now g.core, count_ := g.count_ + 1 } ∧
    GoesOn (.pf f) s g p (t.group gid) ∧ (∀ h, h ≠ gid → Tbl.find t.groups h = Tbl.find s.groups h) ∧
    t.hostMem = s.hostMem ∧ t.spad = s.spad ∧ t.tile = s.tile ∧ (f.d.toNat ≠ 1 → SameMemory s t) ∧
    (∀ l va pa, f.d.toNat = 1 → p.mask = maskOf [l] → l < 32 →
      let c := ctx (.pf f) s gid g p
      let u := afterIssue (.pf f) s gid g p
      let a := (moAt f.a f.off 128 c l).toNat
      windowOf a = .glob → u.checkGlobal g { host := false, peer := false } (a / 128 * 128) false = .ok (.cached va pa false) →
      u.evictOk g false { loc := .cached va pa false } = true → (t.line? g.slice g.core va false).isSome = true)))

/-! ## Events of the part -/

/-- Tier 2, derived (R16, R17, R19, R20): a write of PWRCTL that is refused changes CMDST alone, to BUSY, INVALID or IN_USE; one
that is taken sets its fields and starts the transitions that they ask for. The ends of the transitions set the point and the
state asked for, and a die that reaches HS0 keeps nothing of its scratchpads. A write of L2WAYDIS clears at once the bits
written 0, keeps those that a fuse or an earlier write has set, and disables each of the others when its own write-back is over; a way
that a locked deckle names stays, and LOCKED says so. Model's choice, log 10 and 22: a transition ends at its bound. -/
def Obligations.HostStatesAndWays : Prop :=
  ((∀ d v s, s.m.recovery = false → (s.die d).busy = true → Gives (.pwrctlWrite d v) s (fun t =>
    t.die d = { s.die d with cmdst := 4 } ∧ OnlyDie d s t)) ∧
  (∀ d v s, s.m.recovery = false → (s.die d).busy = false →
    ((v.extractLsb' 20 4).toNat < 12 ∨ 11 < (v.extractLsb' 16 4).toNat ∨ v.extractLsb' 3 13 ≠ 0) →
    Gives (.pwrctlWrite d v) s (fun t => t.die d = { s.die d with cmdst := 3 } ∧ OnlyDie d s t)) ∧
  (∀ d v s, s.m.recovery = false → s.pwrReject d v.toNat = none → Gives (.pwrctlWrite d v) s (fun t =>
    let x := s.die d
    let y := t.die d
    y.hs = v.extractLsb' 0 2 ∧ y.boosten = v.getLsbD 2 ∧ y.vf = v.extractLsb' 16 4 ∧ y.bvf = v.extractLsb' 20 4 ∧
    y.pbudget = v.extractLsb' 24 8 ∧ y.curhs = x.curhs ∧
    y.busy = (decide (x.curhs ≠ v.extractLsb' 0 2) || (decide (2 ≤ x.curhs.toNat) && decide (2 ≤ (v.extractLsb' 0 2).toNat) &&
      (if y.boosting || y.fall then decide (v.extractLsb' 16 4 ≠ 11) else decide (y.curvf ≠ v.extractLsb' 16 4)))) ∧
    y.cmdst = (if y.busy then 1 else 0) ∧
    (v.getLsbD 2 = true → x.boosten = false → y.permits = v.extractLsb' 24 8) ∧
    (v.getLsbD 2 = false → x.boosten = true → y.permits = 0) ∧
    (∀ e, e ≠ d → t.die e = s.die e) ∧ SameWork s t)) ∧
  (∀ d s, (s.die d).vfEnd ≠ 0 → Gives (.vfChangeDone d) s (fun t =>
    (t.die d).curvf = (s.die d).vf ∧ (t.die d).vfEnd = 0 ∧
    ((s.die d).hsEnd = 0 → (t.die d).busy = false ∧ (t.die d).cmdst = (if (s.die d).cmdst = 1 then 0 else (s.die d).cmdst)) ∧
    ((s.die d).hsEnd ≠ 0 → (t.die d).busy = (s.die d).busy) ∧ OnlyDie d s t)) ∧
  (∀ d s, (s.die d).hsEnd ≠ 0 → (s.die d).vfEnd = 0 → Gives (.hostStateTransitionDone d) s (fun t =>
    let x := s.die d
    (t.die d).curhs = x.hs ∧ (t.die d).hsEnd = 0 ∧ (t.die d).busy = false ∧ (t.die d).cmdst = (if x.cmdst = 1 then 0 else x.cmdst) ∧
    (t.die d).curvf = (if x.curhs.toNat < 2 ∧ 2 ≤ x.hs.toNat then x.vf else x.curvf) ∧
    (x.hs = 0 → ∀ c o, dieOf c = d → o < 4194304 → t.spadByte c o = 0) ∧
    (x.hs ≠ 0 → t.spad = s.spad ∧ t.tile = s.tile) ∧
    (∀ e, e ≠ d → t.die e = s.die e) ∧ t.groups = s.groups ∧ t.mem = s.mem ∧ t.hostMem = s.hostMem))) ∧
  ((∀ d v s, s.m.recovery = false → v &&& ~~~(Config.wayFuse d) &&& ~~~(s.die d).wayHost &&& s.waysNamed d = 0 →
    Gives (.l2waydisWrite d v) s (fun t =>
    (t.die d).wayHost = (s.die d).wayHost &&& v ∧
    (t.die d).wayPending = ((s.die d).wayPending &&& v) ||| (v &&& ~~~(Config.wayFuse d) &&& ~~~(s.die d).wayHost) ∧
    OnlyDie d s t)) ∧
  (∀ d v s, s.m.recovery = false → v &&& ~~~(Config.wayFuse d) &&& ~~~(s.die d).wayHost &&& s.waysNamed d ≠ 0 →
    Gives (.l2waydisWrite d v) s (fun t =>
    (t.die d).wayHost = (s.die d).wayHost &&& v ∧
    (t.die d).wayPending = ((s.die d).wayPending &&& v) |||
      (v &&& ~~~(Config.wayFuse d) &&& ~~~(s.die d).wayHost &&& ~~~(s.waysNamed d)) ∧
    t.m.locked = true ∧ (s.m.locked = false → t.m.first = BitVec.ofNat 24 (0x20014 + 0x40 * d)) ∧
    (s.m.locked = true → t.m.first = s.m.first) ∧ SameWork s t)) ∧
  (∀ d s, Gives (.l2WayDisableDone d) s (fun t =>
    OnlyDie d s t ∧ (∀ w < 32,
      let due := (s.die d).wayPending.getLsbD w && decide (Tbl.get (s.die d).wayEnd 0 w ≤ s.cycle)
      (t.die d).wayHost.getLsbD w = ((s.die d).wayHost.getLsbD w || due) ∧
      (t.die d).wayPending.getLsbD w = ((s.die d).wayPending.getLsbD w && !due)))))

/-- Tier 2, derived (R23 to R25): a die rises when R23 allows it, at the cost of one permit; each 4 us costs another, for want
of which, of a claim or of leave it falls in two steps; a debit
after a change of the claiming slices counts in the new period; permits come back one each 50 us, up to the budget. Model's choice, log
33: the fall uses the register BVF. -/
def Obligations.BoostPermits : Prop :=
  (∀ d s, let x := s.die d
    x.boosting = false → x.fall = false → x.busy = false → x.boosten = true → x.curhs = 3 → x.tdie.toNat < 95 →
    s.claimSlices d ≠ [] → 1 ≤ x.permits.toNat → (x.exhausted = true → min 8 x.pbudget.toNat ≤ x.permits.toNat) →
    Gives (.boostRise d) s (fun t => let y := t.die d
      y.boosting = true ∧ y.curvf = x.bvf ∧ y.permits = x.permits - 1 ∧ y.boostEnd = s.cycle + 4000 ∧ y.refillAt = 0 ∧
      y.exhausted = false ∧ (∀ e, e ≠ d → t.die e = s.die e) ∧ SameWork s t)) ∧
  (∀ d s, let x := s.die d
    x.boosting = true → x.fall = false → x.boostEnd ≠ 0 → x.boostEnd ≤ s.cycle → x.permits ≠ 0 → s.claimSlices d ≠ [] →
    x.boosten = true → x.tdie.toNat < 95 → Gives (.permitDebit d) s (fun t =>
      t.die d = { x with permits := x.permits - 1, debited := (t.die d).debited, claimers := s.claimSlices d,
                         boostEnd := x.boostEnd + 4000 } ∧
      ((∀ k, k ∈ s.claimSlices d ↔ k ∈ x.claimers) → (t.die d).debited = x.debited + 1 ∧ OnlyDie d s t) ∧
      ((¬ ∀ k, k ∈ s.claimSlices d ↔ k ∈ x.claimers) → (t.die d).debited = 1) ∧
      (∀ e, e ≠ d → t.die e = s.die e) ∧ SameWork s t)) ∧
  (∀ d s, let x := s.die d
    x.boosting = true → x.fall = false → x.boostEnd ≠ 0 → x.boostEnd ≤ s.cycle →
    (x.permits = 0 ∨ s.claimSlices d = [] ∨ x.boosten = false ∨ 95 ≤ x.tdie.toNat) →
    Gives (.permitDebit d) s (fun t => let y := t.die d
      y.fall = true ∧ y.boosting = true ∧ y.fallEnd = s.cycle ∧ y.boostEnd = 0 ∧ y.exhausted = decide (x.permits = 0) ∧
      y.curvf = BitVec.ofNat 4 ((x.bvf.toNat + 12) / 2) ∧ y.permits = x.permits ∧ (∀ e, e ≠ d → t.die e = s.die e) ∧
      SameWork s t)) ∧
  (∀ d s, let x := s.die d
    x.fall = true → x.boosting = true → x.fallEnd + 10000 ≤ s.cycle → Gives (.fallToNominal d) s (fun t =>
      t.die d = { x with boosting := false, curvf := 11, refillAt := if x.boosten then s.cycle + 50000 else 0 } ∧ OnlyDie d s t)) ∧
  (∀ d s, let x := s.die d
    x.fall = true → x.boosting = false → x.fallEnd + 20000 ≤ s.cycle → Gives (.fallComplete d) s (fun t =>
      (t.die d).fall = false ∧ (t.die d).fallEnd = 0 ∧ (t.die d).curvf = (if x.vfEnd = 0 then x.vf else x.curvf) ∧ OnlyDie d s t)) ∧
  (∀ d s, let x := s.die d
    x.boosten = true → x.boosting = false → x.refillAt ≠ 0 → x.refillAt ≤ s.cycle → Gives (.permitRefill d) s (fun t =>
      (t.die d).permits.toNat = (if x.permits.toNat < x.pbudget.toNat then x.permits.toNat + 1 else x.permits.toNat) ∧
      (t.die d).refillAt = x.refillAt + 50000 ∧ OnlyDie d s t))

/-- Tier 2, derived (R27 to R30, R127): the current estimate falls at most 8 A a microsecond while an engine is idle to
take ballast, which the slice of that engine's last work pays; FACT follows the temperature, TRIP
stands until it is cleared below 105 degrees; FP moves by 16 steps with the measured power; the ring pays no core of a die that
is not in HS3, and repays the debt of a core's slice before its buckets. Model's choice, log 7 and 23: the figures of the
current estimate, and which slice ballast is charged to. -/
def Obligations.SlopeHeatAndPower : Prop :=
  (∀ d s, let x := s.die d
    (x.spentLast ≤ Config.currentOf x.spent + 8 ∨ x.idleEngine = none) → Gives (.currentSlopeTick d) s (fun t =>
      t.die d = { x with spent := 0, spentLast := Config.currentOf x.spent, usAt := s.cycle + 1000 } ∧ OnlyDie d s t)) ∧
  (∀ d e0 s, let x := s.die d
    let k := Tbl.get x.lastSlice 16 e0
    let fill := x.spentLast - 8 - Config.currentOf x.spent
    Config.currentOf x.spent + 8 < x.spentLast → x.idleEngine = some e0 → Gives (.currentSlopeTick d) s (fun t =>
      (t.die d).spent = 0 ∧ (t.die d).spentLast = x.spentLast - 8 ∧
      (k < 16 → (t.slice k).energy = (s.slice k).energy + BitVec.ofNat 64 (Config.ballastEnergy fill) ∧
        Tbl.get (t.die d).debt 0 k = Tbl.get x.debt 0 k + Config.ballastPrice fill * 256 ∧ t.m = s.m) ∧
      (16 ≤ k → t.m.energyPf = s.m.energyPf + BitVec.ofNat 64 (Config.ballastEnergy fill) ∧ t.slices = s.slices) ∧
      (∀ e, e ≠ d → t.die e = s.die e) ∧ SameWork s t)) ∧
  (∀ d c s, let x := s.die d
    (x.trip = true ∨ c.toNat < 115) → Gives (.thermUpdate d c) s (fun t =>
      t.die d = { x with tdie := c, fact := if x.trip then 0 else if c.toNat < 95 then 256
        else if c.toNat < 105 then BitVec.ofNat 9 (256 - 19 * (c.toNat - 95)) else 64 } ∧ OnlyDie d s t)) ∧
  (∀ d c s, (s.die d).trip = false → 115 ≤ c.toNat → Gives (.thermUpdate d c) s (fun t =>
      (t.die d).trip = true ∧ (t.die d).fact = 0 ∧ (t.die d).tdie = c ∧ t.groups = s.groups)) ∧
  (∀ d v s, let x := s.die d
    s.m.recovery = false → Gives (.thermWrite d v) s (fun t => OnlyDie d s t ∧
      (v.getLsbD 31 = true → x.tdie.toNat < 105 → (t.die d).trip = false ∧ (t.die d).fact = BitVec.ofNat 9 (factOf x.tdie.toNat)) ∧
      ((v.getLsbD 31 = false ∨ 105 ≤ x.tdie.toNat) → t.die d = x))) ∧
  (∀ w s, Gives (.powerCapTick w) s (fun t => OnlyModule s t ∧ t.m = { s.m with fp := t.m.fp } ∧
    t.m.fp = (if s.m.watts.toNat < w then BitVec.ofNat 9 (max 16 (s.m.fp.toNat - 16))
      else if w * 100 < 95 * s.m.watts.toNat then BitVec.ofNat 9 (min 256 (s.m.fp.toNat + 16)) else s.m.fp))) ∧
  (∀ d s, (s.die d).curhs ≠ 3 → Idles (.meridianRefill d) s) ∧
  (∀ d c x s, dieOf c = d → s.cores = [(c, x)] → x.owner < 16 → (s.die d).curhs = 3 →
    Tbl.get (s.die d).debt 0 x.owner = 0 → s.admitted c = true → Gives (.meridianRefill d) s (fun t =>
      let f := min (s.die d).fact.toNat s.m.fp.toNat
      (∀ p < 8, Tbl.get (t.core c).bkt 0 p = min 65536 (Tbl.get x.bkt 0 p + 4 * f)) ∧
      (t.core c).mbkt = min 1048576 (x.mbkt + 224 * f) ∧ SameWork s t)) ∧
  (∀ d c x s, dieOf c = d → s.cores = [(c, x)] → x.owner < 16 → (s.die d).curhs = 3 →
    256 * min (s.die d).fact.toNat s.m.fp.toNat ≤ Tbl.get (s.die d).debt 0 x.owner → s.admitted c = true →
    Gives (.meridianRefill d) s (fun t =>
      let f := min (s.die d).fact.toNat s.m.fp.toNat
      Tbl.get (t.die d).debt 0 x.owner = Tbl.get (s.die d).debt 0 x.owner - 256 * f ∧
      (∀ p < 8, Tbl.get (t.core c).bkt 0 p = min 65536 (Tbl.get x.bkt 0 p)) ∧
      (t.core c).mbkt = min 1048576 x.mbkt ∧ SameWork s t))

/-- Tier 2, derived (R5, R30, R34 to R36, R197, R241): a register write of the host lands in the register of its offset; offsets
that are not a multiple of 4, and all but FWLOAD in recovery, do nothing; a locked register sets PFERR.LOCKED and keeps its
value; VF n reaches its own registers alone, the PF those of an unlocked slice through its window. A read of a LO half keeps the
HI half of the same instant for the function that reads it; a read of the HI half gives what was kept for it, else what stands
now. Model's choice, log 31: how an offset names a VF's BAR. -/
def Obligations.HostRegisters : Prop :=
  ((∀ off v s, off < 0x1000000 → (off % 4 ≠ 0 ∨ (s.m.recovery = true ∧ off ≠ 0)) → Idles (.pfRegisterWrite off v) s) ∧
  (∀ v s, s.m.recovery = false → Gives (.pfRegisterWrite 0x20100 v) s (fun t => OnlyModule s t ∧
    t.m = { s.m with watts := BitVec.ofNat 12 (max 100 (min 2000 (v.extractLsb' 0 12).toNat)) })) ∧
  (∀ v s, s.m.recovery = false → Gives (.pfRegisterWrite 0x20110 v) s (fun t => OnlyModule s t ∧
    t.m = { s.m with bar2win := v.extractLsb' 0 3 })) ∧
  (∀ k v s, k < 16 → s.m.recovery = false → (s.slice k).tdi = .configUnlocked →
    Gives (.pfRegisterWrite (0x20A00 + 8 * k) v) s (fun t =>
      (t.slice k).htroot = ((s.slice k).htroot.extractLsb' 32 32) ++ (v &&& 0xFFFFF001) ∧ OnlySlice k s t)) ∧
  (∀ k v s, k < 16 → s.m.recovery = false → (s.slice k).tdi ≠ .configUnlocked →
    Gives (.pfRegisterWrite (0x20A00 + 8 * k) v) s (fun t => OnlyModule s t ∧ t.m.locked = true ∧
      t.m.first = (if s.m.locked then s.m.first else BitVec.ofNat 24 (0x20A00 + 8 * k)))) ∧
  (∀ k v s, k < 16 → s.m.recovery = false → s.vfExists k = true →
    Gives (.pfRegisterWrite (0x1000000 + 0x10000 * (k + 1) + 0xE00) v) s (fun t =>
    (t.slice k).gtroot = ((s.slice k).gtroot.extractLsb' 32 32) ++ (v &&& 0xFFFFF001) ∧ OnlySlice k s t)) ∧
  (∀ k off v s, k < 16 → off < 0x10000 → s.vfExists k = false →
    Idles (.pfRegisterWrite (0x1000000 + 0x10000 * (k + 1) + off) v) s) ∧
  (∀ v s, s.m.recovery = false → Gives (.pferrWrite v) s (fun t => OnlyModule s t ∧ t.m = { s.m with
    locked := s.m.locked && !v.getLsbD 31, first := if v.getLsbD 31 then 0 else s.m.first, dieOff := s.m.dieOff && !v.getLsbD 30 })) ∧
  (∀ k v s, k < 16 → s.m.recovery = false → s.vfLocked k = false → Gives (.vfWindowAccess k true 0xF00 v) s (fun t =>
    t.slice k = { s.slice k with mergeOk := v &&& 0x8000001F } ∧ OnlySlice k s t)) ∧
  (∀ k v s, k < 16 → s.m.recovery = false → s.vfLocked k = false → Gives (.vfWindowAccess k false 0xF00 v) s (fun t => OnlyModule s t ∧
    t.m = { s.m with lastRead := (s.slice k).mergeOk.setWidth 64 })) ∧
  (∀ k off v s, k < 16 → s.m.recovery = false → s.vfLocked k = true → Gives (.vfWindowAccess k true off v) s (fun t => OnlyModule s t ∧
    t.m.locked = true ∧ t.m.first = (if s.m.locked then s.m.first else BitVec.ofNat 24 (0x800000 + 0x10000 * k + off % 65536)))) ∧
  (∀ k off v s, k < 16 → s.m.recovery = false → s.vfLocked k = true → Gives (.vfWindowAccess k false off v) s (fun t => OnlyModule s t ∧
    t.m = { s.m with lastRead := 0xFFFFFFFF }))) ∧
  ((∀ fn off v s, s.m.recovery = false → s.windowShut fn off = false → s.counterOf fn off = some v → Gives (.counterLoRead fn off) s (fun t =>
    t.m = { s.m with lastRead := BitVec.ofNat 64 (v % 2 ^ 32) } ∧
    t.slice (fnSlice fn) = { s.slice (fnSlice fn) with shVal := BitVec.ofNat 32 (v / 2 ^ 32), shTag := shadowTag off } ∧
    (∀ k, k ≠ fnSlice fn → t.slice k = s.slice k) ∧ SameWork s t ∧ t.dies = s.dies ∧ t.cores = s.cores)) ∧
  (∀ fn lo v s, s.m.recovery = false → s.windowShut fn (lo + 4) = false → s.counterOf fn lo = some v → (s.slice (fnSlice fn)).shTag = shadowTag lo →
    Gives (.counterHiRead fn (lo + 4)) s (fun t => OnlyModule s t ∧
      t.m = { s.m with lastRead := (s.slice (fnSlice fn)).shVal.setWidth 64 })) ∧
  (∀ fn lo v s, s.m.recovery = false → s.windowShut fn (lo + 4) = false → s.counterOf fn lo = some v → (s.slice (fnSlice fn)).shTag ≠ shadowTag lo →
    Gives (.counterHiRead fn (lo + 4)) s (fun t => t.m = { s.m with lastRead := BitVec.ofNat 64 (v / 2 ^ 32 % 2 ^ 32) } ∧
      t.slices = s.slices ∧ SameWork s t)) ∧
  (∀ fn off s, s.m.recovery = false → s.windowShut fn off = true → Gives (.counterLoRead fn off) s (fun t => OnlyModule s t ∧ t.m.lastRead = 0xFFFFFFFF) ∧
    Gives (.counterHiRead fn off) s (fun t => OnlyModule s t ∧ t.m.lastRead = 0xFFFFFFFF)) ∧
  (∀ s : State, s.counterOf 0 0x20120 = some s.m.energyPf.toNat) ∧
  (∀ (k : Nat) (s : State), k < 16 → s.counterOf (k + 1) 0x2390 = some (s.slice k).permchg.toNat ∧
    s.counterOf (k + 1) 0x2398 = some (s.slice k).energy.toNat ∧ s.counterOf (k + 1) 0x2380 = some s.cycle))

/-- Tier 2, derived (R33, R34, R63, R66, R67, R77, R101): every host access through BAR2 that may be made completes, whatever its
operation, offset, size and data: on a clocked die, at a frame that no command re-keys and whose stack has not refused the PF more, of
unpoisoned memory that the PF may reach: outside recovery, below the owner table and of an owner whose VF is unlocked or absent. It
then reads or changes its bytes alone. One on a clocked die whose frame is re-keyed, or whose stack has refused, waits at the
controller. A die that is off sets DIE_OFF, another owner's frame sets LOCKED; these, the owner table, an atomic of a size that the
device does not support and poisoned memory read as ones and change no memory. -/
def Obligations.HostReachesDeviceMemory : Prop :=
  (∀ (op : HostOp) (off size : Nat) (data data2 : DWord) (s : State), size ≤ 8 →
    2 ≤ (s.die (homeDie (s.bar2At off))).curhs.toNat → s.bar2Busy (s.bar2At off) = false →
    (s.m.recovery = true ∨ (s.bar2At off < 0x7FFF800000 ∧ s.pfMay (s.ownerNow (s.bar2At off / 65536)) = true)) →
    (op = .read ∨ op = .write ∨ size = 4 ∨ size = 8) → s.poisonIn (s.bar2At off) size = none →
    ∃ t, Sys2Proof.Machine.exec (.bar2Access op off size data data2) s = .next t ∧ t = { s with mem := t.mem, m := t.m } ∧
      (op ≠ .write → t.m.lastRead = BitVec.ofNat 64 (ofLe (s.memBytes (s.bar2At off) size))) ∧
      (op = .write → ∀ k < size, t.memByte (s.bar2At off + k) = BitVec.ofNat 8 (data.toNat / 2 ^ (8 * k))) ∧
      (∀ b, b < s.bar2At off ∨ s.bar2At off + size ≤ b → t.memByte b = s.memByte b)) ∧
  (∀ (op : HostOp) (off size : Nat) (data data2 : DWord) s, size ≤ 8 →
    let a := s.bar2At off
    let ones := BitVec.ofNat 64 (2 ^ (8 * size) - 1)
    let on := 2 ≤ (s.die (homeDie a)).curhs.toNat
    let free := s.bar2Busy a = false
    let mine := s.pfMay (s.ownerNow (a / 65536)) = true
    let supported := op = .read ∨ op = .write ∨ size = 4 ∨ size = 8
    let old := ofLe (s.memBytes a size)
    let stores (n : Nat) (t : State) : Prop := t = { s with mem := t.mem, m := t.m } ∧
      ∀ b, t.memByte b = if a ≤ b ∧ b < a + size then BitVec.ofNat 8 (n / 2 ^ (8 * (b - a))) else s.memByte b
    (¬ on → Gives (.bar2Access op off size data data2) s (fun t => OnlyModule s t ∧ t.m.dieOff = true ∧ t.m.lastRead = ones)) ∧
    (on → ¬ free → Gives (.bar2Access op off size data data2) s (fun t =>
      t = { s with m := { s.m with waiting := s.m.waiting ++ [.bar2 op off size data data2] } })) ∧
    (on → free → s.m.recovery = false → 0x7FFF800000 ≤ a → Gives (.bar2Access op off size data data2) s (fun t =>
      t = { s with m := { s.m with lastRead := ones } })) ∧
    (on → free → s.m.recovery = false → a < 0x7FFF800000 → ¬ mine → Gives (.bar2Access op off size data data2) s (fun t =>
      OnlyModule s t ∧ t.m.locked = true ∧ t.m.lastRead = ones)) ∧
    (on → free → (s.m.recovery = true ∨ (a < 0x7FFF800000 ∧ mine)) →
      (¬ supported → Gives (.bar2Access op off size data data2) s (fun t => t = { s with m := { s.m with lastRead := ones } })) ∧
      (supported → s.poisonIn a size ≠ none → Gives (.bar2Access op off size data data2) s (fun t =>
        SameWork s t ∧ t.m.lastRead = ones)) ∧
      (supported → s.poisonIn a size = none →
        (op = .read → Gives (.bar2Access op off size data data2) s (fun t =>
          t = { s with m := { s.m with lastRead := BitVec.ofNat 64 old } })) ∧
        (op = .write → Gives (.bar2Access op off size data data2) s (stores data.toNat)) ∧
        (op = .fetchAdd → Gives (.bar2Access op off size data data2) s (fun t =>
          stores (old + data.toNat) t ∧ t.m.lastRead = BitVec.ofNat 64 old)) ∧
        (op = .swap → Gives (.bar2Access op off size data data2) s (fun t =>
          stores data.toNat t ∧ t.m.lastRead = BitVec.ofNat 64 old)) ∧
        (op = .cas → old = data.toNat % 2 ^ (8 * size) → Gives (.bar2Access op off size data data2) s (fun t =>
          stores data2.toNat t ∧ t.m.lastRead = BitVec.ofNat 64 old)) ∧
        (op = .cas → old ≠ data.toNat % 2 ^ (8 * size) → Gives (.bar2Access op off size data data2) s (fun t =>
          t = { s with m := { s.m with lastRead := BitVec.ofNat 64 old } })))))

/-- Tier 2, derived (R37 to R39, R44, R46, R53): the clock correction never turns PTPTIME back, and a lost lock leaves it
running; each meter gains its allowance and holds four; a request leaves when its slice's UALink meter covers
it, an RDMA answer when its Ethernet meter does, and that of the PF at once; words of a valid
MCJOIN entry are locked; a module with more than four failed lanes runs at half width; a TLP off its stream moves the TDI to
ERROR. Model's choice, log 35: every forward correction is a step, and a slew is 500 ppm. -/
def Obligations.LinksAndClock : Prop :=
  (∀ rho off s, Gives (.ptpCorrection rho off) s (fun t => t = { s with ptp := t.ptp } ∧
    t.ptp.rho = max (-200000) (min 200000 rho) ∧ t.ptp.lock = true ∧ s.ptpTime ≤ t.ptpTime)) ∧
  (∀ port s, Gives (.ptpLockLoss port) s (fun t => t.ptp.lock = false ∧ t.ptpTime = s.ptpTime ∧ SameWork s t ∧ t.dies = s.dies)) ∧
  (∀ s, Gives .fabricMeterTick s (fun t => t = { s with slices := t.slices } ∧ ∀ k < 16,
    Tbl.get (t.slice k).meter 0 0 = min (64 * (s.slice k).ual) (Tbl.get (s.slice k).meter 0 0 + 16 * (s.slice k).ual) ∧
    Tbl.get (t.slice k).meter 0 1 = min (64 * (s.slice k).eth) (Tbl.get (s.slice k).meter 0 1 + 16 * (s.slice k).eth))) ∧
  (∀ k s, (∀ q ∈ s.m.peers, q.2.slice = k → q.2.out = true) → Idles (.fabricPacketSend k true) s) ∧
  (∀ k q rest s, s.m.peers = q :: rest → q.2.slice = k → q.2.out = false → k < 16 →
    Tbl.get (s.slice k).meter 0 0 < Config.packetBytes q.2.payload → Idles (.fabricPacketSend k true) s) ∧
  (∀ k q rest s, s.m.peers = q :: rest → q.2.slice = k → q.2.out = false → k < 16 →
    Config.packetBytes q.2.payload ≤ Tbl.get (s.slice k).meter 0 0 →
    Gives (.fabricPacketSend k true) s (fun t => t.m.peers = (q.1, { q.2 with out := true }) :: rest ∧
      Tbl.get (t.slice k).meter 0 0 = Tbl.get (s.slice k).meter 0 0 - Config.packetBytes q.2.payload ∧
      (∀ e, e ≠ k → t.slice e = s.slice e) ∧ SameWork s t)) ∧
  (∀ k s, (∀ e ∈ s.m.ethOut, e.1 ≠ k) → Idles (.fabricPacketSend k false) s) ∧
  (∀ k qp b rest s, s.m.ethOut = (k, qp, b) :: rest → k < 16 → Tbl.get (s.slice k).meter 0 1 < Config.packetBytes b.length →
    Idles (.fabricPacketSend k false) s) ∧
  (∀ k qp b rest s, s.m.ethOut = (k, qp, b) :: rest → k < 16 → Config.packetBytes b.length ≤ Tbl.get (s.slice k).meter 0 1 →
    Gives (.fabricPacketSend k false) s (fun t => t.m = { s.m with ethOut := rest, reply := some (qp, .bytes b) } ∧
      Tbl.get (t.slice k).meter 0 1 = Tbl.get (s.slice k).meter 0 1 - Config.packetBytes b.length ∧
      (∀ e, e ≠ k → t.slice e = s.slice e) ∧ SameWork s t)) ∧
  (∀ qp b rest s, s.m.ethOut = (16, qp, b) :: rest → Gives (.fabricPacketSend 16 false) s (fun t => OnlyModule s t ∧
    t.m = { s.m with ethOut := rest, reply := some (qp, .bytes b) })) ∧
  (∀ k e w v s, k < 16 → e < 64 → w < 4 → (Tbl.get s.m.mcjoin 0 ((k * 64 + e) * 4)).getLsbD 31 = true →
    (w ≠ 0 ∨ v.getLsbD 31 = true) → Idles (.mcjoinWrite k e w v) s) ∧
  (∀ k e w v s, s.m.recovery = false → k < 16 → e < 64 → w < 4 →
    ((Tbl.get s.m.mcjoin 0 ((k * 64 + e) * 4)).getLsbD 31 = false ∨ (w = 0 ∧ v.getLsbD 31 = false)) →
    Gives (.mcjoinWrite k e w v) s (fun t => OnlyModule s t ∧ Tbl.get t.m.mcjoin 0 ((k * 64 + e) * 4 + w) =
      v &&& (if w = 0 then 0x80000FFF else if w = 1 then 0x000FFFFF else if w = 2 then 0xFFFF0000 else 0x01FFFFFF))) ∧
  (∀ pair m n s, Gives (.ucieRetrain pair m n) s (fun t =>
    Tbl.get (Tbl.get t.m.ucie {} pair).half false m = decide (4 < n) ∧ Tbl.get (Tbl.get t.m.ucie {} pair).failed 0 m = n ∧
    SameWork s t ∧ t.dies = s.dies)) ∧
  (∀ pair k s, k < 16 → (s.slice k).st = .active → (s.slice k).killing = false → Gives (.ucieFlitFail pair [k]) s (fun t =>
    (t.slice k).killing = true ∧ (t.slice k).killCause = 10 ∧ (t.slice k).busyEnd = s.cycle + 1000000)) ∧
  (∀ pair s, Idles (.ucieFlitFail pair []) s) ∧
  (∀ k onS intact posted s, k < 16 → s.vfExists k = true → (s.slice k).tdi = .run → (onS && intact) = false →
    Gives (.vfTlpReceive (k + 1) onS intact posted) s (fun t => t.slice k = { s.slice k with tdi := .error } ∧
      (∀ e, e ≠ k → t.slice e = s.slice e) ∧ SameWork s t ∧
      (posted = false → t.m.lastRead = 0xFFFFFFFFFFFFFFFF) ∧ (posted = true → t.m = s.m))) ∧
  (∀ k posted s, Idles (.vfTlpReceive k true true posted) s)

/-- Tier 2, derived (R38, R43, R48, R49, R183): a peer's request that fails a test is answered NAK with the first code that
applies, 1 to 7, and touches no memory; a load is answered with the bytes at its place, a store puts its bytes there,
an atomic answers the old value and writes the new one; an operation already in its window is answered again from it. RDMA writes,
reads and sends do what they say for queue pairs that exist. What meets a frame that is re-keyed, or a stack that has refused the
slice more, waits at the controller. Model's choice, log 8 and 53: the bodies of RDMA messages, and that an answer leaves at once. -/
def Obligations.PeerRequests : Prop :=
  (∀ r c s, s.peerTarget r = .error c → c ≠ 1 → Gives (.inboundPeerRequest r) s (fun t =>
    t.m.reply = some (r.modid, .nak c) ∧ SameWork s t)) ∧
  (∀ r s, (∀ k < 1024, s.route r.slice k ≠ some (r.modid, r.pslice)) → Gives (.inboundPeerRequest r) s (fun t =>
    t.m.reply = some (r.modid, .nak 1) ∧ SameWork s t)) ∧
  (∀ r va c s, s.peerTarget r = .ok va → s.peerPlace r va = .error c → c ≠ 1 → Gives (.inboundPeerRequest r) s (fun t =>
    t.m.reply = some (r.modid, .nak c) ∧ SameWork s t)) ∧
  (∀ r va e a s, s.peerTarget r = .ok va → s.peerPlace r va = .ok (e, a) → e.target = 0 →
    (s.placeBusy r.slice a = true ∨ s.placeBusy r.slice (a + r.size - 1) = true) → Gives (.inboundPeerRequest r) s (fun t =>
      t = { s with m := { s.m with waiting := s.m.waiting ++ [.peer r] } })) ∧
  (∀ r va e a l s, s.peerTarget r = .ok va → s.peerPlace r va = .ok (e, a) → r.op = .load →
    (e.target = 0 → s.placeBusy r.slice a = false ∧ s.placeBusy r.slice (a + r.size - 1) = false) → let s0 := s.pruneWindows r
    (if e.target = 0 then s0.rangePoison (.home a 0) r.size false else none) = none → s0.engineRead r.slice 0 va r.size = .ok l →
    Gives (.inboundPeerRequest r) s (fun t => OnlyModule s t ∧
      t.m.reply = some (r.modid, if r.copy then .bytes l else .ok (BitVec.ofNat 128 (ofLe l))))) ∧
  (∀ r va e a u s, s.peerTarget r = .ok va → s.peerPlace r va = .ok (e, a) → r.op = .store → r.wmark = 0 →
    (e.target = 0 → s.placeBusy r.slice a = false ∧ s.placeBusy r.slice (a + r.size - 1) = false) →
    let s0 := s.pruneWindows r
    (if e.target = 0 then s0.rangePoison (.home a 0) r.size true else none) = none →
    s0.engineWrite r.slice 0 va (padTo r.size r.data) = some u → Gives (.inboundPeerRequest r) s (fun t =>
      t.mem = u.mem ∧ t.hostMem = u.hostMem ∧ t.groups = u.groups ∧ t.m.reply = some (r.modid, .ok 0))) ∧
  (∀ r va e a o x i s, s.peerTarget r = .ok va → s.peerPlace r va = .ok (e, a) → r.op = .atomic o x → atomInstr o x = some i →
    r.wmark = 0 → r.freed = [] → e.target = 0 → s.placeBusy r.slice a = false → s.placeBusy r.slice (a + r.size - 1) = false →
    s.rangePoison (.home a 0) r.size false = none → s.m.atomAt = [] →
    let n := if o = 18 ∧ x = 3 then 8 else 4
    let old := ofLe (s.memBytes a n)
    Gives (.inboundPeerRequest r) s (fun t => t.m.reply = some (r.modid, .ok (BitVec.ofNat 128 old)) ∧ t.hostMem = s.hostMem ∧
      t.groups = s.groups ∧ ∀ b, t.memByte b = if a ≤ b ∧ b < a + n then
        BitVec.ofNat 8 (atomNew i old (ofLe (r.data.take n)) r.data2.toNat / 2 ^ (8 * (b - a))) else s.memByte b)) ∧
  (∀ r va e a v s, s.peerTarget r = .ok va → s.peerPlace r va = .ok (e, a) → r.wmark ≠ 0 →
    (e.target = 0 → s.placeBusy r.slice a = false ∧ s.placeBusy r.slice (a + r.size - 1) = false) → let s0 := s.pruneWindows r
    s0.window? r.modid r.pslice r.wmark.toNat r.lane = some v →
    (r.op = .store → Gives (.inboundPeerRequest r) s (fun t => OnlyModule s t ∧ t.m.reply = some (r.modid, .ok 0))) ∧
    (∀ o x, r.op = .atomic o x → Gives (.inboundPeerRequest r) s (fun t => OnlyModule s t ∧
      t.m.reply = some (r.modid, .ok (BitVec.ofNat 128 v))))) ∧
  (∀ k qp d s, k ≤ 16 → qp < (if k = 16 then 256 else 1024) → Gives (.rdmaInbound k (.send qp d)) s (fun t => OnlyModule s t ∧
    t.m.rdmaSends = s.m.rdmaSends ++ [(k * 1024 + qp, d)])) ∧
  (∀ k qp a n b s, k ≤ 16 → qp < (if k = 16 then 256 else 1024) → inGlob a.toNat n = true →
    s.spanBusy k 0 a.toNat n = false → s.rdmaPoison k a.toNat n = none → s.engineRead k 0 a.toNat n = .ok b →
    Gives (.rdmaInbound k (.read qp a n)) s (fun t => OnlyModule s t ∧ t.m.ethOut = s.m.ethOut ++ [(k, qp, b)])) ∧
  (∀ k qp a d t s, k ≤ 16 → qp < (if k = 16 then 256 else 1024) → inGlob a.toNat d.length = true →
    s.spanBusy k 0 a.toNat d.length = false → s.engineWrite k 0 a.toNat d = some t → exec (.rdmaInbound k (.write qp a d)) s = .next t) ∧
  (∀ k qp a r n s, k ≤ 16 → qp < (if k = 16 then 256 else 1024) → ((∃ d, r = .write qp a d ∧ n = d.length) ∨ r = .read qp a n) →
    inGlob a.toNat n = true → s.spanBusy k 0 a.toNat n = true → Gives (.rdmaInbound k r) s (fun t =>
      t = { s with m := { s.m with waiting := s.m.waiting ++ [.rdma k r] } })) ∧
  (∀ k qp a d s, (if k = 16 then 256 else 1024) ≤ qp → Idles (.rdmaInbound k (.write qp a d)) s)

/-- Tier 2, derived (R55 to R59, R62, R103): CREATE makes a free slice CONFIG under a key of its own; ACTIVATE of a deckle that
fails a check leaves CONFIG with the lowest code, of one that passes them gives the clusters in logical order within 20 us;
DISSOLVE ends in FREE with every frame of the slice free and its key gone. A deckle register takes a value while the slice is in
CONFIG, or in QUIESCED, and its VF unlocked, and only then; each bandwidth word holds FLOOR, CEIL and WEIGHT. Model's choice, log 10,
34, 6 and 78: a transition ends at its bound, HELM beside a command sets no LOCKED, a key is named by its draw, and a write during
ACTIVATE's scrub is turned away. -/
def Obligations.SlicesAndDeckles : Prop :=
  ((∀ k s, s.m.recovery = false → (s.slice k).st = .free → Gives (.createSlice k) s (fun t =>
    t.slice k = { s.slice k with st := .config, err := 0, permchg := 0, energy := 0, td := [], key := s.m.keys } ∧
    t.m = { s.m with keys := s.m.keys + 1 } ∧ (∀ e, e ≠ k → t.slice e = s.slice e) ∧ SameWork s t ∧ t.dies = s.dies ∧
    t.cores = s.cores)) ∧
  (∀ k s, (s.slice k).st ≠ .free → Idles (.createSlice k) s) ∧
  (∀ k s, (s.slice k).st ≠ .config → Idles (.activateSlice k) s) ∧
  (∀ k s, s.m.recovery = false → (s.slice k).st = .config → s.activateErr k ≠ 0 → Gives (.activateSlice k) s (fun t =>
    t.slice k = { s.slice k with err := s.activateErr k } ∧ OnlySlice k s t)) ∧
  (∀ k s, k < 16 → s.m.recovery = false → (s.slice k).st = .config → s.activateErr k = 0 → Gives (.activateSlice k) s (fun t =>
    (t.slice k).st = .activating ∧ (t.slice k).err = 0 ∧ (t.slice k).busyEnd = s.cycle + 20000 ∧
    (t.slice k).clusters = (List.range 4).flatMap (fun d =>
      ((List.range 9).filter (fun c => (Tbl.get (s.slice k).cld 0 d).getLsbD c)).map (fun c => (d, c))) ∧
    (∀ j < 8, Tbl.get (t.slice k).efloor 0 j = (s.slice k).floorOn j * ((s.stack j).d + 1) / 256) ∧ t.groups = s.groups)) ∧
  (∀ k s, (s.slice k).st = .activating → Gives (.activateDone k) s (fun t =>
    t.slice k = { s.slice k with st := .active, busyEnd := 0 } ∧ OnlySlice k s t)) ∧
  (∀ k s, k < 16 → s.m.recovery = false → s.vfLocked k = true → Gives (.dissolveSlice k) s (fun t => OnlyModule s t ∧ t.m.locked = true)) ∧
  (∀ k s, k < 16 → s.m.recovery = false → s.vfLocked k = false → ((s.slice k).st = .active ∨ (s.slice k).st = .config) →
    Gives (.dissolveSlice k) s (fun t => (t.slice k).st = .resetting ∧ (t.slice k).dissolving = true ∧ (t.slice k).key = 0 ∧ (t.slice k).killing = false ∧
      (∀ f ∈ s.framesOf k, tableFrame f = false → t.owner f = 31 ∧ ∀ o < 65536, t.memByte (f * 65536 + o) = 0))) ∧
  (∀ k s, k < 16 → (s.slice k).st = .resetting → (s.slice k).dissolving = true → Gives (.dissolveDone k) s (fun t =>
    (t.slice k).st = .free ∧ (t.slice k).dissolving = false ∧ (t.slice k).clusters = [] ∧ (t.slice k).busyEnd = 0 ∧ t.groups = s.groups))) ∧
  ((∀ k off v s, k < 16 → off ≠ 0 → s.m.recovery = false → s.deckleOpen k = false → Gives (.deckleWrite k off v) s (fun t => OnlyModule s t ∧
    t.m.locked = true ∧ t.m.first = (if s.m.locked then s.m.first else BitVec.ofNat 24 (0x30000 + 0x100 * k + off)))) ∧
  (∀ k v s, k < 16 → s.m.recovery = false → s.deckleOpen k = true → Gives (.deckleWrite k 4 v) s (fun t => OnlySlice k s t ∧
    (t.slice k).ual = (v.extractLsb' 16 16).toNat ∧ (t.slice k).eth = (v.extractLsb' 0 16).toNat)) ∧
  (∀ k v s, k < 16 → s.m.recovery = false → s.deckleOpen k = true → Gives (.deckleWrite k 8 v) s (fun t => OnlySlice k s t ∧ (t.slice k).cemask = v)) ∧
  (∀ k d v s, k < 16 → d < 4 → s.m.recovery = false → s.deckleOpen k = true → Gives (.deckleWrite k (0x20 + 0x20 * d) v) s (fun t => OnlySlice k s t ∧
    Tbl.get (t.slice k).cld 0 d = v.extractLsb' 0 9)) ∧
  (∀ k d v s, k < 16 → d < 4 → s.m.recovery = false → s.deckleOpen k = true → Gives (.deckleWrite k (0x24 + 0x20 * d) v) s (fun t => OnlySlice k s t ∧
    Tbl.get (t.slice k).ways 0 d = v)) ∧
  (∀ k j v s, k < 16 → j < 8 → s.m.recovery = false → s.deckleOpen k = true →
    Gives (.deckleWrite k (0x30 + 0x20 * (j / 2) + 4 * (j % 2)) v) s (fun t => OnlySlice k s t ∧
      Tbl.get (t.slice k).floor 0 j = (v.extractLsb' 24 8).toNat ∧ Tbl.get (t.slice k).ceil 255 j = (v.extractLsb' 16 8).toNat ∧
      Tbl.get (t.slice k).weight 16 j = (v.extractLsb' 8 8).toNat)) ∧
  (∀ k v s, k < 16 → s.m.recovery = false → s.deckleOpen k = true → v.extractLsb' 24 4 = 0 → Gives (.deckleWrite k 0 v) s (fun t => OnlySlice k s t ∧
    (t.slice k).helm = (v.extractLsb' 20 4).toNat)))

/-- Tier 2, derived (R63 to R69): a frame command that fails a check answers its code and changes no memory; ASSIGN and RELEASE
zero the frame, REKEY keeps its bytes, and each ends with the owner it names; a stack's level follows its temperature with 3
degrees of hysteresis; the arbiter charges a slice no more than it asks with the cost of its own turnarounds, and no
more than its ceiling on channels that it names, and holds the rest. Model's choice, log 10 and 59: a command ends at its bound;
what the requests of a window are, and the rounding. -/
def Obligations.FramesAndBands : Prop :=
  (∀ (mode f o : Nat) (i : Instr) s, (i = .assignFrame f o ∧ mode = 0 ∨ i = .rekeyFrame f o ∧ mode = 1 ∨
      i = .releaseFrame f ∧ mode = 2 ∧ o = 0 ∨ i = .queryFrame f ∧ mode = 3 ∧ o = 0) →
    s.m.recovery = false →
    (s.m.ownBusy = true → Gives i s (fun t => OnlyModule s t ∧
      t.m = { s.m with ownMode := mode, ownNew := o, ownFrame := f, ownRes := 5 })) ∧
    (s.m.ownBusy = false → s.ownCheck mode f o ≠ 0 → Gives i s (fun t => OnlyModule s t ∧ t.m.ownRes = s.ownCheck mode f o ∧
      t.m.ownOwner = s.owner f ∧ t.m.ownBusy = false)) ∧
    (s.m.ownBusy = false → s.ownCheck mode f o = 0 → Gives i s (fun t => OnlyModule s t ∧ t.m.ownBusy = true ∧
      t.m.ownJob = some { mode := mode, owner := o, frame := f, endAt := s.cycle + 4000 }))) ∧
  (∀ (f o : Nat) (s : State), o ≤ 16 → s.owner f ≠ 31 → s.owner f ≠ 30 → s.ownCheck 0 f o = 1) ∧
  (∀ (f o : Nat) (s : State), s.owner f = 30 → o ≤ 16 → s.ownCheck 0 f o = 6 ∧ s.ownCheck 1 f o = 6 ∧ s.ownCheck 2 f o = 6) ∧
  (∀ (f : Nat) (s : State), s.owner f = 31 → s.ownCheck 2 f 0 = 2) ∧
  (∀ f o e s, tableFrame f = false → f < 0x800000 → o ≤ 16 →
    s.m.ownJob = some { mode := 0, owner := o, frame := f, endAt := e } → Gives .owncmdDone s (fun t =>
      t.owner f = o ∧ (∀ b, b / 65536 = f → t.memByte b = 0) ∧
      (∀ b, b / 65536 ≠ f → b ≠ 0x7FFF800000 + f → t.memByte b = s.memByte b) ∧ t.m.ownRes = 0 ∧ t.m.ownBusy = false ∧
      t.m.ownOwner = o ∧ t.groups = s.groups)) ∧
  (∀ f o e s, o ≤ 16 → s.m.ownJob = some { mode := 1, owner := o, frame := f, endAt := e } → Gives .owncmdDone s (fun t =>
      t.owner f = o ∧ (∀ b, b ≠ 0x7FFF800000 + f → t.memByte b = s.memByte b) ∧ t.m.ownRes = 0 ∧ t.m.ownBusy = false ∧
      t.groups = s.groups)) ∧
  (∀ f e s, tableFrame f = false → f < 0x800000 → s.m.ownJob = some { mode := 2, owner := 0, frame := f, endAt := e } →
    Gives .owncmdDone s (fun t => t.owner f = 31 ∧ (∀ b, b / 65536 = f → t.memByte b = 0) ∧
      (∀ b, b / 65536 ≠ f → b ≠ 0x7FFF800000 + f → t.memByte b = s.memByte b) ∧ t.m.ownBusy = false)) ∧
  (∀ k c s, Gives (.hbmThermalLevelChange k c) s (fun t =>
    (t.stack k).level = (if 95 ≤ c.toNat then 2 else if (s.stack k).level = 2 ∧ 92 ≤ c.toNat then 2
      else if 85 ≤ c.toNat ∨ (1 ≤ (s.stack k).level ∧ 82 ≤ c.toNat) then 1 else 0) ∧
    (t.stack k).tstk = c ∧
    (t.stack k).d + 1 = (if (t.stack k).level = 0 then 256 else if (t.stack k).level = 1 then 232 else 160) ∧
    (∀ e, e ≠ k → t.stack e = s.stack e) ∧ SameWork s t)) ∧
  (∀ k want s, Gives (.bwWindow k want) s (fun t =>
    let asked := (s.stack k).asked want
    t = { s with hbm := t.hbm, free := s.free + 1 } ∧ (∀ e, e ≠ k → t.stack e = s.stack e) ∧
    (t.stack k).window = s.cycle / 1000 ∧ (t.stack k).used.map (·.1) = asked.map (·.1) ∧
    (∀ n, ((t.stack k).used.getD n (0, 0)).2 ≤
      (asked.getD n (0, 0)).2 + Config.bandOverhead s.free k (asked.getD n (0, 0)).1) ∧
    (∀ e ∈ (t.stack k).used, e.1 < 16 → (s.slice e.1).channels k ≠ 0 →
      e.2 ≤ Tbl.get (s.slice e.1).ceil 255 k * 16000) ∧
    (∀ h ∈ (t.stack k).held, h.2 ≠ 0 ∧ ∃ e ∈ asked, e.1 = h.1 ∧ h.2 ≤ e.2)))

/-- Tier 2, derived (R36, R61, R70 to R72, R76 to R78): a function-level reset of a VF that exists puts its slice in RESETTING,
or, of a FREE slice, unlocks its TDI at once; its end makes the slice CONFIG with the TDI unlocked; a STOP request is the same
reset; the VFs appear together and, when VF Enable is cleared, are reset one after the other before they go. A module reset
keeps flash, fuses and the test history and clears the rest; flash that is erased, or an image that the boot ROM does not
accept, leaves the module in recovery, with D0 alone clocked; FWLOAD answers the first check that fails, and a good image
erases flash and is on its way there. Model's choice, log 10, 32, 42, 64 and 79: a reset ends at its bound, what a
module reset keeps, the resets of a FREE slice and of a STOP request, and a version number beyond 32. -/
def Obligations.Resets : Prop :=
  ((∀ (vf : Nat) (i : Instr) s, (i = .functionLevelReset vf ∨ i = .tdiStop vf) →
    ((vf = 0 ∨ s.vfExists (vf - 1) = false) → Idles i s) ∧
    (1 ≤ vf → s.vfExists (vf - 1) = true → (s.slice (vf - 1)).st = .resetting → (s.slice (vf - 1)).dissolving = false →
      Idles i s) ∧
    (1 ≤ vf → s.vfExists (vf - 1) = true →
      ((s.slice (vf - 1)).st = .free ∨ ((s.slice (vf - 1)).st = .resetting ∧ (s.slice (vf - 1)).dissolving = true)) →
      s.m.ownJob = none → Gives i s (fun t =>
      t.slice (vf - 1) = { s.slice (vf - 1) with tdi := .configUnlocked, session := false, importKey := none } ∧
      OnlySlice (vf - 1) s t)) ∧
    (1 ≤ vf → s.vfExists (vf - 1) = true → (s.slice (vf - 1)).st ≠ .resetting → (s.slice (vf - 1)).st ≠ .free →
      Gives i s (fun t => let y := t.slice (vf - 1)
        y.st = .resetting ∧ y.dissolving = false ∧ y.killing = false ∧ y.quiesced = false ∧ y.exportKey = none ∧ y.importKey = none ∧
          y.busyEnd = s.cycle + 1000000))) ∧
  (∀ vf s, 1 ≤ vf → s.m.vfClear ≠ vf → (s.slice (vf - 1)).st = .resetting → (s.slice (vf - 1)).dissolving = false →
    Gives (.flrComplete vf) s (fun t =>
      t.slice (vf - 1) = { s.slice (vf - 1) with st := .config, tdi := .configUnlocked, busyEnd := 0 } ∧ OnlySlice (vf - 1) s t)) ∧
  (∀ n s, s.m.vfEnabled = false → s.m.recovery = false → Gives (.vfEnableSet n) s (fun t => OnlyModule s t ∧
    t.m = { s.m with vfEnabled := true, numVfs := min n 16 })) ∧
  (∀ n s, (s.m.vfEnabled = true ∨ s.m.recovery = true) → Idles (.vfEnableSet n) s) ∧
  (∀ s, s.m.vfEnabled = true → s.m.vfClear = 0 → s.m.numVfs = 0 → Gives .vfEnableClear s (fun t => OnlyModule s t ∧
    t.m = { s.m with vfEnabled := false, vfClear := 0 })) ∧
  (∀ s, s.m.vfEnabled = true → s.m.vfClear = 0 → 1 ≤ s.m.numVfs → s.m.numVfs ≤ 16 → (s.slice 0).st = .active →
    Gives .vfEnableClear s (fun t => t.m.vfEnabled = true ∧ t.m.vfClear = 1 ∧ (t.slice 0).st = .resetting))) ∧
  ((∀ s, Gives .moduleReset s (fun t => let img := s.m.flash.getD Config.bootImage
    t.mem = [] ∧ t.hostMem = s.hostMem ∧ t.groups = [] ∧ t.slices = [] ∧ t.cores = [] ∧ t.agenda = [] ∧ t.cur = none ∧
    t.cycle = 0 ∧ t.m.flash = s.m.flash ∧ t.m.fusedCores = s.m.fusedCores ∧ t.m.testLog = s.m.testLog ∧
    t.m.vfEnabled = false ∧ t.m.flashJob = none ∧ t.m.erased = s.m.erased ∧ t.m.recovery = (s.m.erased || !s.imageOk img) ∧
    (s.m.erased = false → s.imageOk img = true → t.dies = [] ∧ s.m.fuses ≤ t.m.fuses) ∧
    ((s.m.erased = true ∨ s.imageOk img = false) → t.m.fuses = s.m.fuses ∧ (t.die 0).curhs = 2 ∧ (t.die 0).curvf = 11 ∧
      ∀ d, d ≠ 0 → (t.die d).curhs = 0))) ∧
  (∀ n k s, k < 16 → s.m.recovery = false → (s.slice k).st = .active → Gives (.fwloadWrite n) s (fun t => OnlyModule s t ∧
    t.m = { s.m with fwsts := 4, fwlen := BitVec.ofNat 32 n })) ∧
  (∀ n s, s.m.flashJob ≠ none → Gives (.fwloadWrite n) s (fun t => OnlyModule s t ∧
    t.m = { s.m with fwsts := 4, fwlen := BitVec.ofNat 32 n })) ∧
  (∀ n s, s.m.recovery = true → s.m.flashJob = none → 67108864 < n → Gives (.fwloadWrite n) s (fun t => OnlyModule s t ∧
    t.m = { s.m with fwsts := 3, fwlen := BitVec.ofNat 32 n })) ∧
  (∀ n s, s.m.flashJob = none → (s.m.recovery = true ∨ ∀ k < 16, (s.slice k).st ≠ .active) → n ≤ 67108864 →
    let img := s.memBytes (s.m.bar2win.toNat * 0x1000000000) n
    (Config.signatureValid img = false → Gives (.fwloadWrite n) s (fun t => OnlyModule s t ∧
      t.m = { s.m with fwsts := 1, fwlen := BitVec.ofNat 32 n })) ∧
    (Config.signatureValid img = true → Config.imageVersion img < s.fuseCount → Gives (.fwloadWrite n) s (fun t =>
      OnlyModule s t ∧ t.m = { s.m with fwsts := 2, fwlen := BitVec.ofNat 32 n })) ∧
    (Config.signatureValid img = true → s.fuseCount ≤ Config.imageVersion img → Gives (.fwloadWrite n) s (fun t =>
      t = { s with free := s.free + 1, m := t.m } ∧ t.m = { s.m with
        fwsts := 0, fwlen := BitVec.ofNat 32 n, erased := true, flashJob := some (img, s.cycle + Config.flashTime s.free) }))))

/-- Tier 2, derived (R36, R73 to R75, R150): a responder answers a request that its stage or session allows, and answers others
with an error that changes nothing else; a function without a responder answers nothing; FINISH secures the session that
KEY_EXCHANGE began; the TDI moves as TDISP asks; the migration keys go and come in a session alone. Model's choice, log 6 and 8:
keys and digests are opaque, and standard bodies are bytes. -/
def Obligations.Attestation : Prop :=
  (∀ fn s, s.doeFn fn = true → Gives (.getVersion fn) s (fun t => (t.slice (fnSlice fn)).spdm = 1 ∧
    (t.slice (fnSlice fn)).session = false ∧ t.m.spdmOut = [0x13] ∧ SameWork s t)) ∧
  (∀ fn s, s.doeFn fn = false → Idles (.getVersion fn) s ∧ Idles (.getCapabilities fn) s ∧ Idles (.negotiateAlgorithms fn) s ∧
    Idles (.getDigests fn) s ∧ Idles (.spdmFinish fn) s ∧ Idles (.spdmHeartbeat fn) s ∧ Idles (.spdmEndSession fn) s) ∧
  (∀ fn s, s.doeFn fn = true → (s.slice (fnSlice fn)).spdm = 0 → ∀ i, (i = .getCapabilities fn ∨ i = .negotiateAlgorithms fn ∨
      i = .getDigests fn ∨ (∃ a b c, i = .getCertificate fn a b c) ∨ (∃ a b, i = .spdmChallenge fn a b) ∨
      (∃ a, i = .getMeasurements fn a) ∨ (∃ a b, i = .keyExchange fn a b) ∨ i = .spdmFinish fn) →
    Gives i s (fun t => OnlyModule s t ∧ t.m = { s.m with spdmOut := [0x7F, 4] })) ∧
  (∀ fn s, s.doeFn fn = true → 1 ≤ (s.slice (fnSlice fn)).spdm → Gives (.getCapabilities fn) s (fun t =>
    (t.slice (fnSlice fn)).spdm = 2 ∧ SameWork s t)) ∧
  (∀ fn s, s.doeFn fn = true → 2 ≤ (s.slice (fnSlice fn)).spdm → Gives (.negotiateAlgorithms fn) s (fun t =>
    (t.slice (fnSlice fn)).spdm = 3 ∧ t.m.spdmOut = algorithms ∧ SameWork s t)) ∧
  (∀ fn s, s.doeFn fn = true → 3 ≤ (s.slice (fnSlice fn)).spdm →
    Gives (.getDigests fn) s (fun t => t.m.spdmOut = leBytes 64 (Config.sha3 (certificate 0 65536)).toNat ∧ SameWork s t) ∧
    (∀ off len, Gives (.getCertificate fn 0 off len) s (fun t => t.m.spdmOut = certificate off len ∧ SameWork s t)) ∧
    (∀ n, Gives (.spdmChallenge fn 0 n) s (fun t =>
      t.m.spdmOut = s.transcriptSign fn n ∧ SameWork s t)) ∧
    (∀ k l, s.measure fn k = some l → Gives (.getMeasurements fn k) s (fun t => t.m.spdmOut = l ++ s.transcriptSign fn l ∧ SameWork s t)) ∧
    (∀ b, Gives (.keyExchange fn 0 b) s (fun t => (t.slice (fnSlice fn)).spdm = 4 ∧ SameWork s t))) ∧
  (∀ fn s, s.doeFn fn = true → (s.slice (fnSlice fn)).spdm = 4 → Gives (.spdmFinish fn) s (fun t =>
    (t.slice (fnSlice fn)).session = true ∧ SameWork s t)) ∧
  (∀ fn s, s.doeFn fn = true → (s.slice (fnSlice fn)).session = true →
    Gives (.spdmHeartbeat fn) s (fun t => (t.slice (fnSlice fn)).session = true ∧ SameWork s t) ∧
    Gives (.spdmEndSession fn) s (fun t => (t.slice (fnSlice fn)).session = false ∧ SameWork s t) ∧
    (∀ b, Gives (.ideKm fn b) s (fun t => t.m.spdmOut = b ∧ SameWork s t))) ∧
  (∀ fn s, s.doeFn fn = true → (s.slice (fnSlice fn)).session = false →
    (∀ b, Gives (.ideKm fn b) s (fun t => t.m = { s.m with spdmOut := [0x7F, 4] } ∧ OnlyModule s t)) ∧
    (∀ b, Gives (.getExportKey fn b) s (fun t => t.m = { s.m with spdmOut := [0x7F, 4] } ∧ OnlyModule s t)) ∧
    (∀ b, Gives (.setImportKey fn b) s (fun t => t.m = { s.m with spdmOut := [0x7F, 4] } ∧ OnlyModule s t)) ∧
    (∀ m, Gives (.tdispMessage fn m) s (fun t => t.m = { s.m with spdmOut := [0x7F, 4] } ∧ OnlyModule s t))) ∧
  (∀ fn s, fn ≠ 0 → s.doeFn fn = true → (s.slice (fnSlice fn)).session = true →
    ((s.slice (fnSlice fn)).tdi = .configUnlocked → Gives (.tdispMessage fn .lockInterface) s (fun t =>
      (t.slice (fnSlice fn)).tdi = .configLocked ∧ SameWork s t)) ∧
    ((s.slice (fnSlice fn)).tdi = .configLocked → Gives (.tdispMessage fn .startInterface) s (fun t =>
      (t.slice (fnSlice fn)).tdi = .run ∧ SameWork s t)) ∧
    Gives (.tdispMessage fn .getState) s (fun t => t.m.spdmOut = [BitVec.ofNat 8 (s.slice (fnSlice fn)).tdi.code] ∧ SameWork s t) ∧
    (∀ b k, field b 0 1 = 1 → (s.slice (fnSlice fn)).exportKey = some k → Gives (.getExportKey fn b) s (fun t =>
      t.m.spdmOut = [0x81, 0, 0, 0] ++ leBytes 32 k ++ leBytes 8 (s.slice (fnSlice fn)).exportLen ∧ SameWork s t)) ∧
    (∀ b, field b 0 1 = 2 → b.length = 36 → ((s.slice (fnSlice fn)).st = .config ∨ (s.slice (fnSlice fn)).st = .activating) →
      Gives (.setImportKey fn b) s (fun t =>
      (t.slice (fnSlice fn)).importKey = some (field b 4 32) ∧ SameWork s t)))

/-- Tier 2, derived (R80, R82 to R92): a packet that fails a check stops its queue with the QERR of the check and nothing is
accepted; one that passes them joins the packets of its queue and starts when the earlier ones have started and, behind a FENCE
or for a MARKER, are complete; one that starts takes its effect: a launch stands in its slice, a copy or a collective at the end
of its engine's work, a counter grows, a region's fields change. CWAIT is accepted when its counter has reached VALUE and it may
start. QTAB.CTL takes ENG only while the queue is off. Model's choice, log 5, 29 and 36: the context number of a queue's own
operations, that RDIDX moves at the acceptance, and the limits of the fields. -/
def Obligations.QueuePackets : Prop :=
  (∀ k q v s, k < 16 → q < 64 → s.m.recovery = false → Gives (.qtabCtlWrite k q v) s (fun t =>
    let x := (s.slice k).queue q
    let y := (t.slice k).queue q
    y.en = v.getLsbD 31 ∧ y.prio = (v.extractLsb' 12 4).toNat ∧ y.qcb = x.qcb ∧ y.rdlo = x.rdlo ∧
    y.eng = (if x.en then x.eng else (v.extractLsb' 0 8).toNat) ∧
    (v.getLsbD 31 = true → x.en = false → y.stopped = false ∧ y.qerr = 0) ∧
    ((v.getLsbD 31 = false ∨ x.en = true) → y.stopped = x.stopped ∧ y.qerr = x.qerr) ∧ OnlySlice k s t)) ∧
  (∀ k q e tag s, s.queueHead k q = .stop e tag → Gives (.pktBadType k q) s (fun t =>
    ((t.slice k).queue q).stopped = true ∧ ((t.slice k).queue q).qerr = e ∧ SameWork s t)) ∧
  (∀ (k q d rd slot : Nat) (b : List Byte) (s : State), k < 16 → s.queueHead k q = .packet d rd slot b →
    let err := s.packetErr k d ((s.slice k).queue q).eng b
    let u := s.acceptHead k q d rd slot
    let v := u.addPending k q d rd b
    let old := Tbl.get (s.slice k).pending [] q
    let pkt : Pkt := { num := (s.slice k).nextPkt, pos := rd, eng := ((s.slice k).queue q).eng, die := d, bytes := b }
    let may := old = [] ∨ (pktFence b = false ∧ pktType b ≠ 7)
    let stops (n : Nat) (t : State) : Prop :=
      ((t.slice k).queue q).stopped = true ∧ ((t.slice k).queue q).qerr = n ∧ SameWork s t
    let left (l : List Pkt) (t : State) : Prop := Tbl.get (t.slice k).pending [] q = l ∧ t.groups = s.groups
    let memory (w t : State) : Prop := t.mem = w.mem ∧ t.hostMem = w.hostMem
    (((u.slice k).queue q).rdlo = (rd + 1) % 2 ^ 32) ∧
    (9 ≤ pktType b → Gives (.pktBadType k q) s (stops 1)) ∧
    (∀ i, (i = .pktLaunch k q ∧ pktType b = 1 ∨ i = .pktCopy k q ∧ pktType b = 2 ∨ i = .pktCopy2d k q ∧ pktType b = 3 ∨
        i = .pktColl k q ∧ pktType b = 4 ∨ i = .pktCwait k q ∧ pktType b = 5 ∨ i = .pktCadd k q ∧ pktType b = 6 ∨
        i = .pktMarker k q ∧ pktType b = 7 ∨ i = .pktRegion k q ∧ pktType b = 8) → err ≠ 0 → Gives i s (stops err)) ∧
    (err = 0 → s.pktPoison k d b = none → (∀ r ∈ old, r.started = true ∧ r.num < (s.slice k).nextPkt) →
      (pktType b = 1 → ∀ desc chain, v.engineRead k d (field b 8 8) 256 = .ok desc →
        v.rcbChain k d (field b 0x10 8) 8 = .ok chain → Gives (.pktLaunch k q) s (fun t =>
          (∃ l, Tbl.find (t.slice k).launches (s.slice k).nextLaunch = some l ∧ l.dealt = 0 ∧ l.retired = 0 ∧ l.desc = desc ∧
            l.pkt = b ∧ l.queue = q ∧ l.num = pkt.num ∧ l.total = field b 0x20 2 * field b 0x22 2 * field b 0x24 2 ∧
            l.prio = (regionOf chain).prio ∧ l.cores = (v.sliceCores k).take (regionOf chain).maxcores) ∧
          (t.slice k).nextLaunch = (s.slice k).nextLaunch + 1 ∧ (may → left (old ++ [{ pkt with started := true }]) t) ∧
          (¬ may → left (old ++ [pkt]) t))) ∧
      (∀ i, (i = .pktCopy k q ∧ pktType b = 2 ∨ i = .pktCopy2d k q ∧ pktType b = 3) → Gives i s (fun t =>
        (∃ j, ((t.die d).engine ((((s.slice k).queue q).eng - 0x20) % 8)).jobs =
            ((s.die d).engine ((((s.slice k).queue q).eng - 0x20) % 8)).jobs ++ [j] ∧ j.slice = k ∧ j.queue = some q ∧
          j.pkt = pkt.num ∧ j.image = b ∧ j.next = 0 ∧ j.landed = 0 ∧ j.inflight = [] ∧ j.stopped = none ∧
          j.accepted = s.cycle) ∧
        left (old ++ [pkt]) t)) ∧
      (pktType b = 4 → Gives (.pktColl k q) s (fun t =>
        (∃ j, (t.die d).colls = (s.die d).colls ++ [j] ∧ j.slice = k ∧ j.queue = some q ∧ j.pkt = pkt.num ∧ j.image = b ∧
          j.tiles = [] ∧ j.stopped = none ∧ j.gated = false) ∧
        left (old ++ [pkt]) t)) ∧
      (∀ i, (i = .pktCadd k q ∧ pktType b = 6 ∨ i = .pktMarker k q ∧ pktType b = 7 ∨ i = .pktRegion k q ∧ pktType b = 8) →
        ¬ may → Gives i s (fun t => left (old ++ [pkt]) t ∧ memory u t)) ∧
      (pktType b = 6 → may →
        (pktCnt b = 0 → Gives (.pktCadd k q) s (fun t => left old t ∧ memory u t)) ∧
        (∀ l w, pktCnt b ≠ 0 → ({ v with free := v.free + 1 } : State).spanBusy k d (pktCnt b) 8 = false →
          let x := (({ v with free := v.free + 1 } : State).drawMark (v.queueCtx q) ((v.slice k).dies.idxOf d) d).1
          x.engineSpan k d (pktCnt b) 8 .store = .ok l →
          x.engineWrite k d (pktCnt b) (leBytes 8 (ofLe l + field b 0x10 8)) = some w →
          Gives (.pktCadd k q) s (fun t => left old t ∧ memory w t))) ∧
      (pktType b = 7 → may → pktCnt b = 0 →
        (pktWord b = 0 → Gives (.pktMarker k q) s (fun t => left old t ∧ memory u t)) ∧
        (∀ w, pktWord b ≠ 0 → v.spanBusy k d (pktWord b) 8 = false → v.engineWrite k d (pktWord b) (leBytes 8 s.cycle) = some w →
          Gives (.pktMarker k q) s (fun t => left old t ∧ memory w t))) ∧
      (pktType b = 8 → may →
        (field b 0x10 4 = 0 → Gives (.pktRegion k q) s (fun t => left old t ∧ memory u t)) ∧
        (∀ w, field b 0x10 4 = 1 → v.engineWrite k d (field b 8 8 + 8) (leBytes 4 (field b 0x14 4)) = some w →
          Gives (.pktRegion k q) s (fun t => left old t ∧ memory w t)) ∧
        (∀ w, field b 0x10 4 = 2 → v.engineWrite k d (field b 8 8 + 0xC) (leBytes 2 (field b 0x18 2)) = some w →
          Gives (.pktRegion k q) s (fun t => left old t ∧ memory w t)) ∧
        (∀ w, field b 0x10 4 = 4 → v.engineWrite k d (field b 8 8 + 0x10) (leBytes 4 (field b 0x1C 4)) = some w →
          Gives (.pktRegion k q) s (fun t => left old t ∧ memory w t)))) ∧
    (pktType b = 5 → err = 0 → s.pktPoison k d b = none → ∀ c, s.engineRead k d (pktCnt b) 16 = .ok c →
      (nbit (field c 8 8) 63 = true → Gives (.pktCwait k q) s (stops 5)) ∧
      (nbit (field c 8 8) 63 = false → field b 0x10 8 ≤ field c 0 8 → s.mayStart k q b = true →
        exec (.pktCwait k q) s = .next u) ∧
      (nbit (field c 8 8) 63 = false → (field c 0 8 < field b 0x10 8 ∨ s.mayStart k q b = false) → Idles (.pktCwait k q) s)))

/-- Tier 2, derived (R116 to R118, R121, R122, R157, R159, R165): the helm deals the workgroups of a launch in order, each to
the core that R116 gives; one that fits becomes resident with its groups at the kernel's entry, their scalars and masks as R159
gives them; a gathered group holds one record a lane; a group without live lanes and entries retires, 64 cycles after its last
issue. Model's choice, log 14, 41 and 5: the 64 cycles before a retirement, the partition and linear index of a gathered group,
and the undefined scratchpad. -/
def Obligations.DealAndResidence : Prop :=
  (∀ k id c l s, Tbl.find (s.slice k).launches id = some l → l.dealt < l.total → l.aborted = none →
    (s.slice k).accepts 0 = true → (s.slice k).started (some l.queue) l.num = true → l.coreOf l.dealt = some c →
    (s.core c).testing = 0 → Gives (.wgDeal k id) s (fun t =>
      (∃ w, (t.core c).waiting = (s.core c).waiting ++ [w] ∧ w.slice = k ∧ w.launch = id ∧ w.lin = l.dealt) ∧
      Tbl.find (t.slice k).launches id = some { l with dealt := l.dealt + 1 } ∧ (∀ e, e ≠ c → t.core e = s.core e) ∧ SameWork s t)) ∧
  (∀ k id l s, Tbl.find (s.slice k).launches id = some l → l.total ≤ l.dealt → Idles (.wgDeal k id) s) ∧
  (∀ c w s, (s.core c).waiting = [w] → w.prio < 16 → (s.core c).testing = 0 →
    s.waitFits c w = true → Gives (.wgResident c) s (fun t =>
    let l := s.waitLaunch w
    let n := groupsOf l.desc
    (∀ j < n, ∃ g p, Tbl.find t.groups (s.nextGid + j) = some g ∧ g.slice = w.slice ∧ g.launch = w.launch ∧ g.core = c ∧
      g.part = j % 8 ∧ g.lin = w.lin ∧ g.num = j ∧ g.count = n ∧ g.place = .resident ∧ g.log = [] ∧ g.splits = [p] ∧
      p.st = .run ∧ p.pc = BitVec.ofNat 64 (field l.desc 8 8) ∧
      (∀ i < 32, p.mask.getLsbD i = decide (j * 32 + i < threads l.desc)) ∧
      g.sReg 0 = BitVec.ofNat 32 w.lin ∧ g.sReg 1 = BitVec.ofNat 32 j ∧ g.sReg 4 = BitVec.ofNat 32 n ∧
      (∀ r, 5 ≤ r → g.sReg r = 0) ∧ (∀ r i, g.vReg r i = 0)) ∧
    t.nextGid = s.nextGid + n ∧ t.nextWg = s.nextWg + 1 ∧ (t.core c).waiting = [])) ∧
  (∀ c s, (s.core c).waiting = [] → Idles (.wgResident c) s) ∧
  (∀ k id l x c s, Tbl.find (s.slice k).launches id = some l → l.gathered = [x] → s.gatherCore l x.die = some c →
    s.gatherFits k l c = true → (s.core c).testing = 0 → s.spanFail k x.die (l.gatherAt x.slot) gatherBytes .load = none →
    Gives (.gatheredResident k id) s (fun t =>
      (∃ g p, Tbl.find t.groups s.nextGid = some g ∧ g.gathered = true ∧ g.slice = k ∧ g.core = c ∧ g.part = 0 ∧ g.count = 1 ∧
        g.spadLimit = 0 ∧ g.splits = [p] ∧ p.pc = x.entry ∧ (∀ i < 32, p.mask.getLsbD i = decide (i < x.records.length)) ∧
        g.sReg 0 = BitVec.ofNat 32 x.records.length) ∧
      t.nextGid = s.nextGid + 1 ∧ (∃ m, Tbl.find (t.slice k).launches id = some m ∧ m.gathered = []))) ∧
  (∀ k id l s, Tbl.find (s.slice k).launches id = some l → l.gathered = [] → Idles (.gatheredResident k id) s) ∧
  (∀ gid g s, Tbl.find s.groups gid = some g → s.mayRetire g = false → Idles (.groupRetire gid) s) ∧
  (∀ gid g h x s, Tbl.find s.groups gid = some g → g.place = .resident → g.live = 0 → g.log = [] → g.flush = [] →
    s.struck g.core = false → g.lastCyc + 64 ≤ s.now g.core → h ≠ gid → Tbl.find s.groups h = some x → x.wg = g.wg →
    Gives (.groupRetire gid) s (fun t => Tbl.find t.groups gid = none ∧
      (∀ e, e ≠ gid → Tbl.find t.groups e = Tbl.find s.groups e) ∧ t.mem = s.mem ∧ t.hostMem = s.hostMem))

/-- Tier 2, derived (R106, R134 to R136, R144, R174 to R178, R185, R193, R376): victims freeze, and one that freezes for a page fault
goes on under the eviction; a frozen state is complete 64 cycles later with no class I2 entry under way and no tile.tld or tile.tst
that may still go on; a group is saved in the lowest free frame, which then holds it; a saved group comes back with the registers
that its frame holds. Model's choice, log 12, 13 and 20: what a restoration asks again, and what is saved whole. -/
def Obligations.SavesAndRestores : Prop :=
  (∀ c k n ws gone s, (s.waitersOn c)[k]? = some n → s.coreOpen n.slice c = true → s.needFits c n = false →
    s.evictionFor c n = some (ws, gone) → (∀ h ∈ gone, ∀ e ∈ (s.group h).log, e.cls ≠ 2) → (s.groups.map (·.1)).Nodup →
    Gives (.evictFor c k) s (fun t =>
      (∀ h ∈ gone, ∀ g, Tbl.find s.groups h = some g → g.place = .resident ∨ (g.place = .freezing ∧ g.why = 1) →
        (t.group h).place = .freezing ∧ (t.group h).why = 0 ∧ (t.group h).evictor = some n.who ∧
        (g.token = none → (t.group h).wants = true)) ∧
      (∀ h g, Tbl.find s.groups h = some g → h ∉ gone → g.wg ∉ ws → Tbl.find t.groups h = some g) ∧
      t.mem = s.mem ∧ t.hostMem = s.hostMem ∧ t.spad = s.spad)) ∧
  (∀ c k s, ((s.waitersOn c)[k]? = none ∨ ∃ n, (s.waitersOn c)[k]? = some n ∧ s.needFits c n = true) → Idles (.evictFor c k) s) ∧
  (∀ gid g s, Tbl.find s.groups gid = some g → g.place = .freezing → s.struck g.core = false →
    g.frozeCyc + 64 ≤ s.now g.core → g.i2Out = false →
    (∀ e ∈ g.log, e.tileMove = true → e.over = true ∨ s.entryMay g e = false) → Gives (.freezeComplete gid) s (fun t =>
      t.group gid = { g with place := .frozen } ∧ OnlyGroup gid s t)) ∧
  (∀ gid g s, Tbl.find s.groups gid = some g → g.i2Out = true → Gives (.freezeComplete gid) s (fun t =>
    t.group gid = g ∧ OnlyGroup gid s t)) ∧
  (∀ gid g s, Tbl.find s.groups gid = some g → g.slice < 16 → g.place = .freezing → g.why ≠ 1 → g.i2Out = true →
    g.frozeAt + 2000 ≤ s.cycle → (s.slice g.slice).st = .active → (s.slice g.slice).killing = false →
    Gives (.i2DrainTimeout gid) s (fun t => (t.slice g.slice).killing = true ∧ (t.slice g.slice).killCause = 2)) ∧
  (∀ gid g s, Tbl.find s.groups gid = some g → s.cycle < g.frozeAt + 2000 → Idles (.i2DrainTimeout gid) s) ∧
  (∀ gid g s, Tbl.find s.groups gid = some g → (g.place ≠ .frozen ∨ s.freeFrame g = none) → Idles (.groupSave gid) s) ∧
  (∀ gid g k w s, Tbl.find s.groups gid = some g → g.place = .frozen → s.freeFrame g = some k →
    (∀ x ∈ (s.core g.core).wgs, x.leaving = false) →
    s.spanBusy g.slice (dieOf g.core) (frameAddr (s.launchOf g) g.regs k) (frameBytes g g.why).length = false →
    s.spanFail g.slice (dieOf g.core) (frameAddr (s.launchOf g) g.regs k) (frameBytes g g.why).length .store = none →
    s.engineWrite g.slice (dieOf g.core) (frameAddr (s.launchOf g) g.regs k) (frameBytes g g.why) = some w →
    Gives (.groupSave gid) s (fun t => (t.group gid).place = .saved ∧ (t.group gid).frame = some k ∧
      (t.group gid).claim = false ∧ (t.group gid).log = g.log ∧ (t.group gid).splits = g.splits)) ∧
  (∀ gid g s, Tbl.find s.groups gid = some g → s.restoreFits gid g = false → Idles (.groupRestore gid) s) ∧
  (∀ gid g k f s, Tbl.find s.groups gid = some g → s.restoreFits gid g = true → g.frame = some k → g.why ≠ 4 → g.log = [] →
    (s.core g.core).testing = 0 → s.areaBusy gid g = false →
    (∀ x ∈ (s.core g.core).wgs, gid ∈ x.gids → x.whole = false) →
    s.spanFail g.slice (dieOf g.core) (frameAddr (s.launchOf g) g.regs k) (frameSize g.regs) .load = none →
    s.engineRead g.slice (dieOf g.core) (frameAddr (s.launchOf g) g.regs k) (frameSize g.regs) = .ok f →
    (s.devAddrs g.slice (dieOf g.core) (frameAddr (s.launchOf g) g.regs k) (frameSize g.regs)).find? s.poisoned = none →
    Gives (.groupRestore gid) s (fun t => (t.group gid).place = .resident ∧ (t.group gid).frame = none ∧
      (∀ n < 32, (t.group gid).sReg n = BitVec.ofNat 32 (field f (0x100 + 4 * n) 4)) ∧
      (∀ n i, n < g.regs → i < 32 → (t.group gid).vReg n i = BitVec.ofNat 32 (field f (0x1380 + 4 * (n * 32 + i)) 4)) ∧
      (t.group gid).splits.map (·.pc) = g.splits.map (·.pc) ∧ (t.group gid).splits.map (·.mask) = g.splits.map (·.mask)))

/-- Tier 2, derived (R179, R183, R214, R323, R331, R345, R348): when its order allows it, a load's bytes reach its registers and
its entry is freed; a store's bytes reach their place; an atomic is performed once at its home, which keeps its answer, and a
request repeated finds it; a peer's answer completes a lane, a NAK or 50 us of silence fails it; a request that still waits at its
port then is sent still, and the answer of one given up is discarded. Model's choice, log 9: which value of its interval a load
reads. -/
def Obligations.EntriesComplete : Prop :=
  ∀ (gid l : Nat) (g : Group) (e : Entry) (a : Acc) (s : State), Tbl.find s.groups gid = some g → g.entry? e.id = some e →
    g.place = .resident → l < 32 → e.mask = maskOf [l] → e.done = 0 → e.perf = 0 → e.one = false → e.acc = [a] → a.lane = l →
    a.off = 0 → a.priv = false → e.spoil = [] →
    let keeps (t : State) (n : Nat) : Prop :=
      (∀ r i, r < 64 → i < 32 → ¬(i = l ∧ e.dreg ≤ r ∧ r < e.dreg + n) → (t.group gid).vReg r i = g.vReg r i) ∧
        (t.group gid).s = g.s ∧ (t.group gid).p = g.p ∧ (t.group gid).splits = g.splits
    (e.kind = 1 → s.entryMay g e = false → Gives (.entryComplete gid e.id) s (fun t => t.groups = s.groups ∧ t.mem = s.mem)) ∧
    (e.kind = 1 → e.asked = 0 → s.entryMay g e = true → ∀ pa, a.loc = .home pa 2 → s.owner (pa / 65536) = g.slice →
      s.poisonIn pa a.size = none → let ws := loadWords e.instr (ofLe (s.memBytes pa a.size))
      e.dreg + ws.length ≤ 64 → Gives (.entryComplete gid e.id) s (fun t =>
        (∀ j < ws.length, (t.group gid).vReg (e.dreg + j) l = BitVec.ofNat 32 (ws.getD j 0)) ∧ keeps t ws.length ∧
        (t.group gid).entry? e.id = none ∧ t.mem = s.mem ∧ t.hostMem = s.hostMem ∧ t.spad = s.spad)) ∧
    (e.kind = 1 → e.asked = 0 → s.entryMay g e = true → ∀ pa, a.loc = .host pa →
      let ws := loadWords e.instr (ofLe (s.hostBytes pa a.size))
      e.dreg + ws.length ≤ 64 → Gives (.entryComplete gid e.id) s (fun t =>
        (∀ j < ws.length, (t.group gid).vReg (e.dreg + j) l = BitVec.ofNat 32 (ws.getD j 0)) ∧ keeps t ws.length ∧
        (t.group gid).entry? e.id = none ∧ t.mem = s.mem ∧ t.hostMem = s.hostMem ∧ t.spad = s.spad)) ∧
    (e.kind = 2 → e.asked = 0 → e.dst = [] → a.size ≠ 0 → s.entryMay g e = true → ∀ pa, a.loc = .home pa 2 → s.owner (pa / 65536) = g.slice →
      s.poisonIn pa a.size = none → Gives (.entryComplete gid e.id) s (fun t =>
        (∀ b, t.memByte b = if pa ≤ b ∧ b < pa + a.size then BitVec.ofNat 8 (a.v / 2 ^ (8 * (b - pa))) else s.memByte b) ∧
        keeps t 0 ∧ t.hostMem = s.hostMem ∧ t.spad = s.spad)) ∧
    (e.kind = 2 → e.asked = 0 → e.dst = [] → s.entryMay g e = true → ∀ pa, a.loc = .host pa →
      Gives (.entryComplete gid e.id) s (fun t =>
        (∀ b, t.hostByte b = if pa ≤ b ∧ b < pa + a.size then BitVec.ofNat 8 (a.v / 2 ^ (8 * (b - pa))) else s.hostByte b) ∧
        keeps t 0 ∧ (t.group gid).entry? e.id = none ∧ t.mem = s.mem ∧ t.spad = s.spad)) ∧
    (e.kind = 6 → e.asked = 0 → e.rel = false → s.entryMay g e = true →
      (∃ f, e.instr = .atomA f ∨ e.instr = .atomB f ∨ e.instr = .atomC f ∨ e.instr = .red f) →
      ∀ pa, a.loc = .home pa 2 → s.owner (pa / 65536) = g.slice → s.poisonIn pa a.size = none →
      (∀ b h, pa ≤ b → b < pa + a.size → Tbl.find s.m.atomAt b = some h → h = 1) →
      let old := ofLe (s.memBytes pa a.size)
      let new := atomNew e.instr old a.v a.v2
      (s.answer g e l = none → Gives (.i1HomeRequest gid e.id l) s (fun t =>
        (∀ b, t.memByte b = if pa ≤ b ∧ b < pa + a.size then BitVec.ofNat 8 (new / 2 ^ (8 * (b - pa))) else s.memByte b) ∧
        t.window? ownModule g.slice e.wmark.toNat l = some old ∧ keeps t 0 ∧ t.hostMem = s.hostMem ∧ t.spad = s.spad)) ∧
      (s.answer g e l ≠ none → Gives (.i1HomeRequest gid e.id l) s (fun t => t.mem = s.mem ∧ t.m = s.m ∧ keeps t 0 ∧
        t.hostMem = s.hostMem ∧ t.spad = s.spad))) ∧
    (∀ req q, Tbl.find s.m.peers req = some q → q.job = none → q.gid = gid → q.ent = e.id → q.num = e.num → q.lane = l →
      q.off = 0 → q.late = false → a.remote = true → ((view e.instr).lay = .mr → (view e.instr).op < 24) →
      e.asked.getLsbD l = true → e.stores = false → e.failed = false → e.mask &&& g.live ≠ 0 →
      let fails (t : State) (c n : Nat) : Prop := (∃ f, (t.group gid).entry? e.id = some f ∧ f.failed = true ∧ f.cause = c ∧
        f.info = n ∧ f.failMask = maskOf [l]) ∧ SameWork { s with groups := t.groups } t
      (∀ v, e.dreg + (loadWords e.instr v.toNat).length ≤ 64 → Gives (.peerResponse req (.ok v)) s (fun t =>
          (∀ j < (loadWords e.instr v.toNat).length,
            (t.group gid).vReg (e.dreg + j) l = BitVec.ofNat 32 ((loadWords e.instr v.toNat).getD j 0)) ∧
          keeps t (loadWords e.instr v.toNat).length ∧ (t.group gid).entry? e.id = none ∧ Tbl.find t.m.peers req = none)) ∧
      (∀ c, Gives (.peerResponse req (.nak c)) s (fun t => fails t 11 c ∧ Tbl.find t.m.peers req = none)) ∧
      (q.sentAt + 50000 ≤ s.cycle → Gives (.peerTimeout req) s (fun t => fails t 12 0 ∧
        Tbl.find t.m.peers req = (if q.out then none else some { q with late := true }))) ∧
      (s.cycle < q.sentAt + 50000 → Idles (.peerTimeout req) s)) ∧
    (∀ req r q, Tbl.find s.m.peers req = some q → q.job = none → q.late = true → Gives (.peerResponse req r) s (fun t =>
      t = { s with m := { s.m with peers := Tbl.del s.m.peers req } })) ∧
    (∀ req r, Tbl.find s.m.peers req = none → Idles (.peerResponse req r) s ∧ Idles (.peerTimeout req) s)

/-- Tier 2, derived (R166, R167, R341, R347, R384): a sleeping split goes on, sleeps on or traps as its wait decides, unless a late
cause waits for it, which ends the wait; a form that waits for its turn is tried again; a split returns to RUN
after a sleep whose deadline has come, and at its arr.wait again when a revised promise has passed. Model's choice, log 71: such a form
waits after its issue. -/
def Obligations.SleepersWake : Prop :=
  ∀ (gid born : Nat) (g : Group) (p : Split) (s : State), Tbl.find s.groups gid = some g → g.split? born = some p →
    (∀ w, p.st = .sleep → p.why = .cond → g.place = .resident → p.wait = some w → (g.lateCause p).isSome = true →
      exec (.waitWake gid born) s = .next (s.modSplit gid born (fun p => { p with st := .run, why := .awake, wait := none, mark := none }))) ∧
    (∀ w, p.st = .sleep → p.why = .cond → g.place = .resident → p.wait = some w → g.lateCause p = none → isWait w.insn = false →
      exec (.waitWake gid born) s = .next (if s.struck g.core then s else { s with cur := some (gid, born) })) ∧
    (∀ w, p.st = .sleep → p.why = .cond → g.place = .resident → p.wait = some w → g.lateCause p = none → isWait w.insn = true →
      (∀ u, s.tryWait gid born g p w = .done u → exec (.waitWake gid born) s = .next u) ∧
      (∀ u, s.tryWait gid born g p w = .pending u → exec (.waitWake gid born) s = .next u) ∧
      (∀ r, s.tryWait gid born g p w = .trap r → exec (.waitWake gid born) s = .next (s.takeTrap gid born r))) ∧
    ((p.wait = none ∨ p.st ≠ .sleep) → Idles (.waitWake gid born) s) ∧
    (p.st = .sleep → p.why = .promise → p.deadline ≤ s.cycle → Gives (.promiseDeadline gid born) s (fun t =>
      (t.group gid).split? born = some { p with st := .run } ∧
      (∀ b, b ≠ born → (t.group gid).split? b = g.split? b) ∧ OnlyGroup gid s t)) ∧
    (p.st = .sleep → p.why = .promise → s.cycle < p.deadline → Idles (.promiseDeadline gid born) s) ∧
    (p.st = .sleep → p.why = .time → g.place = .resident → p.deadline ≤ s.cycle → Gives (.sleepDeadline gid born) s (fun t =>
      (t.group gid).split? born = some { p with st := .run, why := .awake, wait := none, mark := none, pc := p.pc + 4 } ∧
      (∀ b, b ≠ born → (t.group gid).split? b = g.split? b) ∧ OnlyGroup gid s t)) ∧
    (p.st = .sleep → p.why = .time → s.cycle < p.deadline → Idles (.sleepDeadline gid born) s) ∧
    (p.st = .sleep → p.why = .idle → g.place = .resident → s.otherReady gid born = false →
      Gives (.sleepDeadline gid born) s (fun t =>
        (t.group gid).split? born = some { p with st := .run, why := .awake, wait := none, mark := none, pc := p.pc + 4 } ∧
        OnlyGroup gid s t))

/-- Tier 2, derived (R44, R97, R98, R120, R208, R209, R352, R356, R358, R400): a copy engine starts the next piece of the first copy
that may go on and lands one whose data is there, byte for byte; a tile of a collective is written at its place, once its copies for
members of other modules are sent, and one that the meter does not cover waits; the array starts the operation at the head of its
queue, writes its steps one by one and reruns one whose checksum differs; a bin becomes a gathered group that waits for residence.
Model's choice, log 1 and 50: an engine takes its next piece when its event comes, and when the copies of a tile are charged. -/
def Obligations.EnginesAndArray : Prop :=
  (∀ d e s, s.copyCandidates d e = [] → Idles (.copyPieceStart d e) s) ∧
  (∀ d e j rest pa pb x y s, s.copyCandidates d e = j :: rest →
    s.copyEnd d j (j.srcAt j.next) .load = .at_ (.home pa 2) x → s.copyEnd d j (j.dstAt j.next) .store = .at_ (.home pb 2) y →
    let n := j.pieceLen j.next x
    s.endOwned j.slice (.home pa 2) n = true → s.endBusy j.slice (.home pa 2) n = false →
    s.endBusy j.slice (.home pb 2) n = false → Gives (.copyPieceStart d e) s (fun t =>
      ((t.die d).engine e).jobs = ((s.die d).engine e).jobs.map (fun k =>
        if k.id = j.id then
          { k with
            next := k.past (j.next + n),
            inflight := k.inflight ++
              [{ off := j.next, len := n, seq := ((s.die d).engine e).pieces, src := .home pa 2, dst := .home pb 2 }] }
        else k) ∧
      ((t.die d).engine e).pieces = ((s.die d).engine e).pieces + 1 ∧ (∀ k, k ≠ d → t.die k = s.die k) ∧ SameWork s t)) ∧
  (∀ d e s, s.landable d e = none → Idles (.copyPieceLand d e) s) ∧
  (∀ d e j p pa pb ma mb s, s.landable d e = some (j, p) → p.src = .home pa ma → p.dst = .home pb mb → p.data = none →
    j.gid = none → nbit j.arrive 31 = false → j.stopped = none → j.landed + p.len ≠ j.size →
    s.endOwned j.slice p.src p.len = true → s.endOwned j.slice p.dst p.len = true →
    s.rangePoison p.src p.len false = none → s.rangePoison p.dst p.len true = none →
    (∀ i < p.len, s.copyUndef d j (p.off + i) = false) → Gives (.copyPieceLand d e) s (fun t =>
      (∀ b, t.memByte b = if pb ≤ b ∧ b < pb + p.len then s.memByte (pa + (b - pb)) else s.memByte b) ∧
      (∃ k ∈ ((t.die d).engine e).jobs,
        k = { j with inflight := j.inflight.filter (fun q => q.off != p.off), landed := j.landed + p.len }) ∧
      t.hostMem = s.hostMem ∧ t.spad = s.spad ∧ t.groups = s.groups)) ∧
  (∀ d e j p s, s.landable d e = some (j, p) → s.endOwned j.slice p.src p.len = false → j.gid = none → j.stopped = none →
    (∃ q ∈ j.inflight, q.off ≠ p.off) → Gives (.copyPieceLand d e) s (fun t => SameWork s t ∧
      ∃ k ∈ ((t.die d).engine e).jobs, k.stopped = some (3, 0) ∧ k.failAddr = BitVec.ofNat 64 (j.srcAt p.off) ∧
        k.landed = j.landed)) ∧
  (∀ d id x s, (s.die d).colls.find? (fun j => j.id == id) = none → Idles (.collTileLand d id x) s) ∧
  (∀ d id j x ls w s, (s.die d).colls.find? (fun j => j.id == id) = some j → s.collMay d j = true → s.tileBusy d j x = false →
    x.error = none → s.collStops d j = none → j.total ≠ 0 → j.tileDue x.member x.index = true → j.gid = none →
    nbit j.arrive 31 = false →
    j.unsent x = [] → j.opened x = true → gatherParts ((j.givers x).map (s.partOf d j x)) = .ok ls →
    ((s.startGivers j (j.givers x)).pktStart j.slice j.queue j.pkt).collWrite d j (field j.image 16 8 + j.dstOff x.member x.index)
      (if j.kind = 1 then ls.headD [] else reduceTiles j.red j.tileSize ls) = .ok w →
    j.tiles.length + 1 ≠ j.total →
    Gives (.collTileLand d id x) s (fun t => SameWork w t ∧ (t.die d).colls = (w.die d).colls.map (fun k =>
      if k.id == id then { j with tiles := j.tiles ++ [(x.member, x.index)] } else k))) ∧
  (∀ d id j x m r l s, (s.die d).colls.find? (fun j => j.id == id) = some j → s.collMay d j = true → s.tileBusy d j x = false →
    x.error = none → s.collStops d j = none → j.total ≠ 0 → j.tileDue x.member x.index = true → j.unsent x = m :: r →
    s.supplied d j (j.partOff m x.index) = .here l →
    Tbl.get (s.slice j.slice).meter 0 0 < Config.packetBytes j.tileSize → Idles (.collTileLand d id x) s) ∧
  (∀ d id j x s, (s.die d).colls.find? (fun j => j.id == id) = some j →
    (s.collMay d j = false ∨ s.tileBusy d j x = true) → Idles (.collTileLand d id x) s) ∧
  (∀ c s, s.mmaCanStart c = false → Idles (.mmaOpStart c) s) ∧
  (∀ c o s, s.mmaCanStart c = true → s.headMma c = some o → o.cores = [c] → Gives (.mmaOpStart c) s (fun t =>
    (t.core c).queue = (s.core c).queue.map (fun p => if p.gid == o.gid && p.ent == o.ent then
      { p with started := true, fill := 16 + s.gatherExtra (s.group o.gid) (Fb.of o.block), left := (Fb.of o.block).cycles } else p) ∧
    t.tile = s.tile ∧ (∀ k, k ≠ c → t.core k = s.core k))) ∧
  (∀ c m s, s.headMma c = none → Idles (.arrayTileWrite c m) s) ∧
  (∀ c m o s, s.headMma c = some o → (o.started = false ∨ o.left ≠ 0 ∨ o.fill ≠ 0) → Idles (.arrayTileWrite c m) s) ∧
  (∀ c o fs s, s.headMma c = some o → o.started = true → o.left = 0 → o.fill = 0 → o.cores = [c] → (Fb.of o.block).check = true →
    o.rerun = false → let g := s.group o.gid
    s.mmaPoison g (Fb.of o.block) o = false →
    (∃ x ∈ s.stepCores g (Fb.of o.block) o, s.tilePasses g (Fb.of o.block) x.2.1 x.2.2 (fs.filter (fun y => y.core == x.1)) = false) →
    Gives (.arrayTileWrite c fs) s (fun t =>
      (t.core c).queue = (s.core c).queue.map (fun p => if p.gid == o.gid && p.ent == o.ent then
        { p with rerun := true, left := (Fb.of o.block).cycles, ran := 0 } else p) ∧ t.tile = s.tile ∧ OnlyCore c s t)) ∧
  (∀ c o g e fs s, s.headMma c = some o → o.started = true → o.left = 0 → o.fill = 0 → o.cores = [c] →
    Tbl.find s.groups o.gid = some g → (∀ h x, Tbl.find s.groups h = some x → x.place ≠ .saved) → g.entry? o.ent = some e → e.mask &&& g.live ≠ 0 →
    let f := Fb.of o.block
    let nen := s.nenOf g f
    let done := g.tilesOf o ++ (s.stepCores g f o).map (·.2)
    s.mmaPoison g f o = false → (f.check = false ∨ ∀ x ∈ s.stepCores g f o, s.tilePasses g f x.2.1 x.2.2 (fs.filter (fun y => y.core == x.1)) = true) →
    (f.nextTiles nen done = [] → Gives (.arrayTileWrite c fs) s (fun t =>
      (∀ p ∈ (t.core c).queue, ¬(p.gid = o.gid ∧ p.ent = o.ent)) ∧
      (∃ e', (t.group o.gid).entry? o.ent = some e' ∧ e'.done = e.mask ∧
        e'.prog = BitVec.ofNat 64 done.length) ∧ t.mem = s.mem ∧ t.spad = s.spad)) ∧
    (f.nextTiles nen done ≠ [] → Gives (.arrayTileWrite c fs) s (fun t =>
      (t.core c).queue = (s.core c).queue.map (fun p => if p.gid == o.gid && p.ent == o.ent then
        { p with rerun := false, left := f.cycles, ran := 0 } else p) ∧ t.mem = s.mem ∧ t.spad = s.spad))) ∧
  (∀ d k s, Tbl.find (s.die d).couch k = none → Idles (.binForm d k) s) ∧
  (∀ d k b n w s, Tbl.find (s.die d).couch k = some b → let l := Tbl.get (s.slice b.slice).launches {} b.launch
    Tbl.find (s.slice b.slice).launches b.launch ≠ none →
    (List.range l.contCount).find? (fun n => !l.gathered.any (fun g => g.slot == n)) = some n →
    s.spanFail b.slice d (l.gatherAt n) gatherBytes .store = none →
    ({ s with free := s.free + 1 } : State).engineWrite b.slice d (l.gatherAt n)
      ((List.range gatherBytes).map (fun i => Config.freeByte s.free (l.gatherAt n + i))) = some w →
    Gives (.binForm d k) s (fun t => Tbl.find (t.die d).couch k = none ∧ t.groups = s.groups ∧
      ∃ m, Tbl.find (t.slice b.slice).launches b.launch = some m ∧ m.liveGathered = l.liveGathered + 1 ∧
        m.gathered = l.gathered ++ [{ die := d, entry := b.entry, records := b.records, slot := n }]))

/-- Tier 2, derived (R77, R100 to R106, R109 to R114): a line or word that a check finds uncorrectable is poisoned; a kill stops
a slice's work and all 64 of its queues; a strike returns the groups of its zone to what they were and holds them for 16 cycles;
the third mismatch takes an engine offline; the second error of a location starts a repair; a bank whose frames are free
retires; tests are counted. Model's choice, log 10, 15, 16 and 63: a kill ends at its bound, what a strike gives back,
NO_REQUEST comes before FRAMES_OWNED, and repairs count as soft until a reset. -/
def Obligations.ContainmentEvents : Prop :=
  (∀ l s, Idles (.patrolScrub l false) s) ∧
  (∀ n s, Gives (.patrolScrub (.line n) true) s (fun t => SameWork s t ∧
    (∀ a, t.poisoned a = (decide (lineNo a = n) || s.poisoned a)))) ∧
  (∀ c w s, Gives (.patrolScrub (.l1 c w) true) s (fun t => OnlyCore c s t ∧
    (t.core c).lines.map (·.bytes) = (s.core c).lines.map (·.bytes) ∧
    (∀ l ∈ (s.core c).lines, l.va = w / 16 → (∃ b ∈ l.bytes, b.1 / 8 = w % 16) →
      ∃ k ∈ (t.core c).lines, k.va = l.va ∧ k.bytes = l.bytes ∧ w % 16 ∈ k.bad))) ∧
  (∀ x s, ((∃ c w, x = .spad c w) ∨ (∃ c w, x = .tile c w) ∨ ∃ w, x = .l2 w) → Gives (.patrolScrub x true) s (fun t =>
    SameWork s t ∧ ∀ y, y ∈ t.m.badWords ↔ y = x ∨ y ∈ s.m.badWords)) ∧
  (∀ k v s, s.m.recovery = true → Idles (.dkill k v) s ∧ Idles (.bankRetire k v) s) ∧
  (∀ k v s, v.getLsbD 0 = false → Idles (.dkill k v) s) ∧
  (∀ k v s, ((s.slice k).st ≠ .active ∨ (s.slice k).killing = true) → Idles (.dkill k v) s) ∧
  (∀ k v s, k < 16 → v.getLsbD 0 = true → s.m.recovery = false → (s.slice k).st = .active → (s.slice k).killing = false →
    Gives (.dkill k v) s (fun t =>
    (t.slice k).killing = true ∧ (t.slice k).killCause = 2 ∧ (t.slice k).busyEnd = s.cycle + 1000000 ∧
    (t.slice k).launches = [] ∧ (t.slice k).ctxs = [] ∧ (t.slice k).pending = [] ∧ (t.slice k).tokens = [])) ∧
  (∀ k s, (s.slice k).killing = false → Idles (.killComplete k) s) ∧
  (∀ k s, k < 16 → (s.slice k).killing = true → Gives (.killComplete k) s (fun t => (t.slice k).killing = false ∧
    (t.slice k).st = (s.slice k).st ∧ (t.slice k).quiesced = false ∧ t.groups = s.groups ∧ t.mem = s.mem ∧
    ∀ q < 64, let y := Tbl.get (t.slice k).queues {} q
      y.en = false ∧ y.stopped = true ∧ y.qerr = 0)) ∧
  (∀ d cl s, d < 4 → cl < 9 → Gives (.strikeReport d cl) s (fun t =>
    Tbl.find (t.die d).frozen cl = some ((s.die d).cyc + 16) ∧ (t.die d).strikes = (s.die d).strikes + 1 ∧ t.mem = s.mem ∧
    ((∀ c ∈ zoneCores d cl, (s.core c).undo = []) → t.spad = s.spad ∧ t.tile = s.tile))) ∧
  (∀ d cl ck gid g h s, d < 4 → cl < 9 → (s.die d).checkpoint = some ck → Tbl.find s.groups gid = some g →
    (∀ x, (gid, x) ∈ s.groups → x = g) → g.core ∈ zoneCores d cl → g.place ≠ .saved →
    (s.die d).groupMark ck gid g.core = some h → (g.fixStop = true → h.fixStop = true) → Gives (.strikeReport d cl) s (fun t =>
      (t.group gid).v = h.v ∧ (t.group gid).s = h.s ∧ (t.group gid).p = h.p ∧ (t.group gid).splits = h.splits ∧
      (t.group gid).fmode = h.fmode ∧ (t.group gid).place = g.place)) ∧
  (∀ d cl s, Gives (.strikeResume d cl) s (fun t => OnlyDie d s t ∧
    (Tbl.get (s.die d).frozen 0 cl ≤ (s.die d).cyc → Tbl.find (t.die d).frozen cl = none) ∧
    ((s.die d).cyc < Tbl.get (s.die d).frozen 0 cl → t.die d = s.die d))) ∧
  (∀ k e s, s.queueDie k e = none → Idles (.engineCompareMismatch k e) s) ∧
  (∀ k e d s, s.queueDie k e = some d → 0x20 ≤ e → e < 0x40 → let x := (s.die d).engine ((e - 0x20) % 8)
    (x.offline = true → Idles (.engineCompareMismatch k e) s) ∧
    (x.offline = false → x.strikes < 2 → Gives (.engineCompareMismatch k e) s (fun t =>
      (t.die d).engine ((e - 0x20) % 8) = { x with strikes := x.strikes + 1 } ∧ OnlyDie d s t)) ∧
    (x.offline = false → 2 ≤ x.strikes → Gives (.engineCompareMismatch k e) s (fun t =>
      ((t.die d).engine ((e - 0x20) % 8)).offline = true ∧ ((t.die d).engine ((e - 0x20) % 8)).strikes = 0))) ∧
  (∀ k ch b r c s, (s.stack k).table = [] → Gives (.correctedError k ch b r c) s (fun t =>
    t.stack k =
      { s.stack k with
        updates := (s.stack k).updates + 1,
        table := [(0, { count := 1, ch := ch, bank := b, row := r, col := c, used := (s.stack k).updates + 1 })] } ∧
    OnlyStack k s t)) ∧
  (∀ k ch b r c i u s, (s.stack k).table = [(i, { count := 1, ch := ch, bank := b, row := r, col := c, used := u })] →
    (s.stack k).repairs = [] → Tbl.get (s.stack k).spareRows 0 (ch * 64 + b) < 4 → Gives (.correctedError k ch b r c) s (fun t =>
      (t.stack k).table =
        [(i, { cls := 1, count := 2, ch := ch, bank := b, row := r, col := c, used := (s.stack k).updates + 1 })] ∧
      (t.stack k).repairs = [{ cls := 1, ch := ch, bank := b, row := r, col := c, endAt := s.cycle + 10000 }] ∧
      Tbl.get (t.stack k).spareRows 0 (ch * 64 + b) = Tbl.get (s.stack k).spareRows 0 (ch * 64 + b) + 1 ∧ OnlyStack k s t)) ∧
  (∀ k s, (s.stack k).repairs = [] → Idles (.repairDone k) s) ∧
  (∀ k r rest s, (s.stack k).repairs = r :: rest → Gives (.repairDone k) s (fun t => (t.stack k).repairs = rest ∧
    (∀ e ∈ (t.stack k).table, r.covers e.2 = false ∧ e ∈ (s.stack k).table) ∧
    (∀ n, Tbl.get (t.stack k).softRows 0 n =
      Tbl.get (s.stack k).softRows 0 n + (if r.cls ≠ 3 ∧ n = r.ch * 64 + r.bank then 1 else 0)) ∧
    (∀ n, Tbl.get (t.stack k).softCols 0 n =
      Tbl.get (s.stack k).softCols 0 n + (if r.cls = 3 ∧ n = r.ch * 64 + r.bank then 1 else 0)) ∧ SameWork s t)) ∧
  (∀ k v s, 8 ≤ k → Idles (.bankRetire k v) s) ∧
  (∀ k (v : Word) s, k < 8 → v.getLsbD 31 = true → s.m.recovery = false →
    let ch := (v.extractLsb' 6 5).toNat
    let b := (v.extractLsb' 0 6).toNat
    ((ch, b) ∉ (s.stack k).requests → Gives (.bankRetire k v) s (fun t => OnlyStack k s t ∧
      t.stack k = { s.stack k with retire := BitVec.ofNat 32 (2 * 2 ^ 28 + ch * 64 + b) })) ∧
    ((ch, b) ∈ (s.stack k).requests → (∃ f ∈ bankFrames k ch b, s.owner f ≠ 31) → Gives (.bankRetire k v) s (fun t =>
      OnlyStack k s t ∧ t.stack k = { s.stack k with retire := BitVec.ofNat 32 (2 ^ 28 + ch * 64 + b) })) ∧
    ((ch, b) ∈ (s.stack k).requests → (∀ f ∈ bankFrames k ch b, s.owner f = 31) → Gives (.bankRetire k v) s (fun t =>
      (∀ f ∈ bankFrames k ch b, t.owner f = 30) ∧ (∀ f, f ∉ bankFrames k ch b → t.owner f = s.owner f) ∧
      (ch, b) ∈ (t.stack k).retired ∧ (ch, b) ∉ (t.stack k).requests ∧
      (t.stack k).retire = BitVec.ofNat 32 (ch * 64 + b) ∧ t.groups = s.groups ∧ t.hostMem = s.hostMem))) ∧
  (∀ c s, s.mayTest c = false → Idles (.infieldTestStart c) s) ∧
  (∀ c s, s.m.testChecked = false → Config.signatureValid Config.testKernels = false → Idles (.infieldTestStart c) s) ∧
  (∀ c s, s.mayTest c = true → (s.m.testChecked = true ∨ Config.signatureValid Config.testKernels = true) →
    Gives (.infieldTestStart c) s (fun t => t.core c = { s.core c with testing := s.cycle + 1 } ∧
      (∀ e, e ≠ c → t.core e = s.core e) ∧ t.m = { s.m with testChecked := true } ∧ SameWork s t)) ∧
  (∀ c r s, (s.core c).testing = 0 → Idles (.infieldTestDone c r) s) ∧
  (∀ c r s, (s.core c).testing ≠ 0 → Gives (.infieldTestDone c r) s (fun t => let p := testPasses r
    t.core c = { s.core c with testing := 0, lastTest := s.cycle + 1, failed := (s.core c).failed || !p } ∧
    t.m.testRuns = s.m.testRuns + 1 ∧ t.m.testLog = s.m.testLog ++ [testRecord c p s.cycle] ∧ SameWork s t))

/-- Tier 2, derived (R103): when a kill begins no group of the slice is left, and no group of another slice has come. -/
def Obligations.KilledSliceHasNoGroups : Prop :=
  ∀ k v s, k < 16 → v.getLsbD 0 = true → s.m.recovery = false → (s.slice k).st = .active → (s.slice k).killing = false →
    Gives (.dkill k v) s (fun t =>
    (∀ h g, Tbl.find t.groups h = some g → g.slice ≠ k) ∧ ∀ h, Tbl.find s.groups h = none → Tbl.find t.groups h = none)

/-- Tier 2, derived (R125, R128, R130, R132, R160, R163): of slots V and M the one whose best split comes first in the order of R125
is served first; a slot chooses among the splits that compete in it one that can pay; a split passed over 256 times takes the next
place in the starving queue; clusters idle for 256 cycles lose admission and their buckets, waiting ones gain it in turn; two splits
that meet in RUN become one. Model's choice, log 26 and 18: which splits count for the order of slots V and M, and the payments that
R140 counts. -/
def Obligations.SchedulerEvents : Prop :=
  (∀ (c p : Nat) (s : State), s.slotTurn c p .c = .c ∧ ((s.core c).served = [] → ∀ k q r, k ≠ .c → s.cands c p .v = [q] → s.cands c p .m = [r] →
    s.slotTurn c p k = (if better q r then .v else .m)) ∧
    ((s.core c).served = [p * 3] → ∀ k, k ≠ .c → s.slotTurn c p k = .m) ∧
    ((s.core c).served = [p * 3 + 1] → ∀ k, k ≠ .c → s.slotTurn c p k = .v)) ∧
  (∀ (c p : Nat) (k : Slot) (s : State),
    let u := s.firstLook c p
    let l := u.cands c p (s.slotTurn c p k)
    (l = [] → Gives (.slotIssue c p k) s (fun t => t.cur = none ∧ t.groups = s.groups ∧ SameWork s t)) ∧
    (l ≠ [] → Gives (.slotIssue c p k) s (fun t =>
      (∀ x, t.cur = some x → ∃ q ∈ l, x = (q.gid, q.p.born) ∧ u.candPays q = true) ∧
      t.mem = s.mem ∧ t.hostMem = s.hostMem ∧ t.spad = s.spad ∧ t.tile = s.tile)) ∧
    (∀ q, l = [q] → u.candPays q = true → Gives (.slotIssue c p k) s (fun t =>
      t.cur = some (q.gid, q.p.born) ∧ t.groups = s.groups)) ∧
    (∀ q, l = [q] → u.candPays q = false → Gives (.slotIssue c p k) s (fun t => t.cur = none))) ∧
  (∀ gid born g p s, Tbl.find s.groups gid = some g → g.split? born = some p → 256 ≤ p.passed → p.starve = 0 →
    Gives (.starvationFlag gid born) s (fun t =>
      (t.group gid).split? born = some { p with starve := (s.core g.core).stamp } ∧
      (t.core g.core).stamp = (s.core g.core).stamp + 1 ∧ (∀ b, b ≠ born → (t.group gid).split? b = g.split? b))) ∧
  (∀ d cl s, s.idleDue d cl = false → Idles (.clusterIdle d cl) s) ∧
  (∀ d cl s, cl < 9 → (s.die d).adm.getLsbD cl = true → Tbl.get (s.die d).lastWide 0 cl + 255 ≤ (s.die d).cyc →
    Gives (.clusterIdle d cl) s (fun t => (t.die d).adm.getLsbD cl = false ∧
      (∀ i, i ≠ cl → (t.die d).adm.getLsbD i = (s.die d).adm.getLsbD i) ∧
      (∀ c ∈ zoneCores d cl, (t.core c).bkt = [] ∧ (t.core c).mbkt = 0) ∧
      (∀ c, c ∉ zoneCores d cl → t.core c = s.core c) ∧ SameWork s t)) ∧
  (∀ d s, s.nextGrant d = none → Idles (.admissionGrant d) s) ∧
  (∀ d s, (s.die d).grantWin = (s.die d).cyc / 16 → 4 ≤ (s.die d).grants → Idles (.admissionGrant d) s) ∧
  (∀ d cl s, cl < 9 → s.nextGrant d = some cl → ((s.die d).grantWin ≠ (s.die d).cyc / 16 ∨ (s.die d).grants < 4) →
    Gives (.admissionGrant d) s (fun t => (t.die d).adm.getLsbD cl = true ∧
      (∀ i, i ≠ cl → (t.die d).adm.getLsbD i = (s.die d).adm.getLsbD i) ∧ (t.die d).ptr.toNat = cl ∧ OnlyDie d s t)) ∧
  (∀ c s, Gives (.scrubDone c) s (fun t => OnlyCore c s t ∧
    t.core c = { s.core c with scrub := if (s.core c).scrub ≤ s.now c then 0 else (s.core c).scrub })) ∧
  (∀ gid g p q s, Tbl.find s.groups gid = some g → g.splits = [p, q] → p.st = .run → q.st = .run → p.pc = q.pc →
    p.stack = q.stack → p.born < q.born → Gives (.splitMerge gid) s (fun t => OnlyGroup gid s t ∧
      ∃ r, (t.group gid).splits = [r] ∧ r.born = p.born ∧ r.pc = p.pc ∧ r.st = .run ∧ r.mask = p.mask ||| q.mask ∧
        r.held = p.held ||| q.held ∧ r.readyAt = max p.readyAt q.readyAt ∧
        r.stack = (match p.stack with
          | [] => []
          | m :: l => if p.lanes ||| q.lanes = m &&& g.live then l else m :: l)))

/-- Tier 2, derived (R141 to R148): a tick counts and gives the saves 200 us; then saves of an earlier tick that are still under
way kill the slice, and those of this tick put off the launches that would have run; a quiesce climbs the ladder from rung 1 to
rung 2 after GRACE and to a kill after KILL, and ends when all is saved. -/
def Obligations.TimeSharing : Prop :=
  (∀ k s, (s.slice k).ticking = false → Idles (.switchTick k) s) ∧
  (∀ k s, (s.slice k).ticking = true → Gives (.switchTick k) s (fun t => (t.slice k).ticks = (s.slice k).ticks + 1 ∧
    (t.slice k).deadlines = (s.slice k).deadlines ++ [((s.slice k).ticks + 1, s.cycle + 200000)] ∧
    (t.slice k).st = (s.slice k).st ∧ t.mem = s.mem ∧
    ((∀ h g, Tbl.find s.groups h = some g → ∀ e ∈ g.log, e.cls ≠ 2) →
      (∀ e, e ≠ k → t.slice e = s.slice e) ∧ t.spad = s.spad ∧ t.tile = s.tile))) ∧
  (∀ k h g s, (s.slice k).ticking = true → Tbl.find s.groups h = some g → g.slice = k → g.place = .resident →
    g.fixStop = false → g.launch ∈ s.yielders k → Gives (.switchTick k) s (fun t => (t.group h).place = .freezing ∧ (t.group h).why = 2)) ∧
  (∀ k s, (s.slice k).deadlines = [] → Idles (.tickSaveDeadline k) s) ∧
  (∀ k n a r s, (s.slice k).deadlines = (n, a) :: r →
    (s.cycle < a → Idles (.tickSaveDeadline k) s) ∧
    (a ≤ s.cycle → (∀ l ∈ s.unsaved k, n < l.yieldTick) → Gives (.tickSaveDeadline k) s (fun t =>
      t.slice k = { s.slice k with deadlines := r } ∧ OnlySlice k s t)) ∧
    (a ≤ s.cycle → (∀ l ∈ s.unsaved k, n ≤ l.yieldTick) → (∃ l ∈ s.unsaved k, l.yieldTick = n) →
      Gives (.tickSaveDeadline k) s (fun t => (t.slice k).deadlines = r ∧ (∀ l ∈ (t.slice k).launches, l.2.due = false) ∧
        OnlySlice k s t)) ∧
    (k < 16 → a ≤ s.cycle → (∃ l ∈ s.unsaved k, l.yieldTick < n) → (s.slice k).st = .active → (s.slice k).killing = false →
      Gives (.tickSaveDeadline k) s (fun t => (t.slice k).killing = true ∧ (t.slice k).deadlines = r))) ∧
  (∀ k s, s.m.recovery = true → Idles (.quiesce k) s) ∧
  (∀ k s, s.m.recovery = false → (s.slice k).migBusy = true → Gives (.quiesce k) s (fun t =>
    t.slice k = { s.slice k with migRes := 7 } ∧ OnlySlice k s t)) ∧
  (∀ k s, s.m.recovery = false → (s.slice k).migBusy = false →
    ((s.slice k).st ≠ .active ∨ (s.slice k).quiesced = true ∨ (s.slice k).killing = true) →
    Gives (.quiesce k) s (fun t => t.slice k = { s.slice k with migRes := 1 } ∧ OnlySlice k s t)) ∧
  (∀ k s, s.m.recovery = false → (s.slice k).migBusy = false → (s.slice k).st = .active → (s.slice k).quiesced = false →
    (s.slice k).killing = false → (s.slice k).grace ≠ 0 → Gives (.quiesce k) s (fun t => t.slice k = { s.slice k with
      migBusy := true, migOp := 1, migRes := 0, migRung := 1, engStop := true, ladderAt := s.cycle } ∧ OnlySlice k s t)) ∧
  (∀ k s, (s.groups.map (·.1)).Nodup → (s.slice k).migBusy = true → (s.slice k).migRung = 1 →
    (s.slice k).ladderAt + (s.slice k).grace * 1000 ≤ s.cycle → Gives (.ladderGraceExpiry k) s (fun t =>
      (t.slice k).migRung = 2 ∧ (t.slice k).ladderAt = s.cycle ∧
      (∀ h g, Tbl.find s.groups h = some g → g.slice = k → g.place = .resident → g.fixStop = false →
        (t.group h).place = .freezing) ∧
      (∀ h g, Tbl.find s.groups h = some g → g.slice ≠ k → Tbl.find t.groups h = some g) ∧ t.mem = s.mem ∧
      ((∀ h g, Tbl.find s.groups h = some g → ∀ e ∈ g.log, e.cls ≠ 2) → t.spad = s.spad ∧ t.tile = s.tile))) ∧
  (∀ k s, ((s.slice k).migBusy = false ∨ (s.slice k).migRung ≠ 1 ∨ s.cycle < (s.slice k).ladderAt + (s.slice k).grace * 1000) →
    Idles (.ladderGraceExpiry k) s) ∧
  (∀ k s, s.killDue k = false → Idles (.ladderKillExpiry k) s) ∧
  (∀ k s, k < 16 → s.killDue k = true → (s.slice k).st = .active → (s.slice k).killing = false →
    Gives (.ladderKillExpiry k) s (fun t => (t.slice k).killing = true ∧ (t.slice k).killCause = 2 ∧
      (t.slice k).migRung = (if (s.slice k).migBusy then 3 else (s.slice k).migRung))) ∧
  (∀ k s, ((s.slice k).migBusy = false ∨ (s.slice k).killing = true) → Idles (.quiesceDone k) s) ∧
  (∀ k s, (∃ e ∈ s.groups, e.2.slice = k ∧ e.2.place ≠ .saved) → Idles (.quiesceDone k) s) ∧
  (∀ k s, k < 16 → (s.slice k).migBusy = true → (s.slice k).killing = false →
    (∀ e ∈ s.groups, e.2.slice = k → e.2.place = .saved) →
    (∀ c ∈ s.cores, ∀ w ∈ c.2.wgs, w.slice = k → w.whole = true) →
    (∀ d ∈ s.dies, ∀ e ∈ d.2.engines, ∀ j ∈ e.2.jobs, j.slice = k → j.inflight = []) →
    Gives (.quiesceDone k) s (fun t => (t.slice k).quiesced = true ∧ (t.slice k).migBusy = false ∧ (t.slice k).migRes = 0 ∧
      (t.slice k).tokens = [] ∧ t.mem = s.mem ∧ t.spad = s.spad))

/-- Tier 2, derived (R147 to R156): a migration operation that the state of its slice does not allow answers its RES and changes
nothing else; RESUME lets the saved groups wait for restoration; EXPORT writes the sealed ream; IMPORT, RESHAPE and MERGE end
with RES 0 and a slice that goes on or stays quiesced as each says; a merged slice is free. Model's choice, log 24, 25 and 77:
RESUME deals a written deckle again under the checks of R59, the reams that IMPORT opens and what it answers on an unfit deckle, and
the layout of records. -/
def Obligations.MigrationOperations : Prop :=
  (∀ (k u : Nat) (i : Instr) s, (i = .migResume k ∨ i = .reshape k ∨ i = .exportReam k ∨ i = .importReam k ∨
      i = .mergeSlices k u ∨ i = .splitSlice k u) → (s.m.recovery = true → Idles i s) ∧
    (s.m.recovery = false → (s.slice k).migBusy = true → Gives i s (fun t =>
      t.slice k = { s.slice k with migRes := 7 } ∧ OnlySlice k s t))) ∧
  (∀ (k u : Nat) (i : Instr) s, (i = .migResume k ∨ i = .reshape k ∨ i = .exportReam k ∨ i = .mergeSlices k u ∨ i = .splitSlice k u) →
    s.m.recovery = false → (s.slice k).migBusy = false →
    ((s.slice k).st ≠ .active ∨ (s.slice k).quiesced = false ∨ (s.slice k).killing = true) → Gives i s (fun t =>
      t.slice k = { s.slice k with migRes := 1 } ∧ OnlySlice k s t)) ∧
  (∀ k s, s.m.recovery = false → (s.slice k).migBusy = false → (s.slice k).st = .active → (s.slice k).quiesced = true →
    (s.slice k).killing = false →
    ((s.slice k).exportKey ≠ none → Gives (.migResume k) s (fun t =>
      t.slice k = { s.slice k with migRes := 1 } ∧ OnlySlice k s t)) ∧
    ((s.slice k).exportKey = none → (s.slice k).wasDies ≠ none → s.activateErr k ≠ 0 → Gives (.migResume k) s (fun t =>
      t.slice k = { s.slice k with err := s.activateErr k, migRes := 3 } ∧ OnlySlice k s t)) ∧
    ((s.slice k).exportKey = none → (s.slice k).wasDies ≠ none → s.activateErr k = 0 → Gives (.migResume k) s (fun t =>
      (t.slice k).migRes = 0 ∧ (t.slice k).err = 0 ∧ (t.slice k).quiesced = false ∧ (t.slice k).wasDies = none)) ∧
    ((s.slice k).exportKey = none → (s.slice k).wasDies = none → Gives (.migResume k) s (fun t =>
      t.slice k = { s.slice k with migRes := 0, quiesced := false, engStop := false, wasDies := none, stale := false } ∧
      (∀ e, e ≠ k → t.slice e = s.slice e) ∧
      (∀ h g, Tbl.find s.groups h = some g → Tbl.find t.groups h = some
        (if g.slice = k ∧ g.place = .saved ∧ g.dbgHeld = false then { g with wants := true } else g)) ∧
      t.mem = s.mem ∧ t.cores = s.cores))) ∧
  (∀ k s, s.m.recovery = false → (s.slice k).migBusy = false → (s.slice k).st = .active → (s.slice k).quiesced = true →
    (s.slice k).killing = false →
    (s.activateErr k ≠ 0 → Gives (.reshape k) s (fun t =>
      t.slice k = { s.slice k with err := s.activateErr k, migRes := 3 } ∧ OnlySlice k s t)) ∧
    (s.activateErr k = 0 → Gives (.reshape k) s (fun t => (t.slice k).migRes = 0 ∧ (t.slice k).err = 0 ∧
      (t.slice k).wasDies = none ∧ (t.slice k).quiesced = true)) ∧
    (let r : Ream := { key := s.m.keys, iv := s.m.ivs, plain := (s.snapshot k).plain, snap := s.snapshot k }
     let a := (s.slice k).migAddr.toNat
     (s.pfRoom a r.length = false → Gives (.exportReam k) s (fun t =>
       t.slice k = { s.slice k with migRes := 5 } ∧ OnlySlice k s t)) ∧
     (s.pfRoom a r.length = true → Gives (.exportReam k) s (fun t =>
       (∀ b, t.memByte b = if a ≤ b ∧ b < a + r.bytes.length then r.bytes.getD (b - a) 0 else s.memByte b) ∧
       (t.slice k).exportKey = some (Config.drawnKey r.key).toNat ∧ (t.slice k).exportLen = r.length ∧ (t.slice k).migRes = 0 ∧
       t.m.reams = s.m.reams ++ [r] ∧ t.groups = s.groups ∧ t.hostMem = s.hostMem)))) ∧
  (∀ k s, s.m.recovery = false → (s.slice k).migBusy = false → ((s.slice k).importKey = none ∨ (s.slice k).st = .free) →
    Gives (.importReam k) s (fun t => t.slice k = { s.slice k with migRes := 1 } ∧ OnlySlice k s t)) ∧
  (∀ k key s, s.m.recovery = false → (s.slice k).migBusy = false → ((s.slice k).st = .config ∨ (s.slice k).st = .activating) →
    (s.slice k).killing = false → (s.slice k).importKey = some key →
    (s.reamAt (s.slice k).migAddr.toNat key = none → Gives (.importReam k) s (fun t =>
      t.slice k = { s.slice k with migRes := 2 } ∧ OnlySlice k s t)) ∧
    (∀ r, s.reamAt (s.slice k).migAddr.toNat key = some r → s.activateErr k ≠ 0 →
      Gives (.importReam k) s (fun t => t.slice k = { s.slice k with err := s.activateErr k, migRes := 3 } ∧ OnlySlice k s t)) ∧
    (∀ r, s.reamAt (s.slice k).migAddr.toNat key = some r → s.activateErr k = 0 → r.1.fits = false →
      Gives (.importReam k) s (fun t => t.slice k = { s.slice k with migRes := 3 } ∧ OnlySlice k s t)) ∧
    (∀ r, s.reamAt (s.slice k).migAddr.toNat key = some r → s.activateErr k = 0 → r.1.fits = true →
      Gives (.importReam k) s (fun t => (t.slice k).migRes = 0 ∧ (t.slice k).quiesced = false ∧ (t.slice k).engStop = false ∧
        (t.slice k).importKey = none ∧ (t.slice k).migSize = (r.2 + 65535) / 65536))) ∧
  (∀ k u s, s.m.recovery = false → (s.slice k).migBusy = false → k ≠ u → k < 16 → u < 16 →
    (s.slice k).st = .active → (s.slice k).quiesced = true → (s.slice k).killing = false →
    ((s.slice u).st ≠ .active ∨ (s.slice u).quiesced = false ∨ (s.slice u).killing = true) → Gives (.mergeSlices k u) s (fun t =>
      t.slice k = { s.slice k with migRes := 1 } ∧ OnlySlice k s t)) ∧
  (∀ k u s, s.m.recovery = false → (s.slice k).migBusy = false → k ≠ u → k < 16 → u < 16 →
    (s.slice k).st = .active → (s.slice k).quiesced = true → (s.slice k).killing = false →
    (s.slice u).st = .active → (s.slice u).quiesced = true → (s.slice u).killing = false →
    ((s.consents k u = false ∨ s.consents u k = false) → Gives (.mergeSlices k u) s (fun t =>
      t.slice k = { s.slice k with migRes := 4 } ∧ OnlySlice k s t)) ∧
    (s.consents k u = true → s.consents u k = true → s.mergeUnfit k u = true → Gives (.mergeSlices k u) s (fun t =>
      t.slice k = { s.slice k with migRes := 3 } ∧ OnlySlice k s t)) ∧
    (s.consents k u = true → s.consents u k = true → s.mergeUnfit k u = false → Gives (.mergeSlices k u) s (fun t =>
      (t.slice k).migRes = 0 ∧ (t.slice k).exportKey = none ∧ (t.slice k).mergeOk = 0 ∧ (t.slice u).st = .free ∧
      (t.slice u).key = 0))) ∧
  (∀ k u s, s.m.recovery = false → (s.slice k).migBusy = false → k ≠ u → k < 16 → u < 16 →
    (s.slice k).st = .active → (s.slice k).quiesced = true → (s.slice k).killing = false →
    ((s.slice u).st = .config ∨ (s.slice u).st = .activating) →
    within (s.slice u) (s.slice k) = true → (without (s.slice k) (s.slice u)).sound = true → (s.slice u).sound = true →
    (s.others u).any (fun z => z.helm == (s.slice u).helm) = false →
    s.splitList (s.slice k).migAddr.toNat = ([], []) →
    (s.consents k u = false → Gives (.splitSlice k u) s (fun t =>
      t.slice k = { s.slice k with migRes := 4 } ∧ OnlySlice k s t)) ∧
    (s.consents k u = true → Gives (.splitSlice k u) s (fun t => (t.slice k).migRes = 0 ∧ (t.slice k).exportKey = none ∧
      (t.slice k).mergeOk = (s.slice k).mergeOk ∧ (t.slice u).st = .active ∧ (t.slice u).quiesced = true)))

/-- Tier 2, derived (R199 to R203, R206): a walk fills the translation caches; a TLBINV in progress takes a second GO away,
drops the range from every cache, has a split that polls a place its address no longer names execute its wait again, and is over
when no access holds on to it; a write to one half of RBASE keeps the other, and
one of RCTL with a bad LOG2N is ignored; the reporting port serves one record of the oldest of its kind; an answer to a fault
frees what waits for it. Model's choice, log 10 and 37: a TLBINV ends at its bound when its range is quiet, and a walk that
fails is the access's. -/
def Obligations.TranslationAndRings : Prop :=
  (∀ c va acc f s, s.checkPage (s.core c).owner c va.toNat acc = .error f → Idles (.pageWalk c va acc) s) ∧
  (∀ c va acc e s, s.checkPage (s.core c).owner c va.toNat acc = .ok e → Gives (.pageWalk c va acc) s (fun t =>
    e ∈ (t.core c).tlb ∧ e ∈ (t.die (dieOf c)).stlb ∧ (∀ k, k ≠ c → t.core k = s.core k) ∧ SameWork s t ∧ t.slices = s.slices)) ∧
  (∀ k h s, ((s.slice k).tlbinv h).busy = true → Gives (.tlbinvStart k h) s (fun t => t.slice k = s.slice k ∧ OnlySlice k s t)) ∧
  (∀ k h s, s.m.recovery = false → ((s.slice k).tlbinv h).busy = false → Gives (.tlbinvStart k h) s (fun t => OnlySlice k s t ∧
    let v := (s.slice k).tlbinv h
    (t.slice k).tlbinv h = { v with busy := true, endAt := s.cycle + 20000, rAll := v.all, rLo := v.addr.toNat,
                                    rHi := v.addr.toNat + v.count * 65536 })) ∧
  (∀ k h s, ((s.slice k).tlbinv h).busy = false → Idles (.tlbinvDone k h) s) ∧
  (∀ k h s, ((s.slice k).tlbinv h).busy = true → Gives (.tlbinvDone k h) s (fun t =>
    (∀ c, ∀ e ∈ (t.core c).tlb, ((s.slice k).tlbinv h).hits k h e = false) ∧
    (∀ d, ∀ e ∈ (t.die d).stlb, ((s.slice k).tlbinv h).hits k h e = false) ∧
    (∀ d, ∀ e ∈ (t.die d).upper, ((s.slice k).tlbinv h).drops k h e = false) ∧
    ((t.slice k).tlbinv h).busy = s.usesRange k h ((s.slice k).tlbinv h) ∧
    t.mem = s.mem ∧ t.hostMem = s.hostMem ∧ t.spad = s.spad ∧ t.tile = s.tile ∧
    ((∀ g ∈ s.groups, ∀ p ∈ g.2.splits, p.wait = none) → t.groups = s.groups) ∧
    (∀ gid g p, s.groups = [(gid, g)] → g.splits = [p] →
      t.groups = [(gid, if ({ s with cores := t.cores, dies := t.dies } : State).staleWait k h ((s.slice k).tlbinv h) g p = true then
          { g with splits := [{ p with st := .run, why := .awake, wait := none, mark := none }] }
        else g)]))) ∧
  (∀ fn r v s, ((v.extractLsb' 0 5).toNat < 4 ∨ (r < 3 ∧ 16 < (v.extractLsb' 0 5).toNat)) → Idles (.ringCtlWrite fn r v) s) ∧
  (∀ k h fn r b v tok s, s.m.recovery = true → Idles (.tlbinvStart k h) s ∧ Idles (.ringCtlWrite fn r v) s ∧
    Idles (.ringHeadWrite fn r v) s ∧ Idles (.ringBaseWrite fn r b v) s ∧ Idles (.faultackRetry fn tok) s ∧
    Idles (.faultackFail fn tok) s) ∧
  (∀ fn r v s, s.m.recovery = false → r = 1 ∨ r = 2 → 4 ≤ (v.extractLsb' 0 5).toNat → (v.extractLsb' 0 5).toNat ≤ 16 →
    Gives (.ringCtlWrite fn r v) s (fun t => OnlySlice (fnSlice fn) s t ∧
      let x := s.ringOf fn r
      t.ringOf fn r = { x with en := v.getLsbD 31, ovf := x.ovf && !v.getLsbD 30, log2n := (v.extractLsb' 0 5).toNat })) ∧
  (∀ fn r v s, s.m.recovery = false → r = 1 ∨ r = 2 → Gives (.ringHeadWrite fn r v) s (fun t => OnlySlice (fnSlice fn) s t ∧
    t.ringOf fn r = { s.ringOf fn r with head := v })) ∧
  (∀ fn r v s, s.m.recovery = false → r = 1 ∨ r = 2 → Gives (.ringBaseWrite fn r false v) s (fun t => OnlySlice (fnSlice fn) s t ∧
    t.ringOf fn r = { s.ringOf fn r with base := ((s.ringOf fn r).base.extractLsb' 32 32) ++ (v &&& 0xFFFFF000) })) ∧
  (∀ fn r v s, s.m.recovery = false → r = 1 ∨ r = 2 → Gives (.ringBaseWrite fn r true v) s (fun t => OnlySlice (fnSlice fn) s t ∧
    t.ringOf fn r = { s.ringOf fn r with base := (v &&& 0x1FFFFFF) ++ ((s.ringOf fn r).base.extractLsb' 0 32) })) ∧
  (∀ s, s.m.records = [] → Idles .reportGrant s) ∧
  (∀ r s, s.m.records = [r] → r.1 < 3 → 1 ≤ r.1 → r.2.1 < 17 → (s.ringOf r.2.1 r.1).en = true →
    (s.ringOf r.2.1 r.1).full = true → Gives .reportGrant s (fun t => t.m.records = [] ∧
      t.ringOf r.2.1 r.1 = { s.ringOf r.2.1 r.1 with lost := (s.ringOf r.2.1 r.1).lost + 1, ovf := true } ∧ t.mem = s.mem)) ∧
  (∀ r s, s.m.records = [r] → r.1 < 3 → 1 ≤ r.1 → r.2.1 = 0 → (s.ringOf 0 r.1).en = true → (s.ringOf 0 r.1).full = false →
    let a := (s.ringOf 0 r.1).base.toNat + r.2.2.2.length * ((s.ringOf 0 r.1).tail.toNat % 2 ^ (s.ringOf 0 r.1).log2n)
    a + r.2.2.2.length ≤ 0x7FFF800000 → s.owner (a / 65536) = 16 → Gives .reportGrant s (fun t => t.m.records = [] ∧
      (t.ringOf 0 r.1).tail = (s.ringOf 0 r.1).tail + 1 ∧
      (∀ b, t.memByte b = if a ≤ b ∧ b < a + r.2.2.2.length then r.2.2.2.getD (b - a) 0 else s.memByte b) ∧
      t.hostMem = s.hostMem ∧ t.groups = s.groups)) ∧
  (∀ fn tok s, (∀ e ∈ (s.slice (fnSlice fn)).tokens, e.1 ≠ tok % 16777216) →
    Idles (.faultackRetry fn tok) s ∧ Idles (.faultackFail fn tok) s) ∧
  (∀ fn tok gid g s, s.m.recovery = false → (∃ p, (tok % 16777216, p) ∈ (s.slice (fnSlice fn)).tokens) → s.tokenCopies fn (tok % 16777216) = [] →
    s.groups = [(gid, g)] → g.token = some (fn, tok % 16777216) →
    Gives (.faultackRetry fn tok) s (fun t => t.group gid = { g with token := none, wants := true } ∧
      (∀ e ∈ (t.slice (fnSlice fn)).tokens, e.1 ≠ tok % 16777216) ∧ t.mem = s.mem) ∧
    Gives (.faultackFail fn tok) s (fun t => t.group gid = { g with token := none, wants := true, why := 4 } ∧
      (∀ e ∈ (t.slice (fnSlice fn)).tokens, e.1 ≠ tok % 16777216)))

/-- Tier 2, derived (R230 to R233, R239, R240): RESUME, STEP and RESUME_ALL let the stopped groups that they name go on, DUMP
gives the groups of the slice 100 us to reach a fix, and each is ignored while BUSY; an EVSEL write that is denied under MODE
changes no counter and is recorded once; ALLOW takes its value at once. Model's choice, log 30: BUSY is a pending DUMP, and an
EVSEL write keeps the count. -/
def Obligations.DebugAndCounters : Prop :=
  (∀ (k : Nat) (i : Instr) s, (i = .dbgResume k ∨ i = .dbgStep k ∨ i = .dbgResumeAll k ∨ i = .dbgDump k) →
    (s.dbgBusy k = true ∨ s.m.recovery = true) → Idles i s) ∧
  (∀ k n w v s, s.m.recovery = true → Idles (.evselWrite k n v) s ∧ ∀ b, Idles (.allowWrite k b w v) s) ∧
  (∀ (k : Nat) (i : Instr) (h : Nat) (g : Group) s, s.m.recovery = false → s.dbgBusy k = false → s.groups = [(h, g)] → g.slice = k → g.dbgHeld = true →
    (i = .dbgResume k ∧ (s.slice k).dbg.names g = true ∨ i = .dbgStep k ∧ (s.slice k).dbg.names g = true ∨ i = .dbgResumeAll k) →
    Gives i s (fun t => OnlyGroup h s t ∧ t.group h = { g with
      dbgHeld := false, stepping := decide (i = .dbgStep k), wants := g.wants || g.token.isNone })) ∧
  (∀ (k h : Nat) (g : Group) (i : Instr) s, Tbl.find s.groups h = some g → (i = .dbgResume k ∨ i = .dbgStep k) →
    (g.slice ≠ k ∨ g.dbgHeld = false ∨ (s.slice k).dbg.names g = false) → (s.groups.map (·.1)).Nodup →
    Gives i s (fun t => Tbl.find t.groups h = some g ∧ t = { s with groups := t.groups })) ∧
  (∀ k h g s, s.m.recovery = false → s.dbgBusy k = false → Tbl.find s.groups h = some g → Gives (.dbgDump k) s (fun t =>
    t = { s with groups := t.groups } ∧ Tbl.find t.groups h = some
      (if g.slice = k ∧ g.dbgHeld = false then { g with dumpAt := s.cycle + 100000 } else g))) ∧
  (∀ h g s, Tbl.find s.groups h = some g → (g.dumpAt = 0 ∨ s.cycle < g.dumpAt ∨ g.dbgHeld = true) → Idles (.dumpTimeout h) s) ∧
  (∀ h g s, Tbl.find s.groups h = some g → g.dumpAt ≠ 0 → g.dumpAt ≤ s.cycle → g.place = .resident →
    g.dbgHeld = false → g.fixStop = false →
    Gives (.dumpTimeout h) s (fun t => (t.group h).place = .freezing ∧ (t.group h).why = 3 ∧ (t.group h).dbgHeld = true ∧
      (t.group h).dumpAt = 0 ∧
      ((∀ e ∈ g.log, e.cls ≠ 2) → t.group h = { g with
        place := .freezing, why := 3, dbgHeld := true, dumpAt := 0, frozeAt := s.cycle, frozeCyc := s.now g.core }) ∧
      t.mem = s.mem ∧ ∀ e, e ≠ h → Tbl.find t.groups e = Tbl.find s.groups e)) ∧
  (∀ k n (v : Word) s, s.m.recovery = false → k < 16 → (s.slice k).allows (v.extractLsb' 0 8).toNat = false →
    (Tbl.get (s.slice k).mode 0 ((v.extractLsb' 0 8).toNat / 32)).getLsbD ((v.extractLsb' 0 8).toNat % 32) = true →
    Gives (.evselWrite k n v) s (fun t => OnlyModule s t ∧ t.m.evdeny.getLsbD 31 = true ∧
      (s.m.evdeny.getLsbD 31 = true → t.m = s.m))) ∧
  (∀ k n (v : Word) s, s.m.recovery = false → (s.slice k).allows (v.extractLsb' 0 8).toNat = true → Gives (.evselWrite k n v) s (fun t => OnlySlice k s t ∧
    ((t.slice k).pmc_ n).evsel = v &&& 0x800000FF ∧ ((t.slice k).pmc_ n).held = s.pmcHeld k ((s.slice k).pmc_ n) ∧
    (∀ j, j ≠ n → (t.slice k).pmc_ j = (s.slice k).pmc_ j))) ∧
  (∀ k w v s, s.m.recovery = false → Gives (.allowWrite k false w v) s (fun t => OnlySlice k s t ∧ Tbl.get (t.slice k).allow 0xFFFFFFFF w = v ∧
    (t.slice k).mode = (s.slice k).mode)) ∧
  (∀ k w v s, s.m.recovery = false → Gives (.allowWrite k true w v) s (fun t => OnlySlice k s t ∧ Tbl.get (t.slice k).mode 0 w = v ∧
    (t.slice k).allow = (s.slice k).allow ∧ (t.slice k).pmc = (s.slice k).pmc))

/-! ## The whole machine -/

/-- Tier 1, derived (R268 to R271, R276): words that the spec writes out decode to the instructions that it gives for them. -/
def Obligations.DecodesSpecWords : Prop :=
  Decode.word 0x2892_01A1 = .ok (.fma { b := 10, a := 9, d := 8, x := 0, w := 2, s := false }) ∧
  Decode.word 0x5461_4581 = .ok (.cvt { b := 0x15, a := 6, d := 5, x := 0, w := 0, s := false }) ∧
  Decode.word 0x0020_8F31 = .ok (.add64 { b := 0, a := 2, d := 2, x := 0, w := 3, s := false }) ∧
  Decode.word 0x0FDB_1C1B = .ok (.movi { i := 0x0FDB, d := 7, w := 3 }) ∧
  Decode.word 0x0014_4685 = .ok (.ldsD { off := 0, a := 5, d := 4, w := 0, s := false }) ∧
  Decode.word 0xFF44_4505 = .ok (.stD { off := 0xFF, a := 17, d := 4, w := 0, s := false }) ∧
  Decode.word 0x4222_0805 = .ok (.atomA { o := 1, a := 2, d := 8, sc := 8, x := 0, w := 0, s := false }) ∧
  Decode.word 0x2913_3B85 = .ok (.arrWait { b := 10, a := 17, d := 12, x := 3, w := 0, s := false }) ∧
  Decode.word 0x0006_A107 = .ok (.brAny { off := 6, n := true, p := 2, w := 0, s := false }) ∧
  Decode.word 0x2000_0587 = .ok (.srRd { b := 8, a := 0, d := 0, x := 0, w := 0, s := false }) ∧
  Decode.word 0x0000_0F81 = .error (.illegal 1) ∧ Decode.word 0 = .ok .nopH

/-- Tier 3, derived (R266 to R271, R276, R278): every well-formed instruction of the opcode map has a word, of 16 or 32 bits, and the
decoder gives the instruction back from it, with every operand at every value that the encoding admits and whatever bytes
follow. -/
def Obligations.EncodedInstructionsDecode : Prop :=
  (∀ i, Instr.wf i = true → (encode i = none ↔ Instr.posted i = true)) ∧
  (∀ i n w rest, Instr.wf i = true → encode i = some (n, w) →
    (n = 16 ∨ n = 32) ∧ n = 8 * instrLen i ∧ w < 2 ^ n ∧ (encodeBytes i).length = instrLen i ∧ Decode.word w = .ok i ∧
    Decode.bytes (encodeBytes i ++ rest) = .ok (i, rest) ∧ decodeTableWord n w = some i)

/-- Tier 2, derived (R266 to R271, R276, R278): what the decoder accepts is well formed and encodes to the very word that was
read, so no bit of a word is dropped and no two words give one instruction; a word that it does not accept is illegal with
DETAIL 1 or 2. Model's choice, log 39: the printed word of one example. -/
def Obligations.DecodedWordsEncodeBack : Prop :=
  (∀ w i, w < 2 ^ (if w % 2 = 0 then 16 else 32) → Decode.word w = .ok i →
    Instr.wf i = true ∧ encode i = some (if w % 2 = 0 then 16 else 32, w)) ∧
  (∀ w r, Decode.word w = .error r → w % 2 = 1 ∧ (r = .illegal 1 ∨ r = .illegal 2)) ∧
  (∀ w v i, w < 2 ^ (if w % 2 = 0 then 16 else 32) → v < 2 ^ (if v % 2 = 0 then 16 else 32) →
    Decode.word w = .ok i → Decode.word v = .ok i → w = v)

/-- Tier 1, derived (R124, R166, R266; log 1): when the bytes at the program counter of the split whose turn it is decode to an
instruction, no late cause waits and the debugger stops nothing there, the step is that instruction's, and its fix counts again
once it has issued; so it is when the split is in the middle of that form and its turn has come. A word that does not decode raises
ILLEGAL. With no split to issue, the oldest event posted is performed, and with none posted time goes on. Model's choice, log 1 and 71:
the order of events, and that a form which reads memory itself waits after its issue. -/
def Obligations.StepRunsTheDecodedInstruction : Prop :=
  (∀ s gid born g p e f i r, s.cur = some (gid, born) → Tbl.find s.groups gid = some g → g.split? born = some p →
    s.live1 g p = true → g.lateCause p = none →
    (s.fixAt g p.pc.toNat = none ∨ g.skipBrk = some born ∨ g.dumpAt = 0 ∧ g.stepping = false ∧ ∀ k, s.breaksAt g k = false) →
    windowOf p.pc.toNat = .glob → windowOf (p.pc.toNat + 2) = .glob →
    s.fetchPoison g p = none → s.checkPage g.slice g.core p.pc.toNat .fetch = .ok e → s.checkPage g.slice g.core (p.pc.toNat + 2) .fetch = .ok f →
    let b := s.memBytes (e.out + p.pc.toNat % e.size) 2 ++ s.memBytes (f.out + (p.pc.toNat + 2) % f.size) 2
    (Decode.bytes b = .ok (i, r) → step s = closeIssue s gid born (exec i s)) ∧
    (∀ d, Decode.bytes b = .error (.illegal d) → step s = .next (State.takeTrap { s with cur := none } gid born
      { cause := 1, detail := d, mask := p.mask, pc := p.pc, rpc := p.pc }))) ∧
  (∀ s gid born g p e f i r, s.cur = some (gid, born) → Tbl.find s.groups gid = some g → g.split? born = some p →
    p.wait.isSome = true → p.st = .sleep → windowOf p.pc.toNat = .glob → windowOf (p.pc.toNat + 2) = .glob →
    s.checkPage g.slice g.core p.pc.toNat .fetch = .ok e → s.checkPage g.slice g.core (p.pc.toNat + 2) .fetch = .ok f →
    Decode.bytes (s.memBytes (e.out + p.pc.toNat % e.size) 2 ++ s.memBytes (f.out + (p.pc.toNat + 2) % f.size) 2) = .ok (i, r) →
    step s = closeIssue s gid born (exec i s)) ∧
  (∀ s gid born t, closeIssue s gid born (.next t) = .next (s.clearSkip t gid born) ∧
    ((s.group gid).skipBrk ≠ some born → s.clearSkip t gid born = t)) ∧
  (∀ s i r, s.cur = none → s.agenda = i :: r → Instr.posted i = true → step s = exec i { s with agenda := r }) ∧
  (∀ s i r, s.cur = none → s.agenda = i :: r → Instr.posted i = false → step s = .next { s with agenda := r }) ∧
  (∀ s, s.cur = none → s.agenda = [] → step s = .next s.idle)

/-- Tier 1, derived (R19, R21, R29, R30, R32, R56, R57, R64, R69, R113, R141, R145): the registers that the spec gives a
reset value have it, on every die, slice and stack, no slice and no group is there, and every page belongs to no one. Model's
choice, log 3: the frames without an owner. -/
def Obligations.ResetValues : Prop :=
  State.reset.cycle = 0 ∧ State.reset.groups = [] ∧ State.reset.m.watts = 0x7D0 ∧ State.reset.m.fp = 256 ∧
  State.reset.m.locked = false ∧ State.reset.m.first = 0 ∧ State.reset.m.bar2win = 0 ∧ State.reset.m.ownBusy = false ∧
  State.reset.m.ownRes = 0 ∧ State.reset.m.ownOwner = 0x1F ∧ State.reset.m.intest = true ∧ State.reset.m.inperiod = 0x0E10 ∧
  (∀ d, (State.reset.die d).bvf = 0xF ∧ (State.reset.die d).vf = 0xB ∧ (State.reset.die d).hs = 0 ∧
    (State.reset.die d).curhs = 0 ∧ (State.reset.die d).curvf = 0 ∧ (State.reset.die d).permits = 0 ∧
    (State.reset.die d).fact = 0x100) ∧
  (∀ k, (State.reset.slice k).st = .free ∧ (State.reset.slice k).err = 0 ∧ (State.reset.slice k).tdi = .configUnlocked ∧
    (State.reset.slice k).gang = 0x03E80000 ∧ (State.reset.slice k).ladder = 0x138801F4 ∧
    (∀ n, (State.reset.slice k).allows n = true) ∧ (∀ q, ((State.reset.slice k).queue q).en = false)) ∧
  (∀ k, (State.reset.stack k).level = 0 ∧ (State.reset.stack k).d = 0xFF) ∧
  (∀ f, f < 8388608 → State.reset.owner f = 31)

/-- Tier 1, derived (R196, R199, R189; log 3): at reset the three byte memories have the canonical form. -/
def Obligations.ResetIsCanonical : Prop :=
  Canonical State.reset

/-- Tier 3, derived (R189, R196, R199; log 3): every step of every state keeps the canonical form of device memory, host memory and the
scratchpads, so that equal memories are equal data; it neither faults nor is refused. -/
def Obligations.EveryStepKeepsTheMemoriesCanonical : Prop :=
  ∀ s, ∃ t, step s = .next t ∧ (Canonical s → Canonical t)

/-- Tier 3, derived (R246, R248 to R250, R252, R258): with FTZ 0, rounding a finite exact value to any floating format gives, where it does
not overflow, the value of the format that the mode asks for: the nearest, a tie to an even fraction; the nearest of no
greater magnitude; the nearest not above; the nearest not below. It keeps the sign, NX says that the result differs and UF
that it differs below the smallest normal value; beyond the largest value OF is raised with the result of R252. -/
def Obligations.RoundingIsRight : Prop :=
  ∀ f ∈ [f32, f16, bf16, f8e4, f8e5, f6e3, f6e2, f4e2], ∀ mode < 4, ∀ neg m e,
    let v := ratOf neg m e
    let r := f.round false mode (.fin neg m e)
    let finite (c : Nat) (x : ℚ) : Prop := c < 2 ^ f.width ∧ ∃ n k q, f.value false c = .fin n k q ∧ x = ratOf n k q
    r.1 < 2 ^ f.width ∧ decide (2 ^ (f.ew + f.fw) ≤ r.1) = neg ∧
    (r.2 / 4 % 2 = 0 → ∃ x, finite r.1 x ∧ r.2 = (if x = v then 0 else if |x| < ratOf false 1 (1 - f.bias) then 3 else 1) ∧
      (mode = 0 → ∀ c y, finite c y → |v - x| ≤ |v - y| ∧ (|v - x| = |v - y| → x ≠ y → r.1 % 2 = 0)) ∧
      (mode = 1 → |x| ≤ |v| ∧ ∀ c y, finite c y → |y| ≤ |v| → |y| ≤ |x|) ∧
      (mode = 2 → x ≤ v ∧ ∀ c y, finite c y → y ≤ v → y ≤ x) ∧
      (mode = 3 → v ≤ x ∧ ∀ c y, finite c y → v ≤ y → x ≤ y)) ∧
    (r.2 / 4 % 2 = 1 → r.2 = 5 ∧ (∀ c y, finite c y → |y| < |v|) ∧
      r.1 = (if f.ieee && (mode == 0 || mode == (if neg then 2 else 3)) then f.inf neg else f.largest neg))
end

