-- ==== Sys2Proof/Laws/Tables.lean ====
section
/-! SUPPORT. What a read of a table, of a memory, of a list of splits or of a lane mask gives after each change of it. -/

namespace Sys2Proof.Machine

/-! ## Tables -/

variable {α : Type}

@[simp] theorem Tbl.find_nil (k : Nat) : Tbl.find ([] : Tbl α) k = none := rfl

theorem Tbl.find_cons (j : Nat) (a : α) (t : Tbl α) (k : Nat) :
    Tbl.find ((j, a) :: t) k = if j = k then some a else Tbl.find t k := rfl

theorem Tbl.get_eq (t : Tbl α) (d : α) (k : Nat) : Tbl.get t d k = (Tbl.find t k).getD d := rfl

@[simp] theorem Tbl.get_nil (d : α) (k : Nat) : Tbl.get ([] : Tbl α) d k = d := rfl

theorem Tbl.find_put (t : Tbl α) (k j : Nat) (a : α) :
    Tbl.find (Tbl.put t k a) j = if k = j then some a else Tbl.find t j := by
  induction t with
  | nil => rfl
  | cons e t ih =>
    obtain ⟨i, b⟩ := e
    simp only [Tbl.put]
    split
    · simp only [Tbl.find_cons]
    · split
      · subst_vars
        simp only [Tbl.find_cons]
        split <;> rfl
      · simp only [Tbl.find_cons, ih]
        split
        · rw [if_neg]; omega
        · rfl

@[simp] theorem Tbl.find_put_self (t : Tbl α) (k : Nat) (a : α) : Tbl.find (Tbl.put t k a) k = some a := by
  simp [Tbl.find_put]

theorem Tbl.find_del (t : Tbl α) (k j : Nat) : Tbl.find (Tbl.del t k) j = if k = j then none else Tbl.find t j := by
  induction t with
  | nil => simp [Tbl.del]
  | cons e t ih =>
    obtain ⟨i, b⟩ := e
    simp only [Tbl.del]
    split
    · subst_vars
      simp only [Tbl.find_cons, ih]
      split <;> rfl
    · simp only [Tbl.find_cons, ih]
      split
      · rw [if_neg]; omega
      · rfl

theorem Tbl.get_put (t : Tbl α) (d : α) (k j : Nat) (a : α) :
    Tbl.get (Tbl.put t k a) d j = if k = j then a else Tbl.get t d j := by
  simp only [Tbl.get_eq, Tbl.find_put]; split <;> rfl

@[simp] theorem Tbl.get_put_self (t : Tbl α) (d : α) (k : Nat) (a : α) : Tbl.get (Tbl.put t k a) d k = a := by
  simp [Tbl.get_put]

theorem Tbl.get_put_ne (t : Tbl α) (d : α) {k j : Nat} (a : α) (h : k ≠ j) :
    Tbl.get (Tbl.put t k a) d j = Tbl.get t d j := by simp [Tbl.get_put, h]

theorem Tbl.get_set [DecidableEq α] (t : Tbl α) (d : α) (k j : Nat) (a : α) :
    Tbl.get (Tbl.set t d k a) d j = if k = j then a else Tbl.get t d j := by
  unfold Tbl.set
  split
  · subst_vars
    simp only [Tbl.get_eq, Tbl.find_del]; split <;> rfl
  · exact Tbl.get_put t d k j a

theorem Tbl.find_upd (t : Tbl α) (k j : Nat) (f : α → α) :
    Tbl.find (Tbl.upd t k f) j = if k = j then (Tbl.find t j).map f else Tbl.find t j := by
  induction t with
  | nil => simp [Tbl.upd]
  | cons e t ih =>
    obtain ⟨i, b⟩ := e
    simp only [Tbl.upd]
    split
    · subst_vars
      simp only [Tbl.find_cons]
      split <;> simp_all
    · simp only [Tbl.find_cons, ih]
      split
      · rw [if_neg]; omega
      · rfl

theorem Tbl.find_upd_self (t : Tbl α) (k : Nat) (f : α → α) : Tbl.find (Tbl.upd t k f) k = (Tbl.find t k).map f := by
  simp [Tbl.find_upd]

theorem Tbl.find_upd_ne (t : Tbl α) {k j : Nat} (f : α → α) (h : k ≠ j) :
    Tbl.find (Tbl.upd t k f) j = Tbl.find t j := by simp [Tbl.find_upd, h]

/-! ## Lanes -/

theorem mem_lanesOf (m : Word) (l : Nat) : l ∈ lanesOf m ↔ m.getLsbD l = true := by
  simp only [lanesOf, List.mem_filter, List.mem_range]
  constructor
  · exact fun h => h.2
  · intro h
    refine ⟨?_, h⟩
    by_contra hl
    simp [BitVec.getLsbD_of_ge m l (by omega)] at h

theorem lanesOf_nodup (m : Word) : (lanesOf m).Nodup := List.nodup_range.filter _

theorem foldr_bits (p : Nat → Bool) (n l k : Nat) :
    Nat.testBit ((List.range' k n).foldr (fun l a => b2n (p l) * 2 ^ l + a) 0) l =
      (decide (k ≤ l ∧ l < k + n) && p l) ∧
    2 ^ k ∣ (List.range' k n).foldr (fun l a => b2n (p l) * 2 ^ l + a) 0 := by
  induction n generalizing k with
  | zero => simp
  | succ n ih =>
    obtain ⟨h1, m, h2⟩ := ih (k + 1)
    simp only [List.range'_succ, List.foldr_cons]
    constructor
    · rw [h2, show b2n (p k) * 2 ^ k + 2 ^ (k + 1) * m = 2 ^ k * (2 * m + b2n (p k)) by ring, Nat.testBit_two_pow_mul]
      rw [h2, Nat.testBit_two_pow_mul] at h1
      rcases Nat.lt_trichotomy l k with hl | hl | hl
      · have : ¬ (l ≥ k) := by omega
        simp [this]
      · subst hl
        simp [b2n]; cases p l <;> simp
      · have e1 : l - k = (l - (k + 1)) + 1 := by omega
        have e2 : (2 * m + b2n (p k)) / 2 = m := by unfold b2n; split <;> omega
        rw [e1, Nat.testBit_succ, e2]
        have : decide (l ≥ k + 1) = true := by simp; omega
        rw [this, Bool.true_and] at h1
        have a1 : decide (l ≥ k) = true := by simp; omega
        have a2 : decide (k + 1 ≤ l ∧ l < k + 1 + n) = decide (k ≤ l ∧ l < k + (n + 1)) := by
          rw [decide_eq_decide]; omega
        rw [h1, a1, a2, Bool.true_and]
    · rw [h2]
      exact ⟨2 * m + b2n (p k), by ring⟩

/-- Bit l of the mask of a test. -/
@[simp] theorem maskWhere_getLsbD (p : Nat → Bool) (l : Nat) : (maskWhere p).getLsbD l = (decide (l < 32) && p l) := by
  have h := (foldr_bits p 32 l 0).1
  simp only [maskWhere, BitVec.getLsbD_ofNat, List.range_eq_range']
  rw [h]
  by_cases hl : l < 32 <;> simp [hl]

/-! ## Splits -/

theorem find_modSplits (l : List Split) (b c : Nat) (f : Split → Split) (h : ∀ p, (f p).born = p.born) :
    (modSplits l b f).find? (fun p => p.born == c) =
      if b = c then (l.find? (fun p => p.born == c)).map f else l.find? (fun p => p.born == c) := by
  induction l with
  | nil => simp [modSplits]
  | cons p l ih =>
    simp only [modSplits]
    split
    · subst_vars
      simp only [List.find?_cons, h]
      split <;> simp_all
    · simp only [List.find?_cons, ih]
      by_cases hc : p.born = c
      · have hb : ¬ b = c := by omega
        simp [hc, hb]
      · have : (p.born == c) = false := by simp [hc]
        rw [this]

/-- A split of a group after one split is changed. -/
theorem Group.split?_modSplit (g : Group) (b c : Nat) (f : Split → Split) (h : ∀ p, (f p).born = p.born) :
    (g.modSplit b f).split? c = if b = c then (g.split? c).map f else g.split? c :=
  find_modSplits g.splits b c f h

end Sys2Proof.Machine
end

