-- ==== Sys2Proof/Laws/Memory.lean ====
section
/-! SUPPORT. Byte memories: what a read gives after a write, and that every write and every removal keeps the canonical
form. -/

namespace Sys2Proof.Machine

theorem Memory.read_eq (d : Nat → Byte) (m : List Host.Cell) (a : Nat) :
    Memory.read d m a = (Tbl.find (α := Byte) m a).getD (d a) := rfl

/-- A byte after one byte is written. -/
theorem Memory.read_write (d : Nat → Byte) (m : List Host.Cell) (a b : Nat) (v : Byte) :
    Memory.read d (Memory.write d m a v) b = if a = b then v else Memory.read d m b := by
  simp only [Memory.read_eq, Memory.write, Tbl.set]
  split
  · subst_vars
    rw [Tbl.find_del]
    split
    · subst_vars; rfl
    · rfl
  · rw [Tbl.find_put]
    split <;> rfl

/-- A byte after bytes are written: the byte written there, or what stood there before. -/
theorem Memory.read_writeList (d : Nat → Byte) (l : List Byte) (m : List Host.Cell) (a b : Nat) :
    Memory.read d (Memory.writeList d m a l) b =
      if a ≤ b ∧ b < a + l.length then l.getD (b - a) 0 else Memory.read d m b := by
  induction l generalizing m a with
  | nil => simp [Memory.writeList]
  | cons x r ih =>
    simp only [Memory.writeList, ih, Memory.read_write, List.length_cons]
    by_cases h1 : a + 1 ≤ b ∧ b < a + 1 + r.length
    · rw [if_pos h1, if_pos (by omega)]
      have e : b - a = (b - (a + 1)) + 1 := by omega
      rw [e, List.getD_cons_succ]
    · rw [if_neg h1]
      by_cases h2 : a = b
      · subst h2
        simp
      · rw [if_neg h2, if_neg (by omega)]

/-- Bytes outside a write keep their values. -/
theorem Memory.read_writeList_outside (d : Nat → Byte) (l : List Byte) (m : List Host.Cell) {a b : Nat}
    (h : b < a ∨ a + l.length ≤ b) : Memory.read d (Memory.writeList d m a l) b = Memory.read d m b := by
  rw [Memory.read_writeList, if_neg (by omega)]

/-! ## The canonical form -/

/-- The canonical form, said of the list: keys rising, no entry with the value it has unlisted. -/
theorem Memory.wf_iff (d : Nat → Byte) (m : List Host.Cell) :
    Memory.wf d m = true ↔ m.Pairwise (fun x y => x.1 < y.1) ∧ ∀ e ∈ m, e.2 ≠ d e.1 := by
  induction m with
  | nil => simp [Memory.wf]
  | cons e m ih =>
    obtain ⟨a, v⟩ := e
    cases m with
    | nil => simp [Memory.wf]
    | cons f r =>
      obtain ⟨b, w⟩ := f
      simp only [Memory.wf, Bool.and_eq_true, bne_iff_ne, ne_eq, decide_eq_true_eq, ih]
      rw [List.pairwise_cons (a := (a, v))]
      constructor
      · rintro ⟨⟨h1, h2⟩, h3, h4⟩
        refine ⟨⟨?_, h3⟩, ?_⟩
        · intro x hx
          rcases List.mem_cons.mp hx with rfl | hx
          · exact h2
          · exact lt_trans h2 ((List.pairwise_cons.mp h3).1 x hx)
        · intro x hx
          rcases List.mem_cons.mp hx with rfl | hx
          · exact h1
          · exact h4 x hx
      · rintro ⟨⟨h1, h3⟩, h4⟩
        exact ⟨⟨h4 (a, v) (by simp), h1 (b, w) (by simp)⟩, h3, fun x hx => h4 x (by simp [hx])⟩

theorem Tbl.mem_del {α : Type} (m : Tbl α) (a : Nat) : ∀ e ∈ Tbl.del m a, e ∈ m := by
  induction m with
  | nil => simp [Tbl.del]
  | cons x r ih =>
    obtain ⟨j, b⟩ := x
    intro e he
    simp only [Tbl.del] at he
    split at he
    · exact List.mem_cons_of_mem _ (ih e he)
    · rcases List.mem_cons.mp he with h | h
      · exact h ▸ List.mem_cons_self
      · exact List.mem_cons_of_mem _ (ih e h)

theorem Tbl.mem_put {α : Type} (m : Tbl α) (a : Nat) (v : α) : ∀ e ∈ Tbl.put m a v, e = (a, v) ∨ e ∈ m := by
  induction m with
  | nil => simp [Tbl.put]
  | cons x r ih =>
    obtain ⟨j, b⟩ := x
    intro e he
    simp only [Tbl.put] at he
    split at he
    · rcases List.mem_cons.mp he with h | h
      · exact .inl h
      · exact .inr h
    · split at he
      · rcases List.mem_cons.mp he with h | h
        · exact .inl h
        · exact .inr (List.mem_cons_of_mem _ h)
      · rcases List.mem_cons.mp he with h | h
        · exact .inr (h ▸ List.mem_cons_self)
        · exact (ih e h).imp id (List.mem_cons_of_mem _)

theorem Tbl.pairwise_del {α : Type} (m : Tbl α) (a : Nat) (h : m.Pairwise (fun x y => x.1 < y.1)) :
    (Tbl.del m a).Pairwise (fun x y => x.1 < y.1) := by
  induction m with
  | nil => simp [Tbl.del]
  | cons x r ih =>
    obtain ⟨j, b⟩ := x
    obtain ⟨h1, h2⟩ := List.pairwise_cons.mp h
    simp only [Tbl.del]
    split
    · exact ih h2
    · exact List.pairwise_cons.mpr ⟨fun e he => h1 e (Tbl.mem_del r a e he), ih h2⟩

theorem Tbl.pairwise_put {α : Type} (m : Tbl α) (a : Nat) (v : α) (h : m.Pairwise (fun x y => x.1 < y.1)) :
    (Tbl.put m a v).Pairwise (fun x y => x.1 < y.1) := by
  induction m with
  | nil => simp [Tbl.put]
  | cons x r ih =>
    obtain ⟨j, b⟩ := x
    obtain ⟨h1, h2⟩ := List.pairwise_cons.mp h
    simp only [Tbl.put]
    split
    · rename_i hlt
      refine List.pairwise_cons.mpr ⟨fun e he => ?_, h⟩
      rcases List.mem_cons.mp he with rfl | he
      · exact hlt
      · exact lt_trans hlt (h1 e he)
    · rename_i hlt
      split
      · rename_i hj
        subst hj
        exact List.pairwise_cons.mpr ⟨h1, h2⟩
      · refine List.pairwise_cons.mpr ⟨fun e he => ?_, ih h2⟩
        rcases Tbl.mem_put r a v e he with rfl | he
        · show j < a
          omega
        · exact h1 e he

/-- One write keeps the canonical form. -/
theorem Memory.wf_write (d : Nat → Byte) (m : List Host.Cell) (a : Nat) (v : Byte) (h : Memory.wf d m = true) :
    Memory.wf d (Memory.write d m a v) = true := by
  rw [Memory.wf_iff] at h ⊢
  unfold Memory.write Tbl.set
  split
  · exact ⟨Tbl.pairwise_del _ a h.1, fun e he => h.2 e (Tbl.mem_del _ a e he)⟩
  · rename_i hv
    refine ⟨Tbl.pairwise_put _ a v h.1, fun e he => ?_⟩
    rcases Tbl.mem_put _ a v e he with rfl | he
    · exact hv
    · exact h.2 e he

/-- A write of bytes keeps the canonical form. -/
theorem Memory.wf_writeList (d : Nat → Byte) (l : List Byte) (m : List Host.Cell) (a : Nat) (h : Memory.wf d m = true) :
    Memory.wf d (Memory.writeList d m a l) = true := by
  induction l generalizing m a with
  | nil => exact h
  | cons x r ih => exact ih _ _ (Memory.wf_write d m a x h)

/-- Taking entries out keeps the canonical form. -/
theorem Memory.wf_filter (d : Nat → Byte) (m : List Host.Cell) (p : Host.Cell → Bool) (h : Memory.wf d m = true) :
    Memory.wf d (m.filter p) = true := by
  rw [Memory.wf_iff] at h ⊢
  exact ⟨h.1.filter _, fun e he => h.2 e (List.mem_filter.mp he).1⟩

end Sys2Proof.Machine
end

