-- ==== Sys2Proof/Laws/State.lean ====
section
/-! SUPPORT. What each update of a part of the state leaves as it was, field by field, and what the part reads after it. -/

namespace Sys2Proof.Machine

/-! ## modDie -/

@[simp] theorem State.modDie_cycle (s : State) (d : Nat) (f : Die → Die) : (s.modDie d f).cycle = s.cycle := rfl
@[simp] theorem State.modDie_ptp (s : State) (d : Nat) (f : Die → Die) : (s.modDie d f).ptp = s.ptp := rfl
@[simp] theorem State.modDie_cores (s : State) (d : Nat) (f : Die → Die) : (s.modDie d f).cores = s.cores := rfl
@[simp] theorem State.modDie_slices (s : State) (d : Nat) (f : Die → Die) : (s.modDie d f).slices = s.slices := rfl
@[simp] theorem State.modDie_groups (s : State) (d : Nat) (f : Die → Die) : (s.modDie d f).groups = s.groups := rfl
@[simp] theorem State.modDie_hbm (s : State) (d : Nat) (f : Die → Die) : (s.modDie d f).hbm = s.hbm := rfl
@[simp] theorem State.modDie_m (s : State) (d : Nat) (f : Die → Die) : (s.modDie d f).m = s.m := rfl
@[simp] theorem State.modDie_mem (s : State) (d : Nat) (f : Die → Die) : (s.modDie d f).mem = s.mem := rfl
@[simp] theorem State.modDie_hostMem (s : State) (d : Nat) (f : Die → Die) : (s.modDie d f).hostMem = s.hostMem := rfl
@[simp] theorem State.modDie_spad (s : State) (d : Nat) (f : Die → Die) : (s.modDie d f).spad = s.spad := rfl
@[simp] theorem State.modDie_tile (s : State) (d : Nat) (f : Die → Die) : (s.modDie d f).tile = s.tile := rfl
@[simp] theorem State.modDie_nextGid (s : State) (d : Nat) (f : Die → Die) : (s.modDie d f).nextGid = s.nextGid := rfl
@[simp] theorem State.modDie_nextWg (s : State) (d : Nat) (f : Die → Die) : (s.modDie d f).nextWg = s.nextWg := rfl
@[simp] theorem State.modDie_nextJob (s : State) (d : Nat) (f : Die → Die) : (s.modDie d f).nextJob = s.nextJob := rfl
@[simp] theorem State.modDie_cur (s : State) (d : Nat) (f : Die → Die) : (s.modDie d f).cur = s.cur := rfl
@[simp] theorem State.modDie_agenda (s : State) (d : Nat) (f : Die → Die) : (s.modDie d f).agenda = s.agenda := rfl
@[simp] theorem State.modDie_free (s : State) (d : Nat) (f : Die → Die) : (s.modDie d f).free = s.free := rfl
@[simp] theorem State.modDie_core (s : State) (d : Nat) (f : Die → Die) (n : Nat) : (s.modDie d f).core n = s.core n := rfl
@[simp] theorem State.modDie_slice (s : State) (d : Nat) (f : Die → Die) (n : Nat) : (s.modDie d f).slice n = s.slice n := rfl
@[simp] theorem State.modDie_stack (s : State) (d : Nat) (f : Die → Die) (n : Nat) : (s.modDie d f).stack n = s.stack n := rfl
@[simp] theorem State.modDie_memByte (s : State) (d : Nat) (f : Die → Die) (n : Nat) : (s.modDie d f).memByte n = s.memByte n := rfl
@[simp] theorem State.modDie_hostByte (s : State) (d : Nat) (f : Die → Die) (n : Nat) : (s.modDie d f).hostByte n = s.hostByte n := rfl
@[simp] theorem State.modDie_spadByte (s : State) (d : Nat) (f : Die → Die) (n o : Nat) : (s.modDie d f).spadByte n o = s.spadByte n o := rfl

/-! ## modCore -/

@[simp] theorem State.modCore_cycle (s : State) (c : Nat) (f : Core → Core) : (s.modCore c f).cycle = s.cycle := rfl
@[simp] theorem State.modCore_ptp (s : State) (c : Nat) (f : Core → Core) : (s.modCore c f).ptp = s.ptp := rfl
@[simp] theorem State.modCore_dies (s : State) (c : Nat) (f : Core → Core) : (s.modCore c f).dies = s.dies := rfl
@[simp] theorem State.modCore_slices (s : State) (c : Nat) (f : Core → Core) : (s.modCore c f).slices = s.slices := rfl
@[simp] theorem State.modCore_groups (s : State) (c : Nat) (f : Core → Core) : (s.modCore c f).groups = s.groups := rfl
@[simp] theorem State.modCore_hbm (s : State) (c : Nat) (f : Core → Core) : (s.modCore c f).hbm = s.hbm := rfl
@[simp] theorem State.modCore_m (s : State) (c : Nat) (f : Core → Core) : (s.modCore c f).m = s.m := rfl
@[simp] theorem State.modCore_mem (s : State) (c : Nat) (f : Core → Core) : (s.modCore c f).mem = s.mem := rfl
@[simp] theorem State.modCore_hostMem (s : State) (c : Nat) (f : Core → Core) : (s.modCore c f).hostMem = s.hostMem := rfl
@[simp] theorem State.modCore_spad (s : State) (c : Nat) (f : Core → Core) : (s.modCore c f).spad = s.spad := rfl
@[simp] theorem State.modCore_tile (s : State) (c : Nat) (f : Core → Core) : (s.modCore c f).tile = s.tile := rfl
@[simp] theorem State.modCore_nextGid (s : State) (c : Nat) (f : Core → Core) : (s.modCore c f).nextGid = s.nextGid := rfl
@[simp] theorem State.modCore_nextWg (s : State) (c : Nat) (f : Core → Core) : (s.modCore c f).nextWg = s.nextWg := rfl
@[simp] theorem State.modCore_nextJob (s : State) (c : Nat) (f : Core → Core) : (s.modCore c f).nextJob = s.nextJob := rfl
@[simp] theorem State.modCore_cur (s : State) (c : Nat) (f : Core → Core) : (s.modCore c f).cur = s.cur := rfl
@[simp] theorem State.modCore_agenda (s : State) (c : Nat) (f : Core → Core) : (s.modCore c f).agenda = s.agenda := rfl
@[simp] theorem State.modCore_free (s : State) (c : Nat) (f : Core → Core) : (s.modCore c f).free = s.free := rfl
@[simp] theorem State.modCore_die (s : State) (c : Nat) (f : Core → Core) (n : Nat) : (s.modCore c f).die n = s.die n := rfl
@[simp] theorem State.modCore_slice (s : State) (c : Nat) (f : Core → Core) (n : Nat) : (s.modCore c f).slice n = s.slice n := rfl
@[simp] theorem State.modCore_stack (s : State) (c : Nat) (f : Core → Core) (n : Nat) : (s.modCore c f).stack n = s.stack n := rfl
@[simp] theorem State.modCore_memByte (s : State) (c : Nat) (f : Core → Core) (n : Nat) : (s.modCore c f).memByte n = s.memByte n := rfl
@[simp] theorem State.modCore_hostByte (s : State) (c : Nat) (f : Core → Core) (n : Nat) : (s.modCore c f).hostByte n = s.hostByte n := rfl
@[simp] theorem State.modCore_spadByte (s : State) (c : Nat) (f : Core → Core) (n o : Nat) : (s.modCore c f).spadByte n o = s.spadByte n o := rfl
@[simp] theorem State.modCore_now (s : State) (c : Nat) (f : Core → Core) (n : Nat) : (s.modCore c f).now n = s.now n := rfl

/-! ## modSlice -/

@[simp] theorem State.modSlice_cycle (s : State) (t : Nat) (f : Slice → Slice) : (s.modSlice t f).cycle = s.cycle := rfl
@[simp] theorem State.modSlice_ptp (s : State) (t : Nat) (f : Slice → Slice) : (s.modSlice t f).ptp = s.ptp := rfl
@[simp] theorem State.modSlice_dies (s : State) (t : Nat) (f : Slice → Slice) : (s.modSlice t f).dies = s.dies := rfl
@[simp] theorem State.modSlice_cores (s : State) (t : Nat) (f : Slice → Slice) : (s.modSlice t f).cores = s.cores := rfl
@[simp] theorem State.modSlice_groups (s : State) (t : Nat) (f : Slice → Slice) : (s.modSlice t f).groups = s.groups := rfl
@[simp] theorem State.modSlice_hbm (s : State) (t : Nat) (f : Slice → Slice) : (s.modSlice t f).hbm = s.hbm := rfl
@[simp] theorem State.modSlice_m (s : State) (t : Nat) (f : Slice → Slice) : (s.modSlice t f).m = s.m := rfl
@[simp] theorem State.modSlice_mem (s : State) (t : Nat) (f : Slice → Slice) : (s.modSlice t f).mem = s.mem := rfl
@[simp] theorem State.modSlice_hostMem (s : State) (t : Nat) (f : Slice → Slice) : (s.modSlice t f).hostMem = s.hostMem := rfl
@[simp] theorem State.modSlice_spad (s : State) (t : Nat) (f : Slice → Slice) : (s.modSlice t f).spad = s.spad := rfl
@[simp] theorem State.modSlice_tile (s : State) (t : Nat) (f : Slice → Slice) : (s.modSlice t f).tile = s.tile := rfl
@[simp] theorem State.modSlice_nextGid (s : State) (t : Nat) (f : Slice → Slice) : (s.modSlice t f).nextGid = s.nextGid := rfl
@[simp] theorem State.modSlice_nextWg (s : State) (t : Nat) (f : Slice → Slice) : (s.modSlice t f).nextWg = s.nextWg := rfl
@[simp] theorem State.modSlice_nextJob (s : State) (t : Nat) (f : Slice → Slice) : (s.modSlice t f).nextJob = s.nextJob := rfl
@[simp] theorem State.modSlice_cur (s : State) (t : Nat) (f : Slice → Slice) : (s.modSlice t f).cur = s.cur := rfl
@[simp] theorem State.modSlice_agenda (s : State) (t : Nat) (f : Slice → Slice) : (s.modSlice t f).agenda = s.agenda := rfl
@[simp] theorem State.modSlice_free (s : State) (t : Nat) (f : Slice → Slice) : (s.modSlice t f).free = s.free := rfl
@[simp] theorem State.modSlice_die (s : State) (t : Nat) (f : Slice → Slice) (n : Nat) : (s.modSlice t f).die n = s.die n := rfl
@[simp] theorem State.modSlice_core (s : State) (t : Nat) (f : Slice → Slice) (n : Nat) : (s.modSlice t f).core n = s.core n := rfl
@[simp] theorem State.modSlice_stack (s : State) (t : Nat) (f : Slice → Slice) (n : Nat) : (s.modSlice t f).stack n = s.stack n := rfl
@[simp] theorem State.modSlice_memByte (s : State) (t : Nat) (f : Slice → Slice) (n : Nat) : (s.modSlice t f).memByte n = s.memByte n := rfl
@[simp] theorem State.modSlice_hostByte (s : State) (t : Nat) (f : Slice → Slice) (n : Nat) : (s.modSlice t f).hostByte n = s.hostByte n := rfl
@[simp] theorem State.modSlice_spadByte (s : State) (t : Nat) (f : Slice → Slice) (n o : Nat) : (s.modSlice t f).spadByte n o = s.spadByte n o := rfl
@[simp] theorem State.modSlice_now (s : State) (t : Nat) (f : Slice → Slice) (n : Nat) : (s.modSlice t f).now n = s.now n := rfl

/-! ## modGroup -/

@[simp] theorem State.modGroup_cycle (s : State) (g : Nat) (f : Group → Group) : (s.modGroup g f).cycle = s.cycle := rfl
@[simp] theorem State.modGroup_ptp (s : State) (g : Nat) (f : Group → Group) : (s.modGroup g f).ptp = s.ptp := rfl
@[simp] theorem State.modGroup_dies (s : State) (g : Nat) (f : Group → Group) : (s.modGroup g f).dies = s.dies := rfl
@[simp] theorem State.modGroup_cores (s : State) (g : Nat) (f : Group → Group) : (s.modGroup g f).cores = s.cores := rfl
@[simp] theorem State.modGroup_slices (s : State) (g : Nat) (f : Group → Group) : (s.modGroup g f).slices = s.slices := rfl
@[simp] theorem State.modGroup_hbm (s : State) (g : Nat) (f : Group → Group) : (s.modGroup g f).hbm = s.hbm := rfl
@[simp] theorem State.modGroup_m (s : State) (g : Nat) (f : Group → Group) : (s.modGroup g f).m = s.m := rfl
@[simp] theorem State.modGroup_mem (s : State) (g : Nat) (f : Group → Group) : (s.modGroup g f).mem = s.mem := rfl
@[simp] theorem State.modGroup_hostMem (s : State) (g : Nat) (f : Group → Group) : (s.modGroup g f).hostMem = s.hostMem := rfl
@[simp] theorem State.modGroup_spad (s : State) (g : Nat) (f : Group → Group) : (s.modGroup g f).spad = s.spad := rfl
@[simp] theorem State.modGroup_tile (s : State) (g : Nat) (f : Group → Group) : (s.modGroup g f).tile = s.tile := rfl
@[simp] theorem State.modGroup_nextGid (s : State) (g : Nat) (f : Group → Group) : (s.modGroup g f).nextGid = s.nextGid := rfl
@[simp] theorem State.modGroup_nextWg (s : State) (g : Nat) (f : Group → Group) : (s.modGroup g f).nextWg = s.nextWg := rfl
@[simp] theorem State.modGroup_nextJob (s : State) (g : Nat) (f : Group → Group) : (s.modGroup g f).nextJob = s.nextJob := rfl
@[simp] theorem State.modGroup_cur (s : State) (g : Nat) (f : Group → Group) : (s.modGroup g f).cur = s.cur := rfl
@[simp] theorem State.modGroup_agenda (s : State) (g : Nat) (f : Group → Group) : (s.modGroup g f).agenda = s.agenda := rfl
@[simp] theorem State.modGroup_free (s : State) (g : Nat) (f : Group → Group) : (s.modGroup g f).free = s.free := rfl
@[simp] theorem State.modGroup_die (s : State) (g : Nat) (f : Group → Group) (n : Nat) : (s.modGroup g f).die n = s.die n := rfl
@[simp] theorem State.modGroup_core (s : State) (g : Nat) (f : Group → Group) (n : Nat) : (s.modGroup g f).core n = s.core n := rfl
@[simp] theorem State.modGroup_slice (s : State) (g : Nat) (f : Group → Group) (n : Nat) : (s.modGroup g f).slice n = s.slice n := rfl
@[simp] theorem State.modGroup_stack (s : State) (g : Nat) (f : Group → Group) (n : Nat) : (s.modGroup g f).stack n = s.stack n := rfl
@[simp] theorem State.modGroup_memByte (s : State) (g : Nat) (f : Group → Group) (n : Nat) : (s.modGroup g f).memByte n = s.memByte n := rfl
@[simp] theorem State.modGroup_hostByte (s : State) (g : Nat) (f : Group → Group) (n : Nat) : (s.modGroup g f).hostByte n = s.hostByte n := rfl
@[simp] theorem State.modGroup_spadByte (s : State) (g : Nat) (f : Group → Group) (n o : Nat) : (s.modGroup g f).spadByte n o = s.spadByte n o := rfl
@[simp] theorem State.modGroup_now (s : State) (g : Nat) (f : Group → Group) (n : Nat) : (s.modGroup g f).now n = s.now n := rfl

/-! ## modStack -/

@[simp] theorem State.modStack_cycle (s : State) (k : Nat) (f : Stack → Stack) : (s.modStack k f).cycle = s.cycle := rfl
@[simp] theorem State.modStack_ptp (s : State) (k : Nat) (f : Stack → Stack) : (s.modStack k f).ptp = s.ptp := rfl
@[simp] theorem State.modStack_dies (s : State) (k : Nat) (f : Stack → Stack) : (s.modStack k f).dies = s.dies := rfl
@[simp] theorem State.modStack_cores (s : State) (k : Nat) (f : Stack → Stack) : (s.modStack k f).cores = s.cores := rfl
@[simp] theorem State.modStack_slices (s : State) (k : Nat) (f : Stack → Stack) : (s.modStack k f).slices = s.slices := rfl
@[simp] theorem State.modStack_groups (s : State) (k : Nat) (f : Stack → Stack) : (s.modStack k f).groups = s.groups := rfl
@[simp] theorem State.modStack_m (s : State) (k : Nat) (f : Stack → Stack) : (s.modStack k f).m = s.m := rfl
@[simp] theorem State.modStack_mem (s : State) (k : Nat) (f : Stack → Stack) : (s.modStack k f).mem = s.mem := rfl
@[simp] theorem State.modStack_hostMem (s : State) (k : Nat) (f : Stack → Stack) : (s.modStack k f).hostMem = s.hostMem := rfl
@[simp] theorem State.modStack_spad (s : State) (k : Nat) (f : Stack → Stack) : (s.modStack k f).spad = s.spad := rfl
@[simp] theorem State.modStack_tile (s : State) (k : Nat) (f : Stack → Stack) : (s.modStack k f).tile = s.tile := rfl
@[simp] theorem State.modStack_nextGid (s : State) (k : Nat) (f : Stack → Stack) : (s.modStack k f).nextGid = s.nextGid := rfl
@[simp] theorem State.modStack_nextWg (s : State) (k : Nat) (f : Stack → Stack) : (s.modStack k f).nextWg = s.nextWg := rfl
@[simp] theorem State.modStack_nextJob (s : State) (k : Nat) (f : Stack → Stack) : (s.modStack k f).nextJob = s.nextJob := rfl
@[simp] theorem State.modStack_cur (s : State) (k : Nat) (f : Stack → Stack) : (s.modStack k f).cur = s.cur := rfl
@[simp] theorem State.modStack_agenda (s : State) (k : Nat) (f : Stack → Stack) : (s.modStack k f).agenda = s.agenda := rfl
@[simp] theorem State.modStack_free (s : State) (k : Nat) (f : Stack → Stack) : (s.modStack k f).free = s.free := rfl
@[simp] theorem State.modStack_die (s : State) (k : Nat) (f : Stack → Stack) (n : Nat) : (s.modStack k f).die n = s.die n := rfl
@[simp] theorem State.modStack_core (s : State) (k : Nat) (f : Stack → Stack) (n : Nat) : (s.modStack k f).core n = s.core n := rfl
@[simp] theorem State.modStack_slice (s : State) (k : Nat) (f : Stack → Stack) (n : Nat) : (s.modStack k f).slice n = s.slice n := rfl
@[simp] theorem State.modStack_memByte (s : State) (k : Nat) (f : Stack → Stack) (n : Nat) : (s.modStack k f).memByte n = s.memByte n := rfl
@[simp] theorem State.modStack_hostByte (s : State) (k : Nat) (f : Stack → Stack) (n : Nat) : (s.modStack k f).hostByte n = s.hostByte n := rfl
@[simp] theorem State.modStack_spadByte (s : State) (k : Nat) (f : Stack → Stack) (n o : Nat) : (s.modStack k f).spadByte n o = s.spadByte n o := rfl
@[simp] theorem State.modStack_now (s : State) (k : Nat) (f : Stack → Stack) (n : Nat) : (s.modStack k f).now n = s.now n := rfl

/-! ## modM -/

@[simp] theorem State.modM_cycle (s : State) (f : Module → Module) : (s.modM f).cycle = s.cycle := rfl
@[simp] theorem State.modM_ptp (s : State) (f : Module → Module) : (s.modM f).ptp = s.ptp := rfl
@[simp] theorem State.modM_dies (s : State) (f : Module → Module) : (s.modM f).dies = s.dies := rfl
@[simp] theorem State.modM_cores (s : State) (f : Module → Module) : (s.modM f).cores = s.cores := rfl
@[simp] theorem State.modM_slices (s : State) (f : Module → Module) : (s.modM f).slices = s.slices := rfl
@[simp] theorem State.modM_groups (s : State) (f : Module → Module) : (s.modM f).groups = s.groups := rfl
@[simp] theorem State.modM_hbm (s : State) (f : Module → Module) : (s.modM f).hbm = s.hbm := rfl
@[simp] theorem State.modM_mem (s : State) (f : Module → Module) : (s.modM f).mem = s.mem := rfl
@[simp] theorem State.modM_hostMem (s : State) (f : Module → Module) : (s.modM f).hostMem = s.hostMem := rfl
@[simp] theorem State.modM_spad (s : State) (f : Module → Module) : (s.modM f).spad = s.spad := rfl
@[simp] theorem State.modM_tile (s : State) (f : Module → Module) : (s.modM f).tile = s.tile := rfl
@[simp] theorem State.modM_nextGid (s : State) (f : Module → Module) : (s.modM f).nextGid = s.nextGid := rfl
@[simp] theorem State.modM_nextWg (s : State) (f : Module → Module) : (s.modM f).nextWg = s.nextWg := rfl
@[simp] theorem State.modM_nextJob (s : State) (f : Module → Module) : (s.modM f).nextJob = s.nextJob := rfl
@[simp] theorem State.modM_cur (s : State) (f : Module → Module) : (s.modM f).cur = s.cur := rfl
@[simp] theorem State.modM_agenda (s : State) (f : Module → Module) : (s.modM f).agenda = s.agenda := rfl
@[simp] theorem State.modM_free (s : State) (f : Module → Module) : (s.modM f).free = s.free := rfl
@[simp] theorem State.modM_die (s : State) (f : Module → Module) (n : Nat) : (s.modM f).die n = s.die n := rfl
@[simp] theorem State.modM_core (s : State) (f : Module → Module) (n : Nat) : (s.modM f).core n = s.core n := rfl
@[simp] theorem State.modM_slice (s : State) (f : Module → Module) (n : Nat) : (s.modM f).slice n = s.slice n := rfl
@[simp] theorem State.modM_stack (s : State) (f : Module → Module) (n : Nat) : (s.modM f).stack n = s.stack n := rfl
@[simp] theorem State.modM_memByte (s : State) (f : Module → Module) (n : Nat) : (s.modM f).memByte n = s.memByte n := rfl
@[simp] theorem State.modM_hostByte (s : State) (f : Module → Module) (n : Nat) : (s.modM f).hostByte n = s.hostByte n := rfl
@[simp] theorem State.modM_spadByte (s : State) (f : Module → Module) (n o : Nat) : (s.modM f).spadByte n o = s.spadByte n o := rfl
@[simp] theorem State.modM_now (s : State) (f : Module → Module) (n : Nat) : (s.modM f).now n = s.now n := rfl

/-! ## post -/

@[simp] theorem State.post_cycle (s : State) (i : Instr) : (s.post i).cycle = s.cycle := rfl
@[simp] theorem State.post_ptp (s : State) (i : Instr) : (s.post i).ptp = s.ptp := rfl
@[simp] theorem State.post_dies (s : State) (i : Instr) : (s.post i).dies = s.dies := rfl
@[simp] theorem State.post_cores (s : State) (i : Instr) : (s.post i).cores = s.cores := rfl
@[simp] theorem State.post_slices (s : State) (i : Instr) : (s.post i).slices = s.slices := rfl
@[simp] theorem State.post_groups (s : State) (i : Instr) : (s.post i).groups = s.groups := rfl
@[simp] theorem State.post_hbm (s : State) (i : Instr) : (s.post i).hbm = s.hbm := rfl
@[simp] theorem State.post_m (s : State) (i : Instr) : (s.post i).m = s.m := rfl
@[simp] theorem State.post_mem (s : State) (i : Instr) : (s.post i).mem = s.mem := rfl
@[simp] theorem State.post_hostMem (s : State) (i : Instr) : (s.post i).hostMem = s.hostMem := rfl
@[simp] theorem State.post_spad (s : State) (i : Instr) : (s.post i).spad = s.spad := rfl
@[simp] theorem State.post_tile (s : State) (i : Instr) : (s.post i).tile = s.tile := rfl
@[simp] theorem State.post_nextGid (s : State) (i : Instr) : (s.post i).nextGid = s.nextGid := rfl
@[simp] theorem State.post_nextWg (s : State) (i : Instr) : (s.post i).nextWg = s.nextWg := rfl
@[simp] theorem State.post_nextJob (s : State) (i : Instr) : (s.post i).nextJob = s.nextJob := rfl
@[simp] theorem State.post_cur (s : State) (i : Instr) : (s.post i).cur = s.cur := rfl
@[simp] theorem State.post_free (s : State) (i : Instr) : (s.post i).free = s.free := rfl
@[simp] theorem State.post_die (s : State) (i : Instr) (n : Nat) : (s.post i).die n = s.die n := rfl
@[simp] theorem State.post_core (s : State) (i : Instr) (n : Nat) : (s.post i).core n = s.core n := rfl
@[simp] theorem State.post_slice (s : State) (i : Instr) (n : Nat) : (s.post i).slice n = s.slice n := rfl
@[simp] theorem State.post_stack (s : State) (i : Instr) (n : Nat) : (s.post i).stack n = s.stack n := rfl
@[simp] theorem State.post_memByte (s : State) (i : Instr) (n : Nat) : (s.post i).memByte n = s.memByte n := rfl
@[simp] theorem State.post_hostByte (s : State) (i : Instr) (n : Nat) : (s.post i).hostByte n = s.hostByte n := rfl
@[simp] theorem State.post_spadByte (s : State) (i : Instr) (n o : Nat) : (s.post i).spadByte n o = s.spadByte n o := rfl
@[simp] theorem State.post_now (s : State) (i : Instr) (n : Nat) : (s.post i).now n = s.now n := rfl

/-! ## setMem -/

@[simp] theorem State.setMem_cycle (s : State) (a : Nat) (l : List Byte) : (s.setMem a l).cycle = s.cycle := rfl
@[simp] theorem State.setMem_ptp (s : State) (a : Nat) (l : List Byte) : (s.setMem a l).ptp = s.ptp := rfl
@[simp] theorem State.setMem_dies (s : State) (a : Nat) (l : List Byte) : (s.setMem a l).dies = s.dies := rfl
@[simp] theorem State.setMem_cores (s : State) (a : Nat) (l : List Byte) : (s.setMem a l).cores = s.cores := rfl
@[simp] theorem State.setMem_slices (s : State) (a : Nat) (l : List Byte) : (s.setMem a l).slices = s.slices := rfl
@[simp] theorem State.setMem_groups (s : State) (a : Nat) (l : List Byte) : (s.setMem a l).groups = s.groups := rfl
@[simp] theorem State.setMem_hbm (s : State) (a : Nat) (l : List Byte) : (s.setMem a l).hbm = s.hbm := rfl
@[simp] theorem State.setMem_m (s : State) (a : Nat) (l : List Byte) : (s.setMem a l).m = s.m := rfl
@[simp] theorem State.setMem_hostMem (s : State) (a : Nat) (l : List Byte) : (s.setMem a l).hostMem = s.hostMem := rfl
@[simp] theorem State.setMem_spad (s : State) (a : Nat) (l : List Byte) : (s.setMem a l).spad = s.spad := rfl
@[simp] theorem State.setMem_tile (s : State) (a : Nat) (l : List Byte) : (s.setMem a l).tile = s.tile := rfl
@[simp] theorem State.setMem_nextGid (s : State) (a : Nat) (l : List Byte) : (s.setMem a l).nextGid = s.nextGid := rfl
@[simp] theorem State.setMem_nextWg (s : State) (a : Nat) (l : List Byte) : (s.setMem a l).nextWg = s.nextWg := rfl
@[simp] theorem State.setMem_nextJob (s : State) (a : Nat) (l : List Byte) : (s.setMem a l).nextJob = s.nextJob := rfl
@[simp] theorem State.setMem_cur (s : State) (a : Nat) (l : List Byte) : (s.setMem a l).cur = s.cur := rfl
@[simp] theorem State.setMem_agenda (s : State) (a : Nat) (l : List Byte) : (s.setMem a l).agenda = s.agenda := rfl
@[simp] theorem State.setMem_free (s : State) (a : Nat) (l : List Byte) : (s.setMem a l).free = s.free := rfl
@[simp] theorem State.setMem_die (s : State) (a : Nat) (l : List Byte) (n : Nat) : (s.setMem a l).die n = s.die n := rfl
@[simp] theorem State.setMem_core (s : State) (a : Nat) (l : List Byte) (n : Nat) : (s.setMem a l).core n = s.core n := rfl
@[simp] theorem State.setMem_slice (s : State) (a : Nat) (l : List Byte) (n : Nat) : (s.setMem a l).slice n = s.slice n := rfl
@[simp] theorem State.setMem_stack (s : State) (a : Nat) (l : List Byte) (n : Nat) : (s.setMem a l).stack n = s.stack n := rfl
@[simp] theorem State.setMem_hostByte (s : State) (a : Nat) (l : List Byte) (n : Nat) : (s.setMem a l).hostByte n = s.hostByte n := rfl
@[simp] theorem State.setMem_spadByte (s : State) (a : Nat) (l : List Byte) (n o : Nat) : (s.setMem a l).spadByte n o = s.spadByte n o := rfl
@[simp] theorem State.setMem_now (s : State) (a : Nat) (l : List Byte) (n : Nat) : (s.setMem a l).now n = s.now n := rfl

/-! ## setHost -/

@[simp] theorem State.setHost_cycle (s : State) (a : Nat) (l : List Byte) : (s.setHost a l).cycle = s.cycle := rfl
@[simp] theorem State.setHost_ptp (s : State) (a : Nat) (l : List Byte) : (s.setHost a l).ptp = s.ptp := rfl
@[simp] theorem State.setHost_dies (s : State) (a : Nat) (l : List Byte) : (s.setHost a l).dies = s.dies := rfl
@[simp] theorem State.setHost_cores (s : State) (a : Nat) (l : List Byte) : (s.setHost a l).cores = s.cores := rfl
@[simp] theorem State.setHost_slices (s : State) (a : Nat) (l : List Byte) : (s.setHost a l).slices = s.slices := rfl
@[simp] theorem State.setHost_groups (s : State) (a : Nat) (l : List Byte) : (s.setHost a l).groups = s.groups := rfl
@[simp] theorem State.setHost_hbm (s : State) (a : Nat) (l : List Byte) : (s.setHost a l).hbm = s.hbm := rfl
@[simp] theorem State.setHost_m (s : State) (a : Nat) (l : List Byte) : (s.setHost a l).m = s.m := rfl
@[simp] theorem State.setHost_mem (s : State) (a : Nat) (l : List Byte) : (s.setHost a l).mem = s.mem := rfl
@[simp] theorem State.setHost_spad (s : State) (a : Nat) (l : List Byte) : (s.setHost a l).spad = s.spad := rfl
@[simp] theorem State.setHost_tile (s : State) (a : Nat) (l : List Byte) : (s.setHost a l).tile = s.tile := rfl
@[simp] theorem State.setHost_nextGid (s : State) (a : Nat) (l : List Byte) : (s.setHost a l).nextGid = s.nextGid := rfl
@[simp] theorem State.setHost_nextWg (s : State) (a : Nat) (l : List Byte) : (s.setHost a l).nextWg = s.nextWg := rfl
@[simp] theorem State.setHost_nextJob (s : State) (a : Nat) (l : List Byte) : (s.setHost a l).nextJob = s.nextJob := rfl
@[simp] theorem State.setHost_cur (s : State) (a : Nat) (l : List Byte) : (s.setHost a l).cur = s.cur := rfl
@[simp] theorem State.setHost_agenda (s : State) (a : Nat) (l : List Byte) : (s.setHost a l).agenda = s.agenda := rfl
@[simp] theorem State.setHost_free (s : State) (a : Nat) (l : List Byte) : (s.setHost a l).free = s.free := rfl
@[simp] theorem State.setHost_die (s : State) (a : Nat) (l : List Byte) (n : Nat) : (s.setHost a l).die n = s.die n := rfl
@[simp] theorem State.setHost_core (s : State) (a : Nat) (l : List Byte) (n : Nat) : (s.setHost a l).core n = s.core n := rfl
@[simp] theorem State.setHost_slice (s : State) (a : Nat) (l : List Byte) (n : Nat) : (s.setHost a l).slice n = s.slice n := rfl
@[simp] theorem State.setHost_stack (s : State) (a : Nat) (l : List Byte) (n : Nat) : (s.setHost a l).stack n = s.stack n := rfl
@[simp] theorem State.setHost_memByte (s : State) (a : Nat) (l : List Byte) (n : Nat) : (s.setHost a l).memByte n = s.memByte n := rfl
@[simp] theorem State.setHost_spadByte (s : State) (a : Nat) (l : List Byte) (n o : Nat) : (s.setHost a l).spadByte n o = s.spadByte n o := rfl
@[simp] theorem State.setHost_now (s : State) (a : Nat) (l : List Byte) (n : Nat) : (s.setHost a l).now n = s.now n := rfl

/-! ## loadSpad -/

@[simp] theorem State.loadSpad_cycle (s : State) (c o : Nat) (l : List Byte) : (s.loadSpad c o l).cycle = s.cycle := rfl
@[simp] theorem State.loadSpad_ptp (s : State) (c o : Nat) (l : List Byte) : (s.loadSpad c o l).ptp = s.ptp := rfl
@[simp] theorem State.loadSpad_dies (s : State) (c o : Nat) (l : List Byte) : (s.loadSpad c o l).dies = s.dies := rfl
@[simp] theorem State.loadSpad_cores (s : State) (c o : Nat) (l : List Byte) : (s.loadSpad c o l).cores = s.cores := rfl
@[simp] theorem State.loadSpad_slices (s : State) (c o : Nat) (l : List Byte) : (s.loadSpad c o l).slices = s.slices := rfl
@[simp] theorem State.loadSpad_groups (s : State) (c o : Nat) (l : List Byte) : (s.loadSpad c o l).groups = s.groups := rfl
@[simp] theorem State.loadSpad_hbm (s : State) (c o : Nat) (l : List Byte) : (s.loadSpad c o l).hbm = s.hbm := rfl
@[simp] theorem State.loadSpad_mem (s : State) (c o : Nat) (l : List Byte) : (s.loadSpad c o l).mem = s.mem := rfl
@[simp] theorem State.loadSpad_hostMem (s : State) (c o : Nat) (l : List Byte) : (s.loadSpad c o l).hostMem = s.hostMem := rfl
@[simp] theorem State.loadSpad_tile (s : State) (c o : Nat) (l : List Byte) : (s.loadSpad c o l).tile = s.tile := rfl
@[simp] theorem State.loadSpad_nextGid (s : State) (c o : Nat) (l : List Byte) : (s.loadSpad c o l).nextGid = s.nextGid := rfl
@[simp] theorem State.loadSpad_nextWg (s : State) (c o : Nat) (l : List Byte) : (s.loadSpad c o l).nextWg = s.nextWg := rfl
@[simp] theorem State.loadSpad_nextJob (s : State) (c o : Nat) (l : List Byte) : (s.loadSpad c o l).nextJob = s.nextJob := rfl
@[simp] theorem State.loadSpad_cur (s : State) (c o : Nat) (l : List Byte) : (s.loadSpad c o l).cur = s.cur := rfl
@[simp] theorem State.loadSpad_agenda (s : State) (c o : Nat) (l : List Byte) : (s.loadSpad c o l).agenda = s.agenda := rfl
@[simp] theorem State.loadSpad_free (s : State) (c o : Nat) (l : List Byte) : (s.loadSpad c o l).free = s.free := rfl
@[simp] theorem State.loadSpad_die (s : State) (c o : Nat) (l : List Byte) (n : Nat) : (s.loadSpad c o l).die n = s.die n := rfl
@[simp] theorem State.loadSpad_core (s : State) (c o : Nat) (l : List Byte) (n : Nat) : (s.loadSpad c o l).core n = s.core n := rfl
@[simp] theorem State.loadSpad_slice (s : State) (c o : Nat) (l : List Byte) (n : Nat) : (s.loadSpad c o l).slice n = s.slice n := rfl
@[simp] theorem State.loadSpad_stack (s : State) (c o : Nat) (l : List Byte) (n : Nat) : (s.loadSpad c o l).stack n = s.stack n := rfl
@[simp] theorem State.loadSpad_memByte (s : State) (c o : Nat) (l : List Byte) (n : Nat) : (s.loadSpad c o l).memByte n = s.memByte n := rfl
@[simp] theorem State.loadSpad_hostByte (s : State) (c o : Nat) (l : List Byte) (n : Nat) : (s.loadSpad c o l).hostByte n = s.hostByte n := rfl
@[simp] theorem State.loadSpad_now (s : State) (c o : Nat) (l : List Byte) (n : Nat) : (s.loadSpad c o l).now n = s.now n := rfl

/-! ## modSplit -/

@[simp] theorem State.modSplit_cycle (s : State) (g b : Nat) (f : Split → Split) : (s.modSplit g b f).cycle = s.cycle := rfl
@[simp] theorem State.modSplit_ptp (s : State) (g b : Nat) (f : Split → Split) : (s.modSplit g b f).ptp = s.ptp := rfl
@[simp] theorem State.modSplit_dies (s : State) (g b : Nat) (f : Split → Split) : (s.modSplit g b f).dies = s.dies := rfl
@[simp] theorem State.modSplit_cores (s : State) (g b : Nat) (f : Split → Split) : (s.modSplit g b f).cores = s.cores := rfl
@[simp] theorem State.modSplit_slices (s : State) (g b : Nat) (f : Split → Split) : (s.modSplit g b f).slices = s.slices := rfl
@[simp] theorem State.modSplit_hbm (s : State) (g b : Nat) (f : Split → Split) : (s.modSplit g b f).hbm = s.hbm := rfl
@[simp] theorem State.modSplit_m (s : State) (g b : Nat) (f : Split → Split) : (s.modSplit g b f).m = s.m := rfl
@[simp] theorem State.modSplit_mem (s : State) (g b : Nat) (f : Split → Split) : (s.modSplit g b f).mem = s.mem := rfl
@[simp] theorem State.modSplit_hostMem (s : State) (g b : Nat) (f : Split → Split) : (s.modSplit g b f).hostMem = s.hostMem := rfl
@[simp] theorem State.modSplit_spad (s : State) (g b : Nat) (f : Split → Split) : (s.modSplit g b f).spad = s.spad := rfl
@[simp] theorem State.modSplit_tile (s : State) (g b : Nat) (f : Split → Split) : (s.modSplit g b f).tile = s.tile := rfl
@[simp] theorem State.modSplit_nextGid (s : State) (g b : Nat) (f : Split → Split) : (s.modSplit g b f).nextGid = s.nextGid := rfl
@[simp] theorem State.modSplit_nextWg (s : State) (g b : Nat) (f : Split → Split) : (s.modSplit g b f).nextWg = s.nextWg := rfl
@[simp] theorem State.modSplit_nextJob (s : State) (g b : Nat) (f : Split → Split) : (s.modSplit g b f).nextJob = s.nextJob := rfl
@[simp] theorem State.modSplit_cur (s : State) (g b : Nat) (f : Split → Split) : (s.modSplit g b f).cur = s.cur := rfl
@[simp] theorem State.modSplit_agenda (s : State) (g b : Nat) (f : Split → Split) : (s.modSplit g b f).agenda = s.agenda := rfl
@[simp] theorem State.modSplit_free (s : State) (g b : Nat) (f : Split → Split) : (s.modSplit g b f).free = s.free := rfl
@[simp] theorem State.modSplit_die (s : State) (g b : Nat) (f : Split → Split) (n : Nat) : (s.modSplit g b f).die n = s.die n := rfl
@[simp] theorem State.modSplit_core (s : State) (g b : Nat) (f : Split → Split) (n : Nat) : (s.modSplit g b f).core n = s.core n := rfl
@[simp] theorem State.modSplit_slice (s : State) (g b : Nat) (f : Split → Split) (n : Nat) : (s.modSplit g b f).slice n = s.slice n := rfl
@[simp] theorem State.modSplit_stack (s : State) (g b : Nat) (f : Split → Split) (n : Nat) : (s.modSplit g b f).stack n = s.stack n := rfl
@[simp] theorem State.modSplit_memByte (s : State) (g b : Nat) (f : Split → Split) (n : Nat) : (s.modSplit g b f).memByte n = s.memByte n := rfl
@[simp] theorem State.modSplit_hostByte (s : State) (g b : Nat) (f : Split → Split) (n : Nat) : (s.modSplit g b f).hostByte n = s.hostByte n := rfl
@[simp] theorem State.modSplit_spadByte (s : State) (g b : Nat) (f : Split → Split) (n o : Nat) : (s.modSplit g b f).spadByte n o = s.spadByte n o := rfl
@[simp] theorem State.modSplit_now (s : State) (g b : Nat) (f : Split → Split) (n : Nat) : (s.modSplit g b f).now n = s.now n := rfl

/-! ## The part that an update changes -/

theorem State.modDie_die (s : State) (d e : Nat) (f : Die → Die) :
    (s.modDie d f).die e = if d = e then f (s.die d) else s.die e := Tbl.get_put _ _ _ _ _

theorem State.modCore_core (s : State) (c e : Nat) (f : Core → Core) :
    (s.modCore c f).core e = if c = e then f (s.core c) else s.core e := Tbl.get_put _ _ _ _ _

theorem State.modSlice_slice (s : State) (t u : Nat) (f : Slice → Slice) :
    (s.modSlice t f).slice u = if t = u then f (s.slice t) else s.slice u := Tbl.get_put _ _ _ _ _

theorem State.modStack_stack (s : State) (k n : Nat) (f : Stack → Stack) :
    (s.modStack k f).stack n = if k = n then f (s.stack k) else s.stack n := Tbl.get_put _ _ _ _ _

@[simp] theorem State.modDie_die_self (s : State) (d : Nat) (f : Die → Die) : (s.modDie d f).die d = f (s.die d) := by
  simp [State.modDie_die]

@[simp] theorem State.modCore_core_self (s : State) (c : Nat) (f : Core → Core) : (s.modCore c f).core c = f (s.core c) := by
  simp [State.modCore_core]

@[simp] theorem State.modSlice_slice_self (s : State) (t : Nat) (f : Slice → Slice) :
    (s.modSlice t f).slice t = f (s.slice t) := by simp [State.modSlice_slice]

@[simp] theorem State.modStack_stack_self (s : State) (k : Nat) (f : Stack → Stack) :
    (s.modStack k f).stack k = f (s.stack k) := by simp [State.modStack_stack]

@[simp] theorem State.modM_m (s : State) (f : Module → Module) : (s.modM f).m = f s.m := rfl

@[simp] theorem State.post_agenda (s : State) (i : Instr) : (s.post i).agenda = s.agenda ++ [i] := rfl

/-- A group after a group is changed. -/
theorem State.find_modGroup (s : State) (g h : Nat) (f : Group → Group) :
    Tbl.find (s.modGroup g f).groups h = if g = h then (Tbl.find s.groups h).map f else Tbl.find s.groups h :=
  Tbl.find_upd _ _ _ _

theorem State.group_of_find {s : State} {gid : Nat} {g : Group} (h : Tbl.find s.groups gid = some g) : s.group gid = g := by
  simp [State.group, Tbl.get_eq, h]

theorem State.group_modGroup {s : State} {gid : Nat} {g : Group} (f : Group → Group) (h : Tbl.find s.groups gid = some g) :
    (s.modGroup gid f).group gid = f g := by
  simp [State.group, Tbl.get_eq, State.find_modGroup, h]

/-- Bytes of device memory after a write. -/
theorem State.memByte_setMem (s : State) (a b : Nat) (l : List Byte) :
    (s.setMem a l).memByte b = if a ≤ b ∧ b < a + l.length then l.getD (b - a) 0 else s.memByte b :=
  Memory.read_writeList _ _ _ _ _

theorem State.hostByte_setHost (s : State) (a b : Nat) (l : List Byte) :
    (s.setHost a l).hostByte b = if a ≤ b ∧ b < a + l.length then l.getD (b - a) 0 else s.hostByte b :=
  Memory.read_writeList _ _ _ _ _

theorem State.mem_wf_setMem (s : State) (a : Nat) (l : List Byte) (h : Memory.wf memDefault s.mem = true) :
    Memory.wf memDefault (s.setMem a l).mem = true := Memory.wf_writeList _ _ _ _ h

theorem State.hostMem_wf_setHost (s : State) (a : Nat) (l : List Byte) (h : Memory.wf zeroDefault s.hostMem = true) :
    Memory.wf zeroDefault (s.setHost a l).hostMem = true := Memory.wf_writeList _ _ _ _ h

theorem State.spad_wf_loadSpad (s : State) (c o : Nat) (l : List Byte) (h : Memory.wf zeroDefault s.spad = true) :
    Memory.wf zeroDefault (s.loadSpad c o l).spad = true := Memory.wf_writeList _ _ _ _ h

end Sys2Proof.Machine
end

