-- ==== Sys2Proof/Laws/Issue.lean ====
section
/-! SUPPORT. The issue of an instruction: what begin_ answers when a split issues, what issue itself changes (charge, counts,
sample, split), and what every result write of a context can do. -/

namespace Sys2Proof.Safety

open Machine

variable {i : Instr} {s t : State} {gid : Nat} {g : Group} {p : Split}

/-- A split that issues is in the middle of no form. -/
theorem Issues.noWait (h : Issues i s gid g p) : p.wait = none := by
  have hr := h.ready
  unfold State.ready at hr
  have h4 := (Bool.and_eq_true_iff.mp hr).1
  unfold State.ready4 at h4
  simp only [Bool.and_eq_true] at h4
  have h1 := h4.1.1.1.1.1.1.1
  unfold State.live1 at h1
  simp only [Bool.and_eq_true] at h1
  exact Option.isNone_iff_eq_none.mp h1.1.1.1.1.2

/-- What begin_ answers for a split that issues. -/
theorem begin_of_issues (h : Issues i s gid g p) : begin_ i s = .go (ctx i s gid g p) (afterIssue i s gid g p) := by
  unfold begin_
  rw [h.cur]
  simp only [h.group, h.split, h.noWait, h.legal, ne_eq, not_true_eq_false, if_false, h.ready, h.powered, Bool.and_self, Bool.not_true,
    h.pays, Bool.false_eq_true]
  rfl

/-- The scoreboard check of a split that issues passes. -/
theorem checked_of_issues (h : Issues i s gid g p) (r : Res) : (ctx i s gid g p).checked r = r := by
  have hc : (ctx i s gid g p).unsettled = false := h.clean
  simp [Cx.checked, hc]

/-- The outcome of an instruction that issues. -/
theorem issue_of_issues (h : Issues i s gid g p) (body : Cx → State → Res) :
    issue i s body = match body (ctx i s gid g p) (afterIssue i s gid g p) with
      | .ok u => .next u
      | .trap r => .next (State.takeTrap { s with cur := none } gid p.born r)
      | .hold => .next ((afterIssue i s gid g p).defer (ctx i s gid g p)) := by
  unfold issue
  rw [begin_of_issues h]
  simp only [checked_of_issues h]
  rfl

/-- An instruction that issues and has its effect. -/
theorem ok_of {body : Cx → State → Res} {u : State} (e : exec i s = issue i s body)
    (hb : body (ctx i s gid g p) (afterIssue i s gid g p) = .ok u) (h : Issues i s gid g p) : exec i s = .next u := by
  rw [e, issue_of_issues h, hb]

/-- An instruction that would issue and raises a cause of its own. -/
theorem trap_of {body : Cx → State → Res} {r : TrapInfo} (e : exec i s = issue i s body)
    (hb : body (ctx i s gid g p) (afterIssue i s gid g p) = .trap r) (h : Issues i s gid g p) :
    exec i s = .next (State.takeTrap { s with cur := none } gid p.born r) := by
  rw [e, issue_of_issues h, hb]

/-! ## What issue itself changes -/


/-- The parts of the state that the charge, the counts and the sample of an issue leave alone. -/
structure SameButCounts (s t : State) : Prop where
  mem : t.mem = s.mem
  hostMem : t.hostMem = s.hostMem
  spad : t.spad = s.spad
  tile : t.tile = s.tile
  groups : t.groups = s.groups
  cycle : t.cycle = s.cycle
  m : t.m = s.m
  agenda : t.agenda = s.agenda
  cur : t.cur = s.cur
  free : t.free = s.free
  lines : ∀ c, (t.core c).lines = (s.core c).lines
  unpub : ∀ d, (t.die d).unpub = (s.die d).unpub
  cyc : ∀ d, (t.die d).cyc = (s.die d).cyc

theorem SameButCounts.refl (s : State) : SameButCounts s s := by constructor <;> intros <;> rfl

theorem SameButCounts.trans {s t u : State} (a : SameButCounts s t) (b : SameButCounts t u) : SameButCounts s u := by
  constructor
  · rw [b.mem, a.mem]
  · rw [b.hostMem, a.hostMem]
  · rw [b.spad, a.spad]
  · rw [b.tile, a.tile]
  · rw [b.groups, a.groups]
  · rw [b.cycle, a.cycle]
  · rw [b.m, a.m]
  · rw [b.agenda, a.agenda]
  · rw [b.cur, a.cur]
  · rw [b.free, a.free]
  · intro c; rw [b.lines, a.lines]
  · intro d; rw [b.unpub, a.unpub]
  · intro d; rw [b.cyc, a.cyc]

theorem sameButCounts_modCore (s : State) (c : Nat) (f : Core → Core) (h : ∀ x, (f x).lines = x.lines) :
    SameButCounts s (s.modCore c f) := by
  constructor <;> intros <;> try rfl
  rw [State.modCore_core]
  split
  · subst_vars; exact h _
  · rfl

theorem sameButCounts_modDie (s : State) (d : Nat) (f : Die → Die) (h : ∀ x, (f x).unpub = x.unpub)
    (hc : ∀ x, (f x).cyc = x.cyc) : SameButCounts s (s.modDie d f) := by
  constructor <;> intros <;> try rfl
  · rw [State.modDie_die]
    split
    · subst_vars; exact h _
    · rfl
  · rw [State.modDie_die]
    split
    · subst_vars; exact hc _
    · rfl

theorem sameButCounts_modSlice (s : State) (n : Nat) (f : Slice → Slice) : SameButCounts s (s.modSlice n f) := by
  constructor <;> intros <;> rfl

theorem sameButCounts_trace (s : State) (g : Group) (a b c d e f : Nat) : SameButCounts s (s.trace g a b c d e f) := by
  unfold State.trace
  split
  · exact sameButCounts_modSlice _ _ _
  · exact .refl s

theorem sameButCounts_charge (s : State) (g : Group) (i : Instr) : SameButCounts s (s.charge g i) := by
  unfold State.charge
  simp only
  split
  · exact sameButCounts_modCore _ _ _ (fun _ => rfl)
  · refine SameButCounts.trans ?_ (sameButCounts_modDie _ _ _ ?_ ?_)
    · exact sameButCounts_modCore _ _ _ (fun _ => rfl)
    · intro _; rfl
    · intro _; rfl

theorem sameButCounts_sample (s : State) (g : Group) (p : Split) (i : Instr) : SameButCounts s (s.sample g p i) := by
  unfold State.sample
  simp only
  split
  · exact .refl s
  · split
    · refine SameButCounts.trans ?_ (sameButCounts_trace _ _ _ _ _ _ _ _)
      exact sameButCounts_modCore _ _ _ (fun _ => rfl)
    · exact sameButCounts_modCore s g.core _ (fun _ => rfl)

/-- The issuing group after issue itself. -/
def issuedGroup (i : Instr) (s : State) (g : Group) (p : Split) : Group :=
  { g.modSplit p.born (fun q => issuedSplit q (s.now g.core) (view i).w (instrLen i)) with
      lastCyc := s.now g.core, count_ := g.count_ + 1 }

/-- The state before the group itself is changed. -/
theorem sameButCounts_issue (s : State) (g : Group) (p : Split) (i : Instr) :
    SameButCounts s (((s.charge g i).countWatch g).sample g p i) :=
  (sameButCounts_charge s g i).trans ((sameButCounts_modSlice _ _ _).trans (sameButCounts_sample _ _ _ _))

/-- The state that issue itself leaves, but for the issuing group. -/
def beforeGroup (i : Instr) (s : State) (g : Group) (p : Split) : State :=
  (((State.charge { s with cur := none } g i).countWatch g).sample g p i)

theorem after_eq (i : Instr) (s : State) (gid : Nat) (g : Group) (p : Split) :
    afterIssue i s gid g p = { (beforeGroup i s g p).modGroup gid (fun h =>
      { h.modSplit p.born (fun q => issuedSplit q (s.now g.core) (view i).w (instrLen i)) with
          lastCyc := s.now g.core, count_ := h.count_ + 1 }) with free := s.free + 1 } := rfl

theorem after_groups (h : Tbl.find s.groups gid = some g) (k : Nat) :
    Tbl.find (afterIssue i s gid g p).groups k = if gid = k then some (issuedGroup i s g p) else Tbl.find s.groups k := by
  have e : (beforeGroup i s g p).groups = s.groups := (sameButCounts_issue { s with cur := none } g p i).groups
  rw [after_eq]
  show Tbl.find (Tbl.upd (beforeGroup i s g p).groups gid _) k = _
  rw [Tbl.find_upd, e]
  split
  · subst_vars
    rw [h]; rfl
  · rfl

theorem sameMemory_of {s b : State} (e : SameButCounts s b) (gid n : Nat) (f : Group → Group) :
    SameMemory s { b.modGroup gid f with free := n } := by
  constructor
  · intro a; exact congrArg (Memory.read memDefault · a) e.mem
  · intro a; exact congrArg (Memory.read zeroDefault · a) e.hostMem
  · intro c o; exact congrArg (Memory.read zeroDefault · (spadKey c o)) e.spad
  · exact e.tile
  · exact e.lines
  · exact e.unpub

theorem after_same (i : Instr) (s : State) (gid : Nat) (g : Group) (p : Split) : SameMemory s (afterIssue i s gid g p) := by
  have h : SameMemory { s with cur := none } (afterIssue i s gid g p) := by
    rw [after_eq]
    exact sameMemory_of (sameButCounts_issue { s with cur := none } g p i) _ _ _
  exact ⟨h.mem, h.host, h.spad, h.tile, h.lines, h.unpub⟩

theorem SameMemory.trans {s t u : State} (a : SameMemory s t) (b : SameMemory t u) : SameMemory s u := by
  constructor <;> intros
  · rw [b.mem, a.mem]
  · rw [b.host, a.host]
  · rw [b.spad, a.spad]
  · rw [b.tile, a.tile]
  · rw [b.lines, a.lines]
  · rw [b.unpub, a.unpub]

theorem sameMemory_modGroup (s : State) (n : Nat) (f : Group → Group) : SameMemory s (s.modGroup n f) := by
  constructor <;> intros <;> rfl

/-! ## Register files -/

@[simp] theorem vReg_setV (g : Group) (n l m k : Nat) (v : Word) (hl : l < 32) (hk : k < 32) :
    (g.setV n l v).vReg m k = if n = m ∧ l = k then v else g.vReg m k := by
  simp only [Group.setV, Group.vReg, Tbl.get_set]
  by_cases h : n = m ∧ l = k
  · rw [if_pos h, if_pos (by omega)]
  · rw [if_neg h, if_neg (by omega)]

/-- What the writes of lanes leave of a group. -/
structure SameButV (g g' : Group) : Prop where
  s : g'.s = g.s
  p : g'.p = g.p
  splits : g'.splits = g.splits
  fmode : g'.fmode = g.fmode
  rest : rest g' = rest g

theorem setLanes_same (g : Group) (n : Nat) (f : Nat → Word) (ls : List Nat) : SameButV g (g.setLanes n f ls) := by
  induction ls generalizing g with
  | nil => exact ⟨rfl, rfl, rfl, rfl, rfl⟩
  | cons l r ih =>
    have h := ih (g.setV n l (f l))
    exact ⟨h.s, h.p, h.splits, h.fmode, h.rest⟩

/-- A lane register after values are written in some lanes. -/
theorem vReg_setLanes (g : Group) (n m k : Nat) (f : Nat → Word) (ls : List Nat) (hk : k < 32) (hl : ∀ l ∈ ls, l < 32) :
    (g.setLanes n f ls).vReg m k = if n = m ∧ k ∈ ls then f k else g.vReg m k := by
  induction ls generalizing g with
  | nil => simp [Group.setLanes]
  | cons l r ih =>
    simp only [Group.setLanes]
    rw [ih _ (fun x hx => hl x (by simp [hx])), vReg_setV _ _ _ _ _ _ (hl l (by simp)) hk]
    by_cases h1 : n = m ∧ k ∈ r
    · rw [if_pos h1, if_pos ⟨h1.1, by simp [h1.2]⟩]
    · rw [if_neg h1]
      by_cases h2 : n = m ∧ l = k
      · rw [if_pos h2, if_pos ⟨h2.1, by simp [h2.2]⟩, h2.2]
      · rw [if_neg h2, if_neg]
        rintro ⟨h3, h4⟩
        rcases List.mem_cons.mp h4 with h5 | h5
        · exact h2 ⟨h3, h5.symm⟩
        · exact h1 ⟨h3, h5⟩

theorem lanes_lt (c : Cx) : ∀ l ∈ c.lanes, l < 32 := by
  intro l hl
  exact List.mem_range.mp (List.mem_filter.mp hl).1

theorem mem_lanes (c : Cx) (l : Nat) : l ∈ c.lanes ↔ c.mask.getLsbD l = true := mem_lanesOf _ _

@[simp] theorem sReg_setS (g : Group) (n m : Nat) (v : Word) : (g.setS n v).sReg m = if n = m then v else g.sReg m := by
  simp [Group.setS, Group.sReg, Tbl.get_set]

theorem pReg_setP (g : Group) (n m : Nat) (v : Word) :
    (g.setP n v).pReg m = if m = 7 then 0xFFFFFFFF else if n = m then v else g.pReg m := by
  unfold Group.setP Group.pReg
  by_cases h : m = 7
  · simp [h]
  · simp only [h, if_false]
    split
    · subst_vars
      rw [if_neg]; omega
    · simp [Tbl.get_set]

@[simp] theorem setP_v (g : Group) (n : Nat) (v : Word) : (g.setP n v).v = g.v := by unfold Group.setP; split <;> rfl
@[simp] theorem setP_s (g : Group) (n : Nat) (v : Word) : (g.setP n v).s = g.s := by unfold Group.setP; split <;> rfl
@[simp] theorem setP_splits (g : Group) (n : Nat) (v : Word) : (g.setP n v).splits = g.splits := by
  unfold Group.setP; split <;> rfl
@[simp] theorem setP_fmode (g : Group) (n : Nat) (v : Word) : (g.setP n v).fmode = g.fmode := by
  unfold Group.setP; split <;> rfl
@[simp] theorem setP_rest (g : Group) (n : Nat) (v : Word) : rest (g.setP n v) = rest g := by
  unfold Group.setP; split <;> rfl

theorem mergeMask_getLsbD (m old new : Word) (l : Nat) (hl : l < 32) :
    (mergeMask m old new).getLsbD l = if m.getLsbD l then new.getLsbD l else old.getLsbD l := by
  simp only [mergeMask, BitVec.getLsbD_or, BitVec.getLsbD_and, BitVec.getLsbD_not, hl, decide_true, Bool.true_and]
  cases m.getLsbD l <;> simp

/-! ## The state after a register result -/

/-- A state that differs from the one after issue itself only in register files, windows and FMODE of the group. -/
structure Wrote (ex : List Nat) (i : Instr) (s t : State) (gid : Nat) (g : Group) (p : Split) : Prop where
  memory : SameMemory s t
  groups : ∀ h, h ≠ gid → Tbl.find t.groups h = Tbl.find s.groups h
  found : Tbl.find t.groups gid = some (t.group gid)
  regs : KeepsRegs ex g (t.group gid)
  splits : (t.group gid).splits = (issuedGroup i s g p).splits
  rest : KeepsRest g (t.group gid)

theorem after_group (h : Tbl.find s.groups gid = some g) : (afterIssue i s gid g p).group gid = issuedGroup i s g p :=
  State.group_of_find (by rw [after_groups h, if_pos rfl])

theorem wrote_after (h : Issues i s gid g p) : Wrote [] i s (afterIssue i s gid g p) gid g p := by
  have e := after_groups (i := i) (p := p) h.group
  have e2 := after_group (i := i) (p := p) h.group
  constructor
  · exact after_same _ _ _ _ _
  · intro k hk; rw [e, if_neg (Ne.symm hk)]
  · rw [e, if_pos rfl, e2]
  · rw [e2]; constructor <;> intros <;> rfl
  · rw [e2]
  · rw [e2]; rfl

/-- A change of register files, windows and FMODE of the group. -/
theorem Wrote.modGroup {ex ex' : List Nat} (w : Wrote ex i s t gid g p) (f : Group → Group)
    (hs : (f (t.group gid)).splits = (t.group gid).splits) (he : Safety.rest (f (t.group gid)) = Safety.rest (t.group gid))
    (hr : KeepsRegs ex' (t.group gid) (f (t.group gid))) (h1 : ∀ n ∈ ex, n ∈ ex') :
    Wrote ex' i s (t.modGroup gid f) gid g p := by
  have e : (t.modGroup gid f).group gid = f (t.group gid) := State.group_modGroup f w.found
  constructor
  · exact w.memory.trans (sameMemory_modGroup _ _ _)
  · intro k hk
    rw [State.find_modGroup, if_neg (Ne.symm hk), w.groups k hk]
  · rw [State.find_modGroup, if_pos rfl, w.found, e]; rfl
  · rw [e]
    constructor
    · intro n hn hx l hl
      rw [hr.v n hn hx l hl, w.regs.v n hn (fun h => hx (h1 n h)) l hl]
    · intro n hn hx
      rw [hr.s n hn hx, w.regs.s n hn (fun h => hx (h1 _ h))]
    · intro n hn hx
      rw [hr.p n hn hx, w.regs.p n hn (fun h => hx (h1 _ h))]
  · rw [e, hs, w.splits]
  · unfold KeepsRest; rw [e, he]; exact w.rest

theorem Wrote.regsOnly {ex : List Nat} (w : Wrote ex i s t gid g p) : RegsOnly ex s t gid g :=
  ⟨w.memory, w.groups, w.regs, w.rest⟩

/-- A longer list of registers that may change. -/
theorem Wrote.weaken {ex ex' : List Nat} (w : Wrote ex i s t gid g p) (h : ∀ n ∈ ex, n ∈ ex') : Wrote ex' i s t gid g p :=
  ⟨w.memory, w.groups, w.found,
    ⟨fun n hn hx => w.regs.v n hn (fun a => hx (h n a)), fun n hn hx => w.regs.s n hn (fun a => hx (h _ a)),
      fun n hn hx => w.regs.p n hn (fun a => hx (h _ a))⟩, w.splits, w.rest⟩

theorem split_find {g g' : Group} (h : g'.splits = g.splits) (b : Nat) : g'.split? b = g.split? b := by
  unfold Group.split?; rw [h]

theorem Wrote.goesOn {ex : List Nat} (w : Wrote ex i s t gid g p) (hs : g.split? p.born = some p) :
    GoesOn i s g p (t.group gid) := by
  have hb : ∀ b, (t.group gid).split? b =
      (g.modSplit p.born (fun q => issuedSplit q (s.now g.core) (view i).w (instrLen i))).split? b :=
    fun b => split_find w.splits b
  have hm := fun b => Group.split?_modSplit g p.born b
    (fun q => issuedSplit q (s.now g.core) (view i).w (instrLen i)) (fun _ => rfl)
  constructor
  · refine ⟨issuedSplit p (s.now g.core) (view i).w (instrLen i), ?_, rfl, rfl, rfl, rfl, rfl, rfl⟩
    rw [hb, hm, if_pos rfl, hs]; rfl
  · intro b hne
    rw [hb, hm, if_neg (Ne.symm hne)]

theorem fmode_after (h : Issues i s gid g p) : ((afterIssue i s gid g p).group gid).fmode = g.fmode := by
  rw [after_group h.group]; rfl

theorem vReg_after (h : Issues i s gid g p) (n l : Nat) : ((afterIssue i s gid g p).group gid).vReg n l = g.vReg n l := by
  rw [after_group h.group]; rfl

theorem pReg_after (h : Issues i s gid g p) (n : Nat) : ((afterIssue i s gid g p).group gid).pReg n = g.pReg n := by
  rw [after_group h.group]; rfl

/-- What the changes of a group by the result writes of a context are. -/
theorem flags_eq (c : Cx) (hc : c.gid = gid) (t : State) (fl : Nat) :
    c.flags t fl = t.modGroup gid (fun g => { g with fmode := g.fmode ||| BitVec.ofNat 32 (fl % 32 * 256) }) := by
  subst hc; rfl

/-- Flags raised after a result. -/
theorem Wrote.flags {ex : List Nat} (w : Wrote ex i s t gid g p) (c : Cx) (hc : c.gid = gid) (fl : Nat) :
    Wrote ex i s (c.flags t fl) gid g p := by
  rw [flags_eq c hc]
  exact w.modGroup _ rfl rfl (by constructor <;> intros <;> rfl) (fun _ h => h)

theorem flags_group {c : Cx} (hc : c.gid = gid) (hf : Tbl.find t.groups gid = some (t.group gid)) (fl : Nat) :
    (c.flags t fl).group gid = { t.group gid with fmode := (t.group gid).fmode ||| BitVec.ofNat 32 (fl % 32 * 256) } := by
  rw [flags_eq c hc, State.group_modGroup _ hf]

theorem flags_vReg {c : Cx} (hc : c.gid = gid) (hf : Tbl.find t.groups gid = some (t.group gid)) (fl n l : Nat) :
    ((c.flags t fl).group gid).vReg n l = (t.group gid).vReg n l := by
  rw [flags_group hc hf]; unfold Group.vReg; rfl

theorem flags_sReg {c : Cx} (hc : c.gid = gid) (hf : Tbl.find t.groups gid = some (t.group gid)) (fl n : Nat) :
    ((c.flags t fl).group gid).sReg n = (t.group gid).sReg n := by
  rw [flags_group hc hf]; unfold Group.sReg; rfl

theorem flags_pReg {c : Cx} (hc : c.gid = gid) (hf : Tbl.find t.groups gid = some (t.group gid)) (fl n : Nat) :
    ((c.flags t fl).group gid).pReg n = (t.group gid).pReg n := by
  rw [flags_group hc hf]; unfold Group.pReg; rfl

theorem flags_fmode {c : Cx} (hc : c.gid = gid) (hf : Tbl.find t.groups gid = some (t.group gid)) (fl : Nat) :
    ((c.flags t fl).group gid).fmode = (t.group gid).fmode ||| BitVec.ofNat 32 (fl % 32 * 256) := by
  rw [flags_group hc hf]

theorem lanesOf_lt (m : Word) : ∀ l ∈ lanesOf m, l < 32 := by
  intro l hl
  exact List.mem_range.mp (List.mem_filter.mp hl).1

/-- A lane result, of class F or V. -/
theorem Wrote.toLanes {ex : List Nat} (w : Wrote ex i s t gid g p) (c : Cx) (hc : c.gid = gid) (x : Bool) (n : Nat) (f : Nat → Word) :
    Wrote (n :: ex) i s (c.toLanes x t n f) gid g p := by
  unfold Cx.toLanes
  rw [hc]
  refine w.modGroup _ ?_ ?_ ?_ (fun m hm => List.mem_cons_of_mem _ hm)
  · exact (setLanes_same _ _ _ _).splits
  · exact (setLanes_same _ _ _ _).rest
  · constructor
    · intro m _ hx l hl
      rw [vReg_setLanes _ _ _ _ _ _ hl (lanesOf_lt _), if_neg]
      · rfl
      · rintro ⟨rfl, _⟩; exact hx (by simp)
    · intro m _ _
      unfold Group.sReg; rw [(setLanes_same _ _ _ _).s]; rfl
    · intro m _ _
      unfold Group.pReg; rw [(setLanes_same _ _ _ _).p]; rfl

theorem toLanes_group {c : Cx} (hc : c.gid = gid) (hf : Tbl.find t.groups gid = some (t.group gid)) (x : Bool) (n : Nat)
    (f : Nat → Word) (m l : Nat) (hl : l < 32) : ((c.toLanes x t n f).group gid).vReg m l =
      if n = m ∧ (c.spread n).getLsbD l = true then c.put n l (f l) else (t.group gid).vReg m l := by
  unfold Cx.toLanes
  rw [hc, State.group_modGroup _ hf, vReg_setLanes _ _ _ _ _ _ hl (lanesOf_lt _)]
  simp only [mem_lanesOf]
  rfl

theorem toLanes_fmode {c : Cx} (hc : c.gid = gid) (hf : Tbl.find t.groups gid = some (t.group gid)) (x : Bool) (n : Nat)
    (f : Nat → Word) : ((c.toLanes x t n f).group gid).fmode = (t.group gid).fmode := by
  unfold Cx.toLanes
  rw [hc, State.group_modGroup _ hf, (setLanes_same _ _ _ _).fmode]; rfl

/-- A group-scalar result, of class F or V. -/
theorem Wrote.toScalar {ex : List Nat} (w : Wrote ex i s t gid g p) (c : Cx) (hc : c.gid = gid) (x : Bool) (n : Nat) (v : Word) :
    Wrote ((64 + n) :: ex) i s (c.toScalar x t n v) gid g p := by
  unfold Cx.toScalar
  rw [hc]
  refine w.modGroup _ ?_ ?_ ?_ (fun m hm => List.mem_cons_of_mem _ hm)
  · rfl
  · rfl
  constructor
  · intro m _ _ l _; rfl
  · intro m _ hx
    rw [sReg_setS, if_neg]
    · rfl
    · rintro rfl; exact hx (by simp)
  · intro m _ _; rfl

theorem toScalar_group {c : Cx} (hc : c.gid = gid) (hf : Tbl.find t.groups gid = some (t.group gid)) (x : Bool) (n m : Nat) (v : Word) :
    ((c.toScalar x t n v).group gid).sReg m = if n = m then c.put (64 + n) 0 v else (t.group gid).sReg m := by
  unfold Cx.toScalar
  rw [hc, State.group_modGroup _ hf, sReg_setS]
  rfl

theorem toScalar_fmode {c : Cx} (hc : c.gid = gid) (hf : Tbl.find t.groups gid = some (t.group gid)) (x : Bool) (n : Nat) (v : Word) :
    ((c.toScalar x t n v).group gid).fmode = (t.group gid).fmode := by
  unfold Cx.toScalar; rw [hc, State.group_modGroup _ hf]; rfl

/-- A predicate result, of class F or V. -/
theorem Wrote.toPred {ex : List Nat} (w : Wrote ex i s t gid g p) (c : Cx) (hc : c.gid = gid) (x : Bool) (n : Nat) (f : Nat → Bool) :
    Wrote ((96 + n) :: ex) i s (c.toPred x t n f) gid g p := by
  unfold Cx.toPred
  split
  · exact w.weaken (fun m hm => List.mem_cons_of_mem _ hm)
  · rw [hc]
    refine w.modGroup _ ?_ ?_ ?_ (fun m hm => List.mem_cons_of_mem _ hm)
    · rw [setP_splits]; rfl
    · rw [setP_rest]; rfl
    · constructor
      · intro m _ _ l _; unfold Group.vReg; rw [setP_v]; rfl
      · intro m _ _; unfold Group.sReg; rw [setP_s]; rfl
      · intro m _ hx
        rw [pReg_setP]
        have hn : n ≠ m := by rintro rfl; exact hx (by simp)
        rw [if_neg hn]
        unfold Group.pReg
        split <;> rfl

theorem toPred_group {c : Cx} (hc : c.gid = gid) (hf : Tbl.find t.groups gid = some (t.group gid)) (x : Bool) (n : Nat)
    (f : Nat → Bool) (l : Nat) (hl : l < 32) : (((c.toPred x t n f).group gid).pReg n).getLsbD l =
      if n = 7 then true
      else if (c.spread (96 + n)).getLsbD l then (c.put (96 + n) l (BitVec.ofNat 32 (b2n (f l)))).getLsbD 0
      else ((t.group gid).pReg n).getLsbD l := by
  unfold Cx.toPred
  by_cases h : n = 7
  · subst h
    unfold Group.pReg
    simp only [if_true]
    interval_cases l <;> rfl
  · simp only [h, if_false]
    rw [hc, State.group_modGroup _ hf, pReg_setP]
    simp only [h, if_false, if_true]
    rw [mergeMask_getLsbD _ _ _ _ hl]
    split
    · rw [maskWhere_getLsbD]; simp [hl]
    · rfl

theorem toPred_fmode {c : Cx} (hc : c.gid = gid) (hf : Tbl.find t.groups gid = some (t.group gid)) (x : Bool) (n : Nat)
    (f : Nat → Bool) : ((c.toPred x t n f).group gid).fmode = (t.group gid).fmode := by
  unfold Cx.toPred
  split
  · rfl
  · rw [hc, State.group_modGroup _ hf, setP_fmode]; rfl

/-! ## Results, once for each shape -/

theorem sReg_after (h : Issues i s gid g p) (n : Nat) : ((afterIssue i s gid g p).group gid).sReg n = g.sReg n := by
  rw [after_group h.group]; rfl

section
variable (hi : Issues i s gid g p) (c : Cx) (hg : c.gid = gid) (hcg : c.g = g) (n fl : Nat)
include hi hg

/-- Flags after a result that left FMODE alone. -/
theorem withFlags {ex : List Nat} (w : Wrote ex i s t gid g p) (hf : (t.group gid).fmode = g.fmode) :
    FlagsRaised g ((c.flags t fl).group gid) fl ∧ RegsOnly ex s (c.flags t fl) gid g ∧
      GoesOn i s g p ((c.flags t fl).group gid) := by
  have w2 := w.flags c hg fl
  refine ⟨?_, w2.regsOnly, w2.goesOn hi.split⟩
  unfold FlagsRaised
  rw [flags_fmode hg w.found, hf]

omit hg in
/-- No flags. -/
theorem withoutFlags {ex : List Nat} (w : Wrote ex i s t gid g p) (hf : (t.group gid).fmode = g.fmode) :
    FlagsRaised g (t.group gid) 0 ∧ RegsOnly ex s t gid g ∧ GoesOn i s g p (t.group gid) := by
  refine ⟨?_, w.regsOnly, w.goesOn hi.split⟩
  unfold FlagsRaised
  simp [hf]

include hcg in
theorem toLanes_holds (x : Bool) (f : Nat → Word) :
    LaneHolds c ((c.toLanes x (afterIssue i s gid g p) n f).group gid) n f := by
  intro l hl
  rw [toLanes_group hg (wrote_after hi).found _ _ _ _ _ hl, vReg_after hi, hcg]
  simp only [true_and]

include hcg in
theorem toPred_holds (x : Bool) (f : Nat → Bool) :
    PredHolds c ((c.toPred x (afterIssue i s gid g p) n f).group gid) n f := by
  intro l hl
  rw [toPred_group hg (wrote_after hi).found _ _ _ _ hl, pReg_after hi, hcg]

theorem toScalar_holds (x : Bool) (v : Word) :
    ScalarHolds c ((c.toScalar x (afterIssue i s gid g p) n v).group gid) n v := by
  unfold ScalarHolds
  rw [toScalar_group hg (wrote_after hi).found, if_pos rfl]

end

theorem LaneHolds.flags {c : Cx} (hg : c.gid = gid) (hf : Tbl.find t.groups gid = some (t.group gid)) {n fl : Nat}
    {f : Nat → Word} (h : LaneHolds c (t.group gid) n f) : LaneHolds c ((c.flags t fl).group gid) n f := by
  intro l hl; rw [flags_vReg hg hf]; exact h l hl

theorem PredHolds.flags {c : Cx} (hg : c.gid = gid) (hf : Tbl.find t.groups gid = some (t.group gid)) {n fl : Nat}
    {f : Nat → Bool} (h : PredHolds c (t.group gid) n f) : PredHolds c ((c.flags t fl).group gid) n f := by
  intro l hl; rw [flags_pReg hg hf]; exact h l hl

theorem ScalarHolds.flags {c : Cx} (hg : c.gid = gid) (hf : Tbl.find t.groups gid = some (t.group gid)) {n fl : Nat}
    {v : Word} (h : ScalarHolds c (t.group gid) n v) : ScalarHolds c ((c.flags t fl).group gid) n v := by
  unfold ScalarHolds; rw [flags_sReg hg hf]; exact h

variable {n : Cx → Nat} {fl : Cx → Nat}

/-- A lane result of class F with flags, and without. -/
theorem givesLane {val : Cx → Nat → Word}
    (h : ∀ s gid g p, Issues i s gid g p → exec i s = .next ((ctx i s gid g p).flags ((ctx i s gid g p).writeV (afterIssue i s gid g p) (n (ctx i s gid g p)) (val (ctx i s gid g p))) (fl (ctx i s gid g p)))) : GivesLane i n val fl := by
  intro s gid g p hi
  let c := ctx i s gid g p
  have hg : c.gid = gid := rfl
  have w := (wrote_after hi).toLanes c rfl true (n c) (val c)
  refine ⟨c.flags (c.toLanes true (afterIssue i s gid g p) (n c) (val c)) (fl c), h s gid g p hi,
    (toLanes_holds hi c rfl rfl _ true _).flags rfl w.found, ?_⟩
  exact withFlags hi c rfl _ w (by rw [toLanes_fmode hg (wrote_after hi).found, fmode_after hi])

theorem givesLane_plain {val : Cx → Nat → Word}
    (h : ∀ s gid g p, Issues i s gid g p → exec i s = .next ((ctx i s gid g p).writeV (afterIssue i s gid g p) (n (ctx i s gid g p)) (val (ctx i s gid g p)))) : GivesLane i n val := by
  intro s gid g p hi
  let c := ctx i s gid g p
  have hg : c.gid = gid := rfl
  have w := (wrote_after hi).toLanes c rfl true (n c) (val c)
  refine ⟨c.toLanes true (afterIssue i s gid g p) (n c) (val c), h s gid g p hi, toLanes_holds hi c rfl rfl _ true _, ?_⟩
  exact withoutFlags hi w (by rw [toLanes_fmode hg (wrote_after hi).found, fmode_after hi])

/-- A lane result of class V with flags, and without. -/
theorem givesLaneV {val : Cx → Nat → Word}
    (h : ∀ s gid g p, Issues i s gid g p → exec i s = .next ((ctx i s gid g p).flags ((ctx i s gid g p).giveV (afterIssue i s gid g p) (n (ctx i s gid g p)) (val (ctx i s gid g p))) (fl (ctx i s gid g p)))) : GivesLane i n val fl := by
  intro s gid g p hi
  let c := ctx i s gid g p
  have hg : c.gid = gid := rfl
  have w := (wrote_after hi).toLanes c rfl false (n c) (val c)
  refine ⟨c.flags (c.toLanes false (afterIssue i s gid g p) (n c) (val c)) (fl c), h s gid g p hi,
    (toLanes_holds hi c rfl rfl _ false _).flags rfl w.found, ?_⟩
  exact withFlags hi c rfl _ w (by rw [toLanes_fmode hg (wrote_after hi).found, fmode_after hi])

/-- A predicate result with flags, and without. -/
theorem givesPred {val : Cx → Nat → Bool}
    (h : ∀ s gid g p, Issues i s gid g p → exec i s = .next ((ctx i s gid g p).flags ((ctx i s gid g p).writeP (afterIssue i s gid g p) (n (ctx i s gid g p)) (val (ctx i s gid g p))) (fl (ctx i s gid g p)))) : GivesPred i n val fl := by
  intro s gid g p hi
  let c := ctx i s gid g p
  have hg : c.gid = gid := rfl
  have w := (wrote_after hi).toPred c rfl true (n c) (val c)
  refine ⟨c.flags (c.toPred true (afterIssue i s gid g p) (n c) (val c)) (fl c), h s gid g p hi,
    (toPred_holds hi c rfl rfl _ true _).flags rfl w.found, ?_⟩
  exact withFlags hi c rfl _ w (by rw [toPred_fmode hg (wrote_after hi).found, fmode_after hi])

theorem givesPred_plain {val : Cx → Nat → Bool}
    (h : ∀ s gid g p, Issues i s gid g p → exec i s = .next ((ctx i s gid g p).writeP (afterIssue i s gid g p) (n (ctx i s gid g p)) (val (ctx i s gid g p)))) : GivesPred i n val := by
  intro s gid g p hi
  let c := ctx i s gid g p
  have hg : c.gid = gid := rfl
  have w := (wrote_after hi).toPred c rfl true (n c) (val c)
  refine ⟨c.toPred true (afterIssue i s gid g p) (n c) (val c), h s gid g p hi, toPred_holds hi c rfl rfl _ true _, ?_⟩
  exact withoutFlags hi w (by rw [toPred_fmode hg (wrote_after hi).found, fmode_after hi])

/-- A group-scalar result of class F, and of class V with flags and without. -/
theorem givesScalar_plain {val : Cx → Word}
    (h : ∀ s gid g p, Issues i s gid g p → exec i s = .next ((ctx i s gid g p).writeS (afterIssue i s gid g p) (n (ctx i s gid g p)) (val (ctx i s gid g p)))) : GivesScalar i n val := by
  intro s gid g p hi
  let c := ctx i s gid g p
  have hg : c.gid = gid := rfl
  have w := (wrote_after hi).toScalar c rfl true (n c) (val c)
  refine ⟨c.toScalar true (afterIssue i s gid g p) (n c) (val c), h s gid g p hi, toScalar_holds hi c rfl _ true _, ?_⟩
  exact withoutFlags hi w (by rw [toScalar_fmode hg (wrote_after hi).found, fmode_after hi])

theorem givesScalarV {val : Cx → Word}
    (h : ∀ s gid g p, Issues i s gid g p → exec i s = .next ((ctx i s gid g p).flags ((ctx i s gid g p).giveS (afterIssue i s gid g p) (n (ctx i s gid g p)) (val (ctx i s gid g p))) (fl (ctx i s gid g p)))) : GivesScalar i n val fl := by
  intro s gid g p hi
  let c := ctx i s gid g p
  have hg : c.gid = gid := rfl
  have w := (wrote_after hi).toScalar c rfl false (n c) (val c)
  refine ⟨c.flags (c.toScalar false (afterIssue i s gid g p) (n c) (val c)) (fl c), h s gid g p hi,
    (toScalar_holds hi c rfl _ false _).flags rfl w.found, ?_⟩
  exact withFlags hi c rfl _ w (by rw [toScalar_fmode hg (wrote_after hi).found, fmode_after hi])

/-- A lane pair of class F. -/
theorem givesLanePair {val : Cx → Nat → DWord}
    (h : ∀ s gid g p, Issues i s gid g p → exec i s = .next ((ctx i s gid g p).writeVp (afterIssue i s gid g p) (n (ctx i s gid g p)) (val (ctx i s gid g p)))) : GivesLanePair i n val := by
  intro s gid g p hi
  let c := ctx i s gid g p
  have hg : c.gid = gid := rfl
  have w0 := wrote_after hi
  have w1 := w0.toLanes c rfl true (n c) (fun l => (val c l).extractLsb' 0 32)
  have w2 := (w1.toLanes c rfl true (n c + 1) (fun l => (val c l).extractLsb' 32 32)).weaken (ex' := [n c, n c + 1]) (by simp)
  refine ⟨c.writeVp (afterIssue i s gid g p) (n c) (val c), h s gid g p hi, ?_, ?_, ?_, w2.regsOnly,
    w2.goesOn hi.split⟩
  · intro l hl
    show ((c.toLanes true (c.toLanes true (afterIssue i s gid g p) (n c) (fun l => (val c l).extractLsb' 0 32)) (n c + 1) _).group gid).vReg
      (n c) l = _
    rw [toLanes_group hg w1.found _ _ _ _ _ hl, if_neg (by omega)]
    exact toLanes_holds hi c rfl rfl (n c) true _ l hl
  · intro l hl
    show ((c.toLanes true (c.toLanes true (afterIssue i s gid g p) (n c) (fun l => (val c l).extractLsb' 0 32)) (n c + 1)
      (fun l => (val c l).extractLsb' 32 32)).group gid).vReg (n c + 1) l = _
    rw [toLanes_group hg w1.found _ _ _ _ _ hl, toLanes_group hg w0.found _ _ _ _ _ hl, vReg_after hi]
    simp only [true_and]
    rw [if_neg (show ¬ (n c = n c + 1 ∧ (c.spread (n c)).getLsbD l = true) by omega)]
    rfl
  · show ((c.toLanes true (c.toLanes true (afterIssue i s gid g p) (n c) (fun l => (val c l).extractLsb' 0 32)) (n c + 1) _).group gid).fmode = _
    rw [toLanes_fmode hg w1.found, toLanes_fmode hg w0.found, fmode_after hi]

/-- A group-scalar pair of class F. -/
theorem givesScalarPair {val : Cx → DWord}
    (h : ∀ s gid g p, Issues i s gid g p → exec i s = .next ((ctx i s gid g p).writeSp (afterIssue i s gid g p) (n (ctx i s gid g p)) (val (ctx i s gid g p)))) : GivesScalarPair i n val := by
  intro s gid g p hi
  let c := ctx i s gid g p
  have hg : c.gid = gid := rfl
  have w0 := wrote_after hi
  have w1 := w0.toScalar c rfl true (n c) ((val c).extractLsb' 0 32)
  have w2 := (w1.toScalar c rfl true (n c + 1) ((val c).extractLsb' 32 32)).weaken (ex' := [64 + n c, 64 + n c + 1])
    (by simp [Nat.add_assoc])
  refine ⟨c.writeSp (afterIssue i s gid g p) (n c) (val c), h s gid g p hi, ?_, ?_, ?_, w2.regsOnly,
    w2.goesOn hi.split⟩
  · show ((c.toScalar true (c.toScalar true (afterIssue i s gid g p) (n c) ((val c).extractLsb' 0 32)) (n c + 1) _).group gid).sReg (n c) = _
    rw [toScalar_group hg w1.found, if_neg (by omega)]
    exact toScalar_holds hi c rfl (n c) true _
  · show ((c.toScalar true (c.toScalar true (afterIssue i s gid g p) (n c) ((val c).extractLsb' 0 32)) (n c + 1)
      ((val c).extractLsb' 32 32)).group gid).sReg (n c + 1) = _
    rw [toScalar_group hg w1.found, if_pos rfl]
  · show ((c.toScalar true (c.toScalar true (afterIssue i s gid g p) (n c) ((val c).extractLsb' 0 32)) (n c + 1) _).group gid).fmode = _
    rw [toScalar_fmode hg w1.found, toScalar_fmode hg w0.found, fmode_after hi]

/-- A group-scalar pair of class V. -/
theorem givesScalarPairV {val : Cx → DWord}
    (h : ∀ s gid g p, Issues i s gid g p → exec i s = .next ((ctx i s gid g p).giveSp (afterIssue i s gid g p) (n (ctx i s gid g p)) (val (ctx i s gid g p)))) : GivesScalarPair i n val := by
  intro s gid g p hi
  let c := ctx i s gid g p
  have hg : c.gid = gid := rfl
  have w0 := wrote_after hi
  have w1 := w0.toScalar c rfl false (n c) ((val c).extractLsb' 0 32)
  have w2 := (w1.toScalar c rfl false (n c + 1) ((val c).extractLsb' 32 32)).weaken (ex' := [64 + n c, 64 + n c + 1])
    (by simp [Nat.add_assoc])
  refine ⟨c.giveSp (afterIssue i s gid g p) (n c) (val c), h s gid g p hi, ?_, ?_, ?_, w2.regsOnly,
    w2.goesOn hi.split⟩
  · show ((c.toScalar false (c.toScalar false (afterIssue i s gid g p) (n c) ((val c).extractLsb' 0 32)) (n c + 1) _).group gid).sReg (n c) = _
    rw [toScalar_group hg w1.found, if_neg (by omega)]
    exact toScalar_holds hi c rfl (n c) false _
  · show ((c.toScalar false (c.toScalar false (afterIssue i s gid g p) (n c) ((val c).extractLsb' 0 32)) (n c + 1)
      ((val c).extractLsb' 32 32)).group gid).sReg (n c + 1) = _
    rw [toScalar_group hg w1.found, if_pos rfl]
  · show ((c.toScalar false (c.toScalar false (afterIssue i s gid g p) (n c) ((val c).extractLsb' 0 32)) (n c + 1) _).group gid).fmode = _
    rw [toScalar_fmode hg w1.found, toScalar_fmode hg w0.found, fmode_after hi]

/-- An instruction without an effect of its own. -/
theorem givesNothing (h : ∀ s gid g p, Issues i s gid g p → exec i s = .next (afterIssue i s gid g p)) : GivesNothing i := by
  intro s gid g p hi
  have w := wrote_after hi
  exact ⟨afterIssue i s gid g p, h s gid g p hi, fmode_after hi, w.regsOnly, w.goesOn hi.split⟩

end Sys2Proof.Safety
end

