-- ==== Sys2Proof/Laws/Log.lean ====
section
/-! SUPPORT. Logbook entries: what recording an access changes, and that every form which only records one does that. -/

namespace Sys2Proof.Safety

open Machine

variable {i : Instr} {s t u : State} {gid : Nat} {g : Group} {p : Split}

/-! ## What recording does besides the entry -/

theorem sameButCounts_takeMark (s : State) (g : Group) : SameButCounts s (s.takeMark g).1 := by
  unfold State.takeMark State.drawMark
  exact sameButCounts_modDie s _ (fun x => { x with seq := _ }) (fun _ => rfl) (fun _ => rfl)

theorem sameButCounts_fillTlb (s : State) (t core va : Nat) : SameButCounts s (s.fillTlb t core va) := by
  unfold State.fillTlb
  split
  · exact .refl s
  · refine SameButCounts.trans ?_ (sameButCounts_modDie _ _ _ ?_ ?_)
    · refine sameButCounts_modCore _ _ _ ?_
      intro _; rfl
    · intro _; rfl
    · intro _; rfl

theorem sameButCounts_fillTlbs (t core : Nat) (l : List Nat) (s : State) : SameButCounts s (s.fillTlbs t core l) := by
  induction l generalizing s with
  | nil => exact .refl s
  | cons va r ih => exact (sameButCounts_fillTlb s t core va).trans (ih _)

theorem sameButCounts_touch (s : State) (g : Group) (accs : List Acc) : SameButCounts s (s.touch g accs) :=
  sameButCounts_fillTlbs _ _ _ _

theorem sameButCounts_countBanks (s : State) (core : Nat) (accs : List Acc) : SameButCounts s (s.countBanks core accs) := by
  unfold State.countBanks
  simp only
  split
  · exact .refl s
  · exact sameButCounts_modCore _ _ _ (fun _ => rfl)

theorem SameButCounts.same {s t : State} (h : SameButCounts s t) : SameMemory s t := by
  constructor
  · intro a; exact congrArg (Memory.read memDefault · a) h.mem
  · intro a; exact congrArg (Memory.read zeroDefault · a) h.hostMem
  · intro c o; exact congrArg (Memory.read zeroDefault · (spadKey c o)) h.spad
  · exact h.tile
  · exact h.lines
  · exact h.unpub

/-! ## The entry of a context -/

/-- The entry that a context leaves. -/
def entryOf (c : Cx) (t : State) (kind cls : Nat) (mask : Word) (accs : List Acc) : Entry :=
  { kind := kind, cls := cls, split := some c.born, dreg := dregOf c.vw, pc := c.sp.pc, insn := insnOf c.i,
    wmark := (if cls = 1 then t.takeMark c.g else (t, 0)).2,
    mask := mask, id := freePlace c.g.log, num := c.g.nextNum, cyc := c.now,
    dst := if (kind = 12 && c.vw.op = 0x1C) || (9 ≤ kind && kind ≤ 11) then [] else writesOf c.i,
    spoil := (writesOf c.i).filterMap (fun r => if (c.met r).isEmpty then none else some (r, c.spread r)), draw := c.free,
    src := if kind = 12 && c.vw.op = 0x1C then [] else (readsOf c.i).filter (· != 103), acc := accs,
    sc := c.vw.sc, rel := c.vw.o / 2 == 1, acq := c.vw.o % 2 == 1, one := singleForm c.vw }

theorem enter_eq (c : Cx) (t : State) (kind cls : Nat) (mask : Word) (accs : List Acc) :
    c.enter t kind cls mask accs = (if cls = 1 then t.takeMark c.g else (t, 0)).1.modGroup c.gid (fun g =>
      { g with log := g.log ++ [entryOf c t kind cls mask accs], nextNum := g.nextNum + 1 }) := rfl

theorem enter_base (c : Cx) (t : State) (cls : Nat) :
    SameButCounts t (if cls = 1 then t.takeMark c.g else (t, (0 : Word))).1 := by
  split
  · exact sameButCounts_takeMark _ _
  · exact .refl t

/-- A state that differs from the one after issue itself only in counts and in a new entry of the group. -/
structure Logged (i : Instr) (s t : State) (gid : Nat) (g : Group) (p : Split) (e : Entry) : Prop where
  memory : SameMemory s t
  group : t.group gid = { issuedGroup i s g p with log := g.log ++ [e], nextNum := g.nextNum + 1 }
  found : Tbl.find t.groups gid = some (t.group gid)
  groups : ∀ h, h ≠ gid → Tbl.find t.groups h = Tbl.find s.groups h

theorem Logged.counts {e : Entry} (w : Logged i s t gid g p e) (h : SameButCounts t u) : Logged i s u gid g p e := by
  have hg : u.group gid = t.group gid := congrArg (fun l : Tbl Group => Tbl.get l {} gid) h.groups
  exact ⟨w.memory.trans h.same, by rw [hg, w.group], by rw [h.groups, w.found, hg], fun k hk => by rw [h.groups, w.groups k hk]⟩

/-- The context's entry on the state after issue itself. -/
theorem logged_enter (h : Issues i s gid g p) (kind cls : Nat) (mask : Word) (accs : List Acc) :
    Logged i s ((ctx i s gid g p).enter (afterIssue i s gid g p) kind cls mask accs) gid g p
      (entryOf (ctx i s gid g p) (afterIssue i s gid g p) kind cls mask accs) := by
  have b := enter_base (ctx i s gid g p) (afterIssue i s gid g p) cls
  have hc : (ctx i s gid g p).gid = gid := rfl
  rw [enter_eq, hc]
  have hf : Tbl.find (if cls = 1 then (afterIssue i s gid g p).takeMark (ctx i s gid g p).g
      else (afterIssue i s gid g p, (0 : Word))).1.groups gid = some (issuedGroup i s g p) := by
    rw [b.groups, after_groups h.group, if_pos rfl]
  have hg := State.group_of_find hf
  have hm := State.group_modGroup (fun x : Group =>
    { x with log := x.log ++ [entryOf (ctx i s gid g p) (afterIssue i s gid g p) kind cls mask accs],
             nextNum := x.nextNum + 1 }) (hf.trans (congrArg some hg.symm))
  refine ⟨(after_same i s gid g p).trans (b.same.trans (sameMemory_modGroup _ _ _)), ?_, ?_, ?_⟩
  · rw [hm, hg]; rfl
  · rw [State.find_modGroup, if_pos rfl, hf, hm, hg]; rfl
  · intro k hk
    rw [State.find_modGroup, if_neg (Ne.symm hk), b.groups, after_groups h.group, if_neg (Ne.symm hk)]

/-- The context's record of an access on the state after issue itself. -/
theorem logged_record (h : Issues i s gid g p) (kind cls : Nat) (accs : List Acc) :
    Logged i s ((ctx i s gid g p).record (afterIssue i s gid g p) kind cls accs) gid g p
      (entryOf (ctx i s gid g p) (afterIssue i s gid g p) kind cls p.mask accs) :=
  (logged_enter h kind cls p.mask accs).counts
    ((sameButCounts_touch _ _ _).trans (sameButCounts_countBanks _ _ _))

theorem Logged.records {e : Entry} (w : Logged i s t gid g p e) (h : Issues i s gid g p) : Records i s t gid g p e := by
  have hsp : (t.group gid).splits = (issuedGroup i s g p).splits := by rw [w.group]
  have hm := fun b => Group.split?_modSplit g p.born b
    (fun q => issuedSplit q (s.now g.core) (view i).w (instrLen i)) (fun _ => rfl)
  have hb : ∀ b, (t.group gid).split? b =
      (g.modSplit p.born (fun q => issuedSplit q (s.now g.core) (view i).w (instrLen i))).split? b :=
    fun b => split_find hsp b
  refine ⟨by rw [w.group], by rw [w.group], by rw [w.group]; rfl, ?_, by rw [w.group]; rfl, w.memory, w.groups, ?_, ?_⟩
  · rw [w.group]; constructor <;> intros <;> rfl
  · refine ⟨issuedSplit p (s.now g.core) (view i).w (instrLen i), ?_, rfl, rfl, rfl, rfl, rfl, rfl⟩
    rw [hb, hm, if_pos rfl, h.split]; rfl
  · intro b hne
    rw [hb, hm, if_neg (Ne.symm hne)]

theorem fresh_entryOf (i : Instr) (s t : State) (gid : Nat) (g : Group) (p : Split) (kind cls : Nat) (accs : List Acc) :
    Fresh i g p kind cls accs (entryOf (ctx i s gid g p) t kind cls p.mask accs) := by
  constructor <;> rfl

/-- A form whose effect is to record an access. -/
theorem recordsAs (h : Issues i s gid g p) {kind cls : Nat} {accs : List Acc} (hk : kind < 9 ∨ 13 ≤ kind)
    (e : exec i s = .next ((ctx i s gid g p).record (afterIssue i s gid g p) kind cls accs)) :
    RecordsAs i s gid g p kind cls accs := by
  refine ⟨_, e, _, (logged_record h kind cls accs).records h, fresh_entryOf _ _ _ _ _ _ _ _ _, ?_⟩
  unfold entryOf
  have h1 : ¬ ((kind = 12 && (ctx i s gid g p).vw.op = 0x1C) || (9 ≤ kind && kind ≤ 11)) = true := by
    simp only [Bool.or_eq_true, Bool.and_eq_true, decide_eq_true_eq]; omega
  rw [if_neg h1]
  rfl

/-- The same without translations and bank counts. -/
theorem entersAs (h : Issues i s gid g p) {kind cls : Nat} {accs : List Acc} (hk : kind < 9 ∨ 13 ≤ kind)
    (e : exec i s = .next ((ctx i s gid g p).enter (afterIssue i s gid g p) kind cls p.mask accs)) :
    RecordsAs i s gid g p kind cls accs := by
  refine ⟨_, e, _, (logged_enter h kind cls p.mask accs).records h, fresh_entryOf _ _ _ _ _ _ _ _ _, ?_⟩
  unfold entryOf
  have h1 : ¬ ((kind = 12 && (ctx i s gid g p).vw.op = 0x1C) || (9 ≤ kind && kind ≤ 11)) = true := by
    simp only [Bool.or_eq_true, Bool.and_eq_true, decide_eq_true_eq]; omega
  rw [if_neg h1]
  rfl

/-- A form that records the pieces of its lanes, or traps. -/
theorem laneAccess {o : AccOpt} {size : Nat} {addr : Cx → Nat → DWord} {kind : Group → List Acc → Nat × Nat}
    {data : Cx → List Acc → List Acc} (hk : ∀ g l, (kind g l).1 < 9 ∨ 13 ≤ (kind g l).1)
    (e : ∀ s gid g p, Issues i s gid g p → exec i s =
      match (ctx i s gid g p).checkLanes (afterIssue i s gid g p) o size (addr (ctx i s gid g p)) with
      | .error r => .next (State.takeTrap { s with cur := none } gid p.born r)
      | .ok accs => .next ((ctx i s gid g p).record (afterIssue i s gid g p) (kind g accs).1 (kind g accs).2
          (data (ctx i s gid g p) accs))) : LaneAccess i o size addr kind data := by
  intro s gid g p h
  refine ⟨fun accs ha => recordsAs h (hk _ _) ?_, fun r hr => ?_⟩
  · rw [e s gid g p h, ha]
  · unfold Traps; rw [e s gid g p h, hr]

/-- A form that records the pieces of its one address, or traps. -/
theorem oneAccess {o : AccOpt} {size : Nat} {addr : Cx → DWord} {kind : Group → List Acc → Nat × Nat}
    {data : Cx → List Acc → List Acc} (hk : ∀ g l, (kind g l).1 < 9 ∨ 13 ≤ (kind g l).1)
    (e : ∀ s gid g p, Issues i s gid g p → exec i s =
      match (ctx i s gid g p).checkOne (afterIssue i s gid g p) o size (addr (ctx i s gid g p)) with
      | .error r => .next (State.takeTrap { s with cur := none } gid p.born r)
      | .ok accs => .next ((ctx i s gid g p).record (afterIssue i s gid g p) (kind g accs).1 (kind g accs).2
          (data (ctx i s gid g p) accs))) : OneAccess i o size addr kind data := by
  intro s gid g p h
  refine ⟨fun accs ha => recordsAs h (hk _ _) ?_, fun r hr => ?_⟩
  · rw [e s gid g p h, ha]
  · unfold Traps; rw [e s gid g p h, hr]

theorem sext_toNat {n : Nat} (hn : 0 < n) (x : BitVec n) : sext n x.toNat = x.toInt := by
  have h2 : 2 ^ n = 2 * 2 ^ (n - 1) := by rw [← Nat.pow_succ']; congr 1; omega
  have h := x.isLt
  unfold sext
  rw [Nat.mod_eq_of_lt h, BitVec.toInt_eq_toNat_cond]
  have e : (2 : Int) ^ n = ((2 ^ n : Nat) : Int) := by push_cast; rfl
  rw [e]
  split <;> split <;> omega

theorem moAddr_eq {f : MO} (h1 : (view i).a = f.a.toNat) (h2 : (view i).imm = f.off.toNat) (size : Nat) :
    (ctx i s gid g p).moAddr size = moAt f.a f.off size (ctx i s gid g p) := by
  funext l
  show (ctx i s gid g p).addr (view i).a l + BitVec.ofInt 64 (sext 8 (view i).imm * size) = _
  rw [h1, h2, sext_toNat (by decide)]
  rfl

theorem datum_one (c : Cx) (r l : Nat) : c.datum r 1 l = (c.v r l).toNat := by
  have h : List.range 1 = [0] := rfl
  unfold Cx.datum
  rw [h]
  simp only [List.foldr_cons, List.foldr_nil, Nat.mul_zero, Nat.shiftLeft_zero, Nat.add_zero]

theorem datum_two (c : Cx) (r l : Nat) : c.datum r 2 l = (c.vp r l).toNat := by
  have h : List.range 2 = [0, 1] := rfl
  unfold Cx.datum Cx.vp
  rw [h, BitVec.toNat_append]
  simp only [List.foldr_cons, List.foldr_nil, Nat.mul_zero, Nat.mul_one, Nat.shiftLeft_zero, Nat.add_zero]
  rw [Nat.add_comm, Nat.shiftLeft_add_eq_or_of_lt (c.v r l).isLt]

theorem datum_four (c : Cx) (r l : Nat) :
    c.datum r 4 l = (c.v (r + 3) l ++ c.v (r + 2) l ++ c.v (r + 1) l ++ c.v r l).toNat := by
  have h : List.range 4 = [0, 1, 2, 3] := rfl
  unfold Cx.datum
  rw [h]
  simp only [BitVec.toNat_append, List.foldr_cons, List.foldr_nil, Nat.mul_zero, Nat.mul_one, Nat.shiftLeft_zero, Nat.add_zero]
  rw [← Nat.shiftLeft_add_eq_or_of_lt (c.v (r + 2) l).isLt, ← Nat.shiftLeft_add_eq_or_of_lt (c.v (r + 1) l).isLt,
    ← Nat.shiftLeft_add_eq_or_of_lt (c.v r l).isLt]
  generalize (c.v r l).toNat = a; generalize (c.v (r + 1) l).toNat = b
  generalize (c.v (r + 2) l).toNat = d; generalize (c.v (r + 3) l).toNat = e
  simp only [Nat.shiftLeft_eq]
  omega

/-- The KIND of a store is one of a store. -/
theorem storeKind_le (g : Group) (a : Acc) : storeKind g a < 9 ∨ 13 ≤ storeKind g a := by
  unfold storeKind
  split <;> (try split) <;> omega

theorem storeEntry_kind (g : Group) (accs : List Acc) : (storeEntry g accs).1 < 9 ∨ 13 ≤ (storeEntry g accs).1 := by
  have key : ∀ l : List Nat, (∀ k ∈ l, k < 9 ∨ 13 ≤ k) → l.foldr min 14 < 9 ∨ 13 ≤ l.foldr min 14 := by
    intro l
    induction l with
    | nil => intro _; right; decide
    | cons a r ih =>
      intro h
      have h1 := h a (by simp)
      have h2 := ih (fun k hk => h k (by simp [hk]))
      simp only [List.foldr_cons]
      omega
  apply key
  intro k hk
  obtain ⟨a, _, rfl⟩ := List.mem_map.mp (List.mem_of_mem_filter hk)
  exact storeKind_le g a

end Sys2Proof.Safety
end

