-- ==== Sys2Proof/Laws/PerInstr.lean ====
section
/-! SUPPORT. Families of statements about every constructor of Instr: EncodeLength, the encoder writes as many bytes as the
instruction is long and none for an operation or an event of the part. -/

namespace Sys2Proof.Laws.EncodeLength

open Machine

/-- The bytes of an instruction are instrLen many; an operation or event of the part has none. -/
def Statement (i : Instr) : Prop := (encodeBytes i).length = if (view i).lay = .event then 0 else instrLen i

theorem pfRegisterWrite x0 x1 : Statement (.pfRegisterWrite x0 x1) := rfl
theorem counterLoRead x0 x1 : Statement (.counterLoRead x0 x1) := rfl
theorem counterHiRead x0 x1 : Statement (.counterHiRead x0 x1) := rfl
theorem pwrctlWrite x0 x1 : Statement (.pwrctlWrite x0 x1) := rfl
theorem hostStateTransitionDone x0 : Statement (.hostStateTransitionDone x0) := rfl
theorem vfChangeDone x0 : Statement (.vfChangeDone x0) := rfl
theorem l2waydisWrite x0 x1 : Statement (.l2waydisWrite x0 x1) := rfl
theorem l2WayDisableDone x0 : Statement (.l2WayDisableDone x0) := rfl
theorem boostRise x0 : Statement (.boostRise x0) := rfl
theorem permitDebit x0 : Statement (.permitDebit x0) := rfl
theorem fallToNominal x0 : Statement (.fallToNominal x0) := rfl
theorem fallComplete x0 : Statement (.fallComplete x0) := rfl
theorem permitRefill x0 : Statement (.permitRefill x0) := rfl
theorem currentSlopeTick x0 : Statement (.currentSlopeTick x0) := rfl
theorem thermUpdate x0 x1 : Statement (.thermUpdate x0 x1) := rfl
theorem thermWrite x0 x1 : Statement (.thermWrite x0 x1) := rfl
theorem powerCapTick x0 : Statement (.powerCapTick x0) := rfl
theorem meridianRefill x0 : Statement (.meridianRefill x0) := rfl
theorem bar2Access x0 x1 x2 x3 x4 : Statement (.bar2Access x0 x1 x2 x3 x4) := rfl
theorem vfWindowAccess x0 x1 x2 x3 : Statement (.vfWindowAccess x0 x1 x2 x3) := rfl
theorem pferrWrite x0 : Statement (.pferrWrite x0) := rfl
theorem tdiStop x0 : Statement (.tdiStop x0) := rfl
theorem vfTlpReceive x0 x1 x2 x3 : Statement (.vfTlpReceive x0 x1 x2 x3) := rfl
theorem ptpCorrection x0 x1 : Statement (.ptpCorrection x0 x1) := rfl
theorem ptpLockLoss x0 : Statement (.ptpLockLoss x0) := rfl
theorem fabricMeterTick : Statement .fabricMeterTick := rfl
theorem fabricPacketSend x0 x1 : Statement (.fabricPacketSend x0 x1) := rfl
theorem inboundPeerRequest x0 : Statement (.inboundPeerRequest x0) := rfl
theorem peerResponse x0 x1 : Statement (.peerResponse x0 x1) := rfl
theorem peerTimeout x0 : Statement (.peerTimeout x0) := rfl
theorem mcjoinWrite x0 x1 x2 x3 : Statement (.mcjoinWrite x0 x1 x2 x3) := rfl
theorem collTileLand x0 x1 x2 : Statement (.collTileLand x0 x1 x2) := rfl
theorem ucieRetrain x0 x1 x2 : Statement (.ucieRetrain x0 x1 x2) := rfl
theorem ucieFlitFail x0 x1 : Statement (.ucieFlitFail x0 x1) := rfl
theorem createSlice x0 : Statement (.createSlice x0) := rfl
theorem activateSlice x0 : Statement (.activateSlice x0) := rfl
theorem activateDone x0 : Statement (.activateDone x0) := rfl
theorem dissolveSlice x0 : Statement (.dissolveSlice x0) := rfl
theorem dissolveDone x0 : Statement (.dissolveDone x0) := rfl
theorem deckleWrite x0 x1 x2 : Statement (.deckleWrite x0 x1 x2) := rfl
theorem assignFrame x0 x1 : Statement (.assignFrame x0 x1) := rfl
theorem rekeyFrame x0 x1 : Statement (.rekeyFrame x0 x1) := rfl
theorem releaseFrame x0 : Statement (.releaseFrame x0) := rfl
theorem queryFrame x0 : Statement (.queryFrame x0) := rfl
theorem owncmdDone : Statement .owncmdDone := rfl
theorem bwWindow x0 x1 : Statement (.bwWindow x0 x1) := rfl
theorem hbmThermalLevelChange x0 x1 : Statement (.hbmThermalLevelChange x0 x1) := rfl
theorem functionLevelReset x0 : Statement (.functionLevelReset x0) := rfl
theorem flrComplete x0 : Statement (.flrComplete x0) := rfl
theorem vfEnableClear : Statement .vfEnableClear := rfl
theorem vfEnableSet x0 : Statement (.vfEnableSet x0) := rfl
theorem getVersion x0 : Statement (.getVersion x0) := rfl
theorem getCapabilities x0 : Statement (.getCapabilities x0) := rfl
theorem negotiateAlgorithms x0 : Statement (.negotiateAlgorithms x0) := rfl
theorem getDigests x0 : Statement (.getDigests x0) := rfl
theorem getCertificate x0 x1 x2 x3 : Statement (.getCertificate x0 x1 x2 x3) := rfl
theorem spdmChallenge x0 x1 x2 : Statement (.spdmChallenge x0 x1 x2) := rfl
theorem getMeasurements x0 x1 : Statement (.getMeasurements x0 x1) := rfl
theorem keyExchange x0 x1 x2 : Statement (.keyExchange x0 x1 x2) := rfl
theorem spdmFinish x0 : Statement (.spdmFinish x0) := rfl
theorem spdmHeartbeat x0 : Statement (.spdmHeartbeat x0) := rfl
theorem spdmEndSession x0 : Statement (.spdmEndSession x0) := rfl
theorem ideKm x0 x1 : Statement (.ideKm x0 x1) := rfl
theorem tdispMessage x0 x1 : Statement (.tdispMessage x0 x1) := rfl
theorem getExportKey x0 x1 : Statement (.getExportKey x0 x1) := rfl
theorem setImportKey x0 x1 : Statement (.setImportKey x0 x1) := rfl
theorem moduleReset : Statement .moduleReset := rfl
theorem fwloadWrite x0 : Statement (.fwloadWrite x0) := rfl
theorem qtabCtlWrite x0 x1 x2 : Statement (.qtabCtlWrite x0 x1 x2) := rfl
theorem pktLaunch x0 x1 : Statement (.pktLaunch x0 x1) := rfl
theorem pktCopy x0 x1 : Statement (.pktCopy x0 x1) := rfl
theorem pktCopy2d x0 x1 : Statement (.pktCopy2d x0 x1) := rfl
theorem pktColl x0 x1 : Statement (.pktColl x0 x1) := rfl
theorem pktCwait x0 x1 : Statement (.pktCwait x0 x1) := rfl
theorem pktCadd x0 x1 : Statement (.pktCadd x0 x1) := rfl
theorem pktMarker x0 x1 : Statement (.pktMarker x0 x1) := rfl
theorem pktRegion x0 x1 : Statement (.pktRegion x0 x1) := rfl
theorem wgDeal x0 x1 : Statement (.wgDeal x0 x1) := rfl
theorem wgResident x0 : Statement (.wgResident x0) := rfl
theorem copyPieceStart x0 x1 : Statement (.copyPieceStart x0 x1) := rfl
theorem copyPieceLand x0 x1 : Statement (.copyPieceLand x0 x1) := rfl
theorem patrolScrub x0 x1 : Statement (.patrolScrub x0 x1) := rfl
theorem dkill x0 x1 : Statement (.dkill x0 x1) := rfl
theorem killComplete x0 : Statement (.killComplete x0) := rfl
theorem strikeReport x0 x1 : Statement (.strikeReport x0 x1) := rfl
theorem strikeResume x0 x1 : Statement (.strikeResume x0 x1) := rfl
theorem engineCompareMismatch x0 x1 : Statement (.engineCompareMismatch x0 x1) := rfl
theorem correctedError x0 x1 x2 x3 x4 : Statement (.correctedError x0 x1 x2 x3 x4) := rfl
theorem repairDone x0 : Statement (.repairDone x0) := rfl
theorem bankRetire x0 x1 : Statement (.bankRetire x0 x1) := rfl
theorem infieldTestStart x0 : Statement (.infieldTestStart x0) := rfl
theorem infieldTestDone x0 x1 : Statement (.infieldTestDone x0 x1) := rfl
theorem slotIssue x0 x1 x2 : Statement (.slotIssue x0 x1 x2) := rfl
theorem starvationFlag x0 x1 : Statement (.starvationFlag x0 x1) := rfl
theorem clusterIdle x0 x1 : Statement (.clusterIdle x0 x1) := rfl
theorem admissionGrant x0 : Statement (.admissionGrant x0) := rfl
theorem binForm x0 x1 : Statement (.binForm x0 x1) := rfl
theorem gatheredResident x0 x1 : Statement (.gatheredResident x0 x1) := rfl
theorem evictFor x0 x1 : Statement (.evictFor x0 x1) := rfl
theorem groupRestore x0 : Statement (.groupRestore x0) := rfl
theorem switchTick x0 : Statement (.switchTick x0) := rfl
theorem tickSaveDeadline x0 : Statement (.tickSaveDeadline x0) := rfl
theorem ladderGraceExpiry x0 : Statement (.ladderGraceExpiry x0) := rfl
theorem ladderKillExpiry x0 : Statement (.ladderKillExpiry x0) := rfl
theorem i2DrainTimeout x0 : Statement (.i2DrainTimeout x0) := rfl
theorem freezeComplete x0 : Statement (.freezeComplete x0) := rfl
theorem quiesce x0 : Statement (.quiesce x0) := rfl
theorem quiesceDone x0 : Statement (.quiesceDone x0) := rfl
theorem exportReam x0 : Statement (.exportReam x0) := rfl
theorem importReam x0 : Statement (.importReam x0) := rfl
theorem migResume x0 : Statement (.migResume x0) := rfl
theorem reshape x0 : Statement (.reshape x0) := rfl
theorem mergeSlices x0 x1 : Statement (.mergeSlices x0 x1) := rfl
theorem splitSlice x0 x1 : Statement (.splitSlice x0 x1) := rfl
theorem splitMerge x0 : Statement (.splitMerge x0) := rfl
theorem groupSave x0 : Statement (.groupSave x0) := rfl
theorem groupRetire x0 : Statement (.groupRetire x0) := rfl
theorem entryComplete x0 x1 : Statement (.entryComplete x0 x1) := rfl
theorem i1HomeRequest x0 x1 x2 : Statement (.i1HomeRequest x0 x1 x2) := rfl
theorem scrubDone x0 : Statement (.scrubDone x0) := rfl
theorem pageWalk x0 x1 x2 : Statement (.pageWalk x0 x1 x2) := rfl
theorem tlbinvStart x0 x1 : Statement (.tlbinvStart x0 x1) := rfl
theorem tlbinvDone x0 x1 : Statement (.tlbinvDone x0 x1) := rfl
theorem ringCtlWrite x0 x1 x2 : Statement (.ringCtlWrite x0 x1 x2) := rfl
theorem ringHeadWrite x0 x1 x2 : Statement (.ringHeadWrite x0 x1 x2) := rfl
theorem ringBaseWrite x0 x1 x2 x3 : Statement (.ringBaseWrite x0 x1 x2 x3) := rfl
theorem reportGrant : Statement .reportGrant := rfl
theorem faultackRetry x0 x1 : Statement (.faultackRetry x0 x1) := rfl
theorem faultackFail x0 x1 : Statement (.faultackFail x0 x1) := rfl
theorem dbgResume x0 : Statement (.dbgResume x0) := rfl
theorem dbgStep x0 : Statement (.dbgStep x0) := rfl
theorem dbgDump x0 : Statement (.dbgDump x0) := rfl
theorem dbgResumeAll x0 : Statement (.dbgResumeAll x0) := rfl
theorem dumpTimeout x0 : Statement (.dumpTimeout x0) := rfl
theorem evselWrite x0 x1 x2 : Statement (.evselWrite x0 x1 x2) := rfl
theorem allowWrite x0 x1 x2 x3 : Statement (.allowWrite x0 x1 x2 x3) := rfl
theorem waitWake x0 x1 : Statement (.waitWake x0 x1) := rfl
theorem promiseDeadline x0 x1 : Statement (.promiseDeadline x0 x1) := rfl
theorem sleepDeadline x0 x1 : Statement (.sleepDeadline x0 x1) := rfl
theorem mmaOpStart x0 : Statement (.mmaOpStart x0) := rfl
theorem arrayTileWrite x0 x1 : Statement (.arrayTileWrite x0 x1) := rfl
theorem nopH : Statement .nopH := rfl
theorem mov16 x0 : Statement (.mov16 x0) := rfl
theorem addI3216 x0 : Statement (.addI3216 x0) := rfl
theorem subI3216 x0 : Statement (.subI3216 x0) := rfl
theorem addF3216 x0 : Statement (.addF3216 x0) := rfl
theorem subF3216 x0 : Statement (.subF3216 x0) := rfl
theorem mulF3216 x0 : Statement (.mulF3216 x0) := rfl
theorem maxF3216 x0 : Statement (.maxF3216 x0) := rfl
theorem minF3216 x0 : Statement (.minF3216 x0) := rfl
theorem and16 x0 : Statement (.and16 x0) := rfl
theorem or16 x0 : Statement (.or16 x0) := rfl
theorem xor16 x0 : Statement (.xor16 x0) := rfl
theorem shl16 x0 : Statement (.shl16 x0) := rfl
theorem shr16 x0 : Statement (.shr16 x0) := rfl
theorem mulI3216 x0 : Statement (.mulI3216 x0) := rfl
theorem maxI3216 x0 : Statement (.maxI3216 x0) := rfl
theorem addF16x216 x0 : Statement (.addF16x216 x0) := rfl
theorem movi x0 : Statement (.movi x0) := rfl
theorem movhi x0 : Statement (.movhi x0) := rfl
theorem addiI32 x0 : Statement (.addiI32 x0) := rfl
theorem muliI32 x0 : Statement (.muliI32 x0) := rfl
theorem andi x0 : Statement (.andi x0) := rfl
theorem ori x0 : Statement (.ori x0) := rfl
theorem xori x0 : Statement (.xori x0) := rfl
theorem shli x0 : Statement (.shli x0) := rfl
theorem addiF32 x0 : Statement (.addiF32 x0) := rfl
theorem muliF32 x0 : Statement (.muliF32 x0) := rfl
theorem moviF16x2 x0 : Statement (.moviF16x2 x0) := rfl
theorem addiF16x2 x0 : Statement (.addiF16x2 x0) := rfl
theorem muliF16x2 x0 : Statement (.muliF16x2 x0) := rfl
theorem addiBf16x2 x0 : Statement (.addiBf16x2 x0) := rfl
theorem muliBf16x2 x0 : Statement (.muliBf16x2 x0) := rfl
theorem moviF8x4 x0 : Statement (.moviF8x4 x0) := rfl
theorem add x0 : Statement (.add x0) := rfl
theorem sub x0 : Statement (.sub x0) := rfl
theorem mul x0 : Statement (.mul x0) := rfl
theorem fma x0 : Statement (.fma x0) := rfl
theorem minL x0 : Statement (.minL x0) := rfl
theorem maxL x0 : Statement (.maxL x0) := rfl
theorem andL x0 : Statement (.andL x0) := rfl
theorem orL x0 : Statement (.orL x0) := rfl
theorem xorL x0 : Statement (.xorL x0) := rfl
theorem andn x0 : Statement (.andn x0) := rfl
theorem shl x0 : Statement (.shl x0) := rfl
theorem shr x0 : Statement (.shr x0) := rfl
theorem sar x0 : Statement (.sar x0) := rfl
theorem rol x0 : Statement (.rol x0) := rfl
theorem mulhHi x0 : Statement (.mulhHi x0) := rfl
theorem mulhWide x0 : Statement (.mulhWide x0) := rfl
theorem rcp x0 : Statement (.rcp x0) := rfl
theorem rsq x0 : Statement (.rsq x0) := rfl
theorem sqrt x0 : Statement (.sqrt x0) := rfl
theorem exp2 x0 : Statement (.exp2 x0) := rfl
theorem log2 x0 : Statement (.log2 x0) := rfl
theorem sin x0 : Statement (.sin x0) := rfl
theorem cos x0 : Statement (.cos x0) := rfl
theorem tanh x0 : Statement (.tanh x0) := rfl
theorem cvt x0 : Statement (.cvt x0) := rfl
theorem pk x0 : Statement (.pk x0) := rfl
theorem upk x0 : Statement (.upk x0) := rfl
theorem cmpI32 x0 : Statement (.cmpI32 x0) := rfl
theorem cmpN32 x0 : Statement (.cmpN32 x0) := rfl
theorem cmpF32 x0 : Statement (.cmpF32 x0) := rfl
theorem cmpxF32 x0 : Statement (.cmpxF32 x0) := rfl
theorem sel x0 : Statement (.sel x0) := rfl
theorem dp4 x0 : Statement (.dp4 x0) := rfl
theorem dp2 x0 : Statement (.dp2 x0) := rfl
theorem popc x0 : Statement (.popc x0) := rfl
theorem clz x0 : Statement (.clz x0) := rfl
theorem brev x0 : Statement (.brev x0) := rfl
theorem ffs x0 : Statement (.ffs x0) := rfl
theorem bfe x0 : Statement (.bfe x0) := rfl
theorem bfi x0 : Statement (.bfi x0) := rfl
theorem perm x0 : Statement (.perm x0) := rfl
theorem shfl x0 : Statement (.shfl x0) := rfl
theorem voteAll x0 : Statement (.voteAll x0) := rfl
theorem voteAny x0 : Statement (.voteAny x0) := rfl
theorem voteBallot x0 : Statement (.voteBallot x0) := rfl
theorem voteEq x0 : Statement (.voteEq x0) := rfl
theorem gred x0 : Statement (.gred x0) := rfl
theorem xmovVs x0 : Statement (.xmovVs x0) := rfl
theorem xmovSv x0 : Statement (.xmovSv x0) := rfl
theorem xmovVp x0 : Statement (.xmovVp x0) := rfl
theorem xmovPv x0 : Statement (.xmovPv x0) := rfl
theorem sadd x0 : Statement (.sadd x0) := rfl
theorem ssub x0 : Statement (.ssub x0) := rfl
theorem smul x0 : Statement (.smul x0) := rfl
theorem sand x0 : Statement (.sand x0) := rfl
theorem sor x0 : Statement (.sor x0) := rfl
theorem sxor x0 : Statement (.sxor x0) := rfl
theorem sshl x0 : Statement (.sshl x0) := rfl
theorem sshr x0 : Statement (.sshr x0) := rfl
theorem scmp x0 : Statement (.scmp x0) := rfl
theorem add64 x0 : Statement (.add64 x0) := rfl
theorem sub64 x0 : Statement (.sub64 x0) := rfl
theorem sadd64 x0 : Statement (.sadd64 x0) := rfl
theorem mad64 x0 : Statement (.mad64 x0) := rfl
theorem ldB x0 : Statement (.ldB x0) := rfl
theorem ldBn x0 : Statement (.ldBn x0) := rfl
theorem ldH x0 : Statement (.ldH x0) := rfl
theorem ldHn x0 : Statement (.ldHn x0) := rfl
theorem ldW x0 : Statement (.ldW x0) := rfl
theorem ldD x0 : Statement (.ldD x0) := rfl
theorem ldQ x0 : Statement (.ldQ x0) := rfl
theorem stB x0 : Statement (.stB x0) := rfl
theorem stH x0 : Statement (.stH x0) := rfl
theorem stW x0 : Statement (.stW x0) := rfl
theorem stD x0 : Statement (.stD x0) := rfl
theorem stQ x0 : Statement (.stQ x0) := rfl
theorem ldsW x0 : Statement (.ldsW x0) := rfl
theorem ldsD x0 : Statement (.ldsD x0) := rfl
theorem stsW x0 : Statement (.stsW x0) := rfl
theorem pf x0 : Statement (.pf x0) := rfl
theorem atomA x0 : Statement (.atomA x0) := rfl
theorem atomB x0 : Statement (.atomB x0) := rfl
theorem atomC x0 : Statement (.atomC x0) := rfl
theorem red x0 : Statement (.red x0) := rfl
theorem fence x0 : Statement (.fence x0) := rfl
theorem phaseClose x0 : Statement (.phaseClose x0) := rfl
theorem phaseOpen x0 : Statement (.phaseOpen x0) := rfl
theorem phaseCycle x0 : Statement (.phaseCycle x0) := rfl
theorem phaseTest x0 : Statement (.phaseTest x0) := rfl
theorem barArrive x0 : Statement (.barArrive x0) := rfl
theorem barWait x0 : Statement (.barWait x0) := rfl
theorem barArriveWait x0 : Statement (.barArriveWait x0) := rfl
theorem barCount x0 : Statement (.barCount x0) := rfl
theorem arrArrive x0 : Statement (.arrArrive x0) := rfl
theorem arrExpect x0 : Statement (.arrExpect x0) := rfl
theorem arrTest x0 : Statement (.arrTest x0) := rfl
theorem arrWait x0 : Statement (.arrWait x0) := rfl
theorem cpIssue x0 : Statement (.cpIssue x0) := rfl
theorem cpIssue2d x0 : Statement (.cpIssue2d x0) := rfl
theorem cpRekey x0 : Statement (.cpRekey x0) := rfl
theorem cpCancel x0 : Statement (.cpCancel x0) := rfl
theorem stMc x0 : Statement (.stMc x0) := rfl
theorem ldRedAddF32 x0 : Statement (.ldRedAddF32 x0) := rfl
theorem ldRedAddBf16 x0 : Statement (.ldRedAddBf16 x0) := rfl
theorem ldRedMaxF32 x0 : Statement (.ldRedMaxF32 x0) := rfl
theorem cntAdd x0 : Statement (.cntAdd x0) := rfl
theorem cntRd x0 : Statement (.cntRd x0) := rfl
theorem cntWait x0 : Statement (.cntWait x0) := rfl
theorem cntTest x0 : Statement (.cntTest x0) := rfl
theorem tileTld x0 : Statement (.tileTld x0) := rfl
theorem tileTst x0 : Statement (.tileTst x0) := rfl
theorem tileTzero x0 : Statement (.tileTzero x0) := rfl
theorem tileTcvt x0 : Statement (.tileTcvt x0) := rfl
theorem mmaIssueCore x0 : Statement (.mmaIssueCore x0) := rfl
theorem mmaIssueCl x0 : Statement (.mmaIssueCl x0) := rfl
theorem mmaWait x0 : Statement (.mmaWait x0) := rfl
theorem mmaFence x0 : Statement (.mmaFence x0) := rfl
theorem collIssue x0 : Statement (.collIssue x0) := rfl
theorem collWait x0 : Statement (.collWait x0) := rfl
theorem collTest x0 : Statement (.collTest x0) := rfl
theorem collSignal x0 : Statement (.collSignal x0) := rfl
theorem contEmit x0 : Statement (.contEmit x0) := rfl
theorem contFlush x0 : Statement (.contFlush x0) := rfl
theorem bra x0 : Statement (.bra x0) := rfl
theorem brP x0 : Statement (.brP x0) := rfl
theorem brAny x0 : Statement (.brAny x0) := rfl
theorem brAll x0 : Statement (.brAll x0) := rfl
theorem call x0 : Statement (.call x0) := rfl
theorem ret x0 : Statement (.ret x0) := rfl
theorem jmpR x0 : Statement (.jmpR x0) := rfl
theorem rcv x0 : Statement (.rcv x0) := rfl
theorem yieldSplit x0 : Statement (.yieldSplit x0) := rfl
theorem resync x0 : Statement (.resync x0) := rfl
theorem exitLanes x0 : Statement (.exitLanes x0) := rfl
theorem swTrap x0 : Statement (.swTrap x0) := rfl
theorem sleepUntil x0 : Statement (.sleepUntil x0) := rfl
theorem sleepNs x0 : Statement (.sleepNs x0) := rfl
theorem sleepYield x0 : Statement (.sleepYield x0) := rfl
theorem srRd x0 : Statement (.srRd x0) := rfl
theorem srWr x0 : Statement (.srWr x0) := rfl
theorem ctrRd x0 : Statement (.ctrRd x0) := rfl
theorem ctrStart x0 : Statement (.ctrStart x0) := rfl
theorem ctrStop x0 : Statement (.ctrStop x0) := rfl
theorem ctrMark x0 : Statement (.ctrMark x0) := rfl
theorem brk x0 : Statement (.brk x0) := rfl
theorem boostClaim x0 : Statement (.boostClaim x0) := rfl
theorem boostRelease x0 : Statement (.boostRelease x0) := rfl
theorem boostQuery x0 : Statement (.boostQuery x0) := rfl
theorem rfe x0 : Statement (.rfe x0) := rfl
theorem nop x0 : Statement (.nop x0) := rfl
theorem nopWaitsb x0 : Statement (.nopWaitsb x0) := rfl
theorem maskRd x0 : Statement (.maskRd x0) := rfl
theorem maskWr x0 : Statement (.maskWr x0) := rfl
theorem pand x0 : Statement (.pand x0) := rfl
theorem por x0 : Statement (.por x0) := rfl
theorem pxor x0 : Statement (.pxor x0) := rfl
theorem pnot x0 : Statement (.pnot x0) := rfl
theorem chartSel x0 : Statement (.chartSel x0) := rfl
theorem chartRd x0 : Statement (.chartRd x0) := rfl
theorem pktBadType x0 x1 : Statement (.pktBadType x0 x1) := rfl
theorem rdmaInbound x0 x1 : Statement (.rdmaInbound x0 x1) := rfl

end Sys2Proof.Laws.EncodeLength
end

