-- ==== Sys2Proof/Tests/Slice0.lean ====
section
/-! SUPPORT. Tests of the model: words of the spec, worked examples of the spec, ill-formed terms, and for each statement with
hypotheses states that meet them. -/

namespace Sys2Proof.Tests

set_option Elab.async false

open Machine Safety

/-! ## Builders -/

def rg (x a b d : Nat) : RG := { b := .ofNat 6 b, a := .ofNat 6 a, d := .ofNat 6 d, x := .ofNat 2 x, w := 0, s := false }
def h (b d : Nat) : H16 := { b := .ofNat 5 b, d := .ofNat 5 d, w := false }
def ri (i d : Nat) : RI := { i := .ofNat 16 i, d := .ofNat 6 d, w := 0 }
def mo (off a d : Nat) : MO := { off := .ofNat 8 off, a := .ofNat 6 a, d := .ofNat 6 d, w := 0, s := false }
def ma (x a d sc : Nat) : MA :=
  { o := 0, a := .ofNat 6 a, d := .ofNat 6 d, sc := .ofNat 4 sc, x := .ofNat 2 x, w := 0, s := false }
def cb (off p : Nat) : CB := { off := .ofNat 16 off, n := false, p := .ofNat 3 p, w := 0, s := false }

/-- The load of withFetchWord, with group 0 changed: its split issues next. -/
def at_ (f : Group → Group) : State := State.reset.boot.modGroup 0 f

/-- The same with s registers that hold values. -/
def start (r : List (Nat × Word)) : State := at_ (fun g => { g with s := r })

def groupOf (s : State) : Group := s.group 0
def splitOf (s : State) : Split := (s.group 0).splits.headD {}
def cxOf (i : Instr) (s : State) : Cx := ctx i s 0 (groupOf s) (splitOf s)
def goneOn (i : Instr) (s : State) : State := afterIssue i s 0 (groupOf s) (splitOf s)

/-- The conditions of Issues for group 0 and its first split. -/
def issuesB (i : Instr) (s : State) : Bool :=
  let g := groupOf s
  let p := splitOf s
  decide (s.cur = some (0, p.born)) && decide (Tbl.find s.groups 0 = some g) && decide (g.split? p.born = some p) &&
    decide (illegalDetail i g.regs = 0) && s.ready 0 g p i && slotPowered (s.die (dieOf g.core)) (view i).slot &&
    !(g.fmode.getLsbD 15 && g.anyHazard (s.now g.core) (readsOf i ++ writesOf i)) && s.canPay 0 g p i

theorem issues_of_issuesB {i : Instr} {s : State} (h : issuesB i s = true) : Issues i s 0 (groupOf s) (splitOf s) := by
  simp only [issuesB, Bool.and_eq_true, decide_eq_true_eq, Bool.not_eq_true'] at h
  obtain ⟨⟨⟨⟨⟨⟨⟨h1, h2⟩, h3⟩, h4⟩, h5⟩, h6⟩, h7⟩, h8⟩ := h
  exact ⟨h1, h2, h3, h4, h5, h6, h7, h8⟩

/-! ## Witnesses: the statements on lanes -/

theorem witness_LogicAndShifts : ∀ i ∈ [Instr.and16 (h 1 2), .or16 (h 1 2), .xor16 (h 1 2), .shl16 (h 1 2),
    .shr16 (h 1 2), .andL (rg 0 0 0 0), .orL (rg 1 0 0 0), .xorL (rg 2 0 0 0),
    .andn (rg 3 0 0 0), .shl (rg 0 0 0 0), .shr (rg 1 0 0 0), .sar (rg 2 0 0 0),
    .rol (rg 3 0 0 0)],
    issuesB i (start []) = true := by decide +kernel

theorem witness_IntegerForms : ∀ i ∈ [Instr.mov16 (h 1 2), .addI3216 (h 1 2), .subI3216 (h 1 2), .mulI3216 (h 1 2),
    .maxI3216 (h 1 2), .movi (ri 1 2), .movhi (ri 1 2), .addiI32 (ri 1 2),
    .muliI32 (ri 1 2), .andi (ri 1 2), .ori (ri 1 2), .xori (ri 1 2),
    .shli (ri 1 2), .moviF16x2 (ri 1 2), .moviF8x4 (ri 1 2), .add (rg 0 0 0 0),
    .sub (rg 0 0 0 0), .mul (rg 0 0 0 0), .fma (rg 0 0 0 0), .minL (rg 0 0 0 0),
    .maxL (rg 0 0 0 0), .fma (rg 3 0 1 0), .minL (rg 1 0 1 0), .maxL (rg 1 0 1 0)],
    issuesB i (start []) = true := by decide +kernel

theorem witness_FloatingArithmetic : ∀ i ∈ [Instr.addF3216 (h 1 2), .subF3216 (h 1 2), .mulF3216 (h 1 2), .maxF3216 (h 1 2),
    .minF3216 (h 1 2), .addF16x216 (h 1 2), .addiF32 (ri 1 2), .muliF32 (ri 1 2),
    .addiF16x2 (ri 1 2), .muliF16x2 (ri 1 2), .addiBf16x2 (ri 1 2), .muliBf16x2 (ri 1 2),
    .add (rg 1 0 1 2), .sub (rg 3 0 1 2), .mul (rg 2 0 1 2), .fma (rg 2 0 1 2),
    .minL (rg 2 0 1 2), .maxL (rg 3 0 1 2)],
    issuesB i (start []) = true := by decide +kernel

theorem witness_FunctionsConversionsReductions : ∀ i ∈ [Instr.rcp (rg 0 0 0 0), .rsq (rg 1 0 0 0), .sqrt (rg 2 0 0 0), .exp2 (rg 3 0 0 0),
    .log2 (rg 0 0 0 0), .sin (rg 1 0 0 0), .cos (rg 2 0 0 0), .tanh (rg 3 0 0 0),
    .cvt (rg 0 6 0x15 5), .pk (rg 0 0 0 0), .upk (rg 0 0 0 0), .dp2 (rg 0 0 0 0),
    .gred (rg 0 0 0 0), .gred (rg 1 0 0 0), .gred (rg 3 0 0 0)],
    issuesB i (start []) = true := by decide +kernel

theorem witness_SelectAndBits : ∀ i ∈ [Instr.sel (rg 0 0 0 0), .dp4 (rg 0 0 0 0), .popc (rg 0 0 0 0), .clz (rg 1 0 0 0),
    .brev (rg 2 0 0 0), .ffs (rg 3 0 0 0), .bfe (rg 0 0 0 0), .bfi (rg 2 0 0 0),
    .perm (rg 3 0 0 0), .bfe (rg 1 0 0 0)],
    issuesB i (start []) = true := by decide +kernel

theorem witness_CrossLaneForms : ∀ i ∈ [Instr.cmpI32 (rg 0 0 0 0), .cmpN32 (rg 0 0 0 0), .cmpF32 (rg 0 0 0 0), .cmpxF32 (rg 0 0 0 0),
    .shfl (rg 0 0 0 0), .voteAll (rg 0 0 0 0), .voteAny (rg 1 0 0 0), .voteBallot (rg 2 0 0 0),
    .voteEq (rg 3 0 0 0), .xmovVs (rg 0 0 0 0), .xmovSv (rg 1 0 0 0), .xmovVp (rg 2 0 0 0),
    .xmovPv (rg 3 0 0 0)],
    issuesB i (start []) = true := by decide +kernel

theorem witness_ScalarForms : ∀ i ∈ [Instr.sadd (rg 0 0 0 0), .ssub (rg 1 0 0 0), .smul (rg 2 0 0 0), .sand (rg 3 0 0 0),
    .sor (rg 0 0 0 0), .sxor (rg 1 0 0 0), .sshl (rg 2 0 0 0), .sshr (rg 3 0 0 0),
    .scmp (rg 0 0 0 0)],
    issuesB i (start []) = true := by decide +kernel

theorem witness_WideForms : ∀ i ∈ [Instr.mulhHi (rg 0 0 0 0), .mulhWide (rg 2 0 0 0), .add64 (rg 0 0 0 0), .sub64 (rg 1 0 0 0),
    .sadd64 (rg 2 0 0 0), .mad64 (rg 3 0 0 0), .mulhHi (rg 1 63 63 63), .mulhWide (rg 3 63 63 62)],
    issuesB i (start []) = true := by decide +kernel

theorem witness_PredicateForms : ∀ i ∈ [Instr.pand (rg 0 0 0 0), .por (rg 1 0 0 0), .pxor (rg 2 0 0 0), .pnot (rg 3 0 0 0)],
    issuesB i (start []) = true := by decide +kernel

/-! ## Witnesses: control forms -/

/-- Splits of group 0. -/
def splits (l : List Split) : State := at_ (fun g => { g with splits := l })
/-- A split of lanes at the kernel's entry. -/
def sp (born : Nat) (mask : Word) (st : SplitState := .run) (stack : List Word := []) : Split :=
  { born := born, pc := 0x20000, mask := mask, st := st, stack := stack, queued := born }
/-- The load with another kernel descriptor. -/
def withDesc (s : State) (d : List Byte) : State := s.modSlice 0 (fun x => { x with launches := [(0, { desc := d, total := 1, dealt := 1 })] })
/-- In its handler, by the split of all lanes. -/
def handler (r : List (Nat × Word)) (smask : Word := 0xFFFFFFFF) : State :=
  at_ (fun g => { g with inh := true, s := r, trap := { smask := smask, rpc := 0x20008 } })

/-- The lanes that br.p takes. -/
def takenOf (f : CB) (s : State) : Word :=
  (splitOf s).mask &&& (if f.n then ~~~((cxOf (.brP f) s).p f.p.toNat) else (cxOf (.brP f) s).p f.p.toNat)

theorem witness_Branches :
    (∀ i ∈ [Instr.bra (cb 2 0), .brAny (cb 2 7), .brAll (cb 2 7), .brAny (cb 0xFFFF 0), .brAll (cb 0xFFFF 0)], issuesB i (start []) = true) ∧
    (issuesB (.brP (cb 2 7)) (start []) = true ∧ takenOf (cb 2 7) (start []) = (splitOf (start [])).mask) ∧
    (issuesB (.brP (cb 2 0)) (start []) = true ∧ takenOf (cb 2 0) (start []) = 0) ∧
    (let s := at_ (fun g => { g with p := [(0, 1)], splits := [sp 0 0xFFFFFFFF .run (List.replicate 7 0xFFFFFFFF)] })
     issuesB (.brP (cb 2 0)) s = true ∧ takenOf (cb 2 0) s = 1 ∧ (splitOf s).stack.length < 8) ∧
    (let s := at_ (fun g => { g with p := [(0, 1)], splits := [sp 0 0xFFFFFFFF .run (List.replicate 8 0xFFFFFFFF)] })
     issuesB (.brP (cb 2 0)) s = true ∧ takenOf (cb 2 0) s = 1 ∧ 8 ≤ (splitOf s).stack.length) := by decide +kernel

theorem witness_CallsAndJumps :
    issuesB (.call (cb 2 0)) (start []) = true ∧
    (issuesB (.ret (rg 0 0 0 0)) (start []) = true ∧ ((cxOf (.ret (rg 0 0 0 0)) (start [])).sp2 30).getLsbD 0 = false) ∧
    (issuesB (.ret (rg 0 0 0 0)) (start [(30, 1)]) = true ∧ ((cxOf (.ret (rg 0 0 0 0)) (start [(30, 1)])).sp2 30).getLsbD 0 = true) ∧
    (issuesB (.jmpR (rg 0 2 0 0)) (start []) = true ∧ ((cxOf (.jmpR (rg 0 2 0 0)) (start [])).sp2 2).getLsbD 0 = false) ∧
    (issuesB (.jmpR (rg 0 2 0 0)) (start [(2, 1)]) = true ∧ ((cxOf (.jmpR (rg 0 2 0 0)) (start [(2, 1)])).sp2 2).getLsbD 0 = true) := by
  decide +kernel

theorem witness_ParkMergeAndYield :
    (let s := splits [sp 0 1 .run [3], sp 1 2 .run [3]]
     let g := groupOf s
     let p := splitOf s
     issuesB (.rcv (rg 0 0 0 0)) s = true ∧ issuesB (.resync (rg 2 0 0 0)) s = true ∧ (∀ q ∈ g.splits, q.st ≠ .park) ∧
       (∃ q ∈ g.splits, q.born ≠ p.born) ∧ g.mergeSet p &&& ~~~p.lanes ≠ 0 ∧ g.live &&& ~~~p.lanes ≠ 0) ∧
    (let s := splits [sp 0 3 .run [3, 0xFFFFFFFF]]
     let p := splitOf s
     issuesB (.rcv (rg 0 0 0 0)) s = true ∧ issuesB (.resync (rg 2 0 0 0)) s = true ∧ (groupOf s).splits = [p] ∧ p.held = 0 ∧
       p.mask ≠ 0 ∧ p.mask &&& (p.stack.headD 0xFFFFFFFF) = p.mask) ∧
    (issuesB (.yieldSplit (rg 1 0 0 0)) (start []) = true ∧ (groupOf (start [])).waitHead = none) ∧
    (let s := splits [sp 0 1, sp 1 2, sp 2 4, sp 3 8, sp 4 16 .wait]
     issuesB (.yieldSplit (rg 1 0 0 0)) s = true ∧ (groupOf s).waitHead = some (sp 4 16 .wait) ∧
       (groupOf s).split? 4 = some (sp 4 16 .wait) ∧ (groupOf s).busy = 4) := by decide +kernel

theorem witness_ExitAndSleep :
    (issuesB (.exitLanes (rg 0 0 0 0)) (start []) = true ∧ (groupOf (start [])).inh = false ∧ (splitOf (start [])).held = 0 ∧
      (groupOf (start [])).log = [] ∧ ∀ q ∈ (groupOf (start [])).splits, q.st ≠ .park) ∧
    (∀ i ∈ [Instr.sleepUntil (rg 0 0 0 0), .sleepNs (rg 1 0 0 0)], issuesB i (start []) = true ∧ issuesB i (start [(0, 1)]) = true ∧
      ((cxOf i (start [])).sp2 0).toNat = 0 ∧ ((cxOf i (start [(0, 1)])).sp2 0).toNat = 1) ∧
    (start []).cycle = 0 ∧ issuesB (.sleepYield (rg 2 0 0 0)) (start []) = true := by decide +kernel

theorem witness_TrapsAreTaken :
    (let s := start []
     Tbl.find s.groups 0 = some (groupOf s) ∧ (groupOf s).split? 0 = some (splitOf s) ∧ (groupOf s).inh = false ∧
       s.handlerOf (groupOf s) ≠ 0) ∧
    (let s := start []
     s.cur = some (0, (splitOf s).born) ∧ (splitOf s).wait = none ∧ illegalDetail (.orL (rg 0 0 0 0)) (groupOf s).regs = 1 ∧
       illegalDetail (.add (rg 0 63 63 63)) (groupOf s).regs = 0) ∧
    (let s := splits [{ sp 0 1 with readyAt := 1 }]
     s.cur = some (0, (splitOf s).born) ∧ (splitOf s).wait = none ∧ illegalDetail (.add (rg 0 0 0 0)) (groupOf s).regs = 0 ∧
       s.ready 0 (groupOf s) (splitOf s) (.add (rg 0 0 0 0)) = false) ∧
    (let w : Wait := { insn := .barCount (ma 3 1 4 8) }
     let s := splits [{ sp 0 1 .sleep with wait := some w }]
     s.cur = some (0, (splitOf s).born) ∧ Tbl.find s.groups 0 = some (groupOf s) ∧ (groupOf s).split? 0 = some (splitOf s) ∧
       (splitOf s).wait = some w ∧ w.insn ≠ .add (rg 0 0 0 0)) ∧
    (∀ i ∈ [Instr.add (rg 0 5 0 0), .sadd (rg 0 5 0 0)],
     let s := (at_ (fun g => { g with fmode := 0x8000, hz := [{ reg := 5, cyc := 0, lanes := 1 }, { reg := 69, cyc := 0, lanes := 1 }] })).modDie 0
       (fun d => { d with cyc := 3 })
     s.cur = some (0, (splitOf s).born) ∧ Tbl.find s.groups 0 = some (groupOf s) ∧ (groupOf s).split? 0 = some (splitOf s) ∧
       (view i).lay ≠ .event ∧ illegalDetail i (groupOf s).regs = 0 ∧ s.ready 0 (groupOf s) (splitOf s) i = true ∧
       slotPowered (s.die 0) (view i).slot = true ∧ s.canPay 0 (groupOf s) (splitOf s) i = true ∧ (groupOf s).fmode.getLsbD 15 = true ∧
       ((view i).slot = .v ↔ i = .add (rg 0 5 0 0)) ∧
       ∃ x ∈ (groupOf s).hz, x.fixed = true ∧ x.cyc < s.now (groupOf s).core ∧ s.now (groupOf s).core ≤ x.cyc + 3 ∧
         x.reg ∈ readsOf i) := by decide +kernel

theorem witness_SoftwareTraps :
    (∀ s ∈ [start [], withDesc (start []) (zeros 256)], ∀ i ∈ [Instr.swTrap (rg 0 0 0 0), .brk (rg 0 0 0 0)],
      issuesB i s = true ∧ (groupOf s).inh = false ∧ (groupOf s).skipBrk ≠ some (splitOf s).born ∧
        (s.slice (groupOf s).slice).dbg.ctl.getLsbD 31 = false) ∧
    (start []).handlerOf (groupOf (start [])) = 0x20100 ∧
    (withDesc (start []) (zeros 256)).handlerOf (groupOf (start [])) = 0 := by decide +kernel

theorem witness_HandlerForms :
    (issuesB (.rfe (rg 0 0 0 0)) (start []) = true ∧ issuesB (.maskRd (rg 0 0 0 0)) (start []) = true ∧
      issuesB (.maskWr (rg 1 0 0 0)) (start []) = true ∧ (groupOf (start [])).inh = false) ∧
    (let s := handler [(0, 1)]
     let g := groupOf s
     issuesB (.rfe (rg 0 0 0 0)) s = true ∧ issuesB (.maskWr (rg 1 0 0 0)) s = true ∧ g.inh = true ∧
       g.trap.smask &&& g.live &&& ~~~(splitOf s).lanes = 0 ∧ g.trap.ctl.getLsbD 0 = false ∧ g.failedOf = [] ∧
       (∀ q ∈ g.splits, q.st ≠ .park) ∧ (splitOf s).lanes &&& g.trap.smask ≠ 0 ∧
       (cxOf (.maskWr (rg 1 0 0 0)) s).s 0 &&& g.live &&& g.trap.smask = 1) ∧
    (let s := handler []
     let g := groupOf s
     issuesB (.maskWr (rg 1 0 0 0)) s = true ∧ g.inh = true ∧ (splitOf s).lanes &&& g.trap.smask ≠ 0 ∧
       (cxOf (.maskWr (rg 1 0 0 0)) s).s 0 &&& g.live &&& g.trap.smask = 0) ∧
    (let s := at_ (fun g => { g with inh := true, s := [(0, 1)], trap := { smask := 3 }, splits := [sp 0 1, sp 1 2] })
     let g := groupOf s
     issuesB (.rfe (rg 0 0 0 0)) s = true ∧ issuesB (.maskWr (rg 1 0 0 0)) s = true ∧ g.inh = true ∧
       (splitOf s).lanes &&& g.trap.smask ≠ 0 ∧ g.trap.smask &&& g.live &&& ~~~(splitOf s).lanes = 2) := by decide +kernel

theorem witness_SpecialRegisters :
    (∀ n ∈ [0, 8, 9, 0x10, 0x11, 0x12, 0x13, 0x30, 0x31, 0x32, 0x33, 0x40, 0x41, 0x42, 0x43, 0x44, 0x45, 0x46, 0x47, 0x83, 0x18F],
      issuesB (.srRd (rg 0 (n / 64) (n % 64) 0)) (start []) = true) ∧
    (∀ n ∈ [0, 9, 0x30, 0x45, 0x47], issuesB (.srWr (rg 0 (n / 64) (n % 64) 0)) (start []) = true ∧
      issuesB (.srWr (rg 0 (n / 64) (n % 64) 0)) (handler []) = true) ∧
    (groupOf (start [])).inh = false ∧ (groupOf (handler [])).inh = true ∧
    (splitOf (handler [])).lanes &&& (groupOf (handler [])).trap.smask ≠ 0 := by decide +kernel

theorem witness_CountersBoostAndNops :
    (∀ i ∈ [Instr.nopH, .nop (rg 0 0 0 0), .nopWaitsb (rg 1 0 0 0), .ctrRd (rg 0 0 0 0), .ctrRd (rg 0 3 63 0), .ctrStart (rg 1 0 32 0),
      .ctrStart (rg 1 3 63 0), .ctrStop (rg 2 0 32 0), .ctrMark (rg 3 0 0 7), .boostClaim (rg 0 0 0 0), .boostRelease (rg 1 0 0 0),
      .boostQuery (rg 2 0 0 0)], issuesB i (start []) = true) ∧
    (let s := (start []).modSlice 0 (fun x => { x with dbg := { ctl := 0x80000000, trace := { en := true } } })
     issuesB (.ctrMark (rg 3 0 0 7)) s = true ∧ (s.slice 0).dbg.ctl.getLsbD 31 = true ∧ (s.slice 0).dbg.trace.en = true) := by
  decide +kernel

/-- A descriptor with one chart table at 0x20200, in memory. -/
def charted (r : List (Nat × Word)) : State :=
  (withDesc (start r) (bootDesc.take 0x60 ++ leBytes 8 0x20200 ++ [1] ++ zeros 0x97)).setMem 0x20200
    (leBytes 4 64 ++ leBytes 4 1 ++ zeros 24)

theorem witness_Charts :
    (∀ i ∈ [Instr.chartSel (rg 0 2 3 4), .chartRd (rg 1 2 3 4)], ∀ s ∈ [start [], start [(2, 16)], start [(3, 8)], charted [], charted [(2, 0x80000000), (3, 7)]],
      issuesB i s = true) ∧
    16 ≤ ((cxOf (.chartSel (rg 0 2 3 4)) (start [(2, 16)])).s 2).toNat ∧
    (start []).chartAt (groupOf (start [])) 0 0 = none ∧ (start []).chartAt (groupOf (start [])) 15 0 = none ∧
    ((charted []).chartAt (groupOf (charted [])) 0 0 = some 0x20200 ∧
      ((goneOn (.chartSel (rg 0 2 3 4)) (charted [])).tableBytes (groupOf (charted [])) 0x20200 256).toOption.isSome = true ∧
      (goneOn (.chartSel (rg 0 2 3 4)) (charted [])).tablePoison (groupOf (charted [])) 0x20200 256 = none) ∧
    7 < ((cxOf (.chartRd (rg 1 2 3 4)) (start [(3, 8)])).s 3).toNat ∧
    (let w := ((cxOf (.chartRd (rg 1 2 3 4)) (charted [(2, 0x80000000), (3, 7)])).s 2).toNat
     bits w 29 8 = 0 ∧ nbit w 3 = false ∧ nbit w 31 = true ∧
       (charted []).chartAt (groupOf (charted [])) (bits w 7 4) (bits w 2 0) = some 0x20200 ∧
       ((goneOn (.chartRd (rg 1 2 3 4)) (charted [(2, 0x80000000), (3, 7)])).tableBytes (groupOf (charted [])) 0x20200 32).toOption.isSome = true ∧
       (goneOn (.chartRd (rg 1 2 3 4)) (charted [(2, 0x80000000), (3, 7)])).tablePoison (groupOf (charted [])) 0x20200 32 = none) := by
  decide +kernel

/-! ## Witnesses: memory and synchronisation forms -/

/-- Fields of a little-endian image, each as a length and a value. -/
def image (l : List (Nat × Nat)) : List Byte := l.flatMap (fun e => leBytes e.1 e.2)

/-- A register pair s0:s1 that holds an address. -/
def pair (a : Nat) : List (Nat × Word) := [(0, .ofNat 32 a), (1, .ofNat 32 (a / 2 ^ 32))]

/-- The core's scratchpad in its window. -/
def spad0 : Nat := 0x01FFFFFFFF000000

/-- A split of lane 0 alone. -/
def lone (r : List (Nat × Word) := []) : State := at_ (fun g => { g with s := r, splits := [sp 0 1] })
/-- The same where v0:v1 and s0:s1 are addresses beyond the windows. -/
def astray : State := at_ (fun g => { g with v := [(32, 0x02000000)], s := [(1, 0x02000000)], splits := [sp 0 1] })

theorem witness_AccessChecks :
    let g := groupOf (start [])
    windowOf 0x0200000000000000 = .bad ∧ windowOf 0x01FFFFFEFFFFFFF0 = .glob ∧
    windowOf 0x01FFFFFF00000000 = .priv ∧ windowOf 0x01FFFFFFFEFFFFF0 = .priv ∧ g.privWords.toNat < 0 / 4 + (4 + 3) / 4 ∧
    windowOf 0x01FFFFFFFF000000 = .spad ∧ windowOf 0x01FFFFFFFFFFFFF0 = .spad ∧
    (0x01FFFFFFFF000000 - 0x01FFFFFFFF000000) / 4194304 = g.lCore ∧ 4080 + 16 ≤ g.spadLimit.toNat ∧
    ¬ 4084 + 16 ≤ g.spadLimit.toNat := by decide +kernel

/-- A slot of the window that the cluster does not fill: every core of it is fused out. -/
theorem witness_AccessChecks_slot (s : State) (h : s.m.fusedCores = [0, 1, 2, 3]) : (s.clusterCores 0).length ≤ 1 := by
  simp [State.clusterCores, State.enabled, h, List.range_succ]

/-- The pieces that the checks of a lane access give. -/
def lanesOk (i : Instr) (s : State) (o : AccOpt) (size : Nat) (addr : Cx → Nat → DWord) : Option Nat :=
  if issuesB i s then ((cxOf i s).checkLanes (goneOn i s) o size (addr (cxOf i s))).toOption.map List.length else some 99
/-- Those of an access at one address. -/
def oneOk (i : Instr) (s : State) (o : AccOpt) (size : Nat) (addr : Cx → DWord) : Option Nat :=
  if issuesB i s then ((cxOf i s).checkOne (goneOn i s) o size (addr (cxOf i s))).toOption.map List.length else some 99

theorem witness_LoadsAreRecorded :
    (∀ e ∈ [(Instr.ldB (mo 0 0 0), 1), (.ldBn (mo 0 0 0), 1), (.ldH (mo 0 0 0), 2), (.ldHn (mo 0 0 0), 2), (.ldW (mo 0 0 0), 4),
        (.ldD (mo 0 0 0), 8), (.ldQ (mo 0 0 0), 16)],
      lanesOk e.1 lone {} e.2 (moAt 0 0 e.2) = some 1 ∧ lanesOk e.1 astray {} e.2 (moAt 0 0 e.2) = none) ∧
    (∀ e ∈ [(Instr.ldsW (mo 0 1 2), 4), (.ldsD (mo 0 1 2), 8)],
      oneOk e.1 lone { priv := false } e.2 (fun c => moAt 1 0 e.2 c 0) = some 1 ∧
      oneOk e.1 astray { priv := false } e.2 (fun c => moAt 1 0 e.2 c 0) = none) ∧
    (let i := Instr.cntRd (ma 1 1 4 0)
     let o : AccOpt := { priv := false, spad := false, peer := false }
     oneOk i lone o 16 (fun c => c.addr 1 (firstLane c.mask)) = some 1 ∧
       oneOk i astray o 16 (fun c => c.addr 1 (firstLane c.mask)) = none) ∧
    (let s := lone.modM (fun m => { m with mcjoin := [(0, 0x80000000), (1, 1)] })
     ∀ i ∈ [Instr.ldRedAddF32 (ma 1 0 0 0), .ldRedAddBf16 (ma 2 0 0 0), .ldRedMaxF32 (ma 3 0 0 0)], issuesB i s = true ∧
       ∀ l ∈ (cxOf i s).lanes, (goneOn i s).checkMc 0 l ((cxOf i s).addr 0 l) =
         .ok [{ lane := l, ea := 0, loc := .mcast 0 0 }]) := by decide +kernel

theorem witness_StoresAreRecorded :
    (∀ e ∈ [(Instr.stB (mo 0 0 0), 1), (.stH (mo 0 0 0), 2), (.stW (mo 0 0 0), 4), (.stD (mo 0 0 0), 8), (.stQ (mo 0 0 0), 16)],
      lanesOk e.1 lone { acc := .store } e.2 (moAt 0 0 e.2) = some 1 ∧
      lanesOk e.1 astray { acc := .store } e.2 (moAt 0 0 e.2) = none) ∧
    (oneOk (.stsW (mo 0 1 2)) lone { acc := .store, priv := false } 4 (fun c => moAt 1 0 4 c 0) = some 1 ∧
      oneOk (.stsW (mo 0 1 2)) astray { acc := .store, priv := false } 4 (fun c => moAt 1 0 4 c 0) = none) ∧
    (let s := lone.modM (fun m => { m with mcjoin := [(0, 0x80000000), (1, 1)] })
     issuesB (.stMc (ma 0 0 0 0)) s = true ∧ ∀ l ∈ (cxOf (.stMc (ma 0 0 0 0)) s).lanes,
       (goneOn (.stMc (ma 0 0 0 0)) s).checkMc 0 l ((cxOf (.stMc (ma 0 0 0 0)) s).addr 0 l) =
         .ok [{ lane := l, ea := 0, loc := .mcast 0 0 }]) := by decide +kernel

theorem witness_AtomicsAreRecorded :
    (∀ e ∈ [(Instr.atomA (ma 0 0 2 0), true, 4), (.atomA (ma 3 0 2 0), false, 4), (.atomB (ma 3 0 2 0), true, 4), (.atomB (ma 0 0 2 0), false, 4),
        (.atomC (ma 0 0 2 0), true, 4), (.atomC (ma 1 0 2 0), false, 4), (.atomC (ma 2 0 2 0), false, 4), (.atomC (ma 3 0 2 0), true, 8),
        (.red (ma 0 0 2 0), true, 4), (.red (ma 1 0 2 0), false, 4)],
      lanesOk e.1 lone { acc := .store, priv := false, host := e.2.1 } e.2.2 (fun c l => c.addr 0 l) = some 1 ∧
      lanesOk e.1 astray { acc := .store, priv := false, host := e.2.1 } e.2.2 (fun c l => c.addr 0 l) = none) ∧
    (let o : AccOpt := { acc := .store, priv := false, peer := false, host := false }
     oneOk (.barArrive (ma 0 1 0 0)) lone o 8 (fun c => c.addr 1 (firstLane c.mask)) = some 1 ∧
       oneOk (.barArrive (ma 0 1 0 0)) astray o 8 (fun c => c.addr 1 (firstLane c.mask)) = none) ∧
    (let o : AccOpt := { acc := .store, glob := false, priv := false }
     ∀ i ∈ [Instr.arrArrive (rg 0 1 0 2), .arrExpect (rg 1 1 0 2)],
       lanesOk i (lone (pair spad0)) o 16 (fun c l => c.addr 1 l) = some 1 ∧ lanesOk i lone o 16 (fun c l => c.addr 1 l) = none) ∧
    (let o : AccOpt := { acc := .store, priv := false, spad := false, peer := false }
     oneOk (.cntAdd (ma 0 1 4 0)) lone o 16 (fun c => c.addr 1 (firstLane c.mask)) = some 1 ∧
       oneOk (.cntAdd (ma 0 1 4 0)) astray o 16 (fun c => c.addr 1 (firstLane c.mask)) = none) ∧
    issuesB (.collSignal (rg 3 1 2 0)) lone = true := by decide +kernel

theorem witness_FencesAndPhases :
    (∀ i ∈ [Instr.fence (ma 0 0 0 0), .fence (ma 1 0 0 0), .fence (ma 3 0 0 10), .phaseOpen (ma 1 0 0 4), .phaseOpen (ma 1 0 0 5),
        .phaseClose (ma 0 0 0 5), .phaseClose (ma 0 0 0 6), .phaseCycle (ma 2 0 0 5), .phaseCycle (ma 2 0 0 10), .phaseTest (ma 3 0 1 8)],
      issuesB i (start []) = true) ∧
    (groupOf (start [])).valuesBack (groupOf (start [])).nextNum = true ∧ ((start []).core 0).fused = false ∧
    ((start []).die 0).couch = [] ∧ (groupOf (start [])).log = [] := by decide +kernel

/-- The word of an instruction. -/
def wordOf (i : Instr) : Word := match encode i with | some e => .ofNat 32 e.2 | none => 0

/-- The state in which s0:s1 name bytes of device memory. -/
def withObj (b : List Byte) (r : List (Nat × Word) := []) : State := (start (pair 0x20400 ++ r)).setMem 0x20400 b

theorem witness_WaitsAndTests :
    (let s := withObj (leBytes 8 (barWord 3 1 2))
     let o : AccOpt := { priv := false, peer := false, host := false }
     (∀ i ∈ [Instr.barWait (ma 1 1 4 8), .barCount (ma 3 1 4 8)], oneOk i s o 8 (fun c => c.addr 1 (firstLane c.mask)) = some 1) ∧
     oneOk (.barArriveWait (ma 2 1 0 8)) s { o with acc := .store } 8 (fun c => c.addr 1 (firstLane c.mask)) = some 1 ∧
     (cxOf (.barArriveWait (ma 2 1 0 8)) s).arrived = none ∧ (groupOf s).log = [] ∧ (splitOf s).mask ≠ 0 ∧
     (∃ a ∈ ((cxOf (.barWait (ma 1 1 4 8)) s).checkOne (goneOn (.barWait (ma 1 1 4 8)) s) o 8 0x20400).toOption.getD [],
       barBad (ofLe ((goneOn (.barWait (ma 1 1 4 8)) s).homeRead (groupOf s) 8 a.loc 8)) = false ∧
       barGen (ofLe ((goneOn (.barWait (ma 1 1 4 8)) s).homeRead (groupOf s) 8 a.loc 8)) = 3 ∧
       waitTurn (groupOf s) (groupOf s).nextNum [a] = true ∧
       ∀ i ∈ [Instr.barWait (ma 1 1 4 8), .barCount (ma 3 1 4 8)], (goneOn i s).locPoison a.loc 8 = none)) ∧
    (let i := Instr.barArriveWait (ma 2 1 0 8)
     let e : Entry := { kind := 8, split := some 0, pc := 0x20000, insn := wordOf i, mask := 1 }
     let s := at_ (fun g => { g with splits := [sp 0 1], log := [e], nextNum := 1 })
     issuesB i s = true ∧ (cxOf i s).arrived = some e ∧ (groupOf s).entry? e.id = some e ∧ e.complete = false) ∧
    (let s := lone (pair spad0)
     let o : AccOpt := { glob := false, priv := false }
     lanesOk (.arrTest (rg 2 1 2 1)) s o 16 (fun c l => c.addr 1 l) = some 1 ∧
     lanesOk (.arrWait (rg 3 1 4 2)) s o 16 (fun c l => c.addr 1 l) = some 1 ∧
     (match (cxOf (.arrWait (rg 3 1 4 2)) s).checkLanes (goneOn (.arrWait (rg 3 1 4 2)) s) o 16 (fun _ => 0x01FFFFFFFF000000) with
      | .ok accs => waitTurn (groupOf s) (groupOf s).nextNum accs && accs.all (fun a => ((goneOn (.arrWait (rg 3 1 4 2)) s).locPoison a.loc 16).isNone) &&
          ((goneOn (.arrWait (rg 3 1 4 2)) s).arrivalsOf accs).all (fun x => decide (x.2.err = 0) && reached x.2.gen 0)
      | .error _ => false) = true) ∧
    (let s := withObj (leBytes 8 5)
     let o : AccOpt := { priv := false, spad := false, peer := false }
     oneOk (.cntWait (ma 2 1 4 8)) s o 16 (fun c => c.addr 1 (firstLane c.mask)) = some 1 ∧
     oneOk (.cntTest (ma 3 1 4 8)) s o 16 (fun c => c.addr 1 (firstLane c.mask)) = some 1 ∧
     (∃ a ∈ ((cxOf (.cntWait (ma 2 1 4 8)) s).checkOne (goneOn (.cntWait (ma 2 1 4 8)) s) o 16 0x20400).toOption.getD [],
       waitTurn (groupOf s) (groupOf s).nextNum [a] = true ∧
       (∀ i ∈ [Instr.cntWait (ma 2 1 4 8), .cntTest (ma 3 1 4 8)], (goneOn i s).locPoison a.loc 16 = none) ∧
       field ((goneOn (.cntWait (ma 2 1 4 8)) s).homeRead (groupOf s) 8 a.loc 16) 0 8 = 5)) ∧
    (∀ i ∈ [Instr.collWait (rg 1 1 0 0), .collTest (rg 2 1 0 1)], issuesB i (start []) = true) ∧
    (let s := (start []).modCore 0 (fun c => { c with tileWg := some 0 })
     issuesB (.mmaWait (rg 2 0 0 7)) s = true ∧ issuesB (.mmaFence (rg 3 0 10 0)) s = true ∧ (s.core 0).tileWg = some 0 ∧
       (groupOf s).wg = 0 ∧ (groupOf s).log = [] ∧ (groupOf s).zeroed (s.now 0) = true ∧ (groupOf s).converted (groupOf s).nextNum = true) := by
  decide +kernel

/-- Images of a copy, a two-dimensional copy and a collective of two members. -/
def copyImg : List Byte := image [(8, 2), (8, 0x20800), (8, 0x20900), (8, 16), (32, 0)]
def copy2dImg : List Byte := image [(8, 3), (8, 0x20800), (8, 0x20900), (4, 16), (4, 1), (4, 16), (4, 16), (24, 0)]
def collImg : List Byte := image [(8, 4), (8, 0x20800), (8, 0x20900), (8, 4096), (1, 0x10), (1, 12), (2, 2), (28, 0)]

/-- The load on a slice that names copy engine 0, with an image at the address in s0:s1. -/
def withImg (b : List Byte) (jobs : List CopyJob := []) : State :=
  ((withObj b).modSlice 0 (fun x => { x with cemask := 1 })).modEngine 0 0 (fun e => { e with jobs := jobs })

/-- Whether an image form finds its image good: the checks of the statements, for the engine's die 0. -/
def imgOk (i : Instr) (ty : Nat) (s : State) : Bool :=
  issuesB i s && (match (cxOf i s).checkOne (goneOn i s) { priv := false } 64 0x20400 with
    | .ok [a] => !a.remote && waitTurn (groupOf s) (groupOf s).nextNum [a] && !(goneOn i s).frameBusy (groupOf s).slice a &&
        (goneOn i s).ctlOwner (groupOf s) a &&
        ((goneOn i s).readsPoison (groupOf s) a).isNone &&
        (let b := (goneOn i s).readLoc (groupOf s) a.loc 64
         !(goneOn i s).imageBad 0 0 ty b && ((goneOn i s).objFault 0 0 b).isNone)
    | _ => false)

theorem witness_CopiesAndCollectives :
    (selector 0 = some (0, 0) ∧ (withImg copyImg).physDie 0 0 = some 0 ∧ (withImg copyImg).ceNamed 0 0 0 = true ∧
      (cxOf (.cpIssue (rg 0 1 2 4)) (withImg copyImg)).addr1 = 0x20400 ∧ (cxOf (.cpIssue (rg 0 1 2 4)) (withImg copyImg)).s 2 = 0 ∧
      imgOk (.cpIssue (rg 0 1 2 4)) 2 (withImg copyImg) = true ∧ imgOk (.cpIssue2d (rg 1 1 2 4)) 3 (withImg copy2dImg) = true ∧
      imgOk (.collIssue (rg 0 1 0 4)) 4 (withImg collImg) = true) ∧
    (let j : CopyJob := { imageAt := 0x20400, gid := some (0, 0), image := copyImg, inflight := [{ len := 8 }] }
     let s := withImg copyImg [j]
     ∀ i ∈ [Instr.cpRekey (rg 2 1 2 4), .cpCancel (rg 3 1 2 4)], issuesB i s = true ∧ issuesB i (withImg copyImg) = true ∧
       (goneOn i s).copyFrom (groupOf s) 0 0 (cxOf i s).addr1 = some j ∧ j.stopped = none ∧ j.cancel = none ∧ j.next < j.size ∧
       (goneOn i (withImg copyImg)).copyFrom (groupOf s) 0 0 (cxOf i s).addr1 = none ∧
       selector ((cxOf i (start [])).s 2) = some (0, 0) ∧ issuesB i (start []) = true ∧ (goneOn i (start [])).physDie 0 0 = some 0 ∧
       (goneOn i (start [])).ceNamed 0 0 0 = false) ∧
    (let s := ((withImg copyImg).modM (fun m => { m with routes := [(0, 0x80000000 + 3 * 2 ^ 26 + 2 ^ 18 + 5)] })).modDie 0 (fun d =>
       { d with stlb := [{ va := 0x20000, out := 0x20000, target := 2, r := true, w := true, owner := 0 }] })
     ∀ i ∈ [Instr.cpIssue (rg 0 1 2 4), .cpIssue2d (rg 1 1 2 4), .collIssue (rg 0 1 0 4)], issuesB i s = true ∧
       selector ((cxOf i s).s 2) = some (0, 0) ∧ (goneOn i s).physDie 0 0 = some 0 ∧ (goneOn i s).ceNamed 0 0 0 = true ∧
       (match (cxOf i s).checkOne (goneOn i s) { priv := false } 64 (cxOf i s).addr1 with
        | .ok [a] => a.remote && waitTurn (groupOf s) (groupOf s).nextNum [a]
        | _ => false) = true ∧ (cxOf i s).asked = false ∧ (groupOf s).log = []) := by decide +kernel

/-- A format block of one row and one column of 32 bytes, on the core or its cluster. -/
def fmtBlock (flags : Nat) : List Byte :=
  image [(2, 1), (2, 1), (4, 32), (8, spad0), (8, spad0 + 256), (4, 64), (4, 64), (1, 0), (1, 0), (1, 1), (1, 0), (1, 0), (1, flags), (26, 0)]

/-- The load where the workgroup holds the tile store. -/
def tiled (s : State) : State := s.modCore 0 (fun c => { c with tileWg := some 0 })

/-- Whether mma.issue finds its block and operands good. -/
def mmaOk (i : Instr) (cl : Bool) (s : State) : Bool :=
  (match (cxOf i s).checkOne (goneOn i s) { priv := false, peer := false } 64 0x20400 with
    | .ok [a] => waitTurn (groupOf s) (groupOf s).nextNum [a] && !(goneOn i s).frameBusy (groupOf s).slice a &&
        (goneOn i s).ctlOwner (groupOf s) a &&
        ((goneOn i s).readsPoison (groupOf s) a).isNone &&
        (let b := (goneOn i s).readLoc (groupOf s) a.loc 64
         (Fb.of b).ok b cl && !(Fb.of b).gather && ((goneOn i s).operandFails (groupOf s) ((goneOn i s).operandRanges (groupOf s) (Fb.of b))).isEmpty)
    | _ => false)

/-- Where no array queue that is listed holds an operation, every queue is empty. -/
theorem queues_empty (s : State) (h : ∀ c ∈ s.cores, c.2.queue = []) (k : Nat) : (s.core k).queue = [] := by
  have : ∀ (t : Tbl Core), (∀ c ∈ t, c.2.queue = []) → (Tbl.get t {} k).queue = [] := by
    intro t ht
    induction t with
    | nil => rfl
    | cons c r ih =>
      rw [Tbl.get_eq, Tbl.find_cons]
      split
      · exact ht c (by simp)
      · exact ih (fun x hx => ht x (by simp [hx]))
  exact this s.cores h

/-- What R124 asks of a cluster-scope mma.issue besides. -/
theorem roomFor_mmaCl (s : State) (gid : Nat) (g : Group) (p : Split) (f : RG) : s.roomFor gid g p (.mmaIssueCl f) =
    ((s.cx gid g p (.mmaIssueCl f)).vw.d % 4 != 0 || (s.tileMine g.core g.wg &&
      s.arrayRoom (s.blockCores g (s.cx gid g p (.mmaIssueCl f)).addr1.toNat))) := rfl

/-- A format block of a cluster-scope operation. -/
def mmaCl : State := tiled (withObj (fmtBlock 4))

theorem mmaCl_queues : ∀ k, (mmaCl.core k).queue = [] := queues_empty _ (by decide +kernel)

theorem witness_MatrixForms_cl :
    issuesB (.mmaIssueCl (rg 1 1 0 4)) mmaCl = true ∧ mmaOk (.mmaIssueCl (rg 1 1 0 4)) true mmaCl = true ∧
      ∀ k, ((goneOn (.mmaIssueCl (rg 1 1 0 4)) mmaCl).core k).queue.length < 8 := by
  have room (l : List Nat) : mmaCl.arrayRoom l = true := by simp [State.arrayRoom, mmaCl_queues]
  have q : mmaCl.roomFor 0 (groupOf mmaCl) (splitOf mmaCl) (.mmaIssueCl (rg 1 1 0 4)) = true := by
    rw [roomFor_mmaCl, room, Bool.and_true]
    decide +kernel
  have e : mmaCl.ready 0 (groupOf mmaCl) (splitOf mmaCl) (.mmaIssueCl (rg 1 1 0 4)) = true := by
    unfold State.ready State.ready4
    rw [q]
    decide +kernel
  refine ⟨?_, by decide +kernel, fun k => ?_⟩
  · unfold issuesB
    dsimp only
    rw [e]
    decide +kernel
  · rw [queues_empty _ (by decide +kernel) k]
    decide

theorem witness_MatrixForms :
    (let s := tiled (withObj (fmtBlock 0))
     issuesB (.mmaIssueCore (rg 0 1 0 2)) s = true ∧ mmaOk (.mmaIssueCore (rg 0 1 0 2)) false s = true ∧
       (Fb.of (fmtBlock 0)).cluster = false ∧ ((goneOn (.mmaIssueCore (rg 0 1 0 2)) s).core 0).queue.length < 8) ∧
    (∀ e ∈ [(Instr.tileTld (rg 0 1 2 0), Access.load), (.tileTst (rg 1 1 2 0), .store)],
      let w := 0x02000000 + 7 * 512
      let good := tiled (start (pair spad0 ++ [(2, .ofNat 32 w)]))
      issuesB e.1 (tiled (start [])) = true ∧ tilePitch 0 = 0 ∧ issuesB e.1 good = true ∧ tilePitch w = 64 ∧ tileCols w = 8 ∧
        w % 512 = 0 ∧ ((cxOf e.1 good).tileCheck (goneOn e.1 good) e.2 w).toOption.isSome = true ∧
        ((cxOf e.1 (tiled (start ([(0, 4), (2, .ofNat 32 w)])))).tileCheck (tiled (start [])) e.2 w).toOption.isSome = false) ∧
    (issuesB (.tileTzero (rg 2 0 0 7)) (tiled (start [])) = true ∧ (tiled (start [])).accInFlight 0 7 = false) ∧
    (let w := 0x02000000 + 7 * 512 + 2 * 32
     let s := tiled (start (pair spad0 ++ [(2, .ofNat 32 w)]))
     issuesB (.tileTcvt (rg 3 1 2 7)) s = true ∧ cvtRow w = some 8 ∧ tilePitch w = 64 ∧ tileCols w = 8 ∧ tileRows w = 1 ∧
       (cxOf (.tileTcvt (rg 3 1 2 7)) s).addr 1 (firstLane (splitOf s).mask) = 0x01FFFFFFFF000000 ∧ (groupOf s).lCore = 0 ∧
       64 ≤ (groupOf s).spadLimit.toNat ∧ s.inOperand 0 0 64 = false ∧
       (goneOn (.tileTcvt (rg 3 1 2 7)) s).tileReads 0 7 w = false ∧ (goneOn (.tileTcvt (rg 3 1 2 7)) s).spadCut 0 0 8 = false) ∧
    (let w := 0x02000000 + 7 * 512
     (goneOn (.tileTst (rg 1 1 2 0)) (tiled (start (pair spad0 ++ [(2, .ofNat 32 w)])))).tileReads 0 0 w = false) := by decide +kernel

theorem witness_CouchAndPrefetch :
    (let i := Instr.contEmit (rg 0 1 0 0)
     let d := bootDesc.take 0x40 ++ leBytes 8 0x20800 ++ leBytes 4 1 ++ zeros 0xB4
     issuesB i (start []) = true ∧ ((start []).launchOf (groupOf (start []))).contBase = 0 ∧
     (∀ s ∈ [withDesc (start [(0, 1)]) d, withDesc (start (pair spad0)) d, withDesc (start (pair 0x20000)) d],
       issuesB i s = true ∧ (s.launchOf (groupOf s)).contBase = 0x20800) ∧
     ((cxOf i (start [(0, 1)])).addr 1 0).toNat % 2 = 1 ∧ windowOf ((cxOf i (start (pair spad0))).addr 1 0).toNat = .spad ∧
     (goneOn i (withDesc (start (pair 0x20000)) d)).areaFull 0 0 = false ∧
     (goneOn i (withDesc (start (pair 0x20000)) d)).binFor 0 0 0 0x20000 = some 0) ∧
    (let s := at_ (fun g => { g with log := [{ kind := 13 }], nextNum := 1 })
     issuesB (.contFlush (rg 1 0 0 0)) s = true ∧ issuesB (.contFlush (rg 1 0 0 0)) (start []) = true ∧
       ∃ e ∈ (groupOf s).log, e.kind = 13 ∧ e.num < (groupOf s).nextNum) ∧
    (let s := splits [sp 0 1]
     issuesB (.pf (mo 0 0 1)) s = true ∧ issuesB (.pf (mo 0 0 2)) s = true ∧ (splitOf s).mask = maskOf [0] ∧
       (goneOn (.pf (mo 0 0 1)) s).checkGlobal (groupOf s) { host := false, peer := false } 0 false = .ok (.cached 0 0 false) ∧
       (goneOn (.pf (mo 0 0 1)) s).poisoned 0 = false ∧
       (goneOn (.pf (mo 0 0 1)) s).evictOk (groupOf s) false { loc := .cached 0 0 false } = true) := by decide +kernel

/-! ## Witnesses: events of the part -/

def dieIs (x : Die) : State := { State.reset with dies := [(0, x)] }
def sliceIs (x : Slice) : State := { State.reset with slices := [(0, x)] }
def moduleIs (x : Module) : State := { State.reset with m := x }
/-- Sixteen VFs, slice 0 as given. -/
def vfs (x : Slice) : State := { State.reset with slices := [(0, x)], m := { vfEnabled := true, numVfs := 16 } }

theorem witness_HostStatesAndWays :
    (dieIs {}).m.recovery = false ∧ ((dieIs { busy := true }).die 0).busy = true ∧
    (((0x00BB0003 : Word).extractLsb' 20 4).toNat < 12 ∧ 11 < ((0x00CC0003 : Word).extractLsb' 16 4).toNat ∧
      (0x00CB0008 : Word).extractLsb' 3 13 ≠ 0 ∧ ((dieIs {}).die 0).busy = false) ∧
    ((dieIs { hs := 2, curhs := 2 }).pwrReject 0 0x08FB0007 = none ∧ (dieIs {}).pwrReject 0 0x00CB0001 = none) ∧
    (∀ x ∈ [({ vfEnd := 1 } : Die), { vfEnd := 1, hsEnd := 2 }, { hsEnd := 1 }, { hsEnd := 1, hs := 2 }],
      ((dieIs x).die 0).vfEnd ≠ 0 ∨ (((dieIs x).die 0).hsEnd ≠ 0 ∧ ((dieIs x).die 0).vfEnd = 0)) ∧
    (0 : Word) &&& ~~~(Config.wayFuse 0) &&& ~~~((dieIs {}).die 0).wayHost &&& (dieIs {}).waysNamed 0 = 0 := by
  refine ⟨by decide, by decide, by decide, by decide +kernel, by decide, by simp⟩

/-- A way that a locked deckle names, where no fuse has disabled it. -/
theorem witness_HostStatesAndWays_named (h : Config.wayFuse 0 = 0) :
    let s := vfs { st := .active, tdi := .run, ways := [(0, 1)] }
    (1 : Word) &&& ~~~(Config.wayFuse 0) &&& ~~~(s.die 0).wayHost &&& s.waysNamed 0 ≠ 0 := by
  rw [h]; decide +kernel

/-- A die that boosts may rise: a group of a slice that claims it. -/
def claiming (x : Die) (cyc : Nat := 0) : State :=
  { at_ (fun g => { g with claim := true }) with dies := [(0, x)], cycle := cyc }

theorem witness_BoostPermits :
    ((claiming {}).claimSlices 0 ≠ [] ∧
      ∀ x ∈ [({ boosten := true, curhs := 3, permits := 1, tdie := 94 } : Die), { boosten := true, curhs := 3, permits := 8, pbudget := 9, exhausted := true }],
        x.boosting = false ∧ x.fall = false ∧ x.busy = false ∧ x.boosten = true ∧ x.curhs = 3 ∧ x.tdie.toNat < 95 ∧ 1 ≤ x.permits.toNat ∧
        (x.exhausted = true → min 8 x.pbudget.toNat ≤ x.permits.toNat)) ∧
    (let s := claiming { boosting := true, boosten := true, boostEnd := 4000, permits := 1 } 4000
     (s.die 0).boostEnd ≤ s.cycle ∧ (s.die 0).permits ≠ 0 ∧ s.claimSlices 0 = [0] ∧ (s.die 0).fall = false ∧ (s.die 0).claimers = [] ∧
       ((claiming { claimers := [0] }).die 0).claimers = (claiming { claimers := [0] }).claimSlices 0) ∧
    (∀ x ∈ [({ boosting := true, boosten := true, boostEnd := 4000 } : Die), { boosting := true, boosten := false, boostEnd := 4000, permits := 1 },
        { boosting := true, boosten := true, boostEnd := 4000, permits := 1, tdie := 95 }],
      (x.permits = 0 ∨ x.boosten = false ∨ 95 ≤ x.tdie.toNat) ∧ x.boostEnd ≠ 0 ∧ x.boostEnd ≤ 4000 ∧ x.fall = false) ∧
    (dieIs { boosting := true, boosten := true, boostEnd := 4000, permits := 1 }).claimSlices 0 = [] ∧
    (∀ x ∈ [({ fall := true, boosting := true, fallEnd := 0 } : Die)], x.fallEnd + 10000 ≤ 10000 ∧ x.fall = true ∧ x.boosting = true) ∧
    (∀ x ∈ [({ fall := true, fallEnd := 0 } : Die)], x.fallEnd + 20000 ≤ 20000 ∧ x.fall = true ∧ x.boosting = false) ∧
    (∀ x ∈ [({ boosten := true, refillAt := 50000 } : Die)], x.boosting = false ∧ x.refillAt ≠ 0 ∧ x.refillAt ≤ 50000) := by decide +kernel

theorem witness_SlopeHeatAndPower :
    (({} : Die).idleEngine = none ∧ ({} : Die).spentLast ≤ Config.currentOf ({} : Die).spent + 8) ∧
    (∀ l ∈ [[], [(0, 5)]], let x : Die := { lastUse := [(0, 0)], cyc := 1, lastSlice := l }
     x.idleEngine = some 0 ∧ Tbl.get x.lastSlice 16 0 = (if l = [] then 16 else 5)) ∧
    (let x : Die := { spentLast := Config.currentOf 0 + 9 }
     Config.currentOf x.spent + 8 < x.spentLast) ∧
    (({ trip := true } : Die).trip = true ∧ (114 : Byte).toNat < 115 ∧ 115 ≤ (115 : Byte).toNat) ∧
    ((0x80000000 : Word).getLsbD 31 = true ∧ ({ tdie := 104 } : Die).tdie.toNat < 105 ∧ 105 ≤ ({ tdie := 105 } : Die).tdie.toNat) ∧
    ((dieIs { curhs := 2 }).die 0).curhs ≠ 3 ∧
    (let s : State := { State.reset with dies := [(0, { curhs := 3, adm := 1 })], cores := [(0, { owner := 0 })] }
     dieOf 0 = 0 ∧ (s.die 0).curhs = 3 ∧ Tbl.get (s.die 0).debt 0 0 = 0 ∧ s.admitted 0 = true) ∧
    (let s : State := { State.reset with dies := [(0, { curhs := 3, adm := 1, debt := [(0, 65536)] })], cores := [(0, { owner := 0 })] }
     256 * min (s.die 0).fact.toNat s.m.fp.toNat ≤ Tbl.get (s.die 0).debt 0 0 ∧ s.admitted 0 = true) := by
  refine ⟨⟨rfl, Nat.zero_le _⟩, by decide, Nat.lt_succ_self _, by decide, by decide, by decide, by decide +kernel, by decide +kernel⟩

theorem witness_HostRegisters :
    State.reset.m.recovery = false ∧ (moduleIs { recovery := true }).m.recovery = true ∧ (State.reset.slice 15).tdi = .configUnlocked ∧
    ((sliceIs { tdi := .configLocked }).slice 0).tdi ≠ .configUnlocked ∧ (moduleIs { vfEnabled := true, numVfs := 16 }).vfExists 15 = true ∧
    State.reset.vfExists 0 = false ∧ State.reset.vfLocked 15 = false ∧ (vfs { tdi := .configLocked }).vfLocked 0 = true ∧
    (State.reset.windowShut 0 0x20120 = false ∧ State.reset.counterOf 0 0x20120 = some 0 ∧
      State.reset.windowShut 16 0x2384 = false ∧ State.reset.counterOf 16 0x2380 = some 0) ∧
    ((sliceIs { shTag := shadowTag 0x2380 }).slice (fnSlice 1)).shTag = shadowTag 0x2380 ∧
    (State.reset.slice (fnSlice 1)).shTag ≠ shadowTag 0x2380 ∧
    (vfs { tdi := .configLocked }).windowShut 0 0x802380 = true := by decide +kernel

theorem witness_HostReachesDeviceMemory :
    (State.reset.die (homeDie 0)).curhs.toNat < 2 ∧
    (let s := ({ vfs { tdi := .run } with dies := [(0, { curhs := 2 })] } : State).setMem 0x7FFF800000 [0]
     homeDie 0 = 0 ∧ 2 ≤ (s.die 0).curhs.toNat ∧ s.bar2At 0 = 0 ∧ s.bar2Busy 0 = false ∧ s.m.recovery = false ∧
       s.pfMay (s.ownerNow 0) = false) ∧
    (let s : State := { moduleIs { bar2win := 7 } with dies := [(3, { curhs := 2 })] }
     s.bar2At 0xFFF800000 = 0x7FFF800000 ∧ homeDie 0x7FFF800000 = 3 ∧ 2 ≤ (s.die 3).curhs.toNat ∧ s.bar2Busy 0x7FFF800000 = false ∧
       s.m.recovery = false) ∧
    (∀ x ∈ [({ ownBusy := true, ownJob := some { mode := 1, owner := 0, frame := 0, endAt := 4000 } } : Module), { recovery := true }],
     let s : State := { moduleIs x with dies := [(0, { curhs := 2 })] }
     s.bar2At 0 = 0 ∧ homeDie 0 = 0 ∧ 2 ≤ (s.die 0).curhs.toNat ∧ s.bar2Busy 0 = !s.m.recovery ∧ s.poisonIn 0 8 = none) ∧
    (let s := (dieIs { curhs := 2 }).setMem 0x7FFF800000 [16]
     s.bar2At 0 = 0 ∧ s.bar2Busy 0 = false ∧ s.m.recovery = false ∧ s.pfMay (s.ownerNow 0) = true ∧ s.poisonIn 0 8 = none ∧ ofLe (s.memBytes 0 8) = 0 ∧
       (s.poisonSite (.line 0)).poisonIn 0 8 = some 0 ∧ (s.poisonSite (.line 0)).pfMay ((s.poisonSite (.line 0)).ownerNow 0) = true) := by
  decide +kernel

/-! ## Witnesses: links, slices and frames -/

/-- A module that has one request to send. -/
def sending (q : PeerReq) (x : Slice := {}) : State :=
  { State.reset with m := { peers := [(0, q)], ethOut := [(15, 3, [])] }, slices := [(15, x)] }

theorem witness_LinksAndClock :
    (∀ q ∈ (moduleIs { peers := [(0, { slice := 15, out := true })] }).m.peers, q.2.slice = 15 → q.2.out = true) ∧
    (State.reset.m.ethOut = [] ∧ (moduleIs { ethOut := [(16, 255, [1])] }).m.ethOut = [(16, 255, [1])] ∧ State.reset.m.recovery = false) ∧
    (let s := moduleIs { mcjoin := [((15 * 64 + 63) * 4, 0x80000000)] }
     (15 < 16 ∧ 63 < 64 ∧ 3 < 4 ∧ (Tbl.get s.m.mcjoin 0 ((15 * 64 + 63) * 4)).getLsbD 31 = true) ∧ (0x80000000 : Word).getLsbD 31 = true ∧
       (0x7FFFFFFF : Word).getLsbD 31 = false ∧ (Tbl.get State.reset.m.mcjoin 0 ((15 * 64 + 63) * 4)).getLsbD 31 = false) ∧
    (let s := sending {} { st := .active }
     (s.slice 15).st = .active ∧ (s.slice 15).killing = false) ∧
    (let s := vfs { tdi := .run }
     s.vfExists 0 = true ∧ (s.slice 0).tdi = .run ∧ ((true && false) = false)) := by decide +kernel

theorem witness_LinksAndClock_meter (n : Nat) (h : Config.packetBytes 0 = n + 1) :
    (let s := sending { slice := 15 } { meter := [(0, n), (1, n)] }
     s.m.peers = [(0, { slice := 15 })] ∧ s.m.ethOut = [(15, 3, [])] ∧ ∀ k < 2,
       Tbl.get (s.slice 15).meter 0 k < Config.packetBytes (if k = 0 then PeerReq.payload { slice := 15 } else ([] : List Byte).length)) ∧
    (let s := sending { slice := 15 } { meter := [(0, n + 1), (1, n + 1)] }
     ∀ k < 2, Config.packetBytes (if k = 0 then PeerReq.payload { slice := 15 } else ([] : List Byte).length) ≤
       Tbl.get (s.slice 15).meter 0 k) := by
  have e : ∀ k : Nat, (if k = 0 then PeerReq.payload { slice := 15 } else ([] : List Byte).length) = 0 := fun k => by split <;> rfl
  simp only [e, h]
  refine ⟨⟨rfl, rfl, fun k hk => ?_⟩, fun k hk => ?_⟩ <;> obtain rfl | rfl : k = 0 ∨ k = 1 := by omega
  exacts [Nat.lt_succ_self n, Nat.lt_succ_self n, Nat.le_refl (n + 1), Nat.le_refl (n + 1)]

/-- A request of slice 3 of module 5 to slice 0 here. -/
def peerIn (op : PeerOp) (a : Nat) (size : Nat := 8) (wmark : Word := 0) : PeerIn :=
  { modid := 5, pslice := 3, slice := 0, op := op, addr := .ofNat 64 a, size := size, copy := false, data := leBytes 8 7, data2 := 0, ctx := 0,
    wmark := wmark, lane := 0, freed := [] }
/-- The load, with module 5 known to slice 0 as peer 0. -/
def routed : State := (start []).modM (fun m => { m with routes := [(0, 0x80000000 + 3 * 2 ^ 26 + 2 ^ 18 + 5)] })

/-- The same while a REKEY runs on the frame of its kernel. -/
def rekeyed : State := routed.modM (fun m => { m with ownJob := some { mode := 1, owner := 0, frame := 2, endAt := 4000 } })

theorem witness_PeerRequests :
    (∀ e ∈ [(PeerOp.load, 0x20001, 8, 7), (.unknown, 0x20000, 8, 7), (.atomic 0 0, 0x20000, 4, 7), (.mcStore 1, 0, 4, 6)],
      routed.peerTarget (peerIn e.1 e.2.1 e.2.2.1) = .error e.2.2.2) ∧
    ((routed.modSlice 0 (fun x => { x with killing := true })).peerTarget (peerIn .load 0x20000) = .error 4) ∧
    ((routed.modM (fun m => { m with mcjoin := [(0, 0x80000001), (1, 1)] })).peerTarget (peerIn (.mcLoad 1) 65536 4) = .error 5) ∧
    (State.reset.m.routes = []) ∧
    (routed.peerTarget (peerIn .load 0x40000000) = .ok 0x40000000 ∧ routed.peerPlace (peerIn .load 0x40000000) 0x40000000 = .error 2) ∧
    (routed.peerTarget (peerIn .load 0x30000) = .ok 0x30000 ∧ routed.peerPlace (peerIn .load 0x30000) 0x30000 = .error 3) ∧
    (∀ r ∈ [peerIn .load 0x20008, peerIn .store 0x20008, peerIn .store 0x20008 8 1], routed.peerTarget r = .ok 0x20008 ∧
      ((routed.peerPlace r 0x20008).toOption.map (fun x => (x.1.target, x.2))) = some (0, 0x20008)) ∧
    (∀ a ∈ [0x20000, 0x20008, 0x2000B, 0x2000F], routed.placeBusy 0 a = false ∧ rekeyed.placeBusy 0 a = true) ∧
    (rekeyed.peerTarget (peerIn .load 0x20008) = .ok 0x20008 ∧
      ((rekeyed.peerPlace (peerIn .load 0x20008) 0x20008).toOption.map (fun x => (x.1.target, x.2))) = some (0, 0x20008)) ∧
    (routed.spanBusy 0 0 (0x20008 : DWord).toNat 8 = false ∧ routed.rdmaPoison 0 (0x20008 : DWord).toNat 8 = none ∧
      rekeyed.spanBusy 0 0 (0x20008 : DWord).toNat 8 = true ∧ routed.spanBusy 0 0 (0x20008 : DWord).toNat 2 = false) ∧
    (∀ part ∈ [true, false], (routed.pruneWindows (peerIn .load 0x20008)).rangePoison (.home 0x20008 0) 8 part = none) ∧
    (∀ n ∈ [4, 8], let r := peerIn (.atomic 18 (if n = 8 then 3 else 0)) 0x20008 n
      routed.peerTarget r = .ok 0x20008 ∧ ((routed.peerPlace r 0x20008).toOption.map (fun x => (x.1.target, x.2))) = some (0, 0x20008) ∧
        (atomInstr 18 (if n = 8 then 3 else 0)).isSome = true ∧ r.freed = [] ∧ r.wmark = 0 ∧ routed.m.atomAt = [] ∧
        routed.rangePoison (.home 0x20008 0) n false = none) ∧
    (routed.modM (fun m => { m with windows := [] })).window? 5 3 1 0 = none ∧
    (∀ e ∈ [(0, 1024), (15, 1024), (16, 256)], e.2 = (if e.1 = 16 then 256 else 1024) ∧ e.1 ≤ 16) ∧
    (inGlob (0x20008 : DWord).toNat 8 = true ∧ ((routed.pruneWindows (peerIn .load 0x20008)).engineRead 0 0 (0x20008 : DWord).toNat 8).toOption.isSome = true ∧
      (routed.engineRead 0 0 (0x20008 : DWord).toNat 8).toOption.isSome = true ∧
      ((routed.pruneWindows (peerIn .store 0x20008)).engineWrite 0 0 0x20008 (padTo 8 (leBytes 8 7))).isSome = true ∧
      (routed.engineWrite 0 0 (0x20008 : DWord).toNat [1, 2]).isSome = true) := by decide +kernel

/-- A window that holds the answer of a store. -/
theorem witness_PeerRequests_window :
    ((routed.record 5 3 1 0 9).pruneWindows (peerIn .store 0x20008 8 1)).window? 5 3 1 0 = some 9 := by decide +kernel

/-- A whole deckle: cluster 0 of die 0, channel 0, way 0, copy engine 0. -/
def whole (st : SliceState) : Slice := { st := st, key := 1, cld := [(0, 1)], chlo := [(0, 1)], ways := [(0, 1)], cemask := 1 }
/-- A part with that slice 0 and die 0 in HS2. -/
def withSlice (x : Slice) : State := { State.reset with slices := [(0, x)], dies := [(0, { hs := 2, curhs := 2 })] }

theorem witness_SlicesAndDeckles :
    ((State.reset.slice 15).st = .free ∧ (State.reset.slice 15).st ≠ .config ∧ ((sliceIs { st := .config }).slice 0).st ≠ .free) ∧
    ((sliceIs { st := .config }).slice 0).st = .config ∧ (sliceIs { st := .config }).activateErr 0 = 2 ∧
    ((sliceIs { st := .activating }).slice 0).st = .activating ∧
    (vfs { st := .active, tdi := .run }).vfLocked 0 = true ∧
    (∀ x ∈ [whole .active, whole .config], (sliceIs x).vfLocked 0 = false ∧ (((sliceIs x).slice 0).st = .active ∨ ((sliceIs x).slice 0).st = .config)) ∧
    (((sliceIs { st := .active }).setOwner 2 0).framesOf 0 = [2] ∧ tableFrame 2 = false) ∧
    (((sliceIs { st := .resetting, dissolving := true }).slice 0).st = .resetting ∧
      ((sliceIs { st := .resetting, dissolving := true }).slice 0).dissolving = true ∧ (sliceIs {}).m.recovery = false) ∧
    (∀ x ∈ [({ st := .active } : Slice), { st := .active, quiesced := true, migBusy := true }], (sliceIs x).deckleOpen 0 = false) ∧
    (vfs { st := .config, tdi := .configLocked }).deckleOpen 0 = false ∧
    (∀ x ∈ [({ st := .config } : Slice), { st := .active, quiesced := true }], (sliceIs x).deckleOpen 0 = true) ∧
    (0xF0FFFFFF : Word).extractLsb' 24 4 = 0 := by decide +kernel

theorem witness_SlicesAndDeckles_activate (h : ∀ d, Config.wayFuse d = 0) :
    ((withSlice (whole .config)).slice 0).st = .config ∧ (withSlice (whole .config)).activateErr 0 = 0 := by
  refine ⟨by decide, ?_⟩
  simp only [State.activateErr, State.wayDis, h]
  decide +kernel

/-- A part whose frame 2 has an owner. -/
def owned (o : Nat) (x : Slice := {}) : State := (vfs x).setOwner 2 o

theorem witness_FramesAndBands :
    (moduleIs { ownBusy := true }).m.ownBusy = true ∧ State.reset.m.ownBusy = false ∧
    (∀ e ∈ [(0, 17, 31, 4), (1, 17, 16, 4), (0, 16, 30, 6), (1, 16, 30, 6), (2, 0, 30, 6), (0, 16, 16, 1), (1, 0, 31, 2), (2, 0, 31, 2)],
      (owned e.2.2.1).ownCheck e.1 2 e.2.1 = e.2.2.2) ∧
    (∀ e ∈ [(1, 16, 0), (2, 0, 0), (1, 0, 16)], (owned e.2.2 { tdi := .configLocked }).ownCheck e.1 2 e.2.1 = 3) ∧
    (∀ e ∈ [(0, 16, 31), (1, 16, 0), (2, 0, 16), (3, 0, 30)], (owned e.2.2).ownCheck e.1 2 e.2.1 = 0) ∧
    ((owned 16).owner 2 ≠ 31 ∧ (owned 16).owner 2 ≠ 30 ∧ (owned 30).owner 2 = 30 ∧ State.reset.owner 2 = 31) ∧
    (tableFrame 0x7FFF7F = false ∧ 0x7FFF7F < 0x800000 ∧ (16 : Nat) ≤ 16) ∧
    (∀ m < 3, (moduleIs { ownJob := some { mode := m, owner := 0, frame := 0x7FFF7F, endAt := 4000 } }).m.ownJob =
      some { mode := m, owner := 0, frame := 0x7FFF7F, endAt := 4000 }) := by decide +kernel

theorem witness_Resets :
    State.reset.vfExists 0 = false ∧ (vfs {}).vfExists 15 = true ∧
    (∀ st ∈ [SliceState.resetting, .free, .config, .active], (vfs { st := st }).vfExists 0 = true ∧ ((vfs { st := st }).slice 0).st = st ∧
      (vfs { st := st }).m.ownJob = none) ∧
    (∀ b ∈ [true, false], ((vfs { st := .resetting, dissolving := b }).slice 0).dissolving = b ∧
      (vfs { st := .resetting, dissolving := b }).m.vfClear ≠ 1) ∧
    (State.reset.m.flashJob = none ∧ (moduleIs { flashJob := some ([], 0) }).m.flashJob ≠ none ∧ (moduleIs { erased := true }).m.erased = true ∧
      State.reset.m.erased = false) ∧
    (State.reset.m.vfEnabled = false ∧ State.reset.m.recovery = false) ∧ (vfs {}).m.vfEnabled = true ∧ (moduleIs { recovery := true }).m.recovery = true ∧
    (let s := moduleIs { vfEnabled := true, numVfs := 0 }
     s.m.vfEnabled = true ∧ s.m.vfClear = 0 ∧ s.m.numVfs = 0) ∧
    (let s := vfs { st := .active }
     s.m.vfEnabled = true ∧ s.m.vfClear = 0 ∧ 1 ≤ s.m.numVfs ∧ s.m.numVfs ≤ 16 ∧ (s.slice 0).st = .active ∧ s.m.recovery = false) ∧
    (∀ k < 16, (State.reset.slice k).st ≠ .active) := by decide +kernel

/-- An image that the module takes, and one of each kind that it does not, by what the signature and the version say. -/
theorem witness_Resets_images (img : List Byte) :
    (Config.signatureValid img = true → State.reset.fuseCount ≤ Config.imageVersion img → State.reset.imageOk img = true) ∧
    (Config.signatureValid img = false → State.reset.imageOk img = false) ∧
    (Config.imageVersion img < State.reset.fuseCount → State.reset.imageOk img = false) := by
  refine ⟨fun a b => ?_, fun a => ?_, fun a => ?_⟩
  · simp [State.imageOk, a, b]
  · simp [State.imageOk, a]
  · simp [State.imageOk, Nat.not_le.mpr a]

theorem witness_Attestation :
    (∀ fn ∈ [0, 1, 16], (vfs {}).doeFn fn = true ∧ ((vfs {}).slice (fnSlice fn)).spdm = 0 ∧ ((vfs {}).slice (fnSlice fn)).session = false) ∧
    State.reset.doeFn 1 = false ∧
    (∀ n ∈ [1, 2, 3, 4], (vfs { spdm := n }).doeFn 1 = true ∧ ((vfs { spdm := n }).slice (fnSlice 1)).spdm = n) ∧
    (∀ st ∈ [SliceState.config, .activating], let s := vfs { spdm := 4, session := true, st := st, exportKey := some 5 }
     s.doeFn 1 = true ∧ (s.slice (fnSlice 1)).session = true ∧ (s.slice (fnSlice 1)).tdi = .configUnlocked ∧ (s.slice (fnSlice 1)).st = st ∧
       (s.slice (fnSlice 1)).exportKey = some 5) ∧
    ((vfs { session := true, tdi := .configLocked }).slice (fnSlice 1)).tdi = .configLocked ∧
    field [(1 : Byte)] 0 1 = 1 ∧ field (leBytes 4 2 ++ leBytes 32 5) 0 1 = 2 ∧ (leBytes 4 2 ++ leBytes 32 5).length = 36 := by decide +kernel

/-- Every index that R74 gives a function has its measurement. -/
theorem witness_Attestation_measurements (s : State) :
    (∀ k ∈ [1, 2, 5, 16, 31], (s.measure 0 k).isSome = true) ∧ (∀ k ∈ [1, 2, 3, 4, 5, 6], (s.measure 1 k).isSome = true) := by
  simp [State.measure]

/-! ## Witnesses: queues, residence, saves -/

/-- A kernel descriptor of one group of 8 registers, four frames at 0x24000 and one gathered group at 0x2C000. -/
def goodDesc : List Byte :=
  image [(4, 0x4353444B), (2, 1), (2, 0), (8, 0x20000), (8, 0x20100), (2, 32), (2, 1), (2, 1), (1, 8), (1, 0), (4, 0), (8, 0), (4, 4),
    (8, 0), (8, 0x24000), (8, 0x2C000), (4, 1), (180, 0)]
/-- The shared TLB of die 0 holds the kernel's page. -/
def pageEntry (target : Nat) : TlbEntry := { va := 0x20000, out := 0x20000, target := target, r := true, w := true, x := true, owner := 0 }
def walked (s : State) (target : Nat := 0) : State := s.modDie 0 (fun d => { d with stlb := [pageEntry target] })
/-- A queue of slice 0 on an engine, whose head is the packet. -/
def queued (eng : Nat) (b : List Byte) : State :=
  walked <| (((((start []).setMem 0x20C00 (image [(16, 0), (8, 0x21000), (4, 4)])).setMem 0x21000 b).setMem 0x22000 goodDesc).setMem 0x22800
    (image [(8, 0), (4, 144), (2, 256)])).modSlice 0 (fun x => { x with queues := [(0, { qcb := 0x20C00, en := true, eng := eng })], cemask := 1 })

def launchPkt : List Byte := image [(8, 1), (8, 0x22000), (8, 0x22800), (8, 0), (2, 1), (2, 1), (2, 1), (26, 0)]
def cwaitPkt (v : Nat) : List Byte := image [(8, 5), (8, 0x20D00), (8, v), (40, 0)]
def caddPkt : List Byte := image [(8, 6), (8, 0x20D00), (8, 5), (40, 0)]
def markerPkt (w : Nat) : List Byte := image [(8, 7), (8, 0), (8, 0), (8, w), (32, 0)]
def regionPkt (m : Nat) : List Byte := image [(8, 8), (8, 0x22800), (4, m), (4, 1), (4, 1), (4, 1), (32, 0)]

/-- The head of the queue is that packet, it has that QERR, and it may start. -/
def pktIs (eng : Nat) (b : List Byte) (err : Nat) : Bool :=
  let s := queued eng b
  decide (s.queueHead 0 0 = .packet 0 0 0x21000 b) && s.packetErr 0 0 eng b == err && s.mayStart 0 0 b && ((s.slice 0).queue 0).eng == eng &&
    (err != 0 || (s.pktPoison 0 0 b).isNone)

/-- What a packet of the queue does meets the state in which it has been accepted. -/
def taken (eng : Nat) (b : List Byte) : State := ((queued eng b).acceptHead 0 0 0 0 0x21000).addPending 0 0 0 0 b
/-- The same queue behind a packet that has started. -/
def behind (eng : Nat) (b : List Byte) : State :=
  (queued eng b).modSlice 0 (fun x => { x with pending := [(0, [{ num := 0, started := true }])], nextPkt := 1 })

theorem witness_QueuePackets : pktIs 0 launchPkt 0 = true ∧ pktIs 0x20 copyImg 0 = true ∧ pktIs 0x20 copy2dImg 0 = true ∧
    pktIs 0x40 collImg 0 = true := by decide +kernel

theorem witness_QueuePackets_marks : pktIs 0 (markerPkt 0) 0 = true ∧ pktIs 0 (markerPkt 0x20D00) 0 = true ∧
    pktType (markerPkt 0) = 7 ∧ pktCnt (markerPkt 0) = 0 ∧ pktWord (markerPkt 0) = 0 ∧
    (let b := markerPkt 0x20D00
     (taken 0 b).spanBusy 0 0 (pktWord b) 8 = false ∧ ((taken 0 b).engineWrite 0 0 (pktWord b) (leBytes 8 (queued 0 b).cycle)).isSome = true) := by decide +kernel

/-- What a REGION packet stores can be stored. -/
def regionStores (m off n at_ : Nat) : Bool :=
  let b := regionPkt m
  pktIs 0 b 0 && ((taken 0 b).engineWrite 0 0 (field b 8 8 + off) (leBytes n (field b at_ n))).isSome

theorem witness_QueuePackets_regions : pktIs 0 (regionPkt 0) 0 = true ∧ regionStores 1 8 4 0x14 = true ∧ regionStores 2 0xC 2 0x18 = true ∧
    regionStores 4 0x10 4 0x1C = true := by decide +kernel

theorem witness_QueuePackets_launch :
    (let u := taken 0 launchPkt
     (u.engineRead 0 0 (field launchPkt 8 8) 256).toOption = some goodDesc ∧
       ((u.rcbChain 0 0 (field launchPkt 0x10 8) 8).toOption.map List.length) = some 1) := by decide +kernel

theorem witness_QueuePackets_stops :
    pktIs 0 ([9] ++ zeros 63) 1 = true ∧ pktIs 0 copyImg 3 = true ∧ pktIs 0x40 launchPkt 3 = true ∧ pktIs 0 (markerPkt 4) 7 = true ∧
    ((queued 0 launchPkt).modSlice 0 (fun x => { x with queues := [(0, { qcb := 0x20C01, en := true })] })).queueHead 0 0 = .stop 4 0 := by
  decide +kernel

/-- A counter that is not in host memory needs no FetchAdd of the root port. -/
theorem cntHost_device (s : State) (t d a : Nat) (h : (s.engineTranslate t d a).toOption.all (fun e => e.target != 1) = true) :
    s.cntHost t d a = false := by
  unfold State.cntHost
  cases e : s.engineTranslate t d a <;> simp_all [Except.toOption]

/-- Packets that wait behind one that has started. -/
theorem witness_QueuePackets_waits (b : List Byte) (hb : b ∈ [markerPkt 0, 0x16 :: caddPkt.drop 1, 0x18 :: (regionPkt 0).drop 1]) :
    (behind 0 b).queueHead 0 0 = .packet 0 0 0x21000 b ∧ (behind 0 b).packetErr 0 0 0 b = 0 ∧ (Tbl.get ((behind 0 b).slice 0).pending [] 0).length = 1 ∧
      (∀ r ∈ Tbl.get ((behind 0 b).slice 0).pending [] 0, r.started = true ∧ r.num < ((behind 0 b).slice 0).nextPkt) ∧
      (pktFence b = true ∨ pktType b = 7) ∧ (behind 0 b).pktPoison 0 0 b = none := by
  simp only [List.mem_cons, List.not_mem_nil, or_false] at hb
  rcases hb with rfl | rfl | rfl
  · decide +kernel
  · refine ⟨by decide +kernel, ?_, by decide +kernel⟩
    unfold State.packetErr State.badField
    rw [cntHost_device _ _ _ _ (by decide +kernel)]
    decide +kernel
  · decide +kernel

theorem witness_QueuePackets_counters (b : List Byte) (hb : b ∈ [caddPkt, cwaitPkt 0, cwaitPkt 1]) :
    (queued 0 b).queueHead 0 0 = .packet 0 0 0x21000 b ∧ (queued 0 b).packetErr 0 0 0 b = 0 ∧ (queued 0 b).mayStart 0 0 b = true ∧
      pktCnt b ≠ 0 := by
  simp only [List.mem_cons, List.not_mem_nil, or_false] at hb
  rcases hb with rfl | rfl | rfl <;> refine ⟨by decide +kernel, ?_, by decide +kernel, by decide +kernel⟩ <;>
    (unfold State.packetErr State.badField; rw [cntHost_device _ _ _ _ (by decide +kernel)]; decide +kernel)

theorem witness_QueuePackets_values :
    (let v := taken 0 caddPkt
     let x := (({ v with free := v.free + 1 } : State).drawMark (v.queueCtx 0) ((v.slice 0).dies.idxOf 0) 0).1
     ({ v with free := v.free + 1 } : State).spanBusy 0 0 0x20D00 8 = false ∧
     (x.engineSpan 0 0 0x20D00 8 .store).toOption = some (zeros 8) ∧ (x.engineWrite 0 0 0x20D00 (leBytes 8 5)).isSome = true) ∧
    (((queued 0 (cwaitPkt 1)).engineRead 0 0 0x20D00 16).toOption = some (zeros 16) ∧ nbit (field (zeros 16) 8 8) 63 = false ∧
      field (cwaitPkt 0) 0x10 8 ≤ field (zeros 16) 0 8 ∧ field (zeros 16) 0 8 < field (cwaitPkt 1) 0x10 8) ∧
    ((((queued 0 (cwaitPkt 1)).setMem 0x20D0F [0x80]).engineRead 0 0 0x20D00 16).toOption.map (fun c => nbit (field c 8 8) 63)) = some true := by
  decide +kernel

/-- Slice 0 with a launch on core 0, in place of the load's group. -/
def launched (l : Launch) (w : List Waiting := []) (grp : Tbl Group := []) : State :=
  let s := (start []).modSlice 0 (fun x => { x with launches := [(0, l)] })
  { s.modCore 0 (fun c => { c with wgs := [], waiting := w }) with groups := grp, cur := none }

def waiter : Waiting := { slice := 0, launch := 0, prio := 15 }

theorem witness_DealAndResidence :
    (let l : Launch := { desc := goodDesc, total := 2, dealt := 1, cores := [(0, 0, 0, 0), (1, 0, 0, 1)] }
     let s := launched l
     Tbl.find (s.slice 0).launches 0 = some l ∧ l.dealt < l.total ∧ l.aborted = none ∧ (s.slice 0).st = .active ∧ (s.slice 0).killing = false ∧
       l.coreOf l.dealt = some 1 ∧ (s.core 1).testing = 0 ∧ (s.slice 0).accepts 0 = true ∧ (s.slice 0).started (some l.queue) l.num = true) ∧
    (Tbl.find ((launched { total := 2, dealt := 2 }).slice 0).launches 0 = some { total := 2, dealt := 2 }) ∧
    (let s := launched { desc := goodDesc } [waiter]
     (s.core 0).waiting = [waiter] ∧ waiter.prio < 16 ∧ s.waitFits 0 waiter = true ∧ (s.core 0).testing = 0) ∧
    (State.reset.core 143).waiting = [] ∧
    (let x : Gather := { entry := 0x20000, records := [[1, 2]] }
     let l : Launch := { desc := goodDesc, cores := [(0, 0, 0, 0)], gathered := [x] }
     let s := launched l
     Tbl.find (s.slice 0).launches 0 = some l ∧ l.gathered = [x] ∧ s.gatherCore l x.die = some 0 ∧ s.gatherFits 0 l 0 = true ∧ (s.core 0).testing = 0 ∧
       s.spanFail 0 x.die (l.gatherAt x.slot) gatherBytes .load = none) ∧
    (Tbl.find (start []).groups 0 = some (groupOf (start [])) ∧ (start []).mayRetire (groupOf (start [])) = false) ∧
    (let s := { launched {} [] [(0, {}), (1, {})] with dies := [(0, { cyc := 64 })] }
     Tbl.find s.groups 0 = some {} ∧ ({} : Group).place = .resident ∧ ({} : Group).live = 0 ∧ ({} : Group).log = [] ∧ ({} : Group).flush = [] ∧
       s.struck 0 = false ∧ 0 + 64 ≤ s.now 0 ∧ Tbl.find s.groups 1 = some {}) := by decide +kernel

/-- An entry of lane 0 that its partition has sent, with one piece at a place. -/
def ent (kind : Nat) (i : Instr) (loc : Loc) : Entry :=
  { kind := kind, insn := wordOf i, mask := 1, sent := true, dreg := 63, acc := [{ ea := 0x20400, loc := loc }] }

/-- A group of lower priority than the waiter, in another context. -/
def victim (place : Place) : Group := { regs := 64, prio := 1, ctx := 1, place := place, splits := [sp 0 1] }
/-- Sixteen groups leave a partition no slot; the last is as given. -/
def crowd (g : Group) : Tbl Group := (List.range 15).map (fun n => (n, victim .resident)) ++ [(15, g)]
/-- At die cycle 64 and time 4,000. -/
def later (s : State) : State := { s.modDie 0 (fun d => { d with cyc := 64 }) with cycle := 4000 }

theorem witness_SavesAndRestores :
    (∀ g ∈ [victim .resident, { victim .freezing with why := 1 }], let s := launched { desc := goodDesc } [waiter] (crowd g)
     (s.groups.map (·.1)).Nodup ∧ s.group 15 = g ∧ (match (s.waitersOn 0)[0]? with
      | some n => s.coreOpen n.slice 0 && !s.needFits 0 n && (match s.evictionFor 0 n with
          | some (_, gone) => gone.contains 15 && gone.all (fun h => (s.group h).log.isEmpty)
          | none => false)
      | none => false) = true) ∧
    ((State.reset.waitersOn 0)[0]? = none ∧
      (let s := launched { desc := goodDesc } [waiter]
       ((s.waitersOn 0)[0]?.any (fun n => s.needFits 0 n)) = true)) ∧
    (∀ l ∈ [[], [ent 1 (.ldW (mo 0 0 63)) (.host 0)], [{ ent 12 (.tileTld (rg 0 1 2 0)) (.host 0) with done := 1 }]],
     let g := { victim .freezing with log := l }
     let s := later (launched { desc := goodDesc } [] [(0, g)])
     Tbl.find s.groups 0 = some g ∧ g.place = .freezing ∧ s.struck g.core = false ∧ g.frozeCyc + 64 ≤ s.now g.core ∧ g.i2Out = false ∧
       (∀ e ∈ g.log, e.tileMove = true → e.over = true ∨ s.entryMay g e = false) ∧ s.cycle = 4000) ∧
    (let g := { victim .freezing with log := [{ cls := 2, sent := true }] }
     let s := later (launched { desc := goodDesc } [] [(0, g)])
     Tbl.find s.groups 0 = some g ∧ g.slice < 16 ∧ g.place = .freezing ∧ g.why ≠ 1 ∧ g.i2Out = true ∧ g.frozeAt + 2000 ≤ s.cycle ∧
       (s.slice g.slice).st = .active ∧ (s.slice g.slice).killing = false) ∧
    (let s := launched { desc := goodDesc } [] [(0, { victim .freezing with frozeAt := 1 })]
     s.cycle < 1 + 2000 ∧ Tbl.find s.groups 0 = some { victim .freezing with frozeAt := 1 }) ∧
    (let s := launched { desc := goodDesc } [] [(0, victim .freezing)]
     Tbl.find s.groups 0 = some (victim .freezing) ∧ (victim .freezing).place ≠ .frozen ∧ s.restoreFits 0 (victim .freezing) = false) := by
  decide +kernel

/-- The frames of a launch in host memory, by a translation that die 0 holds: a write there goes through and so does a read. -/
theorem hostPage_loc (s : State) (a : Nat) (acc : Access) (h : (s.die 0).stlb = [pageEntry 1])
    (lo : 0x20000 ≤ a) (hi : a < 0x30000) (hx : acc ≠ .fetch) : ∃ e b, s.engineLoc 0 0 a acc = .ok (e, b) ∧ e.target = 1 := by
  have hd : a - a % 65536 = 0x20000 := by omega
  have : s.engineTranslate 0 0 a = .ok (pageEntry 1) := by
    simp [State.engineTranslate, h, tlbFind, pageEntry, hd]
  cases acc <;> simp_all [State.engineLoc, pageEntry]

theorem hostPage_bytes (bs : List Byte) : ∀ (s : State) (a : Nat), (s.die 0).stlb = [pageEntry 1] → 0x20000 ≤ a →
    a + bs.length ≤ 0x30000 → (s.engineBytes 0 0 a bs).isSome = true := by
  induction bs with
  | nil => intros; rfl
  | cons b r ih =>
    intro s a h lo hi
    simp only [List.length_cons] at hi
    obtain ⟨e, x, he, ht⟩ := hostPage_loc s a .store h lo (by omega) (by simp)
    simp only [State.engineBytes, he, ht]
    exact ih _ _ h (by omega) (by omega)

theorem hostPage_write (bs : List Byte) (s : State) (a : Nat) (h : (s.die 0).stlb = [pageEntry 1]) (lo : 0x20000 ≤ a)
    (hi : a + bs.length ≤ 0x30000) : (s.engineWrite 0 0 a bs).isSome = true := by
  simp [State.engineWrite, hostPage_bytes bs s a h lo hi]

theorem hostPage_read (s : State) (a n : Nat) (h : (s.die 0).stlb = [pageEntry 1]) (lo : 0x20000 ≤ a)
    (hi : a + n ≤ 0x30000) : ∃ l, s.engineRead 0 0 a n = .ok l := by
  have : ∀ l : List Nat, (∀ i ∈ l, i < n) → ∃ r, l.foldr (fun i (r : Except WalkFail (List Byte)) =>
      match r with
      | .error f => .error f
      | .ok l =>
        match s.engineLoc 0 0 (a + i) .load with
        | .error f => .error f
        | .ok (e, a) =>
          if e.target = 0 then .ok (s.memByte a :: l)
          else if e.target = 1 then .ok (s.hostByte a :: l)
          else .error { cause := 9, host := true }) (.ok []) = .ok r := by
    intro l
    induction l with
    | nil => exact fun _ => ⟨[], rfl⟩
    | cons i r ih =>
      intro hl
      obtain ⟨q, hq⟩ := ih (fun j hj => hl j (List.mem_cons_of_mem i hj))
      have hi' := hl i List.mem_cons_self
      obtain ⟨e, x, he, ht⟩ := hostPage_loc s (a + i) .load h (by omega) (by omega) (by simp)
      exact ⟨s.hostByte x :: q, by simp [hq, he, ht]⟩
  exact this (List.range n) (fun i hi => List.mem_range.mp hi)

/-- Nothing of such a page is device memory. -/
theorem hostPage_dev (s : State) (a n : Nat) (h : (s.die 0).stlb = [pageEntry 1]) (lo : 0x20000 ≤ a)
    (hi : a + n ≤ 0x30000) : s.devAddrs 0 0 a n = [] := by
  simp only [State.devAddrs, List.filterMap_eq_nil_iff, List.mem_range]
  intro i hi'
  obtain ⟨e, x, he, ht⟩ := hostPage_loc s (a + i) .load h (by omega) (by omega) (by simp)
  simp [he, ht]

/-- A group that is to be saved, and one that is saved in frame 3, with the frames in host memory. -/
def toSave : Group := { victim .frozen with regs := 8, why := 2 }
def toRestore : Group := { victim .saved with regs := 8, why := 2, frame := some 3, wants := true }
def framed (g : Group) : State := walked (launched { desc := goodDesc } [] [(0, g)]) 1

theorem witness_SavesAndRestores_save :
    Tbl.find (framed toSave).groups 0 = some toSave ∧ toSave.place = .frozen ∧ (framed toSave).freeFrame toSave = some 0 ∧
    ((framed toSave).core 0).wgs = [] ∧
    (framed toSave).spanBusy 0 0 (frameAddr ((framed toSave).launchOf toSave) 8 0) (frameBytes toSave 2).length = false ∧
    (framed toSave).spanFail 0 0 (frameAddr ((framed toSave).launchOf toSave) 8 0) (frameBytes toSave 2).length .store = none ∧
    ((framed toSave).engineWrite 0 0 (frameAddr ((framed toSave).launchOf toSave) 8 0) (frameBytes toSave 2)).isSome = true := by
  have n : (frameBytes toSave 2).length = 6016 := by decide +kernel
  have a : frameAddr ((framed toSave).launchOf toSave) 8 0 = 0x24000 := by decide +kernel
  refine ⟨by decide +kernel, by decide, by decide +kernel, by decide +kernel, by rw [n]; decide +kernel, by rw [n]; decide +kernel, ?_⟩
  rw [a]
  exact hostPage_write _ _ _ (by decide +kernel) (by decide) (by rw [n]; decide)

theorem witness_SavesAndRestores_restore :
    Tbl.find (framed toRestore).groups 0 = some toRestore ∧ (framed toRestore).restoreFits 0 toRestore = true ∧ toRestore.frame = some 3 ∧
    toRestore.why ≠ 4 ∧ toRestore.log = [] ∧ ((framed toRestore).core 0).wgs = [] ∧ ((framed toRestore).core 0).testing = 0 ∧
    (framed toRestore).spanFail 0 0 (frameAddr ((framed toRestore).launchOf toRestore) 8 3) (frameSize 8) .load = none ∧
    (framed toRestore).areaBusy 0 toRestore = false ∧
    (∃ f, (framed toRestore).engineRead 0 0 (frameAddr ((framed toRestore).launchOf toRestore) 8 3) (frameSize 8) = .ok f) ∧
    ((framed toRestore).devAddrs 0 0 (frameAddr ((framed toRestore).launchOf toRestore) 8 3) (frameSize 8)).find?
      (framed toRestore).poisoned = none := by
  have a : frameAddr ((framed toRestore).launchOf toRestore) 8 3 = 0x24000 + 3 * 6016 := by decide +kernel
  refine ⟨by decide +kernel, by decide +kernel, rfl, by decide, rfl, by decide +kernel, by decide +kernel, by decide +kernel,
    by decide +kernel, ?_, ?_⟩ <;> rw [a]
  · exact hostPage_read _ _ _ (by decide +kernel) (by decide) (by decide)
  · rw [hostPage_dev _ _ _ (by decide +kernel) (by decide) (by decide)]
    rfl

/-! ## Witnesses: entries, engines, containment -/

def holding (e : Entry) : State := at_ (fun g => { g with log := [e], nextNum := 1 })

/-- The conditions of EntriesComplete but those of the kind. -/
def entryFits (s : State) (e : Entry) (may : Bool) : Bool :=
  match Tbl.find s.groups 0, e.acc with
  | some g, [a] => decide (g.entry? e.id = some e) && decide (g.place = .resident) && decide (e.mask = maskOf [0]) && decide (e.done = 0) &&
      decide (e.perf = 0) && !e.one && e.spoil.isEmpty && a.lane == 0 && a.off == 0 && a.size == 4 && !a.priv && decide (s.entryMay g e = may)
  | _, _ => false

theorem witness_EntriesComplete :
    (let e := { ent 1 (.ldW (mo 0 0 63)) (.home 0x20400 2) with sent := false }
     entryFits (holding e) e false = true) ∧
    (∀ loc ∈ [Loc.home 0x20400 2, .host 0x400], ∀ i ∈ [Instr.ldW (mo 0 0 63), .stW (mo 0 0 63)],
      let e := ent (if i = .ldW (mo 0 0 63) then 1 else 2) i loc
      entryFits (holding e) e true = true ∧ (holding e).owner (0x20400 / 65536) = 0 ∧ (holding e).poisonIn 0x20400 4 = none ∧ e.asked = 0 ∧
        e.dst = [] ∧ (loadWords (.ldW (mo 0 0 63)) 0).length = 1) ∧
    (let e := ent 6 (.atomA (ma 0 0 2 0)) (.home 0x20400 2)
     entryFits (holding e) e true = true ∧ (holding e).m.atomAt = [] ∧ e.rel = false ∧ e.instr = .atomA (ma 0 0 2 0) ∧ (holding e).answer (groupOf (holding e)) e 0 = none ∧
       ((holding e).record ownModule 0 0 0 7).answer (groupOf (holding e)) e 0 = some 7) ∧
    (let e := { ent 1 (.ldW (mo 0 0 63)) (.peer 5 0 6 7) with asked := 1 }
     let s := { (holding e).modM (fun m => { m with peers := [(0, {}), (1, { out := true }), (2, { late := true })] }) with cycle := 50000 }
     Tbl.find s.m.peers 0 = some {} ∧ Tbl.find s.m.peers 1 = some { out := true } ∧ Tbl.find s.m.peers 2 = some { late := true } ∧
     ({} : PeerReq).num = e.num ∧ (∀ x ∈ e.acc, x.remote = true) ∧ (view e.instr).lay ≠ .mr ∧
     (loadWords e.instr 0).length = 1 ∧ e.asked.getLsbD 0 = true ∧ e.stores = false ∧ e.failed = false ∧ e.mask &&& (groupOf s).live ≠ 0 ∧
       (groupOf s).entry? e.id = some e ∧ 0 + 50000 ≤ s.cycle ∧ (holding e).cycle < 0 + 50000) ∧
    Tbl.find State.reset.m.peers 0 = none := by decide +kernel

/-- The split of lane 0 asleep. -/
def asleep (why : SleepWhy) (w : Option Wait := none) (deadline : Nat := 0) : Split :=
  { sp 0 1 .sleep with why := why, wait := w, deadline := deadline }
/-- The load where it sleeps in a wait, with a logbook. -/
def waitsFor (w : Wait) (log : List Entry) : State := at_ (fun g => { g with splits := [asleep .cond (some w)], log := log })
/-- What a try of its wait answers: 0 pending, 1 done, 2 trap, 3 that its form is none that waits for a condition, 4 that a late cause
stands. -/
def tried (w : Wait) (log : List Entry) : Nat :=
  let s := waitsFor w log
  if ((groupOf s).lateCause (splitOf s)).isSome then 4
  else if !isWait w.insn then 3
  else match s.tryWait 0 0 (groupOf s) (splitOf s) w with
    | .pending _ => 0
    | .done _ => 1
    | .trap _ => 2

theorem witness_SleepersWake :
    (let w : Wait := { insn := .phaseOpen (ma 1 0 0 4), num := 1 }
     tried w [] = 1 ∧ tried w [ent 1 (.ldW (mo 0 0 63)) (.host 0)] = 0) ∧
    tried { insn := .mmaWait (rg 2 0 0 2) } [{ ent 12 (.mmaIssueCore (rg 0 1 0 2)) (.host 0) with failed := true, cause := 14 }] = 2 ∧
    tried { insn := .barCount (ma 3 1 4 8) } [] = 3 ∧
    tried { insn := .fence (ma 1 0 0 0), num := 1 } [{ ent 1 (.ldW (mo 0 0 63)) (.host 0) with failed := true, cause := 12, split := some 0 }] = 4 ∧
    (let s := waitsFor { insn := .barCount (ma 3 1 4 8) } []
     Tbl.find s.groups 0 = some (groupOf s) ∧ (groupOf s).split? 0 = some (splitOf s) ∧ (splitOf s).st = .sleep ∧ (splitOf s).why = .cond ∧
       (groupOf s).place = .resident ∧ s.struck 0 = false) ∧
    ((sp 0 1).st ≠ .sleep ∧ (sp 0 1).wait = none) ∧
    (∀ why ∈ [SleepWhy.promise, .time], let s := splits [asleep why none 5]
      (groupOf s).split? 0 = some (splitOf s) ∧ (splitOf s).st = .sleep ∧ (splitOf s).why = why ∧ (groupOf s).place = .resident ∧ s.cycle < 5 ∧
        (splitOf s).deadline ≤ ({ s with cycle := 5 } : State).cycle) ∧
    (let s := splits [asleep .idle]
     (splitOf s).why = .idle ∧ (groupOf s).place = .resident ∧ s.otherReady 0 0 = false) := by decide +kernel

/-- A copy and a collective of engine 0, in the load with the page translated. -/
def engined (jobs : List CopyJob) (colls : List CollJob := []) : State :=
  walked ((withImg copyImg jobs).modDie 0 (fun d => { d with colls := colls }))
def copying : CopyJob := { image := copyImg }
def collecting : CollJob := { image := collImg }

/-- A piece of it in flight from a place of the slice, and the copy with that piece. -/
def piece (src : Nat) (off : Nat := 0) : Piece := { off := off, len := 8, src := .home src 2, dst := .home (0x20900 + off) 2 }
def flying (ps : List Piece) : CopyJob := { copying with next := 16, inflight := ps }

theorem witness_EnginesAndArray :
    (engined []).copyCandidates 0 0 = [] ∧
    (let s := engined [copying]
     s.copyCandidates 0 0 = [copying] ∧ s.copyEnd 0 copying (copying.srcAt 0) .load = .at_ (.home 0x20800 2) 65536 ∧
     s.copyEnd 0 copying (copying.dstAt 0) .store = .at_ (.home 0x20900 2) 65536 ∧
     s.endOwned 0 (.home 0x20800 2) (copying.pieceLen 0 65536) = true ∧ s.endBusy 0 (.home 0x20800 2) (copying.pieceLen 0 65536) = false ∧
     s.endBusy 0 (.home 0x20900 2) (copying.pieceLen 0 65536) = false) ∧
    (engined []).landable 0 0 = none ∧
    (let j := flying [piece 0x20800]
     let s := engined [j]
     s.landable 0 0 = some (j, piece 0x20800) ∧ j.gid = none ∧ nbit j.arrive 31 = false ∧ j.stopped = none ∧ j.landed + 8 ≠ j.size ∧
       s.endOwned 0 (.home 0x20800 2) 8 = true ∧ s.endOwned 0 (.home 0x20900 2) 8 = true ∧ s.rangePoison (.home 0x20800 2) 8 false = none ∧
       s.rangePoison (.home 0x20900 2) 8 true = none ∧ (∀ i < 8, s.copyUndef 0 j (0 + i) = false)) ∧
    (let j := flying [piece 0x90000, piece 0x20800 8]
     let s := engined [j]
     s.landable 0 0 = some (j, piece 0x90000) ∧ s.endOwned 0 (.home 0x90000 2) 8 = false ∧ j.gid = none ∧ j.stopped = none ∧
       piece 0x20800 8 ∈ j.inflight ∧ (piece 0x20800 8).off ≠ (piece 0x90000).off) ∧
    ((engined []).die 0).colls.find? (fun j => j.id == 0) = none := by decide +kernel

/-- The tile that another module's member contributes, zeros. -/
def otherTile : CollTile := { member := 1, index := 0, remote := [(1, [])], error := none }

theorem witness_EnginesAndArray_tile :
    (let s := engined [] [collecting]
     let x := otherTile
     (s.die 0).colls.find? (fun j => j.id == 0) = some collecting ∧ s.collMay 0 collecting = true ∧ s.tileBusy 0 collecting x = false ∧
       x.error = none ∧ s.collStops 0 collecting = none ∧ collecting.total ≠ 0 ∧ collecting.tileDue x.member x.index = true ∧
       collecting.gid = none ∧ nbit collecting.arrive 31 = false ∧ collecting.unsent x = [] ∧ collecting.opened x = true ∧ collecting.kind = 1 ∧
       collecting.queue = none ∧ collecting.tiles.length + 1 ≠ collecting.total) ∧
    (let s := (engined [] [collecting]).modSlice 0 (fun y => { y with engStop := true })
     (s.die 0).colls.find? (fun j => j.id == 0) = some collecting ∧ s.collMay 0 collecting = false) := by
  decide +kernel

/-- A tile of the slice itself, whose copy for the other module has not been sent, and whose slice's meter lacks a byte of it. -/
theorem witness_EnginesAndArray_metered (n : Nat) (h : Config.packetBytes 4096 = n + 1) :
    let s := engined [] [collecting]
    let x : CollTile := { member := 0, index := 0, remote := [], error := none }
    s.tileBusy 0 collecting x = false ∧ collecting.tileDue x.member x.index = true ∧ collecting.unsent x = [1] ∧
      (match s.supplied 0 collecting (collecting.partOff 1 x.index) with | .here _ => true | _ => false) = true ∧
      Tbl.get (s.slice 0).meter 0 0 < Config.packetBytes collecting.tileSize := by
  refine ⟨by decide +kernel, by decide +kernel, by decide +kernel, by decide +kernel, ?_⟩
  rw [show collecting.tileSize = 4096 by decide +kernel, h]
  exact Nat.succ_pos n

/-- Its tile is written without a failure. -/
theorem witness_EnginesAndArray_write :
    gatherParts ((collecting.givers otherTile).map ((engined [] [collecting]).partOf 0 collecting otherTile)) = .ok [padTo 4096 []] ∧
    ∃ w, (((engined [] [collecting]).startGivers collecting (collecting.givers otherTile)).pktStart 0 collecting.queue
      collecting.pkt).collWrite 0 collecting (field collecting.image 16 8 + collecting.dstOff 1 0) (padTo 4096 []) = .ok w := by
  have n : (padTo 4096 []).length = 4096 := by
    simp only [padTo, zeros, List.take_nil, List.nil_append, List.length_replicate, List.length_nil, Nat.sub_zero]
  have r : (((engined [] [collecting]).startGivers collecting (collecting.givers otherTile)).pktStart 0 collecting.queue
      collecting.pkt).collRange 0 0 (field collecting.image 16 8 + collecting.dstOff 1 0) 4096 .store = none := by
    decide +kernel
  constructor
  · have p : (engined [] [collecting]).partOf 0 collecting otherTile 1 = .here (padTo 4096 []) := by
      unfold State.partOf
      rw [if_neg (by decide), show collecting.localMember 1 = none by decide, show collecting.tileSize = 4096 by decide +kernel]
      rfl
    rw [show collecting.givers otherTile = [1] by decide, List.map_singleton, p]
    rfl
  unfold State.collWrite
  rw [if_neg (by decide +kernel), n, show collecting.slice = 0 from rfl, r]
  exact ⟨_, rfl⟩

/-- The load's group with an operation of the array under way in entry 0. -/
def arrayRuns (o : MmaOp) (log : List Entry := [ent 12 (.mmaIssueCore (rg 0 1 0 2)) (.host 0)]) : State :=
  (at_ (fun g => { g with log := log })).modCore 0 (fun c => { c with queue := [o] })
def opOf (flags n : Nat) : MmaOp := { cores := [0], started := true, block := leBytes 2 1 ++ leBytes 2 n ++ (fmtBlock flags).drop 4 }

theorem witness_EnginesAndArray_array :
    State.reset.mmaCanStart 0 = false ∧ State.reset.headMma 0 = none ∧
    (let o := { opOf 0 1 with started := false }
     (arrayRuns o).mmaCanStart 0 = true ∧ (arrayRuns o).headMma 0 = some o ∧ o.cores = [0]) ∧
    ((arrayRuns { opOf 0 1 with left := 1 }).headMma 0 = some { opOf 0 1 with left := 1 }) ∧
    (let s := arrayRuns (opOf 2 1)
     let f := Fb.of (opOf 2 1).block
     s.headMma 0 = some (opOf 2 1) ∧ f.check = true ∧ (opOf 2 1).rerun = false ∧ s.mmaPoison (groupOf s) f (opOf 2 1) = false ∧
       (∃ x ∈ s.stepCores (groupOf s) f (opOf 2 1),
         s.tilePasses (groupOf s) f x.2.1 x.2.2 ([{ core := 0, i := 0, j := 0, b := 0, delta := 1 }].filter (fun y => y.core == x.1)) = false) ∧
       (∀ x ∈ s.stepCores (groupOf s) f (opOf 2 1), s.tilePasses (groupOf s) f x.2.1 x.2.2 ([].filter (fun y => y.core == x.1)) = true)) ∧
    (∀ e ∈ [(64, true), (65, false)], let s := arrayRuns (opOf 0 e.1)
      s.headMma 0 = some (opOf 0 e.1) ∧ ((groupOf s).entry? 0).isSome = true ∧ 1 &&& (groupOf s).live ≠ 0 ∧
        s.mmaPoison (groupOf s) (Fb.of (opOf 0 e.1).block) (opOf 0 e.1) = false ∧ (Fb.of (opOf 0 e.1).block).check = false ∧
        (∀ h ∈ s.groups, h.2.place ≠ .saved) ∧
        (let f := Fb.of (opOf 0 e.1).block
         f.nextTiles (s.nenOf (groupOf s) f) ((groupOf s).tilesOf (opOf 0 e.1) ++ (s.stepCores (groupOf s) f (opOf 0 e.1)).map (·.2))).isEmpty =
          e.2) := by decide +kernel

/-- A bin of launch 0 on die 0, whose continuation area is in host memory. -/
def binned : State := walked ((launched { desc := goodDesc }).modDie 0 (fun d => { d with couch := [(0, {})] })) 1

theorem witness_EnginesAndArray_bins :
    Tbl.find (State.reset.die 3).couch 8 = none ∧ Tbl.find (binned.die 0).couch 0 = some {} ∧
    Tbl.find (binned.slice 0).launches 0 = some { desc := goodDesc } ∧
    (let l : Launch := { desc := goodDesc }
     (List.range l.contCount).find? (fun n => !l.gathered.any (fun g => g.slot == n)) = some 0 ∧
     binned.spanFail 0 0 (l.gatherAt 0) gatherBytes .store = none ∧
     (({ binned with free := binned.free + 1 } : State).engineWrite 0 0 (l.gatherAt 0)
       ((List.range gatherBytes).map (fun i => Config.freeByte binned.free (l.gatherAt 0 + i)))).isSome = true) := by
  refine ⟨by decide, by decide +kernel, by decide +kernel, by decide +kernel, by decide +kernel, ?_⟩
  have a : ({ desc := goodDesc } : Launch).gatherAt 0 = 0x2C000 := by decide +kernel
  rw [a]
  exact hostPage_write _ _ _ (by decide +kernel) (by decide) (by simp [gatherBytes])

theorem witness_ContainmentEvents :
    (let l : Line := { va := 0x204, bytes := [(8, {}), (127, {})] }
     l ∈ (({ State.reset with cores := [(143, { lines := [l] })] } : State).core 143).lines ∧ l.va = 0x204F / 16 ∧
       (∃ b ∈ l.bytes, b.1 / 8 = 0x204F % 16)) ∧
    ((moduleIs { recovery := true }).m.recovery = true ∧ State.reset.m.recovery = false) ∧
    ((0xFFFFFFFE : Word).getLsbD 0 = false ∧ (1 : Word).getLsbD 0 = true) ∧
    (∀ x ∈ [({ st := .free } : Slice), { st := .config }, { st := .activating }, { st := .resetting }, { st := .active, killing := true }],
      ((sliceIs x).slice 0).st ≠ .active ∨ ((sliceIs x).slice 0).killing = true) ∧
    (((sliceIs { st := .active }).slice 0).st = .active ∧ ((sliceIs { st := .active }).slice 0).killing = false ∧
      ((sliceIs { killing := true }).slice 0).killing = true) ∧
    (let ck : Checkpoint := { groups := [(0, { core := 35, hmark := 7 })] }
     let s := { dieIs { history := [ck] } with groups := [(0, { core := 35 })] }
     (3 < 4 ∧ 8 < 9) ∧ (s.die 0).checkpoint = some ck ∧ 35 ∈ zoneCores 0 8 ∧ Tbl.find s.groups 0 = some { core := 35 } ∧
       (∀ e ∈ s.groups, e.1 = 0 → e.2 = { core := 35 }) ∧ ({ core := 35 } : Group).place ≠ .saved ∧
       (s.die 0).groupMark ck 0 35 = some { core := 35, hmark := 7 } ∧ ({ core := 35 } : Group).fixStop = false ∧ (∀ c ∈ zoneCores 0 8, (s.core c).undo = [])) ∧
    (Tbl.get ((dieIs { frozen := [(8, 16)], cyc := 16 }).die 0).frozen 0 8 ≤ ((dieIs { frozen := [(8, 16)], cyc := 16 }).die 0).cyc ∧
      ((dieIs { frozen := [(8, 17)], cyc := 16 }).die 0).cyc < Tbl.get ((dieIs { frozen := [(8, 17)], cyc := 16 }).die 0).frozen 0 8) ∧
    (State.reset.queueDie 0 0x20 = none ∧ (engined []).queueDie 0 0x20 = some 0 ∧ 0x20 ≤ 0x3F ∧ 0x3F < 0x40) ∧
    (∀ x ∈ [({ offline := true } : Engine), { strikes := 1 }, { strikes := 2 }],
      (((engined []).modEngine 0 0 (fun _ => x)).die 0).engine ((0x20 - 0x20) % 8) = x) := by decide +kernel

/-- A part whose stack 7 is as given. -/
def stackIs (x : Stack) : State := { State.reset with hbm := [(7, x)] }

theorem witness_ContainmentEvents_memory :
    (State.reset.stack 7).table = [] ∧
    (let x : Stack := { table := [(15, { count := 1, ch := 31, bank := 63, row := 5, col := 6 })], spareRows := [(31 * 64 + 63, 3)] }
     ((stackIs x).stack 7).table = [(15, { count := 1, ch := 31, bank := 63, row := 5, col := 6 })] ∧ ((stackIs x).stack 7).repairs = [] ∧
       Tbl.get ((stackIs x).stack 7).spareRows 0 (31 * 64 + 63) < 4) ∧
    ((State.reset.stack 7).repairs = [] ∧ ((stackIs { repairs := [{ cls := 1 }] }).stack 7).repairs = [{ cls := 1 }]) ∧
    (let v : Word := 0x800007FF
     v.getLsbD 31 = true ∧ (v.extractLsb' 6 5).toNat = 31 ∧ (v.extractLsb' 0 6).toNat = 63 ∧ (31, 63) ∉ (State.reset.stack 7).requests ∧
       (31, 63) ∈ ((stackIs { requests := [(31, 63)] }).stack 7).requests) ∧
    (∀ f ∈ bankFrames 7 31 63, (stackIs { requests := [(31, 63)] }).owner f = 31) ∧
    (∃ f ∈ bankFrames 7 31 63, ((stackIs { requests := [(31, 63)] }).setOwner ((7 * 32 + 31) * 32768 + 511 * 64 + 63) 0).owner f ≠ 31) ∧
    (State.reset.mayTest 143 = false ∧ (State.reset.core 143).testing = 0 ∧
      ({ State.reset with cores := [(143, { testing := 1 })] } : State).core 143 = { testing := 1 }) := by
  refine ⟨by decide, by decide, by decide, by decide, by decide +kernel, ⟨(7 * 32 + 31) * 32768 + 511 * 64 + 63, ?_, ?_⟩, ?_, by decide, by decide⟩
  · decide +kernel
  · decide +kernel
  · simp [State.mayTest, State.reset, State.die, Tbl.get, dieOf]

theorem fusedBit_getLsbD (a : Option (Fin 36)) (k : Nat) (h : k < 36) :
    (Config.fusedBit a).getLsbD k = decide (a.map Fin.val = some k) := by
  cases a with
  | none => simp [Config.fusedBit]
  | some x => simp [Config.fusedBit, h, eq_comm]

/-- At most three cores of a die are fused at manufacture, so every four hold an enabled one. -/
theorem some_enabled (n : Nat) : ∃ k < 4, (Config.harvestFuse n).getLsbD k = false := by
  unfold Config.harvestFuse
  generalize Config.fusedCore n 0 = a, Config.fusedCore n 1 = b, Config.fusedCore n 2 = c
  by_contra! h
  have e : ∀ k < 4, (a.map Fin.val).getD 4 = k ∨ (b.map Fin.val).getD 4 = k ∨ (c.map Fin.val).getD 4 = k := by
    intro k hk
    have := h k hk
    simp only [BitVec.getLsbD_or, fusedBit_getLsbD _ k (by omega), Bool.not_eq_false, Bool.or_eq_true, decide_eq_true_eq] at this
    rcases this with (x | x) | x <;> simp [x]
  have e0 := e 0 (by omega)
  have e1 := e 1 (by omega)
  have e2 := e 2 (by omega)
  have e3 := e 3 (by omega)
  omega

theorem witness_ContainmentEvents_test : ∃ k < 4, (dieIs { curhs := 3 }).mayTest k = true := by
  obtain ⟨k, hk, h⟩ := some_enabled 0
  refine ⟨k, hk, ?_⟩
  rcases (by omega : k = 0 ∨ k = 1 ∨ k = 2 ∨ k = 3) with rfl | rfl | rfl | rfl <;>
    (simp only [State.mayTest, State.enabled]
     rw [show dieOf _ = 0 from rfl, h]
     decide +kernel)

/-- The test kernels may have been checked before, or hold the right signature, or a wrong one. -/
theorem witness_ContainmentEvents_checked :
    (moduleIs { testChecked := true }).m.testChecked = true ∧ State.reset.m.testChecked = false := by decide

/-! ## Witnesses: scheduling, time sharing, migration, translation, debugging -/

/-- The load with a word at the kernel's entry. -/
def loaded (i : Instr) : State := (start []).setMem bootPc (leBytes 4 (wordOf i).toNat)
def fmaWord : Instr := .fma (rg 0 9 10 8)
def fmaCand : Cand := ⟨0, groupOf (start []), splitOf (start [])⟩

theorem witness_SchedulerEvents :
    (∀ k ∈ [Slot.v, .m], let look (s : State) : List Cand := (s.firstLook 0 0).cands 0 0 (s.slotTurn 0 0 k)
     let s := loaded fmaWord
     let served := s.modCore 0 (fun c => { c with served := [1] })
     let poor := served.modCore 0 (fun c => { c with bkt := [] })
     look State.reset = [] ∧ look (if k = .v then served else s.modCore 0 (fun c => { c with served := [0] })) = (if k = .v then [fmaCand] else []) ∧
       look served = [fmaCand] ∧ (served.firstLook 0 0).candPays fmaCand = true ∧
       look poor = [fmaCand] ∧ (poor.firstLook 0 0).candPays fmaCand = false) ∧
    (let s := ((splits [sp 0 1, { sp 1 2 with pc := 0x20004 }]).setMem bootPc (leBytes 4 (wordOf fmaWord).toNat)).setMem 0x20004
       (leBytes 4 (wordOf (.ldW (mo 0 0 0))).toNat)
     (s.core 0).served = [] ∧ (s.cands 0 0 .v).length = 1 ∧ (s.cands 0 0 .m).length = 1) ∧
    (let s := splits [{ sp 0 1 with passed := 256 }]
     (groupOf s).split? 0 = some (splitOf s) ∧ 256 ≤ (splitOf s).passed ∧ (splitOf s).starve = 0) ∧
    (State.reset.idleDue 0 8 = false ∧ ((dieIs { adm := 256, cyc := 256 }).die 0).adm.getLsbD 8 = true ∧
      Tbl.get ((dieIs { adm := 256, cyc := 256 }).die 0).lastWide 0 8 + 255 ≤ ((dieIs { adm := 256, cyc := 256 }).die 0).cyc) ∧
    (State.reset.nextGrant 0 = none ∧ ((dieIs { grants := 4, cyc := 15 }).die 0).grantWin = ((dieIs { grants := 4, cyc := 15 }).die 0).cyc / 16 ∧
      4 ≤ ((dieIs { grants := 4, cyc := 15 }).die 0).grants) ∧
    (let s := (loaded fmaWord).modDie 0 (fun d => { d with adm := 0, grants := 3 })
     s.nextGrant 0 = some 0 ∧ (s.die 0).grants < 4) ∧
    (let s := splits [sp 0 1 .run [3], sp 1 2 .run [3]]
     (groupOf s).splits = [sp 0 1 .run [3], sp 1 2 .run [3]]) := by decide +kernel

/-- Slice 0 with a launch whose holder has spent its quota. -/
def spending : State :=
  walked ((((start []).modGroup 0 (fun g => { g with holders := [0x22800] })).setMem 0x22800 (image [(8, 0), (4, 512), (4, 0), (4, 1)])).modSlice 0 (fun x => { x with
    ctxs := [(0, { usage := [(0x22800, 1048576)] })], launches := [(0, { desc := bootDesc, holders := [0x22800], total := 1, dealt := 1 })] }))

/-- A launch yielded at tick n has a group to save, at some time; the deadline of tick 3 is at time 5. -/
def late (n at_ : Nat) : State :=
  { sliceIs { st := .active, deadlines := [(3, 5)], ticks := 3, launches := [(0, { yielded := true, yieldTick := n })] } with
    cycle := at_, groups := [(0, { place := .frozen, why := 2 })] }

theorem witness_TimeSharing :
    ((State.reset.slice 0).ticking = false ∧ ((start []).slice 0).ticking = true) ∧
    (spending.yielders 0 = [0] ∧ Tbl.find spending.groups 0 = some (groupOf spending) ∧ (groupOf spending).slice = 0 ∧
      (groupOf spending).place = .resident ∧ (groupOf spending).fixStop = false ∧ (groupOf spending).launch = 0 ∧ (spending.slice 0).ticking = true) ∧
    ((∀ h g, Tbl.find State.reset.groups h = some g → ∀ e ∈ g.log, e.cls ≠ 2) ∧ (State.reset.slice 15).deadlines = []) ∧
    (∀ n ∈ [2, 3, 4], let s := late n 5
      (s.slice 0).deadlines = [(3, 5)] ∧ s.cycle = 5 ∧ (late n 4).cycle < 5 ∧ (s.slice 0).st = .active ∧ (s.slice 0).killing = false ∧
        (s.unsaved 0).map (·.yieldTick) = [n]) ∧
    ((moduleIs { recovery := true }).m.recovery = true ∧ (sliceIs {}).m.recovery = false) ∧
    ((sliceIs { migBusy := true }).slice 0).migBusy = true ∧
    (∀ x ∈ [({ st := .config } : Slice), { st := .active, quiesced := true }, { st := .active, killing := true }],
      ((sliceIs x).slice 0).migBusy = false ∧ (((sliceIs x).slice 0).st ≠ .active ∨ ((sliceIs x).slice 0).quiesced = true ∨
        ((sliceIs x).slice 0).killing = true)) ∧
    (let x := (sliceIs { st := .active }).slice 0
     x.migBusy = false ∧ x.st = .active ∧ x.quiesced = false ∧ x.killing = false ∧ x.grace ≠ 0) ∧
    (let s := { sliceIs { st := .active, migBusy := true, migRung := 1 } with cycle := ((sliceIs {}).slice 0).grace * 1000, groups := [(0, {})] }
     (s.groups.map (·.1)).Nodup ∧ (s.slice 0).migRung = 1 ∧ (s.slice 0).ladderAt + (s.slice 0).grace * 1000 ≤ s.cycle ∧
       Tbl.find s.groups 0 = some {} ∧ ({} : Group).place = .resident ∧ ({} : Group).fixStop = false ∧
       (∀ e ∈ s.groups, ∀ x ∈ e.2.log, x.cls ≠ 2)) ∧
    ((State.reset.slice 0).migBusy = false ∧ ((sliceIs { migBusy := true, migRung := 2 }).slice 0).migRung ≠ 1 ∧
      (let s := sliceIs { migBusy := true, migRung := 1 }
       s.cycle < (s.slice 0).ladderAt + (s.slice 0).grace * 1000)) ∧
    (State.reset.killDue 0 = false) ∧
    (let s := { sliceIs { st := .active, migBusy := true, migRung := 2 } with cycle := 5000000 }
     s.killDue 0 = true ∧ (s.slice 0).st = .active ∧ (s.slice 0).killing = false) ∧
    (∃ e ∈ (start []).groups, e.2.slice = 0 ∧ e.2.place ≠ .saved) ∧
    (let s := { sliceIs { st := .active, migBusy := true } with groups := [(0, victim .saved)] }
     (s.slice 0).migBusy = true ∧ (s.slice 0).killing = false ∧ (∀ e ∈ s.groups, e.2.slice = 0 → e.2.place = .saved) ∧ s.cores = [] ∧
       s.dies = []) ∧
    ((sliceIs { killing := true, migBusy := true }).slice 0).killing = true := by
  refine ⟨by decide +kernel, by decide +kernel, ⟨fun _ _ h => (nomatch h), by decide⟩, by decide +kernel⟩

/-- Slices 0 and 1 as given, both dies running. -/
def twoSlices (x y : Slice) : State := { State.reset with slices := [(0, x), (1, y)], dies := [(0, { hs := 2, curhs := 2 })] }
def still (x : Slice) : Slice := { x with st := .active, quiesced := true }
/-- Cluster 1, channel 1, way 1, copy engine 1 of die 0. -/
def second : Slice := { st := .config, key := 2, helm := 1, cld := [(0, 2)], chlo := [(0, 2)], ways := [(0, 2)], cemask := 2 }
/-- Both slices in one. -/
def both : Slice := { whole .active with cld := [(0, 3)], chlo := [(0, 3)], ways := [(0, 3)], cemask := 3 }

theorem witness_MigrationOperations :
    ((sliceIs { migBusy := true }).slice 0).migBusy = true ∧
    (∀ x ∈ [({ st := .config } : Slice), { st := .active }, { st := .active, quiesced := true, killing := true }],
      ((sliceIs x).slice 0).st ≠ .active ∨ ((sliceIs x).slice 0).quiesced = false ∨ ((sliceIs x).slice 0).killing = true) ∧
    (let x := (sliceIs (still {})).slice 0
     x.migBusy = false ∧ x.st = .active ∧ x.quiesced = true ∧ x.killing = false ∧ x.exportKey = none ∧ x.wasDies = none) ∧
    (({ still {} with exportKey := some 1 } : Slice).exportKey ≠ none ∧ ({ still {} with wasDies := some [] } : Slice).wasDies ≠ none) ∧
    ((sliceIs (still { wasDies := some [] })).activateErr 0 ≠ 0 ∧ (sliceIs {}).m.recovery = false ∧
      (moduleIs { recovery := true }).m.recovery = true) ∧
    (∀ x ∈ [({ st := .config } : Slice), { st := .free }], ((sliceIs x).slice 0).importKey = none ∨ ((sliceIs x).slice 0).st = .free) ∧
    (∀ st ∈ [SliceState.config, .activating], let s := sliceIs { st := st, importKey := some 5 }
     (s.slice 0).st = st ∧ (s.slice 0).importKey = some 5 ∧ (s.slice 0).killing = false ∧ s.reamAt (s.slice 0).migAddr.toNat 5 = none) ∧
    (({} : Snapshot).fits = true ∧ ({ launches := [(0, {})] } : Snapshot).fits = false) ∧
    (let s := twoSlices (still (whole .active)) second
     (s.slice 0).quiesced = true ∧ (s.slice 1).st ≠ .active) ∧
    (let s := twoSlices (still (whole .active)) (still second)
     (∀ k < 2, (s.slice k).st = .active ∧ (s.slice k).quiesced = true ∧ (s.slice k).killing = false ∧ (s.slice k).migBusy = false) ∧
       s.consents 0 1 = true ∧ s.consents 1 0 = true ∧ s.mergeUnfit 0 1 = false) ∧
    ((twoSlices (still { whole .active with tdi := .run }) (still second)).consents 0 1 = false) ∧
    (let s := twoSlices (still { whole .active with floor := [(0, 255)] }) (still { second with floor := [(0, 255)] })
     s.consents 0 1 = true ∧ s.consents 1 0 = true ∧ s.mergeUnfit 0 1 = true) ∧
    (∀ st ∈ [SliceState.config, .activating], let s := twoSlices (still both) { second with st := st }
     (s.slice 0).quiesced = true ∧ (s.slice 1).st = st ∧ within (s.slice 1) (s.slice 0) = true ∧
       (without (s.slice 0) (s.slice 1)).sound = true ∧ (s.slice 1).sound = true ∧
       (s.others 1).any (fun z => z.helm == (s.slice 1).helm) = false ∧ s.splitList (s.slice 0).migAddr.toNat = ([], []) ∧
       s.consents 0 1 = true ∧ (twoSlices (still { both with tdi := .configLocked }) second).consents 0 1 = false) := by decide +kernel

theorem witness_MigrationOperations_reshape (h : ∀ d, Config.wayFuse d = 0) :
    (withSlice (still { whole .active with wasDies := some [0] })).activateErr 0 = 0 ∧
    (withSlice { whole .config with importKey := some 5 }).activateErr 0 = 0 := by
  constructor <;> simp only [State.activateErr, State.wayDis, h] <;> decide +kernel

/-- The ream of an idle slice fits in frames of the PF, and does not in frames of no one. -/
theorem witness_MigrationOperations_room :
    (State.reset.pfRoom 0 1 = false) ∧ (State.reset.setOwner 0 16).pfRoom 0 65536 = true ∧ (State.reset.setOwner 0 16).pfRoom 0 65537 = false := by
  decide +kernel

theorem leBytes_length (n v : Nat) : (leBytes n v).length = n := by
  induction n generalizing v with
  | zero => rfl
  | succ n ih => rw [leBytes, List.length_cons, ih]

theorem Ream.bytes_length (r : Ream) : r.bytes.length = r.length := by
  simp only [Ream.bytes, Ream.header, Ream.sealed, Ream.length, leBytes_length, zeros, List.length_append, List.length_replicate,
    List.length_map, List.length_zip, List.length_range, Nat.min_self]

/-- What has been written is read. -/
theorem memBytes_setMem (s : State) (a : Nat) (l : List Byte) : (s.setMem a l).memBytes a l.length = l := by
  apply List.ext_getElem
  · simp [State.memBytes]
  · intro i h _
    have : i < l.length := by simpa [State.memBytes] using h
    simp [State.memBytes, State.memByte, State.setMem, Memory.read_writeList, this]

/-- A slice in CONFIG that has been given the key of a ream, which lies sealed where it looks. -/
def importing (r : Ream) : State :=
  ((withSlice { whole .config with importKey := some (Config.drawnKey r.key).toNat }).modM (fun m => { m with reams := [r] })).setMem 0 r.bytes

theorem witness_MigrationOperations_ream (r : Ream) :
    (importing r).reamAt ((importing r).slice 0).migAddr.toNat (Config.drawnKey r.key).toNat = some (r.snap, r.length) := by
  have h : (importing r).memBytes 0 r.length = r.bytes := by rw [← Ream.bytes_length]; exact memBytes_setMem _ _ _
  have a : ((importing r).slice 0).migAddr.toNat = 0 := rfl
  have l : (importing r).m.reams = [r] := rfl
  rw [a]
  simp [State.reamAt, l, h]

theorem witness_MigrationOperations_import (r : Ream) (h : ∀ d, Config.wayFuse d = 0) :
    ((importing r).slice 0).importKey = some (Config.drawnKey r.key).toNat ∧ ((importing r).slice 0).st = .config ∧
      (importing r).activateErr 0 = 0 := by
  refine ⟨rfl, rfl, ?_⟩
  have : (importing r).activateErr 0 = (withSlice (whole .config)).activateErr 0 := rfl
  rw [this]
  simp only [State.activateErr, State.wayDis, h]
  decide +kernel

/-- A group that waits for a token. -/
def faulted : State := { sliceIs { tokens := [(5, 0)] } with groups := [(0, { token := some (1, 5) })] }

theorem witness_TranslationAndRings :
    ((State.reset.checkPage (State.reset.core 0).owner 0 0 .load).toOption.isSome = false ∧
      ((start []).checkPage 0 0 0x20000 .load).toOption.isSome = true ∧ ((start []).core 0).owner = 0) ∧
    ((moduleIs { recovery := true }).m.recovery = true ∧ (sliceIs {}).m.recovery = false ∧ faulted.m.recovery = false) ∧
    (((sliceIs { inv := { busy := true } }).slice 0).tlbinv false).busy = true ∧ ((State.reset.slice 0).tlbinv true).busy = false ∧
    (∀ e ∈ [([], false), ([{ ea := 0x20400, loc := .home 0x90000 2, size := 8 }], true)],
      let s := (waitsFor { insn := .barWait (ma 1 1 4 8), accs := e.1 } []).modSlice 0 (fun x => { x with inv := { busy := true, rAll := true } })
      let g := groupOf s
      ((s.slice 0).tlbinv false).busy = true ∧ s.groups = [(0, g)] ∧ g.splits = [splitOf s] ∧
        s.staleWait 0 false ((s.slice 0).tlbinv false) g (splitOf s) = e.2) ∧
    State.reset.m.records = [] := by decide +kernel

theorem witness_TranslationAndRings_sizes :
    ((3 : Word).extractLsb' 0 5).toNat < 4 ∧ 16 < ((17 : Word).extractLsb' 0 5).toNat ∧
    (∀ v ∈ [(4 : Word), 16], 4 ≤ (v.extractLsb' 0 5).toNat ∧ (v.extractLsb' 0 5).toNat ≤ 16) := by
  simp

/-- A part with one record to report of a function, whose rings are as given. -/
def reporting (fn : Nat) (l : Tbl Ring) : State :=
  { State.reset with m := { records := [(1, fn, 0, zeros 64)] }, slices := [(fnSlice fn, { rings := l })] }

theorem witness_TranslationAndRings_report :
    (let s := reporting 1 [(1, { en := true, log2n := 4, tail := 16 }), (2, { en := true, log2n := 4, tail := 17 })]
     (s.ringOf 1 1).en = true ∧ (s.ringOf 1 1).full = true ∧ (s.ringOf 1 2).en = true ∧ (s.ringOf 1 2).full = false) ∧
    (let s := (reporting 0 [(1, { en := true, log2n := 4, tail := 15 })]).setOwner 0 16
     (s.ringOf 0 1).en = true ∧ (s.ringOf 0 1).full = false ∧ (s.ringOf 0 1).base.toNat + 64 * ((s.ringOf 0 1).tail.toNat % 16) = 960 ∧
       s.owner (960 / 65536) = 16) := by decide +kernel

theorem witness_TranslationAndRings_tokens :
    (State.reset.slice (fnSlice 1)).tokens = [] ∧ (5, 0) ∈ (faulted.slice (fnSlice 1)).tokens ∧ faulted.tokenCopies 1 5 = [] ∧
    Tbl.find faulted.groups 0 = some { token := some (1, 5) } := by decide +kernel

theorem witness_DebugAndCounters :
    (State.reset.dbgBusy 0 = false ∧ ({ State.reset with groups := [(0, { dumpAt := 1 })] } : State).dbgBusy 0 = true) ∧
    (let g : Group := { num := 31, ctx := 4095, lin := 7, dbgHeld := true }
     let s := { sliceIs { dbg := { lin := 7, cmd := 0x00FFF01F } } with groups := [(0, g)] }
     s.dbgBusy 0 = false ∧ s.groups = [(0, g)] ∧ g.slice = 0 ∧ g.dbgHeld = true ∧ (s.slice 0).dbg.names g = true ∧
       (s.slice 0).dbg.names { g with num := 0 } = false ∧ (s.groups.map (·.1)).Nodup) ∧
    (∀ g ∈ [({} : Group), { dumpAt := 1 }, { dbgHeld := true }], g.dumpAt = 0 ∨ State.reset.cycle < g.dumpAt ∨ g.dbgHeld = true) ∧
    (let g : Group := { dumpAt := 100000 }
     let s : State := { State.reset with groups := [(0, g)], cycle := 100000 }
     Tbl.find s.groups 0 = some g ∧ g.dumpAt ≠ 0 ∧ g.dumpAt ≤ s.cycle ∧ g.place = .resident ∧ g.dbgHeld = false ∧ g.fixStop = false ∧
       (∀ e ∈ g.log, e.cls ≠ 2) ∧
       s.m.recovery = false ∧ (moduleIs { recovery := true }).m.recovery = true) ∧
    (let x : Slice := { allow := [(7, 0)], mode := [(7, 0x80000000)] }
     let v : Word := 0x800000FF
     ((sliceIs x).slice 0).allows (v.extractLsb' 0 8).toNat = false ∧
       (Tbl.get ((sliceIs x).slice 0).mode 0 ((v.extractLsb' 0 8).toNat / 32)).getLsbD ((v.extractLsb' 0 8).toNat % 32) = true ∧
       (State.reset.slice 0).allows (v.extractLsb' 0 8).toNat = true) := by decide +kernel

/-! ## Witnesses: the whole machine -/

theorem witness_EncodedInstructionsDecode : Instr.wf fmaWord = true ∧ encode fmaWord = some (32, 0x28920181) ∧
    Instr.wf .nopH = true ∧ (encode .nopH).map (·.1) = some 16 ∧ Instr.wf (.createSlice 0) = true ∧ Instr.posted (.createSlice 0) = true := by
  decide +kernel

theorem witness_DecodedWordsEncodeBack : Decode.word 0x28920181 = .ok fmaWord ∧ 0x28920181 < 2 ^ (if 0x28920181 % 2 = 0 then 16 else 32) ∧
    Decode.word 0xF81 = .error (.illegal 1) ∧ Decode.word 0x0000_C007 ≠ .ok .nopH := by decide +kernel

/-- The kernel's first word, fetched. -/
theorem witness_StepRunsTheDecodedInstruction :
    let s := loaded fmaWord
    let p := splitOf s
    s.cur = some (0, 0) ∧ Tbl.find s.groups 0 = some (groupOf s) ∧ (groupOf s).split? 0 = some p ∧ s.live1 (groupOf s) p = true ∧
      (groupOf s).lateCause p = none ∧ s.fixAt (groupOf s) p.pc.toNat = none ∧ s.fetchPoison (groupOf s) p = none ∧ windowOf p.pc.toNat = .glob ∧ windowOf (p.pc.toNat + 2) = .glob ∧
      ((s.checkPage 0 0 p.pc.toNat .fetch).toOption.map (fun e => s.memBytes (e.out + p.pc.toNat % e.size) 2)) = some [0x81, 0x01] ∧
      ((s.checkPage 0 0 (p.pc.toNat + 2) .fetch).toOption.map (fun e => s.memBytes (e.out + (p.pc.toNat + 2) % e.size) 2)) = some [0x92, 0x28] ∧
      Decode.bytes [0x81, 0x01, 0x92, 0x28] = .ok (fmaWord, []) := by decide +kernel

/-- A split in the middle of a form. -/
theorem witness_StepRunsTheDecodedInstruction_midform :
    let i := Instr.barCount (ma 3 1 4 8)
    let s := (splits [asleep .cond (some { insn := i })]).setMem bootPc (leBytes 4 (wordOf i).toNat)
    let p := splitOf s
    s.cur = some (0, 0) ∧ Tbl.find s.groups 0 = some (groupOf s) ∧ (groupOf s).split? 0 = some p ∧ p.wait.isSome = true ∧ p.st = .sleep ∧
      windowOf p.pc.toNat = .glob ∧ windowOf (p.pc.toNat + 2) = .glob ∧
      Decode.bytes (leBytes 4 (wordOf i).toNat) = .ok (i, []) ∧
      ((s.checkPage 0 0 p.pc.toNat .fetch).toOption.map (fun e => s.memBytes (e.out + p.pc.toNat % e.size) 4)) =
        some (leBytes 4 (wordOf i).toNat) ∧
      ((s.checkPage 0 0 (p.pc.toNat + 2) .fetch).toOption.map (fun e => e.out + (p.pc.toNat + 2) % e.size)) = some 0x20002 ∧
      (s.group 0).skipBrk ≠ some 0 := by decide +kernel

theorem witness_StepRunsTheDecodedInstruction_others :
    Decode.bytes [0x81, 0x0F, 0, 0] = .error (.illegal 1) ∧ State.reset.cur = none ∧ State.reset.agenda = [] ∧
    (let s : State := { State.reset with agenda := [.switchTick 0, .nopH] }
     s.cur = none ∧ s.agenda = [.switchTick 0, .nopH] ∧ Instr.posted (.switchTick 0) = true ∧ Instr.posted .nopH = false) := by decide +kernel

theorem witness_EveryStepKeepsTheMemoriesCanonical : Canonical State.reset := by
  refine ⟨?_, ?_, ?_⟩ <;> decide

/-- The range of the rounding statement: a tie, a carry into the exponent, an overflow, an underflow. -/
theorem witness_RoundingIsRight : f8e4 ∈ [f32, f16, bf16, f8e4, f8e5, f6e3, f6e2, f4e2] ∧ 3 < 4 ∧
    (f8e4.round false 0 (.fin false 1000 0)).2 / 4 % 2 = 1 ∧ (f8e4.round false 0 (.fin false 300 0)).2 / 4 % 2 = 0 := by decide +kernel

/-! ## Decoding: a word for every constructor, its fields placed as R268 and R269 say -/

namespace Words

def h (b d : Nat) : H16 := { b := .ofNat 5 b, d := .ofNat 5 d, w := true }
def ri (i d : Nat) : RI := { i := .ofNat 16 i, d := .ofNat 6 d, w := 5 }
def rg (x a b d : Nat) : RG := { b := .ofNat 6 b, a := .ofNat 6 a, d := .ofNat 6 d, x := .ofNat 2 x, w := 5, s := true }
def mo (off a d : Nat) : MO := { off := .ofNat 8 off, a := .ofNat 6 a, d := .ofNat 6 d, w := 5, s := true }
def ma (o x a d sc : Nat) : MA :=
  { o := .ofNat 2 o, a := .ofNat 6 a, d := .ofNat 6 d, sc := .ofNat 4 sc, x := .ofNat 2 x, w := 5, s := true }
def cb (off : Nat) (n : Bool) (p : Nat) : CB := { off := .ofNat 16 off, n := n, p := .ofNat 3 p, w := 5, s := true }

/-- Every word of a list decodes to its instruction, and the instruction encodes to the word. -/
def agree (l : List (Nat × Instr)) : Bool :=
  l.all (fun e => decide (Decode.word e.1 = .ok e.2) && decide ((encode e.2).map (·.2) = some e.1) && Instr.wf e.2)

theorem test_decode_halfwords : agree [
    (0xD602, .mov16 (h 26 24)), (0xD606, .addI3216 (h 26 24)), (0xD60A, .subI3216 (h 26 24)),
    (0xD60E, .addF3216 (h 26 24)), (0xD612, .subF3216 (h 26 24)), (0xD616, .mulF3216 (h 26 24)),
    (0xD61A, .maxF3216 (h 26 24)), (0xD61E, .minF3216 (h 26 24)), (0xD622, .and16 (h 26 24)),
    (0xD626, .or16 (h 26 24)), (0xD62A, .xor16 (h 26 24)), (0xD62E, .shl16 (h 26 24)), (0xD632, .shr16 (h 26 24)),
    (0xD636, .mulI3216 (h 26 24)), (0xD63A, .maxI3216 (h 26 24)), (0xD63E, .addF16x216 (h 26 24))] = true := by decide +kernel

theorem test_decode_immediates : agree [
    (0x81238C2B, .movi (ri 0x8123 35)), (0x81238C6B, .movhi (ri 0x8123 35)), (0x81238CAB, .addiI32 (ri 0x8123 35)),
    (0x81238CEB, .muliI32 (ri 0x8123 35)), (0x81238D2B, .andi (ri 0x8123 35)), (0x81238D6B, .ori (ri 0x8123 35)),
    (0x81238DAB, .xori (ri 0x8123 35)), (0x138DEB, .shli (ri 0x13 35)), (0x81238E2B, .addiF32 (ri 0x8123 35)),
    (0x81238E6B, .muliF32 (ri 0x8123 35)), (0x81238EAB, .moviF16x2 (ri 0x8123 35)),
    (0x81238EEB, .addiF16x2 (ri 0x8123 35)), (0x81238F2B, .muliF16x2 (ri 0x8123 35)),
    (0x81238F6B, .addiBf16x2 (ri 0x8123 35)), (0x81238FAB, .muliBf16x2 (ri 0x8123 35)),
    (0x81238FEB, .moviF8x4 (ri 0x8123 35))] = true := by decide +kernel

theorem test_decode_registers_1 : agree [
    (0xCA98E059, .add (rg 2 41 50 35)), (0xCA98E0D9, .sub (rg 2 41 50 35)), (0xCA98E159, .mul (rg 2 41 50 35)),
    (0xCA98E1D9, .fma (rg 2 41 50 35)), (0xCA98E259, .minL (rg 2 41 50 35)), (0xCA98E2D9, .maxL (rg 2 41 50 35)),
    (0xCA98C359, .andL (rg 0 41 50 35)), (0xCA98D359, .orL (rg 1 41 50 35)), (0xCA98E359, .xorL (rg 2 41 50 35)),
    (0xCA98F359, .andn (rg 3 41 50 35)), (0xCA98C3D9, .shl (rg 0 41 50 35)), (0xCA98D3D9, .shr (rg 1 41 50 35)),
    (0xCA98E3D9, .sar (rg 2 41 50 35)), (0xCA98F3D9, .rol (rg 3 41 50 35)), (0xCA98D459, .mulhHi (rg 1 41 50 35)),
    (0xCA98F459, .mulhWide (rg 3 41 50 35)), (0x298C4D9, .rcp (rg 0 41 0 35)), (0x298D4D9, .rsq (rg 1 41 0 35)),
    (0x298E4D9, .sqrt (rg 2 41 0 35)), (0x298F4D9, .exp2 (rg 3 41 0 35)), (0x298C559, .log2 (rg 0 41 0 35)),
    (0x298D559, .sin (rg 1 41 0 35)), (0x298E559, .cos (rg 2 41 0 35)), (0x298F559, .tanh (rg 3 41 0 35))] = true := by decide +kernel

theorem test_decode_registers_2 : agree [
    (0xCA98E5D9, .cvt (rg 2 41 50 35)), (0xCA98E659, .pk (rg 2 41 50 35)), (0xCA98E6D9, .upk (rg 2 41 50 35)),
    (0xCA912759, .cmpI32 (rg 2 41 50 4)), (0xCA9127D9, .cmpN32 (rg 2 41 50 4)), (0xCA912859, .cmpF32 (rg 2 41 50 4)),
    (0xCA9128D9, .cmpxF32 (rg 2 41 50 4)), (0xCA98E959, .sel (rg 2 41 50 35)), (0xCA98E9D9, .dp4 (rg 2 41 50 35)),
    (0xCA98EA59, .dp2 (rg 2 41 50 35)), (0x298CAD9, .popc (rg 0 41 0 35)), (0x298DAD9, .clz (rg 1 41 0 35)),
    (0x298EAD9, .brev (rg 2 41 0 35)), (0x298FAD9, .ffs (rg 3 41 0 35)), (0xCA98DB59, .bfe (rg 1 41 50 35)),
    (0xCA98EB59, .bfi (rg 2 41 50 35)), (0xCA98FB59, .perm (rg 3 41 50 35)), (0xCA98EBD9, .shfl (rg 2 41 50 35)),
    (0x510C59, .voteAll (rg 0 5 0 4)), (0x511C59, .voteAny (rg 1 5 0 4)), (0x562C59, .voteBallot (rg 2 5 0 24)),
    (0x2913C59, .voteEq (rg 3 41 0 4)), (0x2962CD9, .gred (rg 2 41 0 24)), (0x148CD59, .xmovVs (rg 0 20 0 35))] = true := by decide +kernel

theorem test_decode_registers_3 : agree [
    (0x6A961D59, .xmovSv (rg 1 41 26 24)), (0x58ED59, .xmovVp (rg 2 5 0 35)), (0x2913D59, .xmovPv (rg 3 41 0 4)),
    (0x69460DD9, .sadd (rg 0 20 26 24)), (0x69461DD9, .ssub (rg 1 20 26 24)), (0x69462DD9, .smul (rg 2 20 26 24)),
    (0x69463DD9, .sand (rg 3 20 26 24)), (0x69460E59, .sor (rg 0 20 26 24)), (0x69461E59, .sxor (rg 1 20 26 24)),
    (0x69462E59, .sshl (rg 2 20 26 24)), (0x69463E59, .sshr (rg 3 20 26 24)), (0x69462ED9, .scmp (rg 2 20 26 24)),
    (0xCA98CF59, .add64 (rg 0 41 50 35)), (0xCA98DF59, .sub64 (rg 1 41 50 35)), (0x69462F59, .sadd64 (rg 2 20 26 24)),
    (0xCA98FF59, .mad64 (rg 3 41 50 35)), (0x298CBDD, .arrArrive (rg 0 41 0 35)),
    (0x298DBDD, .arrExpect (rg 1 41 0 35)), (0x6A912BDD, .arrTest (rg 2 41 26 4)),
    (0x6A963BDD, .arrWait (rg 3 41 26 24)), (0x6A960C5D, .cpIssue (rg 0 41 26 24)),
    (0x6A961C5D, .cpIssue2d (rg 1 41 26 24)), (0x6A962C5D, .cpRekey (rg 2 41 26 24)),
    (0x6A963C5D, .cpCancel (rg 3 41 26 24))] = true := by decide +kernel

theorem test_decode_registers_4 : agree [
    (0x6A910DDD, .tileTld (rg 0 41 26 4)), (0x6A911DDD, .tileTst (rg 1 41 26 4)), (0x12DDD, .tileTzero (rg 2 0 0 4)),
    (0x6A913DDD, .tileTcvt (rg 3 41 26 4)), (0x2910E5D, .mmaIssueCore (rg 0 41 0 4)),
    (0x2911E5D, .mmaIssueCl (rg 1 41 0 4)), (0x12E5D, .mmaWait (rg 2 0 0 4)), (0xC8003E5D, .mmaFence (rg 3 0 50 0)),
    (0x2960EDD, .collIssue (rg 0 41 0 24)), (0x2901EDD, .collWait (rg 1 41 0 0)), (0x2912EDD, .collTest (rg 2 41 0 4)),
    (0x6A903EDD, .collSignal (rg 3 41 26 0)), (0x298CF5D, .contEmit (rg 0 41 0 35)), (0x1F5D, .contFlush (rg 1 0 0 0)),
    (0x2DF, .ret (rg 0 0 0 0)), (0x140035F, .jmpR (rg 0 20 0 0)), (0x3DF, .rcv (rg 0 0 0 0)),
    (0x13DF, .yieldSplit (rg 1 0 0 0)), (0x23DF, .resync (rg 2 0 0 0)), (0x45F, .exitLanes (rg 0 0 0 0)),
    (0x4DF, .swTrap (rg 0 0 0 0)), (0x140055F, .sleepUntil (rg 0 20 0 0)), (0x140155F, .sleepNs (rg 1 20 0 0)),
    (0x255F, .sleepYield (rg 2 0 0 0))] = true := by decide +kernel

theorem test_decode_registers_5 : agree [
    (0xCA9605DF, .srRd (rg 0 41 50 24)), (0xCA96065F, .srWr (rg 0 41 50 24)), (0xCA9606DF, .ctrRd (rg 0 41 50 24)),
    (0xCA9016DF, .ctrStart (rg 1 41 50 0)), (0xCA9026DF, .ctrStop (rg 2 41 50 0)), (0x636DF, .ctrMark (rg 3 0 0 24)),
    (0x75F, .brk (rg 0 0 0 0)), (0x7DF, .boostClaim (rg 0 0 0 0)), (0x17DF, .boostRelease (rg 1 0 0 0)),
    (0x627DF, .boostQuery (rg 2 0 0 24)), (0x85F, .rfe (rg 0 0 0 0)), (0x8DF, .nop (rg 0 0 0 0)),
    (0x18DF, .nopWaitsb (rg 1 0 0 0)), (0x6095F, .maskRd (rg 0 0 0 24)), (0x140195F, .maskWr (rg 1 20 0 0)),
    (0x145109DF, .pand (rg 0 5 5 4)), (0x145119DF, .por (rg 1 5 5 4)), (0x145129DF, .pxor (rg 2 5 5 4)),
    (0x5139DF, .pnot (rg 3 5 0 4)), (0x69460A5F, .chartSel (rg 0 20 26 24)), (0x69461A5F, .chartRd (rg 1 20 26 24))] = true := by decide +kernel

theorem test_decode_offsets : agree [
    (0x92A6305D, .ldB (mo 0x92 41 35)), (0x92A630DD, .ldBn (mo 0x92 41 35)), (0x92A6315D, .ldH (mo 0x92 41 35)),
    (0x92A631DD, .ldHn (mo 0x92 41 35)), (0x92A6325D, .ldW (mo 0x92 41 35)), (0x92A632DD, .ldD (mo 0x92 41 35)),
    (0x92A6335D, .ldQ (mo 0x92 41 35)), (0x92A633DD, .stB (mo 0x92 41 35)), (0x92A6345D, .stH (mo 0x92 41 35)),
    (0x92A634DD, .stW (mo 0x92 41 35)), (0x92A6355D, .stD (mo 0x92 41 35)), (0x92A635DD, .stQ (mo 0x92 41 35)),
    (0x92A5865D, .ldsW (mo 0x92 41 24)), (0x92A586DD, .ldsD (mo 0x92 41 24)), (0x92A5875D, .stsW (mo 0x92 41 24)),
    (0x92A637DD, .pf (mo 0x92 41 35))] = true := by decide +kernel

theorem test_decode_orders : agree [
    (0xA98E285D, .atomA (ma 2 2 41 35 8)), (0xA98E28DD, .atomB (ma 2 2 41 35 8)),
    (0xA98E295D, .atomC (ma 2 2 41 35 8)), (0xA98E29DD, .red (ma 2 2 41 35 8)), (0x22A5D, .fence (ma 0 2 0 0 8)),
    (0x20ADD, .phaseClose (ma 0 0 0 0 8)), (0x21ADD, .phaseOpen (ma 0 1 0 0 8)), (0x22ADD, .phaseCycle (ma 0 2 0 0 8)),
    (0x123ADD, .phaseTest (ma 0 3 0 4 8)), (0xA9620B5D, .barArrive (ma 2 0 41 24 8)),
    (0xA9621B5D, .barWait (ma 2 1 41 24 8)), (0xA9022B5D, .barArriveWait (ma 2 2 41 0 8)),
    (0xA9623B5D, .barCount (ma 2 3 41 24 8)), (0x298E0CDD, .stMc (ma 0 0 41 35 8)),
    (0x298E1CDD, .ldRedAddF32 (ma 0 1 41 35 8)), (0x298E2CDD, .ldRedAddBf16 (ma 0 2 41 35 8)),
    (0x298E3CDD, .ldRedMaxF32 (ma 0 3 41 35 8)), (0x29620D5D, .cntAdd (ma 0 0 41 24 8)),
    (0x29621D5D, .cntRd (ma 0 1 41 24 8)), (0x29622D5D, .cntWait (ma 0 2 41 24 8)),
    (0x29623D5D, .cntTest (ma 0 3 41 24 8))] = true := by decide +kernel

theorem test_decode_branches : agree [
    (0xABCD005F, .bra (cb 0xABCD false 0)), (0xABCDD0DF, .brP (cb 0xABCD true 5)),
    (0xABCDD15F, .brAny (cb 0xABCD true 5)), (0xABCDD1DF, .brAll (cb 0xABCD true 5)),
    (0xABCD025F, .call (cb 0xABCD false 0))] = true := by decide +kernel

theorem test_decode_zero : Decode.word 0 = .ok .nopH := by decide

end Words

/-! ## Ill-formed instructions and operations: one for each check, all refused -/

/-- Unused fields and fixed bits that are set, selectors out of range, and the halfword of nop.h as a mov (R268, R270, R278). -/
theorem test_ill_formed_fields : ∀ i ∈ [Instr.mov16 (h 0 0), .rcp (rg 0 9 1 8), .pand (rg 0 0 8 0),
    .voteAll (rg 0 8 0 4), .sadd (rg 0 32 1 1), .sadd (rg 1 1 1 1), .ldsW (mo 0 4 1), .ldsW (mo 0 5 32), .fence (ma 0 0 1 0), .fence { ma 0 0 0 0 with o := 1 },
    .barWait { ma 0 1 4 8 with x := 2 }, .call (cb 1 1), .bra ({ cb 0 0 with n := true }), .exitLanes (rg 0 0 0 1), .pand (rg 0 8 0 0),
    .maskRd (rg 0 0 0 32)], Instr.wf i = false := by decide +kernel

/-- Operand values that raise ILLEGAL when the word is executed: registers beyond REGS (DETAIL 3), odd pairs (4), limits (1, 2). -/
theorem test_illegal_details : illegalDetail (.fma (rg 0 1 2 40)) 40 = 3 ∧ illegalDetail (.add64 (rg 0 1 2 2)) 64 = 4 ∧
    illegalDetail (.ldQ (mo 0 0 2)) 64 = 4 ∧ illegalDetail (.shli (ri 32 1)) 64 = 2 ∧ illegalDetail (.cvt (rg 0 1 9 1)) 64 = 1 ∧
    illegalDetail (.mmaFence (rg 3 0 11 0)) 64 = 1 ∧ illegalDetail (.pf (mo 0 0 3)) 64 = 2 := by decide +kernel

/-- Indices of units that the module does not have (R8, R9, R33). -/
theorem test_ill_formed_units : ∀ i ∈ [Instr.counterLoRead 17 0, .pwrctlWrite 4 0, .powerCapTick 4096, .vfWindowAccess 16 true 0 0, .tdiStop 0, .tdiStop 17,
    .ptpLockLoss 8, .mcjoinWrite 0 64 0 0, .mcjoinWrite 0 0 4 0, .ucieRetrain 8 0 0, .ucieRetrain 0 20 0, .createSlice 16, .assignFrame 8388608 0,
    .assignFrame 0 32, .bwWindow 8 [], .functionLevelReset 0, .vfEnableSet 17, .getVersion 17, .pktLaunch 0 64, .wgResident 144,
    .copyPieceStart 0 8, .patrolScrub (.line 4294967296) true, .patrolScrub (.spad 144 0) true,
    .patrolScrub (.spad 0 524288) true, .patrolScrub (.tile 0 98304) true, .patrolScrub (.l1 144 0) true, .patrolScrub (.l2 68719476736) true, .rdmaInbound 17 (.send 0 []), .strikeReport 0 9, .engineCompareMismatch 0 160, .correctedError 0 32 0 0 0,
    .correctedError 0 0 64 0 0, .correctedError 0 0 0 32768 0, .correctedError 0 0 0 0 32, .slotIssue 0 8 .v, .binForm 0 36, .entryComplete 0 48,
    .i1HomeRequest 0 0 32, .ringCtlWrite 0 4 0, .evselWrite 0 8 0, .allowWrite 0 true 8 0], Instr.wf i = false := by decide +kernel

/-! ## Words that the spec writes out -/

/-- The encoding examples of 15, 16 and 17 and the listings of 13 and 14. -/
theorem test_spec_words : ∀ e ∈ [(0x00208F31, Instr.add64 { rg 0 2 0 2 with w := 3 }), (0x40491C43, .movhi (ri 0x4049 7)),
    (0x02088305, .ldQ (mo 2 2 8)), (0xFF444505, .stD (mo 0xFF 17 4)), (0x42220805, .atomA { ma 0 2 8 8 with o := 1 }),
    (0xD100EB05, .barArriveWait { ma 2 17 0 3 with o := 3 }), (0x191A2D05, .cntWait (ma 2 25 6 8)), (0x29133B85, .arrWait (rg 3 17 10 12)),
    (0x01108E05, .mmaIssueCore (rg 0 17 0 2)), (0x01101E05, .mmaIssueCl (rg 1 17 0 0)), (0x0000AE05, .mmaWait (rg 2 0 0 2)),
    (0x14003E05, .mmaFence (rg 3 0 5 0)), (0x3150BD85, .tileTcvt (rg 3 21 12 2)), (0x00006D85, .tileTzero (rg 2 0 0 1)),
    (0x29110C05, .cpIssue (rg 0 17 10 4)), (0x00D00F05, .contEmit (rg 0 13 0 0)), (0x00001F05, .contFlush (rg 1 0 0 0)),
    (0xFFF80007, .bra (cb 0xFFF8 0)), (0x0006A107, .brAny { cb 6 2 with n := true }), (0x00043187, .brAll (cb 4 3)), (0x00200207, .call (cb 0x20 0)),
    (0x00400507, .sleepUntil (rg 0 4 0 0)), (0x00010587, .srRd (rg 0 0 0 4)), (0xC0018607, .srWr (rg 0 0 48 6)), (0x0001F687, .ctrMark (rg 3 0 0 7)),
    (0x00000787, .boostClaim (rg 0 0 0 0)), (0x0000C907, .maskRd (rg 0 0 0 3)), (0x00301907, .maskWr (rg 1 3 0 0)), (0x0C204987, .pand (rg 0 2 3 1)),
    (0x34C28A07, .chartSel (rg 0 12 13 10)), (0x2904, .addI3216 (h 5 4)), (0x2906, .addI3216 { h 5 4 with w := true }),
    (0x0C10AB81, .shfl (rg 2 1 3 2)), (0x00119CA1, .gred { rg 1 1 0 6 with w := 2 }), (0x04206831, .cmpF32 { rg 2 2 1 1 with w := 3 }),
    (0x0011EC01, .voteBallot (rg 2 1 0 7)), (0x06121985, .red (ma 1 6 4 8)), (0x06221805, .atomA (ma 1 6 8 8)), (0x00020A85, .phaseClose (ma 0 0 0 8)),
    (0x00000407, .exitLanes (rg 0 0 0 0))], Decode.word e.1 = .ok e.2 := by decide +kernel

/-! ## Worked examples of the spec -/

/-- The state after an instruction; the one before where it gives none. -/
def after (i : Instr) (s : State) : State := match exec i s with | .next t => t | _ => s
/-- Vector register n of lane l of the group after it. -/
def laneAfter (i : Instr) (s : State) (n l : Nat) : Word := (groupOf (after i s)).vReg n l
def sAfter (i : Instr) (s : State) (n : Nat) : Word := (groupOf (after i s)).sReg n
/-- The load where some registers of lane 0 hold values. -/
def lane0 (l : List (Nat × Word)) : State := at_ (fun g => { g with v := l.map (fun e => (e.1 * 32, e.2)) })

/-- 00_scope, the short example. -/
theorem test_add_wraps : laneAfter (.add (rg 0 5 6 4)) (lane0 [(5, 0x7FFFFFFF), (6, 1)]) 4 0 = 0x80000000 := by decide +kernel

/-- The example of R310. -/
theorem test_perm : laneAfter (.perm (rg 3 5 6 4)) (lane0 [(5, 0x88442211), (6, 0x00008310)]) 4 0 = 0x00882211 := by decide +kernel

/-- The example of R301. -/
theorem test_cvt : laneAfter (.cvt (rg 0 6 0x15 5)) (lane0 [(6, 0x43960000)]) 5 0 = 0x79 := by decide +kernel

/-- The table of worked conversions: modes rne 0, rz 1, rdn 2, rup 3; flags NX 1, UF 2, OF 4, NV 16. -/
theorem test_conversions :
    cvtVal false 0 2 5 0x43960000 = (0x79, 1) ∧ cvtVal false 3 2 5 0x43960000 = (0x7A, 1) ∧
    (∀ m < 4, cvtVal false m 2 5 0x447A0000 = (0x7F, 5)) ∧ cvtVal false 0 2 5 0x3A800000 = (0, 3) ∧ cvtVal false 3 2 5 0x3A800000 = (1, 3) ∧
    cvtVal false 0 2 7 0xC0200000 = (0xC, 1) ∧ cvtVal false 2 2 7 0xC0200000 = (0xD, 1) ∧ cvtVal false 0 2 4 0x3F808000 = (0x3F80, 1) ∧
    cvtVal false 0 2 4 0x3F818000 = (0x3F82, 1) ∧ (∀ m < 4, (cvtVal false m 2 6 0x7FC00000).1 = 0) ∧ cvtVal false 0 6 3 0x7C = (0x7C00, 5) ∧
    cvtVal false 1 6 3 0x7C = (0x7BFF, 5) ∧ cvtVal false 0 2 0 0xC0600000 = (0xFFFFFFFC, 1) ∧ (cvtVal false 1 2 0 0x4F32D05E).1 = 0x7FFFFFFF := by
  decide +kernel

/-- The example of R47: an exact sum of four members. -/
theorem test_member_sum : memberSum f32 [0x3F800000, 0x4B800000, 0x3F800000, 0xCB800000] = 0x40000000 := by decide +kernel

/-- The example of R94: CAUSE 3, SRC 0x20, DONE 12,288. -/
theorem test_error_word : errorWord 3 0 0x20 12288 = 0x8003200000003000 := by decide

/-- The example of R116: fifty workgroups on clusters of 4, 3 and 2 cores. -/
theorem test_deal : dealShares ([0, 1, 2, 3].map (fun c => (c, 0, 0, c)) ++ [4, 5, 6].map (fun c => (c, 0, 1, c - 4)) ++
    [8, 9].map (fun c => (c, 0, 2, c - 8))) 50 = [(0, 5), (1, 4), (2, 4), (3, 4), (4, 6), (5, 6), (6, 5), (8, 8), (9, 8)] := by decide +kernel

/-- The example of R192. -/
theorem test_private_address : privAddr 0x1000000000 { lin := 3, count := 2, num := 1, privWords := 40 } 5 12 = 0x1000009214 := by decide

/-- The chart of the example of R393: class 2 with CAP 64, 256, 1,024 and 256. -/
def charting (n : Nat) (cls : Nat := 2) : State :=
  walked <| (withDesc (start [(12, .ofNat 32 cls), (13, .ofNat 32 n)]) (bootDesc.take 0x60 ++ leBytes 8 0x20000 ++ [16] ++ zeros 0x97)).setMem 0x20200
    ([64, 256, 1024, 256].flatMap (fun c => leBytes 4 c ++ leBytes 4 1 ++ zeros 24))
def chartOf (n : Nat) (cls : Nat := 2) : Word × Word :=
  (sAfter (.chartSel (rg 0 12 13 10)) (charting n cls) 10, sAfter (.chartSel (rg 0 12 13 10)) (charting n cls) 11)

theorem test_chart : chartOf 200 = (0x80000021, 0x100) ∧ chartOf 0 = (0x80000020, 0x40) ∧ chartOf 5000 = (0xC0000022, 0x400) ∧
    chartOf 10 5 = (0, 0) := by decide +kernel

/-- The example of R168: lane 3 misaligned, lanes 8 and 9 beyond the scratchpad, lane 20 on a page that is not there. -/
def mixedAt (lane3 l : Nat) : Word :=
  if l = 3 then .ofNat 32 lane3 else if l = 8 ∨ l = 9 then 0xFF001000 else if l = 20 then 0x40000000 else 0x20400
def mixedV (lane3 : Nat) : Tbl Word := (List.range 32).map (fun l => (8 * 32 + l, mixedAt lane3 l)) ++ [(9 * 32 + 8, 0x01FFFFFF), (9 * 32 + 9, 0x01FFFFFF)]
def mixed (lane3 : Nat) : State := at_ (fun g => { g with v := mixedV lane3 })

theorem test_lowest_cause_wins :
    (let t := (groupOf (after (.ldW (mo 0 8 6)) (mixed 0x20401))).trap
     t.mask = 0x00000008) ∧
    (groupOf (after (.ldW (mo 0 8 6)) (mixed 0x20400))).trap.mask = 0x00000300 := by decide +kernel

/-- The example of R182 and R183: context 4 on a die whose count for it stands at 5, logical die 1. -/
theorem test_watermark :
    (let s := (at_ (fun g => { g with ctx := 4, lDie := 1, v := [(64, 0x20400)], splits := [sp 0 1] })).modDie 0 (fun d => { d with seq := [(4, 5)] })
     (groupOf (after (.atomA (ma 0 2 8 8)) s)).log.map (·.wmark)) = [0x00400015] := by decide +kernel

/-- The example of R262: a row (3, -1) and a bit-plane column (-75, 40), with 4 and with 8 planes. -/
def planeBit (codes : List Nat) (e q : Nat) : Nat := codes.getD e 0 / 2 ^ (7 - q) % 2
def planes (p : Nat) : Word :=
  let b := (List.range 8).flatMap (fun q => leBytes 32 (planeBit [0xB5, 0x28] 0 q + 2 * planeBit [0xB5, 0x28] 1 q))
  let s := ((at_ id).setSpad 0 0 [3, 255]).setSpad 0 256 b
  s.mmaInt (groupOf s) (Fb.of (image [(2, 1), (2, 1), (4, 256), (8, spad0), (8, spad0 + 256), (4, 256), (4, 0), (1, 0), (1, 8), (1, 1), (1, 0), (1, p), (27, 0)])) 0 0 0 0

theorem test_planes : planes 4 = BitVec.ofInt 32 (-256) ∧ planes 8 = BitVec.ofInt 32 (-265) := by decide +kernel

/-- The example of R263: where the three values fall in one block of 32 the sum is exact, in three it is rounded between. B's ones matter where A is not zero. -/
def blocked (places : List Nat) : Word :=
  let one := (List.range 96).flatMap (fun k => leBytes 2 (if places.contains k then 0x3F80 else 0))
  let row := (List.range 96).flatMap (fun k => leBytes 2 (((places.zip [0x4B80, 0x3F80, 0xCB80]).find? (fun e => e.1 == k)).elim 0 (·.2)))
  let s := ((at_ id).setSpad 0 0 row).setSpad 0 256 one
  s.mmaFloat (groupOf s) (Fb.of (image [(2, 1), (2, 1), (4, 96), (8, spad0), (8, spad0 + 256), (4, 192), (4, 192), (1, 7), (1, 7), (30, 0)])) 0 0 0 (fun _ => 0)

theorem test_blocks : blocked [0, 1, 2] = 0x3F800000 ∧ blocked [0, 32, 64] = 0 := by decide +kernel

/-- A kill can begin. -/
theorem witness_KilledSliceHasNoGroups : (1 : Word).getLsbD 0 = true ∧ ((start []).slice 0).st = .active ∧ ((start []).slice 0).killing = false := by
  decide +kernel

end Sys2Proof.Tests
end

section
/-! SUPPORT. Register accesses of the host (R5, R30, R34 to R36, R197, R241): what a write at each kind of offset does to the
state, what a read gives and keeps, and the statement HostRegisters. -/

namespace Sys2Proof.Machine

/-! ## What the accesses are made of -/

/-- Outside recovery BAR0 serves the access (R77). -/
theorem State.bar0_running {s : State} (hr : s.m.recovery = false) (t : State) : s.bar0 t = t := by simp [State.bar0, hr]

/-- The module after a refused write: LOCKED is set, and FIRST keeps the first offset refused (R35). -/
theorem State.locked_m (s : State) (off : Nat) : (s.locked off).m =
    { s.m with locked := true, first := if s.m.locked then s.m.first else BitVec.ofNat 24 off } := by
  cases h : s.m.locked <;> simp [State.locked, h]
  rw [← h]

theorem State.give_m (s : State) (v : Nat) : (s.give v).m = { s.m with lastRead := BitVec.ofNat 64 (v % 2 ^ 32) } := rfl

/-- The host reads a register of 32 bits as it stands. -/
theorem State.give_word_m (s : State) (w : Word) : (s.give w.toNat).m = { s.m with lastRead := w.setWidth 64 } := by
  rw [State.give_m, Nat.mod_eq_of_lt w.isLt, BitVec.ofNat_toNat]

/-- The low half of a root register is replaced by EN and bits 31 to 12 of the word; the high half stays (R197). -/
theorem rootWrite_low (old : DWord) (n : Nat) (v : Word) :
    rootWrite old false n v = old.extractLsb' 32 32 ++ (v &&& 0xFFFFF001) := by
  have hold := old.isLt
  have hlow := (v &&& 0xFFFFF001).isLt
  have append := (BitVec.toNat_append (old.extractLsb' 32 32) _).trans (Nat.shiftLeft_add_eq_or_of_lt hlow _).symm
  refine BitVec.eq_of_toNat_eq (Eq.trans ?_ append.symm)
  simp only [rootWrite, halfWrite, Bool.false_eq_true, if_false, BitVec.toNat_ofNat, BitVec.extractLsb'_toNat,
    Nat.shiftRight_eq_div_pow, Nat.shiftLeft_eq]
  omega

/-! ## Writes at an offset of PF BAR0 -/

theorem State.writeRegister_pf {off : Nat} (s : State) (v : Word) (h : off < 0x1000000) :
    s.writeRegister off v = s.writePf off v := if_pos h

/-- Offsets that are not a multiple of 4, and all but FWLOAD in recovery, are ignored (R5, R77). -/
theorem State.writePf_ignored {s : State} {off : Nat} (v : Word) (h : off % 4 ≠ 0 ∨ (s.m.recovery = true ∧ off ≠ 0)) :
    s.writePf off v = s := by
  unfold State.writePf
  rcases h with h4 | ⟨hr, h0⟩
  · rw [if_pos h4]
  · simp only [hr, h0, if_false, if_true, ite_self]

/-- The power limit is held between 100 and 2000 W (R30). -/
theorem State.writePf_watts {s : State} (v : Word) (hr : s.m.recovery = false) : s.writePf 0x20100 v =
    s.modM (fun m => { m with watts := BitVec.ofNat 12 (max 100 (min 2000 (v.extractLsb' 0 12).toNat)) }) := by
  simp [State.writePf, hr]

theorem State.writePf_bar2win {s : State} (v : Word) (hr : s.m.recovery = false) : s.writePf 0x20110 v =
    s.modM (fun m => { m with bar2win := v.extractLsb' 0 3 }) := by
  simp [State.writePf, hr]; rfl

theorem State.writePf_htrootBlock {s : State} {off : Nat} (v : Word) (hr : s.m.recovery = false) (lo : 0x20A00 ≤ off)
    (hi : off < 0x20A80) (h4 : off % 4 = 0) : s.writePf off v = s.writeHtroot ((off - 0x20A00) / 8) (off % 8 == 4) v := by
  simp (disch := omega) only [State.writePf, hr, h4, if_neg, if_pos, if_false, Bool.and_eq_true, decide_eq_true_eq, ne_eq,
    not_true_eq_false, Bool.false_eq_true]

/-- The low half of HTROOT.k stands at 0x20A00 + 8 k. -/
theorem State.writePf_htrootLow {s : State} {k : Nat} (v : Word) (hr : s.m.recovery = false) (hk : k < 16) :
    s.writePf (0x20A00 + 8 * k) v = s.writeHtroot k false v := by
  have slice : (0x20A00 + 8 * k - 0x20A00) / 8 = k := by omega
  have half : (0x20A00 + 8 * k) % 8 = 0 := by omega
  rw [State.writePf_htrootBlock v hr (by omega) (by omega) (by omega), slice, half]; rfl

theorem State.writeHtroot_unlocked {s : State} {k : Nat} (v : Word) (h : (s.slice k).tdi = .configUnlocked) :
    s.writeHtroot k false v =
      s.modSlice k (fun x => { x with htroot := x.htroot.extractLsb' 32 32 ++ (v &&& 0xFFFFF001) }) := by
  simp only [State.writeHtroot, h, rootWrite_low, beq_self_eq_true, if_true]

theorem State.writeHtroot_locked {s : State} {k : Nat} (v : Word) (h : (s.slice k).tdi ≠ .configUnlocked) :
    s.writeHtroot k false v = s.locked (0x20A00 + 8 * k) := by
  simp only [State.writeHtroot, beq_eq_false_iff_ne.mpr h, Bool.false_eq_true, if_false, b2n, Nat.mul_zero, Nat.add_zero]

/-! ## Registers of a VF -/

/-- The offset 2^24 + 2^16 (k + 1) + o names o of the BAR0 of VF k + 1 (log 31). -/
theorem State.writeRegister_vf {s : State} {k o : Nat} (v : Word) (ho : o < 0x10000) :
    s.writeRegister (0x1000000 + 0x10000 * (k + 1) + o) v = if s.vfExists k then s.bar0 (s.writeVf k o v) else s := by
  have vf : (0x1000000 + 0x10000 * (k + 1) + o - 0x1000000) / 65536 = k + 1 := by omega
  have offset : (0x1000000 + 0x10000 * (k + 1) + o) % 65536 = o := by omega
  rw [State.writeRegister, if_neg (by omega), vf, offset]
  simp

theorem State.writeVf_gtrootLow (s : State) (k : Nat) (v : Word) : s.writeVf k 0xE00 v =
    s.modSlice k (fun x => { x with gtroot := x.gtroot.extractLsb' 32 32 ++ (v &&& 0xFFFFF001) }) := by
  simp [State.writeVf, rootWrite_low]

theorem State.writeVf_mergeOk (s : State) (k : Nat) (v : Word) : s.writeVf k 0xF00 v =
    s.modSlice k (fun x => { x with mergeOk := v &&& 0x8000001F }) := by
  simp [State.writeVf]

theorem State.readVf_mergeOk (s : State) (k : Nat) : s.readVf k 0xF00 = (s.slice k).mergeOk.toNat := by simp [State.readVf]

/-! ## The PF's window into a VF's registers -/

theorem State.window_write_locked {s : State} {k : Nat} (o : Nat) (v : Word) (h : s.vfLocked k = true) :
    s.window_ k true o v = s.locked (0x800000 + 0x10000 * k + o % 65536) := by simp [State.window_, h]

theorem State.window_read_locked {s : State} {k : Nat} (o : Nat) (v : Word) (h : s.vfLocked k = true) :
    s.window_ k false o v = s.give 0xFFFFFFFF := by simp [State.window_, h]

theorem State.window_write_unlocked {s : State} {k o : Nat} (v : Word) (h : s.vfLocked k = false) (ho : o < 65536) :
    s.window_ k true o v = s.writeVf k o v := by simp [State.window_, h, Nat.mod_eq_of_lt ho]

/-- A read through the window, at an offset where no split counter lies. -/
theorem State.window_read_unlocked {s : State} {k o : Nat} (v : Word) (h : s.vfLocked k = false) (ho : o < 65536)
    (lo : s.counter64 k o = none) (hi : s.counter64 k (o - 4) = none) : s.window_ k false o v = s.give (s.readVf k o) := by
  simp [State.window_, h, Nat.mod_eq_of_lt ho, lo, hi]

/-! ## Split counters (R241) -/

/-- A read at an offset that a shut window or a counter covers is the read of a LO half. -/
theorem State.readRegister_lo {s : State} {fn off : Nat} (hr : s.m.recovery = false)
    (h : s.windowShut fn off = true ∨ (s.counterOf fn off).isSome = true) : s.readRegister fn off = s.readLo fn off := by
  rw [State.readRegister, hr, if_neg Bool.false_ne_true, if_pos (Bool.or_eq_true_iff.mpr h)]

theorem State.readLo_shut {s : State} {fn off : Nat} (h : s.windowShut fn off = true) : s.readLo fn off = s.give 0xFFFFFFFF :=
  if_pos h

theorem State.readHi_shut {s : State} {fn off : Nat} (h : s.windowShut fn off = true) : s.readHi fn off = s.give 0xFFFFFFFF :=
  if_pos h

theorem State.readLo_counter {s : State} {fn off v : Nat} (isOpen : s.windowShut fn off = false)
    (hv : s.counterOf fn off = some v) : s.readLo fn off =
      (s.give v).modSlice (fnSlice fn) (fun x => { x with shVal := BitVec.ofNat 32 (v / 2 ^ 32), shTag := shadowTag off }) := by
  simp [State.readLo, isOpen, hv]

theorem State.readHi_shadow {s : State} {fn lo v : Nat} (isOpen : s.windowShut fn (lo + 4) = false)
    (hv : s.counterOf fn lo = some v) (tag : (s.slice (fnSlice fn)).shTag = shadowTag lo) :
    s.readHi fn (lo + 4) = s.give (s.slice (fnSlice fn)).shVal.toNat := by
  simp [State.readHi, isOpen, hv, tag]

theorem State.readHi_live {s : State} {fn lo v : Nat} (isOpen : s.windowShut fn (lo + 4) = false)
    (hv : s.counterOf fn lo = some v) (tag : (s.slice (fnSlice fn)).shTag ≠ shadowTag lo) :
    s.readHi fn (lo + 4) = s.give (v / 2 ^ 32) := by
  simp [State.readHi, isOpen, hv, tag]

theorem State.counterOf_vf (s : State) (k off : Nat) : s.counterOf (k + 1) off = s.counter64 k off := by
  simp [State.counterOf]

end Sys2Proof.Machine

namespace Sys2Proof.Safety

open Machine

/-! ## Frames of a change of one part -/

theorem onlyModule_modM (s : State) (f : Module → Module) : OnlyModule s (s.modM f) := rfl

theorem onlyModule_locked (s : State) (off : Nat) : OnlyModule s (s.locked off) := rfl

theorem onlyModule_give (s : State) (v : Nat) : OnlyModule s (s.give v) := rfl

theorem onlySlice_modSlice (s : State) (k : Nat) (f : Slice → Slice) : OnlySlice k s (s.modSlice k f) :=
  ⟨rfl, fun e he => by rw [State.modSlice_slice, if_neg (Ne.symm he)]⟩

/-- A change of the module and of one slice leaves all work as it is. -/
theorem sameWork_modM_modSlice (s : State) (g : Module → Module) (k : Nat) (f : Slice → Slice) :
    SameWork s ((s.modM g).modSlice k f) := ⟨rfl, rfl, rfl, rfl, rfl⟩

theorem sameWork_give (s : State) (v : Nat) : SameWork s (s.give v) := ⟨rfl, rfl, rfl, rfl, rfl⟩

/-! ## What each access gives -/

theorem gives_pfRegisterWrite {off : Nat} {v : Word} {s t : State} {post : State → Prop} (h : s.writeRegister off v = t)
    (hp : post t) : Gives (.pfRegisterWrite off v) s post := ⟨t, congrArg Host.Outcome.next h, hp⟩

theorem gives_vfWindowAccess {k off : Nat} {write : Bool} {v : Word} {s t : State} {post : State → Prop}
    (hr : s.m.recovery = false) (h : s.window_ k write off v = t) (hp : post t) : Gives (.vfWindowAccess k write off v) s post :=
  ⟨t, congrArg Host.Outcome.next ((State.bar0_running hr _).trans h), hp⟩

theorem gives_counterLoRead {fn off : Nat} {s t : State} {post : State → Prop} (h : s.readRegister fn off = t) (hp : post t) :
    Gives (.counterLoRead fn off) s post := ⟨t, congrArg Host.Outcome.next h, hp⟩

theorem gives_counterHiRead {fn off : Nat} {s t : State} {post : State → Prop} (hr : s.m.recovery = false)
    (h : s.readHi fn off = t) (hp : post t) : Gives (.counterHiRead fn off) s post :=
  ⟨t, congrArg Host.Outcome.next ((State.bar0_running hr _).trans h), hp⟩

/-- Outside recovery a write to PFERR clears the bits written with 1 (R35). -/
theorem gives_pferrWrite {v : Word} {s : State} {post : State → Prop} (hr : s.m.recovery = false)
    (hp : post (s.writePferr v)) : Gives (.pferrWrite v) s post :=
  ⟨_, congrArg Host.Outcome.next (State.bar0_running hr _), hp⟩

/-- A refused write changes the module alone: it sets LOCKED and, when LOCKED was clear, FIRST (R35). -/
theorem locked_records (s : State) (off : Nat) : OnlyModule s (s.locked off) ∧ (s.locked off).m.locked = true ∧
    (s.locked off).m.first = (if s.m.locked then s.m.first else BitVec.ofNat 24 off) := by
  rw [State.locked_m]
  exact ⟨onlyModule_locked s off, rfl, rfl⟩

/-- Settles O32: each access is one equation above for the state it reaches, whose frame is that of the part it changes. -/
theorem hostRegisters : Obligations.HostRegisters := by
  refine ⟨⟨fun off v s hoff h => ?ignored, fun v s hr => ?watts, fun v s hr => ?bar2win, fun k v s hk hr tdi => ?htroot,
    fun k v s hk hr tdi => ?htrootLocked, fun k v s _ hr vf => ?gtroot, fun k off v s _ hoff vf => ?absent, fun v s hr => ?pferr,
    fun k v s _ hr vf => ?mergeOkWrite, fun k v s _ hr vf => ?mergeOkRead, fun k off v s _ hr vf => ?lockedWrite,
    fun k off v s _ hr vf => ?lockedRead⟩, fun fn off v s hr sh hv => ?lo, fun fn lo v s hr sh hv tag => ?shadow,
    fun fn lo v s hr sh hv tag => ?live, fun fn off s hr sh => ⟨?shutLo, ?shutHi⟩, fun s => rfl, fun k s _ => ?counters⟩
  case ignored =>
    exact congrArg Host.Outcome.next ((s.writeRegister_pf v hoff).trans (State.writePf_ignored v h))
  case watts =>
    have reached := (s.writeRegister_pf v (by decide)).trans (State.writePf_watts v hr)
    exact gives_pfRegisterWrite reached ⟨onlyModule_modM _ _, rfl⟩
  case bar2win =>
    have reached := (s.writeRegister_pf v (by decide)).trans (State.writePf_bar2win v hr)
    exact gives_pfRegisterWrite reached ⟨onlyModule_modM _ _, rfl⟩
  case htroot =>
    have reached := (State.writePf_htrootLow v hr hk).trans (State.writeHtroot_unlocked v tdi)
    refine gives_pfRegisterWrite ((s.writeRegister_pf v (by omega)).trans reached) ⟨?_, onlySlice_modSlice _ _ _⟩
    rw [State.modSlice_slice_self]
  case htrootLocked =>
    have reached := (State.writePf_htrootLow v hr hk).trans (State.writeHtroot_locked v tdi)
    exact gives_pfRegisterWrite ((s.writeRegister_pf v (by omega)).trans reached) (locked_records s _)
  case gtroot =>
    have reached := ((State.writeRegister_vf (o := 0xE00) v (by decide)).trans (if_pos vf)).trans (State.bar0_running hr _)
    refine gives_pfRegisterWrite (reached.trans (s.writeVf_gtrootLow k v)) ⟨?_, onlySlice_modSlice _ _ _⟩
    rw [State.modSlice_slice_self]
  case absent =>
    refine congrArg Host.Outcome.next ?_
    rw [State.writeRegister_vf v hoff, vf, if_neg Bool.false_ne_true]
  case pferr =>
    exact gives_pferrWrite hr ⟨onlyModule_modM _ _, rfl⟩
  case mergeOkWrite =>
    have reached := (State.window_write_unlocked (o := 0xF00) v vf (by decide)).trans (s.writeVf_mergeOk k v)
    refine gives_vfWindowAccess hr reached ⟨?_, onlySlice_modSlice _ _ _⟩
    rw [State.modSlice_slice_self]
  case mergeOkRead =>
    have reached := State.window_read_unlocked (o := 0xF00) v vf (by decide) rfl rfl
    refine gives_vfWindowAccess hr reached ⟨onlyModule_give _ _, ?_⟩
    rw [State.readVf_mergeOk, State.give_word_m]
  case lockedWrite =>
    exact gives_vfWindowAccess hr (State.window_write_locked off v vf) (locked_records s _)
  case lockedRead =>
    exact gives_vfWindowAccess hr (State.window_read_locked off v vf) ⟨onlyModule_give _ _, rfl⟩
  case lo =>
    have reached := (State.readRegister_lo hr (.inr (Option.isSome_of_eq_some hv))).trans (State.readLo_counter sh hv)
    refine gives_counterLoRead reached ⟨rfl, ?_, fun k hk => ?_, sameWork_modM_modSlice _ _ _ _, rfl, rfl⟩
    · rw [State.modSlice_slice_self]; rfl
    · rw [State.modSlice_slice, if_neg (Ne.symm hk)]; rfl
  case shadow =>
    exact gives_counterHiRead hr (State.readHi_shadow sh hv tag) ⟨onlyModule_give _ _, State.give_word_m _ _⟩
  case live =>
    exact gives_counterHiRead hr (State.readHi_live sh hv tag) ⟨rfl, rfl, sameWork_give _ _⟩
  case shutLo =>
    exact gives_counterLoRead ((State.readRegister_lo hr (.inl sh)).trans (State.readLo_shut sh)) ⟨onlyModule_give _ _, rfl⟩
  case shutHi =>
    exact gives_counterHiRead hr (State.readHi_shut sh) ⟨onlyModule_give _ _, rfl⟩
  case counters =>
    simp only [State.counterOf_vf]
    exact ⟨rfl, rfl, rfl⟩

end Sys2Proof.Safety
end

section
/-! SUPPORT. Boost and its permits (R23 to R26): what a change of one die leaves as it was, what the watch of the claims, a settlement
and the fall do to the die, and the statement BoostPermits. -/

namespace Sys2Proof.Machine

theorem State.modDie_die_ne (s : State) {d e : Nat} (f : Die → Die) (h : e ≠ d) : (s.modDie d f).die e = s.die e := by
  rw [State.modDie_die, if_neg (Ne.symm h)]

end Sys2Proof.Machine

namespace Sys2Proof.Safety

open Machine

/-! ## Frames of a change of one die -/

theorem onlyDie_modDie (s : State) (d : Nat) (f : Die → Die) : OnlyDie d s (s.modDie d f) :=
  ⟨rfl, fun _ he => s.modDie_die_ne f he⟩

theorem OnlyDie.trans {d : Nat} {s t u : State} (a : OnlyDie d s t) (b : OnlyDie d t u) : OnlyDie d s u :=
  ⟨by rw [b.whole, a.whole], fun e he => (b.others e he).trans (a.others e he)⟩

theorem OnlyDie.module {d : Nat} {s t : State} (h : OnlyDie d s t) : t.m = s.m := by rw [h.whole]

/-- Only one die and registers of slices differ: what a settlement, which charges permits to slices, may change (R26). -/
structure OnlyDieAndSlices (d : Nat) (s t : State) : Prop where
  whole : t = { s with dies := t.dies, slices := t.slices }
  others : ∀ e, e ≠ d → t.die e = s.die e

theorem OnlyDie.andSlices {d : Nat} {s t : State} (h : OnlyDie d s t) : OnlyDieAndSlices d s t :=
  ⟨by rw [h.whole], h.others⟩

theorem OnlyDieAndSlices.trans {d : Nat} {s t u : State} (a : OnlyDieAndSlices d s t) (b : OnlyDieAndSlices d t u) :
    OnlyDieAndSlices d s u :=
  ⟨by rw [b.whole, a.whole], fun e he => (b.others e he).trans (a.others e he)⟩

theorem OnlyDieAndSlices.modDie {d : Nat} {s t : State} (h : OnlyDieAndSlices d s t) (f : Die → Die) :
    OnlyDieAndSlices d s (t.modDie d f) := h.trans (onlyDie_modDie t d f).andSlices

theorem OnlyDieAndSlices.work {d : Nat} {s t : State} (h : OnlyDieAndSlices d s t) : SameWork s t := by
  rw [h.whole]; exact ⟨rfl, rfl, rfl, rfl, rfl⟩

/-- An event that ends with a change of one die gives what its registers and the frame imply. -/
theorem gives_of_modDie {i : Instr} {s u : State} {d : Nat} {f : Die → Die} {post : State → Prop}
    (h : exec i s = .next (u.modDie d f)) (hp : ∀ t, t.die d = f (u.die d) → OnlyDie d u t → post t) : Gives i s post :=
  ⟨_, h, hp _ (State.modDie_die_self u d f) (onlyDie_modDie u d f)⟩

/-! ## Claims and their settlement (R26) -/

/-- Changes of slices one after another leave all but the slices as it was. -/
theorem foldl_modSlice_whole (f : Nat → Slice → Slice) (l : List Nat) (s : State) :
    ∃ x, l.foldl (fun s t => s.modSlice t (f t)) s = { s with slices := x } := by
  induction l generalizing s with
  | nil => exact ⟨s.slices, rfl⟩
  | cons t l ih => exact ih (s.modSlice t (f t))

/-- A settlement charges slices and starts the count of the die anew. -/
theorem settle_eq (s : State) (d : Nat) :
    ∃ x, s.settle d = ({ s with slices := x } : State).modDie d (fun x => { x with debited := 0 }) := by
  unfold State.settle
  dsimp only
  split
  · exact ⟨s.slices, rfl⟩
  · obtain ⟨x, hx⟩ := foldl_modSlice_whole _ (s.die d).claimers s
    exact ⟨x, congrArg (State.modDie · d _) hx⟩

theorem settle_die (s : State) (d : Nat) : (s.settle d).die d = { s.die d with debited := 0 } := by
  obtain ⟨x, hx⟩ := settle_eq s d
  rw [hx, State.modDie_die_self]; rfl

theorem settle_frame (s : State) (d : Nat) : OnlyDieAndSlices d s (s.settle d) := by
  obtain ⟨x, hx⟩ := settle_eq s d
  rw [hx]
  exact ⟨rfl, fun e he => State.modDie_die_ne _ _ he⟩

/-- The slices that claim a die are those that claimed it when its permits were last counted. -/
def ClaimsKept (s : State) (d : Nat) : Prop := ∀ k, k ∈ s.claimSlices d ↔ k ∈ (s.die d).claimers

theorem watchClaims_eq (s : State) (d : Nat) [Decidable (ClaimsKept s d)] : s.watchClaims d =
    (if ClaimsKept s d then s else s.settle d).modDie d (fun x => { x with claimers := s.claimSlices d }) := by
  have test : ((s.claimSlices d).all (s.die d).claimers.contains && (s.die d).claimers.all (s.claimSlices d).contains) = true ↔
      ClaimsKept s d := by
    simp only [Bool.and_eq_true, List.all_eq_true, List.contains_iff_mem, ClaimsKept]
    exact ⟨fun h k => ⟨h.1 k, h.2 k⟩, fun h => ⟨fun k => (h k).1, fun k => (h k).2⟩⟩
  simp only [State.watchClaims, test]

theorem watchClaims_kept {s : State} {d : Nat} (h : ClaimsKept s d) :
    s.watchClaims d = s.modDie d (fun x => { x with claimers := s.claimSlices d }) := by
  classical rw [watchClaims_eq, if_pos h]

theorem watchClaims_changed {s : State} {d : Nat} (h : ¬ ClaimsKept s d) :
    s.watchClaims d = (s.settle d).modDie d (fun x => { x with claimers := s.claimSlices d }) := by
  classical rw [watchClaims_eq, if_neg h]

theorem watchClaims_onlyDie {s : State} {d : Nat} (h : ClaimsKept s d) : OnlyDie d s (s.watchClaims d) := by
  rw [watchClaims_kept h]
  exact onlyDie_modDie s d _

/-- The die after the watch: a change of its claiming slices has started a new period (R26). -/
theorem watchClaims_die (s : State) (d : Nat) [Decidable (ClaimsKept s d)] : (s.watchClaims d).die d =
    { s.die d with claimers := s.claimSlices d, debited := if ClaimsKept s d then (s.die d).debited else 0 } := by
  by_cases h : ClaimsKept s d
  · rw [watchClaims_kept h, State.modDie_die_self, if_pos h]
  · rw [watchClaims_changed h, State.modDie_die_self, settle_die, if_neg h]

theorem watchClaims_frame (s : State) (d : Nat) : OnlyDieAndSlices d s (s.watchClaims d) := by
  by_cases h : ClaimsKept s d
  · exact (watchClaims_onlyDie h).andSlices
  · rw [watchClaims_changed h]
    exact (settle_frame s d).modDie _

/-! ## The fall (R24) -/

theorem beginFall_frame (s : State) (d : Nat) (b : Bool) : OnlyDieAndSlices d s (s.beginFall d b) :=
  ((watchClaims_frame s d).trans (settle_frame _ d)).modDie _

theorem beginFall_die (s : State) (d : Nat) (b : Bool) : (s.beginFall d b).die d =
    { s.die d with
      claimers := s.claimSlices d, debited := 0, fall := true, fallEnd := s.cycle, boostEnd := 0, exhausted := b,
      curvf := BitVec.ofNat 4 (((s.die d).bvf.toNat + 12) / 2) } := by
  classical rw [State.beginFall, State.modDie_die_self, settle_die, watchClaims_die]

/-! ## What each event gives -/

theorem mayRise_of {s : State} {d : Nat} (boosting : (s.die d).boosting = false) (fall : (s.die d).fall = false)
    (busy : (s.die d).busy = false) (boosten : (s.die d).boosten = true) (curhs : (s.die d).curhs = 3)
    (cool : (s.die d).tdie.toNat < 95) (claims : s.claimSlices d ≠ []) (permit : 1 ≤ (s.die d).permits.toNat)
    (refilled : (s.die d).exhausted = true → min 8 (s.die d).pbudget.toNat ≤ (s.die d).permits.toNat) : s.mayRise d = true := by
  have least : (if (s.die d).exhausted then min 8 (s.die d).pbudget.toNat else 1) ≤ (s.die d).permits.toNat := by
    split
    · exact refilled ‹_›
    · exact permit
  simp only [State.mayRise, boosting, fall, busy, boosten, curhs, cool, permit, least, List.isEmpty_eq_false_iff.mpr claims,
    beq_self_eq_true, decide_true, Bool.not_false, Bool.and_self]

theorem exec_boostRise {s : State} {d : Nat} (h : s.mayRise d = true) : exec (.boostRise d) s =
    .next ((s.watchClaims d).modDie d (fun x =>
      { x with boosting := true, curvf := x.bvf, permits := x.permits - 1, debited := x.debited + 1,
               boostEnd := s.cycle + 4000, refillAt := 0, exhausted := false })) :=
  congrArg Host.Outcome.next (if_pos h)

/-- A boundary of 4 us that a boosting die reaches is served. -/
theorem exec_permitDebit_due {s : State} {d : Nat} (boosting : (s.die d).boosting = true) (fall : (s.die d).fall = false)
    (timed : (s.die d).boostEnd ≠ 0) (due : (s.die d).boostEnd ≤ s.cycle) : exec (.permitDebit d) s =
    .next (if (s.die d).permits = 0 ∨ s.claimSlices d = [] ∨ (s.die d).boosten = false ∨ 95 ≤ (s.die d).tdie.toNat then
        s.beginFall d ((s.die d).permits == 0)
      else (s.watchClaims d).modDie d (fun x =>
        { x with permits := x.permits - 1, debited := x.debited + 1, boostEnd := x.boostEnd + 4000 })) := by
  have served : ¬ (!(s.die d).boosting || (s.die d).fall || (s.die d).boostEnd = 0 || s.cycle < (s.die d).boostEnd) = true := by
    simp only [boosting, fall, timed, Nat.not_lt.mpr due, decide_false, Bool.not_true, Bool.or_self, Bool.false_eq_true,
      not_false_eq_true]
  refine congrArg Host.Outcome.next ((if_neg served).trans ?_)
  simp only [Bool.or_eq_true, decide_eq_true_eq, List.isEmpty_iff, Bool.not_eq_true', or_assoc]

theorem exec_fallToNominal {s : State} {d : Nat} (fall : (s.die d).fall = true) (boosting : (s.die d).boosting = true)
    (due : (s.die d).fallEnd + 10000 ≤ s.cycle) : exec (.fallToNominal d) s = .next (s.modDie d (fun x =>
      { x with boosting := false, curvf := 11, refillAt := if x.boosten then s.cycle + 50000 else 0 })) :=
  congrArg Host.Outcome.next (if_pos (by simp only [fall, boosting, due, decide_true, Bool.and_self]))

theorem exec_fallComplete {s : State} {d : Nat} (fall : (s.die d).fall = true) (boosting : (s.die d).boosting = false)
    (due : (s.die d).fallEnd + 20000 ≤ s.cycle) : exec (.fallComplete d) s = .next (s.modDie d (fun x =>
      { x with fall := false, fallEnd := 0, curvf := if x.vfEnd = 0 then x.vf else x.curvf })) :=
  congrArg Host.Outcome.next (if_pos (by simp only [fall, boosting, due, decide_true, Bool.not_false, Bool.and_self]))

theorem exec_permitRefill {s : State} {d : Nat} (boosten : (s.die d).boosten = true) (boosting : (s.die d).boosting = false)
    (timed : (s.die d).refillAt ≠ 0) (due : (s.die d).refillAt ≤ s.cycle) : exec (.permitRefill d) s = .next (s.modDie d (fun x =>
      { x with permits := if x.permits.toNat < x.pbudget.toNat then x.permits + 1 else x.permits,
               refillAt := x.refillAt + 50000 })) :=
  congrArg Host.Outcome.next (if_pos (by
    simp only [boosten, boosting, bne_iff_ne.mpr timed, due, decide_true, Bool.not_false, Bool.and_self]))

/-- Below a budget of 8 bits a permit more does not wrap. -/
theorem permits_succ {p b : BitVec 8} (h : p.toNat < b.toNat) : (p + 1).toNat = p.toNat + 1 := by
  have hb := b.isLt
  rw [BitVec.toNat_add, show (1 : BitVec 8).toNat = 1 from rfl, Nat.mod_eq_of_lt (by omega)]

/-- Settles O30: each event is one equation above for the state it reaches; the watch of the claims touches the die's count and
claimers and the permits charged to slices. -/
theorem boostPermits : Obligations.BoostPermits := by
  classical
  refine ⟨fun d s boosting fall busy boosten curhs cool claims permit refilled => ?rise,
    fun d s boosting fall timed due permits claims boosten cool => ?debit, fun d s boosting fall timed due want => ?falls,
    fun d s fall boosting due => ?nominal, fun d s fall boosting due => ?complete, fun d s boosten boosting timed due => ?refill⟩
  case rise =>
    have allowed := mayRise_of boosting fall busy boosten curhs cool claims permit refilled
    refine gives_of_modDie (exec_boostRise allowed) fun t ht only => ?_
    have frame := (watchClaims_frame s d).trans only.andSlices
    rw [ht, watchClaims_die]
    exact ⟨rfl, rfl, rfl, rfl, rfl, rfl, frame.others, frame.work⟩
  case debit =>
    have paid : ¬ ((s.die d).permits = 0 ∨ s.claimSlices d = [] ∨ (s.die d).boosten = false ∨ 95 ≤ (s.die d).tdie.toNat) := by
      simp only [permits, claims, boosten, Nat.not_le.mpr cool, Bool.true_eq_false, or_self, not_false_eq_true]
    refine gives_of_modDie ((exec_permitDebit_due boosting fall timed due).trans (congrArg _ (if_neg paid))) fun t ht only => ?_
    have frame := (watchClaims_frame s d).trans only.andSlices
    rw [ht, watchClaims_die]
    exact ⟨rfl, fun kept => ⟨congrArg (· + 1) (if_pos kept), (watchClaims_onlyDie kept).trans only⟩,
      fun changed => congrArg (· + 1) (if_neg changed), frame.others, frame.work⟩
  case falls =>
    refine ⟨_, (exec_permitDebit_due boosting fall timed due).trans (congrArg _ (if_pos want)), ?_⟩
    have frame := beginFall_frame s d ((s.die d).permits == 0)
    simp only [beginFall_die]
    exact ⟨trivial, boosting, trivial, trivial, rfl, trivial, trivial, frame.others, frame.work⟩
  case nominal =>
    exact gives_of_modDie (exec_fallToNominal fall boosting due) fun t ht only => ⟨ht, only⟩
  case complete =>
    refine gives_of_modDie (exec_fallComplete fall boosting due) fun t ht only => ?_
    rw [ht]
    exact ⟨rfl, rfl, rfl, only⟩
  case refill =>
    refine gives_of_modDie (exec_permitRefill boosten boosting timed due) fun t ht only => ?_
    rw [ht]
    refine ⟨?_, rfl, only⟩
    by_cases below : (s.die d).permits.toNat < (s.die d).pbudget.toNat
    · simp only [if_pos below, permits_succ below]
    · simp only [if_neg below]

end Sys2Proof.Safety
end

section
/-! SUPPORT. Host states and L2 ways (R16, R17, R19 to R22): what a write of PWRCTL and of L2WAYDIS does to the die, what the ends of
its transitions do, and the statement HostStatesAndWays. -/

namespace Sys2Proof.Machine

/-! ## Fields of a register word -/

/-- A field of a word, read from its number. -/
theorem ofNat_bits (v : Word) {hi lo n : Nat} (h : hi + 1 - lo = n) : BitVec.ofNat n (bits v.toNat hi lo) = v.extractLsb' lo n := by
  subst h
  refine BitVec.eq_of_toNat_eq ?_
  rw [BitVec.toNat_ofNat, BitVec.extractLsb'_toNat, Nat.shiftRight_eq_div_pow, bits, Nat.mod_mod]

theorem bits_toNat (v : Word) {hi lo n : Nat} (h : hi + 1 - lo = n) : bits v.toNat hi lo = (v.extractLsb' lo n).toNat := by
  subst h
  rw [BitVec.extractLsb'_toNat, Nat.shiftRight_eq_div_pow, bits]

theorem nbit_toNat (v : Word) (n : Nat) : nbit v.toNat n = v.getLsbD n := by
  rw [BitVec.getLsbD, Nat.testBit_eq_decide_div_mod_eq, nbit]; rfl

/-! ## A write of PWRCTL that is refused (R20) -/

theorem State.writePower_refused {s : State} {d v c : Nat} (h : s.pwrReject d v = some c) :
    s.writePower d v = s.modDie d (fun x => { x with cmdst := BitVec.ofNat 3 c }) := by
  simp only [State.writePower, h]

theorem State.pwrReject_busy {s : State} {d : Nat} (v : Nat) (h : (s.die d).busy = true) : s.pwrReject d v = some 4 := if_pos h

/-- BVF below 12, VF above 11 or a reserved bit makes the value invalid. -/
theorem pwrInvalid_of_field {v : Nat} (cur : Nat) (h : bits v 23 20 < 12 ∨ 11 < bits v 19 16 ∨ bits v 15 3 ≠ 0) :
    pwrInvalid cur v = true := by
  rcases h with bvf | vf | reserved
  · simp [pwrInvalid, bvf]
  · simp [pwrInvalid, vf]
  · simp [pwrInvalid, reserved]

theorem State.pwrReject_invalid {s : State} {d : Nat} {v : Word} (busy : (s.die d).busy = false)
    (h : pwrInvalid (s.die d).hs.toNat v.toNat = true) : s.pwrReject d v.toNat = some 3 := by
  simp only [State.pwrReject, busy, h, if_true, Bool.false_eq_true, if_false]

/-! ## A write of PWRCTL that is taken (R19, R20, R22) -/

/-- The state with the fields of PWRCTL that a word gives. -/
def State.setPwrctl (s : State) (d : Nat) (v : Word) : State :=
  s.modDie d (fun x => { x with pbudget := v.extractLsb' 24 8, bvf := v.extractLsb' 20 4, vf := v.extractLsb' 16 4,
                                boosten := v.getLsbD 2, hs := v.extractLsb' 0 2 })

/-- The registers of the die once the permits of a new BOOSTEN and PBUDGET are set (R22). -/
def State.granted (s : State) (d : Nat) (v : Word) : State := (s.setPwrctl d v).grantBoost d (s.die d)

/-- A taken write asks for another host state. -/
def State.hsMoves (s : State) (d : Nat) (v : Word) : Bool := (s.die d).curhs != v.extractLsb' 0 2

/-- A taken write asks for another point; that of a die that boosts or falls is compared with point 11 (log 33). -/
def State.vfMoves (s : State) (d : Nat) (v : Word) : Bool :=
  let y := (s.granted d v).die d
  decide (2 ≤ (s.die d).curhs.toNat) && decide (2 ≤ (v.extractLsb' 0 2).toNat) &&
    (if y.boosting || y.fall then v.extractLsb' 16 4 != 11 else y.curvf != v.extractLsb' 16 4)

theorem State.writePower_taken {s : State} {d : Nat} {v : Word} (h : s.pwrReject d v.toNat = none) :
    ∃ vfEnd hsEnd, s.writePower d v.toNat = (s.granted d v).modDie d (fun x =>
      { x with vfEnd := vfEnd, hsEnd := hsEnd, busy := s.vfMoves d v || s.hsMoves d v,
               cmdst := if s.vfMoves d v || s.hsMoves d v then 1 else 0 }) := by
  have hs : v.toNat % 4 = (v.extractLsb' 0 2).toNat := by simp [BitVec.extractLsb'_toNat]
  have moves : ((s.die d).curhs.toNat != (v.extractLsb' 0 2).toNat) = s.hsMoves d v := by
    rw [State.hsMoves, Bool.eq_iff_iff, bne_iff_ne, bne_iff_ne, ne_eq, BitVec.toNat_inj]
  simp only [State.writePower, h, ofNat_bits v (hi := 31) (lo := 24) (n := 8) rfl, ofNat_bits v (hi := 23) (lo := 20) (n := 4) rfl,
    ofNat_bits v (hi := 19) (lo := 16) (n := 4) rfl, nbit_toNat, hs, moves, BitVec.ofNat_toNat, BitVec.setWidth_eq]
  exact ⟨_, _, rfl⟩

/-- What grantBoost leaves of the registers of a die. -/
structure SamePwrctl (x y : Die) : Prop where
  pbudget : y.pbudget = x.pbudget
  bvf : y.bvf = x.bvf
  vf : y.vf = x.vf
  boosten : y.boosten = x.boosten
  hs : y.hs = x.hs
  curhs : y.curhs = x.curhs

end Sys2Proof.Machine

namespace Sys2Proof.Safety

open Machine

theorem beginFall_pwrctl (s : State) (d : Nat) (b : Bool) : SamePwrctl (s.die d) ((s.beginFall d b).die d) := by
  rw [beginFall_die]; exact ⟨rfl, rfl, rfl, rfl, rfl, rfl⟩

/-- What a write does to the permits, by the change of BOOSTEN (R22): in each case one change of the die, of a state that at most
a fall has begun in. -/
theorem grantBoost_cases (s : State) (d : Nat) (old : Die) :
    ((s.die d).boosten = true ∧ old.boosten = false ∧ s.grantBoost d old = s.modDie d (fun x =>
      { x with permits := x.pbudget, refillAt := if x.boosting then 0 else s.cycle + 50000, exhausted := false })) ∨
    ((s.die d).boosten = false ∧ old.boosten = true ∧ ∃ u, (u = s.beginFall d false ∨ u = s) ∧
      s.grantBoost d old = u.modDie d (fun x => { x with permits := 0, refillAt := 0 })) ∨
    ((s.die d).boosten = old.boosten ∧ s.grantBoost d old = s.modDie d (fun x =>
      { x with permits := if x.pbudget.toNat < x.permits.toNat then x.pbudget else x.permits })) := by
  cases new : (s.die d).boosten <;> cases before : old.boosten
  · exact .inr (.inr ⟨rfl, by simp [State.grantBoost, new, before]⟩)
  · refine .inr (.inl ⟨rfl, rfl, if (s.die d).boosting && !(s.die d).fall then s.beginFall d false else s, ?_, ?_⟩)
    · split
      · exact .inl rfl
      · exact .inr rfl
    · simp [State.grantBoost, new, before]
  · exact .inl ⟨rfl, rfl, by simp [State.grantBoost, new, before]⟩
  · exact .inr (.inr ⟨rfl, by simp [State.grantBoost, new, before]⟩)

theorem grantBoost_frame (s : State) (d : Nat) (old : Die) : OnlyDieAndSlices d s (s.grantBoost d old) := by
  rcases grantBoost_cases s d old with ⟨-, -, h⟩ | ⟨-, -, u, rfl | rfl, h⟩ | ⟨-, h⟩ <;> rw [h]
  · exact (onlyDie_modDie s d _).andSlices
  · exact (beginFall_frame s d false).modDie _
  · exact (onlyDie_modDie _ d _).andSlices
  · exact (onlyDie_modDie s d _).andSlices

theorem grantBoost_pwrctl (s : State) (d : Nat) (old : Die) : SamePwrctl (s.die d) ((s.grantBoost d old).die d) := by
  rcases grantBoost_cases s d old with ⟨-, -, h⟩ | ⟨-, -, u, rfl | rfl, h⟩ | ⟨-, h⟩ <;> rw [h, State.modDie_die_self]
  · exact ⟨rfl, rfl, rfl, rfl, rfl, rfl⟩
  · obtain ⟨pbudget, bvf, vf, boosten, hs, curhs⟩ := beginFall_pwrctl s d false
    exact ⟨pbudget, bvf, vf, boosten, hs, curhs⟩
  · exact ⟨rfl, rfl, rfl, rfl, rfl, rfl⟩
  · exact ⟨rfl, rfl, rfl, rfl, rfl, rfl⟩

theorem granted_frame (s : State) (d : Nat) (v : Word) : OnlyDieAndSlices d s (s.granted d v) :=
  (onlyDie_modDie s d _).andSlices.trans (grantBoost_frame _ d _)

theorem setPwrctl_die (s : State) (d : Nat) (v : Word) : (s.setPwrctl d v).die d =
    { s.die d with pbudget := v.extractLsb' 24 8, bvf := v.extractLsb' 20 4, vf := v.extractLsb' 16 4,
                   boosten := v.getLsbD 2, hs := v.extractLsb' 0 2 } := State.modDie_die_self ..

/-- BOOSTEN set anew gives the whole budget. -/
theorem granted_permits_set {s : State} {d : Nat} {v : Word} (new : v.getLsbD 2 = true) (old : (s.die d).boosten = false) :
    ((s.granted d v).die d).permits = v.extractLsb' 24 8 := by
  rcases grantBoost_cases (s.setPwrctl d v) d (s.die d) with ⟨-, -, h⟩ | ⟨off, -⟩ | ⟨same, -⟩
  · rw [State.granted, h, State.modDie_die_self, setPwrctl_die]
  · simp only [setPwrctl_die, new, Bool.true_eq_false] at off
  · simp only [setPwrctl_die, new, old, Bool.true_eq_false] at same

/-- BOOSTEN cleared takes every permit. -/
theorem granted_permits_clear {s : State} {d : Nat} {v : Word} (new : v.getLsbD 2 = false) (old : (s.die d).boosten = true) :
    ((s.granted d v).die d).permits = 0 := by
  rcases grantBoost_cases (s.setPwrctl d v) d (s.die d) with ⟨on, -⟩ | ⟨-, -, u, -, h⟩ | ⟨same, -⟩
  · simp only [setPwrctl_die, new, Bool.false_eq_true] at on
  · rw [State.granted, h, State.modDie_die_self]
  · simp only [setPwrctl_die, new, old, Bool.false_eq_true] at same

/-! ## The ends of transitions (R20, R21) -/

/-- The last transition of a die is over. -/
theorem settled_last {x : Die} (vf : x.vfEnd = 0) (hs : x.hsEnd = 0) :
    x.settled = { x with busy := false, cmdst := if x.cmdst = 1 then 0 else x.cmdst } := by
  simp only [Die.settled, vf, hs, decide_true, Bool.and_self, if_true]

theorem settled_waiting {x : Die} (hs : x.hsEnd ≠ 0) : x.settled = x := by
  simp only [Die.settled, hs, decide_false, Bool.and_false, Bool.false_eq_true, if_false]

/-- What a die no longer holds once it stands in the host state that was asked for: the repairs of its stacks are hard, its buckets
empty in HS2, and HS0 keeps nothing (R17, R111, R128). -/
def entered (s : State) (d : Nat) : State :=
  let u := if (s.die d).curhs = 0 && 2 ≤ (s.die d).hs.toNat then s.hardenRepairs d else s
  if (s.die d).hs.toNat = 0 then u.powerOff d else if (s.die d).hs.toNat = 2 then u.emptyDie d else u

theorem exec_hostStateTransitionDone {s : State} {d : Nat} (hs : (s.die d).hsEnd ≠ 0) (vf : (s.die d).vfEnd = 0) :
    exec (.hostStateTransitionDone d) s = .next ((entered s d).modDie d (fun x =>
      { x with hsEnd := 0, curhs := x.hs, curvf := if x.curhs.toNat < 2 && 2 ≤ x.hs.toNat then x.vf else x.curvf }.settled)) := by
  show execHostStateTransitionDone d s = _
  simp only [execHostStateTransitionDone, entered, hs, bne_iff_ne.mpr hs, vf, bne_self_eq_false, decide_true, decide_false,
    Bool.and_true, Bool.or_self, Bool.false_eq_true, if_false]

/-- What is gone of a die is gone of its walker, couch, cores, stacks and stores alone. -/
theorem entered_cases (s : State) (d : Nat) : ∃ u, (u = s.hardenRepairs d ∨ u = s) ∧
    (((s.die d).hs = 0 ∧ entered s d = u.powerOff d) ∨
     ((s.die d).hs ≠ 0 ∧ (entered s d = u.emptyDie d ∨ entered s d = u))) := by
  refine ⟨if (s.die d).curhs = 0 && 2 ≤ (s.die d).hs.toNat then s.hardenRepairs d else s, ?_, ?_⟩
  · split
    · exact .inl rfl
    · exact .inr rfl
  · by_cases zero : (s.die d).hs = 0
    · exact .inl ⟨zero, if_pos (by rw [zero]; rfl)⟩
    · have nonzero : (s.die d).hs.toNat ≠ 0 := fun h => zero (BitVec.eq_of_toNat_eq h)
      refine .inr ⟨zero, ?_⟩
      rw [entered, if_neg nonzero]
      split
      · exact .inl rfl
      · exact .inr rfl

/-- Of the dies, groups and the memories of the module at most the walker and the couch of one die differ. -/
structure KeepsRegisters (d : Nat) (s t : State) : Prop where
  die : ∃ stlb upper couch, t.die d = { s.die d with stlb := stlb, upper := upper, couch := couch }
  others : ∀ e, e ≠ d → t.die e = s.die e
  groups : t.groups = s.groups
  mem : t.mem = s.mem
  host : t.hostMem = s.hostMem

/-- A state with the same dies, groups and memories of the module keeps the registers of every die. -/
theorem keepsRegisters_of_eq {s t : State} (d : Nat) (dies : t.dies = s.dies) (groups : t.groups = s.groups)
    (mem : t.mem = s.mem) (host : t.hostMem = s.hostMem) : KeepsRegisters d s t := by
  have die (e : Nat) : t.die e = s.die e := by rw [State.die, dies, State.die]
  exact ⟨⟨_, _, _, die d⟩, fun e _ => die e, groups, mem, host⟩

theorem keepsRegisters_powerOff (s : State) (d : Nat) : KeepsRegisters d s (s.powerOff d) :=
  ⟨⟨[], [], [], Tbl.get_put_self ..⟩, fun _ he => Tbl.get_put_ne _ _ _ (Ne.symm he), rfl, rfl, rfl⟩

theorem KeepsRegisters.trans {d : Nat} {s t u : State} (a : KeepsRegisters d s t) (b : KeepsRegisters d t u) :
    KeepsRegisters d s u := by
  obtain ⟨_, _, _, ha⟩ := a.die
  obtain ⟨_, _, _, hb⟩ := b.die
  exact ⟨⟨_, _, _, by rw [hb, ha]⟩, fun e he => (b.others e he).trans (a.others e he), b.groups.trans a.groups,
    b.mem.trans a.mem, b.host.trans a.host⟩

theorem entered_keepsRegisters (s : State) (d : Nat) : KeepsRegisters d s (entered s d) := by
  obtain ⟨u, hu, h⟩ := entered_cases s d
  have hard : KeepsRegisters d s u := by rcases hu with rfl | rfl <;> exact keepsRegisters_of_eq d rfl rfl rfl rfl
  rcases h with ⟨-, h⟩ | ⟨-, h | h⟩ <;> rw [h]
  · exact hard.trans (keepsRegisters_powerOff u d)
  · exact hard.trans (keepsRegisters_of_eq d rfl rfl rfl rfl)
  · exact hard

/-- A byte whose address an entry kept cannot have reads as unlisted. -/
theorem read_filter_dropped (dflt : Nat → Byte) (m : List Host.Cell) {p : Host.Cell → Bool} {a : Nat}
    (h : ∀ v, p (a, v) = false) : Memory.read dflt (m.filter p) a = dflt a := by
  have absent : Tbl.find (α := Byte) (m.filter p) a = none := by
    induction m with
    | nil => rfl
    | cons e m ih =>
      obtain ⟨b, v⟩ := e
      rw [List.filter_cons]
      split
      · next kept =>
        have other : b ≠ a := fun hb => by simp [hb, h] at kept
        rw [Tbl.find_cons, if_neg other, ih]
      · exact ih
  rw [Memory.read_eq, absent]; rfl

/-- The scratchpads of a die in HS0 read 0. -/
theorem powerOff_spadByte (s : State) {d c o : Nat} (hc : dieOf c = d) (ho : o < 4194304) :
    (s.powerOff d).spadByte c o = 0 := by
  refine read_filter_dropped zeroDefault s.spad fun v => ?_
  have core : spadKey c o / 4194304 = c := by rw [spadKey]; omega
  simp only [core, hc, bne_self_eq_false]

theorem entered_spadByte {s : State} {d c o : Nat} (zero : (s.die d).hs = 0) (hc : dieOf c = d) (ho : o < 4194304) :
    (entered s d).spadByte c o = 0 := by
  obtain ⟨u, -, ⟨-, h⟩ | ⟨nonzero, -⟩⟩ := entered_cases s d
  · rw [h]
    exact powerOff_spadByte u hc ho
  · exact absurd zero nonzero

/-- Above HS0 the scratchpads and tile stores stand. -/
theorem entered_stores {s : State} {d : Nat} (nonzero : (s.die d).hs ≠ 0) :
    (entered s d).spad = s.spad ∧ (entered s d).tile = s.tile := by
  obtain ⟨u, hu, ⟨zero, -⟩ | ⟨-, h⟩⟩ := entered_cases s d
  · exact absurd zero nonzero
  · rcases hu with rfl | rfl <;> rcases h with h | h <;> rw [h] <;> exact ⟨rfl, rfl⟩

/-! ## Ways of the L2 (R16) -/

/-- The ways that a write names anew: neither a fuse nor an earlier write has disabled them. -/
def freshWays (s : State) (d : Nat) (v : Word) : Word := v &&& ~~~(Config.wayFuse d) &&& ~~~(s.die d).wayHost

/-- A write of L2WAYDIS changes two registers of the die bit by bit; one that names a way of a locked deckle is refused for it. -/
theorem writeWays_eq (s : State) (d : Nat) (v : Word) : ∃ f : Die → Die,
    s.writeWays d v = (if freshWays s d v &&& s.waysNamed d != 0 then s.locked (0x20014 + 0x40 * d) else s).modDie d f ∧
    ∀ x, (f x).wayHost = x.wayHost &&& v ∧
      (f x).wayPending = (x.wayPending &&& v) ||| (freshWays s d v &&& ~~~(s.waysNamed d)) := by
  unfold State.writeWays
  exact ⟨_, rfl, fun _ => ⟨rfl, rfl⟩⟩

theorem exec_l2waydisWrite {s t : State} {d : Nat} {v : Word} (hr : s.m.recovery = false) (h : s.writeWays d v = t) :
    exec (.l2waydisWrite d v) s = .next t := congrArg Host.Outcome.next ((State.bar0_running hr _).trans h)

theorem exec_pwrctlWrite {s t : State} {d : Nat} {v : Word} (hr : s.m.recovery = false) (h : s.writePower d v.toNat = t) :
    exec (.pwrctlWrite d v) s = .next t := congrArg Host.Outcome.next ((State.bar0_running hr _).trans h)

/-- Where no fresh way is named, masking the named ways out changes nothing. -/
theorem and_not_of_and_eq_zero {a b : Word} (h : a &&& b = 0) : a &&& ~~~b = a := by
  refine BitVec.eq_of_getLsbD_eq fun i hi => ?_
  have bit : (a.getLsbD i && b.getLsbD i) = false := by rw [← BitVec.getLsbD_and, h]; exact BitVec.getLsbD_zero
  rw [BitVec.getLsbD_and, BitVec.getLsbD_not, decide_eq_true hi, Bool.true_and]
  cases ha : a.getLsbD i
  · rfl
  · rw [ha, Bool.true_and] at bit
    rw [bit]; rfl

theorem waysDue_getLsbD (s : State) {d w : Nat} (hw : w < 32) : (s.waysDue d).getLsbD w =
    ((s.die d).wayPending.getLsbD w && decide (Tbl.get (s.die d).wayEnd 0 w ≤ s.cycle)) := by
  rw [State.waysDue, maskWhere_getLsbD, decide_eq_true hw, Bool.true_and]

/-- Settles O29: a write of PWRCTL is refused, or its fields are set and the permits granted; each end of a transition and each write
of L2WAYDIS is one change of the die. -/
theorem hostStatesAndWays : Obligations.HostStatesAndWays := by
  refine ⟨⟨fun d v s hr busy => ?busy, fun d v s hr busy bad => ?invalid, fun d v s hr ok => ?taken, fun d s vf => ?vfDone,
    fun d s hs vf => ?hsDone⟩, fun d v s hr unnamed => ?unnamed, fun d v s hr named => ?named, fun d s => ?ways⟩
  case busy =>
    have refused := State.writePower_refused (State.pwrReject_busy v.toNat busy)
    exact gives_of_modDie (exec_pwrctlWrite hr refused) fun t ht only => ⟨ht, only⟩
  case invalid =>
    rw [← bits_toNat v (hi := 23) rfl, ← bits_toNat v (hi := 19) rfl] at bad
    have reserved (h : v.extractLsb' 3 13 ≠ 0) : bits v.toNat 15 3 ≠ 0 := fun h0 =>
      h (BitVec.eq_of_toNat_eq ((bits_toNat v rfl).symm.trans h0))
    have invalid := pwrInvalid_of_field (s.die d).hs.toNat (bad.imp_right (Or.imp_right reserved))
    have refused := State.writePower_refused (State.pwrReject_invalid busy invalid)
    exact gives_of_modDie (exec_pwrctlWrite hr refused) fun t ht only => ⟨ht, only⟩
  case taken =>
    obtain ⟨vfEnd, hsEnd, h⟩ := State.writePower_taken ok
    refine gives_of_modDie (exec_pwrctlWrite hr h) fun t ht only => ?_
    have frame := (granted_frame s d v).trans only.andSlices
    have fields := grantBoost_pwrctl (s.setPwrctl d v) d (s.die d)
    rw [setPwrctl_die] at fields
    obtain ⟨pbudget, bvf, vf, boosten, hs, curhs⟩ := fields
    rw [ht]
    refine ⟨hs, boosten, vf, bvf, pbudget, curhs, ?_, rfl, granted_permits_set, granted_permits_clear, frame.others, frame.work⟩
    rw [Bool.or_comm]
    simp only [State.hsMoves, State.vfMoves, bne, beq_eq_decide, decide_not]
  case vfDone =>
    have change : exec (.vfChangeDone d) s = .next (s.modDie d (fun x =>
      if x.vfEnd = 0 then x else { x with vfEnd := 0, curvf := x.vf }.settled)) := rfl
    refine gives_of_modDie change fun t ht only => ?_
    rw [ht, if_neg vf]
    by_cases last : (s.die d).hsEnd = 0
    · rw [settled_last (vf := rfl) (hs := by exact last)]
      exact ⟨rfl, rfl, fun _ => ⟨rfl, rfl⟩, fun waiting => absurd last waiting, only⟩
    · rw [settled_waiting (hs := by exact last)]
      exact ⟨rfl, rfl, fun h => absurd h last, fun _ => rfl, only⟩
  case hsDone =>
    refine gives_of_modDie (exec_hostStateTransitionDone hs vf) fun t ht only => ?_
    obtain ⟨⟨stlb, upper, couch, die⟩, others, groups, mem, host⟩ := entered_keepsRegisters s d
    have kept := only.andSlices.work
    rw [ht, die, settled_last (vf := by exact vf) (hs := rfl)]
    refine ⟨rfl, rfl, rfl, rfl, ?_, fun zero c o hc ho => ?_, fun nonzero => ?_, fun e he => (only.others e he).trans (others e he),
      kept.groups.trans groups, kept.mem.trans mem, kept.host.trans host⟩
    · simp only [Bool.and_eq_true, decide_eq_true_eq]
    · exact (congrArg (Memory.read zeroDefault · (spadKey c o)) kept.spad).trans (entered_spadByte zero hc ho)
    · exact (entered_stores nonzero).imp kept.spad.trans kept.tile.trans
  case unnamed =>
    have fresh : freshWays s d v &&& s.waysNamed d = 0 := unnamed
    obtain ⟨f, h, hf⟩ := writeWays_eq s d v
    rw [if_neg (by rw [fresh]; decide)] at h
    refine gives_of_modDie (exec_l2waydisWrite hr h) fun t ht only => ?_
    obtain ⟨host, pending⟩ := hf (s.die d)
    rw [ht]
    exact ⟨host, pending.trans (congrArg _ (and_not_of_and_eq_zero fresh)), only⟩
  case named =>
    have fresh : freshWays s d v &&& s.waysNamed d ≠ 0 := named
    obtain ⟨f, h, hf⟩ := writeWays_eq s d v
    rw [if_pos (bne_iff_ne.mpr fresh)] at h
    refine gives_of_modDie (exec_l2waydisWrite hr h) fun t ht only => ?_
    obtain ⟨host, pending⟩ := hf (s.die d)
    obtain ⟨-, locked, first⟩ := locked_records s (0x20014 + 0x40 * d)
    obtain ⟨groups, mem, hostMem, spad, tile⟩ := only.andSlices.work
    rw [ht, only.module, locked, first]
    exact ⟨host, pending, rfl, fun clear => if_neg (by rw [clear]; decide), fun set => if_pos set,
      groups, mem, hostMem, spad, tile⟩
  case ways =>
    have change : exec (.l2WayDisableDone d) s = .next (s.modDie d (fun x =>
      { x with wayHost := x.wayHost ||| s.waysDue d, wayPending := x.wayPending &&& ~~~(s.waysDue d),
               wayEnd := x.wayEnd.filter (fun e => !(s.waysDue d).getLsbD e.1) })) := rfl
    refine gives_of_modDie change fun t ht only => ⟨only, fun w hw => ?_⟩
    rw [ht, ← waysDue_getLsbD s hw]
    simp only [BitVec.getLsbD_or, BitVec.getLsbD_and, BitVec.getLsbD_not, hw, decide_true, Bool.true_and, and_self]

end Sys2Proof.Safety
end

section
/-! SUPPORT. Current slope, heat, the power cap and the ring (R27 to R30, R127): what a tick of the slope charges, what the limits
become, what the ring pays a core, and the statement SlopeHeatAndPower. -/

namespace Sys2Proof.Safety

open Machine

theorem OnlyDie.slice {d : Nat} {s t : State} (h : OnlyDie d s t) (k : Nat) : t.slice k = s.slice k := by
  rw [h.whole]; rfl

/-! ## Current slope and ballast (R27, R28) -/

/-- A microsecond whose current fell by at most 8 A, or with no idle engine, takes no ballast. -/
theorem exec_currentSlopeTick_gentle {s : State} {d : Nat}
    (h : (s.die d).spentLast ≤ Config.currentOf (s.die d).spent + 8 ∨ (s.die d).idleEngine = none) :
    exec (.currentSlopeTick d) s = .next (s.modDie d (fun x =>
      { x with spent := 0, spentLast := Config.currentOf (s.die d).spent, usAt := s.cycle + 1000 })) := by
  have gentle : (decide (Config.currentOf (s.die d).spent + 8 < (s.die d).spentLast) && (s.die d).idleEngine.isSome) = false := by
    rcases h with little | busy
    · rw [decide_eq_false (Nat.not_lt.mpr little), Bool.false_and]
    · rw [busy, Option.isSome_none, Bool.and_false]
  show execCurrentSlopeTick d s = _
  simp only [execCurrentSlopeTick, gentle, Bool.false_eq_true, if_false, if_true, Nat.add_zero]

/-- The die whose estimate has fallen by 8 A, the rest filled with ballast. -/
def filled (s : State) (d : Nat) : State :=
  s.modDie d (fun x => { x with spent := 0, spentLast := (s.die d).spentLast - 8, usAt := s.cycle + 1000 })

theorem filled_onlyDie (s : State) (d : Nat) : OnlyDie d s (filled s d) := onlyDie_modDie s d _

theorem filled_die (s : State) (d : Nat) : (filled s d).die d =
    { s.die d with spent := 0, spentLast := (s.die d).spentLast - 8, usAt := s.cycle + 1000 } := State.modDie_die_self ..

section
variable {s : State} {d e : Nat} (steep : Config.currentOf (s.die d).spent + 8 < (s.die d).spentLast)
  (idle : (s.die d).idleEngine = some e)
include steep idle

/-- A steeper fall is filled up, and charged by whom the idle engine last worked for. -/
theorem exec_currentSlopeTick_steep : exec (.currentSlopeTick d) s =
    let k := Tbl.get (s.die d).lastSlice 16 e
    let fill := (s.die d).spentLast - 8 - Config.currentOf (s.die d).spent
    .next (if k < 16 then
        ((filled s d).modSlice k (fun y => { y with energy := y.energy + BitVec.ofNat 64 (Config.ballastEnergy fill) })).modDie d
          (fun x => { x with debt := Tbl.put x.debt k (Tbl.get x.debt 0 k + Config.ballastPrice fill * 256) })
      else (filled s d).modM (fun m => { m with energyPf := m.energyPf + BitVec.ofNat 64 (Config.ballastEnergy fill) })) := by
  have some_fill : (s.die d).spentLast - 8 - Config.currentOf (s.die d).spent ≠ 0 := by omega
  have sum : Config.currentOf (s.die d).spent + ((s.die d).spentLast - 8 - Config.currentOf (s.die d).spent) =
    (s.die d).spentLast - 8 := by omega
  show execCurrentSlopeTick d s = _
  simp only [execCurrentSlopeTick, steep, idle, Option.isSome_some, decide_true, Bool.and_self, if_true, some_fill, if_false, sum]
  rfl

theorem gives_ballast_of_slice (hk : Tbl.get (s.die d).lastSlice 16 e < 16) : Gives (.currentSlopeTick d) s (fun t =>
    let k := Tbl.get (s.die d).lastSlice 16 e
    let fill := (s.die d).spentLast - 8 - Config.currentOf (s.die d).spent
    (t.die d).spent = 0 ∧ (t.die d).spentLast = (s.die d).spentLast - 8 ∧
    (t.slice k).energy = (s.slice k).energy + BitVec.ofNat 64 (Config.ballastEnergy fill) ∧
    Tbl.get (t.die d).debt 0 k = Tbl.get (s.die d).debt 0 k + Config.ballastPrice fill * 256 ∧ t.m = s.m ∧
    (∀ e, e ≠ d → t.die e = s.die e) ∧ SameWork s t) := by
  refine gives_of_modDie ((exec_currentSlopeTick_steep steep idle).trans (congrArg _ (if_pos hk))) fun t ht only => ?_
  have others (n : Nat) (hn : n ≠ d) : t.die n = s.die n := (only.others n hn).trans ((filled_onlyDie s d).others n hn)
  obtain ⟨groups, mem, host, spad, tile⟩ := only.andSlices.work
  rw [State.modSlice_die, filled_die] at ht
  have slice := (only.slice _).trans (State.modSlice_slice_self ..)
  have debt := (congrArg (fun x => Tbl.get x.debt 0 (Tbl.get (s.die d).lastSlice 16 e)) ht).trans (Tbl.get_put_self ..)
  exact ⟨congrArg Die.spent ht, congrArg Die.spentLast ht, congrArg Slice.energy slice, debt, only.module, others, groups, mem,
    host, spad, tile⟩

theorem gives_ballast_of_pf (hk : 16 ≤ Tbl.get (s.die d).lastSlice 16 e) : Gives (.currentSlopeTick d) s (fun t =>
    let fill := (s.die d).spentLast - 8 - Config.currentOf (s.die d).spent
    (t.die d).spent = 0 ∧ (t.die d).spentLast = (s.die d).spentLast - 8 ∧
    t.m.energyPf = s.m.energyPf + BitVec.ofNat 64 (Config.ballastEnergy fill) ∧ t.slices = s.slices ∧
    (∀ e, e ≠ d → t.die e = s.die e) ∧ SameWork s t) := by
  refine ⟨_, (exec_currentSlopeTick_steep steep idle).trans (congrArg _ (if_neg (Nat.not_lt.mpr hk))), ?_⟩
  have die := filled_die s d
  exact ⟨congrArg Die.spent die, congrArg Die.spentLast die, rfl, rfl, (filled_onlyDie s d).others, rfl, rfl, rfl, rfl, rfl⟩

end

/-! ## Heat (R29) -/

/-- FACT for a temperature, as the register holds it. -/
theorem ofNat_factOf (c : Nat) : BitVec.ofNat 9 (factOf c) =
    if c < 95 then 256 else if c < 105 then BitVec.ofNat 9 (256 - 19 * (c - 95)) else 64 := by
  unfold factOf
  split
  · rfl
  · split <;> rfl

theorem exec_thermUpdate_stays {s : State} {d : Nat} {c : Byte} (h : (s.die d).trip = true ∨ c.toNat < 115) :
    exec (.thermUpdate d c) s = .next (s.modDie d (fun x => { x with tdie := c }.refact)) := by
  have stays : (!(s.die d).trip && decide (115 ≤ c.toNat)) = false := by
    rcases h with tripped | cool
    · rw [tripped]; rfl
    · rw [decide_eq_false (Nat.not_le.mpr cool), Bool.and_false]
  show execThermUpdate d c s = _
  simp only [execThermUpdate, stays, Bool.or_false, Bool.false_eq_true, if_false]

/-- A die that trips stops issuing, and the PF hears of it. -/
theorem exec_thermUpdate_trips {s : State} {d : Nat} {c : Byte} (clear : (s.die d).trip = false) (hot : 115 ≤ c.toNat) :
    exec (.thermUpdate d c) s = .next ((s.modDie d (fun x => { x with tdie := c, trip := true }.refact)).postPf 6 d) := by
  show execThermUpdate d c s = _
  simp only [execThermUpdate, clear, hot, decide_true, Bool.not_false, Bool.and_self, Bool.or_true, if_true]

/-- A record that is posted changes neither dies nor groups. -/
theorem postPf_keeps (s : State) (code data : Nat) :
    (∀ d, (s.postPf code data).die d = s.die d) ∧ (s.postPf code data).groups = s.groups := by
  unfold State.postPf State.postRecord State.postRecordAt
  dsimp only
  split <;> exact ⟨fun _ => rfl, rfl⟩

theorem exec_thermWrite {s : State} (d : Nat) (v : Word) (hr : s.m.recovery = false) : exec (.thermWrite d v) s =
    .next (s.modDie d (fun x => if v.getLsbD 31 && x.tdie.toNat < 105 then { x with trip := false }.refact else x)) :=
  congrArg Host.Outcome.next (State.bar0_running hr _)

/-! ## The ring (R127) -/

/-- One payment of the ring: what is left of a debt, and what arrives after it. -/
def payStep (a : Nat × List Nat) (p : Nat) : Nat × List Nat := ((repay a.1 p).1, a.2 ++ [(repay a.1 p).2])

/-- What the ring offers a core in a cycle: each partition, and the matrix array. -/
def offers (f : Nat) : List Nat := (List.range 8).map (fun _ => 4 * f) ++ [224 * f]

/-- Without a debt every payment arrives. -/
theorem foldl_payStep_free (l done : List Nat) : l.foldl payStep (0, done) = (0, done ++ l) := by
  induction l generalizing done with
  | nil => rw [List.append_nil]; rfl
  | cons p l ih =>
    have arrives : payStep (0, done) p = (0, done ++ [p]) := by simp [payStep, repay]
    rw [List.foldl_cons, arrives, ih, List.append_assoc]; rfl

/-- A debt that covers the payments takes them all. -/
theorem foldl_payStep_owed (l done : List Nat) {debt : Nat} (h : l.sum ≤ debt) :
    l.foldl payStep (debt, done) = (debt - l.sum, done ++ List.replicate l.length 0) := by
  induction l generalizing debt done with
  | nil => simp
  | cons p l ih =>
    rw [List.sum_cons] at h
    have taken : payStep (debt, done) p = (debt - p, done ++ [0]) := by
      simp only [payStep, repay, show p - debt = 0 by omega]
    rw [List.foldl_cons, taken, ih _ (by omega), List.sum_cons, Nat.sub_sub, List.append_assoc]; rfl

theorem offers_sum (f : Nat) : (offers f).sum = 256 * f := by
  simp [offers]; omega

/-- A table after each of some keys is rewritten once, from the value that it had. -/
theorem get_foldl_put (g : Nat → Nat → Nat) (l : List Nat) (nodup : l.Nodup) (b : Tbl Nat) (q : Nat) :
    Tbl.get (l.foldl (fun b p => Tbl.put b p (g p (Tbl.get b 0 p))) b) 0 q =
      if q ∈ l then g q (Tbl.get b 0 q) else Tbl.get b 0 q := by
  induction l generalizing b with
  | nil => simp
  | cons p l ih =>
    obtain ⟨fresh, rest⟩ := List.nodup_cons.mp nodup
    rw [List.foldl_cons, ih rest, Tbl.get_put]
    by_cases h : p = q
    · subst h; simp [fresh]
    · simp [h, Ne.symm h]

/-- What is left of the debt of a core's slice and what arrives at the core, in a cycle of the ring. -/
def payments (s : State) (c : Nat) : Nat × List Nat :=
  (offers (s.factor (dieOf c))).foldl payStep (Tbl.get (s.die (dieOf c)).debt 0 (s.core c).owner, [])

theorem payments_free {s : State} {c : Nat} (h : Tbl.get (s.die (dieOf c)).debt 0 (s.core c).owner = 0) :
    payments s c = (0, offers (s.factor (dieOf c))) := by
  rw [payments, h, foldl_payStep_free, List.nil_append]

theorem payments_owed {s : State} {c : Nat}
    (h : 256 * s.factor (dieOf c) ≤ Tbl.get (s.die (dieOf c)).debt 0 (s.core c).owner) : payments s c =
      (Tbl.get (s.die (dieOf c)).debt 0 (s.core c).owner - 256 * s.factor (dieOf c), List.replicate 9 0) := by
  rw [payments, foldl_payStep_owed _ _ (by rwa [offers_sum]), offers_sum, List.nil_append]
  rfl

theorem offers_partition (f : Nat) {p : Nat} (hp : p < 8) : (offers f).getD p 0 = 4 * f := by
  interval_cases p <;> rfl

theorem offers_matrix (f : Nat) : (offers f).getD 8 0 = 224 * f := rfl

theorem core_of_single {s : State} {c : Nat} {x : Core} (one : s.cores = [(c, x)]) : s.core c = x := by
  rw [State.core, one, Tbl.get_eq, Tbl.find_cons, if_pos rfl]; rfl

theorem inWindow_buckets (c : Core) (w : Nat) : (c.inWindow w).bkt = c.bkt ∧ (c.inWindow w).mbkt = c.mbkt := by
  unfold Core.inWindow
  split <;> exact ⟨rfl, rfl⟩

/-- A payment to an admitted core changes the debt of its slice and the core. -/
theorem payCore_eq {s : State} {c : Nat} (adm : s.admitted c = true) : ∃ f : Core → Core,
    s.payCore c = (s.modDie (dieOf c) (fun x =>
      { x with debt := Tbl.set x.debt 0 (s.core c).owner (payments s c).1 })).modCore c f ∧
    ∀ y, (f y).bkt = (List.range 8).foldl (fun b p =>
        Tbl.put b p (min 65536 (Tbl.get b 0 p + (payments s c).2.getD p 0))) (y.inWindow (s.now c / 1024)).bkt ∧
      (f y).mbkt = min 1048576 ((y.inWindow (s.now c / 1024)).mbkt + (payments s c).2.getD 8 0) := by
  have held : ¬ (!s.admitted c) = true := by rw [adm]; decide
  exact ⟨_, if_neg held, fun _ => ⟨rfl, rfl⟩⟩

/-- A cycle of the ring on a die in HS3 with one owned core pays that core. -/
theorem refill1_single {s : State} {c : Nat} {x : Core} (one : s.cores = [(c, x)]) (owned : x.owner < 16)
    (hs : (s.die (dieOf c)).curhs = 3) : s.refill1 (dieOf c) = s.payCore c := by
  simp [State.refill1, one, owned, hs]

/-- The debt is repaid, and what arrives fills the buckets up to their limits. -/
theorem gives_payments {s : State} {c : Nat} {x : Core} (one : s.cores = [(c, x)]) (owned : x.owner < 16)
    (hs : (s.die (dieOf c)).curhs = 3) (adm : s.admitted c = true) : Gives (.meridianRefill (dieOf c)) s (fun t =>
    Tbl.get (t.die (dieOf c)).debt 0 x.owner = (payments s c).1 ∧
    (∀ p < 8, Tbl.get (t.core c).bkt 0 p = min 65536 (Tbl.get x.bkt 0 p + (payments s c).2.getD p 0)) ∧
    (t.core c).mbkt = min 1048576 (x.mbkt + (payments s c).2.getD 8 0) ∧ SameWork s t) := by
  obtain ⟨f, pays, hf⟩ := payCore_eq adm
  obtain ⟨bkt, mbkt⟩ := hf x
  have core := core_of_single one
  refine ⟨_, congrArg Host.Outcome.next ((refill1_single one owned hs).trans pays), ?_, fun p hp => ?_, ?_, rfl, rfl, rfl, rfl, rfl⟩
  · rw [State.modCore_die, State.modDie_die_self, core, Tbl.get_set, if_pos rfl]
  · rw [State.modCore_core_self, State.modDie_core, core, bkt,
      get_foldl_put (fun p b => min 65536 (b + (payments s c).2.getD p 0)) _ List.nodup_range, if_pos (List.mem_range.mpr hp), (inWindow_buckets x _).1]
  · rw [State.modCore_core_self, State.modDie_core, core, mbkt, (inWindow_buckets x _).2]


/-- Settles O31: each event is one equation above; the ring's payments go to the debt first, and all of them arrive where none is
left. -/
theorem slopeHeatAndPower : Obligations.SlopeHeatAndPower := by
  refine ⟨fun d s gentle => ?gentle, fun d e0 s steep idle => ?steep, fun d c s stays => ?stays, fun d c s clear hot => ?trips,
    fun d v s hr => ?therm, fun w s => ?cap, fun d s hs => ?idle, fun d c x s hc one owned hs free adm => ?free,
    fun d c x s hc one owned hs owes adm => ?owed⟩
  case gentle =>
    exact gives_of_modDie (exec_currentSlopeTick_gentle gentle) fun t ht only => ⟨ht, only⟩
  case steep =>
    by_cases hk : Tbl.get (s.die d).lastSlice 16 e0 < 16
    · obtain ⟨t, run, spent, last, energy, debt, m, others, work⟩ := gives_ballast_of_slice steep idle hk
      exact ⟨t, run, spent, last, fun _ => ⟨energy, debt, m⟩, fun h => absurd hk (Nat.not_lt.mpr h), others, work⟩
    · obtain ⟨t, run, spent, last, energy, slices, others, work⟩ := gives_ballast_of_pf steep idle (Nat.not_lt.mp hk)
      exact ⟨t, run, spent, last, fun h => absurd h hk, fun _ => ⟨energy, slices⟩, others, work⟩
  case stays =>
    refine gives_of_modDie (exec_thermUpdate_stays stays) fun t ht only => ⟨?_, only⟩
    rw [ht, ← ofNat_factOf]
    rfl
  case trips =>
    obtain ⟨dies, groups⟩ := postPf_keeps (s.modDie d (fun x => { x with tdie := c, trip := true }.refact)) 6 d
    have die := (dies d).trans (State.modDie_die_self ..)
    exact ⟨_, exec_thermUpdate_trips clear hot, congrArg Die.trip die, congrArg Die.fact die, congrArg Die.tdie die, groups⟩
  case therm =>
    refine gives_of_modDie (exec_thermWrite d v hr) fun t ht only => ⟨only, fun set cool => ?_, fun h => ?_⟩
    · rw [ht, if_pos (by rw [set, decide_eq_true cool]; rfl)]
      exact ⟨rfl, rfl⟩
    · rw [ht, if_neg]
      simpa only [Bool.and_eq_true, decide_eq_true_eq, not_and_or, Bool.not_eq_true, Nat.not_lt] using h
  case cap =>
    refine ⟨_, rfl, onlyModule_modM s _, rfl, ?_⟩
    simp only [State.modM_m]
    split
    · rfl
    · split
      · rfl
      · rw [BitVec.ofNat_toNat, BitVec.setWidth_eq]
  case idle =>
    exact congrArg Host.Outcome.next (if_pos (bne_iff_ne.mpr hs))
  case free =>
    subst hc
    rw [← core_of_single one] at free
    obtain ⟨t, run, -, bkt, mbkt, work⟩ := gives_payments one owned hs adm
    rw [payments_free free] at bkt mbkt
    refine ⟨t, run, fun p hp => ?_, ?_, work⟩
    · rw [bkt p hp, offers_partition _ hp]; rfl
    · rw [mbkt, offers_matrix]; rfl
  case owed =>
    subst hc
    have covers : 256 * s.factor (dieOf c) ≤ Tbl.get (s.die (dieOf c)).debt 0 (s.core c).owner := by
      rw [core_of_single one]
      exact owes
    obtain ⟨t, run, debt, bkt, mbkt, work⟩ := gives_payments one owned hs adm
    rw [payments_owed covers] at debt bkt mbkt
    refine ⟨t, run, ?_, fun p hp => ?_, ?_, work⟩
    · rw [debt, core_of_single one]; rfl
    · rw [bkt p hp, List.getD_replicate _ (by omega), Nat.add_zero]
    · exact mbkt

end Sys2Proof.Safety
end

section
/-! SUPPORT. Reset values (R19, R21, R29 to R32, R56, R57, R64, R69, R113, R141, R145) and the statement ResetValues. -/

namespace Sys2Proof.Safety

open Machine

/-- At reset every event may be counted for a slice (R240). -/
theorem reset_allows (k n : Nat) : (State.reset.slice k).allows n = true := by
  have inWord : n % 32 < 32 := Nat.mod_lt n (by decide)
  show (0xFFFFFFFF : Word).getLsbD (n % 32) = true
  rw [show (0xFFFFFFFF : Word) = BitVec.allOnes 32 from rfl, BitVec.getLsbD_allOnes, decide_eq_true inWord]

/-- An unlisted entry of the page-owner table reads 31, no one (log 3). -/
theorem reset_owner (f : Nat) : State.reset.owner f = 31 := by
  show (memDefault (0x7FFF800000 + f)).toNat = 31
  rw [memDefault, if_pos (Nat.le_add_right ..)]
  rfl

/-- Settles O57: no table of the reset state lists anything, so each part is the default of its structure. -/
theorem resetValues : Obligations.ResetValues := by
  refine ⟨rfl, rfl, rfl, rfl, rfl, rfl, rfl, rfl, rfl, rfl, rfl, rfl, fun d => ?die, fun k => ?slice, fun k => ?stack,
    fun f _ => reset_owner f⟩
  case die => exact ⟨rfl, rfl, rfl, rfl, rfl, rfl, rfl⟩
  case slice => exact ⟨rfl, rfl, rfl, rfl, rfl, reset_allows k, fun _ => rfl⟩
  case stack => exact ⟨rfl, rfl⟩

end Sys2Proof.Safety
end

section
/-! SUPPORT. Clock, meters, packets, multicast windows, UCIe and TLPs (R37 to R39, R44, R46, R53): what a posted record and a pass
over the slices leave as they were, what each event of the links does to the state, and the statement LinksAndClock. -/

namespace Sys2Proof.Machine

/-! ## Records -/

/-- A record goes to the reporting port, or is counted as lost by its ring: nothing else changes (R202, R203). -/
theorem State.postRecordAt_whole (s : State) (d fn ring : Nat) (r : RecordData) :
    ∃ x l, s.postRecordAt d fn ring r = { s with slices := x, m := { s.m with records := l } } := by
  unfold State.postRecordAt
  dsimp only
  split
  · exact ⟨s.slices, _, rfl⟩
  · exact ⟨_, s.m.records, rfl⟩

theorem State.postRecord_whole (s : State) (fn ring : Nat) (r : RecordData) :
    ∃ x l, s.postRecord fn ring r = { s with slices := x, m := { s.m with records := l } } := s.postRecordAt_whole 0 fn ring r

theorem State.postPf_whole (s : State) (code data : Nat) :
    ∃ x l, s.postPf code data = { s with slices := x, m := { s.m with records := l } } := s.postRecordAt_whole ..

/-! ## The clock (R39) -/

/-- A clock that starts from its base in this cycle, with nothing to turn forward, shows the base. -/
theorem State.ptpTime_at_base {s : State} (base : s.ptp.baseCycle = s.cycle) (slew : 0 ≤ s.ptp.slew) : s.ptpTime = s.ptp.base := by
  have start : (s.cycle : Int) - s.ptp.baseCycle = 0 := by omega
  have none_yet : min (s.ptp.slew * 1000000000) 0 = 0 := min_eq_right (by omega)
  simp only [State.ptpTime, start, zero_mul, none_yet, sub_self, EuclideanDomain.zero_div, add_zero, Int.toNat_natCast]

/-- A correction of an offset in ns is a step forward, or is slewed off: the base is not before the time shown. -/
theorem execPtpCorrection_eq (rho offset : Int) (s : State) : ∃ base slew,
    execPtpCorrection rho offset s = .next { s with ptp := { s.ptp with
      rho := max (-200000) (min 200000 rho), offset := s.ptp.offset + offset, lock := true, base := base, baseCycle := s.cycle,
      slew := slew } } ∧ s.ptpTime ≤ base ∧ 0 ≤ slew := by
  refine ⟨_, _, rfl, ?_, ?_⟩
  · split
    · exact Nat.le_add_right ..
    · exact le_rfl
  · split
    · exact le_rfl
    · omega

/-! ## Meters (R44) -/

/-- A meter after its allowance a of 16 bytes a unit, held at four of them. -/
def gain (k a : Nat) (m : Tbl Nat) : Tbl Nat := Tbl.set m 0 k (min (4 * 16 * a) (Tbl.get m 0 k + 16 * a))

/-- What a tick does to one slice; one without allowances and meters is passed over. -/
def State.tickMeters (s : State) (t : Nat) : State :=
  if (s.slice t).ual = 0 && (s.slice t).eth = 0 && (s.slice t).meter.isEmpty then s
  else s.modSlice t (fun x => { x with meter := gain 0 x.ual (gain 1 x.eth x.meter) })

theorem execFabricMeterTick_eq (s : State) : execFabricMeterTick s = .next (sliceNums.foldl State.tickMeters s) := rfl

theorem get_gain (k a j : Nat) (m : Tbl Nat) :
    Tbl.get (gain k a m) 0 j = if k = j then min (64 * a) (Tbl.get m 0 k + 16 * a) else Tbl.get m 0 j := Tbl.get_set ..

/-- The second slice's meters stand a tick after those of the first. -/
def Gained (x y : Slice) : Prop :=
  Tbl.get y.meter 0 0 = min (64 * x.ual) (Tbl.get x.meter 0 0 + 16 * x.ual) ∧
  Tbl.get y.meter 0 1 = min (64 * x.eth) (Tbl.get x.meter 0 1 + 16 * x.eth)

/-- Both meters of a slice gain, one passed over included: nothing added to an empty meter leaves 0. -/
theorem State.tickMeters_gained (s : State) (t : Nat) : Gained (s.slice t) ((s.tickMeters t).slice t) := by
  unfold State.tickMeters
  split
  next idle =>
    simp only [Bool.and_eq_true, decide_eq_true_eq, List.isEmpty_iff] at idle
    obtain ⟨⟨ual, eth⟩, meter⟩ := idle
    simp [Gained, ual, eth, meter]
  next =>
    simp [Gained, get_gain]

/-- PF traffic is not metered. -/
theorem State.chargeMeter_pf (s : State) (k payload : Nat) : s.chargeMeter 16 k payload = some s := rfl

theorem State.chargeMeter_short {s : State} {t k payload : Nat} (ht : t < 16)
    (h : Tbl.get (s.slice t).meter 0 k < Config.packetBytes payload) : s.chargeMeter t k payload = none := by
  simp [State.chargeMeter, Nat.ne_of_lt ht, Nat.not_le.mpr h]

/-- A slice whose meter k has paid for a packet. -/
def Slice.pays (x : Slice) (k payload : Nat) : Slice :=
  { x with meter := Tbl.set x.meter 0 k (Tbl.get x.meter 0 k - Config.packetBytes payload) }

theorem Slice.get_pays (x : Slice) (k payload : Nat) :
    Tbl.get (x.pays k payload).meter 0 k = Tbl.get x.meter 0 k - Config.packetBytes payload :=
  (Tbl.get_set ..).trans (if_pos rfl)

theorem State.chargeMeter_covers {s : State} {t k payload : Nat} (ht : t < 16)
    (h : Config.packetBytes payload ≤ Tbl.get (s.slice t).meter 0 k) :
    s.chargeMeter t k payload = some (s.modSlice t (fun x => x.pays k payload)) := by
  simp only [State.chargeMeter, Nat.ne_of_lt ht, h, if_false, if_true]
  rfl

/-- Without a request that waits, nothing leaves a UALink port. -/
theorem State.sendUal_none {s : State} {t : Nat} (h : ∀ q ∈ s.m.peers, q.2.slice = t → q.2.out = true) : s.sendUal t = s := by
  have found : s.m.peers.find? (fun q => q.2.slice == t && !q.2.out) = none := by
    simpa [List.find?_eq_none] using h
  simp [State.sendUal, found]

/-- The first request of the table, when it waits, leaves as soon as its meter covers it. -/
theorem State.sendUal_first {s : State} {t : Nat} {q : Nat × PeerReq} {rest : Tbl PeerReq} (peers : s.m.peers = q :: rest)
    (mine : q.2.slice = t) (waits : q.2.out = false) : s.sendUal t = ((s.chargeMeter t 0 q.2.payload).map (fun u =>
      u.modM (fun m => { m with peers := Tbl.upd m.peers q.1 (fun q => { q with out := true }) }))).getD s := by
  have found : s.m.peers.find? (fun q => q.2.slice == t && !q.2.out) = some q := by simp [peers, mine, waits]
  simp only [State.sendUal, found]
  cases s.chargeMeter t 0 q.2.payload <;> rfl

section
variable {s : State} {t : Nat} {q : Nat × PeerReq} {rest : Tbl PeerReq} (peers : s.m.peers = q :: rest)
  (mine : q.2.slice = t) (waits : q.2.out = false) (ht : t < 16)
include peers mine waits ht

theorem State.sendUal_short (h : Tbl.get (s.slice t).meter 0 0 < Config.packetBytes q.2.payload) : s.sendUal t = s := by
  rw [State.sendUal_first peers mine waits, State.chargeMeter_short ht h]; rfl

theorem State.sendUal_covers (h : Config.packetBytes q.2.payload ≤ Tbl.get (s.slice t).meter 0 0) : s.sendUal t =
    (s.modSlice t (fun x => x.pays 0 q.2.payload)).modM (fun m =>
      { m with peers := Tbl.upd m.peers q.1 (fun q => { q with out := true }) }) := by
  rw [State.sendUal_first peers mine waits, State.chargeMeter_covers ht h]; rfl

end

/-- Without an answer that waits, nothing leaves an Ethernet port. -/
theorem State.sendEth_none {s : State} {t : Nat} (h : ∀ e ∈ s.m.ethOut, e.1 ≠ t) : s.sendEth t = s := by
  have found : s.m.ethOut.find? (fun e => e.1 == t) = none := by simpa [List.find?_eq_none] using h
  simp [State.sendEth, found]

section
variable {s : State} {t qp : Nat} {b : List Byte} {rest : List (Nat × Nat × List Byte)} (out : s.m.ethOut = (t, qp, b) :: rest)
include out

theorem State.sendEth_first : s.sendEth t = ((s.chargeMeter t 1 b.length).map (fun u =>
    u.modM (fun m => { m with ethOut := m.ethOut.erase (t, qp, b), reply := some (qp, .bytes b) }))).getD s := by
  have found : s.m.ethOut.find? (fun e => e.1 == t) = some (t, qp, b) := by simp [out]
  simp only [State.sendEth, found]
  cases s.chargeMeter t 1 b.length <;> rfl

theorem State.sendEth_short (ht : t < 16) (h : Tbl.get (s.slice t).meter 0 1 < Config.packetBytes b.length) :
    s.sendEth t = s := by
  rw [State.sendEth_first out, State.chargeMeter_short ht h]; rfl

theorem State.sendEth_covers (ht : t < 16) (h : Config.packetBytes b.length ≤ Tbl.get (s.slice t).meter 0 1) : s.sendEth t =
    (s.modSlice t (fun x => x.pays 1 b.length)).modM (fun m =>
      { m with ethOut := m.ethOut.erase (t, qp, b), reply := some (qp, .bytes b) }) := by
  rw [State.sendEth_first out, State.chargeMeter_covers ht h]; rfl

end

theorem State.sendEth_pf {s : State} {qp : Nat} {b : List Byte} {rest : List (Nat × Nat × List Byte)}
    (out : s.m.ethOut = (16, qp, b) :: rest) : s.sendEth 16 =
      s.modM (fun m => { m with ethOut := m.ethOut.erase (16, qp, b), reply := some (qp, .bytes b) }) := by
  rw [State.sendEth_first out, State.chargeMeter_pf]; rfl


/-! ## Multicast windows (R46) -/

/-- The bits that a word of an MCJOIN entry holds. -/
def mcjoinBits (w : Nat) : Word :=
  if w = 0 then 0x80000FFF else if w = 1 then 0x000FFFFF else if w = 2 then 0xFFFF0000 else 0x01FFFFFF

section
variable {s : State} {k e w : Nat} {v : Word}

theorem State.writeMcjoin_locked (valid : (Tbl.get s.m.mcjoin 0 ((k * 64 + e) * 4)).getLsbD 31 = true)
    (keeps : w ≠ 0 ∨ v.getLsbD 31 = true) : s.writeMcjoin k e w v = s := by
  have locked : (!(w == 0 && !v.getLsbD 31)) = true := by
    rcases keeps with h | h <;> simp [h]
  simp only [State.writeMcjoin, valid, locked, Bool.and_self, Bool.or_true, if_true]

theorem State.writeMcjoin_open (hk : k < 16) (he : e < 64) (hw : w < 4)
    (h : (Tbl.get s.m.mcjoin 0 ((k * 64 + e) * 4)).getLsbD 31 = false ∨ (w = 0 ∧ v.getLsbD 31 = false)) :
    s.writeMcjoin k e w v =
      s.modM (fun m => { m with mcjoin := Tbl.set m.mcjoin 0 ((k * 64 + e) * 4 + w) (v &&& mcjoinBits w) }) := by
  have free : ((Tbl.get s.m.mcjoin 0 ((k * 64 + e) * 4)).getLsbD 31 && !(w == 0 && !v.getLsbD 31)) = false := by
    rcases h with h | ⟨rfl, h⟩
    · rw [h, Bool.false_and]
    · rw [h]; exact Bool.and_false _
  simp only [State.writeMcjoin, free, Nat.not_le.mpr hk, Nat.not_le.mpr he, Nat.not_le.mpr hw, decide_false, Bool.or_self,
    Bool.false_eq_true, if_false]
  interval_cases w <;> rfl

end

/-! ## Die links and TLPs (R37, R53) -/

theorem State.startKill_active {s : State} {t : Nat} (cause frame : Nat) (act : (s.slice t).st = .active)
    (alive : (s.slice t).killing = false) : s.startKill t cause frame = (s.dropWork t cause).modSlice t (fun x =>
      { x with killing := true, killCause := cause, killFrame := frame, busyEnd := s.cycle + 1000000 }) := by
  simp [State.startKill, act, alive]

/-- A flit that fails kills the slice whose traffic it carried, with CAUSE LINK (R53, R102). -/
theorem execUcieFlitFail_active (pair : Nat) {s : State} {t : Nat} (ht : t < 16) (act : (s.slice t).st = .active)
    (alive : (s.slice t).killing = false) : execUcieFlitFail pair [t] s = .next ((s.dropWork t 10).modSlice t (fun x =>
      { x with killing := true, killCause := 10, killFrame := 0, busyEnd := s.cycle + 1000000 })) := by
  rw [← State.startKill_active 10 0 act alive]
  exact congrArg Host.Outcome.next (if_pos ht)

/-- A link pair after one of its modules was trained with some failed lanes. -/
def Ucie.retrained (u : Ucie) (module failed : Nat) : Ucie :=
  { failed := Tbl.set u.failed 0 module failed, half := Tbl.set u.half false module (decide (4 < failed)) }

/-- A retraining records the failed lanes of its module, and posts its event when the width falls. -/
theorem execUcieRetrain_eq (pair module failed : Nat) (s : State) : ∃ x l, execUcieRetrain pair module failed s =
    .next { s with
      slices := x
      m := { s.m with
        records := l
        ucie := Tbl.put s.m.ucie pair ((Tbl.get s.m.ucie {} pair).retrained module failed) } } := by
  unfold execUcieRetrain
  dsimp only
  split
  · obtain ⟨x, l, h⟩ := State.postPf_whole (s.modM (fun m => { m with ucie := Tbl.put m.ucie pair _ })) 9 pair
    exact ⟨x, l, congrArg Host.Outcome.next h⟩
  · exact ⟨s.slices, s.m.records, rfl⟩

/-- A TLP on its stream and intact changes nothing. -/
theorem execVfTlpReceive_intact (vf : Nat) (posted : Bool) (s : State) : execVfTlpReceive vf true true posted s = .next s := by
  simp [execVfTlpReceive]

/-- A TLP off its stream or without integrity is dropped; one that wants an answer reads as all ones (R37). -/
theorem execVfTlpReceive_dropped {k : Nat} {onS intact : Bool} (posted : Bool) {s : State} (vf : s.vfExists k = true)
    (run : (s.slice k).tdi = .run) (bad : (onS && intact) = false) : execVfTlpReceive (k + 1) onS intact posted s =
      .next ((s.modSlice k (fun x => { x with tdi := .error })).modM (fun m =>
        { m with lastRead := if posted then m.lastRead else 0xFFFFFFFFFFFFFFFF })) := by
  have dropped : ¬ (decide (k + 1 = 0) || !s.vfExists (k + 1 - 1) || (s.slice (k + 1 - 1)).tdi != .run ||
      (onS && intact)) = true := by
    simp [vf, run, bad]
  refine congrArg Host.Outcome.next ((if_neg dropped).trans ?_)
  cases posted <;> rfl

end Sys2Proof.Machine

namespace Sys2Proof.Safety

open Machine

/-! ## Frames -/

theorem OnlySlice.refl (k : Nat) (s : State) : OnlySlice k s s := ⟨rfl, fun _ _ => rfl⟩

theorem tickMeters_onlySlice (s : State) (t : Nat) : OnlySlice t s (s.tickMeters t) := by
  unfold State.tickMeters
  split
  · exact .refl t s
  · exact onlySlice_modSlice ..

section
variable {f : State → Nat → State} (only : ∀ s t, OnlySlice t s (f s t))
include only

/-- A pass over slices that changes each alone leaves all but the slices as it was. -/
theorem foldl_onlySlice_whole (l : List Nat) (s : State) : l.foldl f s = { s with slices := (l.foldl f s).slices } := by
  induction l generalizing s with
  | nil => rfl
  | cons t l ih => rw [List.foldl_cons, ih, (only s t).whole]

theorem foldl_onlySlice_others (l : List Nat) (s : State) {k : Nat} (h : k ∉ l) : (l.foldl f s).slice k = s.slice k := by
  induction l generalizing s with
  | nil => rfl
  | cons t l ih =>
    obtain ⟨ne, out⟩ := List.ne_and_not_mem_of_not_mem_cons h
    rw [List.foldl_cons, ih _ out, (only s t).others k ne]

/-- What a step of the pass does to its slice, the pass has done to each. -/
theorem foldl_onlySlice_each {R : Slice → Slice → Prop} (each : ∀ s t, R (s.slice t) ((f s t).slice t)) {l : List Nat}
    (nodup : l.Nodup) (s : State) {k : Nat} (h : k ∈ l) : R (s.slice k) ((l.foldl f s).slice k) := by
  induction l generalizing s with
  | nil => cases h
  | cons t l ih =>
    obtain ⟨fresh, rest⟩ := List.nodup_cons.mp nodup
    rw [List.foldl_cons]
    rcases List.mem_cons.mp h with rfl | later
    · rw [foldl_onlySlice_others only l _ fresh]
      exact each s k
    · have ne : k ≠ t := fun e => fresh (e ▸ later)
      rw [← (only s t).others k ne]
      exact ih rest (f s t) later

end

/-! ## What each event gives -/

/-- An event that ends with a change of one slice gives what its registers and the frame imply. -/
theorem gives_of_modSlice {i : Instr} {s u : State} {k : Nat} {f : Slice → Slice} {post : State → Prop}
    (h : exec i s = .next (u.modSlice k f)) (hp : ∀ t, t.slice k = f (u.slice k) → OnlySlice k u t → post t) : Gives i s post :=
  ⟨_, h, hp _ (State.modSlice_slice_self u k f) (onlySlice_modSlice u k f)⟩

/-- An event that ends with a change of one slice and of the module gives what both and the frame imply. -/
theorem gives_of_modSlice_modM {i : Instr} {s u : State} {k : Nat} {f : Slice → Slice} {g : Module → Module} {post : State → Prop}
    (h : exec i s = .next ((u.modSlice k f).modM g))
    (hp : ∀ t, t.slice k = f (u.slice k) → t.m = g u.m → (∀ e, e ≠ k → t.slice e = u.slice e) → SameWork u t → post t) :
    Gives i s post :=
  ⟨_, h, hp _ (State.modSlice_slice_self u k f) rfl (onlySlice_modSlice u k f).others ⟨rfl, rfl, rfl, rfl, rfl⟩⟩

theorem OnlySlice.work {k : Nat} {s t : State} (h : OnlySlice k s t) : SameWork s t := by
  rw [h.whole]; exact ⟨rfl, rfl, rfl, rfl, rfl⟩

theorem OnlySlice.module {k : Nat} {s t : State} (h : OnlySlice k s t) : t.m = s.m := by rw [h.whole]

/-- Settles O34: each event is one equation above for the state it reaches; the tick of the meters is a pass over the slices. -/
theorem linksAndClock : Obligations.LinksAndClock := by
  refine ⟨fun rho off s => ?correction, fun port s => ?lockLoss, fun s => ?tick, fun k s h => ?noRequest,
    fun k q rest s peers mine waits hk short => ?requestStays, fun k q rest s peers mine waits hk covers => ?requestLeaves,
    fun k s h => ?noAnswer, fun k qp b rest s out hk short => ?answerStays, fun k qp b rest s out hk covers => ?answerLeaves,
    fun qp b rest s out => ?pfAnswer, fun k e w v s _ _ _ valid keeps => ?locked, fun k e w v s hr hk he hw h => ?mcjoin,
    fun pair m n s => ?retrain, fun pair k s hk act alive => ?flitFail, fun pair s => rfl,
    fun k onS intact posted s _ vf run bad => ?tlp, fun k posted s => execVfTlpReceive_intact k posted s⟩
  case correction =>
    obtain ⟨base, slew, run, later, slewed⟩ := execPtpCorrection_eq rho off s
    refine ⟨_, run, rfl, rfl, rfl, later.trans (Eq.ge ?_)⟩
    exact State.ptpTime_at_base rfl slewed
  case lockLoss =>
    obtain ⟨x, l, posted⟩ := State.postPf_whole { s with ptp := { s.ptp with lock := false } } 7 port
    exact ⟨_, congrArg Host.Outcome.next posted, rfl, rfl, ⟨rfl, rfl, rfl, rfl, rfl⟩, rfl⟩
  case tick =>
    refine ⟨_, execFabricMeterTick_eq s, foldl_onlySlice_whole tickMeters_onlySlice _ s, fun k hk => ?_⟩
    exact foldl_onlySlice_each tickMeters_onlySlice (R := Gained) State.tickMeters_gained List.nodup_range s (List.mem_range.mpr hk)
  case noRequest =>
    exact congrArg Host.Outcome.next (State.sendUal_none h)
  case requestStays =>
    exact congrArg Host.Outcome.next (State.sendUal_short peers mine waits hk short)
  case requestLeaves =>
    refine gives_of_modSlice_modM (congrArg Host.Outcome.next (State.sendUal_covers peers mine waits hk covers))
      fun t paid m others work => ⟨?_, ?_, others, work⟩
    · rw [m, peers]
      exact if_pos rfl
    · rw [paid, Slice.get_pays]
  case noAnswer =>
    exact congrArg Host.Outcome.next (State.sendEth_none h)
  case answerStays =>
    exact congrArg Host.Outcome.next (State.sendEth_short out hk short)
  case answerLeaves =>
    refine gives_of_modSlice_modM (congrArg Host.Outcome.next (State.sendEth_covers out hk covers))
      fun t paid m others work => ⟨?_, ?_, others, work⟩
    · rw [m, out, List.erase_cons_head]
    · rw [paid, Slice.get_pays]
  case pfAnswer =>
    refine ⟨_, congrArg Host.Outcome.next (State.sendEth_pf out), onlyModule_modM s _, ?_⟩
    rw [State.modM_m, out, List.erase_cons_head]
  case locked =>
    refine congrArg Host.Outcome.next ?_
    rw [State.writeMcjoin_locked valid keeps, State.bar0, ite_self]
  case mcjoin =>
    refine ⟨_, congrArg Host.Outcome.next ((State.bar0_running hr _).trans (State.writeMcjoin_open hk he hw h)), rfl, ?_⟩
    rw [State.modM_m, Tbl.get_set, if_pos rfl]; rfl
  case retrain =>
    obtain ⟨x, l, run⟩ := execUcieRetrain_eq pair m n s
    refine ⟨_, run, ?_, ?_, ⟨rfl, rfl, rfl, rfl, rfl⟩, rfl⟩
    · rw [Tbl.get_put_self, Ucie.retrained, Tbl.get_set, if_pos rfl]
    · rw [Tbl.get_put_self, Ucie.retrained, Tbl.get_set, if_pos rfl]
  case flitFail =>
    refine gives_of_modSlice (execUcieFlitFail_active pair hk act alive) fun t ht _ => ?_
    rw [ht]
    exact ⟨rfl, rfl, rfl⟩
  case tlp =>
    refine gives_of_modSlice_modM (execVfTlpReceive_dropped posted vf run bad) fun t ht m others work =>
      ⟨ht, others, work, fun h => ?_, fun h => ?_⟩
    · rw [m, if_neg (Bool.not_eq_true _ ▸ h)]
    · rw [m, if_pos h]

end Sys2Proof.Safety
end

section
/-! SUPPORT. Requests of peers and RDMA (R38, R43, R48, R49, R183): what a request that is refused, waits, is answered again or is
performed does to the state, and the statement PeerRequests. -/

namespace Sys2Proof.Machine

/-! ## Bytes -/

theorem leBytes_length (n v : Nat) : (leBytes n v).length = n := by
  induction n generalizing v with
  | zero => rfl
  | succ n ih => rw [leBytes, List.length_cons, ih]

theorem leBytes_getD {n i : Nat} (v : Nat) (h : i < n) : (leBytes n v).getD i 0 = BitVec.ofNat 8 (v / 2 ^ (8 * i)) := by
  induction n generalizing v i with
  | zero => omega
  | succ n ih =>
    cases i with
    | zero => simp [leBytes]
    | succ i =>
      rw [leBytes, List.getD_cons_succ, ih _ (Nat.lt_of_succ_lt_succ h), Nat.div_div_eq_div_mul]
      congr 2
      rw [Nat.mul_succ, Nat.pow_add, Nat.mul_comm]

/-- A number written to device memory stands there byte by byte. -/
theorem State.memByte_setMem_leBytes (s : State) (a b n v : Nat) : (s.setMem a (leBytes n v)).memByte b =
    if a ≤ b ∧ b < a + n then BitVec.ofNat 8 (v / 2 ^ (8 * (b - a))) else s.memByte b := by
  rw [State.memByte_setMem, leBytes_length]
  split
  · exact leBytes_getD v (by omega)
  · rfl

/-! ## What a request changes -/

/-- An answer to a peer: its MODID and the response. -/
def State.answerPeer (s : State) (r : PeerIn) (p : PeerResp) : State := s.modM (fun m => { m with reply := some (r.modid, p) })

theorem State.pruneWindows_whole (s : State) (r : PeerIn) :
    ∃ l, s.pruneWindows r = { s with m := { s.m with windows := l } } := by
  unfold State.pruneWindows
  split
  · exact ⟨s.m.windows, rfl⟩
  · exact ⟨_, rfl⟩

theorem State.pruneWindows_nothing {s : State} {r : PeerIn} (h : r.freed = []) : s.pruneWindows r = s := by
  simp [State.pruneWindows, h]

/-- Published bytes are written to memory; marks of poison alone may go with them. -/
theorem State.publishBytes_whole (s : State) (a : Nat) (l : List Byte) :
    ∃ m, s.publishBytes a l = { s.setMem a l with m := m } := by
  unfold State.publishBytes State.unpoison
  split
  · exact ⟨_, rfl⟩
  · exact ⟨_, rfl⟩

/-- Where no byte has a home of atomics yet, the bytes of an atomic are not mixed (R212). -/
theorem State.mixHomes_first {s : State} {home a mt : Nat} {l : List Byte} (h : s.m.atomAt = []) :
    ∃ m, s.mixHomes home (.home a mt) l = ({ s with m := m }, l) := by
  refine ⟨_, Prod.ext rfl ?_⟩
  simp [State.mixHomes, Loc.pa?, h]

theorem State.peerAtomic_home {s : State} {e : TlbEntry} {a : Nat} {l : List Byte} (home : e.target = 0) (h : s.m.atomAt = []) :
    ∃ m, s.peerAtomic e a l = { s.setMem a l with m := m } := by
  have device : ¬ e.target = 1 := by omega
  obtain ⟨m, mix⟩ := State.mixHomes_first (home := b2n (e.mt == 2)) (a := a) (mt := e.mt) (l := l) h
  obtain ⟨m', published⟩ := State.publishBytes_whole { s with m := m } a l
  refine ⟨m', ?_⟩
  rw [State.peerAtomic, if_neg device, mix]
  exact published

/-- What the engine writes for a store is what the store leaves in memory. -/
theorem State.peerStore_keeps {s u : State} {t va a : Nat} {e : TlbEntry} {l : List Byte} (h : s.engineWrite t 0 va l = some u) :
    ∃ m, s.peerStore t va a e l = { u with m := m } := by
  rw [State.peerStore, h]
  dsimp only [Option.getD_some]
  split
  · exact ⟨u.m, rfl⟩
  · exact ⟨_, rfl⟩

/-! ## Refusals (R48) -/

theorem State.peerTarget_unknown {s : State} {r : PeerIn} (h : ∀ k < 1024, s.route r.slice k ≠ some (r.modid, r.pslice)) :
    s.peerTarget r = .error 1 := by
  have unknown : s.peerKnown r = false := by simpa [State.peerKnown] using h
  rw [State.peerTarget, unknown]; rfl

/-- A request that fails a test is recorded and answered NAK: nothing else changes. -/
theorem State.peerInbound_nak {s : State} {r : PeerIn} {c : Nat}
    (h : s.peerTarget r = .error c ∨ ∃ va, s.peerTarget r = .ok va ∧ s.peerPlace r va = .error c) :
    ∃ x l, s.peerInbound r = { s with slices := x, m := { s.m with records := l, reply := some (r.modid, .nak c) } } := by
  have recorded (data : RecordData) : ∃ x l,
      (if c = 1 then s.postPf 8 (r.modid + 1024 * r.pslice) else s.postRecord (s.fnOf r.slice) 1 data) =
        { s with slices := x, m := { s.m with records := l } } := by
    split
    · exact s.postPf_whole ..
    · exact s.postRecord_whole ..
  rcases h with target | ⟨va, target, place⟩
  · obtain ⟨x, l, post⟩ := recorded
      { type := 3, code := c, slice := r.slice, va := (s.peerAddr r).getD r.addr.toNat, data := r.modid + 1024 * r.pslice }
    exact ⟨x, l, by unfold State.peerInbound; simp only [target, post]; rfl⟩
  · obtain ⟨x, l, post⟩ := recorded
      { type := 3, code := c, slice := r.slice, va := (s.peerAddr r).getD r.addr.toNat, data := r.modid + 1024 * r.pslice }
    exact ⟨x, l, by unfold State.peerInbound; simp only [target, place, post]; rfl⟩

/-! ## Requests that pass the tests -/

theorem State.peer_proceeds {s : State} {r : PeerIn} {e : TlbEntry} {a : Nat}
    (idle : e.target = 0 → s.placeBusy r.slice a = false ∧ s.placeBusy r.slice (a + r.size - 1) = false) :
    (decide (e.target = 0) && (s.placeBusy r.slice a || s.placeBusy r.slice (a + r.size - 1))) = false := by
  by_cases home : e.target = 0
  · obtain ⟨first, last⟩ := idle home
    rw [first, last]; exact Bool.and_false _
  · rw [decide_eq_false home, Bool.false_and]

section
variable {s : State} {r : PeerIn} {va a : Nat} {e : TlbEntry} (target : s.peerTarget r = .ok va)
  (place : s.peerPlace r va = .ok (e, a))
include target place

theorem State.peerInbound_waits (home : e.target = 0)
    (busy : s.placeBusy r.slice a = true ∨ s.placeBusy r.slice (a + r.size - 1) = true) : s.peerInbound r = s.hold (.peer r) := by
  have waits : (decide (e.target = 0) && (s.placeBusy r.slice a || s.placeBusy r.slice (a + r.size - 1))) = true := by
    simp [home, busy]
  unfold State.peerInbound
  simp only [target, place, waits, if_true]

variable (idle : e.target = 0 → s.placeBusy r.slice a = false ∧ s.placeBusy r.slice (a + r.size - 1) = false)
include idle

/-- An operation that its window holds is answered from there, once more (R183). -/
theorem State.peerInbound_again {v : Nat} (stores : peerStores r = true) (marked : r.wmark ≠ 0)
    (seen : (s.pruneWindows r).window? r.modid r.pslice r.wmark.toNat r.lane = some v) :
    s.peerInbound r = (s.pruneWindows r).answerPeer r ((s.pruneWindows r).peerOk r va v) := by
  have proceeds := State.peer_proceeds idle
  have once : (peerStores r && r.wmark != 0) = true := by rw [stores, bne_iff_ne.mpr marked]; rfl
  unfold State.peerInbound
  simp only [target, place, proceeds, once, Bool.false_eq_true, if_false, if_true, seen]
  rfl

/-- An operation that has no window is performed and answered. -/
theorem State.peerInbound_performs (unmarked : (peerStores r && r.wmark != 0) = false)
    (clean : (if e.target = 0 then (s.pruneWindows r).rangePoison (.home a 0) r.size (!peerReads r) else none) = none) :
    s.peerInbound r = ((s.pruneWindows r).peerPerform r va e a).1.answerPeer r
      ((s.pruneWindows r).peerOk r va ((s.pruneWindows r).peerPerform r va e a).2) := by
  have proceeds := State.peer_proceeds idle
  unfold State.peerInbound
  simp only [target, place, proceeds, unmarked, Bool.false_eq_true, if_false, clean]
  rfl

end

/-! ## What is performed and answered -/

theorem State.peerPerform_load {s : State} {r : PeerIn} (va : Nat) (e : TlbEntry) (a : Nat) (h : r.op = .load) :
    s.peerPerform r va e a = (s, 0) := by
  simp only [State.peerPerform, h]

theorem State.peerPerform_store {s : State} {r : PeerIn} (va : Nat) (e : TlbEntry) (a : Nat) (h : r.op = .store) :
    s.peerPerform r va e a = (s.peerStore r.slice va a e (padTo r.size r.data), 0) := by
  simp only [State.peerPerform, h]

/-- The bytes of the word on which an atomic of a form and a type acts. -/
def atomSize (o x : Nat) : Nat := if o = 18 ∧ x = 3 then 8 else 4

theorem State.peerPerform_atomic {s : State} {r : PeerIn} {o x : Nat} {i : Instr} (va : Nat) {e : TlbEntry} (a : Nat)
    (h : r.op = .atomic o x) (form : atomInstr o x = some i) (home : e.target = 0) : s.peerPerform r va e a =
      let n := atomSize o x
      let old := ofLe (s.memBytes a n)
      (s.peerAtomic e a (leBytes n (atomNew i old (ofLe (r.data.take n)) r.data2.toNat)), old) := by
  have device : ¬ e.target = 1 := by omega
  have size : (if (decide (o = 18) && decide (x = 3)) = true then 8 else 4) = atomSize o x := by
    simp only [Bool.and_eq_true, decide_eq_true_eq, atomSize]
  simp only [State.peerPerform, h, size, form, State.peerRead, device, if_false]

theorem State.peerOk_load {s : State} {r : PeerIn} {va v : Nat} {l : List Byte} (h : r.op = .load)
    (bytes : s.engineRead r.slice 0 va r.size = .ok l) :
    s.peerOk r va v = if r.copy then .bytes l else .ok (BitVec.ofNat 128 (ofLe l)) := by
  simp only [State.peerOk, h, peerStores, State.peerBytes, bytes, Bool.false_eq_true, if_false]

theorem State.peerOk_store {s : State} {r : PeerIn} (va v : Nat) (h : r.op = .store) : s.peerOk r va v = .ok 0 := by
  simp only [State.peerOk, h, peerStores, if_true]

theorem State.peerOk_atomic {s : State} {r : PeerIn} {o x : Nat} (va v : Nat) (h : r.op = .atomic o x) :
    s.peerOk r va v = .ok (BitVec.ofNat 128 v) := by
  simp only [State.peerOk, h]

/-! ## RDMA (R38) -/

/-- The queue pairs of a slice, or of the PF as slice 16. -/
def queuePairs (k : Nat) : Nat := if k = 16 then 256 else 1024

section
variable {s : State} {k qp : Nat}

theorem State.rdma_send {d : List Byte} (h : qp < queuePairs k) : s.rdma k (.send qp d) =
    s.modM (fun m => { m with rdmaSends := m.rdmaSends ++ [(k * 1024 + qp, d)] }) := if_pos h

theorem State.rdma_noQueuePair {a : DWord} {d : List Byte} (h : queuePairs k ≤ qp) : s.rdma k (.write qp a d) = s := by
  refine if_neg ?_
  rw [Bool.and_eq_true, decide_eq_true_eq]
  exact fun both => absurd both.1 (Nat.not_lt.mpr h)

variable {a : DWord} (h : qp < queuePairs k)
include h

theorem State.rdma_write {d : List Byte} (inside : inGlob a.toNat d.length = true) : s.rdma k (.write qp a d) =
    if s.spanBusy k 0 a.toNat d.length then s.hold (.rdma k (.write qp a d)) else (s.engineWrite k 0 a.toNat d).getD s :=
  if_pos (by rw [inside, Bool.and_true]; exact decide_eq_true h)

variable {n : Nat} (inside : inGlob a.toNat n = true)
include inside

theorem State.rdma_read_waits (busy : s.spanBusy k 0 a.toNat n = true) :
    s.rdma k (.read qp a n) = s.hold (.rdma k (.read qp a n)) :=
  (if_pos (by rw [inside, Bool.and_true]; exact decide_eq_true h)).trans (if_pos busy)

theorem State.rdma_read {b : List Byte} (free : s.spanBusy k 0 a.toNat n = false) (clean : s.rdmaPoison k a.toNat n = none)
    (bytes : s.engineRead k 0 a.toNat n = .ok b) :
    s.rdma k (.read qp a n) = s.modM (fun m => { m with ethOut := m.ethOut ++ [(k, qp, b)] }) := by
  have there : (decide (qp < queuePairs k) && inGlob a.toNat n) = true := by rw [inside, Bool.and_true]; exact decide_eq_true h
  refine (if_pos there).trans ?_
  simp only [free, clean, bytes, Bool.false_eq_true, if_false]

end

end Sys2Proof.Machine

namespace Sys2Proof.Safety

open Machine

theorem gives_inboundPeerRequest {r : PeerIn} {s t : State} {post : State → Prop} (h : s.peerInbound r = t) (hp : post t) :
    Gives (.inboundPeerRequest r) s post := ⟨t, congrArg Host.Outcome.next h, hp⟩

theorem gives_rdmaInbound {k : Nat} {r : RdmaOp} {s t : State} {post : State → Prop} (h : s.rdma k r = t) (hp : post t) :
    Gives (.rdmaInbound k r) s post := ⟨t, congrArg Host.Outcome.next h, hp⟩

/-- A refused request is answered NAK, and touches no memory. -/
theorem gives_nak {r : PeerIn} {c : Nat} {s : State}
    (h : s.peerTarget r = .error c ∨ ∃ va, s.peerTarget r = .ok va ∧ s.peerPlace r va = .error c) :
    Gives (.inboundPeerRequest r) s (fun t => t.m.reply = some (r.modid, .nak c) ∧ SameWork s t) := by
  obtain ⟨x, l, refused⟩ := State.peerInbound_nak h
  exact gives_inboundPeerRequest refused ⟨rfl, rfl, rfl, rfl, rfl, rfl⟩

/-- An answer that follows a pruning of the windows changes the module alone. -/
theorem onlyModule_pruned_answer (s : State) (r : PeerIn) (p : PeerResp) : OnlyModule s ((s.pruneWindows r).answerPeer r p) := by
  obtain ⟨l, pruned⟩ := s.pruneWindows_whole r
  rw [pruned]; rfl

/-- Settles O35: a request is refused, waits, is answered again or is performed, and each of these is one equation above for the
state that it reaches. -/
theorem peerRequests : Obligations.PeerRequests := by
  refine ⟨fun r c s refused _ => gives_nak (.inl refused), fun r s unknown => gives_nak (.inl (State.peerTarget_unknown unknown)),
    fun r va c s target refused _ => gives_nak (.inr ⟨va, target, refused⟩),
    fun r va e a s target place home busy => gives_inboundPeerRequest (State.peerInbound_waits target place home busy) rfl,
    fun r va e a l s target place op idle => ?load, fun r va e a u s target place op mark idle => ?store,
    fun r va e a o x i s target place op form mark freed home first last clean atomAt => ?atomic,
    fun r va e a v s target place mark idle => ?again, fun k qp d s _ h => ?send,
    fun k qp a n b s _ h inside free clean bytes => ?read,
    fun k qp a d t s _ h inside free written => ?write, fun k qp a r n s _ h form inside busy => ?waits,
    fun k qp a d s h => congrArg Host.Outcome.next (State.rdma_noQueuePair h)⟩
  case load =>
    intro s0 clean bytes
    have unmarked : (peerStores r && r.wmark != 0) = false := by simp only [peerStores, op, Bool.false_and]
    have reads : peerReads r = true := by simp only [peerReads, op]
    have performed := State.peerInbound_performs target place idle unmarked (by rw [reads]; exact clean)
    rw [State.peerPerform_load va e a op, State.peerOk_load op bytes] at performed
    exact gives_inboundPeerRequest performed ⟨onlyModule_pruned_answer .., rfl⟩
  case store =>
    intro s0 clean written
    have unmarked : (peerStores r && r.wmark != 0) = false := by rw [mark]; exact Bool.and_false _
    have reads : peerReads r = false := by simp only [peerReads, op]
    have performed := State.peerInbound_performs target place idle unmarked (by rw [reads]; exact clean)
    obtain ⟨m, stored⟩ := State.peerStore_keeps (a := a) (e := e) written
    rw [State.peerPerform_store va e a op, State.peerOk_store _ _ op, stored] at performed
    exact gives_inboundPeerRequest performed ⟨rfl, rfl, rfl, rfl⟩
  case atomic =>
    intro n old
    have unmarked : (peerStores r && r.wmark != 0) = false := by rw [mark]; exact Bool.and_false _
    have reads : peerReads r = true := by simp only [peerReads, op]
    have performed := State.peerInbound_performs target place (fun _ => ⟨first, last⟩) unmarked
      (by rw [reads, State.pruneWindows_nothing freed, if_pos home]; exact clean)
    rw [State.pruneWindows_nothing freed, State.peerPerform_atomic va a op form home, State.peerOk_atomic _ _ op] at performed
    obtain ⟨m, put⟩ := State.peerAtomic_home (a := a)
      (l := leBytes n (atomNew i old (ofLe (r.data.take n)) r.data2.toNat)) home atomAt
    refine gives_inboundPeerRequest (performed.trans (congrArg (State.answerPeer · r _) put)) ⟨rfl, rfl, rfl, fun b => ?_⟩
    exact s.memByte_setMem_leBytes a b n _
  case again =>
    intro s0 seen
    refine ⟨fun op => ?_, fun o x op => ?_⟩
    · have answered := State.peerInbound_again target place idle (by simp only [peerStores, op]) mark seen
      rw [State.peerOk_store _ _ op] at answered
      exact gives_inboundPeerRequest answered ⟨onlyModule_pruned_answer .., rfl⟩
    · have answered := State.peerInbound_again target place idle (by simp only [peerStores, op]) mark seen
      rw [State.peerOk_atomic _ _ op] at answered
      exact gives_inboundPeerRequest answered ⟨onlyModule_pruned_answer .., rfl⟩
  case send =>
    exact gives_rdmaInbound (State.rdma_send h) ⟨onlyModule_modM .., rfl⟩
  case read =>
    exact gives_rdmaInbound (State.rdma_read h inside free clean bytes) ⟨onlyModule_modM .., rfl⟩
  case write =>
    refine congrArg Host.Outcome.next ((State.rdma_write h inside).trans ?_)
    rw [free, if_neg Bool.false_ne_true, written]; rfl
  case waits =>
    rcases form with ⟨d, rfl, rfl⟩ | rfl
    · exact gives_rdmaInbound ((State.rdma_write h inside).trans (if_pos busy)) rfl
    · exact gives_rdmaInbound (State.rdma_read_waits h inside busy) rfl

end Sys2Proof.Safety
end

section
/-! SUPPORT. Attestation (R36, R73 to R75, R150): what the reply of a responder does, when a request is answered with an error
or not at all, and the statement Attestation. -/

namespace Sys2Proof.Machine

/-- The answer to a request that the stage or the session does not allow (R150). -/
def State.spdmRefuse (s : State) : State := s.modM (fun m => { m with spdmOut := [0x7F, 4] })

theorem State.spdmIf_nobody {s : State} {fn : Nat} (h : s.doeFn fn = false) (ok : Bool) (t : State) : s.spdmIf fn ok t = s :=
  if_pos (by rw [h]; rfl)

section
variable {s : State} {fn : Nat} (h : s.doeFn fn = true)
include h

theorem State.spdmIf_eq (ok : Bool) (t : State) : s.spdmIf fn ok t = if ok then t else s.spdmRefuse :=
  if_neg (by rw [h]; decide)

theorem State.spdmIf_allowed {ok : Bool} (t : State) (allowed : ok = true) : s.spdmIf fn ok t = t :=
  (State.spdmIf_eq h ok t).trans (if_pos allowed)

theorem State.spdmIf_refused {ok : Bool} (t : State) (refused : ok = false) : s.spdmIf fn ok t = s.spdmRefuse :=
  (State.spdmIf_eq h ok t).trans (if_neg (by rw [refused]; decide))

end

/-- A slice whose responder has put an answer into its transcript. -/
def Slice.heard (x : Slice) (code : Nat) (l : List Byte) : Slice :=
  { x with transcript := x.transcript ++ [BitVec.ofNat 8 code] ++ l }

theorem State.spdmReply_slice (s : State) (fn code : Nat) (l : List Byte) :
    (s.spdmReply fn code l).slice (fnSlice fn) = (s.slice (fnSlice fn)).heard code l :=
  State.modSlice_slice_self s (fnSlice fn) (fun x => x.heard code l)

end Sys2Proof.Machine

namespace Sys2Proof.Safety

open Machine

/-! ## What a request gives -/

/-- A request that is refused is answered with an error, and changes the answer alone. -/
theorem gives_refused {i : Instr} {s : State} (h : exec i s = .next s.spdmRefuse) :
    Gives i s (fun t => OnlyModule s t ∧ t.m = { s.m with spdmOut := [0x7F, 4] }) := ⟨_, h, rfl, rfl⟩

/-- A request that changes the slice of its function and is then answered. -/
theorem gives_modSlice_reply {i : Instr} {s : State} {fn code : Nat} {f : Slice → Slice} {l : List Byte} {post : State → Prop}
    (h : exec i s = .next ((s.modSlice (fnSlice fn) f).spdmReply fn code l))
    (hp : ∀ t, t.slice (fnSlice fn) = (f (s.slice (fnSlice fn))).heard code l → t.m = { s.m with spdmOut := l } →
      SameWork s t → post t) : Gives i s post := by
  refine ⟨_, h, hp _ ?_ rfl ⟨rfl, rfl, rfl, rfl, rfl⟩⟩
  rw [State.spdmReply_slice, State.modSlice_slice_self]

/-- A request that is answered, and changes nothing else but the transcript. -/
theorem gives_reply {i : Instr} {s : State} {fn code : Nat} {l : List Byte} {post : State → Prop}
    (h : exec i s = .next (s.spdmReply fn code l))
    (hp : ∀ t, t.slice (fnSlice fn) = (s.slice (fnSlice fn)).heard code l → t.m = { s.m with spdmOut := l } →
      SameWork s t → post t) : Gives i s post :=
  ⟨_, h, hp _ (State.spdmReply_slice ..) rfl ⟨rfl, rfl, rfl, rfl, rfl⟩⟩

section
variable {fn : Nat} {s : State} (doe : s.doeFn fn = true)
include doe

/-- Before GET_VERSION a responder refuses every request but that one (R73). -/
theorem gives_refused_before_version (none_yet : (s.slice (fnSlice fn)).spdm = 0) {i : Instr}
    (hi : i = .getCapabilities fn ∨ i = .negotiateAlgorithms fn ∨ i = .getDigests fn ∨ (∃ a b c, i = .getCertificate fn a b c) ∨
      (∃ a b, i = .spdmChallenge fn a b) ∨ (∃ a, i = .getMeasurements fn a) ∨ (∃ a b, i = .keyExchange fn a b) ∨
      i = .spdmFinish fn) : Gives i s (fun t => OnlyModule s t ∧ t.m = { s.m with spdmOut := [0x7F, 4] }) := by
  have early {n : Nat} (hn : 1 ≤ n) : decide (n ≤ s.stage fn) = false := decide_eq_false (by rw [State.stage, none_yet]; omega)
  have early_slot (slot : Nat) : (decide (3 ≤ s.stage fn) && slot == 0) = false := by rw [early (by decide)]; rfl
  refine gives_refused ?_
  rcases hi with rfl | rfl | rfl | ⟨a, b, c, rfl⟩ | ⟨a, b, rfl⟩ | ⟨a, rfl⟩ | ⟨a, b, rfl⟩ | rfl
  · exact congrArg Host.Outcome.next (State.spdmIf_refused doe _ (early (by decide)))
  · exact congrArg Host.Outcome.next (State.spdmIf_refused doe _ (early (by decide)))
  · exact congrArg Host.Outcome.next (State.spdmIf_refused doe _ (early (by decide)))
  · exact congrArg Host.Outcome.next (State.spdmIf_refused doe _ (early_slot a))
  · exact congrArg Host.Outcome.next (State.spdmIf_refused doe _ (early_slot a))
  · show execGetMeasurements fn a s = _
    unfold execGetMeasurements
    split
    · exact congrArg Host.Outcome.next (State.spdmIf_refused doe _ (early (by decide)))
    · exact congrArg Host.Outcome.next (State.spdmIf_refused doe _ rfl)
  · exact congrArg Host.Outcome.next (State.spdmIf_refused doe _ (early_slot a))
  · have unmet : (s.stage fn == 4) = false := by rw [State.stage, none_yet]; rfl
    exact congrArg Host.Outcome.next (State.spdmIf_refused doe _ unmet)

/-- A challenge is answered with a signature over the transcript and the nonce (R73). -/
theorem exec_spdmChallenge (agreed : 3 ≤ (s.slice (fnSlice fn)).spdm) (nonce : List Byte) :
    exec (.spdmChallenge fn 0 nonce) s = .next (s.spdmReply fn 0x83 (s.transcriptSign fn nonce)) := by
  have allowed : (decide (3 ≤ s.stage fn) && 0 == 0) = true := by rw [State.stage, decide_eq_true agreed]; rfl
  exact congrArg Host.Outcome.next (State.spdmIf_allowed doe _ allowed)

/-- A measurement is signed with what the transcript held before it (R73, R74). -/
theorem exec_getMeasurements {k : Nat} {l : List Byte} (agreed : 3 ≤ (s.slice (fnSlice fn)).spdm)
    (measured : s.measure fn k = some l) : exec (.getMeasurements fn k) s = .next (s.spdmReply fn 0xE0 (l ++ s.transcriptSign fn l)) := by
  show execGetMeasurements fn k s = _
  simp only [execGetMeasurements, measured]
  exact congrArg Host.Outcome.next (State.spdmIf_allowed doe _ (decide_eq_true agreed))

variable {b : List Byte} (inside : (fn != 0 && (s.slice (fnSlice fn)).session) = true)
include inside

/-- A slice's key leaves its module in a session alone (R150). -/
theorem exec_getExportKey {k : Nat} (code : field b 0 1 = 1) (key : (s.slice (fnSlice fn)).exportKey = some k) :
    exec (.getExportKey fn b) s = .next (s.spdmReply fn 0x7E (keyReply 1 0 k (s.slice (fnSlice fn)).exportLen)) := by
  refine congrArg Host.Outcome.next ((State.spdmIf_allowed doe _ inside).trans ?_)
  simp only [code, key, bne_self_eq_false, Bool.false_eq_true, if_false]

/-- A slice in CONFIG takes a key of 32 bytes (R150). -/
theorem exec_setImportKey (code : field b 0 1 = 2) (len : b.length = 36)
    (state : (s.slice (fnSlice fn)).st = .config ∨ (s.slice (fnSlice fn)).st = .activating) :
    exec (.setImportKey fn b) s = .next ((s.modSlice (fnSlice fn) (fun x =>
      { x with importKey := some (field b 4 32) })).spdmReply fn 0x7E (keyReply 2 0 0 0)) := by
  refine congrArg Host.Outcome.next ((State.spdmIf_allowed doe _ inside).trans ?_)
  have accepts : (!((s.slice (fnSlice fn)).st == .config || (s.slice (fnSlice fn)).st == .activating ||
      ((s.slice (fnSlice fn)).st == .active && (s.slice (fnSlice fn)).quiesced && (s.slice (fnSlice fn)).exportKey.isSome))) =
      false := by
    rcases state with st | st <;> rw [st] <;> rfl
  simp only [code, len, accepts, bne_self_eq_false, Bool.false_eq_true, if_false]

end

/-- Settles O39: each request is allowed, refused or not answered by one test, and its reply changes the slice of its function, the
transcript and the answer. -/
theorem attestation : Obligations.Attestation := by
  refine ⟨fun fn s doe => ?version, fun fn s nobody => ?nobody,
    fun fn s doe none_yet i hi => gives_refused_before_version doe none_yet hi,
    fun fn s doe stage => ?capabilities, fun fn s doe stage => ?algorithms, fun fn s doe stage => ?negotiated,
    fun fn s doe stage => ?finish, fun fn s doe session => ?secured, fun fn s doe session => ?unsecured,
    fun fn s vf doe session => ?tdi⟩
  case version =>
    exact gives_modSlice_reply (congrArg Host.Outcome.next (State.spdmIf_allowed doe _ rfl)) fun t ht m work =>
      ⟨congrArg Slice.spdm ht, congrArg Slice.session ht, congrArg Module.spdmOut m, work⟩
  case nobody =>
    refine ⟨?_, ?_, ?_, ?_, ?_, ?_, ?_⟩ <;> exact congrArg Host.Outcome.next (State.spdmIf_nobody nobody _ _)
  case capabilities =>
    exact gives_modSlice_reply (congrArg Host.Outcome.next (State.spdmIf_allowed doe _ (decide_eq_true stage))) fun t ht _ work =>
      ⟨congrArg Slice.spdm ht, work⟩
  case algorithms =>
    exact gives_modSlice_reply (congrArg Host.Outcome.next (State.spdmIf_allowed doe _ (decide_eq_true stage))) fun t ht m work =>
      ⟨congrArg Slice.spdm ht, congrArg Module.spdmOut m, work⟩
  case negotiated =>
    have allowed : decide (3 ≤ s.stage fn) = true := decide_eq_true stage
    have allowed_slot : (decide (3 ≤ s.stage fn) && 0 == 0) = true := by rw [allowed]; rfl
    refine ⟨?_, fun off len => ?_, fun n => ?_, fun k l measured => ?_, fun b => ?_⟩
    · exact gives_reply (congrArg Host.Outcome.next (State.spdmIf_allowed doe _ allowed)) fun t _ m work =>
        ⟨congrArg Module.spdmOut m, work⟩
    · exact gives_reply (congrArg Host.Outcome.next (State.spdmIf_allowed doe _ allowed_slot)) fun t _ m work =>
        ⟨congrArg Module.spdmOut m, work⟩
    · exact gives_reply (exec_spdmChallenge doe stage n) fun t _ m work => ⟨by rw [m], work⟩
    · exact gives_reply (exec_getMeasurements doe stage measured) fun t _ m work => ⟨congrArg Module.spdmOut m, work⟩
    · exact gives_modSlice_reply (congrArg Host.Outcome.next (State.spdmIf_allowed doe _ allowed_slot)) fun t ht _ work =>
        ⟨congrArg Slice.spdm ht, work⟩
  case finish =>
    have begun : (s.stage fn == 4) = true := beq_iff_eq.mpr stage
    exact gives_modSlice_reply (congrArg Host.Outcome.next (State.spdmIf_allowed doe _ begun)) fun t ht _ work =>
      ⟨congrArg Slice.session ht, work⟩
  case secured =>
    refine ⟨?_, ?_, fun b => ?_⟩
    · exact gives_reply (congrArg Host.Outcome.next (State.spdmIf_allowed doe _ session)) fun t ht _ work =>
        ⟨(congrArg Slice.session ht).trans session, work⟩
    · exact gives_modSlice_reply (congrArg Host.Outcome.next (State.spdmIf_allowed doe _ session)) fun t ht _ work =>
        ⟨congrArg Slice.session ht, work⟩
    · exact gives_reply (congrArg Host.Outcome.next (State.spdmIf_allowed doe _ session)) fun t _ m work =>
        ⟨congrArg Module.spdmOut m, work⟩
  case unsecured =>
    have outside : (fn != 0 && (s.slice (fnSlice fn)).session) = false := by rw [session, Bool.and_false]
    refine ⟨fun b => ?_, fun b => ?_, fun b => ?_, fun m => ?_⟩
    · exact ⟨_, congrArg Host.Outcome.next (State.spdmIf_refused doe _ session), rfl, rfl⟩
    · exact ⟨_, congrArg Host.Outcome.next (State.spdmIf_refused doe _ outside), rfl, rfl⟩
    · exact ⟨_, congrArg Host.Outcome.next (State.spdmIf_refused doe _ outside), rfl, rfl⟩
    · exact ⟨_, congrArg Host.Outcome.next (State.spdmIf_refused doe _ outside), rfl, rfl⟩
  case tdi =>
    have inside : (fn != 0 && (s.slice (fnSlice fn)).session) = true := by rw [bne_iff_ne.mpr vf, session]; rfl
    refine ⟨fun tdi => ?_, fun tdi => ?_, ?_, fun b k code key => ?_, fun b code len state => ?_⟩
    · have locks := (State.spdmIf_allowed doe (s.tdisp fn .lockInterface) inside).trans (if_pos (beq_iff_eq.mpr tdi))
      exact gives_modSlice_reply (congrArg Host.Outcome.next locks) fun t ht _ work => ⟨congrArg Slice.tdi ht, work⟩
    · have starts := (State.spdmIf_allowed doe (s.tdisp fn .startInterface) inside).trans (if_pos (beq_iff_eq.mpr tdi))
      exact gives_modSlice_reply (congrArg Host.Outcome.next starts) fun t ht _ work => ⟨congrArg Slice.tdi ht, work⟩
    · exact gives_reply (congrArg Host.Outcome.next (State.spdmIf_allowed doe (s.tdisp fn .getState) inside)) fun t _ m work =>
        ⟨congrArg Module.spdmOut m, work⟩
    · exact gives_reply (exec_getExportKey doe inside code key) fun t _ m work => ⟨congrArg Module.spdmOut m, work⟩
    · exact gives_modSlice_reply (exec_setImportKey doe inside code len state) fun t ht _ work =>
        ⟨congrArg Slice.importKey ht, work⟩

end Sys2Proof.Safety
end

section
/-! SUPPORT. What discarding the work of a slice leaves as it was (R70, R71, R103): the registers of the module that no work and no
reset of a slice changes. -/

namespace Sys2Proof.Machine

/-- The module but for the requests and records on their way, the windows of the homes, marks of poison, homes of atomics, accesses
that wait, the PF's energy, the state of OWNCMD and the count of keys. -/
def State.steady (s : State) : Module :=
  { s.m with
    peers := [], nextPeer := 0, records := [], windows := [], poison := [], badWords := [], atomAt := [], objWaits := [],
    energyPf := 0, ownBusy := false, ownJob := none, ownRes := 0, ownOwner := 0, keys := 0 }

/-- What every step of a pass keeps, the pass keeps. -/
theorem foldl_keeps {α β σ : Type} (π : σ → β) {f : σ → α → σ} (h : ∀ s a, π (f s a) = π s) (l : List α) (s : σ) :
    π (l.foldl f s) = π s := by
  induction l generalizing s with
  | nil => rfl
  | cons a l ih => exact (ih (f s a)).trans (h s a)

theorem State.steady_ite {c : Prop} [Decidable c] {s t u : State} (ht : t.steady = s.steady) (hu : u.steady = s.steady) :
    (if c then t else u).steady = s.steady := by
  split <;> assumption

namespace State

variable (s : State)

/-! ## Parts of the state -/

@[simp] theorem steady_modDie (d : Nat) (f : Die → Die) : (s.modDie d f).steady = s.steady := rfl
@[simp] theorem steady_modCore (c : Nat) (f : Core → Core) : (s.modCore c f).steady = s.steady := rfl
@[simp] theorem steady_modSlice (t : Nat) (f : Slice → Slice) : (s.modSlice t f).steady = s.steady := rfl
@[simp] theorem steady_setMem (a : Nat) (l : List Byte) : (s.setMem a l).steady = s.steady := rfl
@[simp] theorem steady_setHost (a : Nat) (l : List Byte) : (s.setHost a l).steady = s.steady := rfl
@[simp] theorem steady_clearBad (p : ErrSite → Bool) : (s.clearBad p).steady = s.steady := rfl
@[simp] theorem steady_markBad (w : ErrSite) : (s.markBad w).steady = s.steady := rfl
@[simp] theorem steady_objWait (w : ObjWait) : (s.objWait w).steady = s.steady := rfl
@[simp] theorem steady_drawKey (t : Nat) : (s.drawKey t).steady = s.steady := rfl
@[simp] theorem steady_dropDebt (t : Nat) : (s.dropDebt t).steady = s.steady := rfl
@[simp] theorem steady_dropEmptyWgs (c : Nat) : (s.dropEmptyWgs c).steady = s.steady := rfl

theorem steady_scratch (spad : List Host.Cell) (tile : Tbl Word) :
    ({ s with spad := spad, tile := tile } : State).steady = s.steady := rfl

@[simp] theorem steady_postRecord (fn ring : Nat) (r : RecordData) : (s.postRecord fn ring r).steady = s.steady := by
  obtain ⟨x, l, h⟩ := s.postRecord_whole fn ring r
  rw [h]; rfl

@[simp] theorem steady_objLost (t src object addr : Nat) : (s.objLost t src object addr).steady = s.steady := steady_postRecord ..

/-! ## Bytes that an engine or an L1 writes -/

@[simp] theorem steady_unpoison (a n : Nat) : (s.unpoison a n).steady = s.steady := steady_ite rfl rfl

@[simp] theorem steady_publishBytes (a : Nat) (l : List Byte) : (s.publishBytes a l).steady = s.steady := steady_unpoison ..

theorem steady_of_engineBytes {s u : State} {t die va : Nat} {l : List Byte} (h : s.engineBytes t die va l = some u) :
    u.steady = s.steady := by
  induction l generalizing s va with
  | nil => cases h; rfl
  | cons b l ih =>
    unfold State.engineBytes at h
    split at h
    · cases h
    · split at h
      · exact (ih h).trans (steady_publishBytes ..)
      · split at h
        · exact (ih h).trans (steady_setHost ..)
        · cases h

@[simp] theorem steady_writeMarks (t : Nat) (as : List Nat) : (s.writeMarks t as).steady = s.steady := by
  unfold State.writeMarks
  dsimp only
  split <;> rfl

theorem steady_of_engineWrite {s u : State} {t die va : Nat} {l : List Byte} (h : s.engineWrite t die va l = some u) :
    u.steady = s.steady := by
  obtain ⟨w, bytes, rfl⟩ := Option.map_eq_some_iff.mp h
  have written := steady_of_engineBytes bytes
  exact steady_ite written ((steady_writeMarks ..).trans written)

/-- A write that may fail, with what is done then. -/
theorem steady_engineWrite_getD {s v : State} (t die va : Nat) (l : List Byte) (h : v.steady = s.steady) :
    ((s.engineWrite t die va l).getD v).steady = s.steady := by
  cases written : s.engineWrite t die va l with
  | none => exact h
  | some u => exact steady_of_engineWrite written

@[simp] theorem steady_markOperand (c o n : Nat) : (s.markOperand c o n).steady = s.steady := steady_ite rfl rfl

@[simp] theorem steady_setArrival (c o : Nat) (b : Bool) (a : Arrival) : (s.setArrival c o b a).steady = s.steady :=
  steady_ite (steady_markOperand ..) (steady_markOperand ..)

@[simp] theorem steady_ownedByte (t pa : Nat) (v : Byte) : (s.ownedByte t pa v).steady = s.steady := steady_ite rfl rfl

@[simp] theorem steady_moveMarks (l : Line) (p : LByte → Bool) : (s.moveMarks l p).steady = s.steady :=
  foldl_keeps steady (fun _ _ => by exact steady_ite rfl rfl) ..

@[simp] theorem steady_copyOut (pa : Nat) (b : LByte) (bad : Bool) : (s.copyOut pa b bad).steady = s.steady :=
  foldl_keeps steady (fun _ _ => by exact steady_ite rfl rfl) ..

@[simp] theorem steady_spill (l : Line) : (s.spill l).steady = s.steady := by
  refine (foldl_keeps steady (fun t e => ?_) ..).trans (steady_ite (steady_moveMarks ..) rfl)
  exact steady_ite (steady_ite (steady_ownedByte ..) (steady_copyOut ..)) rfl

@[simp] theorem steady_flushL1 (c : Nat) : (s.flushL1 c).steady = s.steady :=
  (steady_modCore ..).trans (foldl_keeps steady steady_spill ..)

/-! ## Counters, copies and collectives -/

@[simp] theorem steady_counterAdd (t die ctx addr n src : Nat) : (s.counterAdd t die ctx addr n src).steady = s.steady := by
  refine steady_ite rfl (steady_ite (steady_objWait ..) ?_)
  dsimp only
  split
  · exact steady_objLost ..
  · exact steady_engineWrite_getD _ _ _ _ (steady_objLost ..)

@[simp] theorem steady_counterError (t die addr word src : Nat) : (s.counterError t die addr word src).steady = s.steady := by
  refine steady_ite rfl (steady_ite (steady_objWait ..) ?_)
  split
  · exact steady_objLost ..
  · exact steady_ite rfl (steady_engineWrite_getD _ _ _ _ (steady_objLost ..))

@[simp] theorem steady_modArrive (t w : Nat) (b : Bool) (f : Arrival → Arrival) : (s.modArrive t w b f).steady = s.steady := by
  unfold State.modArrive
  split
  · rfl
  · exact steady_ite rfl (steady_setArrival ..)

@[simp] theorem steady_dropCopy (die e id : Nat) : (s.dropCopy die e id).steady = s.steady := rfl

@[simp] theorem steady_syncFrame (gid : Nat) : (s.syncFrame gid).steady = s.steady := by
  unfold State.syncFrame
  split
  · rfl
  · split
    · dsimp only
      split
      · rfl
      next written =>
        exact (steady_engineWrite_getD _ _ _ _ rfl).trans (steady_of_engineWrite written)
    · rfl

@[simp] theorem steady_freeEntry (gid id : Nat) : (s.freeEntry gid id).steady = s.steady := steady_syncFrame ..
@[simp] theorem steady_modEntry (gid id : Nat) (f : Entry → Entry) : (s.modEntry gid id f).steady = s.steady := steady_syncFrame ..

@[simp] theorem steady_failEntry (gid id cause info : Nat) (lanes : Word) (addr : DWord) :
    (s.failEntry gid id cause info lanes addr).steady = s.steady := steady_modEntry ..

@[simp] theorem steady_settleEntry (who stopped : Option (Nat × Nat)) (prog : Nat) (addr : DWord) :
    (s.settleEntry who stopped prog addr).steady = s.steady := by
  unfold State.settleEntry
  split
  · rfl
  · split
    · rfl
    · split
      · rfl
      · split
        · exact steady_freeEntry ..
        · exact steady_ite (steady_freeEntry ..) (by simp only [steady_failEntry, steady_modEntry])

@[simp] theorem steady_packetDone (t : Nat) (q : Option Nat) (num : Nat) : (s.packetDone t q num).steady = s.steady := by
  cases q <;> rfl

@[simp] theorem steady_finishCopy (die e : Nat) (j : CopyJob) : (s.finishCopy die e j).steady = s.steady := by
  unfold State.finishCopy
  cases j.stopped <;> simp

@[simp] theorem steady_stopCopy (die e : Nat) (j : CopyJob) (cause nak : Nat) (addr : DWord) :
    (s.stopCopy die e j cause nak addr).steady = s.steady := steady_ite (steady_finishCopy ..) rfl

@[simp] theorem steady_finishColl (die : Nat) (j : CollJob) : (s.finishColl die j).steady = s.steady := by
  unfold State.finishColl
  cases j.stopped <;> cases j.gid <;> simp

@[simp] theorem steady_stopColl (die : Nat) (j : CollJob) (cause nak : Nat) : (s.stopColl die j cause nak).steady = s.steady :=
  steady_finishColl ..

/-! ## A group that is discarded -/

@[simp] theorem steady_finishI2 (gid : Nat) (g : Group) : (s.finishI2 gid g).steady = s.steady := by
  refine foldl_keeps steady (fun t e => foldl_keeps steady (fun u a => ?_) ..) ..
  split
  · exact steady_ite rfl rfl
  · exact steady_ite rfl rfl
  · rfl

@[simp] theorem steady_stopJobsOf (gid cause : Nat) : (s.stopJobsOf gid cause).steady = s.steady := by
  refine foldl_keeps steady (fun t d => (foldl_keeps steady (fun u j => ?coll) ..).trans
    (foldl_keeps steady (fun u x => foldl_keeps steady (fun v j => ?copy) ..) ..)) ..
  case coll =>
    split
    · exact steady_ite (steady_stopColl ..) rfl
    · rfl
  case copy =>
    split
    · exact steady_ite (steady_stopCopy ..) rfl
    · rfl

@[simp] theorem steady_publishCopies (d gid : Nat) (p : Nat → Bool) : (s.publishCopies d gid p).steady = s.steady := by
  refine (steady_modDie ..).trans (foldl_keeps steady (fun t e => ?_) ..)
  exact steady_ite (steady_ite ((steady_markBad ..).trans (steady_ownedByte ..)) (steady_ownedByte ..)) rfl

@[simp] theorem steady_publishLines (c gid : Nat) (p : Nat → Bool) : (s.publishLines c gid p).steady = s.steady := by
  refine (steady_modCore ..).trans (foldl_keeps steady (fun t l => ?_) ..)
  refine steady_ite rfl ((foldl_keeps steady (fun u e => ?_) ..).trans (steady_moveMarks ..))
  exact steady_ite (steady_ownedByte ..) rfl

@[simp] theorem steady_publishIf (gid : Nat) (p : Nat → Bool) : (s.publishIf gid p).steady = s.steady :=
  (foldl_keeps steady (fun t c => t.steady_publishLines c gid p) ..).trans
    (foldl_keeps steady (fun t d => t.steady_publishCopies d gid p) ..)

@[simp] theorem steady_withdraw (gid : Nat) : (s.withdraw gid).steady = s.steady :=
  (foldl_keeps steady (fun _ _ => by rfl) ..).trans (foldl_keeps steady (fun _ _ => by rfl) ..)

@[simp] theorem steady_forget (owner : Nat) (l : List Entry) : (s.forget owner l).steady = s.steady :=
  foldl_keeps steady (fun _ _ => by rfl) ..

@[simp] theorem steady_dropPrivate (gid : Nat) (back : Bool) : (s.dropPrivate gid back).steady = s.steady := by
  refine foldl_keeps steady (fun t c => (steady_modCore ..).trans ?_) ..
  exact steady_ite (foldl_keeps steady steady_spill ..) rfl

@[simp] theorem steady_settle (d : Nat) : (s.settle d).steady = s.steady := by
  refine (steady_modDie ..).trans (steady_ite rfl (foldl_keeps steady (fun _ _ => by rfl) ..))

@[simp] theorem steady_watchClaims (d : Nat) : (s.watchClaims d).steady = s.steady :=
  (steady_modDie ..).trans (steady_ite rfl (steady_settle ..))

@[simp] theorem steady_discardGroup (gid cause : Nat) : (s.discardGroup gid cause).steady = s.steady := by
  unfold State.discardGroup
  split
  · rfl
  next g _ =>
    refine (steady_watchClaims ..).trans ((steady_dropEmptyWgs ..).trans ?_)
    show (State.dropPrivate _ gid false).steady = _
    simp only [steady_dropPrivate, steady_forget, steady_withdraw, steady_publishIf, steady_stopJobsOf, steady_finishI2]

/-! ## A slice whose work is dropped -/

@[simp] theorem steady_launchError (t : Nat) (l : Launch) (cause : Nat) : (s.launchError t l cause).steady = s.steady :=
  steady_counterError ..

@[simp] theorem steady_undefRange (t die va n : Nat) : (s.undefRange t die va n).steady = s.steady :=
  foldl_keeps steady (fun _ _ => steady_engineWrite_getD _ _ _ _ rfl) ..

@[simp] theorem steady_retainCounts (c owner : Nat) : (s.retainCounts c owner).steady = s.steady :=
  steady_ite rfl (steady_ite rfl rfl)

@[simp] theorem steady_scrubCore (c owner : Nat) : (s.scrubCore c owner).steady = s.steady :=
  (steady_modCore ..).trans ((steady_clearBad ..).trans ((steady_scratch ..).trans
    ((steady_flushL1 ..).trans (steady_retainCounts ..))))

/-- Dropping the work of a slice leaves these registers (R70, R103). -/
@[simp] theorem steady_dropWork (t cause : Nat) : (s.dropWork t cause).steady = s.steady := by
  unfold State.dropWork
  simp only [steady_modSlice]
  refine (foldl_keeps steady (fun u c => ?scrub) ..).trans ((foldl_keeps steady (fun u d => ?range) ..).trans
    ((foldl_keeps steady (fun u e => ?launch) ..).trans ((foldl_keeps steady (fun u p => ?packet) ..).trans
      ((foldl_keeps steady (fun u d => ?jobs) ..).trans (foldl_keeps steady (fun u e => ?group) ..)))))
  case group => exact steady_discardGroup ..
  case packet => exact steady_ite (steady_counterError ..) rfl
  case launch => exact steady_ite rfl (steady_launchError ..)
  case range => exact foldl_keeps steady (fun v r => v.steady_undefRange ..) ..
  case scrub => exact (steady_scrubCore ..).trans (steady_modCore ..)
  case jobs =>
    refine (steady_modDie ..).trans ((foldl_keeps steady (fun v j => ?coll) ..).trans
      (foldl_keeps steady (fun v e => foldl_keeps steady (fun w j => ?copy) ..) ..))
    case coll => exact steady_ite (steady_counterError ..) rfl
    case copy => exact steady_ite ((steady_dropCopy ..).trans (steady_counterError ..)) rfl

/-! ## A slice that is reset -/

@[simp] theorem steady_garble (f : Nat) : (s.garble f).steady = s.steady := steady_setMem ..

theorem steady_drawn (n : Nat) : ({ s with free := n } : State).steady = s.steady := rfl

/-- A key drawn afresh, and frames that become unreadable (R71). -/
@[simp] theorem steady_regenerate (t : Nat) : (s.regenerate t).steady = s.steady := by
  refine steady_ite ((steady_drawn ..).trans ?_) rfl
  exact (foldl_keeps steady steady_garble ..).trans (steady_drawKey ..)

@[simp] theorem steady_setOwner (f o : Nat) : (s.setOwner f o).steady = s.steady := steady_setMem ..

@[simp] theorem steady_zeroFrame (f : Nat) : (s.zeroFrame f).steady = s.steady := steady_ite rfl rfl

@[simp] theorem steady_dropOwners (f : Nat) : (s.dropOwners f).steady = s.steady := rfl

@[simp] theorem steady_ownEffect (j : OwnJob) : (s.ownEffect j).steady = s.steady := by
  unfold State.ownEffect
  split
  · exact (steady_setOwner ..).trans (steady_zeroFrame ..)
  · exact steady_setOwner ..
  · exact (steady_setOwner ..).trans (steady_zeroFrame ..)
  · rfl

theorem steady_ownDone (res f : Nat) : (s.ownDone res f).steady = s.steady := rfl

theorem steady_ownIdle : (s.modM (fun m => { m with ownBusy := false, ownJob := none })).steady = s.steady := rfl

/-- The end of an OWNCMD (R65). -/
@[simp] theorem steady_ownFinish : s.ownFinish.steady = s.steady := by
  unfold State.ownFinish
  split
  · rfl
  · exact (steady_ownDone ..).trans ((steady_ownIdle _).trans ((steady_dropOwners ..).trans (steady_ownEffect ..)))

end State

end Sys2Proof.Machine
end

section
/-! SUPPORT. Function-level resets, VFs, module reset and FWLOAD (R36, R61, R70 to R72, R76 to R78): what each reset does to its slice
and to the module, what FWLOAD answers, and the statement Resets. -/

namespace Sys2Proof.Machine

/-! ## Function-level reset (R70, R72) -/

/-- A slice whose function-level reset has begun. -/
def Slice.underReset (x : Slice) (now : Nat) : Slice :=
  { x.forget with st := .resetting, dissolving := false, killing := false, importKey := none, busyEnd := now + 1000000 }

namespace State

/-- The state in which a reset drops the work of a slice: an OWNCMD on one of its frames is finished first. -/
def ownSettled (s : State) (t : Nat) : State :=
  match s.m.ownJob with
  | some j => if s.owner j.frame = t || j.owner = t then s.ownFinish else s
  | none => s

theorem steady_ownSettled (s : State) (t : Nat) : (s.ownSettled t).steady = s.steady := by
  unfold ownSettled
  split
  · exact steady_ite (steady_ownFinish s) rfl
  · rfl

section
variable {s : State} {t : Nat}

/-- A reset in progress absorbs another. -/
theorem startFlr_absorbed (st : (s.slice t).st = .resetting) (flr : (s.slice t).dissolving = false) : s.startFlr t = s := by
  refine if_pos ?_
  rw [st, flr]; rfl

/-- A slice that is FREE or being dissolved has its TDI unlocked at once (log 42). -/
theorem startFlr_idle (h : (s.slice t).st = .free ∨ ((s.slice t).st = .resetting ∧ (s.slice t).dissolving = true))
    (job : s.m.ownJob = none) : s.startFlr t =
      s.modSlice t (fun x => { x with tdi := .configUnlocked, session := false, importKey := none }) := by
  rcases h with st | ⟨st, dissolving⟩
  · simp [startFlr, st, job]
  · simp [startFlr, st, dissolving, job]

/-- A slice with work loses it and is RESETTING; the registers of the module stay. -/
theorem startFlr_begins (resetting : (s.slice t).st ≠ .resetting) (free : (s.slice t).st ≠ .free) :
    ∃ u : State, u.steady = s.steady ∧ s.startFlr t = u.modSlice t (fun x => x.underReset s.cycle) := by
  refine ⟨(((s.ownSettled t).dropWork t 1).dropDebt t).regenerate t, ?_, ?_⟩
  · rw [steady_regenerate, steady_dropDebt, steady_dropWork, steady_ownSettled]
  · have begins : ((s.slice t).st == .resetting && !(s.slice t).dissolving) = false := by
      rw [beq_eq_false_iff_ne.mpr resetting, Bool.false_and]
    have works : ((s.slice t).st == .free || (s.slice t).st == .resetting) = false := by
      rw [beq_eq_false_iff_ne.mpr free, beq_eq_false_iff_ne.mpr resetting]; rfl
    unfold startFlr
    simp only [begins, works, Bool.false_eq_true, if_false]
    rfl

theorem endFlr_resetting (st : (s.slice t).st = .resetting) (flr : (s.slice t).dissolving = false) :
    s.endFlr t = s.modSlice t (fun _ => { s.slice t with st := .config, tdi := .configUnlocked, busyEnd := 0 }) := by
  have ends : ((s.slice t).st == .resetting && !(s.slice t).dissolving) = true := by rw [st, flr]; rfl
  simp only [endFlr, modSlice, ends, if_true]

/-- VF Enable begins to be cleared, with the first VF (R72). -/
def clearVfs (s : State) : State := s.modM (fun m => { m with vfClear := 1 })

theorem clearVfs_slice (s : State) (t : Nat) : s.clearVfs.slice t = s.slice t := rfl
theorem clearVfs_numVfs (s : State) : s.clearVfs.m.numVfs = s.m.numVfs := rfl

/-- With every VF reset, VF Enable is cleared (R72). -/
theorem nextVfReset_over {n : Nat} (begun : s.m.vfClear ≠ 0) (done : s.m.numVfs < s.m.vfClear) :
    s.nextVfReset (n + 1) = s.modM (fun m => { m with vfEnabled := false, vfClear := 0 }) := by
  simp only [nextVfReset, begun, done, if_false, if_true]

/-- The reset of a VF whose slice has work is waited for (R72). -/
theorem nextVfReset_begins {n vf : Nat} (begun : s.m.vfClear = vf + 1) (more : vf + 1 ≤ s.m.numVfs)
    (resetting : (s.slice vf).st ≠ .resetting) (free : (s.slice vf).st ≠ .free) : s.nextVfReset (n + 1) = s.startFlr vf := by
  obtain ⟨u, -, begins⟩ := startFlr_begins resetting free
  have under : (((s.startFlr vf).slice vf).st == .resetting && !((s.startFlr vf).slice vf).dissolving) = true := by
    rw [begins, modSlice_slice_self]; rfl
  simp only [nextVfReset, begun, Nat.not_lt.mpr more, Nat.add_sub_cancel, under, Nat.succ_ne_zero, if_false, if_true]

end

end State

/-! ## Module reset and firmware (R76 to R78) -/

namespace State

/-- A module reset ends in recovery when flash holds no whole image, or one that the boot ROM does not accept (R77). -/
theorem moduleReset_recovery (s : State) :
    s.moduleReset.m.recovery = (s.m.erased || !s.imageOk (s.m.flash.getD Config.bootImage)) := by
  show (!(!s.m.erased && s.imageOk (s.m.flash.getD Config.bootImage))) = _
  rw [Bool.not_and, Bool.not_not]

/-- An accepted image runs, and advances the fuses (R76). -/
theorem moduleReset_boots {s : State} (whole : s.m.erased = false) (ok : s.imageOk (s.m.flash.getD Config.bootImage) = true) :
    s.moduleReset.dies = [] ∧ s.m.fuses ≤ s.moduleReset.m.fuses := by
  have boots : (!s.m.erased && s.imageOk (s.m.flash.getD Config.bootImage)) = true := by rw [whole, ok]; rfl
  simp only [moduleReset, boots, if_true, true_and]
  exact (Nat.le_max_right ..).trans (Nat.le_max_left ..)

/-- In recovery the fuses stay, and D0 alone is clocked (R77). -/
theorem moduleReset_recovers {s : State} (bad : s.m.erased = true ∨ s.imageOk (s.m.flash.getD Config.bootImage) = false) :
    s.moduleReset.m.fuses = s.m.fuses ∧ (s.moduleReset.die 0).curhs = 2 ∧ (s.moduleReset.die 0).curvf = 11 ∧
      ∀ d, d ≠ 0 → (s.moduleReset.die d).curhs = 0 := by
  have fails : (!s.m.erased && s.imageOk (s.m.flash.getD Config.bootImage)) = false := by
    rcases bad with bad | bad <;> simp [bad]
  have dies : s.moduleReset.dies = [(0, recoveryDie)] := by
    simp only [moduleReset, fails, Bool.false_eq_true, if_false]
  refine ⟨?_, ?_, ?_, fun d hd => ?_⟩
  · simp only [moduleReset, fails, Bool.false_eq_true, if_false]
  · rw [State.die, dies]; rfl
  · rw [State.die, dies]; rfl
  · rw [State.die, dies, Tbl.get_eq, Tbl.find_cons, if_neg (Ne.symm hd)]; rfl

/-- What FWLOAD answers. -/
def fwAnswer (s : State) (n : Nat) (c : Word) : State := s.modM (fun m => { m with fwsts := c, fwlen := BitVec.ofNat 32 n })

section
variable {s : State} {n : Nat}

/-- BUSY also while a write is under way (R78, log 64). -/
theorem fwload_busy (h : s.m.flashJob ≠ none ∨ ∃ k < 16, s.m.recovery = false ∧ (s.slice k).st = .active) :
    s.fwload n = s.fwAnswer n 4 := by
  refine if_pos ?_
  rcases h with writing | ⟨k, hk, running, active⟩
  · rw [Option.isSome_iff_ne_none.mpr writing, Bool.true_or]
  · have active_one : sliceNums.any (fun t => (s.slice t).st == .active) = true :=
      List.any_eq_true.mpr ⟨k, List.mem_range.mpr hk, beq_iff_eq.mpr active⟩
    rw [running, active_one, Bool.not_false, Bool.and_self, Bool.or_true]

variable (still : s.m.flashJob = none) (stopped : s.m.recovery = true ∨ ∀ k < 16, (s.slice k).st ≠ .active)
include still stopped

theorem fwload_serves : (s.m.flashJob.isSome || (!s.m.recovery && sliceNums.any (fun t => (s.slice t).st == .active))) = false := by
  rw [still]
  rcases stopped with recovery | none_active
  · rw [recovery]; rfl
  · have idle : sliceNums.any (fun t => (s.slice t).st == .active) = false :=
      List.any_eq_false.mpr fun k hk => by simpa using none_active k (List.mem_range.mp hk)
    rw [idle, Bool.and_false]; rfl

/-- An image that fails a check is answered with the check (R78). -/
theorem fwload_refused {c : Word} (err : s.imageErr (s.memBytes (s.m.bar2win.toNat * 68719476736) n) n = c) (bad : c ≠ 0) :
    s.fwload n = s.fwAnswer n c := by
  have serves := fwload_serves still stopped
  have fails : (c != 0) = true := bne_iff_ne.mpr bad
  unfold fwload
  simp only [serves, err, fails, Bool.false_eq_true, if_false, if_true]
  rfl

/-- A good image is on its way to flash, which is erased (R78). -/
theorem fwload_good (err : s.imageErr (s.memBytes (s.m.bar2win.toNat * 68719476736) n) n = 0) :
    s.fwload n = { (s.fwAnswer n 0).modM (fun m => { m with
      erased := true
      flashJob := some (s.memBytes (s.m.bar2win.toNat * 68719476736) n, s.cycle + Config.flashTime s.free) }) with
      free := s.free + 1 } := by
  have serves := fwload_serves still stopped
  unfold fwload
  simp only [serves, err, bne_self_eq_false, Bool.false_eq_true, if_false]
  rfl

end

section
variable {s : State} {img : List Byte} {n : Nat} (fits : n ≤ 67108864)
include fits

theorem imageErr_signature (h : Config.signatureValid img = false) : s.imageErr img n = 1 := by
  simp only [imageErr, Nat.not_lt.mpr fits, h, if_false, Bool.not_false, if_true]

variable (signed : Config.signatureValid img = true)
include signed

theorem imageErr_rollback (h : Config.imageVersion img < s.fuseCount) : s.imageErr img n = 2 := by
  simp only [imageErr, Nat.not_lt.mpr fits, signed, h, if_false, Bool.not_true, Bool.false_eq_true, if_true]

theorem imageErr_none (h : s.fuseCount ≤ Config.imageVersion img) : s.imageErr img n = 0 := by
  simp only [imageErr, Nat.not_lt.mpr fits, signed, Nat.not_lt.mpr h, if_false, Bool.not_true, Bool.false_eq_true]

end

theorem imageErr_length (s : State) (img : List Byte) {n : Nat} (h : 67108864 < n) : s.imageErr img n = 3 := if_pos h

end State

end Sys2Proof.Machine

namespace Sys2Proof.Safety

open Machine

theorem gives_fwloadWrite {n : Nat} {s t : State} {post : State → Prop} (h : s.fwload n = t) (hp : post t) :
    Gives (.fwloadWrite n) s post := ⟨t, congrArg Host.Outcome.next h, hp⟩

/-- FWLOAD that is answered changes FWSTS and FWLEN alone. -/
theorem gives_fwAnswer {n : Nat} {s : State} {c : Word} (h : s.fwload n = s.fwAnswer n c) : Gives (.fwloadWrite n) s (fun t =>
    OnlyModule s t ∧ t.m = { s.m with fwsts := c, fwlen := BitVec.ofNat 32 n }) := gives_fwloadWrite h ⟨rfl, rfl⟩

/-- FUNCTION_LEVEL_RESET and a STOP request are one reset (R36, R70). -/
theorem exec_reset {vf : Nat} {i : Instr} {s : State} (h : i = .functionLevelReset vf ∨ i = .tdiStop vf) :
    exec i s = .next (if 1 ≤ vf && s.vfExists (vf - 1) then s.startFlr (vf - 1) else s) := by
  rcases h with rfl | rfl <;> rfl

section
variable {vf : Nat} {i : Instr} {s : State} (h : i = .functionLevelReset vf ∨ i = .tdiStop vf)
include h

theorem exec_reset_absent (absent : vf = 0 ∨ s.vfExists (vf - 1) = false) : Idles i s := by
  have nobody : (decide (1 ≤ vf) && s.vfExists (vf - 1)) = false := by
    rcases absent with rfl | absent
    · rfl
    · rw [absent, Bool.and_false]
  exact (exec_reset h).trans (congrArg _ (if_neg (by rw [nobody]; decide)))

theorem exec_reset_exists (vf_pos : 1 ≤ vf) (here : s.vfExists (vf - 1) = true) : exec i s = .next (s.startFlr (vf - 1)) :=
  (exec_reset h).trans (congrArg _ (if_pos (by rw [here, decide_eq_true vf_pos]; rfl)))

end

/-- The end of a reset that no clearing of VF Enable waits for (R70). -/
theorem exec_flrComplete {vf : Nat} {s : State} (vf_pos : 1 ≤ vf) (other : s.m.vfClear ≠ vf) (st : (s.slice (vf - 1)).st = .resetting)
    (flr : (s.slice (vf - 1)).dissolving = false) : exec (.flrComplete vf) s = .next (s.modSlice (vf - 1) (fun _ =>
      { s.slice (vf - 1) with st := .config, tdi := .configUnlocked, busyEnd := 0 })) := by
  have ends : (if 1 ≤ vf then s.endFlr (vf - 1) else s) = _ := (if_pos vf_pos).trans (State.endFlr_resetting st flr)
  show execFlrComplete vf s = _
  simp only [execFlrComplete, ends, State.modSlice_m, other, decide_false, Bool.false_and, Bool.false_eq_true, if_false]

theorem exec_vfEnableClear {s : State} (on : s.m.vfEnabled = true) (clear : s.m.vfClear = 0) :
    exec .vfEnableClear s = .next (s.clearVfs.nextVfReset 17) :=
  congrArg Host.Outcome.next (if_pos (by rw [on, clear]; rfl))

/-- Settles O38: a reset is absorbed, unlocks the TDI or drops the slice's work; a module reset is a state written out; FWLOAD is one
equation for each check. -/
theorem resets : Obligations.Resets := by
  refine ⟨⟨fun vf i s hi => ⟨exec_reset_absent hi, fun hvf here st flr => ?absorbed, fun hvf here idle job => ?unlocked,
      fun hvf here resetting free => ?begins⟩, fun vf s hvf other st flr => ?complete, fun n s off running => ?enable,
      fun n s refused => ?enabled, fun s on clear noVfs => ?clearNone, fun s on clear more _ act => ?clearFirst⟩,
    fun s => ?module, fun n k s hk running act => gives_fwAnswer (State.fwload_busy (.inr ⟨k, hk, running, act⟩)),
    fun n s writing => gives_fwAnswer (State.fwload_busy (.inl writing)),
    fun n s recovery still long => gives_fwAnswer
      (State.fwload_refused still (.inl recovery) (State.imageErr_length s _ long) (by decide)),
    fun n s still stopped fits => ?image⟩
  case absorbed =>
    exact (exec_reset_exists hi hvf here).trans (congrArg _ (State.startFlr_absorbed st flr))
  case unlocked =>
    exact gives_of_modSlice ((exec_reset_exists hi hvf here).trans (congrArg _ (State.startFlr_idle idle job)))
      fun t ht only => ⟨ht, only⟩
  case begins =>
    obtain ⟨u, -, begins⟩ := State.startFlr_begins resetting free
    refine gives_of_modSlice ((exec_reset_exists hi hvf here).trans (congrArg _ begins)) fun t ht _ => ?_
    simp only [ht]
    exact ⟨rfl, rfl, rfl, rfl, rfl, rfl, rfl⟩
  case complete =>
    exact gives_of_modSlice (exec_flrComplete hvf other st flr) fun t ht only => ⟨ht, only⟩
  case enable =>
    have enables : ¬ (s.m.vfEnabled || s.m.recovery) = true := by rw [off, running]; decide
    exact ⟨_, congrArg Host.Outcome.next (if_neg enables), rfl, rfl⟩
  case enabled =>
    exact congrArg Host.Outcome.next (if_pos (Bool.or_eq_true_iff.mpr refused))
  case clearNone =>
    have cleared := State.nextVfReset_over (s := s.clearVfs) (n := 16) Nat.one_ne_zero
      (by rw [State.clearVfs_numVfs, noVfs]; exact Nat.one_pos)
    exact ⟨_, (exec_vfEnableClear on clear).trans (congrArg _ cleared), rfl, rfl⟩
  case clearFirst =>
    have begins := State.nextVfReset_begins (s := s.clearVfs) (n := 16) (vf := 0) rfl more
      (by rw [State.clearVfs_slice, act]; decide) (by rw [State.clearVfs_slice, act]; decide)
    obtain ⟨u, steady, dropped⟩ := State.startFlr_begins (s := s.clearVfs) (t := 0)
      (by rw [State.clearVfs_slice, act]; decide) (by rw [State.clearVfs_slice, act]; decide)
    refine gives_of_modSlice ((exec_vfEnableClear on clear).trans (congrArg _ (begins.trans dropped))) fun t ht only => ?_
    refine ⟨?_, ?_, congrArg Slice.st ht⟩
    · rw [only.module]
      exact (congrArg Module.vfEnabled steady).trans on
    · rw [only.module]
      exact congrArg Module.vfClear steady
  case module =>
    refine ⟨_, rfl, rfl, rfl, rfl, rfl, rfl, rfl, rfl, rfl, rfl, rfl, rfl, rfl, rfl, rfl, State.moduleReset_recovery s,
      fun whole ok => ?boots, fun bad => ?recovers⟩
    case boots => exact State.moduleReset_boots whole ok
    case recovers => exact State.moduleReset_recovers bad
  case image =>
    refine ⟨fun unsigned => ?_, fun signed old => ?_, fun signed new => ?_⟩
    · exact gives_fwAnswer (State.fwload_refused still stopped (State.imageErr_signature fits unsigned) (by decide))
    · exact gives_fwAnswer (State.fwload_refused still stopped (State.imageErr_rollback fits signed old) (by decide))
    · exact gives_fwloadWrite (State.fwload_good still stopped (State.imageErr_none fits signed new)) ⟨rfl, rfl⟩

end Sys2Proof.Safety
end

section
/-! SUPPORT. Frames of device memory and their owners (R62 to R65): what a byte reads after a frame is zeroed, gets an owner or is
released, and what these leave as it was. -/

namespace Sys2Proof.Machine

/-- A byte whose address every entry kept may have reads as before. -/
theorem Memory.read_filter_kept (dflt : Nat → Byte) (m : List Host.Cell) {p : Host.Cell → Bool} {a : Nat}
    (h : ∀ v, p (a, v) = true) : Memory.read dflt (m.filter p) a = Memory.read dflt m a := by
  have same : Tbl.find (α := Byte) (m.filter p) a = Tbl.find (α := Byte) m a := by
    induction m with
    | nil => rfl
    | cons e m ih =>
      obtain ⟨b, v⟩ := e
      rw [List.filter_cons, Tbl.find_cons]
      split
      · rw [Tbl.find_cons, ih]
      · next dropped =>
        have other : b ≠ a := fun hb => dropped (hb ▸ h v)
        rw [if_neg other, ih]
  rw [Memory.read_eq, same, Memory.read_eq]

/-- A frame outside the page-owner table lies below it. -/
theorem frame_lt_of_not_table {f : Nat} (h : tableFrame f = false) : f < 0x7FFF80 :=
  Nat.lt_of_not_le (of_decide_eq_false h)

namespace State

variable (s : State) (f : Nat)

/-! ## Owners -/

theorem memByte_setOwner (o b : Nat) : (s.setOwner f o).memByte b =
    if b = 0x7FFF800000 + f then BitVec.ofNat 8 o else s.memByte b := by
  rw [setOwner, memByte_setMem, List.length_singleton]
  by_cases h : b = 0x7FFF800000 + f
  · rw [if_pos ⟨h.ge, by omega⟩, if_pos h, h, Nat.sub_self]; rfl
  · rw [if_neg (by omega), if_neg h]

theorem owner_setOwner_self {o : Nat} (h : o < 256) : (s.setOwner f o).owner f = o := by
  rw [owner, memByte_setOwner, if_pos rfl, BitVec.toNat_ofNat, Nat.mod_eq_of_lt h]

/-! ## A frame that is zeroed -/

/-- A frame that is zeroed reads 0, but for one of the page-owner table (log 56). -/
theorem memByte_zeroFrame (b : Nat) : (s.zeroFrame f).memByte b =
    if tableFrame f = false ∧ b / 65536 = f then 0 else s.memByte b := by
  unfold zeroFrame
  split
  next table => rw [table, if_neg (fun h => Bool.noConfusion h.1)]
  next table =>
    have data : tableFrame f = false := Bool.not_eq_true _ ▸ table
    have below := frame_lt_of_not_table data
    by_cases within : b / 65536 = f
    · rw [if_pos ⟨data, within⟩]
      refine (Safety.read_filter_dropped memDefault s.mem (fun v => ?_)).trans ?_
      · exact bne_eq_false_iff_eq.mpr within
      · exact if_neg (by omega)
    · rw [if_neg (fun h => within h.2)]
      exact Memory.read_filter_kept memDefault s.mem (fun v => bne_iff_ne.mpr within)

@[simp] theorem zeroFrame_groups : (s.zeroFrame f).groups = s.groups := by unfold zeroFrame; split <;> rfl
@[simp] theorem zeroFrame_slices : (s.zeroFrame f).slices = s.slices := by unfold zeroFrame; split <;> rfl

/-- Bytes of a frame that is zeroed and given to an owner: the frame reads 0 and the rest is as it was, but for the owner. -/
theorem memByte_zeroFrame_setOwner (o b : Nat) : ((s.zeroFrame f).setOwner f o).memByte b =
    if b = 0x7FFF800000 + f then BitVec.ofNat 8 o
    else if tableFrame f = false ∧ b / 65536 = f then 0 else s.memByte b := by
  rw [memByte_setOwner, memByte_zeroFrame]

/-! ## Frames that are released -/

theorem memByte_release (b : Nat) : (s.release f).memByte b =
    if b = 0x7FFF800000 + f then 31 else if tableFrame f = false ∧ b / 65536 = f then 0 else s.memByte b :=
  memByte_zeroFrame_setOwner s f 31 b

@[simp] theorem release_slices : (s.release f).slices = s.slices := zeroFrame_slices s f

/-- A frame that is free and reads 0 (R65). -/
def frameFree : Prop := s.owner f = 31 ∧ ∀ o < 65536, s.memByte (f * 65536 + o) = 0

variable {s f} (data : tableFrame f = false)
include data

theorem frameFree_release (s : State) : (s.release f).frameFree f := by
  have below := frame_lt_of_not_table data
  refine ⟨?_, fun o ho => ?_⟩
  · rw [owner, memByte_release, if_pos rfl]; rfl
  · rw [memByte_release, if_neg (by omega), if_pos ⟨data, by omega⟩]

/-- The release of a frame keeps every free one free. -/
theorem frameFree_release_of_frameFree (g : Nat) (free : s.frameFree f) : (s.release g).frameFree f := by
  obtain ⟨owner_f, zero⟩ := free
  have below := frame_lt_of_not_table data
  refine ⟨?_, fun o ho => ?_⟩
  · rw [owner, memByte_release]
    split
    · rfl
    · rw [if_neg fun h => by have := frame_lt_of_not_table h.1; omega]
      exact owner_f
  · rw [memByte_release, if_neg (by omega)]
    split
    · rfl
    · exact zero o ho

theorem frameFree_foldl_release_of_frameFree (fs : List Nat) (free : s.frameFree f) : (fs.foldl State.release s).frameFree f := by
  induction fs generalizing s with
  | nil => exact free
  | cons g fs ih => exact ih (frameFree_release_of_frameFree data g free)

/-- Every frame of a list that is released is free afterwards. -/
theorem frameFree_foldl_release {fs : List Nat} (s : State) (h : f ∈ fs) : (fs.foldl State.release s).frameFree f := by
  induction fs generalizing s with
  | nil => cases h
  | cons g fs ih =>
    rcases List.mem_cons.mp h with rfl | later
    · exact frameFree_foldl_release_of_frameFree data fs (frameFree_release data s)
    · exact ih _ later

end State

end Sys2Proof.Machine
end

section
/-! SUPPORT. What a core that is scrubbed leaves as it was (R160, R236, R238): groups, stacks, and of every slice all but the totals of
its counters, its rings and EFLOOR. -/

namespace Sys2Proof.Machine

/-- A slice but for the totals of its counters, its rings and EFLOOR. -/
def Slice.settings (x : Slice) : Slice := { x with td := [], rings := [], efloor := [] }

theorem Slice.settings_floorOn (x : Slice) (j : Nat) : x.settings.floorOn j = x.floorOn j := rfl

/-- The groups, the stacks, and the settings of the slices. -/
def State.placing (s : State) : Tbl Group × Tbl Stack × (Nat → Slice) := (s.groups, s.hbm, fun t => (s.slice t).settings)

theorem State.placing_ite {c : Prop} [Decidable c] {s t u : State} (ht : t.placing = s.placing) (hu : u.placing = s.placing) :
    (if c then t else u).placing = s.placing := by
  split <;> assumption

namespace State

variable (s : State)

@[simp] theorem placing_modDie (d : Nat) (f : Die → Die) : (s.modDie d f).placing = s.placing := rfl
@[simp] theorem placing_modCore (c : Nat) (f : Core → Core) : (s.modCore c f).placing = s.placing := rfl
@[simp] theorem placing_modM (f : Module → Module) : (s.modM f).placing = s.placing := rfl
@[simp] theorem placing_setMem (a : Nat) (l : List Byte) : (s.setMem a l).placing = s.placing := rfl
@[simp] theorem placing_clearBad (p : ErrSite → Bool) : (s.clearBad p).placing = s.placing := rfl

theorem placing_scratch (spad : List Host.Cell) (tile : Tbl Word) :
    ({ s with spad := spad, tile := tile } : State).placing = s.placing := rfl

theorem placing_modSlice {f : Slice → Slice} (t : Nat) (h : ∀ x, (f x).settings = x.settings) :
    (s.modSlice t f).placing = s.placing := by
  have settings : (fun u => ((s.modSlice t f).slice u).settings) = fun u => (s.slice u).settings := by
    funext u
    rw [modSlice_slice]
    split
    · next same => rw [h, same]
    · rfl
  exact congrArg (fun g => (s.groups, s.hbm, g)) settings

@[simp] theorem placing_postRecord (fn ring : Nat) (r : RecordData) : (s.postRecord fn ring r).placing = s.placing :=
  placing_ite (placing_modM ..) (placing_modSlice _ _ fun _ => rfl)

@[simp] theorem placing_ownedByte (t pa : Nat) (v : Byte) : (s.ownedByte t pa v).placing = s.placing := placing_ite rfl rfl

@[simp] theorem placing_moveMarks (l : Line) (p : LByte → Bool) : (s.moveMarks l p).placing = s.placing :=
  foldl_keeps placing (fun _ _ => by exact placing_ite rfl rfl) ..

@[simp] theorem placing_copyOut (pa : Nat) (b : LByte) (bad : Bool) : (s.copyOut pa b bad).placing = s.placing :=
  foldl_keeps placing (fun _ _ => by exact placing_ite rfl rfl) ..

@[simp] theorem placing_spill (l : Line) : (s.spill l).placing = s.placing := by
  refine (foldl_keeps placing (fun t e => ?_) ..).trans (placing_ite (placing_moveMarks ..) rfl)
  exact placing_ite (placing_ite (placing_ownedByte ..) (placing_copyOut ..)) rfl

@[simp] theorem placing_flushL1 (c : Nat) : (s.flushL1 c).placing = s.placing :=
  (placing_modCore ..).trans (foldl_keeps placing placing_spill ..)

@[simp] theorem placing_retainCounts (c owner : Nat) : (s.retainCounts c owner).placing = s.placing :=
  placing_ite rfl ((placing_modCore ..).trans (placing_ite (placing_modSlice _ _ fun _ => rfl) rfl))

@[simp] theorem placing_scrubCore (c owner : Nat) : (s.scrubCore c owner).placing = s.placing :=
  (placing_modCore ..).trans ((placing_clearBad ..).trans ((placing_scratch ..).trans
    ((placing_flushL1 ..).trans (placing_retainCounts ..))))

/-- Cores are fused out, and DIE_DEGRADED is posted (R11, R114). -/
@[simp] theorem placing_fuseFailed (cores : List Nat) : (s.fuseFailed cores).placing = s.placing :=
  foldl_keeps placing (fun _ _ => by exact placing_ite (placing_postRecord ..) rfl) ..

@[simp] theorem placing_freeCores (t : Nat) : (s.freeCores t).placing = s.placing :=
  foldl_keeps placing (fun _ _ => placing_scrubCore ..) ..

/-- EFLOOR of a slice is set (R69). -/
@[simp] theorem placing_setEfloor (t : Nat) : (s.setEfloor t).placing = s.placing := placing_modSlice _ _ fun _ => rfl

variable {s} {t : State} (h : t.placing = s.placing)
include h

theorem groups_of_placing : t.groups = s.groups := congrArg Prod.fst h

theorem stack_of_placing (k : Nat) : t.stack k = s.stack k :=
  congrArg (fun (p : Tbl Group × Tbl Stack × (Nat → Slice)) => Tbl.get p.2.1 {} k) h

theorem settings_of_placing (k : Nat) : (t.slice k).settings = (s.slice k).settings :=
  congrArg (fun (p : Tbl Group × Tbl Stack × (Nat → Slice)) => p.2.2 k) h

end State

end Sys2Proof.Machine
end

section
/-! SUPPORT. Slices and deckles (R55 to R59, R62, R103): what CREATE, ACTIVATE, DISSOLVE and a write of each deckle register do to the
slice, and the statement SlicesAndDeckles. -/

namespace Sys2Proof.Machine

/-! ## Deckle registers (R57, R58) -/

namespace Slice

variable (x : Slice) (v : Word)

theorem setDeckle_ports : x.setDeckle 4 v = { x with ual := (v.extractLsb' 16 16).toNat, eth := (v.extractLsb' 0 16).toNat } := by
  rw [← bits_toNat v (hi := 31) (by rfl), ← bits_toNat v (hi := 15) (by rfl)]; rfl

theorem setDeckle_cemask : x.setDeckle 8 v = { x with cemask := v } := rfl

theorem setDeckle_cld {d : Nat} (hd : d < 4) :
    x.setDeckle (0x20 + 0x20 * d) v = { x with cld := Tbl.set x.cld 0 d (v.extractLsb' 0 9) } := by
  have die : (0x20 + 0x20 * d - 0x20) / 0x20 = d := by omega
  have register : (0x20 + 0x20 * d - 0x20) % 0x20 = 0x00 := by omega
  simp (disch := omega) only [setDeckle, die, register, if_neg, if_pos, Bool.and_eq_true, decide_eq_true_eq]
  rfl

theorem setDeckle_ways {d : Nat} (hd : d < 4) : x.setDeckle (0x24 + 0x20 * d) v = { x with ways := Tbl.set x.ways 0 d v } := by
  have die : (0x24 + 0x20 * d - 0x20) / 0x20 = d := by omega
  have register : (0x24 + 0x20 * d - 0x20) % 0x20 = 0x04 := by omega
  simp (disch := omega) only [setDeckle, die, register, if_neg, if_pos, Bool.and_eq_true, decide_eq_true_eq]

/-- The bandwidth words of a die lie side by side: one stack of even and one of odd number (R57). -/
theorem setDeckle_band {j : Nat} (hj : j < 8) :
    x.setDeckle (0x30 + 0x20 * (j / 2) + 4 * (j % 2)) v = setDeckle.band x v j := by
  have die : (0x30 + 0x20 * (j / 2) + 4 * (j % 2) - 0x20) / 0x20 = j / 2 := by omega
  rcases Nat.mod_two_eq_zero_or_one j with even | odd
  · have register : (0x30 + 0x20 * (j / 2) + 4 * (j % 2) - 0x20) % 0x20 = 0x10 := by omega
    have stack : 2 * (j / 2) = j := by omega
    simp (disch := omega) only [setDeckle, die, register, stack, if_neg, if_pos, Bool.and_eq_true, decide_eq_true_eq]
  · have register : (0x30 + 0x20 * (j / 2) + 4 * (j % 2) - 0x20) % 0x20 = 0x14 := by omega
    have stack : 2 * (j / 2) + 1 = j := by omega
    simp (disch := omega) only [setDeckle, die, register, stack, if_neg, if_pos, Bool.and_eq_true, decide_eq_true_eq]

/-- A bandwidth word holds FLOOR, CEIL and WEIGHT of its stack (R57). -/
theorem band_get (j : Nat) :
    Tbl.get (setDeckle.band x v j).floor 0 j = (v.extractLsb' 24 8).toNat ∧
    Tbl.get (setDeckle.band x v j).ceil 255 j = (v.extractLsb' 16 8).toNat ∧
    Tbl.get (setDeckle.band x v j).weight 16 j = (v.extractLsb' 8 8).toNat := by
  simp only [setDeckle.band, Tbl.get_set, if_true]
  exact ⟨bits_toNat v rfl, bits_toNat v rfl, bits_toNat v rfl⟩

/-- A register that is written takes its value; in QUIESCED the dies before the change may be kept for RESHAPE (R154). -/
theorem putDeckle_register {off : Nat} (h : off ≠ 0) : ∃ w, x.putDeckle off v = { x.setDeckle off v with wasDies := w } := by
  unfold putDeckle
  simp only [h, if_false]
  split
  · exact ⟨_, rfl⟩
  · exact ⟨(x.setDeckle off v).wasDies, rfl⟩

theorem putDeckle_helm : ∃ w, x.putDeckle 0 v = { x with helm := (v.extractLsb' 20 4).toNat, wasDies := w } := by
  rw [← bits_toNat v (hi := 23) (by rfl)]
  unfold putDeckle
  simp only [if_true]
  split
  · exact ⟨_, rfl⟩
  · exact ⟨x.wasDies, rfl⟩

/-! ## A slice under a command (R59) -/

/-- A slice that CREATE makes CONFIG. -/
def created : Slice := { x with st := .config, err := 0, permchg := 0, energy := 0, td := [] }

/-- A slice that passes the checks of ACTIVATE, while its cores are scrubbed. -/
def activating (now : Nat) : Slice :=
  { x with st := .activating, err := 0, clusters := x.clusterList, busyEnd := now + 20000 }

/-- A slice that is dissolved, while its frames are zeroed. -/
def dissolved (until_ : Nat) : Slice :=
  { x.forget with st := .resetting, dissolving := true, err := 0, key := 0, killing := false, busyEnd := until_ }

end Slice

/-- A table after the keys of a list are written with a function's values. -/
theorem Tbl.get_foldl_set {α : Type} [DecidableEq α] (d : α) (g : Nat → α) (ks : List Nat) (e : Tbl α) (j : Nat) :
    Tbl.get (ks.foldl (fun e k => Tbl.set e d k (g k)) e) d j = if j ∈ ks then g j else Tbl.get e d j := by
  induction ks generalizing e with
  | nil => rfl
  | cons k ks ih =>
    rw [List.foldl_cons, ih, Tbl.get_set]
    by_cases same : k = j
    · simp only [same, List.mem_cons, true_or, if_true, ite_self]
    · simp only [same, Ne.symm same, List.mem_cons, false_or, if_false]

namespace State

variable {s : State} {k : Nat}

/-! ## CREATE and ACTIVATE (R56, R59) -/

/-- A free slice is CONFIG, and then draws a key. -/
theorem create_free (h : (s.slice k).st = .free) : s.create k =
    ((s.modSlice k Slice.created).modSlice k (fun x => { x with key := s.m.keys })).modM (fun m => { m with keys := m.keys + 1 }) :=
  if_pos (beq_iff_eq.mpr h)

theorem create_taken (h : (s.slice k).st ≠ .free) : s.create k = s := if_neg (mt beq_iff_eq.mp h)

theorem activate_idle (h : (s.slice k).st ≠ .config) : s.activate k = s := if_pos (bne_iff_ne.mpr h)

theorem activate_fails (st : (s.slice k).st = .config) (err : s.activateErr k ≠ 0) :
    s.activate k = s.modSlice k (fun x => { x with err := s.activateErr k }) := by
  simp only [activate, st, bne_self_eq_false, Bool.false_eq_true, if_false, err, ne_eq, not_false_eq_true, if_true]

/-- The cores are scrubbed for the slice, and EFLOOR is set from its FLOOR. -/
theorem activate_passes (st : (s.slice k).st = .config) (err : s.activateErr k = 0) :
    ∃ u : State, u.placing = (s.modSlice k (fun x => x.activating s.cycle)).placing ∧ s.activate k = u.setEfloor k := by
  have run : s.activate k = _ := if_neg (fun h => bne_iff_ne.mp h st)
  rw [if_neg (fun h => h err)] at run
  refine ⟨_, ?_, run⟩
  exact (foldl_keeps placing (fun _ _ => by exact placing_ite rfl (placing_scrubCore ..)) ..).trans (placing_fuseFailed ..)

theorem setEfloor_get {j : Nat} (h : j < 8) : Tbl.get ((s.setEfloor k).slice k).efloor 0 j =
    (s.slice k).floorOn j * ((s.stack j).d + 1) / 256 := by
  rw [setEfloor, setEfloorOn, modSlice_slice_self]
  exact (Tbl.get_foldl_set 0 _ _ _ j).trans (if_pos (List.mem_range.mpr h))

/-! ## DISSOLVE (R59) -/

theorem dissolve_locked (h : s.vfLocked k = true) : s.dissolve k = s.locked (0x30000 + 0x100 * k) := if_pos h

/-- The slice's work is dropped, then its frames are released. -/
theorem dissolve_begins (unlocked : s.vfLocked k = false) (st : (s.slice k).st = .active ∨ (s.slice k).st = .config) :
    s.dissolve k = (s.framesOf k).foldl State.release (((s.dropWork k 1).dropDebt k).modSlice k
      (fun x => x.dissolved (s.cycle + 20 * (s.framesOf k).length))) := by
  refine (if_neg (by rw [unlocked]; decide)).trans (if_neg ?_)
  rcases st with st | st <;> rw [st] <;> decide

theorem foldl_release_slice (fs : List Nat) : (fs.foldl State.release s).slice k = s.slice k :=
  congrArg (fun l : Tbl Slice => Tbl.get l {} k) (foldl_keeps State.slices release_slices fs s)

/-! ## A write of a deckle register (R55 to R58) -/

variable {off : Nat} {v : Word}

theorem writeDeckle_open (nonzero : off ≠ 0) (isOpen : s.deckleOpen k = true) :
    s.writeDeckle k off v = s.modSlice k (fun x => x.putDeckle off v) := (if_neg nonzero).trans (if_pos isOpen)

theorem writeDeckle_closed (nonzero : off ≠ 0) (closed : s.deckleOpen k = false) :
    s.writeDeckle k off v = s.locked (0x30000 + 0x100 * k + off) :=
  (if_neg nonzero).trans (if_neg (by rw [closed]; decide))

/-- A word of DCTL without a command. -/
theorem writeDeckle_helm (isOpen : s.deckleOpen k = true) (none_given : v.extractLsb' 24 4 = 0) :
    s.writeDeckle k 0 v = s.modSlice k (fun x => x.putDeckle 0 v) := by
  have cmd : bits v.toNat 27 24 = 0 := by rw [bits_toNat v (n := 4) rfl, none_given]; rfl
  simp only [writeDeckle, cmd, isOpen, if_true]

end State

end Sys2Proof.Machine

namespace Sys2Proof.Safety

open Machine

/-- Outside recovery a command of BAR0 gives what holds of the state it reaches. -/
theorem gives_bar0 {i : Instr} {s u t : State} {post : State → Prop} (hr : s.m.recovery = false)
    (run : exec i s = .next (s.bar0 u)) (h : u = t) (hp : post t) : Gives i s post :=
  ⟨t, run.trans (congrArg _ ((State.bar0_running hr u).trans h)), hp⟩

/-- A command that does nothing, in recovery or out of it. -/
theorem idles_bar0 {i : Instr} {s u : State} (run : exec i s = .next (s.bar0 u)) (h : u = s) : Idles i s := by
  rw [Idles, run, h, State.bar0, ite_self]

section
variable {k off : Nat} {v : Word} {s : State} (hk : k < 16) (hr : s.m.recovery = false)
include hk hr

theorem exec_deckleWrite : exec (.deckleWrite k off v) s = .next (s.writeDeckle k off v) :=
  congrArg Host.Outcome.next ((State.bar0_running hr _).trans (if_pos hk))

/-- A register of an open deckle takes its value, and nothing of another slice changes. -/
theorem gives_deckleWrite {y : Slice} {post : State → Prop} (isOpen : s.deckleOpen k = true) (nonzero : off ≠ 0)
    (takes : (s.slice k).setDeckle off v = y)
    (hp : ∀ t w, t.slice k = { y with wasDies := w } → OnlySlice k s t → post t) : Gives (.deckleWrite k off v) s post := by
  obtain ⟨w, put⟩ := (s.slice k).putDeckle_register v nonzero
  refine gives_of_modSlice ((exec_deckleWrite hk hr).trans (congrArg _ (State.writeDeckle_open nonzero isOpen))) fun t ht only => ?_
  exact hp t w (by rw [ht, put, takes]) only

end

/-- Settles O36: each command and each write is one equation above for the state it reaches; no scrub changes a deckle, and every frame
of a list that is released is free. -/
theorem slicesAndDeckles : Obligations.SlicesAndDeckles := by
  refine ⟨⟨fun k s hr st => ?create, fun k s st => idles_bar0 rfl (State.create_taken st),
      fun k s st => idles_bar0 rfl (State.activate_idle st), fun k s hr st err => ?activateFails,
      fun k s _ hr st err => ?activate, fun k s st => ?activateDone,
      fun k s _ hr locked => ?dissolveLocked, fun k s _ hr unlocked st => ?dissolve, fun k s _ st dissolving => ?dissolveDone⟩,
    fun k off v s hk nonzero hr closed => ?closed, fun k v s hk hr isOpen => ?ports, fun k v s hk hr isOpen => ?cemask,
    fun k d v s hk hd hr isOpen => ?cld, fun k d v s hk hd hr isOpen => ?ways, fun k j v s hk hj hr isOpen => ?band,
    fun k v s hk hr isOpen none_given => ?helm⟩
  case create =>
    refine gives_bar0 hr rfl (State.create_free st) ⟨?_, rfl, fun e he => ?_, ⟨rfl, rfl, rfl, rfl, rfl⟩, rfl, rfl⟩
    · rw [State.modM_slice, State.modSlice_slice_self, State.modSlice_slice_self]; rfl
    · rw [State.modM_slice, (onlySlice_modSlice ..).others e he, (onlySlice_modSlice ..).others e he]
  case activateFails =>
    exact gives_bar0 hr rfl (State.activate_fails st err) ⟨State.modSlice_slice_self .., onlySlice_modSlice ..⟩
  case activate =>
    obtain ⟨u, placing, run⟩ := State.activate_passes st err
    have kept := State.settings_of_placing placing k
    rw [State.modSlice_slice_self] at kept
    have settings := (State.settings_of_placing (State.placing_setEfloor u k) k).trans kept
    refine gives_bar0 hr rfl run ⟨congrArg Slice.st settings, congrArg Slice.err settings, congrArg Slice.busyEnd settings,
      congrArg Slice.clusters settings, fun j hj => ?_, (State.groups_of_placing placing).trans rfl⟩
    have floor : (u.slice k).floorOn j = (s.slice k).floorOn j := by
      rw [← Slice.settings_floorOn, kept]; rfl
    rw [State.setEfloor_get hj, floor, State.stack_of_placing placing]; rfl
  case activateDone =>
    refine gives_of_modSlice rfl fun t ht only => ⟨ht.trans (if_pos ?_), only⟩
    rw [st]; rfl
  case dissolveLocked =>
    obtain ⟨only, locks, -⟩ := locked_records s (0x30000 + 0x100 * k)
    exact gives_bar0 hr rfl (State.dissolve_locked locked) ⟨only, locks⟩
  case dissolve =>
    refine gives_bar0 hr rfl (State.dissolve_begins unlocked st) ?_
    rw [State.foldl_release_slice, State.modSlice_slice_self]
    exact ⟨rfl, rfl, rfl, rfl, fun f hf data => State.frameFree_foldl_release data _ hf⟩
  case dissolveDone =>
    have ends : ((s.slice k).st == .resetting && (s.slice k).dissolving) = true := by rw [st, dissolving]; rfl
    refine gives_of_modSlice (congrArg Host.Outcome.next (if_pos ends)) fun t ht only => ?_
    rw [ht]
    exact ⟨rfl, rfl, rfl, rfl, only.work.groups.trans (State.groups_of_placing (s.placing_freeCores k))⟩
  case closed =>
    exact ⟨_, (exec_deckleWrite hk hr).trans (congrArg _ (State.writeDeckle_closed nonzero closed)), locked_records s _⟩
  case ports =>
    refine gives_deckleWrite hk hr isOpen (by decide) (Slice.setDeckle_ports _ v) fun t w ht only => ⟨only, ?_⟩
    rw [ht]; exact ⟨rfl, rfl⟩
  case cemask =>
    refine gives_deckleWrite hk hr isOpen (by decide) (Slice.setDeckle_cemask _ v) fun t w ht only => ⟨only, ?_⟩
    rw [ht]
  case cld =>
    refine gives_deckleWrite hk hr isOpen (by omega) (Slice.setDeckle_cld _ v hd) fun t w ht only => ⟨only, ?_⟩
    rw [ht, Tbl.get_set, if_pos rfl]
  case ways =>
    refine gives_deckleWrite hk hr isOpen (by omega) (Slice.setDeckle_ways _ v hd) fun t w ht only => ⟨only, ?_⟩
    rw [ht, Tbl.get_set, if_pos rfl]
  case band =>
    refine gives_deckleWrite hk hr isOpen (by omega) (Slice.setDeckle_band _ v hj) fun t w ht only => ⟨only, ?_⟩
    rw [ht]; exact Slice.band_get _ v j
  case helm =>
    obtain ⟨w, put⟩ := (s.slice k).putDeckle_helm v
    refine gives_of_modSlice ((exec_deckleWrite hk hr).trans (congrArg _ (State.writeDeckle_helm isOpen none_given)))
      fun t ht only => ⟨only, ?_⟩
    rw [ht, put]

end Sys2Proof.Safety
end

section
/-! SUPPORT. Frame commands, stack temperature and bandwidth (R63 to R69): what OWNCMD answers and does to its frame, what a temperature
makes of a stack, what the arbiter charges, and the statement FramesAndBands. -/

namespace Sys2Proof.Machine

namespace State

/-! ## GO of an OWNCMD (R65) -/

section
variable {s : State} {mode f o : Nat}

/-- The module with the fields of an OWNCMD. -/
def ownFields (s : State) (mode f o : Nat) : State := s.modM (fun m => { m with ownMode := mode, ownNew := o, ownFrame := f })

theorem ownGo_busy (h : s.m.ownBusy = true) : s.ownGo mode f o = (s.ownFields mode f o).modM (fun m => { m with ownRes := 5 }) :=
  if_pos h

theorem ownGo_refused (idle : s.m.ownBusy = false) (fails : s.ownCheck mode f o ≠ 0) :
    s.ownGo mode f o = (s.ownFields mode f o).ownDone (s.ownCheck mode f o) f :=
  (if_neg (by rw [idle]; decide)).trans (if_pos fails)

theorem ownGo_begins (idle : s.m.ownBusy = false) (passes : s.ownCheck mode f o = 0) :
    s.ownGo mode f o = (s.ownFields mode f o).modM (fun m => { m with
      ownBusy := true, ownJob := some { mode := mode, owner := o, frame := f, endAt := s.cycle + 4000 } }) :=
  (if_neg (by rw [idle]; decide)).trans (if_neg (by rw [passes]; decide))

/-! ## Its checks, in their order (R65) -/

/-- ASSIGN wants a free frame. -/
theorem ownCheck_assign_owned (fits : o ≤ 16) (owned : s.owner f ≠ 31) (sound : s.owner f ≠ 30) : s.ownCheck 0 f o = 1 := by
  simp [ownCheck, Nat.not_lt.mpr fits, owned, sound]

/-- A frame that is retired is refused to all but QUERY. -/
theorem ownCheck_retired (retired : s.owner f = 30) (fits : o ≤ 16) (changes : mode < 3) : s.ownCheck mode f o = 6 := by
  simp [ownCheck, Nat.not_lt.mpr fits, retired, changes]

/-- RELEASE wants a frame that has an owner. -/
theorem ownCheck_release_free (free : s.owner f = 31) : s.ownCheck 2 f o = 2 := by simp [ownCheck, free]

end

/-! ## The end of an OWNCMD (R65) -/

section
variable {s : State} {j : OwnJob} (job : s.m.ownJob = some j)
include job

theorem ownFinish_job : s.ownFinish =
    (((s.ownEffect j).dropOwners j.frame).modM (fun m => { m with ownBusy := false, ownJob := none })).ownDone 0 j.frame := by
  rw [ownFinish, job]

theorem ownFinish_memByte (b : Nat) : s.ownFinish.memByte b = (s.ownEffect j).memByte b := by rw [ownFinish_job job]; rfl

theorem ownFinish_owner (f : Nat) : s.ownFinish.owner f = (s.ownEffect j).owner f := by rw [ownFinish_job job]; rfl

theorem ownFinish_groups : s.ownFinish.groups = (s.ownEffect j).groups := by rw [ownFinish_job job]; rfl

/-- OWNSTS at the end of a command: no error, not busy, the owner that the frame has got. -/
theorem ownFinish_status : s.ownFinish.m.ownRes = 0 ∧ s.ownFinish.m.ownBusy = false ∧
    s.ownFinish.m.ownOwner = (s.ownEffect j).owner j.frame := by
  rw [ownFinish_job job]; exact ⟨rfl, rfl, rfl⟩

end

theorem zeroFrame_setOwner_outside (s : State) {f b : Nat} (o : Nat) (h : b / 65536 ≠ f) (entry : b ≠ 0x7FFF800000 + f) :
    ((s.zeroFrame f).setOwner f o).memByte b = s.memByte b := by
  rw [memByte_zeroFrame_setOwner, if_neg entry, if_neg fun a => h a.2]

/-- A frame that is zeroed and given to an owner reads 0. -/
theorem zeroFrame_setOwner_inside (s : State) {f b : Nat} (data : tableFrame f = false) (o : Nat) (h : b / 65536 = f) :
    ((s.zeroFrame f).setOwner f o).memByte b = 0 := by
  have below := frame_lt_of_not_table data
  rw [memByte_zeroFrame_setOwner, if_neg (by omega), if_pos ⟨data, h⟩]

end State

/-! ## Temperature of a stack (R69) -/

/-- The level of a stack rises at 85 and 95 degrees and falls 3 degrees below. -/
theorem heatLevel_eq (old c : Nat) : heatLevel old c =
    if 95 ≤ c then 2 else if old = 2 ∧ 92 ≤ c then 2 else if 85 ≤ c ∨ (1 ≤ old ∧ 82 ≤ c) then 1 else 0 := by
  simp only [heatLevel, Bool.and_eq_true, Bool.or_eq_true, decide_eq_true_eq]

theorem heatD_pos (l : Nat) : 0 < heatD l := by
  unfold heatD
  split
  · decide
  · split <;> decide

/-- A stack at a temperature. -/
def Stack.heated (x : Stack) (c : Byte) : Stack :=
  { x with tstk := c, level := heatLevel x.level c.toNat, d := heatD (heatLevel x.level c.toNat) - 1 }

/-- D is one less than what the level gives. -/
theorem Stack.heated_d (x : Stack) (c : Byte) : (x.heated c).d + 1 = heatD (x.heated c).level := Nat.sub_add_cancel (heatD_pos _)

/-- A pass whose steps change slices and the module alone changes them alone. -/
theorem foldl_slices_module {f : State → Nat → State} (each : ∀ s a, ∃ x m, f s a = { s with slices := x, m := m }) (l : List Nat)
    (s : State) : ∃ x m, l.foldl f s = { s with slices := x, m := m } := by
  induction l generalizing s with
  | nil => exact ⟨s.slices, s.m, rfl⟩
  | cons a l ih =>
    obtain ⟨x, m, step⟩ := each s a
    obtain ⟨y, n, rest⟩ := ih (f s a)
    exact ⟨y, n, by rw [List.foldl_cons, rest, step]⟩

/-- A slice hears of a new level of a stack: EFLOOR follows D, and a slice with a floor there gets the event (R69). -/
def State.heatTold (k l : Nat) (s : State) (t : Nat) : State :=
  if (s.slice t).floorOn k != 0 then (s.setEfloorOn t [k]).postVf t 2 (k + l * 256 + heatD l * 65536) else s.setEfloorOn t [k]

theorem State.heatTold_whole (k l : Nat) (s : State) (t : Nat) : ∃ x m, s.heatTold k l t = { s with slices := x, m := m } := by
  unfold State.heatTold
  split
  · obtain ⟨x, r, posted⟩ := (s.setEfloorOn t [k]).postRecord_whole ((s.setEfloorOn t [k]).fnOf t) 2
      { code := 2, slice := t, data := k + l * 256 + heatD l * 65536 }
    exact ⟨x, _, posted⟩
  · exact ⟨_, s.m, rfl⟩

/-- A change of level is told to every slice: the rest is the change of the stack. -/
theorem execHbmThermalLevelChange_eq (k : Nat) (c : Byte) (s : State) : ∃ x m,
    execHbmThermalLevelChange k c s = .next { s.modStack k (fun y => y.heated c) with slices := x, m := m } := by
  by_cases same : heatLevel (s.stack k).level c.toNat = (s.stack k).level
  · exact ⟨s.slices, s.m, congrArg Host.Outcome.next (if_pos same)⟩
  · obtain ⟨x, m, told⟩ := foldl_slices_module (State.heatTold_whole k (heatLevel (s.stack k).level c.toNat)) sliceNums
      (s.modStack k (fun y => y.heated c))
    exact ⟨x, m, congrArg Host.Outcome.next ((if_neg same).trans told)⟩

/-! ## Bandwidth (R67) -/

theorem shareRound_length (left : Nat) (l : List (Nat × Nat × Nat)) : (shareRound left l).1.length = l.length := List.length_map ..

theorem shareBand_length (n left : Nat) (l : List (Nat × Nat × Nat)) : (shareBand n left l).length = l.length := by
  induction n generalizing left l with
  | zero => rfl
  | succ n ih => exact (ih ..).trans (shareRound_length left l)

namespace State

variable (s : State) (k : Nat) (need : List (Nat × Nat))

theorem bandLimit_le (who n : Nat) : s.bandLimit k need who n ≤ n := by
  unfold bandLimit
  dsimp only
  split
  · exact le_rfl
  · exact Nat.min_le_left ..

/-- On channels that its deckle names a slice is served no more than CEIL. -/
theorem bandLimit_le_ceil {who : Nat} (n : Nat) (slice : who < 16) (named : (s.slice who).channels k ≠ 0) :
    s.bandLimit k need who n ≤ Tbl.get (s.slice who).ceil 255 k * 16000 := by
  have self : bandSlice who = who := by rw [bandSlice, if_neg (by omega), Nat.mod_eq_of_lt slice]
  have ceiling : (decide (who = 16) || (s.slice who).channels k == 0) = false := by
    rw [decide_eq_false (by omega), beq_eq_false_iff_ne.mpr named]; rfl
  simp only [bandLimit, self, ceiling, Bool.false_eq_true, if_false]
  exact (Nat.min_le_right ..).trans (Nat.sub_le ..)

/-- What is charged is each one's limit, less what the sharing left it wanting. -/
theorem bandServe_eq : ∃ rest : List (Nat × Nat × Nat), rest.length = need.length ∧ s.bandServe k need =
    ((need.map (fun e => (e.1, s.bandLimit k need e.1 e.2))).zip rest).map (fun e => (e.1.1, e.1.2 - e.2.2.1)) := by
  refine ⟨_, ?_, rfl⟩
  rw [shareBand_length, List.length_map, List.length_zip, List.length_map, List.length_map, List.length_map, Nat.min_self]

/-- Each that asks is charged, in the order asked. -/
theorem bandServe_who : (s.bandServe k need).map (·.1) = need.map (·.1) := by
  obtain ⟨rest, length, serve⟩ := s.bandServe_eq k need
  have covers : (need.map (fun e => (e.1, s.bandLimit k need e.1 e.2))).length ≤ rest.length := by rw [List.length_map, length]
  calc (s.bandServe k need).map (·.1)
      = (((need.map (fun e => (e.1, s.bandLimit k need e.1 e.2))).zip rest).map Prod.fst).map (·.1) := by
        rw [serve, List.map_map, List.map_map]; rfl
    _ = need.map (·.1) := by rw [List.map_fst_zip covers, List.map_map]; rfl

/-- None is charged more than its limit. -/
theorem bandServe_le {n : Nat} {e : Nat × Nat} (h : (s.bandServe k need)[n]? = some e) :
    ∃ a, need[n]? = some a ∧ e.1 = a.1 ∧ e.2 ≤ s.bandLimit k need a.1 a.2 := by
  obtain ⟨rest, -, serve⟩ := s.bandServe_eq k need
  rw [serve, List.getElem?_map] at h
  obtain ⟨⟨l, r⟩, both, rfl⟩ := Option.map_eq_some_iff.mp h
  obtain ⟨limited, -⟩ := List.getElem?_zip_eq_some.mp both
  rw [List.getElem?_map] at limited
  obtain ⟨a, asks, rfl⟩ := Option.map_eq_some_iff.mp limited
  exact ⟨a, asks, rfl, Nat.sub_le ..⟩

/-- What each needs of a window: the bytes asked for, with the activations and turnarounds they cost. -/
def bandNeed (asked : List (Nat × Nat)) : List (Nat × Nat) :=
  asked.map (fun e => (e.1, if e.2 = 0 then 0 else e.2 + Config.bandOverhead s.free k e.1))

/-- Of what one needs, the bytes asked for and their cost. -/
theorem bandNeed_getElem? {asked : List (Nat × Nat)} {n : Nat} {a : Nat × Nat} (h : (s.bandNeed k asked)[n]? = some a) :
    ∃ e, asked[n]? = some e ∧ a.1 = e.1 ∧ a.2 ≤ e.2 + Config.bandOverhead s.free k e.1 := by
  rw [bandNeed, List.getElem?_map] at h
  obtain ⟨e, asks, rfl⟩ := Option.map_eq_some_iff.mp h
  refine ⟨e, asks, rfl, ?_⟩
  dsimp only
  split
  · exact Nat.zero_le _
  · exact le_rfl

/-- None is charged more than it asks with the cost of its own turnarounds. -/
theorem bandServe_getD_le (asked : List (Nat × Nat)) (n : Nat) : ((s.bandServe k (s.bandNeed k asked)).getD n (0, 0)).2 ≤
    (asked.getD n (0, 0)).2 + Config.bandOverhead s.free k (asked.getD n (0, 0)).1 := by
  rw [List.getD_eq_getElem?_getD, List.getD_eq_getElem?_getD]
  cases charged : (s.bandServe k (s.bandNeed k asked))[n]? with
  | none => exact Nat.zero_le _
  | some e =>
    obtain ⟨a, needs, -, limited⟩ := s.bandServe_le k _ charged
    obtain ⟨b, asks, -, cost⟩ := s.bandNeed_getElem? k needs
    rw [asks]
    exact (limited.trans (s.bandLimit_le ..)).trans cost

/-- On channels that its deckle names a slice is charged no more than CEIL. -/
theorem bandServe_le_ceil {e : Nat × Nat} (h : e ∈ s.bandServe k need) (slice : e.1 < 16)
    (named : (s.slice e.1).channels k ≠ 0) : e.2 ≤ Tbl.get (s.slice e.1).ceil 255 k * 16000 := by
  obtain ⟨n, charged⟩ := List.mem_iff_getElem?.mp h
  obtain ⟨a, -, who, limited⟩ := s.bandServe_le k need charged
  rw [who] at slice named ⊢
  exact limited.trans (s.bandLimit_le_ceil k need a.2 slice named)

variable (want : List (Nat × Nat))

/-- The bytes of a window that wait: what is asked and not moved. -/
def bandHeld (asked served : List (Nat × Nat)) : List (Nat × Nat) :=
  (asked.map (fun e => (e.1, e.2 - s.moved k served e.1 e.2))).filter (fun e => e.2 != 0)

theorem bandHeld_asked {asked served : List (Nat × Nat)} {h : Nat × Nat} (waits : h ∈ s.bandHeld k asked served) :
    h.2 ≠ 0 ∧ ∃ e ∈ asked, e.1 = h.1 ∧ h.2 ≤ e.2 := by
  obtain ⟨listed, some_left⟩ := List.mem_filter.mp waits
  obtain ⟨e, asks, rfl⟩ := List.mem_map.mp listed
  exact ⟨bne_iff_ne.mp some_left, e, asks, rfl, Nat.sub_le ..⟩

/-- A stack after a window: it has what it charged, what waits and the window's number. -/
def served (asked : List (Nat × Nat)) (x : Stack) : Stack :=
  let charged := s.bandServe k (s.bandNeed k asked)
  { x with used := charged, window := s.cycle / 1000, held := s.bandHeld k asked charged }

theorem bandWindow_eq : s.bandWindow k want =
    { s.modStack k (s.served k ((s.stack k).asked want)) with free := s.free + 1 } := rfl

end State

end Sys2Proof.Machine

namespace Sys2Proof.Safety

open Machine

/-- An event that changes one stack gives what the stack, the frame and the rest imply. -/
theorem gives_of_modStack {i : Instr} {s u : State} {k : Nat} {f : Stack → Stack} {post : State → Prop} (run : exec i s = .next u)
    (h : u.hbm = (s.modStack k f).hbm)
    (hp : u.stack k = f (s.stack k) → (∀ e, e ≠ k → u.stack e = s.stack e) → post u) : Gives i s post := by
  refine ⟨u, run, hp ?_ fun e he => ?_⟩
  · rw [State.stack, h]
    exact Tbl.get_put_self ..
  · rw [State.stack, h]
    exact Tbl.get_put_ne _ _ _ (Ne.symm he)

/-- The four commands of OWNCMD are one, by its mode (R65). -/
theorem exec_own {mode f o : Nat} {i : Instr} {s : State} (h : i = .assignFrame f o ∧ mode = 0 ∨ i = .rekeyFrame f o ∧ mode = 1 ∨
    i = .releaseFrame f ∧ mode = 2 ∧ o = 0 ∨ i = .queryFrame f ∧ mode = 3 ∧ o = 0) :
    exec i s = .next (s.bar0 (s.ownGo mode f o)) := by
  rcases h with ⟨rfl, rfl⟩ | ⟨rfl, rfl⟩ | ⟨rfl, rfl, rfl⟩ | ⟨rfl, rfl, rfl⟩ <;> rfl

/-- Settles O37: a command is refused or begins by its checks, and its end is the effect on its frame; a stack's level is one equation;
what the arbiter charges is bounded by each one's limit. -/
theorem framesAndBands : Obligations.FramesAndBands := by
  refine ⟨fun mode f o i s hi hr => ⟨fun busy => ?busy, fun idle fails => ?refused, fun idle passes => ?begins⟩,
    fun f o s fits owned sound => State.ownCheck_assign_owned fits owned sound,
    fun f o s retired fits => ?retired, fun f s free => State.ownCheck_release_free free,
    fun f o e s data _ fits job => ?assign, fun f o e s fits job => ?rekey, fun f e s data _ job => ?release,
    fun k c s => ?heat, fun k want s => ?window⟩
  case busy => exact gives_bar0 hr (exec_own hi) (State.ownGo_busy busy) ⟨rfl, rfl⟩
  case refused => exact gives_bar0 hr (exec_own hi) (State.ownGo_refused idle fails) ⟨rfl, rfl, rfl, idle⟩
  case begins => exact gives_bar0 hr (exec_own hi) (State.ownGo_begins idle passes) ⟨rfl, rfl, rfl⟩
  case retired =>
    exact ⟨State.ownCheck_retired retired fits (by decide), State.ownCheck_retired retired fits (by decide),
      State.ownCheck_retired retired fits (by decide)⟩
  case assign =>
    obtain ⟨res, idle, owner⟩ := State.ownFinish_status job
    have given := (s.zeroFrame f).owner_setOwner_self f (o := o) (by omega)
    refine ⟨_, rfl, (State.ownFinish_owner job f).trans given, fun b inside => ?_, fun b outside entry => ?_, res, idle,
      owner.trans given, (State.ownFinish_groups job).trans (s.zeroFrame_groups f)⟩
    · exact (State.ownFinish_memByte job b).trans (s.zeroFrame_setOwner_inside data o inside)
    · exact (State.ownFinish_memByte job b).trans (s.zeroFrame_setOwner_outside o outside entry)
  case rekey =>
    obtain ⟨res, idle, -⟩ := State.ownFinish_status job
    refine ⟨_, rfl, (State.ownFinish_owner job f).trans (s.owner_setOwner_self f (o := o) (by omega)), fun b entry => ?_, res, idle,
      (State.ownFinish_groups job).trans rfl⟩
    exact (State.ownFinish_memByte job b).trans ((s.memByte_setOwner f o b).trans (if_neg entry))
  case release =>
    obtain ⟨-, idle, -⟩ := State.ownFinish_status job
    have given := (s.zeroFrame f).owner_setOwner_self f (o := 31) (by decide)
    refine ⟨_, rfl, (State.ownFinish_owner job f).trans given, fun b inside => ?_, fun b outside entry => ?_, idle⟩
    · exact (State.ownFinish_memByte job b).trans (s.zeroFrame_setOwner_inside data 31 inside)
    · exact (State.ownFinish_memByte job b).trans (s.zeroFrame_setOwner_outside 31 outside entry)
  case heat =>
    obtain ⟨x, m, run⟩ := execHbmThermalLevelChange_eq k c s
    refine gives_of_modStack (f := fun y => y.heated c) run rfl fun heated others => ?_
    rw [heated]
    exact ⟨heatLevel_eq .., rfl, Stack.heated_d .., others, ⟨rfl, rfl, rfl, rfl, rfl⟩⟩
  case window =>
    refine gives_of_modStack (congrArg Host.Outcome.next (s.bandWindow_eq k want)) rfl fun after others => ?_
    rw [after]
    exact ⟨rfl, others, rfl, (s.bandServe_who k _).trans (List.map_map ..), s.bandServe_getD_le k _,
      fun e he => s.bandServe_le_ceil k _ he, fun h => s.bandHeld_asked k⟩

end Sys2Proof.Safety
end

section
/-! SUPPORT. Packets of the queues (R87, R98): a COPY whose promise is written while its engine holds another copy of the number that it
takes. The statement QueuePackets does not ask that the number of every copy lie below the next one that is given. -/

namespace Sys2Proof.Machine

/-- A COPY of 16 bytes from 0x20800 to 0x20900 that names no counter and asks for its promise at 0x20D00 (R87). -/
def promisedCopy : List Byte :=
  leBytes 8 2 ++ leBytes 8 0x20800 ++ leBytes 8 0x20900 ++ leBytes 8 16 ++ zeros 16 ++ leBytes 8 0x20D00 ++ zeros 8

/-- That packet at the head of queue 0 of slice 0, which copy engine 0 of die 0 serves; the page of its objects is translated. The
engine holds a copy whose promise is still to be written and whose number is the next that a copy takes. -/
def numberTaken : State :=
  (((State.reset.boot.setMem 0x20C00 (zeros 16 ++ leBytes 8 0x21000 ++ leBytes 4 4)).setMem 0x21000 promisedCopy).modSlice 0
    (fun x => { x with queues := [(0, { qcb := 0x20C00, en := true, eng := 0x20 })], cemask := 1 })).modDie 0
    (fun d => { d with
      stlb := [{ va := 0x20000, out := 0x20000, r := true, w := true, owner := 0 }]
      engines := [(0, { jobs := [{ id := State.reset.nextJob, owed := true }] })] })

/-- Of each copy on the copy engine of die 0 that an ENG names: whether its promise is still to be written. -/
def State.owedOn (s : State) (eng : Nat) : List Bool := ((s.die 0).engine ((eng - 0x20) % 8)).jobs.map (·.owed)

theorem execPktCopy_eq (k q : Nat) (s : State) :
    exec (.pktCopy k q) s = .next (s.parse k q 2 (fun s n d b => s.queueCopy k q n d b)) := rfl

theorem numberTaken_head : numberTaken.queueHead 0 0 = .packet 0 0 0x21000 promisedCopy := by decide +kernel

theorem numberTaken_passes : numberTaken.packetErr 0 0 ((numberTaken.slice 0).queue 0).eng promisedCopy = 0 ∧
    numberTaken.pktPoison 0 0 promisedCopy = none ∧ Tbl.get (numberTaken.slice 0).pending [] 0 = [] := by decide +kernel

theorem numberTaken_owed : numberTaken.owedOn ((numberTaken.slice 0).queue 0).eng = [true] := by decide +kernel

/-- The promise of the packet's copy is written, and the other copy of its number counts as one whose promise is written too. -/
theorem numberTaken_owed_after : (numberTaken.parse 0 0 2 (fun s n d b => s.queueCopy 0 0 n d b)).owedOn
    ((numberTaken.slice 0).queue 0).eng = [false, false] := by decide +kernel

end Sys2Proof.Machine

namespace Sys2Proof.Safety

open Machine

/-- Refutes O40: State.writePromise finds the copy whose promise it has written by its number. Where the engine holds another copy of
that number (numberTaken), that one changes as well, and the engine's copies are not those of before with the packet's at their end. -/
theorem not_queuePackets : ¬ Obligations.QueuePackets := by
  unfold Obligations.QueuePackets
  rintro ⟨-, -, packets⟩
  obtain ⟨-, -, -, passes, -⟩ := packets 0 0 0 0 0x21000 promisedCopy numberTaken (by decide) numberTaken_head
  obtain ⟨err, clean, first⟩ := numberTaken_passes
  obtain ⟨-, copies, -⟩ := passes err clean (by rw [first]; exact fun _ h => absurd h List.not_mem_nil)
  obtain ⟨t, ran, ⟨j, jobs, -⟩, -⟩ := copies (.pktCopy 0 0) (.inl ⟨rfl, by decide⟩)
  rw [execPktCopy_eq] at ran
  have owed : t.owedOn ((numberTaken.slice 0).queue 0).eng = [true] ++ [j.owed] := by
    rw [← numberTaken_owed]
    exact (congrArg (List.map (·.owed)) jobs).trans (List.map_append ..)
  rw [← Host.Outcome.next.inj ran, numberTaken_owed_after] at owed
  exact absurd owed (by simp)

end Sys2Proof.Safety
end

section
/-! SUPPORT. Copies and collectives on their engines (R98, R367, R371): what the acceptance of a direct copy and of a collective changes,
and which updates leave the engines of every die as they were. -/

namespace Sys2Proof.Machine

/-- The copy engines and the collectives of a die. -/
def State.units (s : State) (d : Nat) : Tbl Engine × List CollJob := ((s.die d).engines, (s.die d).colls)

namespace State

variable {s t : State}

theorem engine_of_units {d : Nat} (h : t.units d = s.units d) (e : Nat) : (t.die d).engine e = (s.die d).engine e :=
  congrArg (fun u : Tbl Engine × List CollJob => Tbl.get u.1 {} e) h

theorem colls_of_units {d : Nat} (h : t.units d = s.units d) : (t.die d).colls = (s.die d).colls := congrArg Prod.snd h

/-- What a die's slice is owed depends on its collectives alone. -/
theorem collOwed_of_units {d : Nat} (h : t.units d = s.units d) (k : Nat) : (t.die d).collOwed k = (s.die d).collOwed k := by
  unfold Die.collOwed
  rw [colls_of_units h]

theorem units_modDie (s : State) (d e : Nat) {f : Die → Die} (h : ∀ x, (f x).engines = x.engines ∧ (f x).colls = x.colls) :
    (s.modDie d f).units e = s.units e := by
  unfold State.units
  rw [modDie_die]
  split
  next same => rw [(h _).1, (h _).2, same]
  · rfl

@[simp] theorem modGroup_units (s : State) (g : Nat) (f : Group → Group) (d : Nat) : (s.modGroup g f).units d = s.units d := rfl

@[simp] theorem fillTlb_units (s : State) (t core va d : Nat) : (s.fillTlb t core va).units d = s.units d := by
  unfold State.fillTlb
  split
  · rfl
  · exact units_modDie _ _ _ fun _ => ⟨rfl, rfl⟩

@[simp] theorem fillTlbs_units (s : State) (t core : Nat) (l : List Nat) (d : Nat) : (s.fillTlbs t core l).units d = s.units d := by
  induction l generalizing s with
  | nil => rfl
  | cons va r ih => exact (ih _).trans (fillTlb_units ..)

@[simp] theorem touch_units (s : State) (g : Group) (accs : List Acc) (d : Nat) : (s.touch g accs).units d = s.units d :=
  fillTlbs_units ..

@[simp] theorem takeMark_units (s : State) (g : Group) (d : Nat) : (s.takeMark g).1.units d = s.units d :=
  units_modDie _ _ _ fun _ => ⟨rfl, rfl⟩

/-- The number of the next copy or collective is taken. -/
def jobTaken (s : State) : State := { s with nextJob := s.nextJob + 1 }

/-! ## A direct copy -/

/-- A copy as its engine holds it from its acceptance on (R98). -/
def numberedCopy (s : State) (d e : Nat) (j : CopyJob) : CopyJob :=
  { j with
    id := s.nextJob, accepted := s.cycle, lDie := s.logDie j.slice d,
    promise := promiseOf s.cycle (owedBytes ((s.die d).engine e).jobs none) (j.size - j.landed),
    owed := j.promiseAt != 0 && j.gid.isSome }

/-- A direct copy is accepted at the end of its engine's work; its promise is written later (R105). -/
theorem acceptCopy_direct (s : State) (d e : Nat) {j : CopyJob} (direct : j.gid.isNone = false) :
    s.acceptCopy d e j =
      (s.jobTaken.modEngine d e (fun x => { x with jobs := x.jobs ++ [s.numberedCopy d e j] }),
        promiseOf s.cycle (owedBytes ((s.die d).engine e).jobs none) (j.size - j.landed)) := by
  unfold State.acceptCopy
  simp only [direct, Bool.and_false, Bool.false_eq_true, if_false]
  rfl

theorem modEngine_engine_self (s : State) (d e : Nat) (f : Engine → Engine) :
    ((s.modEngine d e f).die d).engine e = f ((s.die d).engine e) := by
  unfold State.modEngine
  rw [modDie_die_self]
  exact Tbl.get_put_self ..

theorem acceptCopy_jobs (s : State) (d e : Nat) {j : CopyJob} (direct : j.gid.isNone = false) :
    (((s.acceptCopy d e j).1.die d).engine e).jobs = ((s.die d).engine e).jobs ++ [s.numberedCopy d e j] := by
  rw [acceptCopy_direct s d e direct]
  exact congrArg Engine.jobs (modEngine_engine_self ..)

/-! ## A collective -/

/-- A collective without members so far, as its engine holds it from its acceptance on: with those that MLIST names, and its numbers
among theirs (R410). -/
def numberedColl (s : State) (d : Nat) (j : CollJob) : CollJob :=
  { j with
    id := s.nextJob, accepted := s.cycle, lDie := s.logDie j.slice d, names := s.collNames d j,
    ords := (s.collNames d j).map (fun n => match n with | some m => Tbl.get (s.slice j.slice).collSeq 0 m | none => 0) }

/-- A collective at the end of those of a die. -/
def addColl (s : State) (d : Nat) (j : CollJob) : State := s.modDie d (fun x => { x with colls := x.colls ++ [j] })

theorem addColl_colls (s : State) (d : Nat) (j : CollJob) : ((s.addColl d j).die d).colls = (s.die d).colls ++ [j] :=
  congrArg Die.colls (modDie_die_self ..)

/-- Its acceptance adds it to those of its die and changes at most its slice besides. -/
theorem acceptColl_new (s : State) (d : Nat) {j : CollJob} (new : j.names = []) :
    (s.acceptColl d j).1 = s.jobTaken.addColl d (s.numberedColl d j) ∨
      ∃ f, (s.acceptColl d j).1 = (s.jobTaken.addColl d (s.numberedColl d j)).modSlice j.slice f := by
  unfold State.acceptColl
  simp only [new, List.isEmpty_nil, if_true]
  split
  · exact .inl rfl
  · exact .inr ⟨_, rfl⟩

theorem acceptColl_colls (s : State) (d : Nat) {j : CollJob} (new : j.names = []) :
    ((s.acceptColl d j).1.die d).colls = (s.die d).colls ++ [s.numberedColl d j] := by
  obtain accepted | ⟨f, accepted⟩ := s.acceptColl_new d new <;> rw [accepted]
  · exact addColl_colls ..
  · exact addColl_colls ..

end State

end Sys2Proof.Machine

namespace Sys2Proof.Safety

open Machine

theorem sameButCounts_modEngine (s : State) (d e : Nat) (f : Engine → Engine) : SameButCounts s (s.modEngine d e f) :=
  sameButCounts_modDie s d (fun x => { x with engines := Tbl.put x.engines e (f (x.engine e)) }) (fun _ => rfl) (fun _ => rfl)

theorem sameButCounts_jobTaken (s : State) : SameButCounts s s.jobTaken := by constructor <;> intros <;> rfl

theorem sameButCounts_addColl (s : State) (d : Nat) (j : CollJob) : SameButCounts s (s.addColl d j) :=
  sameButCounts_modDie s d (fun x => { x with colls := x.colls ++ [j] }) (fun _ => rfl) (fun _ => rfl)

theorem sameButCounts_acceptCopy (s : State) (d e : Nat) {j : CopyJob} (direct : j.gid.isNone = false) :
    SameButCounts s (s.acceptCopy d e j).1 := by
  rw [State.acceptCopy_direct s d e direct]
  dsimp only
  exact (sameButCounts_jobTaken s).trans (sameButCounts_modEngine _ d e _)

theorem sameButCounts_acceptColl (s : State) (d : Nat) {j : CollJob} (new : j.names = []) :
    SameButCounts s (s.acceptColl d j).1 := by
  have added := (sameButCounts_jobTaken s).trans (sameButCounts_addColl s.jobTaken d (s.numberedColl d j))
  obtain accepted | ⟨f, accepted⟩ := s.acceptColl_new d new <;> rw [accepted]
  · exact added
  · exact added.trans (sameButCounts_modSlice ..)

end Sys2Proof.Safety
end

section
/-! SUPPORT. Forms that read an image (R350, R366, R371) or answer in a group-scalar pair: what they leave in the group beside an entry of
its logbook, and the statement CopiesAndCollectives. -/

namespace Sys2Proof.Machine

/-- A group with one more entry in its logbook. -/
def Group.withEntry (g : Group) (e : Entry) : Group := { g with log := g.log ++ [e], nextNum := g.nextNum + 1 }

/-- Among entries that have another place, a change of an entry is a change of the last one. -/
theorem map_log_append {l : List Entry} {e : Entry} (fresh : ∀ n ∈ l, n.id ≠ e.id) (f : Entry → Entry) :
    (l ++ [e]).map (fun n => if n.id == e.id then f n else n) = l ++ [f e] := by
  have kept : l.map (fun n => if n.id == e.id then f n else n) = l := by
    conv_rhs => rw [← List.map_id l]
    exact List.map_congr_left fun n hn => if_neg (by simpa using fresh n hn)
  rw [List.map_append, kept, List.map_singleton, if_pos (beq_self_eq_true _)]

theorem extractLsb'_ofNat_low (n : Nat) : (BitVec.ofNat 64 n).extractLsb' 0 32 = BitVec.ofNat 32 n := by
  apply BitVec.eq_of_toNat_eq
  simp

/-- A split that sleeps at an address until the condition of a wait holds. -/
def Split.asleep (q : Split) (pc : DWord) (w : Wait) : Split := { q with st := .sleep, why := .cond, pc := pc, wait := some w }

/-- An instruction that has just issued and waits for its turn. -/
theorem State.defer_fresh (t : State) {c : Cx} (fresh : c.sp.wait = none) : t.defer c =
    t.modGroup c.gid (·.modSplit c.born (·.asleep c.sp.pc { insn := c.i, num := c.g.nextNum, kept := c.kept })) := by
  unfold State.defer
  rw [fresh]
  rfl

/-! ## What the forms do, once their image is read -/

/-- The copy of a form (R366), with its group and the place of its entry. -/
def Cx.copyOf (c : Cx) (b : List Byte) : CopyJob :=
  { slice := c.g.slice, ctx := c.g.ctx, gid := some (c.gid, freePlace c.g.log), image := b, imageAt := c.addr1 }

/-- The collective of a form (R371). -/
def Cx.collOf (c : Cx) (b : List Byte) : CollJob :=
  { slice := c.g.slice, ctx := c.g.ctx, gid := some (c.gid, freePlace c.g.log), image := b, imageAt := c.addr1,
    gated := field b 0x26 1 == 1 }

/-- The form has been accepted in a state with a promise: its entry holds the image and the promise, its destination the promise. -/
def Cx.accepted (c : Cx) (r : State × Nat) (kind cls : Nat) (accs : List Acc) (b : List Byte) : State :=
  c.giveSp ((c.enter r.1 kind cls c.mask accs).modGroup c.gid (fun g => g.modEntry (freePlace c.g.log) (fun e =>
    { e with img := b, promise := BitVec.ofNat 64 r.2 }))) c.vw.d (BitVec.ofNat 64 r.2)

/-- KIND of the entry of a copy (R367). -/
def copyKind (b : List Byte) : Nat := if spansMeet b then 10 else 9

/-- A copy form on an engine that the slice may use, with its image. -/
def Cx.takeCopy (c : Cx) (t : State) (ty ld e d : Nat) (accs : List Acc) (b : List Byte) : Res :=
  if t.imageBad c.g.slice (min d 3) ty b then c.illegal 2
  else match t.objFault c.g.slice d b with
    | some x => .trap (c.objTrap x)
    | none => .ok (c.accepted ((t.touch c.g accs).acceptCopy d e (c.copyOf b)) (copyKind b) (kindClass (copyKind b))
        (c.imageAcc (ld * 8 + e)) b)

/-- coll.issue with its image. -/
def Cx.takeColl (c : Cx) (t : State) (accs : List Acc) (b : List Byte) : Res :=
  if t.imageBad c.g.slice (dieOf c.g.core) 4 b then c.illegal 2
  else match t.objFault c.g.slice (dieOf c.g.core) b with
    | some x => .trap (c.objTrap x)
    | none => .ok (c.accepted ((t.touch c.g accs).acceptColl (dieOf c.g.core) (c.collOf b)) 11 1 (c.imageAcc 0) b)

theorem execCollIssue_eq (f : RG) (s : State) :
    exec (.collIssue f) s = issue (.collIssue f) s (fun c t => c.readBlock t true 64 (c.takeColl t)) := rfl

/-- A copy form on an engine that the slice may use, which has room for it, reads its image. -/
theorem Cx.copyIssue_reads {c : Cx} {t : State} {ld e d : Nat} (ty : Nat) (sel : selector (c.s c.vw.b) = some (ld, e))
    (die : t.physDie c.g.slice ld = some d) (four : d < 4) (named : t.ceNamed c.g.slice d e = true)
    (room : (((t.die d).engine e).jobs.filter (·.queue.isNone)).length < 64) :
    c.copyIssue t ty = c.readBlock t true 64 (c.takeCopy t ty ld e d) := by
  unfold Cx.copyIssue
  rw [sel]
  dsimp only
  simp only [die, Option.getD_some, four, named, decide_true, Bool.and_self, Bool.true_and, Nat.not_le.mpr room, decide_false,
    Bool.false_eq_true, if_false, Bool.not_true]
  split
  next h => cases h
  · rfl

theorem Cx.takeCopy_good {c : Cx} {t : State} {ty ld e d : Nat} (accs : List Acc) {b : List Byte} (four : d < 4)
    (good : t.imageBad c.g.slice d ty b = false) (reach : t.objFault c.g.slice d b = none) :
    c.takeCopy t ty ld e d accs b = .ok (c.accepted ((t.touch c.g accs).acceptCopy d e (c.copyOf b)) (copyKind b)
      (kindClass (copyKind b)) (c.imageAcc (ld * 8 + e)) b) := by
  unfold Cx.takeCopy
  rw [Nat.min_eq_left (Nat.le_of_lt_succ four), good, reach]
  rfl

theorem Cx.takeColl_good {c : Cx} {t : State} (accs : List Acc) {b : List Byte}
    (good : t.imageBad c.g.slice (dieOf c.g.core) 4 b = false) (reach : t.objFault c.g.slice (dieOf c.g.core) b = none) :
    c.takeColl t accs b =
      .ok (c.accepted ((t.touch c.g accs).acceptColl (dieOf c.g.core) (c.collOf b)) 11 1 (c.imageAcc 0) b) := by
  unfold Cx.takeColl
  rw [good, reach]
  rfl

/-! ## Forms on a copy that is under way (R369, R370) -/

/-- A form on the engine that its selector names, which CEMASK must name as well. -/
def Cx.onEngine (c : Cx) (t : State) (k : Nat → Nat → Res) : Res :=
  match selector (c.s c.vw.b) with
  | none => c.illegal 2
  | some (ld, e) =>
    let d := (t.physDie c.g.slice ld).getD 4
    if !(decide (d < 4) && t.ceNamed c.g.slice d e) then c.priv else k d e

/-- What cp.rekey answers for an engine. -/
def Cx.rekeyed (c : Cx) (t : State) (d e : Nat) : Nat :=
  match t.copyFrom c.g d e c.addr1 with
  | some j => t.revisedPromise d e j
  | none => t.cycle

/-- A copy may still be cancelled. -/
def CopyJob.cancels (j : CopyJob) : Bool := j.stopped.isNone && j.cancel.isNone && decide (j.next < j.size)

/-- The copies of a number on an engine are marked as cancelled by an instruction. -/
def State.markCancelled (t : State) (d e id : Nat) (c : Cx) : State :=
  t.modCopy d e id (fun j => { j with cancel := some (c.gid, t.now c.g.core, c.g.nextNum) })

/-- cp.cancel on an engine. -/
def Cx.cancelOn (c : Cx) (t : State) (d e : Nat) : Res :=
  match t.copyFrom c.g d e c.addr1 with
  | some j => if j.cancels then .ok (c.giveSp (t.markCancelled d e j.id c) c.vw.d 1) else .ok (c.giveSp t c.vw.d 0)
  | none => .ok (c.giveSp t c.vw.d 0)

theorem execCpRekey_eq (f : RG) (s : State) : exec (.cpRekey f) s = issue (.cpRekey f) s (fun c t =>
    c.onEngine t (fun d e => .ok (c.giveSp t c.vw.d (BitVec.ofNat 64 (c.rekeyed t d e))))) := rfl

theorem execCpCancel_eq (f : RG) (s : State) :
    exec (.cpCancel f) s = issue (.cpCancel f) s (fun c t => c.onEngine t (c.cancelOn t)) := rfl

section
variable {c : Cx} {t : State} {k : Nat → Nat → Res} {ld e : Nat} (sel : selector (c.s c.vw.b) = some (ld, e))
include sel

theorem Cx.onEngine_denied
    (denied : 4 ≤ (t.physDie c.g.slice ld).getD 4 ∨ t.ceNamed c.g.slice ((t.physDie c.g.slice ld).getD 4) e = false) :
    c.onEngine t k = c.priv := by
  unfold Cx.onEngine
  rw [sel]
  refine if_pos ?_
  rcases denied with far | unnamed
  · rw [decide_eq_false (Nat.not_lt.mpr far)]; rfl
  · rw [unnamed, Bool.and_false]; rfl

theorem Cx.onEngine_named (four : (t.physDie c.g.slice ld).getD 4 < 4)
    (named : t.ceNamed c.g.slice ((t.physDie c.g.slice ld).getD 4) e = true) :
    c.onEngine t k = k ((t.physDie c.g.slice ld).getD 4) e := by
  unfold Cx.onEngine
  rw [sel]
  refine if_neg ?_
  rw [decide_eq_true four, named]
  decide

end

/-- No copy of the image that could still be cancelled: cp.cancel answers 0. -/
theorem Cx.cancelOn_nothing {c : Cx} {t : State} {d e : Nat}
    (ended : ∀ j, t.copyFrom c.g d e c.addr1 = some j → j.stopped ≠ none ∨ j.cancel ≠ none ∨ j.size ≤ j.next) :
    c.cancelOn t d e = .ok (c.giveSp t c.vw.d 0) := by
  unfold Cx.cancelOn
  split
  next j found =>
    refine if_neg ?_
    simp only [CopyJob.cancels, Bool.and_eq_true, Option.isNone_iff_eq_none, decide_eq_true_eq, not_and, not_lt]
    rintro ⟨running, kept⟩
    exact ((ended j found).resolve_left (absurd running)).resolve_left (absurd kept)
  · rfl

theorem Cx.cancelOn_marks {c : Cx} {t : State} {d e : Nat} {j : CopyJob} (found : t.copyFrom c.g d e c.addr1 = some j)
    (running : j.stopped = none) (kept : j.cancel = none) (left : j.next < j.size) :
    c.cancelOn t d e = .ok (c.giveSp (t.markCancelled d e j.id c) c.vw.d 1) := by
  unfold Cx.cancelOn
  rw [found]
  exact if_pos (by simp [CopyJob.cancels, running, kept, left])

theorem State.markCancelled_jobs (t : State) (d e id : Nat) (c : Cx) {j : CopyJob}
    (mem : j ∈ (((t.markCancelled d e id c).die d).engine e).jobs) (same : j.id = id) :
    j.cancel = some (c.gid, t.now c.g.core, c.g.nextNum) := by
  have jobs : (((t.markCancelled d e id c).die d).engine e).jobs = _ := congrArg Engine.jobs (State.modEngine_engine_self t d e _)
  rw [jobs] at mem
  obtain ⟨k, -, rfl⟩ := List.mem_map.mp mem
  split at same
  next hit => rw [if_pos hit]
  next miss => exact absurd (beq_iff_eq.mpr same) miss

/-! ## Engines -/

@[simp] theorem Cx.giveSp_units (c : Cx) (t : State) (n : Nat) (v : DWord) (d : Nat) : (c.giveSp t n v).units d = t.units d := by
  simp only [Cx.giveSp, Cx.giveS, Cx.toScalar, State.modGroup_units]

@[simp] theorem Cx.enter_units (c : Cx) (t : State) (kind cls : Nat) (mask : Word) (accs : List Acc) (d : Nat) :
    (c.enter t kind cls mask accs).units d = t.units d := by
  unfold Cx.enter
  rw [State.modGroup_units]
  split
  · exact State.takeMark_units ..
  · rfl

/-- The entry of a form on an engine changes no engine. -/
theorem Cx.accepted_units (c : Cx) (r : State × Nat) (kind cls : Nat) (accs : List Acc) (b : List Byte) (d : Nat) :
    (c.accepted r kind cls accs b).units d = r.1.units d := by
  simp only [Cx.accepted, Cx.giveSp_units, State.modGroup_units, Cx.enter_units]

end Sys2Proof.Machine

namespace Sys2Proof.Safety

open Machine

variable {i : Instr} {s t u : State} {gid : Nat} {g : Group} {p : Split} {e : Entry}

/-! ## A result in a group-scalar pair -/

theorem Wrote.counts {ex : List Nat} (w : Wrote ex i s t gid g p) (h : SameButCounts t u) : Wrote ex i s u gid g p := by
  have same : u.group gid = t.group gid := congrArg (fun l : Tbl Group => Tbl.get l {} gid) h.groups
  exact ⟨w.memory.trans h.same, fun k hk => by rw [h.groups, w.groups k hk], by rw [h.groups, w.found, same],
    by rw [same]; exact w.regs, by rw [same, w.splits], by rw [same]; exact w.rest⟩

section
variable {c : Cx} (hc : c.gid = gid) (n : Nat) (v : DWord)
include hc

theorem Wrote.giveSp (w : Wrote [] i s t gid g p) : Wrote [64 + n, 64 + n + 1] i s (c.giveSp t n v) gid g p :=
  ((w.toScalar c hc false n (v.extractLsb' 0 32)).toScalar c hc false (n + 1) (v.extractLsb' 32 32)).weaken
    (by simp [Nat.add_assoc])

theorem Wrote.giveSp_holds (w : Wrote [] i s t gid g p) :
    ScalarHolds c ((c.giveSp t n v).group gid) n (v.extractLsb' 0 32) ∧
      ScalarHolds c ((c.giveSp t n v).group gid) (n + 1) (v.extractLsb' 32 32) := by
  have low := w.toScalar c hc false n (v.extractLsb' 0 32)
  constructor
  · refine (toScalar_group hc low.found false (n + 1) n _).trans ?_
    rw [if_neg (Nat.succ_ne_self n)]
    exact (toScalar_group hc w.found false n n _).trans (if_pos rfl)
  · exact (toScalar_group hc low.found false (n + 1) (n + 1) _).trans (if_pos rfl)

theorem Wrote.giveSp_fmode (w : Wrote [] i s t gid g p) : ((c.giveSp t n v).group gid).fmode = (t.group gid).fmode :=
  (toScalar_fmode hc (w.toScalar c hc false n (v.extractLsb' 0 32)).found false (n + 1) _).trans (toScalar_fmode hc w.found false n _)

end

/-! ## An entry and a result -/

theorem found_modGroup (f : Group → Group) (found : Tbl.find t.groups gid = some g) :
    Tbl.find (t.modGroup gid f).groups gid = some ((t.modGroup gid f).group gid) := by
  rw [State.find_modGroup, if_pos rfl, found, State.group_modGroup f found]
  rfl

/-- A new entry on a state that differs from the one after issue itself in counts alone. -/
theorem logged_withEntry (h : Issues i s gid g p) (same : SameButCounts (afterIssue i s gid g p) u) (e : Entry) :
    Logged i s (u.modGroup gid (·.withEntry e)) gid g p e := by
  have found : Tbl.find u.groups gid = some (issuedGroup i s g p) := by rw [same.groups, after_groups h.group, if_pos rfl]
  refine ⟨(after_same i s gid g p).trans (same.same.trans (sameMemory_modGroup _ _ _)), State.group_modGroup _ found,
    found_modGroup _ found, fun k hk => ?_⟩
  rw [State.find_modGroup, if_neg (Ne.symm hk), same.groups, after_groups h.group, if_neg (Ne.symm hk)]

/-- The context's entry on such a state. -/
theorem logged_enter_counts (h : Issues i s gid g p) (same : SameButCounts (afterIssue i s gid g p) u) (kind cls : Nat)
    (accs : List Acc) : Logged i s ((ctx i s gid g p).enter u kind cls p.mask accs) gid g p
      (entryOf (ctx i s gid g p) u kind cls p.mask accs) :=
  logged_withEntry h (same.trans (enter_base (ctx i s gid g p) u cls)) _

/-- The new entry is changed, and no other has its place. -/
theorem Logged.modEntry (w : Logged i s t gid g p e) (fresh : ∀ n ∈ g.log, n.id ≠ e.id) (f : Entry → Entry) :
    Logged i s (t.modGroup gid (·.modEntry e.id f)) gid g p (f e) := by
  refine ⟨w.memory.trans (sameMemory_modGroup _ _ _), ?_, ?_, fun k hk => ?_⟩
  · rw [State.group_modGroup _ w.found, w.group]
    unfold Group.modEntry
    dsimp only
    rw [map_log_append fresh f]
  · exact found_modGroup _ w.found
  · rw [State.find_modGroup, if_neg (Ne.symm hk), w.groups k hk]

/-- An issue that leaves an entry is one of the group with that entry. -/
theorem Logged.wrote (w : Logged i s t gid g p e) : Wrote [] i s t gid (g.withEntry e) p := by
  refine ⟨w.memory, w.groups, w.found, ?_, by rw [w.group]; rfl, ?_⟩
  · rw [w.group]; constructor <;> intros <;> rfl
  · unfold KeepsRest; rw [w.group]; rfl

/-- A form on an engine that has been accepted: its destination and its entry hold the promise, and its split goes on. -/
theorem accepted_gives (h : Issues i s gid g p) {r : State × Nat} (same : SameButCounts (afterIssue i s gid g p) r.1)
    (fresh : ∀ n ∈ g.log, n.id ≠ freePlace g.log) (kind cls : Nat) (accs : List Acc) (b : List Byte) :
    let c := ctx i s gid g p
    let t := c.accepted r kind cls accs b
    ScalarHolds c (t.group gid) (view i).d (BitVec.ofNat 32 r.2) ∧
      ScalarHolds c (t.group gid) ((view i).d + 1) ((BitVec.ofNat 64 r.2).extractLsb' 32 32) ∧
      (t.group gid).log = g.log ++ [{ entryOf c r.1 kind cls p.mask accs with img := b, promise := BitVec.ofNat 64 r.2 }] ∧
      KeepsRegs [64 + (view i).d, 64 + (view i).d + 1] g (t.group gid) ∧ restLog (t.group gid) = restLog g ∧ SameMemory s t ∧
      GoesOn i s g p (t.group gid) ∧ ∀ d, t.units d = r.1.units d := by
  intro c t
  have entered := ((logged_enter_counts h same kind cls accs).modEntry fresh
    (fun e => { e with img := b, promise := BitVec.ofNat 64 r.2 })).wrote
  have w := entered.giveSp (c := c) rfl (view i).d (BitVec.ofNat 64 r.2)
  obtain ⟨low, high⟩ := entered.giveSp_holds (c := c) rfl (view i).d (BitVec.ofNat 64 r.2)
  rw [extractLsb'_ofNat_low] at low
  have goes := w.goesOn h.split
  exact ⟨low, high, congrArg Group.log w.rest, ⟨w.regs.v, w.regs.s, w.regs.p⟩,
    congrArg (fun x : Group => { x with log := [], nextNum := 0 }) w.rest, w.memory, ⟨goes.split, goes.others⟩,
    c.accepted_units r kind cls accs b⟩

/-! ## Reading an image (R350, R366) -/

theorem ctx_num (h : Issues i s gid g p) : (ctx i s gid g p).num = g.nextNum := by
  have fresh : (ctx i s gid g p).sp.wait = none := h.noWait
  unfold Cx.num
  rw [fresh]
  rfl

section
variable {a : Acc} {peer : Bool} {size : Nat} {k : List Acc → List Byte → Res}

/-- An image of the part whose turn has come is read as a load of the group would read it. -/
theorem readBlock_reads (h : Issues i s gid g p)
    (one : (ctx i s gid g p).checkOne t { priv := false, peer := peer } size (ctx i s gid g p).addr1 = .ok [a])
    (near : a.remote = false) (turn : waitTurn g g.nextNum [a] = true) (calm : t.frameBusy g.slice a = false)
    (own : t.ctlOwner g a = true) (clean : t.readsPoison g a = none) :
    (ctx i s gid g p).readBlock t peer size k = k [a] (t.readLoc g a.loc size) := by
  have fresh : (ctx i s gid g p).sp.wait = none := h.noWait
  have group : (ctx i s gid g p).g = g := rfl
  unfold Cx.readBlock
  simp [one, fresh, ctx_num h, group, turn, near, calm, own, clean]

/-- One at a peer is asked for, once. -/
theorem readBlock_asks (h : Issues i s gid g p)
    (one : (ctx i s gid g p).checkOne t { priv := false, peer := peer } size (ctx i s gid g p).addr1 = .ok [a])
    (far : a.remote = true) (turn : waitTurn g g.nextNum [a] = true) (first : (ctx i s gid g p).asked = false) :
    (ctx i s gid g p).readBlock t peer size k = .ok ((ctx i s gid g p).askImage t size a) := by
  have fresh : (ctx i s gid g p).sp.wait = none := h.noWait
  have group : (ctx i s gid g p).g = g := rfl
  unfold Cx.readBlock
  simp [one, fresh, ctx_num h, group, turn, far, first]

end

/-- The splits of the group after an issue that leaves an entry. -/
theorem Logged.split? (w : Logged i s t gid g p e) (b : Nat) : (t.group gid).split? b =
    if p.born = b then (g.split? b).map (fun q => issuedSplit q (s.now g.core) (view i).w (instrLen i)) else g.split? b :=
  (split_find (by rw [w.group]; rfl) b).trans (Group.split?_modSplit g p.born b _ fun _ => rfl)

theorem restLog_modSplit (x : Group) (b : Nat) (f : Split → Split) : restLog (x.modSplit b f) = restLog x := rfl

/-- The split of such an issue sleeps at its form. -/
theorem Logged.deferred (w : Logged i s t gid g p e) (h : Issues i s gid g p) :
    let c := ctx i s gid g p
    let x := (t.defer c).group gid
    SleepsAt g p x { insn := i, num := g.nextNum, kept := c.kept } none ∧ x.log = g.log ++ [e] ∧ restLog x = restLog g ∧
      KeepsRegs [] g x ∧ SameMemory s (t.defer c) := by
  intro c x
  have issued := w.records h
  have state : t.defer c = _ := t.defer_fresh h.noWait
  have group : x = (t.group gid).modSplit p.born (·.asleep p.pc { insn := i, num := g.nextNum, kept := c.kept }) :=
    (congrArg (State.group · gid) state).trans (State.group_modGroup _ w.found)
  have splits (b : Nat) := Group.split?_modSplit (t.group gid) p.born b
    (·.asleep p.pc { insn := i, num := g.nextNum, kept := c.kept }) fun _ => rfl
  refine ⟨⟨⟨(issuedSplit p (s.now g.core) (view i).w (instrLen i)).asleep p.pc _, ?_, rfl, rfl, rfl, rfl, rfl, rfl, rfl⟩,
    fun b other => ?_⟩, ?_, ?_, ?_, ?_⟩
  · rw [group, splits, if_pos rfl, w.split?, if_pos rfl, h.split]; rfl
  · rw [group, splits, if_neg (Ne.symm other), w.split?, if_neg (Ne.symm other)]
  · exact (congrArg Group.log group).trans issued.log
  · exact (congrArg restLog group).trans ((restLog_modSplit ..).trans issued.rest)
  · rw [group]; exact ⟨issued.regs.v, issued.regs.s, issued.regs.p⟩
  · rw [state]; exact w.memory.trans (sameMemory_modGroup _ _ _)

/-- An image at a peer is asked for in a load of sixteen pieces, for which the split waits. -/
theorem askImage_gives (h : Issues i s gid g p) (fresh : ∀ n ∈ g.log, n.id ≠ freePlace g.log) (a : Acc) :
    let c := ctx i s gid g p
    let t := c.askImage (afterIssue i s gid g p) 64 a
    (∃ n : Entry, (t.group gid).log = g.log ++ [n] ∧ n.kind = 1 ∧ n.cls = 0 ∧ n.mask = p.mask ∧ n.dst = [] ∧ n.done = 0 ∧
      n.acc.map (fun x => (x.ea, x.off, x.size)) = (List.range 16).map (fun k => (a.ea + BitVec.ofNat 64 (4 * k), 4 * k, 4))) ∧
    SleepsAt g p (t.group gid) { insn := i, num := g.nextNum, kept := c.kept } none ∧ restLog (t.group gid) = restLog g ∧
      KeepsRegs [] g (t.group gid) ∧ SameMemory s t := by
  intro c t
  obtain ⟨sleeps, log, others, regs, memory⟩ := ((logged_enter h 1 0 p.mask _).modEntry fresh
    (fun e => { e with dst := [], src := [], dreg := 0xFF, one := true })).deferred h
  exact ⟨⟨_, log, rfl, rfl, rfl, rfl, rfl, List.map_map ..⟩, sleeps, others, regs, memory⟩

/-! ## The forms -/

/-- A copy form reads its image where its engine is one that the slice may use and has room. -/
theorem exec_copyForm {f : RG} {ty ld n d : Nat} (form : (i = .cpIssue f ∧ ty = 2) ∨ (i = .cpIssue2d f ∧ ty = 3))
    (sel : selector ((ctx i s gid g p).s f.b.toNat) = some (ld, n)) (die : (afterIssue i s gid g p).physDie g.slice ld = some d)
    (four : d < 4) (named : (afterIssue i s gid g p).ceNamed g.slice d n = true)
    (room : ((((afterIssue i s gid g p).die d).engine n).jobs.filter (·.queue.isNone)).length < 64) :
    exec i s = issue i s (fun c t => c.copyIssue t ty) ∧
      (ctx i s gid g p).copyIssue (afterIssue i s gid g p) ty =
        (ctx i s gid g p).readBlock (afterIssue i s gid g p) true 64 ((ctx i s gid g p).takeCopy (afterIssue i s gid g p) ty ld n d) := by
  rcases form with ⟨rfl, rfl⟩ | ⟨rfl, rfl⟩ <;> exact ⟨rfl, Cx.copyIssue_reads _ sel die four named room⟩

/-- The address and the destination of a form that names an image. -/
theorem imageForm_operands {f : RG} (form : i = .cpIssue f ∨ i = .cpIssue2d f ∨ i = .collIssue f) :
    (ctx i s gid g p).addr1 = (ctx i s gid g p).addr f.a.toNat (firstLane p.mask) ∧ (view i).d = f.d.toNat := by
  rcases form with rfl | rfl | rfl <;> exact ⟨rfl, rfl⟩

/-- A change of a group and of the draw of free values changes neither the clock nor a die. -/
theorem drawn_modGroup_cycle (t : State) (gid n : Nat) (f : Group → Group) :
    ({ t.modGroup gid f with free := n } : State).cycle = t.cycle := rfl

theorem drawn_modGroup_die (t : State) (gid n : Nat) (f : Group → Group) (d : Nat) :
    ({ t.modGroup gid f with free := n } : State).die d = t.die d := rfl

theorem after_cycle (i : Instr) (s : State) (gid : Nat) (g : Group) (p : Split) : (afterIssue i s gid g p).cycle = s.cycle :=
  (congrArg State.cycle (after_eq i s gid g p)).trans
    ((drawn_modGroup_cycle ..).trans (sameButCounts_issue { s with cur := none } g p i).cycle)

theorem after_die (i : Instr) (s : State) (gid : Nat) (g : Group) (p : Split) (d : Nat) :
    (afterIssue i s gid g p).die d = (beforeGroup i s g p).die d :=
  (congrArg (State.die · d) (after_eq i s gid g p)).trans (drawn_modGroup_die ..)

theorem after_now (i : Instr) (s : State) (gid : Nat) (g : Group) (p : Split) (c : Nat) : (afterIssue i s gid g p).now c = s.now c :=
  (congrArg Die.cyc (after_die i s gid g p (dieOf c))).trans ((sameButCounts_issue { s with cur := none } g p i).cyc (dieOf c))

theorem touch_cycle (s : State) (g : Group) (accs : List Acc) : (s.touch g accs).cycle = s.cycle := (sameButCounts_touch s g accs).cycle

/-- A form without an entry whose one result is a group-scalar pair. -/
theorem gives_pair {v : DWord} (h : Issues i s gid g p) (same : SameButCounts (afterIssue i s gid g p) t)
    (run : exec i s = .next ((ctx i s gid g p).giveSp t (view i).d v)) :
    ∃ u, exec i s = .next u ∧ ScalarHolds (ctx i s gid g p) (u.group gid) (view i).d (v.extractLsb' 0 32) ∧
      ScalarHolds (ctx i s gid g p) (u.group gid) ((view i).d + 1) (v.extractLsb' 32 32) ∧ (u.group gid).fmode = g.fmode ∧
      RegsOnly [64 + (view i).d, 64 + (view i).d + 1] s u gid g ∧ GoesOn i s g p (u.group gid) ∧ ∀ d, u.units d = t.units d := by
  have w := (wrote_after h).counts same
  have pair := w.giveSp (c := ctx i s gid g p) rfl (view i).d v
  obtain ⟨low, high⟩ := w.giveSp_holds (c := ctx i s gid g p) rfl (view i).d v
  have group : t.group gid = (afterIssue i s gid g p).group gid := congrArg (fun l : Tbl Group => Tbl.get l {} gid) same.groups
  exact ⟨_, run, low, high, (w.giveSp_fmode rfl _ v).trans ((congrArg Group.fmode group).trans (fmode_after h)), pair.regsOnly,
    pair.goesOn h.split, fun _ => Cx.giveSp_units ..⟩

/-- A form that names an image reads it, a copy form where its engine is one that the slice may use and has room. -/
theorem exec_imageForm {f : RG} (form : i = .cpIssue f ∨ i = .cpIssue2d f ∨ i = .collIssue f)
    (engine : i = .collIssue f ∨ ∃ ld n d, selector ((ctx i s gid g p).s f.b.toNat) = some (ld, n) ∧
      (afterIssue i s gid g p).physDie g.slice ld = some d ∧ d < 4 ∧ (afterIssue i s gid g p).ceNamed g.slice d n = true ∧
      ((((afterIssue i s gid g p).die d).engine n).jobs.filter (·.queue.isNone)).length < 64) :
    ∃ body k, exec i s = issue i s body ∧
      body (ctx i s gid g p) (afterIssue i s gid g p) = (ctx i s gid g p).readBlock (afterIssue i s gid g p) true 64 k := by
  rcases engine with rfl | ⟨ld, n, d, sel, die, four, named, room⟩
  · exact ⟨_, _, execCollIssue_eq f s, rfl⟩
  · rcases form with rfl | rfl | rfl
    · exact ⟨_, _, exec_copyForm (.inl ⟨rfl, rfl⟩) sel die four named room⟩
    · exact ⟨_, _, exec_copyForm (.inr ⟨rfl, rfl⟩) sel die four named room⟩
    · exact ⟨_, _, execCollIssue_eq f s, rfl⟩

theorem sameButCounts_markCancelled (s : State) (d n id : Nat) (c : Cx) : SameButCounts s (s.markCancelled d n id c) := by
  unfold State.markCancelled State.modCopy
  exact sameButCounts_modEngine s d n _

/-- Settles O26: an image of the part is read as a load would read it, and its acceptance adds one copy or collective and one entry; an
image at a peer is asked for; cp.rekey and cp.cancel answer for the copy that the image names, on an engine that CEMASK names. -/
theorem copiesAndCollectives : Obligations.CopiesAndCollectives := by
  refine ⟨fun f i ty s gid g p a b ld e d form hi => ?copy, fun f i s gid g p a form hi => ?ask,
    fun f i s gid g p ld e form hi sel => ?priv, fun f s gid g p ld e hi => ?rekey, fun f s gid g p ld e hi => ?cancel,
    fun f s gid g p a b hi => ?coll⟩
  case copy =>
    intro c u x pr sel die four named room one near turn calm own clean image good reach fresh
    obtain ⟨run, reads⟩ := exec_copyForm form sel die four named room
    obtain ⟨addr, dest⟩ := imageForm_operands (s := s) (gid := gid) (g := g) (p := p) (form.imp And.left (.inl ·.1))
    have ok := reads.trans ((readBlock_reads hi (by rw [addr]; exact one) near turn calm own clean).trans
      ((congrArg (c.takeCopy u ty ld e d [a]) image.symm).trans (Cx.takeCopy_good [a] four good reach)))
    have touched := State.engine_of_units (u.touch_units g [a] d) e
    have cycle := (touch_cycle u g [a]).trans (after_cycle i s gid g p)
    have promise : ((u.touch g [a]).acceptCopy d e (c.copyOf b)).2 = pr := by
      show promiseOf _ _ _ = promiseOf _ _ _
      rw [cycle, touched]; rfl
    obtain ⟨low, high, log, regs, others, memory, goes, units⟩ := accepted_gives hi
      ((sameButCounts_touch u g [a]).trans (sameButCounts_acceptCopy (u.touch g [a]) d e (j := c.copyOf b) rfl)) fresh
      (copyKind b) (kindClass (copyKind b)) (c.imageAcc (ld * 8 + e)) b
    have jobs := congrArg Engine.jobs (State.engine_of_units (units d) e)
    rw [(u.touch g [a]).acceptCopy_jobs d e rfl, touched] at jobs
    rw [promise, dest] at low high
    rw [dest] at regs
    rw [promise] at log
    exact ⟨_, ok_of run ok hi, low, high, ⟨_, jobs, rfl, rfl, rfl, rfl, rfl, rfl, cycle⟩, ⟨_, log, rfl, rfl, rfl, rfl, rfl⟩, regs, others,
      memory, goes⟩
  case ask =>
    intro c u engine one far turn first fresh
    obtain ⟨addr, -⟩ := imageForm_operands (s := s) (gid := gid) (g := g) (p := p) form
    obtain ⟨body, k, run, reads⟩ := exec_imageForm form engine
    have asks := reads.trans (readBlock_asks hi (by rw [addr]; exact one) far turn first)
    obtain ⟨log, sleeps, others, regs, memory⟩ := askImage_gives hi fresh a
    exact ⟨_, ok_of run asks hi, log, sleeps, others, regs, memory⟩
  case priv =>
    intro d denied
    rcases form with rfl | rfl
    · exact trap_of (execCpRekey_eq f s) (Cx.onEngine_denied sel denied) hi
    · exact trap_of (execCpCancel_eq f s) (Cx.onEngine_denied sel denied) hi
  case rekey =>
    intro c u d sel four named v
    have answer : BitVec.ofNat 64 (c.rekeyed u d e) = v := by
      unfold Cx.rekeyed State.revisedPromise
      rw [after_cycle]
      rfl
    have ok : c.onEngine u (fun d e => .ok (c.giveSp u c.vw.d (BitVec.ofNat 64 (c.rekeyed u d e)))) = .ok (c.giveSp u c.vw.d v) :=
      (Cx.onEngine_named sel four named).trans (congrArg (fun v => Res.ok (c.giveSp u c.vw.d v)) answer)
    obtain ⟨t, run, low, high, fmode, only, goes, -⟩ := gives_pair hi (.refl _) (ok_of (execCpRekey_eq f s) ok hi)
    exact ⟨t, run, low, high, fmode, only, goes⟩
  case cancel =>
    intro c u d sel four named
    have acts : c.onEngine u (c.cancelOn u) = c.cancelOn u d e := Cx.onEngine_named sel four named
    refine ⟨fun ended => ?_, fun j found running kept left => ?_⟩
    · obtain ⟨t, run, low, high, fmode, only, goes, -⟩ := gives_pair hi (.refl _)
        (ok_of (execCpCancel_eq f s) (acts.trans (Cx.cancelOn_nothing ended)) hi)
      exact ⟨t, run, low, high, fmode, only, goes⟩
    · obtain ⟨t, run, low, high, -, only, goes, units⟩ := gives_pair hi (sameButCounts_markCancelled u d e j.id c)
        (ok_of (execCpCancel_eq f s) (acts.trans (Cx.cancelOn_marks found running kept left)) hi)
      refine ⟨t, run, low, high, fun k mem same => ?_, only, goes⟩
      rw [State.engine_of_units (units d)] at mem
      exact (u.markCancelled_jobs d e j.id c mem same).trans (by rw [after_now]; rfl)
  case coll =>
    intro c u d j0 pr one near turn calm own clean image good reach fresh
    have ok := (readBlock_reads hi one near turn calm own clean).trans
      ((congrArg (c.takeColl u [a]) image.symm).trans (Cx.takeColl_good [a] good reach))
    have touched := u.touch_units g [a] d
    have cycle := (touch_cycle u g [a]).trans (after_cycle (.collIssue f) s gid g p)
    have promise : ((u.touch g [a]).acceptColl d (c.collOf b)).2 = pr := by
      show promiseOf _ _ _ = promiseOf _ _ _
      rw [cycle, State.collOwed_of_units touched]; rfl
    obtain ⟨low, high, log, regs, others, memory, goes, units⟩ := accepted_gives hi
      ((sameButCounts_touch u g [a]).trans (sameButCounts_acceptColl (u.touch g [a]) d (j := c.collOf b) rfl)) fresh 11 1
      (c.imageAcc 0) b
    have colls := State.colls_of_units (units d)
    rw [(u.touch g [a]).acceptColl_colls d rfl, State.colls_of_units touched] at colls
    rw [promise] at low high
    exact ⟨_, ok_of (execCollIssue_eq f s) ok hi, low, high, ⟨_, colls, rfl, rfl, rfl, rfl, rfl, cycle⟩,
      ⟨_, log, rfl, rfl, rfl, rfl, rfl⟩, regs, others, memory, goes⟩

end Sys2Proof.Safety
end

section
/-! SUPPORT. The groups that stand (R70, R103, R173): which operations leave the keys and the slices of the groups as they were, that
a discarded group is gone and no other, and the statement KilledSliceHasNoGroups. -/

namespace Sys2Proof.Machine

/-! ## Keys of a table -/

section
variable {α : Type} {t : Tbl α} {k : Nat}

theorem Tbl.mem_of_find {a : α} (h : Tbl.find t k = some a) : (k, a) ∈ t := by
  induction t with
  | nil => cases h
  | cons e t ih =>
    obtain ⟨j, b⟩ := e
    rw [Tbl.find_cons] at h
    split at h
    next same => rw [← Option.some.inj h, same]; exact List.mem_cons_self
    next => exact List.mem_cons_of_mem _ (ih h)

theorem Tbl.find_eq_none : Tbl.find t k = none ↔ ∀ e ∈ t, e.1 ≠ k := by
  induction t with
  | nil => exact ⟨fun _ _ h => absurd h List.not_mem_nil, fun _ => rfl⟩
  | cons e t ih =>
    obtain ⟨j, b⟩ := e
    rw [Tbl.find_cons, List.forall_mem_cons, ← ih]
    split
    next same => exact ⟨fun h => (Option.some_ne_none b h).elim, fun h => absurd same h.1⟩
    next other => exact ⟨fun h => ⟨other, h⟩, fun h => h.2⟩

/-- A reading of the values after a key is dropped. -/
theorem Tbl.map_del {β : Type} (π : α → β) (t : Tbl α) (k : Nat) :
    (Tbl.del t k).map (fun e => (e.1, π e.2)) = (t.map (fun e => (e.1, π e.2))).filter (fun e => e.1 != k) := by
  induction t with
  | nil => rfl
  | cons e t ih =>
    obtain ⟨j, b⟩ := e
    rw [Tbl.del, List.map_cons, List.filter_cons, ← ih]
    by_cases h : j = k <;> simp [h]

/-- A change of one value that a reading does not see. -/
theorem Tbl.map_upd {β : Type} {π : α → β} {f : α → α} (h : ∀ a, π (f a) = π a) (t : Tbl α) (k : Nat) :
    (Tbl.upd t k f).map (fun e => (e.1, π e.2)) = t.map (fun e => (e.1, π e.2)) := by
  induction t with
  | nil => rfl
  | cons e t ih =>
    rw [Tbl.upd]
    split
    · rw [List.map_cons, List.map_cons, h]
    · rw [List.map_cons, List.map_cons, ih]

end

/-! ## The roster of the groups -/

/-- The groups that stand, each with its slice. -/
def State.roster (s : State) : List (Nat × Nat) := s.groups.map (fun e => (e.1, e.2.slice))

theorem State.roster_ite {c : Prop} [Decidable c] {s t u : State} (ht : t.roster = s.roster) (hu : u.roster = s.roster) :
    (if c then t else u).roster = s.roster := by
  split <;> assumption

namespace State

variable (s : State)

theorem roster_of_groups {s t : State} (h : t.groups = s.groups) : t.roster = s.roster :=
  congrArg (List.map fun e : Nat × Group => (e.1, e.2.slice)) h

@[simp] theorem roster_modDie (d : Nat) (f : Die → Die) : (s.modDie d f).roster = s.roster := rfl
@[simp] theorem roster_modCore (c : Nat) (f : Core → Core) : (s.modCore c f).roster = s.roster := rfl
@[simp] theorem roster_modSlice (t : Nat) (f : Slice → Slice) : (s.modSlice t f).roster = s.roster := rfl
@[simp] theorem roster_setHost (a : Nat) (l : List Byte) : (s.setHost a l).roster = s.roster := rfl
@[simp] theorem roster_markBad (w : ErrSite) : (s.markBad w).roster = s.roster := rfl
@[simp] theorem roster_dropCopy (die e id : Nat) : (s.dropCopy die e id).roster = s.roster := rfl

/-- A change of a group that leaves it with its slice. -/
theorem roster_modGroup {f : Group → Group} (gid : Nat) (h : ∀ g, (f g).slice = g.slice) : (s.modGroup gid f).roster = s.roster :=
  Tbl.map_upd h s.groups gid

@[simp] theorem roster_postRecord (fn ring : Nat) (r : RecordData) : (s.postRecord fn ring r).roster = s.roster :=
  roster_of_groups (groups_of_placing (placing_postRecord ..))

@[simp] theorem roster_objLost (t src object addr : Nat) : (s.objLost t src object addr).roster = s.roster := roster_postRecord ..

@[simp] theorem roster_spill (l : Line) : (s.spill l).roster = s.roster := roster_of_groups (groups_of_placing (placing_spill ..))

@[simp] theorem roster_moveMarks (l : Line) (p : LByte → Bool) : (s.moveMarks l p).roster = s.roster :=
  roster_of_groups (groups_of_placing (placing_moveMarks ..))

@[simp] theorem roster_ownedByte (t pa : Nat) (v : Byte) : (s.ownedByte t pa v).roster = s.roster :=
  roster_of_groups (groups_of_placing (placing_ownedByte ..))

/-! ## Bytes that an engine writes -/

@[simp] theorem roster_publishBytes (a : Nat) (l : List Byte) : (s.publishBytes a l).roster = s.roster := roster_ite rfl rfl

theorem roster_of_engineBytes {s u : State} {t die va : Nat} {l : List Byte} (h : s.engineBytes t die va l = some u) :
    u.roster = s.roster := by
  induction l generalizing s va with
  | nil => cases h; rfl
  | cons b l ih =>
    unfold State.engineBytes at h
    split at h
    · cases h
    · split at h
      · exact (ih h).trans (roster_publishBytes ..)
      · split at h
        · exact (ih h).trans (roster_setHost ..)
        · cases h

@[simp] theorem roster_writeMarks (t : Nat) (as : List Nat) : (s.writeMarks t as).roster = s.roster := by
  unfold State.writeMarks
  dsimp only
  split <;> rfl

theorem roster_of_engineWrite {s u : State} {t die va : Nat} {l : List Byte} (h : s.engineWrite t die va l = some u) :
    u.roster = s.roster := by
  obtain ⟨w, bytes, rfl⟩ := Option.map_eq_some_iff.mp h
  have written := roster_of_engineBytes bytes
  exact roster_ite written ((roster_writeMarks ..).trans written)

/-- A write that may fail, with what is done then. -/
theorem roster_engineWrite_getD {s v : State} (t die va : Nat) (l : List Byte) (h : v.roster = s.roster) :
    ((s.engineWrite t die va l).getD v).roster = s.roster := by
  cases written : s.engineWrite t die va l with
  | none => exact h
  | some u => exact roster_of_engineWrite written

/-! ## Logbooks, counters and arrival objects -/

/-- A mark on entries of logbooks. -/
@[simp] theorem roster_markOperand (c o n : Nat) : (s.markOperand c o n).roster = s.roster :=
  roster_ite (List.map_map ..) rfl

@[simp] theorem roster_setSpad (c o : Nat) (l : List Byte) : (s.setSpad c o l).roster = s.roster := roster_markOperand ..

@[simp] theorem roster_syncFrame (gid : Nat) : (s.syncFrame gid).roster = s.roster := by
  unfold State.syncFrame
  split
  · rfl
  · split
    · dsimp only
      split
      · rfl
      next written => exact (roster_engineWrite_getD _ _ _ _ rfl).trans (roster_of_engineWrite written)
    · rfl

@[simp] theorem roster_freeEntry (gid id : Nat) : (s.freeEntry gid id).roster = s.roster :=
  (roster_syncFrame ..).trans (roster_modGroup _ _ fun _ => rfl)

@[simp] theorem roster_modEntry (gid id : Nat) (f : Entry → Entry) : (s.modEntry gid id f).roster = s.roster :=
  (roster_syncFrame ..).trans (roster_modGroup _ _ fun _ => rfl)

@[simp] theorem roster_settleEntry (who stopped : Option (Nat × Nat)) (prog : Nat) (addr : DWord) :
    (s.settleEntry who stopped prog addr).roster = s.roster := by
  unfold State.settleEntry
  split
  · rfl
  · split
    · rfl
    · split
      · rfl
      · split
        · exact roster_freeEntry ..
        · exact roster_ite (roster_freeEntry ..) ((roster_modEntry ..).trans (roster_modEntry ..))

@[simp] theorem roster_counterAdd (t die ctx addr n src : Nat) : (s.counterAdd t die ctx addr n src).roster = s.roster := by
  refine roster_ite rfl (roster_ite rfl ?_)
  dsimp only
  split
  · exact roster_objLost ..
  · exact roster_engineWrite_getD _ _ _ _ (roster_objLost ..)

@[simp] theorem roster_counterError (t die addr word src : Nat) : (s.counterError t die addr word src).roster = s.roster := by
  refine roster_ite rfl (roster_ite rfl ?_)
  split
  · exact roster_objLost ..
  · exact roster_ite rfl (roster_engineWrite_getD _ _ _ _ (roster_objLost ..))

@[simp] theorem roster_modArrive (t w : Nat) (b : Bool) (f : Arrival → Arrival) : (s.modArrive t w b f).roster = s.roster := by
  unfold State.modArrive
  split
  · rfl
  · exact roster_ite rfl (roster_ite (roster_setSpad ..) (roster_setSpad ..))

/-! ## Copies and collectives that end -/

@[simp] theorem roster_packetDone (t : Nat) (q : Option Nat) (num : Nat) : (s.packetDone t q num).roster = s.roster := by
  cases q <;> rfl

@[simp] theorem roster_finishCopy (die e : Nat) (j : CopyJob) : (s.finishCopy die e j).roster = s.roster := by
  unfold State.finishCopy
  cases j.stopped <;> simp

@[simp] theorem roster_stopCopy (die e : Nat) (j : CopyJob) (cause nak : Nat) (addr : DWord) :
    (s.stopCopy die e j cause nak addr).roster = s.roster := roster_ite (roster_finishCopy ..) rfl

@[simp] theorem roster_finishColl (die : Nat) (j : CollJob) : (s.finishColl die j).roster = s.roster := by
  unfold State.finishColl
  cases j.stopped <;> cases j.gid <;> simp

@[simp] theorem roster_stopJobsOf (gid cause : Nat) : (s.stopJobsOf gid cause).roster = s.roster := by
  refine foldl_keeps roster (fun t d => (foldl_keeps roster (fun u j => ?coll) ..).trans
    (foldl_keeps roster (fun u x => foldl_keeps roster (fun v j => ?copy) ..) ..)) ..
  case coll =>
    split
    · exact roster_ite (roster_finishColl ..) rfl
    · rfl
  case copy =>
    split
    · exact roster_ite (roster_stopCopy ..) rfl
    · rfl

/-! ## A group that is discarded -/

@[simp] theorem roster_finishI2 (gid : Nat) (g : Group) : (s.finishI2 gid g).roster = s.roster := by
  refine foldl_keeps roster (fun t e => foldl_keeps roster (fun u a => ?_) ..) ..
  split
  · exact roster_ite rfl rfl
  · exact roster_ite rfl rfl
  · rfl

@[simp] theorem roster_publishCopies (d gid : Nat) (p : Nat → Bool) : (s.publishCopies d gid p).roster = s.roster := by
  refine (roster_modDie ..).trans (foldl_keeps roster (fun t e => ?_) ..)
  exact roster_ite (roster_ite ((roster_markBad ..).trans (roster_ownedByte ..)) (roster_ownedByte ..)) rfl

@[simp] theorem roster_publishLines (c gid : Nat) (p : Nat → Bool) : (s.publishLines c gid p).roster = s.roster := by
  refine (roster_modCore ..).trans (foldl_keeps roster (fun t l => ?_) ..)
  refine roster_ite rfl ((foldl_keeps roster (fun u e => ?_) ..).trans (roster_moveMarks ..))
  exact roster_ite (roster_ownedByte ..) rfl

@[simp] theorem roster_publishIf (gid : Nat) (p : Nat → Bool) : (s.publishIf gid p).roster = s.roster :=
  (foldl_keeps roster (fun t c => t.roster_publishLines c gid p) ..).trans
    (foldl_keeps roster (fun t d => t.roster_publishCopies d gid p) ..)

@[simp] theorem roster_withdraw (gid : Nat) : (s.withdraw gid).roster = s.roster :=
  (foldl_keeps roster (fun _ _ => by rfl) ..).trans (foldl_keeps roster (fun _ _ => by rfl) ..)

@[simp] theorem roster_forget (owner : Nat) (l : List Entry) : (s.forget owner l).roster = s.roster :=
  foldl_keeps roster (fun _ _ => by rfl) ..

@[simp] theorem roster_dropPrivate (gid : Nat) (back : Bool) : (s.dropPrivate gid back).roster = s.roster := by
  refine foldl_keeps roster (fun t c => (roster_modCore ..).trans ?_) ..
  exact roster_ite (foldl_keeps roster roster_spill ..) rfl

@[simp] theorem roster_watchClaims (d : Nat) : (s.watchClaims d).roster = s.roster :=
  roster_of_groups (Safety.watchClaims_frame s d).work.groups

/-- A group that is discarded is gone, and no other is. -/
theorem roster_discardGroup (gid cause : Nat) : (s.discardGroup gid cause).roster = s.roster.filter (fun e => e.1 != gid) := by
  unfold State.discardGroup
  split
  next absent =>
    refine (List.filter_eq_self.mpr fun e he => ?_).symm
    obtain ⟨x, hx, rfl⟩ := List.mem_map.mp he
    exact bne_iff_ne.mpr (Tbl.find_eq_none.mp absent x hx)
  next g _ =>
    refine (roster_watchClaims ..).trans ?_
    refine (Tbl.map_del Group.slice _ gid).trans (congrArg (List.filter fun e : Nat × Nat => e.1 != gid) ?_)
    show (State.dropPrivate _ gid false).roster = s.roster
    simp only [roster_dropPrivate, roster_forget, roster_withdraw, roster_publishIf, roster_stopJobsOf, roster_finishI2]

/-- Of the groups of a list that are discarded none is left, and all others are. -/
theorem roster_foldl_discardGroup (cause : Nat) (l : Tbl Group) : (l.foldl (fun u e => u.discardGroup e.1 cause) s).roster =
    s.roster.filter (fun e => !(l.map (·.1)).contains e.1) := by
  induction l generalizing s with
  | nil => exact (List.filter_eq_self.mpr fun _ _ => rfl).symm
  | cons x l ih =>
    rw [List.foldl_cons, ih, roster_discardGroup, List.filter_filter]
    refine List.filter_congr fun e _ => ?_
    rw [List.map_cons, List.contains_cons, Bool.not_or, Bool.and_comm]; rfl

/-! ## A slice whose work is dropped -/

@[simp] theorem roster_undefRange (t die va n : Nat) : (s.undefRange t die va n).roster = s.roster :=
  foldl_keeps roster (fun _ _ => roster_engineWrite_getD _ _ _ _ rfl) ..

@[simp] theorem roster_scrubCore (c owner : Nat) : (s.scrubCore c owner).roster = s.roster :=
  roster_of_groups (groups_of_placing (placing_scrubCore ..))

/-- The groups of a slice whose work is dropped. -/
def groupsOf (t : Nat) : Tbl Group := s.groups.filter (fun e => e.2.slice == t)

/-- Dropping the work of a slice discards its groups and no other. -/
theorem roster_dropWork (t cause : Nat) : (s.dropWork t cause).roster =
    s.roster.filter (fun e => !((s.groupsOf t).map (·.1)).contains e.1) := by
  refine Eq.trans ?_ (s.roster_foldl_discardGroup cause (s.groupsOf t))
  unfold State.dropWork
  simp only [roster_modSlice]
  refine (foldl_keeps roster (fun u c => ?scrub) ..).trans ((foldl_keeps roster (fun u d => ?range) ..).trans
    ((foldl_keeps roster (fun u e => ?launch) ..).trans ((foldl_keeps roster (fun u p => ?packet) ..).trans
      (foldl_keeps roster (fun u d => ?jobs) ..))))
  case packet => exact roster_ite (roster_counterError ..) rfl
  case launch => exact roster_ite rfl (roster_counterError ..)
  case range => exact foldl_keeps roster (fun v r => v.roster_undefRange ..) ..
  case scrub => exact (roster_scrubCore ..).trans (roster_modCore ..)
  case jobs =>
    refine (roster_modDie ..).trans ((foldl_keeps roster (fun v j => ?coll) ..).trans
      (foldl_keeps roster (fun v e => foldl_keeps roster (fun w j => ?copy) ..) ..))
    case coll => exact roster_ite (roster_counterError ..) rfl
    case copy => exact roster_ite ((roster_dropCopy ..).trans (roster_counterError ..)) rfl

theorem mem_roster {s : State} {gid t : Nat} : (gid, t) ∈ s.roster ↔ ∃ g, (gid, g) ∈ s.groups ∧ g.slice = t := by
  refine List.mem_map.trans ⟨?_, fun ⟨g, hg, slice⟩ => ⟨(gid, g), hg, by rw [slice]⟩⟩
  rintro ⟨⟨j, g⟩, hg, same⟩
  obtain ⟨rfl, rfl⟩ := Prod.mk.inj same
  exact ⟨g, hg, rfl⟩

section
variable {s} {t cause gid : Nat} {g : Group}

/-- What stands after the work of a slice is dropped stood before, in another slice. -/
theorem stood_of_find_dropWork (h : Tbl.find (s.dropWork t cause).groups gid = some g) :
    (gid, g.slice) ∈ s.roster ∧ g.slice ≠ t := by
  have stands := mem_roster.mpr ⟨g, Tbl.mem_of_find h, rfl⟩
  rw [roster_dropWork, List.mem_filter] at stands
  obtain ⟨stood, kept⟩ := stands
  refine ⟨stood, fun same => ?_⟩
  obtain ⟨x, hx, slice⟩ := mem_roster.mp stood
  have dropped : gid ∈ (s.groupsOf t).map (·.1) :=
    List.mem_map.mpr ⟨(gid, x), List.mem_filter.mpr ⟨hx, beq_iff_eq.mpr (slice.trans same)⟩, rfl⟩
  rw [List.contains_iff_mem.mpr dropped] at kept
  exact Bool.noConfusion kept

theorem find_dropWork_none (h : Tbl.find s.groups gid = none) : Tbl.find (s.dropWork t cause).groups gid = none := by
  by_contra! left
  obtain ⟨g, found⟩ := Option.ne_none_iff_exists'.mp left
  obtain ⟨x, hx, -⟩ := mem_roster.mp (stood_of_find_dropWork found).1
  exact Tbl.find_eq_none.mp h _ hx rfl

/-- A kill begins by DKILL (R102). -/
theorem execDkill_begins {k : Nat} {v : Word} (hk : k < 16) (bit : v.getLsbD 0 = true) (running : s.m.recovery = false)
    (act : (s.slice k).st = .active) (alive : (s.slice k).killing = false) : execDkill k v s = .next ((s.dropWork k 2).modSlice k
      (fun x => { x with killing := true, killCause := 2, killFrame := 0, busyEnd := s.cycle + 1000000 })) := by
  rw [← startKill_active 2 0 act alive]
  refine congrArg Host.Outcome.next ((State.bar0_running running _).trans (if_pos ?_))
  rw [bit, decide_eq_true hk]; rfl

end

end State

end Sys2Proof.Machine

namespace Sys2Proof.Safety

open Machine

/-- Settles O47: a kill drops the work of its slice, which discards the slice's groups and no other. -/
theorem killedSliceHasNoGroups : Obligations.KilledSliceHasNoGroups := by
  intro k v s hk bit running act alive
  exact ⟨_, State.execDkill_begins hk bit running act alive, fun h g found => (State.stood_of_find_dropWork found).2,
    fun h absent => State.find_dropWork_none absent⟩

end Sys2Proof.Safety
end

section
/-! SUPPORT. A rollback (R105, R106): what it leaves of memory, of the dies and of scratchpads in which nothing is undone, and what it
gives back to a group. -/

namespace Sys2Proof.Machine

section
variable {α : Type}

/-- A table of which every value has changed. -/
theorem Tbl.find_map (f : Nat × α → α) (t : Tbl α) (k : Nat) :
    Tbl.find (t.map (fun e => (e.1, f e))) k = (Tbl.find t k).map (fun a => f (k, a)) := by
  induction t with
  | nil => rfl
  | cons e t ih =>
    obtain ⟨j, b⟩ := e
    rw [List.map_cons, Tbl.find_cons, Tbl.find_cons, ih]
    split
    next same => obtain rfl : j = k := same; rfl
    · rfl

/-- A reading that a change of every value does not see. -/
theorem Tbl.get_map_keeps {β : Type} (π : α → β) {f : Nat × α → α} (h : ∀ e, π (f e) = π e.2) (t : Tbl α) (d : α) (k : Nat) :
    π (Tbl.get (t.map (fun e => (e.1, f e))) d k) = π (Tbl.get t d k) := by
  rw [Tbl.get_eq, Tbl.get_eq, Tbl.find_map]
  cases Tbl.find t k with
  | none => rfl
  | some a => exact h (k, a)

variable {t : Tbl α} {k : Nat} {f f' : α → α}

theorem Tbl.upd_id : Tbl.upd t k (fun a => a) = t := by
  induction t with
  | nil => rfl
  | cons e t ih =>
    rw [Tbl.upd, ih]
    split <;> rfl

/-- A change is determined by the value that it meets. -/
theorem Tbl.upd_congr (h : ∀ a, Tbl.find t k = some a → f a = f' a) : Tbl.upd t k f = Tbl.upd t k f' := by
  induction t with
  | nil => rfl
  | cons e t ih =>
    obtain ⟨j, b⟩ := e
    rw [Tbl.upd, Tbl.upd]
    split
    next same => rw [h b (by rw [Tbl.find_cons, if_pos same])]
    next other => rw [ih fun a found => h a (by rw [Tbl.find_cons, if_neg other, found])]

theorem Tbl.mem_upd {e : Nat × α} (h : e ∈ Tbl.upd t k f) : e ∈ t ∨ ∃ a, (k, a) ∈ t ∧ e = (k, f a) := by
  induction t with
  | nil => cases h
  | cons x t ih =>
    obtain ⟨j, b⟩ := x
    rw [Tbl.upd] at h
    split at h
    next same =>
      rcases List.mem_cons.mp h with first | later
      · exact .inr ⟨b, same ▸ List.mem_cons_self, same ▸ first⟩
      · exact .inl (List.mem_cons_of_mem _ later)
    next =>
      rcases List.mem_cons.mp h with first | later
      · exact .inl (first ▸ List.mem_cons_self)
      · refine (ih later).imp (List.mem_cons_of_mem _) fun ⟨a, ha, same⟩ => ⟨a, List.mem_cons_of_mem _ ha, same⟩

end

/-! ## What a rollback leaves -/

/-- A die but for its copy engines and collectives, from which a rollback drops operations. -/
def Die.still (x : Die) : Die := { x with engines := [], colls := [] }

theorem Die.counts_of_still {x y : Die} (h : x.still = y.still) : x.frozen = y.frozen ∧ x.cyc = y.cyc ∧ x.strikes = y.strikes := by
  have frozen : x.still.frozen = y.still.frozen := by rw [h]
  have cyc : x.still.cyc = y.still.cyc := by rw [h]
  have strikes : x.still.strikes = y.still.strikes := by rw [h]
  exact ⟨frozen, cyc, strikes⟩

/-- Memory, and the dies but for their engines. -/
def State.fabric (s : State) : List Host.Cell × (Nat → Die) := (s.mem, fun d => (s.die d).still)

/-- Scratchpads and tile stores, and what the tile forms of each core wrote. -/
def State.scratch (s : State) : List Host.Cell × Tbl Word × (Nat → List Undo) := (s.spad, s.tile, fun c => (s.core c).undo)

namespace State

variable {s t : State}

theorem fabric_ext (mem : t.mem = s.mem) (dies : ∀ d, (t.die d).still = (s.die d).still) : t.fabric = s.fabric :=
  Prod.ext mem (funext dies)

theorem scratch_ext (spad : t.spad = s.spad) (tile : t.tile = s.tile) (undo : ∀ c, (t.core c).undo = (s.core c).undo) :
    t.scratch = s.scratch := Prod.ext spad (Prod.ext tile (funext undo))

theorem mem_of_fabric (h : t.fabric = s.fabric) : t.mem = s.mem := congrArg Prod.fst h

theorem die_of_fabric (h : t.fabric = s.fabric) (d : Nat) : (t.die d).still = (s.die d).still := congrFun (congrArg Prod.snd h) d

theorem undo_of_scratch (h : t.scratch = s.scratch) (c : Nat) : (t.core c).undo = (s.core c).undo :=
  congrFun (congrArg (fun p => p.2.2) h) c

variable (s)

@[simp] theorem fabric_modCore (c : Nat) (f : Core → Core) : (s.modCore c f).fabric = s.fabric := rfl

theorem scratch_modCore {f : Core → Core} (c : Nat) (h : ∀ x, (f x).undo = x.undo) : (s.modCore c f).scratch = s.scratch := by
  refine scratch_ext rfl rfl fun e => ?_
  rw [modCore_core]
  split
  next same => rw [h, same]
  · rfl

/-- A collective that is dropped frees its numbers, which slices and collectives hold (R410). -/
theorem unpair_keeps (j : CollJob) : (s.unpair j).fabric = s.fabric ∧ (s.unpair j).scratch = s.scratch ∧
    (s.unpair j).groups = s.groups := by
  refine ⟨foldl_keeps fabric (fun u e => ?_) .., foldl_keeps scratch (fun u e => ?_) .., foldl_keeps State.groups (fun u e => ?_) ..⟩
  · split
    · rfl
    · exact fabric_ext rfl (Tbl.get_map_keeps Die.still (fun _ => by rfl) u.dies {})
  · split <;> rfl
  · split <;> rfl

/-- Operations that are dropped leave the queues of the arrays and the engines (R106). -/
theorem dropMade_keeps (gid : Nat) (g ck : Group) (cyc : Nat) : (s.dropMade gid g ck cyc).fabric = s.fabric ∧
    (s.dropMade gid g ck cyc).scratch = s.scratch ∧ (s.dropMade gid g ck cyc).groups = s.groups := by
  unfold State.dropMade
  extract_lets drop late u
  have fabric_u : u.fabric = s.fabric := foldl_keeps fabric (fun v j => (v.unpair_keeps j).1) ..
  have scratch_u : u.scratch = s.scratch := foldl_keeps scratch (fun v j => (v.unpair_keeps j).2.1) ..
  have groups_u : u.groups = s.groups := foldl_keeps State.groups (fun v j => (v.unpair_keeps j).2.2) ..
  refine ⟨Eq.trans ?_ fabric_u, Eq.trans ?_ scratch_u, groups_u⟩
  · exact fabric_ext rfl (Tbl.get_map_keeps Die.still (fun _ => by rfl) u.dies {})
  · exact scratch_ext rfl rfl (Tbl.get_map_keeps Core.undo (fun _ => by rfl) u.cores {})

/-- A group that goes back changes no byte, and of the dies the engines alone (R106). -/
theorem rollGroup_keeps (now cyc gid : Nat) (ck : Group) : (s.rollGroup now cyc gid ck).fabric = s.fabric ∧
    (s.rollGroup now cyc gid ck).scratch = s.scratch := by
  unfold State.rollGroup
  split
  · exact ⟨rfl, rfl⟩
  · split
    · exact ⟨rfl, rfl⟩
    next g _ _ =>
      obtain ⟨fabric, scratch, -⟩ := s.dropMade_keeps gid g ck cyc
      exact ⟨fabric, scratch⟩

/-- A saved group stays as it is (R105). -/
theorem rollGroup_groups (now cyc gid : Nat) (ck : Group) : (s.rollGroup now cyc gid ck).groups =
    Tbl.upd s.groups gid (fun g => if g.place = .saved then g else rolledBack now g ck) := by
  unfold State.rollGroup
  split
  next absent => exact Tbl.upd_id.symm.trans (Tbl.upd_congr fun a found => by cases absent.symm.trans found)
  next g found =>
    split
    next saved =>
      refine Tbl.upd_id.symm.trans (Tbl.upd_congr fun a here => ?_)
      rw [← Option.some.inj (found.symm.trans here), if_pos (beq_iff_eq.mp saved)]
    next stands =>
      refine Eq.trans ?_ (Tbl.upd_congr (f := fun _ => rolledBack now g ck) fun a here => ?_)
      · exact congrArg (Tbl.upd · gid _) (s.dropMade_keeps gid g ck cyc).2.2
      · rw [← Option.some.inj (found.symm.trans here), if_neg fun saved => stands (beq_iff_eq.mpr saved)]

/-! ## What tile forms wrote (R105, log 52) -/

theorem fabric_setSpad (c o : Nat) (l : List Byte) : (s.setSpad c o l).fabric = s.fabric := by
  show (s.markOperand c o l.length).fabric = _
  unfold State.markOperand
  split <;> rfl

theorem fabric_undo (c : Nat) (u : Undo) : (s.undo c u).fabric = s.fabric := by
  have bytes : (u.spad.foldl (fun t b => if t.spadByte c b.1 = b.2.2 then t.setSpad c b.1 [b.2.1] else t) s).fabric = s.fabric := by
    refine foldl_keeps fabric (fun t b => ?_) ..
    split
    · exact fabric_setSpad ..
    · rfl
  unfold State.undo
  dsimp only
  split
  · exact bytes
  · exact bytes

theorem fabric_undoSince (c cyc : Nat) (gid : Option Nat) : (s.undoSince c cyc gid).fabric = s.fabric :=
  (fabric_modCore ..).trans (foldl_keeps fabric (fun t u => t.fabric_undo c u) ..)

variable {s} in
/-- With nothing to undo no byte changes. -/
theorem scratch_undoSince {c : Nat} (nothing : (s.core c).undo = []) (cyc : Nat) (gid : Option Nat) :
    (s.undoSince c cyc gid).scratch = s.scratch := by
  unfold State.undoSince
  rw [nothing]
  refine scratch_ext rfl rfl fun e => ?_
  show ((s.modCore c _).core e).undo = _
  rw [modCore_core]
  split
  next same => rw [← same, nothing]; rfl
  · rfl

/-! ## A core that is rolled back -/

/-- The leaves that a rollback of a core loses, and its buckets (R105, R236). -/
def unspent (s : State) (now c : Nat) (ck : Checkpoint) : State :=
  let m := Tbl.get ck.cores {} c
  (s.modCore c (fun x => lostLeaves now x)).modCore c (fun x =>
    { x with bkt := rolledBucket x m, winSpent := if x.win = m.win then m.winSpent else x.winSpent,
             scrub := if now < x.scrub then now + 4096 else x.scrub })

theorem scratch_unspent (now c : Nat) (ck : Checkpoint) : (s.unspent now c ck).scratch = s.scratch := by
  refine (scratch_modCore _ c fun x => ?_).trans (scratch_modCore s c fun x => ?_)
  · rfl
  · rfl

/-- One group of a core goes back to its mark, if it has one. -/
def rollMarked (x : Die) (now c : Nat) (ck : Checkpoint) (s : State) (e : Nat × Group) : State :=
  match x.groupMark ck e.1 c with
  | some g => s.rollGroup now ck.cyc e.1 g
  | none => s

theorem rollCore_eq (now c : Nat) (ck : Checkpoint) : s.rollCore now c ck =
    (s.groups.filter (fun e => e.2.core == c)).foldl (rollMarked (s.die (dieOf c)) now c ck)
      ((s.unspent now c ck).undoSince c ck.cyc none) := rfl

theorem rollMarked_keeps (x : Die) (now c : Nat) (ck : Checkpoint) (e : Nat × Group) :
    (rollMarked x now c ck s e).fabric = s.fabric ∧ (rollMarked x now c ck s e).scratch = s.scratch := by
  unfold rollMarked
  split
  · exact s.rollGroup_keeps ..
  · exact ⟨rfl, rfl⟩

theorem fabric_rollCore (now c : Nat) (ck : Checkpoint) : (s.rollCore now c ck).fabric = s.fabric := by
  rw [rollCore_eq]
  exact (foldl_keeps fabric (fun t e => (t.rollMarked_keeps (s.die (dieOf c)) now c ck e).1) _ _).trans (fabric_undoSince ..)

variable {s} in
theorem scratch_rollCore {c : Nat} (nothing : (s.core c).undo = []) (now : Nat) (ck : Checkpoint) :
    (s.rollCore now c ck).scratch = s.scratch := by
  rw [rollCore_eq]
  refine (foldl_keeps scratch (fun t e => (t.rollMarked_keeps (s.die (dieOf c)) now c ck e).2) _ _).trans ?_
  have unspent := s.scratch_unspent now c ck
  exact (scratch_undoSince ((undo_of_scratch unspent c).trans nothing) ..).trans unspent

/-! ## A zone that is rolled back -/

/-- The cores of a zone are rolled back to the die's checkpoint, if it has one. -/
def rollZone (s : State) (d cl : Nat) : State :=
  match (s.die d).checkpoint with
  | none => s
  | some ck => (zoneCores d cl).foldl (fun t c => t.rollCore (s.die d).cyc c ck) s

theorem fabric_rollZone (d cl : Nat) : (s.rollZone d cl).fabric = s.fabric := by
  unfold rollZone
  split
  · rfl
  · exact foldl_keeps fabric (fun t c => t.fabric_rollCore ..) ..

variable {s} in
theorem scratch_rollZone {d cl : Nat} (nothing : ∀ c ∈ zoneCores d cl, (s.core c).undo = []) :
    (s.rollZone d cl).scratch = s.scratch := by
  unfold rollZone
  split
  · rfl
  · refine List.foldlRecOn (motive := fun t : State => t.scratch = s.scratch) _ _ rfl fun t same c hc => ?_
    exact (scratch_rollCore ((undo_of_scratch same c).trans (nothing c hc)) ..).trans same

end State
end Sys2Proof.Machine
end

section
/-! SUPPORT. A group in a strike (R105, R106): it stays on its core and in its place, and has its registers and splits back from its
mark once its core is rolled back; what a strike and its count leave as they were. -/

namespace Sys2Proof.Safety

theorem SameWork.trans {s t u : Machine.State} (a : SameWork s t) (b : SameWork t u) : SameWork s u :=
  ⟨b.groups.trans a.groups, b.mem.trans a.mem, b.host.trans a.host, b.spad.trans a.spad, b.tile.trans a.tile⟩

end Sys2Proof.Safety

namespace Sys2Proof.Machine

/-- A die that holds a cluster for 16 cycles (R105). -/
def Die.holding (x : Die) (cl : Nat) : Die := { x with frozen := Tbl.put x.frozen cl (x.cyc + 16) }

/-- What a rollback gives back to a group from its mark. -/
structure Group.Marked (y h : Group) : Prop where
  v : y.v = h.v
  s : y.s = h.s
  p : y.p = h.p
  splits : y.splits = h.splits
  fmode : y.fmode = h.fmode

/-- A group in a strike: it is on its core and in its place, and once it is back it has what its mark has. -/
structure Tracked (gid : Nat) (g h : Group) (back : Prop) (l : Tbl Group) : Prop where
  core : ∀ x, (gid, x) ∈ l → x.core = g.core
  found : ∃ y, Tbl.find l gid = some y ∧ y.place = g.place ∧ y.fixStop = g.fixStop ∧ (back → y.Marked h)

theorem rolledBack_core (now : Nat) (y h : Group) : (rolledBack now y h).core = h.core := by
  unfold rolledBack
  dsimp only
  split <;> rfl

theorem rolledBack_marked (now : Nat) (y h : Group) : (rolledBack now y h).Marked h := by
  unfold rolledBack
  dsimp only
  split <;> exact ⟨rfl, rfl, rfl, rfl, rfl⟩

/-- A group that stopped at no fix, or had stopped before the window, stays in its place (R229). -/
theorem rolledBack_stays (now : Nat) {y h : Group} (fix : y.fixStop = true → h.fixStop = true) :
    (rolledBack now y h).place = y.place ∧ (rolledBack now y h).fixStop = y.fixStop := by
  have kept : ¬ (y.fixStop && !h.fixStop) = true := by
    cases stopped : y.fixStop with
    | false => exact Bool.false_ne_true
    | true => rw [fix stopped]; decide
  unfold rolledBack
  dsimp only
  rw [if_neg kept]
  exact ⟨rfl, rfl⟩

/-- A mark was taken on the core of its group. -/
theorem Die.groupMark_core {x : Die} {ck : Checkpoint} {gid c : Nat} {h : Group} (mark : x.groupMark ck gid c = some h) :
    h.core = c := by
  obtain ⟨m, -, taken⟩ := List.exists_of_findSome?_eq_some mark
  obtain ⟨-, here⟩ := Option.filter_eq_some_iff.mp taken
  exact beq_iff_eq.mp (Bool.and_eq_true_iff.mp here).1

section
variable {gid : Nat} {g h : Group} {back : Prop} {l : Tbl Group}

theorem Tracked.mono {back' : Prop} (w : Tracked gid g h back l) (weaker : back' → back) : Tracked gid g h back' l := by
  obtain ⟨core, y, found, place, fix, marked⟩ := w
  exact ⟨core, y, found, place, fix, fun b => marked (weaker b)⟩

/-- A change of logbooks alone. -/
theorem Tracked.logs (w : Tracked gid g h back l) (f : Nat × Group → List Entry) :
    Tracked gid g h back (l.map (fun e => (e.1, { e.2 with log := f e }))) := by
  obtain ⟨core, y, found, place, fix, marked⟩ := w
  refine ⟨fun x mem => ?_, { y with log := f (gid, y) }, ?_, place, fix, fun b => ?_⟩
  · obtain ⟨e, he, same⟩ := List.mem_map.mp mem
    obtain ⟨rfl, rfl⟩ := Prod.mk.inj same
    exact core e.2 he
  · rw [Tbl.find_map (fun e : Nat × Group => { e.2 with log := f e }), found]; rfl
  · obtain ⟨hv, hs, hp, splits, fmode⟩ := marked b
    exact ⟨hv, hs, hp, splits, fmode⟩

/-- A change of another group. -/
theorem Tracked.other {k : Nat} (w : Tracked gid g h back l) (f : Group → Group) (ne : k ≠ gid) :
    Tracked gid g h back (Tbl.upd l k f) := by
  obtain ⟨core, y, found, rest⟩ := w
  refine ⟨fun x mem => ?_, y, by rw [Tbl.find_upd_ne _ _ ne, found], rest⟩
  rcases Tbl.mem_upd mem with old | ⟨a, -, new⟩
  · exact core x old
  · exact absurd (Prod.mk.inj new).1.symm ne

variable (at_core : h.core = g.core) (fix : g.fixStop = true → h.fixStop = true) (unsaved : g.place ≠ .saved)
include at_core fix unsaved

/-- The group itself goes back. -/
theorem Tracked.rolled (w : Tracked gid g h back l) (now : Nat) : Tracked gid g h True
    (Tbl.upd l gid (fun y => if y.place = .saved then y else rolledBack now y h)) := by
  obtain ⟨core, y, found, place, stop, -⟩ := w
  obtain ⟨place', stop'⟩ := rolledBack_stays now (y := y) (stop ▸ fix)
  refine ⟨fun x mem => ?_, rolledBack now y h, ?_, place'.trans place, stop'.trans stop, fun _ => rolledBack_marked now y h⟩
  · rcases Tbl.mem_upd mem with old | ⟨a, old, new⟩
    · exact core x old
    · obtain ⟨-, rfl⟩ := Prod.mk.inj new
      split
      · exact core a old
      · exact (rolledBack_core now a h).trans at_core
  · rw [Tbl.find_upd_self, found]
    exact congrArg some (if_neg (place ▸ unsaved))

end

namespace State

variable {s : State} {gid : Nat} {g h : Group} {back : Prop}

theorem tracked_setSpad (w : Tracked gid g h back s.groups) (c o : Nat) (l : List Byte) :
    Tracked gid g h back (s.setSpad c o l).groups := by
  show Tracked gid g h back (s.markOperand c o l.length).groups
  unfold State.markOperand
  split
  · exact w.logs _
  · exact w

theorem tracked_undo (w : Tracked gid g h back s.groups) (c : Nat) (u : Undo) : Tracked gid g h back (s.undo c u).groups := by
  have bytes : Tracked gid g h back
      (u.spad.foldl (fun t b => if t.spadByte c b.1 = b.2.2 then t.setSpad c b.1 [b.2.1] else t) s).groups := by
    refine List.foldlRecOn (motive := fun t : State => Tracked gid g h back t.groups) _ _ w fun t wt b _ => ?_
    split
    · exact tracked_setSpad wt ..
    · exact wt
  unfold State.undo
  dsimp only
  split
  · exact bytes
  · exact bytes

theorem tracked_undoSince (w : Tracked gid g h back s.groups) (c cyc : Nat) (k : Option Nat) :
    Tracked gid g h back (s.undoSince c cyc k).groups :=
  List.foldlRecOn (motive := fun t : State => Tracked gid g h back t.groups) _ _ w fun _ wt u _ => tracked_undo wt c u

section
variable {x : Die} {ck : Checkpoint} (fix : g.fixStop = true → h.fixStop = true) (unsaved : g.place ≠ .saved)
include fix unsaved

/-- One group of a core goes back: the tracked one, on its core, or another. -/
theorem tracked_rollMarked {c : Nat} {e : Nat × Group} (w : Tracked gid g h back s.groups) (now : Nat)
    (mark : e.1 = gid → x.groupMark ck gid c = some h ∧ c = g.core) :
    Tracked gid g h (back ∨ e.1 = gid) (rollMarked x now c ck s e).groups := by
  unfold rollMarked
  by_cases same : e.1 = gid
  · obtain ⟨marked, rfl⟩ := mark same
    rw [same, marked]
    show Tracked gid g h _ (s.rollGroup now ck.cyc gid h).groups
    rw [rollGroup_groups]
    exact (w.rolled (Die.groupMark_core marked) fix unsaved now).mono fun _ => trivial
  · have still : Tracked gid g h (back ∨ e.1 = gid) s.groups := w.mono (Or.resolve_right · same)
    split
    · rw [rollGroup_groups]
      exact still.other _ same
    · exact still

theorem tracked_foldl_rollMarked {c : Nat} (now : Nat) (l : Tbl Group) (w : Tracked gid g h back s.groups)
    (mark : ∀ e ∈ l, e.1 = gid → x.groupMark ck gid c = some h ∧ c = g.core) :
    Tracked gid g h (back ∨ ∃ e ∈ l, e.1 = gid) (l.foldl (rollMarked x now c ck) s).groups := by
  induction l generalizing s back with
  | nil => exact w.mono (Or.resolve_right · fun ⟨e, he, _⟩ => List.not_mem_nil he)
  | cons e l ih =>
    obtain ⟨here, later⟩ := List.forall_mem_cons.mp mark
    refine (ih (tracked_rollMarked fix unsaved w now here) later).mono ?_
    rw [List.exists_mem_cons_iff, or_assoc]
    exact id

/-- A core is rolled back: the tracked group is back if it is its core. -/
theorem tracked_rollCore (w : Tracked gid g h back s.groups) (now c : Nat)
    (mark : (s.die (dieOf g.core)).groupMark ck gid g.core = some h) :
    Tracked gid g h (back ∨ c = g.core) (s.rollCore now c ck).groups := by
  rw [rollCore_eq]
  have undone : Tracked gid g h back ((s.unspent now c ck).undoSince c ck.cyc none).groups :=
    tracked_undoSince (s := s.unspent now c ck) w ..
  refine (tracked_foldl_rollMarked fix unsaved now _ undone fun e he same => ?_).mono (Or.imp_right fun at_c => ?_)
  · obtain ⟨listed, on⟩ := List.mem_filter.mp he
    have at_c : c = g.core := (beq_iff_eq.mp on).symm.trans (w.core e.2 (same ▸ listed))
    exact ⟨at_c ▸ mark, at_c⟩
  · obtain ⟨y, found, -⟩ := w.found
    have listed := Tbl.mem_of_find found
    exact ⟨(gid, y), List.mem_filter.mpr ⟨listed, beq_iff_eq.mpr ((w.core y listed).trans at_c.symm)⟩, rfl⟩

/-- A zone is rolled back: the tracked group is back if its core is one of the zone. -/
theorem tracked_foldl_rollCore (w : Tracked gid g h back s.groups) (now : Nat) (cores : List Nat)
    (mark : (s.die (dieOf g.core)).groupMark ck gid g.core = some h) :
    Tracked gid g h (back ∨ g.core ∈ cores) (cores.foldl (fun t c => t.rollCore now c ck) s).groups := by
  induction cores generalizing s back with
  | nil => exact w.mono (Or.resolve_right · List.not_mem_nil)
  | cons c cores ih =>
    have kept := congrArg (fun x : Die => x.groupMark ck gid g.core) (die_of_fabric (s.fabric_rollCore now c ck) (dieOf g.core))
    refine (ih (tracked_rollCore fix unsaved w now c mark) (kept.trans mark)).mono ?_
    rw [List.mem_cons, or_assoc, eq_comm (a := g.core)]
    exact id

/-- A group of a struck zone has its registers and splits back from its mark, and keeps its place (R105). -/
theorem rollZone_group {d cl : Nat} (checkpoint : (s.die d).checkpoint = some ck) (found : Tbl.find s.groups gid = some g)
    (one : ∀ x, (gid, x) ∈ s.groups → x = g) (zone : g.core ∈ zoneCores d cl) (die : dieOf g.core = d)
    (mark : (s.die d).groupMark ck gid g.core = some h) :
    ((s.rollZone d cl).group gid).Marked h ∧ ((s.rollZone d cl).group gid).place = g.place := by
  have start : Tracked gid g h False s.groups := ⟨fun x mem => by rw [one x mem], g, found, rfl, rfl, False.elim⟩
  have rolled : Tracked gid g h (False ∨ g.core ∈ zoneCores d cl) (s.rollZone d cl).groups := by
    unfold rollZone
    rw [checkpoint]
    exact tracked_foldl_rollCore fix unsaved start (s.die d).cyc (zoneCores d cl) (die ▸ mark)
  obtain ⟨-, y, now_found, place, -, marked⟩ := rolled
  rw [group_of_find now_found]
  exact ⟨marked (.inr zone), place⟩

end

/-! ## What a strike leaves and counts -/

/-- A record leaves the dies, the cores and the stacks as they were. -/
theorem postPf_parts (s : State) (code data : Nat) : (s.postPf code data).dies = s.dies ∧ (s.postPf code data).cores = s.cores ∧
    (s.postPf code data).hbm = s.hbm ∧ Safety.SameWork s (s.postPf code data) := by
  obtain ⟨x, r, posted⟩ := s.postPf_whole code data
  rw [posted]
  exact ⟨rfl, rfl, rfl, rfl, rfl, rfl, rfl, rfl⟩

theorem postPf_die (s : State) (code data d : Nat) : (s.postPf code data).die d = s.die d :=
  congrArg (fun t : Tbl Die => Tbl.get t {} d) (s.postPf_parts code data).1

/-- A strike is counted, and a storm queues the zone for a test (R106). -/
theorem countStrike_keeps (s : State) (d cl : Nat) : Safety.SameWork s (s.countStrike d cl) ∧
    ((s.countStrike d cl).die d).frozen = (s.die d).frozen ∧ ((s.countStrike d cl).die d).strikes = (s.die d).strikes + 1 := by
  unfold State.countStrike
  dsimp only
  split
  · rw [postPf_die, modDie_die_self, modDie_die_self]
    obtain ⟨-, -, -, groups, mem, host, spad, tile⟩ := postPf_parts (State.modDie _ d _) 10 (d + 4 * cl)
    exact ⟨⟨groups, mem, host, spad, tile⟩, rfl, rfl⟩
  · rw [modDie_die_self]
    exact ⟨⟨rfl, rfl, rfl, rfl, rfl⟩, rfl, rfl⟩

/-- A zone that was rolled back at a cycle is held: its new trace records are dropped, its issue waits for 16 cycles, and the split
that issues is another one or none (R105). -/
def holdZone (s : State) (d cl now : Nat) (c : Option (Nat × Nat)) : State :=
  { (s.dropHeld now (zoneCores d cl)).modDie d (fun x => x.holding cl) with cur := c }

theorem holdZone_die (s : State) (d cl now : Nat) (c : Option (Nat × Nat)) :
    (s.holdZone d cl now c).die d = (s.die d).holding cl :=
  modDie_die_self (s.dropHeld now (zoneCores d cl)) d fun x => x.holding cl

theorem holdZone_work (s : State) (d cl now : Nat) (c : Option (Nat × Nat)) : Safety.SameWork s (s.holdZone d cl now c) :=
  ⟨rfl, rfl, rfl, rfl, rfl⟩

/-- A strike rolls its zone back, holds it and is counted (R105, R106). -/
theorem strike_eq (s : State) (d cl : Nat) : ∃ (u : State) (l : List Checkpoint) (c : Option (Nat × Nat)),
    s.strike d cl = (u.holdZone d cl (s.die d).cyc c).countStrike d cl ∧
    Safety.SameWork (s.rollZone d cl) u ∧ u.die d = { (s.rollZone d cl).die d with history := l } := by
  cases checkpoint : (s.die d).checkpoint with
  | none =>
    simp only [State.strike, rollZone, checkpoint]
    exact ⟨s, (s.die d).history, _, rfl, ⟨rfl, rfl, rfl, rfl, rfl⟩, rfl⟩
  | some ck =>
    simp only [State.strike, rollZone, checkpoint]
    exact ⟨_, _, _, rfl, ⟨rfl, rfl, rfl, rfl, rfl⟩, modDie_die_self ..⟩

theorem strike_keeps (s : State) (d cl : Nat) : Safety.SameWork (s.rollZone d cl) (s.strike d cl) ∧
    ((s.strike d cl).die d).frozen = Tbl.put (s.die d).frozen cl ((s.die d).cyc + 16) ∧
    ((s.strike d cl).die d).strikes = (s.die d).strikes + 1 := by
  obtain ⟨u, l, c, run, work, die⟩ := s.strike_eq d cl
  obtain ⟨counted, frozen, strikes⟩ := (u.holdZone d cl (s.die d).cyc c).countStrike_keeps d cl
  obtain ⟨held, cyc, count⟩ := Die.counts_of_still (die_of_fabric (s.fabric_rollZone d cl) d)
  rw [holdZone_die, die] at frozen strikes
  rw [run]
  refine ⟨(work.trans (u.holdZone_work ..)).trans counted, frozen.trans ?_, strikes.trans (congrArg (· + 1) count)⟩
  show Tbl.put ((s.rollZone d cl).die d).frozen cl (((s.rollZone d cl).die d).cyc + 16) = _
  rw [held, cyc]

end State
end Sys2Proof.Machine
end

section
/-! SUPPORT. Containment and reliability (R101 to R114): what poison, the end of a kill, a mismatch, a corrected error, a repair, the
retirement of a bank and a test do to the state, and the statement ContainmentEvents. -/

namespace Sys2Proof.Machine

/-! ## Poison (R100, R101) -/

/-- The L1 line of a virtual word with the word's mark. -/
def Line.poisonedAt (l : Line) (w : Nat) : Line :=
  if l.va == w / 16 && !l.bad.contains (w % 16) && l.bytes.any (fun b => b.1 / 8 == w % 16) then { l with bad := w % 16 :: l.bad } else l

theorem Line.poisonedAt_bytes (l : Line) (w : Nat) : (l.poisonedAt w).bytes = l.bytes := by
  unfold Line.poisonedAt
  split <;> rfl

theorem Line.poisonedAt_va (l : Line) (w : Nat) : (l.poisonedAt w).va = l.va := by
  unfold Line.poisonedAt
  split <;> rfl

theorem Line.poisonedAt_bad {l : Line} {w : Nat} (va : l.va = w / 16) (held : ∃ b ∈ l.bytes, b.1 / 8 = w % 16) :
    w % 16 ∈ (l.poisonedAt w).bad := by
  have word : l.bytes.any (fun b => b.1 / 8 == w % 16) = true := by
    obtain ⟨b, hb, same⟩ := held
    exact List.any_eq_true.mpr ⟨b, hb, beq_iff_eq.mpr same⟩
  unfold Line.poisonedAt
  rw [word, beq_iff_eq.mpr va, Bool.true_and, Bool.and_true]
  by_cases marked : w % 16 ∈ l.bad
  · rwa [List.contains_iff_mem.mpr marked]
  · rw [if_pos (by rw [Bool.not_eq_true', List.contains_eq_mem, decide_eq_false marked])]
    exact List.mem_cons_self

/-- A table made for a list of keys. -/
theorem Tbl.find_map_keys {α : Type} (f : Nat → α) {l : List Nat} {k : Nat} (h : k ∈ l) :
    Tbl.find (l.map (fun j => (j, f j))) k = some (f k) := by
  induction l with
  | nil => cases h
  | cons j l ih =>
    rw [List.map_cons, Tbl.find_cons]
    split
    next same => rw [same]
    next other => exact ih ((List.mem_cons.mp h).resolve_left (Ne.symm other))

/-- A slice whose kill has ended: its 64 queues are stopped, and what it held for a migration is lost (R103). -/
def Slice.killOver (x : Slice) : Slice :=
  { x.forget with
    killing := false
    busyEnd := 0
    queues := (List.range 64).map (fun k => (k, { Tbl.get x.queues {} k with en := false, stopped := true, qerr := 0 })) }

/-- What is said of a slice whose kill has ended, its rings and counters aside. -/
theorem Slice.killOver_settled {x y : Slice} (h : y.settings = x.killOver.settings) : y.killing = false ∧ y.st = x.st ∧
    y.quiesced = false ∧ ∀ q < 64, (Tbl.get y.queues {} q).en = false ∧ (Tbl.get y.queues {} q).stopped = true ∧
      (Tbl.get y.queues {} q).qerr = 0 := by
  have killing : y.settings.killing = false := by rw [h]; rfl
  have st : y.settings.st = x.st := by rw [h]; rfl
  have quiesced : y.settings.quiesced = false := by rw [h]; rfl
  have queues : y.settings.queues = x.killOver.queues := by rw [h]; rfl
  refine ⟨killing, st, quiesced, fun q hq => ?_⟩
  have listed : Tbl.get y.queues {} q = { Tbl.get x.queues {} q with en := false, stopped := true, qerr := 0 } := by
    rw [show y.queues = _ from queues, Slice.killOver, Tbl.get_eq, Tbl.find_map_keys _ (List.mem_range.mpr hq)]; rfl
  rw [listed]
  exact ⟨rfl, rfl, rfl⟩

/-- A count of a table, one more at a key if a test holds. -/
def Tbl.countIf (on : Bool) (t : Tbl Nat) (key : Nat) : Tbl Nat := if on then Tbl.put t key (Tbl.get t 0 key + 1) else t

theorem Tbl.get_countIf (on : Bool) (t : Tbl Nat) (key n : Nat) :
    Tbl.get (Tbl.countIf on t key) 0 n = Tbl.get t 0 n + if on = true ∧ n = key then 1 else 0 := by
  unfold Tbl.countIf
  cases on with
  | false => rw [if_neg fun h : false = true ∧ n = key => Bool.false_ne_true h.1]; rfl
  | true =>
    rw [if_pos rfl, Tbl.get_put]
    by_cases same : key = n
    · rw [if_pos same, if_pos ⟨rfl, same.symm⟩, same]
    · rw [if_neg same, if_neg fun h => same h.2.symm]; rfl

/-- A stack with the entry of a location in class 1 (R111). -/
def Stack.classed (x : Stack) (ch bank row col : Nat) : Stack :=
  { x with table := x.table.map (fun e => if e.2.at_ ch bank row col then (e.1, { e.2 with cls := 1 }) else e) }

/-- A stack with a repair under way, which takes a spare row of its bank (R111). -/
def Stack.rowRepair (x : Stack) (r : Repair) : Stack :=
  { x with
    spareRows := Tbl.put x.spareRows (r.ch * 64 + r.bank) (Tbl.get x.spareRows 0 (r.ch * 64 + r.bank) + 1)
    repairs := x.repairs ++ [r] }

/-- A stack whose first repair is done: it is soft, and the entries that it covers are free (R111). -/
def Stack.repaired (x : Stack) (r : Repair) (rest : List Repair) : Stack :=
  { x with
    repairs := rest
    softRows := Tbl.countIf (r.cls != 3) x.softRows (r.ch * 64 + r.bank)
    softCols := Tbl.countIf (r.cls == 3) x.softCols (r.ch * 64 + r.bank)
    table := x.table.filter (fun e => !r.covers e.2) }

namespace State

variable (s : State)

/-- A record leaves memory as it was. -/
theorem postRecord_mem (fn ring : Nat) (r : RecordData) : (s.postRecord fn ring r).mem = s.mem := by
  obtain ⟨x, l, posted⟩ := s.postRecord_whole fn ring r
  rw [posted]

theorem postPoison_whole (a : Nat) : ∃ x l, s.postPoison a = { s with slices := x, m := { s.m with records := l } } := by
  obtain ⟨x, l, first⟩ := s.postPf_whole 4 (a / 65536)
  unfold State.postPoison
  dsimp only
  split
  · obtain ⟨x', l', second⟩ := (s.postPf 4 (a / 65536)).postRecord_whole _ 1 _
    exact ⟨x', l', second.trans (by rw [first])⟩
  · exact ⟨x, l, first⟩

/-- A poisoned line marks every one of its bytes, and no other is marked (R101). -/
theorem poisonSite_line (n : Nat) : Safety.SameWork s (s.poisonSite (.line n)) ∧
    ∀ a, (s.poisonSite (.line n)).poisoned a = (decide (lineNo a = n) || s.poisoned a) := by
  obtain ⟨x, l, posted⟩ := (s.modM (fun m => { m with poison := m.poison.insert n })).postPoison_whole (n * 128)
  have run : s.poisonSite (.line n) = _ := posted
  rw [run]
  refine ⟨⟨rfl, rfl, rfl, rfl, rfl⟩, fun a => ?_⟩
  show ((s.m.poison.insert n).contains (lineNo a) || _) = (_ || (s.m.poison.contains (lineNo a) || _))
  rw [← Bool.or_assoc]
  congr 1
  rw [Bool.eq_iff_iff, List.contains_iff_mem, List.mem_insert_iff, Bool.or_eq_true, decide_eq_true_eq, List.contains_iff_mem]

theorem poisonSite_l1 (c w : Nat) : s.poisonSite (.l1 c w) =
    s.modCore c (fun x => { x with lines := x.lines.map (·.poisonedAt w) }) := rfl

/-- Any other word is marked among those of the module. -/
theorem poisonSite_word {x : ErrSite} (word : (∃ c w, x = .spad c w) ∨ (∃ c w, x = .tile c w) ∨ ∃ w, x = .l2 w) :
    s.poisonSite x = s.modM (fun m => { m with badWords := m.badWords.insert x }) := by
  rcases word with ⟨c, w, rfl⟩ | ⟨c, w, rfl⟩ | ⟨w, rfl⟩ <;> rfl

/-! ## Kills (R103) -/

/-- A slice whose work is dropped holds no launch, context, packet or token (R70, R103). -/
theorem dropWork_slice {k : Nat} (hk : k < 16) (cause : Nat) : ((s.dropWork k cause).slice k).launches = [] ∧
    ((s.dropWork k cause).slice k).ctxs = [] ∧ ((s.dropWork k cause).slice k).pending = [] ∧
    ((s.dropWork k cause).slice k).tokens = [] := by
  obtain ⟨u, f, run⟩ : ∃ (u : State) (f : Slice → Slice), s.dropWork k cause =
      (u.modSlice k (fun x => { x with launches := [], pending := [], tokens := [], ctxs := [] })).modSlice 16 f := by
    unfold State.dropWork
    exact ⟨_, _, rfl⟩
  rw [run, modSlice_slice, if_neg (by omega), modSlice_slice_self]
  exact ⟨rfl, rfl, rfl, rfl⟩

variable {s} {k : Nat}

theorem execKillComplete_idle (alive : (s.slice k).killing = false) : execKillComplete k s = .next s :=
  congrArg Host.Outcome.next (if_pos (by rw [alive]; rfl))

/-- The end of a kill, and its two records (R103). -/
theorem execKillComplete_ends (killing : (s.slice k).killing = true) : ∃ fn r, execKillComplete k s =
    .next ((((s.modSlice k (fun x => x.killOver)).dropDebt k).postRecord fn 1 r).postRecord 0 2 r) :=
  ⟨_, _, congrArg Host.Outcome.next (if_neg (by rw [killing]; decide))⟩

/-! ## Mismatches of copy engines (R109) -/

section
variable {d e : Nat} (named : s.queueDie k e = some d) (lo : 0x20 ≤ e) (hi : e < 0x40)
include named lo hi

/-- The mismatch of a copy engine, by what the engine has had before. -/
theorem mismatch_copy : s.mismatch k e =
    if ((s.die d).engine ((e - 0x20) % 8)).offline then s
    else if ((s.die d).engine ((e - 0x20) % 8)).strikes + 1 < 3 then
      s.modEngine d ((e - 0x20) % 8) (fun x => { x with strikes := x.strikes + 1 })
    else ((s.failEngine k d e).modEngine d ((e - 0x20) % 8) (fun x => { x with offline := true, strikes := 0 })).postPf 11
      (d + 256 * e) := by
  have helm : e ≠ 0 := by omega
  unfold State.mismatch
  simp only [named, helm, hi, if_false, if_true]

end

/-! ## Repairs (R111) -/

theorem postPf_stack (s : State) (code data k : Nat) : (s.postPf code data).stack k = s.stack k :=
  congrArg (fun t : Tbl Stack => Tbl.get t {} k) (s.postPf_parts code data).2.2.1

theorem startRepair_row {r : Repair} (cls : r.cls = 1) (free : (s.stack k).repairs = [])
    (spare : Tbl.get (s.stack k).spareRows 0 (r.ch * 64 + r.bank) < 4) :
    s.startRepair k r = s.modStack k (fun x => x.rowRepair r) := by
  unfold State.startRepair
  simp [cls, free, spare, State.modStack, Stack.rowRepair]

/-- A corrected error that puts its location in class 1 (R111). -/
theorem execCorrectedError_row {ch b r c : Nat}
    (cls : soundClass ((soundAdd (s.stack k) ch b r c).table.map (·.2)) ch b r c = 1) : execCorrectedError k ch b r c s =
      .next (((s.modStack k (fun x => soundAdd x ch b r c)).modStack k (fun x => x.classed ch b r c)).startRepair k
        { cls := 1, ch := ch, bank := b, row := r, col := c, endAt := s.cycle + 10000 }) := by
  unfold execCorrectedError
  dsimp only
  rw [modStack_stack_self, cls]; rfl

/-- A corrected error that puts its location in no class. -/
theorem execCorrectedError_sound {ch b r c : Nat}
    (cls : soundClass ((soundAdd (s.stack k) ch b r c).table.map (·.2)) ch b r c = 0) : execCorrectedError k ch b r c s =
      .next (s.modStack k (fun x => soundAdd x ch b r c)) := by
  unfold execCorrectedError
  dsimp only
  rw [modStack_stack_self, cls]; rfl

theorem endRepair_idle (none_left : (s.stack k).repairs = []) : s.endRepair k = s := by
  unfold State.endRepair
  rw [none_left]

theorem endRepair_first {r : Repair} {rest : List Repair} (first : (s.stack k).repairs = r :: rest) :
    s.endRepair k = (s.modStack k (fun x => x.repaired r rest)).postPf 12 (k + 16 * r.ch + 1024 * r.bank + 65536 * r.cls) := by
  unfold State.endRepair
  rw [first]; rfl

/-! ## Bank retirement (R112) -/

/-- The answer in BANKRET. -/
def retireAnswer (s : State) (k res ch bank : Nat) : State :=
  s.modStack k (fun x => { x with retire := BitVec.ofNat 32 (res * 2 ^ 28 + ch * 64 + bank) })

/-- The frames of a bank are given to no one for good. -/
def retireFrames (s : State) (k ch bank : Nat) : State := (bankFrames k ch bank).foldl (fun t f => t.setOwner f 30) s

theorem foldl_setOwner_owner {o : Nat} (byte : o < 256) (l : List Nat) (s : State) (f : Nat) :
    (l.foldl (fun t f => t.setOwner f o) s).owner f = if f ∈ l then o else s.owner f := by
  induction l generalizing s with
  | nil => rfl
  | cons g l ih =>
    rw [List.foldl_cons, ih]
    by_cases later : f ∈ l
    · rw [if_pos later, if_pos (List.mem_cons_of_mem _ later)]
    · rw [if_neg later]
      by_cases here : f = g
      · rw [here, owner_setOwner_self _ _ byte, if_pos List.mem_cons_self]
      · rw [if_neg (List.not_mem_cons_of_ne_of_not_mem here later), owner, memByte_setOwner, if_neg (by omega)]; rfl

theorem retireFrames_owner (s : State) (k ch bank f : Nat) :
    (s.retireFrames k ch bank).owner f = if f ∈ bankFrames k ch bank then 30 else s.owner f :=
  foldl_setOwner_owner (by decide) ..

theorem modStack_owner (s : State) (k f : Nat) (g : Stack → Stack) : (s.modStack k g).owner f = s.owner f := rfl

theorem retireFrames_keeps (s : State) (k ch bank : Nat) : (s.retireFrames k ch bank).groups = s.groups ∧
    (s.retireFrames k ch bank).hostMem = s.hostMem :=
  ⟨foldl_keeps State.groups (fun _ _ => by rfl) .., foldl_keeps State.hostMem (fun _ _ => by rfl) ..⟩

/-- The bank is retired, and its request is answered (R112). -/
def retired (s : State) (k ch bank : Nat) : State :=
  ((s.retireFrames k ch bank).modStack k (fun x =>
    { x with requests := x.requests.filter (fun q => q != (ch, bank)), retired := x.retired ++ [(ch, bank)] })).retireAnswer k 0 ch
      bank

theorem retired_owner (s : State) (k ch bank f : Nat) :
    (s.retired k ch bank).owner f = if f ∈ bankFrames k ch bank then 30 else s.owner f := by
  rw [retired, retireAnswer, modStack_owner, modStack_owner, retireFrames_owner]

theorem retired_stack (s : State) (k ch bank : Nat) : (ch, bank) ∈ ((s.retired k ch bank).stack k).retired ∧
    (ch, bank) ∉ ((s.retired k ch bank).stack k).requests ∧
    ((s.retired k ch bank).stack k).retire = BitVec.ofNat 32 (ch * 64 + bank) := by
  rw [retired, retireAnswer, modStack_stack_self, modStack_stack_self]
  generalize (s.retireFrames k ch bank).stack k = x
  refine ⟨List.mem_append_right _ List.mem_cons_self, fun left => ?_, by rw [Nat.zero_mul, Nat.zero_add]⟩
  exact bne_iff_ne.mp (List.mem_filter.mp left).2 rfl

theorem retired_keeps (s : State) (k ch bank : Nat) : (s.retired k ch bank).groups = s.groups ∧
    (s.retired k ch bank).hostMem = s.hostMem := by
  rw [retired, retireAnswer, modStack_groups, modStack_groups, modStack_hostMem, modStack_hostMem]
  exact s.retireFrames_keeps k ch bank

section
variable {v : Word} (go : v.getLsbD 31 = true)
include go

theorem retireBank_eq : s.retireBank k v.toNat =
    let ch := (v.extractLsb' 6 5).toNat
    let bank := (v.extractLsb' 0 6).toNat
    if (ch, bank) ∉ (s.stack k).requests then s.retireAnswer k 2 ch bank
    else if ∃ f ∈ bankFrames k ch bank, s.owner f ≠ 31 then s.retireAnswer k 1 ch bank
    else s.retired k ch bank := by
  unfold State.retireBank
  rw [bits_toNat v (n := 5) rfl, bits_toNat v (n := 6) rfl, nbit_toNat, go]
  simp only [Bool.not_true, Bool.false_eq_true, if_false, Bool.not_eq_true', List.contains_eq_mem, decide_eq_false_iff_not,
    List.any_eq_true, bne_iff_ne, ne_eq]
  rfl

end

/-! ## The in-field test (R113, R114) -/

theorem startTest_idle (c : Nat) (h : (s.mayTest c && (s.m.testChecked || Config.signatureValid Config.testKernels)) = false) :
    s.startTest c = s := by
  unfold State.startTest
  rw [h]; rfl

theorem startTest_begins {c : Nat} (may : s.mayTest c = true)
    (signed : s.m.testChecked = true ∨ Config.signatureValid Config.testKernels = true) : s.startTest c =
      ((s.modM (fun m => { m with testChecked := true })).modCore c (fun x => { x with testing := s.cycle + 1 })).modDie (dieOf c)
        (fun x => { x with testQueue := x.testQueue.filter (· != clusterOf c) }) := by
  unfold State.startTest
  rw [may, Bool.or_eq_true_iff.mpr signed]; rfl

/-- A core whose test has ended, with its result in the log of the module (R113, R114). -/
def tested (s : State) (c : Nat) (pass : Bool) : State :=
  (s.modCore c (fun x => { x with testing := 0, lastTest := s.cycle + 1, failed := x.failed || !pass })).modM (fun m =>
    { m with testRuns := m.testRuns + 1, testLog := m.testLog ++ [testRecord c pass s.cycle] })

theorem tested_core (s : State) (c : Nat) (pass : Bool) : (s.tested c pass).core c =
    { s.core c with testing := 0, lastTest := s.cycle + 1, failed := (s.core c).failed || !pass } := by
  rw [tested, modM_core, modCore_core_self]

/-- A test that fails posts a record besides. -/
theorem execInfieldTestDone_ends {c : Nat} (r : List Byte) (under : (s.core c).testing ≠ 0) : ∃ x l,
    execInfieldTestDone c r s = .next { s.tested c (testPasses r) with
      slices := x
      m := { (s.tested c (testPasses r)).m with records := l } } := by
  have run : execInfieldTestDone c r s = .next (if testPasses r then s.tested c (testPasses r)
      else (s.tested c (testPasses r)).postPf 14 (dieOf c + 256 * (c % 36))) := congrArg Host.Outcome.next (if_neg under)
  rw [run]
  split
  · exact ⟨_, _, rfl⟩
  · obtain ⟨x, l, posted⟩ := (s.tested c (testPasses r)).postPf_whole 14 (dieOf c + 256 * (c % 36))
    exact ⟨x, l, congrArg _ posted⟩

end State

/-! ## The sounding table (R110, R111) -/

section
variable {x : Stack} {ch bank row col : Nat}

/-- The first location of a table takes entry 0. -/
theorem soundAdd_empty (empty : x.table = []) : soundAdd x ch bank row col =
    { x with
      updates := x.updates + 1
      table := [(0, { count := 1, ch := ch, bank := bank, row := row, col := col, used := x.updates + 1 })] } := by
  have place : x.soundPlace = some 0 := by
    have lowest : (List.range 1024).find? (fun i => (Tbl.find x.table i).isNone) = some 0 := by
      rw [empty, List.find?_range_eq_some]
      exact ⟨rfl, List.mem_range.mpr (by decide), fun j low => absurd low (Nat.not_lt_zero j)⟩
    unfold Stack.soundPlace
    rw [lowest]
  unfold soundAdd
  rw [place, empty]; rfl

/-- The second error of the only location counts in its entry. -/
theorem soundAdd_again {i u : Nat}
    (one : x.table = [(i, { count := 1, ch := ch, bank := bank, row := row, col := col, used := u })]) :
    soundAdd x ch bank row col =
      { x with
        updates := x.updates + 1
        table := [(i, { count := 2, ch := ch, bank := bank, row := row, col := col, used := x.updates + 1 })] } := by
  simp [soundAdd, one, Sounding.at_, Tbl.put]

theorem distinct_singleton (n : Nat) : distinct [n] = 1 := rfl

/-- A location alone in its table is of class 1 from its second error on. -/
theorem soundClass_single {e : Sounding} (here : e.at_ ch bank row col = true) :
    soundClass [e] ch bank row col = if 2 ≤ e.count then 1 else 0 := by
  obtain ⟨⟨⟨hch, hbank⟩, hrow⟩, hcol⟩ : ((e.ch = ch ∧ e.bank = bank) ∧ e.row = row) ∧ e.col = col := by
    simpa only [Sounding.at_, Bool.and_eq_true, beq_iff_eq] using here
  simp [soundClass, here, hch, hbank, hrow, hcol, distinct_singleton]

end

end Sys2Proof.Machine

namespace Sys2Proof.Safety

open Machine

theorem onlyCore_modCore (s : State) (c : Nat) (f : Core → Core) : OnlyCore c s (s.modCore c f) :=
  ⟨rfl, fun e he => by rw [State.modCore_core, if_neg (Ne.symm he)]⟩

theorem onlyStack_modStack (s : State) (k : Nat) (f : Stack → Stack) : OnlyStack k s (s.modStack k f) :=
  ⟨rfl, fun e he => by rw [State.modStack_stack, if_neg (Ne.symm he)]⟩

theorem OnlyStack.trans {k : Nat} {s t u : State} (a : OnlyStack k s t) (b : OnlyStack k t u) : OnlyStack k s u :=
  ⟨by rw [b.whole, a.whole], fun e he => (b.others e he).trans (a.others e he)⟩

/-! ## Poison and kills -/

theorem gives_poisonedLines (c w : Nat) (s : State) : Gives (.patrolScrub (.l1 c w) true) s (fun t => OnlyCore c s t ∧
    (t.core c).lines.map (·.bytes) = (s.core c).lines.map (·.bytes) ∧
    (∀ l ∈ (s.core c).lines, l.va = w / 16 → (∃ b ∈ l.bytes, b.1 / 8 = w % 16) →
      ∃ k ∈ (t.core c).lines, k.va = l.va ∧ k.bytes = l.bytes ∧ w % 16 ∈ k.bad)) := by
  refine ⟨_, congrArg Host.Outcome.next (s.poisonSite_l1 c w), onlyCore_modCore .., ?_, fun l hl va held => ?_⟩
  · rw [State.modCore_core_self, List.map_map]
    exact List.map_congr_left fun l _ => l.poisonedAt_bytes w
  · rw [State.modCore_core_self]
    exact ⟨l.poisonedAt w, List.mem_map_of_mem hl, l.poisonedAt_va w, l.poisonedAt_bytes w, Line.poisonedAt_bad va held⟩

theorem gives_killOver {k : Nat} {s : State} (killing : (s.slice k).killing = true) : Gives (.killComplete k) s (fun t =>
    (t.slice k).killing = false ∧ (t.slice k).st = (s.slice k).st ∧ (t.slice k).quiesced = false ∧ t.groups = s.groups ∧
    t.mem = s.mem ∧ ∀ q < 64, let y := Tbl.get (t.slice k).queues {} q
      y.en = false ∧ y.stopped = true ∧ y.qerr = 0) := by
  obtain ⟨fn, r, run⟩ := State.execKillComplete_ends killing
  set u := (s.modSlice k (fun x => x.killOver)).dropDebt k with hu
  have placing : ((u.postRecord fn 1 r).postRecord 0 2 r).placing = (s.modSlice k (fun x => x.killOver)).placing :=
    (State.placing_postRecord ..).trans (State.placing_postRecord ..)
  have settings := State.settings_of_placing placing k
  rw [State.modSlice_slice_self] at settings
  obtain ⟨ended, st, quiesced, queues⟩ := Slice.killOver_settled settings
  exact ⟨_, run, ended, st, quiesced, (State.groups_of_placing placing).trans rfl,
    (State.postRecord_mem ..).trans (State.postRecord_mem ..), queues⟩

/-! ## Strikes (R105, R106) -/

theorem dieOf_zone {d cl c : Nat} (hcl : cl < 9) (zone : c ∈ zoneCores d cl) : dieOf c = d := by
  obtain ⟨k, hk, rfl⟩ := List.mem_map.mp zone
  have low := List.mem_range.mp hk
  unfold dieOf
  omega

section
variable {d cl : Nat} {s : State} (hd : d < 4) (hcl : cl < 9)
include hd hcl

theorem exec_strikeReport : exec (.strikeReport d cl) s = .next (s.strike d cl) :=
  congrArg Host.Outcome.next (if_pos (by rw [decide_eq_true hd, decide_eq_true hcl]; rfl))

theorem gives_strike : Gives (.strikeReport d cl) s (fun t =>
    Tbl.find (t.die d).frozen cl = some ((s.die d).cyc + 16) ∧ (t.die d).strikes = (s.die d).strikes + 1 ∧ t.mem = s.mem ∧
    ((∀ c ∈ zoneCores d cl, (s.core c).undo = []) → t.spad = s.spad ∧ t.tile = s.tile)) := by
  obtain ⟨work, frozen, strikes⟩ := s.strike_keeps d cl
  refine ⟨_, exec_strikeReport hd hcl, by rw [frozen, Tbl.find_put_self], strikes,
    work.mem.trans (State.mem_of_fabric (s.fabric_rollZone d cl)), fun nothing => ?_⟩
  have scratch := State.scratch_rollZone nothing
  exact ⟨work.spad.trans (congrArg Prod.fst scratch), work.tile.trans (congrArg (fun p => p.2.1) scratch)⟩

theorem gives_rolledGroup {ck : Checkpoint} {gid : Nat} {g h : Group} (checkpoint : (s.die d).checkpoint = some ck)
    (found : Tbl.find s.groups gid = some g) (one : ∀ x, (gid, x) ∈ s.groups → x = g) (zone : g.core ∈ zoneCores d cl)
    (unsaved : g.place ≠ .saved) (mark : (s.die d).groupMark ck gid g.core = some h)
    (fix : g.fixStop = true → h.fixStop = true) : Gives (.strikeReport d cl) s (fun t =>
      (t.group gid).v = h.v ∧ (t.group gid).s = h.s ∧ (t.group gid).p = h.p ∧ (t.group gid).splits = h.splits ∧
      (t.group gid).fmode = h.fmode ∧ (t.group gid).place = g.place) := by
  obtain ⟨⟨v, sc, p, splits, fmode⟩, place⟩ :=
    State.rollZone_group fix unsaved checkpoint found one zone (dieOf_zone hcl zone) mark
  have groups : (s.strike d cl).group gid = (s.rollZone d cl).group gid := by
    rw [State.group, (s.strike_keeps d cl).1.groups]; rfl
  refine ⟨_, exec_strikeReport hd hcl, ?_⟩
  dsimp only
  rw [groups]
  exact ⟨v, sc, p, splits, fmode, place⟩

end

/-! ## Mismatches (R109) -/

section
variable {k e d : Nat} {s : State} (named : s.queueDie k e = some d) (lo : 0x20 ≤ e) (hi : e < 0x40)
include named lo hi

theorem mismatch_gives : let x := (s.die d).engine ((e - 0x20) % 8)
    (x.offline = true → Idles (.engineCompareMismatch k e) s) ∧
    (x.offline = false → x.strikes < 2 → Gives (.engineCompareMismatch k e) s (fun t =>
      (t.die d).engine ((e - 0x20) % 8) = { x with strikes := x.strikes + 1 } ∧ OnlyDie d s t)) ∧
    (x.offline = false → 2 ≤ x.strikes → Gives (.engineCompareMismatch k e) s (fun t =>
      ((t.die d).engine ((e - 0x20) % 8)).offline = true ∧ ((t.die d).engine ((e - 0x20) % 8)).strikes = 0)) := by
  intro x
  have run : exec (.engineCompareMismatch k e) s = .next _ := congrArg Host.Outcome.next (State.mismatch_copy named lo hi)
  refine ⟨fun off => ?_, fun on few => ?_, fun on many => ?_⟩
  · exact run.trans (congrArg _ (if_pos off))
  · refine ⟨_, run.trans (congrArg _ ((if_neg (by rw [on]; decide)).trans (if_pos (Nat.succ_lt_succ few)))), ?_, onlyDie_modDie ..⟩
    exact State.modEngine_engine_self ..
  · refine ⟨_, run.trans (congrArg _ ((if_neg (by rw [on]; decide)).trans (if_neg (Nat.not_lt.mpr (Nat.succ_le_succ many))))), ?_⟩
    dsimp only
    rw [State.postPf_die, State.modEngine_engine_self]
    exact ⟨rfl, rfl⟩

end

/-! ## The sounding table and repairs (R110, R111) -/

section
variable {k ch b r c : Nat} {s : State}

theorem gives_firstError (empty : (s.stack k).table = []) : Gives (.correctedError k ch b r c) s (fun t =>
    t.stack k =
      { s.stack k with
        updates := (s.stack k).updates + 1,
        table := [(0, { count := 1, ch := ch, bank := b, row := r, col := c, used := (s.stack k).updates + 1 })] } ∧
    OnlyStack k s t) := by
  have cls : soundClass ((soundAdd (s.stack k) ch b r c).table.map (·.2)) ch b r c = 0 := by
    rw [soundAdd_empty empty]
    exact soundClass_single (by simp [Sounding.at_])
  exact ⟨_, State.execCorrectedError_sound cls, (s.modStack_stack_self ..).trans (soundAdd_empty empty), onlyStack_modStack ..⟩

theorem gives_secondError {i u : Nat}
    (one : (s.stack k).table = [(i, { count := 1, ch := ch, bank := b, row := r, col := c, used := u })])
    (free : (s.stack k).repairs = []) (spare : Tbl.get (s.stack k).spareRows 0 (ch * 64 + b) < 4) :
    Gives (.correctedError k ch b r c) s (fun t =>
      (t.stack k).table =
        [(i, { cls := 1, count := 2, ch := ch, bank := b, row := r, col := c, used := (s.stack k).updates + 1 })] ∧
      (t.stack k).repairs = [{ cls := 1, ch := ch, bank := b, row := r, col := c, endAt := s.cycle + 10000 }] ∧
      Tbl.get (t.stack k).spareRows 0 (ch * 64 + b) = Tbl.get (s.stack k).spareRows 0 (ch * 64 + b) + 1 ∧ OnlyStack k s t) := by
  have added := soundAdd_again one
  have here : ({ count := 2, ch := ch, bank := b, row := r, col := c, used := (s.stack k).updates + 1 } : Sounding).at_ ch b r c =
      true := by simp [Sounding.at_]
  have cls : soundClass ((soundAdd (s.stack k) ch b r c).table.map (·.2)) ch b r c = 1 := by
    rw [added]
    exact soundClass_single here
  set u := (s.modStack k (fun x => soundAdd x ch b r c)).modStack k (fun x => x.classed ch b r c) with hu
  have after : u.stack k = { s.stack k with
      updates := (s.stack k).updates + 1
      table := [(i, { cls := 1, count := 2, ch := ch, bank := b, row := r, col := c, used := (s.stack k).updates + 1 })] } := by
    rw [hu, State.modStack_stack_self, State.modStack_stack_self, added]
    simp only [Stack.classed, List.map_cons, List.map_nil, here, if_true]
  have only : OnlyStack k s u := (onlyStack_modStack ..).trans (onlyStack_modStack ..)
  have run := (State.execCorrectedError_row cls).trans
    (congrArg Host.Outcome.next (State.startRepair_row (s := u) rfl (by rw [after]; exact free) (by rw [after]; exact spare)))
  refine ⟨_, run, ?_⟩
  dsimp only
  rw [State.modStack_stack_self, after, Stack.rowRepair, free]
  exact ⟨rfl, rfl, Tbl.get_put_self .., only.trans (onlyStack_modStack ..)⟩

theorem gives_repairDone {q : Repair} {rest : List Repair} (first : (s.stack k).repairs = q :: rest) :
    Gives (.repairDone k) s (fun t => (t.stack k).repairs = rest ∧
    (∀ e ∈ (t.stack k).table, q.covers e.2 = false ∧ e ∈ (s.stack k).table) ∧
    (∀ n, Tbl.get (t.stack k).softRows 0 n =
      Tbl.get (s.stack k).softRows 0 n + (if q.cls ≠ 3 ∧ n = q.ch * 64 + q.bank then 1 else 0)) ∧
    (∀ n, Tbl.get (t.stack k).softCols 0 n =
      Tbl.get (s.stack k).softCols 0 n + (if q.cls = 3 ∧ n = q.ch * 64 + q.bank then 1 else 0)) ∧ SameWork s t) := by
  obtain ⟨-, -, -, groups, mem, host, spad, tile⟩ := State.postPf_parts (s.modStack k fun x => x.repaired q rest) 12
    (k + 16 * q.ch + 1024 * q.bank + 65536 * q.cls)
  refine ⟨_, congrArg Host.Outcome.next (State.endRepair_first first), ?_⟩
  dsimp only
  rw [State.postPf_stack, State.modStack_stack_self]
  refine ⟨rfl, fun e he => ?_, fun n => ?_, fun n => ?_, groups, mem, host, spad, tile⟩
  · obtain ⟨old, free⟩ := List.mem_filter.mp he
    exact ⟨Bool.not_eq_true' _ ▸ free, old⟩
  · exact (Tbl.get_countIf ..).trans (by simp only [bne_iff_ne])
  · exact (Tbl.get_countIf ..).trans (by simp only [beq_iff_eq])

end

/-! ## Banks (R112) -/

theorem gives_bankRetire {k : Nat} {v : Word} {s : State} (hk : k < 8) (go : v.getLsbD 31 = true) (running : s.m.recovery = false) :
    let ch := (v.extractLsb' 6 5).toNat
    let b := (v.extractLsb' 0 6).toNat
    ((ch, b) ∉ (s.stack k).requests → Gives (.bankRetire k v) s (fun t => OnlyStack k s t ∧
      t.stack k = { s.stack k with retire := BitVec.ofNat 32 (2 * 2 ^ 28 + ch * 64 + b) })) ∧
    ((ch, b) ∈ (s.stack k).requests → (∃ f ∈ bankFrames k ch b, s.owner f ≠ 31) → Gives (.bankRetire k v) s (fun t =>
      OnlyStack k s t ∧ t.stack k = { s.stack k with retire := BitVec.ofNat 32 (2 ^ 28 + ch * 64 + b) })) ∧
    ((ch, b) ∈ (s.stack k).requests → (∀ f ∈ bankFrames k ch b, s.owner f = 31) → Gives (.bankRetire k v) s (fun t =>
      (∀ f ∈ bankFrames k ch b, t.owner f = 30) ∧ (∀ f, f ∉ bankFrames k ch b → t.owner f = s.owner f) ∧
      (ch, b) ∈ (t.stack k).retired ∧ (ch, b) ∉ (t.stack k).requests ∧
      (t.stack k).retire = BitVec.ofNat 32 (ch * 64 + b) ∧ t.groups = s.groups ∧ t.hostMem = s.hostMem)) := by
  intro ch b
  have run : exec (.bankRetire k v) s = .next _ := congrArg Host.Outcome.next
    ((State.bar0_running running _).trans ((if_pos hk).trans (State.retireBank_eq go)))
  refine ⟨fun unasked => ?_, fun asked owned => ?_, fun asked free => ?_⟩
  · exact ⟨_, run.trans (congrArg _ (if_pos unasked)), onlyStack_modStack .., s.modStack_stack_self ..⟩
  · exact ⟨_, run.trans (congrArg _ ((if_neg (not_not.mpr asked)).trans (if_pos owned))), onlyStack_modStack ..,
      s.modStack_stack_self ..⟩
  · have none_owned : ¬ ∃ f ∈ bankFrames k ch b, s.owner f ≠ 31 := fun ⟨f, hf, owned⟩ => owned (free f hf)
    obtain ⟨listed, answered, retire⟩ := s.retired_stack k ch b
    obtain ⟨groups, host⟩ := s.retired_keeps k ch b
    refine ⟨_, run.trans (congrArg _ ((if_neg (not_not.mpr asked)).trans (if_neg none_owned))), fun f hf => ?_, fun f hf => ?_,
      listed, answered, retire, groups, host⟩
    · exact (s.retired_owner ..).trans (if_pos hf)
    · exact (s.retired_owner ..).trans (if_neg hf)

/-! ## Tests (R113, R114) -/

theorem gives_testStart {c : Nat} {s : State} (may : s.mayTest c = true)
    (signed : s.m.testChecked = true ∨ Config.signatureValid Config.testKernels = true) :
    Gives (.infieldTestStart c) s (fun t => t.core c = { s.core c with testing := s.cycle + 1 } ∧
      (∀ e, e ≠ c → t.core e = s.core e) ∧ t.m = { s.m with testChecked := true } ∧ SameWork s t) := by
  refine ⟨_, congrArg Host.Outcome.next (State.startTest_begins may signed), ?_, fun e he => ?_, rfl, rfl, rfl, rfl, rfl, rfl⟩
  · rw [State.modDie_core, State.modCore_core_self]; rfl
  · rw [State.modDie_core, (onlyCore_modCore ..).others e he]; rfl

theorem gives_testDone {c : Nat} {s : State} (r : List Byte) (under : (s.core c).testing ≠ 0) :
    Gives (.infieldTestDone c r) s (fun t => let p := testPasses r
      t.core c = { s.core c with testing := 0, lastTest := s.cycle + 1, failed := (s.core c).failed || !p } ∧
      t.m.testRuns = s.m.testRuns + 1 ∧ t.m.testLog = s.m.testLog ++ [testRecord c p s.cycle] ∧ SameWork s t) := by
  obtain ⟨x, l, run⟩ := State.execInfieldTestDone_ends r under
  exact ⟨_, run, s.tested_core c (testPasses r), rfl, rfl, rfl, rfl, rfl, rfl, rfl⟩

/-- Settles O46: each event is one equation above for the state it reaches; in a strike a group is followed through the rollback of its
zone, which gives it back once, from its mark. -/
theorem containmentEvents : Obligations.ContainmentEvents := by
  refine ⟨fun l s => rfl, fun n s => ⟨_, rfl, s.poisonSite_line n⟩, gives_poisonedLines, fun x s word => ?word,
    fun k v s recovery => ?recovery, fun k v s clear => idles_bar0 rfl (if_neg (by rw [clear, Bool.and_false]; decide)),
    fun k v s idle => ?absorbed, fun k v s hk bit running act alive => ?kill,
    fun k s alive => State.execKillComplete_idle alive, fun k s _ killing => gives_killOver killing,
    fun d cl s hd hcl => gives_strike hd hcl,
    fun d cl ck gid g h s hd hcl checkpoint found one zone unsaved mark fix =>
      gives_rolledGroup hd hcl checkpoint found one zone unsaved mark fix,
    fun d cl s => ?resume, fun k e s unnamed => ?unnamed, fun k e d s named lo hi => mismatch_gives named lo hi,
    fun k ch b r c s empty => gives_firstError empty, fun k ch b r c i u s one free spare => gives_secondError one free spare,
    fun k s none_left => congrArg Host.Outcome.next (State.endRepair_idle none_left),
    fun k r rest s first => gives_repairDone first,
    fun k v s absent => idles_bar0 rfl (if_neg (Nat.not_lt.mpr absent)),
    fun k v s hk go running => gives_bankRetire hk go running,
    fun c s no => congrArg Host.Outcome.next (State.startTest_idle c (by rw [no, Bool.false_and])),
    fun c s unchecked unsigned =>
      congrArg Host.Outcome.next (State.startTest_idle c (by rw [unchecked, unsigned, Bool.or_self, Bool.and_false])),
    fun c s may signed => gives_testStart may signed, fun c r s idle => congrArg Host.Outcome.next (if_pos idle),
    fun c r s under => gives_testDone r under⟩
  case word =>
    refine ⟨_, congrArg Host.Outcome.next (s.poisonSite_word word), ⟨rfl, rfl, rfl, rfl, rfl⟩, fun y => ?_⟩
    exact List.mem_insert_iff
  case recovery =>
    exact ⟨congrArg Host.Outcome.next (if_pos recovery), congrArg Host.Outcome.next (if_pos recovery)⟩
  case absorbed =>
    have absorbs : ((s.slice k).killing || (s.slice k).st != .active) = true := by
      rcases idle with st | killing
      · rw [bne_iff_ne.mpr st, Bool.or_true]
      · rw [killing, Bool.true_or]
    refine idles_bar0 rfl ?_
    split
    · exact if_pos absorbs
    · rfl
  case kill =>
    refine gives_of_modSlice (State.execDkill_begins hk bit running act alive) fun t ht _ => ?_
    have dropped := s.dropWork_slice hk 2
    rw [ht]
    exact ⟨rfl, rfl, rfl, dropped⟩
  case resume =>
    refine gives_of_modDie rfl fun t ht only => ⟨only, fun due => ?_, fun early => ?_⟩
    · rw [ht, decide_eq_true due, if_pos rfl, Tbl.find_del, if_pos rfl]
    · rw [ht, decide_eq_false (Nat.not_le.mpr early)]; rfl
  case unnamed =>
    refine congrArg Host.Outcome.next ?_
    unfold State.mismatch
    rw [unnamed]

end Sys2Proof.Safety
end

section
/-! SUPPORT. The stage before issue (R124, R166, R266): what is fetched at a program counter, and when nothing comes before the
instruction that stands there. -/

namespace Sys2Proof.Machine

theorem Decode.bytes_four (b0 b1 b2 b3 : Byte) : Decode.bytes [b0, b1, b2, b3] =
    if b0.toNat % 2 = 0 then .ok (Decode.word16 (b0.toNat + 256 * b1.toNat), [b2, b3])
    else (Decode.word32 (b0.toNat + 256 * b1.toNat + 65536 * b2.toNat + 16777216 * b3.toNat)).map (·, []) := rfl

namespace State

variable {s : State} {gid born : Nat} {g : Group} {p : Split}

/-! ## Fetch (R266) -/

section
variable {e f : TlbEntry} (glob : windowOf p.pc.toNat = .glob) (page : s.checkPage g.slice g.core p.pc.toNat .fetch = .ok e)
  (glob' : windowOf (p.pc.toNat + 2) = .glob) (page' : s.checkPage g.slice g.core (p.pc.toNat + 2) .fetch = .ok f)

theorem fetchHalf_page {a : Nat} (glob : windowOf a = .glob) (page : s.checkPage g.slice g.core a .fetch = .ok e) :
    s.fetchHalf g p a = .ok (s.memBytes (e.out + a % e.size) 2) := by
  rw [fetchHalf, if_neg (not_not.mpr glob), page]

include glob page glob' page'

/-- Where both halves of a word can be fetched, the fetch answers what the decoder makes of their four bytes. -/
theorem fetch_pages : ∃ w, s.fetch g p = .ok (w, (Decode.bytes (s.memBytes (e.out + p.pc.toNat % e.size) 2 ++
    s.memBytes (f.out + (p.pc.toNat + 2) % f.size) 2)).map Prod.fst) := by
  have halves (a : Nat) : s.memBytes a 2 = [s.memByte a, s.memByte (a + 1)] := rfl
  rw [fetch, fetchHalf_page glob page, fetchHalf_page glob' page', halves, halves]
  generalize e.out + p.pc.toNat % e.size = x, f.out + (p.pc.toNat + 2) % f.size = y
  generalize s.memByte x = b0, s.memByte (x + 1) = b1, s.memByte y = b2, s.memByte (y + 1) = b3
  have low : ofLe [b0, b1] = b0.toNat + 256 * b1.toNat := by simp only [ofLe]; omega
  have whole : ofLe [b0, b1] + 65536 * ofLe [b2, b3] =
      b0.toNat + 256 * b1.toNat + 65536 * b2.toNat + 16777216 * b3.toNat := by simp only [ofLe]; omega
  have parity : ofLe [b0, b1] % 2 = b0.toNat % 2 := by rw [low]; omega
  rw [show [b0, b1] ++ [b2, b3] = [b0, b1, b2, b3] from rfl, Decode.bytes_four]
  dsimp only
  rw [parity, whole, low]
  by_cases short : b0.toNat % 2 = 0
  · exact ⟨_, by rw [if_pos short, if_pos short]; rfl⟩
  · refine ⟨b0.toNat + 256 * b1.toNat + 65536 * b2.toNat + 16777216 * b3.toNat, ?_⟩
    rw [if_neg short, if_neg short]
    cases Decode.word32 _ <;> rfl

/-- Bytes that decode are fetched as their instruction. -/
theorem fetch_decodes {i : Instr} {r : List Byte} (word : Decode.bytes (s.memBytes (e.out + p.pc.toNat % e.size) 2 ++
    s.memBytes (f.out + (p.pc.toNat + 2) % f.size) 2) = .ok (i, r)) : ∃ w, s.fetch g p = .ok (w, .ok i) := by
  obtain ⟨w, fetched⟩ := fetch_pages glob page glob' page'
  exact ⟨w, by rw [fetched, word]; rfl⟩

/-- Bytes that do not decode are fetched as a word that is refused. -/
theorem fetch_refused {x : Reject} (word : Decode.bytes (s.memBytes (e.out + p.pc.toNat % e.size) 2 ++
    s.memBytes (f.out + (p.pc.toNat + 2) % f.size) 2) = .error x) : ∃ w, s.fetch g p = .ok (w, .error x) := by
  obtain ⟨w, fetched⟩ := fetch_pages glob page glob' page'
  exact ⟨w, by rw [fetched, word]; rfl⟩

end

/-! ## The debugger (R231 to R233, R396) -/

/-- The debugger stops nothing where there is no fix, or none that a stop, a dump, a STEP or a breakpoint names. -/
theorem atFix_passes (free : s.fixAt g p.pc.toNat = none ∨ g.skipBrk = some p.born ∨
    g.dumpAt = 0 ∧ g.stepping = false ∧ ∀ k, s.breaksAt g k = false) : s.atFix gid g p = (none, s) := by
  unfold atFix
  cases fix : s.fixAt g p.pc.toNat with
  | none => rfl
  | some k =>
    rcases free with noFix | passed | ⟨dump, step, breaks⟩
    · cases fix.symm.trans noFix
    · exact if_pos (beq_iff_eq.mpr passed)
    · simp [dump, step, breaks k]

/-! ## What the stage answers (R124, R166) -/

theorem wait_of_live1 (live : s.live1 g p = true) : p.wait = none := by
  simp only [live1, Bool.and_eq_true, Option.isNone_iff_eq_none] at live
  tauto

theorem split?_born (split : g.split? born = some p) : p.born = born := by
  simpa using List.find?_some split

section
variable (found : Tbl.find s.groups gid = some g) (split : g.split? born = some p)
include found split

/-- A form in progress whose turn has come goes on (R347). -/
theorem front_wait {w : Nat} {i : Instr} (wait : p.wait.isSome = true) (asleep : p.st = .sleep)
    (fetched : s.fetch g p = .ok (w, .ok i)) : s.front gid born = .run i s := by
  simp [front, found, split, wait, asleep, fetched]

variable (live : s.live1 g p = true) (noCause : g.lateCause p = none) (passes : s.atFix gid g p = (none, s))
  (clean : s.fetchPoison g p = none)
include live noCause passes clean

theorem front_run {w : Nat} {i : Instr} (fetched : s.fetch g p = .ok (w, .ok i)) : s.front gid born = .run i s := by
  simp [front, found, split, wait_of_live1 live, live, noCause, passes, clean, fetched]

/-- A word that does not decode raises ILLEGAL (R278). -/
theorem front_illegal {w d : Nat} (fetched : s.fetch g p = .ok (w, .error (.illegal d))) :
    s.front gid born = .done (({ s with cur := none } : State).takeTrap gid born
      { cause := 1, detail := d, mask := p.mask, pc := p.pc, rpc := p.pc }) := by
  simp [front, found, split, wait_of_live1 live, live, noCause, passes, clean, fetched]

end
end State

/-! ## The step -/

theorem step_of_run {s t : State} {gid born : Nat} {i : Instr} (cur : s.cur = some (gid, born)) (front : s.front gid born = .run i t) :
    step s = closeIssue t gid born (exec i t) := by simp only [step, cur, front]

theorem step_of_done {s t : State} {gid born : Nat} (cur : s.cur = some (gid, born)) (front : s.front gid born = .done t) :
    step s = .next t := by simp only [step, cur, front]

theorem State.clearSkip_none {s t : State} {gid born : Nat} (h : (s.group gid).skipBrk ≠ some born) : s.clearSkip t gid born = t := by
  simp [State.clearSkip, h]

end Sys2Proof.Machine

namespace Sys2Proof.Safety

open Machine

/-- Settles O56: the four bytes at the program counter are what is fetched there, and with no late cause, stop or poison the stage
before issue answers their instruction, or the trap of a word that is refused. -/
theorem stepRunsTheDecodedInstruction : Obligations.StepRunsTheDecodedInstruction := by
  unfold Obligations.StepRunsTheDecodedInstruction
  refine ⟨fun s gid born g p e f i r cur found split live noCause fix glob glob' clean page page' => ?issue,
    fun s gid born g p e f i r cur found split wait asleep glob glob' page page' word => ?goesOn,
    fun s gid born t => ⟨rfl, State.clearSkip_none⟩, fun s i r cur agenda posted => ?posted, fun s i r cur agenda foreign => ?foreign,
    fun s cur agenda => ?idle⟩
  case issue =>
    rw [← State.split?_born split] at fix
    have passes := State.atFix_passes (gid := gid) fix
    refine ⟨fun word => ?_, fun d word => ?_⟩
    · obtain ⟨w, fetched⟩ := State.fetch_decodes glob page glob' page' word
      exact step_of_run cur (State.front_run found split live noCause passes clean fetched)
    · obtain ⟨w, fetched⟩ := State.fetch_refused glob page glob' page' word
      exact step_of_done cur (State.front_illegal found split live noCause passes clean fetched)
  case goesOn =>
    obtain ⟨w, fetched⟩ := State.fetch_decodes glob page glob' page' word
    exact step_of_run cur (State.front_wait found split wait asleep fetched)
  case posted => simp only [step, cur, agenda, posted, if_true]
  case foreign => simp [step, cur, agenda, foreign]
  case idle => simp only [step, cur, agenda]

end Sys2Proof.Safety
end

section
/-! SUPPORT. The scheduler's events (R125, R128, R130, R132, R160, R163): the order of the candidates of a slot and which of them is
chosen, what the event of a slot leaves alone, the buckets and the admission of a cluster, and the merge of two splits in RUN. -/

namespace Sys2Proof.Machine

/-! ## The order of R125 -/

theorem mem_insertCand {a c : Cand} {l : List Cand} : c ∈ insertCand a l ↔ c = a ∨ c ∈ l := by
  induction l with
  | nil => simp [insertCand]
  | cons b r ih =>
    rw [insertCand]
    split
    · exact List.mem_cons
    · rw [List.mem_cons, ih, List.mem_cons]; tauto

/-- The order changes the places of candidates only. -/
theorem mem_ranked {c : Cand} {l : List Cand} : c ∈ ranked l ↔ c ∈ l := by
  induction l with
  | nil => rfl
  | cons a r ih => exact mem_insertCand.trans (by rw [show r.foldr insertCand [] = ranked r from rfl, ih, List.mem_cons])

namespace State

variable {s : State} {slot : Slot}

/-! ## The choice of a slot (R128, R140) -/

theorem choose_some {l : List Cand} {q : Cand} (h : s.choose slot l = some q) : q ∈ l ∧ s.candPays q = true := by
  have pays := List.find?_some h
  exact ⟨mem_ranked.mp (List.mem_of_find?_eq_some h), (Bool.and_eq_true_iff.mp pays).1⟩

/-- Alone in its slot a candidate is not passed over for its region's share (R140). -/
theorem shared_singleton (q : Cand) : s.shared slot [q] q = false := by simp [shared]

theorem choose_singleton (q : Cand) : s.choose slot [q] = if s.candPays q then some q else none := by
  rw [choose, show ranked [q] = [q] from rfl, List.find?_singleton, shared_singleton, Bool.not_false, Bool.and_true]

/-! ## The event of a slot -/

/-- The leaves of the first look stand on a core. -/
theorem firstLook_whole (s : State) (c p : Nat) : ∃ x, s.firstLook c p = { s with cores := x } := by
  unfold firstLook
  split
  · exact ⟨_, rfl⟩
  · exact ⟨_, rfl⟩

/-- Passing candidates over counts in their groups and on their cores (R130). -/
theorem passOthers_whole (pick : Option Cand) (l : List Cand) (s : State) : ∃ g x,
    l.foldl (fun s c => if pick == some c then s else s.passed c.gid c.p.born) s = { s with groups := g, cores := x } := by
  induction l generalizing s with
  | nil => exact ⟨_, _, rfl⟩
  | cons c l ih =>
    rw [List.foldl_cons]
    split
    · exact ih s
    · obtain ⟨g, x, rest⟩ := ih (s.passed c.gid c.p.born)
      exact ⟨g, x, rest⟩

/-- A slot whose only candidate is chosen, if it has one, passes no split over. -/
theorem passOthers_none {pick : Option Cand} {l : List Cand} (all : ∀ c ∈ l, pick = some c) (s : State) :
    l.foldl (fun s c => if pick == some c then s else s.passed c.gid c.p.born) s = s := by
  induction l with
  | nil => rfl
  | cons c l ih =>
    rw [List.foldl_cons, if_pos (beq_iff_eq.mpr (all c List.mem_cons_self))]
    exact ih fun b hb => all b (List.mem_cons_of_mem _ hb)

/-- The event of a slot chooses a split, and touches groups and cores alone. -/
theorem fillSlot_whole (s : State) (c p : Nat) (k : Slot) : ∃ g x,
    s.fillSlot c p k = { s with groups := g, cores := x, cur := (s.choose k (s.cands c p k)).map (fun q => (q.gid, q.p.born)) } := by
  obtain ⟨g, x, passed⟩ := passOthers_whole (s.choose k (s.cands c p k)) (s.cands c p k) s
  exact ⟨g, _, by rw [fillSlot, passed]; rfl⟩

theorem fillSlot_groups {c p : Nat} {k : Slot} (all : ∀ q ∈ s.cands c p k, s.choose k (s.cands c p k) = some q) :
    (s.fillSlot c p k).groups = s.groups := by
  rw [fillSlot, passOthers_none all]; rfl

theorem slotStep_cur (s : State) (c p : Nat) (k : Slot) : (s.slotStep c p k).cur =
    ((s.firstLook c p).choose (s.slotTurn c p k) ((s.firstLook c p).cands c p (s.slotTurn c p k))).map
      (fun q => (q.gid, q.p.born)) := by
  obtain ⟨g, x, filled⟩ := (s.firstLook c p).fillSlot_whole c p (s.slotTurn c p k)
  rw [slotStep, filled]

theorem slotStep_bytes (s : State) (c p : Nat) (k : Slot) : (s.slotStep c p k).mem = s.mem ∧
    (s.slotStep c p k).hostMem = s.hostMem ∧ (s.slotStep c p k).spad = s.spad ∧ (s.slotStep c p k).tile = s.tile := by
  obtain ⟨y, looked⟩ := s.firstLook_whole c p
  obtain ⟨g, x, filled⟩ := (s.firstLook c p).fillSlot_whole c p (s.slotTurn c p k)
  rw [slotStep, filled, looked]
  exact ⟨rfl, rfl, rfl, rfl⟩

theorem slotStep_groups {c p : Nat} {k : Slot} (all : ∀ q ∈ (s.firstLook c p).cands c p (s.slotTurn c p k),
    (s.firstLook c p).choose (s.slotTurn c p k) ((s.firstLook c p).cands c p (s.slotTurn c p k)) = some q) :
    (s.slotStep c p k).groups = s.groups := by
  obtain ⟨y, looked⟩ := s.firstLook_whole c p
  exact (fillSlot_groups all).trans (by rw [looked])

/-! ## Starvation (R130) -/

theorem flagStarving_split {gid born : Nat} {g : Group} {p : Split} (found : Tbl.find s.groups gid = some g)
    (split : g.split? born = some p) (passed : 256 ≤ p.passed) (fresh : p.starve = 0) :
    ((s.flagStarving gid born).group gid).split? born = some { p with starve := (s.core g.core).stamp } ∧
      ∀ b, b ≠ born → ((s.flagStarving gid born).group gid).split? b = g.split? b := by
  let flag (q : Split) : Split := if 256 ≤ q.passed && q.starve = 0 then { q with starve := (s.core g.core).stamp } else q
  have keeps (q : Split) : (flag q).born = q.born := by simp only [flag]; split <;> rfl
  have group : (s.flagStarving gid born).group gid = g.modSplit born flag := by
    rw [flagStarving, group_of_find found]
    exact group_modGroup _ found
  refine ⟨?_, fun b other => ?_⟩
  · rw [group, Group.split?_modSplit _ _ _ _ keeps, if_pos rfl, split]
    simp [flag, passed, fresh]
  · rw [group, Group.split?_modSplit _ _ _ _ keeps, if_neg (Ne.symm other)]

theorem flagStarving_stamp {gid born : Nat} {g : Group} (found : Tbl.find s.groups gid = some g) :
    ((s.flagStarving gid born).core g.core).stamp = (s.core g.core).stamp + 1 := by
  rw [flagStarving, group_of_find found, modCore_core_self]; rfl

/-! ## Admission (R132) -/

/-- A core with its buckets empty. -/
theorem foldl_emptied_core (l : List Nat) (s : State) (c : Nat) :
    (l.foldl (fun s c => s.modCore c (fun x => { x with bkt := [], mbkt := 0 })) s).core c =
      if c ∈ l then { s.core c with bkt := [], mbkt := 0 } else s.core c := by
  induction l generalizing s with
  | nil => rfl
  | cons a l ih =>
    rw [List.foldl_cons, ih, modCore_core]
    by_cases here : a = c
    · subst here; simp
    · simp [here, Ne.symm here]

theorem emptyBuckets_core (s : State) (d cl c : Nat) : (s.emptyBuckets d cl).core c =
    if c ∈ zoneCores d cl then { s.core c with bkt := [], mbkt := 0 } else s.core c := foldl_emptied_core ..

theorem emptyBuckets_whole (s : State) (d cl : Nat) : ∃ x, s.emptyBuckets d cl = { s with cores := x } := by
  unfold emptyBuckets
  generalize zoneCores d cl = l
  induction l generalizing s with
  | nil => exact ⟨_, rfl⟩
  | cons a l ih =>
    obtain ⟨x, rest⟩ := ih (s.modCore a (fun x => { x with bkt := [], mbkt := 0 }))
    exact ⟨x, rest⟩

end State

/-- The bit of a cluster. -/
theorem getLsbD_clusterBit {cl : Nat} (h : cl < 9) (i : Nat) : (BitVec.ofNat 9 (2 ^ cl)).getLsbD i = decide (i = cl) := by
  rw [BitVec.getLsbD_ofNat, Nat.testBit_two_pow]
  by_cases same : cl = i
  · subst same; simp [h]
  · simp [same, Ne.symm same]

/-- The admission bits of a die after one is cleared. -/
theorem getLsbD_and_not_cluster {cl : Nat} (h : cl < 9) (a : BitVec 9) (i : Nat) :
    (a &&& ~~~(BitVec.ofNat 9 (2 ^ cl))).getLsbD i = (a.getLsbD i && decide (i ≠ cl)) := by
  rw [BitVec.getLsbD_and, BitVec.getLsbD_not, getLsbD_clusterBit h]
  by_cases low : i < 9
  · simp [low]
  · rw [BitVec.getLsbD_of_ge a i (Nat.not_lt.mp low)]; rfl

/-- The admission bits of a die after one is set. -/
theorem getLsbD_or_cluster {cl : Nat} (h : cl < 9) (a : BitVec 9) (i : Nat) :
    (a ||| BitVec.ofNat 9 (2 ^ cl)).getLsbD i = (a.getLsbD i || decide (i = cl)) := by
  rw [BitVec.getLsbD_or, getLsbD_clusterBit h]

/-! ## Two splits that meet (R163) -/

namespace Group

variable {g : Group} {p q : Split}

/-- Two splits in RUN that have met, as one. -/
def met (g : Group) (p q : Split) : Split :=
  { p with
    mask := p.mask ||| q.mask
    held := p.held ||| q.held
    readyAt := max p.readyAt q.readyAt
    stack := match p.stack with
      | [] => []
      | m :: l => if p.lanes ||| q.lanes = m &&& g.live then l else m :: l }

theorem runPair_met (splits : g.splits = [p, q]) (run : p.st = .run) (run' : q.st = .run) (pc : p.pc = q.pc)
    (stack : p.stack = q.stack) (older : p.born < q.born) : g.runPair = some (p, q) := by
  simp [runPair, splits, run, run', pc, stack, older]

theorem runPair_single (splits : g.splits = [p]) : g.runPair = none := by
  simp [runPair, splits]

theorem mergeRun_single (splits : g.splits = [p]) (n : Nat) : g.mergeRun n = g := by
  cases n with
  | zero => rfl
  | succ n => rw [mergeRun, runPair_single splits]

/-- The older split of the two takes the lanes of the younger, which is gone. -/
theorem mergeRun_met (splits : g.splits = [p, q]) (run : p.st = .run) (run' : q.st = .run) (pc : p.pc = q.pc)
    (stack : p.stack = q.stack) (older : p.born < q.born) (n : Nat) :
    g.mergeRun (n + 1) = { g with splits := [g.met p q] } := by
  rw [mergeRun, runPair_met splits run run' pc stack older]
  dsimp only
  have merged (f : Split → Split) (born : (f p).born = p.born) (value : f p = g.met p q) :
      (g.modSplit p.born f).dropSplit q.born = { g with splits := [g.met p q] } := by
    simp [modSplit, dropSplit, splits, modSplits, ← value, born, older.ne]
  rw [merged _ rfl, mergeRun_single rfl]
  unfold met
  cases p.stack with
  | nil => rfl
  | cons m l => simp only [beq_iff_eq]; split <;> rfl

/-- Where no split is parked no merge is ready. -/
theorem mergeAll_running (running : ∀ r ∈ g.splits, r.st = .run) (n : Nat) : g.mergeAll n = g := by
  cases n with
  | zero => rfl
  | succ n =>
    have none_parked : g.splits.find? (fun r => r.st == .park && g.mergeReady r) = none :=
      List.find?_eq_none.mpr fun r hr => by simp [running r hr]
    rw [mergeAll, none_parked]

/-- Where no split waits none enters RUN. -/
theorem fillRun_running (running : ∀ r ∈ g.splits, r.st = .run) (n : Nat) : g.fillRun n = g := by
  cases n with
  | zero => rfl
  | succ n =>
    have noneWait : g.waitHead = none := by
      rw [waitHead, List.filter_eq_nil_iff.mpr fun r hr => by simp [running r hr]]; rfl
    rw [fillRun, noneWait]
    exact ite_self g

theorem stuck_running (running : ∀ r ∈ g.splits, r.st = .run) : g.stuck = false := by
  unfold stuck
  cases list : g.splits with
  | nil => rfl
  | cons r l => simp [running r (list ▸ List.mem_cons_self)]

end Group

namespace State

variable {s : State} {gid : Nat} {g : Group}

/-- A change that leaves the group as it is changes nothing. -/
theorem modGroup_fixed {f : Group → Group} (found : Tbl.find s.groups gid = some g) (fixed : f g = g) : s.modGroup gid f = s := by
  have same : Tbl.upd s.groups gid f = s.groups :=
    (Tbl.upd_congr fun a ha => by rw [← Option.some.inj (found.symm.trans ha), fixed]).trans Tbl.upd_id
  rw [modGroup, same]

/-- With every split of a group in RUN there is nothing to settle (R161, R164). -/
theorem settleParked_running (found : Tbl.find s.groups gid = some g) (running : ∀ r ∈ g.splits, r.st = .run) :
    s.settleParked gid = s := by
  rw [settleParked, modGroup_fixed found (Group.mergeAll_running running 32), refill,
    modGroup_fixed found (Group.fillRun_running running 32), found]
  exact if_neg (by rw [Group.stuck_running running]; decide)

end State
end Sys2Proof.Machine

namespace Sys2Proof.Safety

open Machine

theorem onlyGroup_modGroup (s : State) (gid : Nat) (f : Group → Group) : OnlyGroup gid s (s.modGroup gid f) :=
  ⟨rfl, fun h hh => by rw [State.find_modGroup, if_neg (Ne.symm hh)]⟩

/-! ## The slots of a partition (R125, R128) -/

theorem slotTurn_served (c p : Nat) (s : State) : s.slotTurn c p .c = .c ∧
    ((s.core c).served = [] → ∀ k q r, k ≠ .c → s.cands c p .v = [q] → s.cands c p .m = [r] →
      s.slotTurn c p k = (if better q r then .v else .m)) ∧
    ((s.core c).served = [p * 3] → ∀ k, k ≠ .c → s.slotTurn c p k = .m) ∧
    ((s.core c).served = [p * 3 + 1] → ∀ k, k ≠ .c → s.slotTurn c p k = .v) := by
  refine ⟨rfl, fun served k q r wide v m => ?_, fun served k wide => ?_, fun served k wide => ?_⟩
  · simp [State.slotTurn, wide, served, v, m, ranked, insertCand]
  · simp [State.slotTurn, wide, served, slotNum]
  · simp [State.slotTurn, wide, served, slotNum]

theorem gives_slotIssue (c p : Nat) (k : Slot) (s : State) :
    let u := s.firstLook c p
    let l := u.cands c p (s.slotTurn c p k)
    (l = [] → Gives (.slotIssue c p k) s (fun t => t.cur = none ∧ t.groups = s.groups ∧ SameWork s t)) ∧
    (l ≠ [] → Gives (.slotIssue c p k) s (fun t =>
      (∀ x, t.cur = some x → ∃ q ∈ l, x = (q.gid, q.p.born) ∧ u.candPays q = true) ∧
      t.mem = s.mem ∧ t.hostMem = s.hostMem ∧ t.spad = s.spad ∧ t.tile = s.tile)) ∧
    (∀ q, l = [q] → u.candPays q = true → Gives (.slotIssue c p k) s (fun t =>
      t.cur = some (q.gid, q.p.born) ∧ t.groups = s.groups)) ∧
    (∀ q, l = [q] → u.candPays q = false → Gives (.slotIssue c p k) s (fun t => t.cur = none)) := by
  intro u l
  have cur : (s.slotStep c p k).cur = (u.choose (s.slotTurn c p k) l).map (fun q => (q.gid, q.p.born)) := s.slotStep_cur c p k
  have bytes := s.slotStep_bytes c p k
  have groups (all : ∀ q ∈ l, u.choose (s.slotTurn c p k) l = some q) : (s.slotStep c p k).groups = s.groups :=
    State.slotStep_groups all
  refine ⟨fun empty => ?_, fun _ => ?_, fun q one pays => ?_, fun q one poor => ?_⟩
  · have kept := groups (by rw [empty]; exact fun _ h => absurd h List.not_mem_nil)
    obtain ⟨mem, host, spad, tile⟩ := bytes
    exact ⟨_, rfl, by rw [cur, empty]; rfl, kept, kept, mem, host, spad, tile⟩
  · refine ⟨_, rfl, fun x hx => ?_, bytes⟩
    rw [cur] at hx
    obtain ⟨q, chosen, rfl⟩ := Option.map_eq_some_iff.mp hx
    obtain ⟨listed, pays⟩ := State.choose_some chosen
    exact ⟨q, listed, rfl, pays⟩
  · have chosen : u.choose (s.slotTurn c p k) l = some q := by rw [one, State.choose_singleton, if_pos pays]
    exact ⟨_, rfl, by rw [cur, chosen]; rfl, groups fun r hr => by
      rw [one] at hr
      rw [chosen, List.mem_singleton.mp hr]⟩
  · have unchosen : u.choose (s.slotTurn c p k) l = none := by rw [one, State.choose_singleton, poor]; rfl
    exact ⟨_, rfl, cur.trans (by rw [unchosen]; rfl)⟩

/-! ## Admission (R132) -/

theorem gives_clusterIdle {d cl : Nat} {s : State} (hcl : cl < 9) (admitted : (s.die d).adm.getLsbD cl = true)
    (idle : Tbl.get (s.die d).lastWide 0 cl + 255 ≤ (s.die d).cyc) : Gives (.clusterIdle d cl) s (fun t =>
      (t.die d).adm.getLsbD cl = false ∧ (∀ i, i ≠ cl → (t.die d).adm.getLsbD i = (s.die d).adm.getLsbD i) ∧
      (∀ c ∈ zoneCores d cl, (t.core c).bkt = [] ∧ (t.core c).mbkt = 0) ∧
      (∀ c, c ∉ zoneCores d cl → t.core c = s.core c) ∧ SameWork s t) := by
  have due : s.idleDue d cl = true := by simp [State.idleDue, admitted, idle]
  let lose (x : Die) : Die := { x with adm := x.adm &&& ~~~(BitVec.ofNat 9 (2 ^ cl)) }
  have core (c : Nat) : ((s.emptyBuckets d cl).modDie d lose).core c = _ := s.emptyBuckets_core d cl c
  obtain ⟨x, emptied⟩ := s.emptyBuckets_whole d cl
  have die : ((s.emptyBuckets d cl).modDie d lose).die d = lose (s.die d) := by
    rw [State.modDie_die_self, emptied]; rfl
  refine ⟨_, congrArg Host.Outcome.next (if_pos due), ?_, fun i other => ?_, fun c zone => ?_, fun c outside => ?_, ?_⟩
  · rw [die, getLsbD_and_not_cluster hcl]; simp
  · rw [die, getLsbD_and_not_cluster hcl]; simp [other]
  · rw [core, if_pos zone]; exact ⟨rfl, rfl⟩
  · rw [core, if_neg outside]
  · rw [emptied]; exact ⟨rfl, rfl, rfl, rfl, rfl⟩

theorem gives_admissionGrant {d cl : Nat} {s : State} (hcl : cl < 9) (next : s.nextGrant d = some cl)
    (room : (s.die d).grantWin ≠ (s.die d).cyc / 16 ∨ (s.die d).grants < 4) : Gives (.admissionGrant d) s (fun t =>
      (t.die d).adm.getLsbD cl = true ∧ (∀ i, i ≠ cl → (t.die d).adm.getLsbD i = (s.die d).adm.getLsbD i) ∧
      (t.die d).ptr.toNat = cl ∧ OnlyDie d s t) := by
  have few : ¬ 4 ≤ (if (s.die d).grantWin = (s.die d).cyc / 16 then (s.die d).grants else 0) := by split <;> omega
  have granted : exec (.admissionGrant d) s = .next _ :=
    congrArg Host.Outcome.next ((if_neg few).trans (by rw [next]))
  refine ⟨_, granted, ?_, fun i other => ?_, ?_, onlyDie_modDie ..⟩
  · rw [State.modDie_die_self, getLsbD_or_cluster hcl]; simp
  · rw [State.modDie_die_self, getLsbD_or_cluster hcl]; simp [other]
  · rw [State.modDie_die_self]
    exact Nat.mod_eq_of_lt (by omega)

/-! ## Merging (R163) -/

theorem gives_splitMerge {gid : Nat} {g : Group} {p q : Split} {s : State} (found : Tbl.find s.groups gid = some g)
    (splits : g.splits = [p, q]) (run : p.st = .run) (run' : q.st = .run) (pc : p.pc = q.pc) (stack : p.stack = q.stack)
    (older : p.born < q.born) : Gives (.splitMerge gid) s (fun t => OnlyGroup gid s t ∧
      (t.group gid).splits = [g.met p q]) := by
  have merged := Group.mergeRun_met splits run run' pc stack older 31
  have group : Tbl.find (s.modGroup gid (Group.mergeRun 32)).groups gid = some { g with splits := [g.met p q] } := by
    rw [State.find_modGroup, if_pos rfl, found, Option.map_some, merged]
  have settled := State.settleParked_running group fun r hr => by rw [List.mem_singleton.mp hr]; exact run
  exact ⟨_, congrArg Host.Outcome.next settled, onlyGroup_modGroup .., by rw [State.group_of_find group]⟩

/-- Settles O48: the choice of a slot is a candidate that pays, each event is one equation above for the state it reaches, and the older
of two splits that have met is the one that stays. -/
theorem schedulerEvents : Obligations.SchedulerEvents := by
  unfold Obligations.SchedulerEvents
  refine ⟨slotTurn_served, gives_slotIssue, fun gid born g p s found split passed fresh => ?starve,
    fun d cl s early => congrArg Host.Outcome.next (if_neg (by rw [early]; decide)), fun d cl s => gives_clusterIdle,
    fun d s none_asks => ?noGrant, fun d s window full => ?full, fun d cl s => gives_admissionGrant, fun c s => ?scrub,
    fun gid g p q s found splits run run' pc stack older => ?merge⟩
  case starve =>
    obtain ⟨flagged, others⟩ := State.flagStarving_split found split passed fresh
    exact ⟨_, rfl, flagged, State.flagStarving_stamp found, others⟩
  case noGrant => exact congrArg Host.Outcome.next (by rw [State.grant, none_asks]; exact ite_self s)
  case full => exact congrArg Host.Outcome.next (if_pos (by rw [if_pos window]; exact full))
  case scrub =>
    refine ⟨_, rfl, onlyCore_modCore .., ?_⟩
    rw [State.modCore_core_self]
    split <;> rfl
  case merge =>
    obtain ⟨t, ran, only, splits'⟩ := gives_splitMerge found splits run run' pc stack older
    exact ⟨t, ran, only, _, splits', rfl, rfl, run, rfl, rfl, rfl, rfl⟩

end Sys2Proof.Safety
end

section
/-! SUPPORT. Residence (R117, R159): a launch that stands in its slice under another number than its own. The statement
DealAndResidence does not ask that a launch has the number under which it stands. -/

namespace Sys2Proof.Machine

/-- The kernel descriptor of a workgroup of one thread with 8 registers (R283). -/
def threadDesc : List Byte := zeros 0x18 ++ leBytes 2 1 ++ leBytes 2 1 ++ leBytes 2 1 ++ [8, 0]

/-- A workgroup of launch 1 of slice 0. -/
def firstWaiting : Waiting := { slice := 0, launch := 1 }

/-- Slice 0 with a launch of number 0 that stands under number 1, and a workgroup of it that waits on core 0. -/
def misnumbered : State :=
  (State.reset.boot.modSlice 0 (fun x => { x with launches := [(1, { id := 0, desc := threadDesc })] })).modCore 0
    (fun c => { c with waiting := [firstWaiting] })

theorem execWgResident_eq (c : Nat) (s : State) : exec (.wgResident c) s = .next (s.residentStep c) := rfl

theorem misnumbered_fits : misnumbered.waitFits 0 firstWaiting = true ∧ (misnumbered.core 0).testing = 0 := by decide +kernel

theorem misnumbered_groups : groupsOf (misnumbered.waitLaunch firstWaiting).desc = 1 := by decide +kernel

/-- The new group has the launch's own number. -/
theorem misnumbered_resident : (Tbl.find (misnumbered.residentStep 0).groups (misnumbered.nextGid + 0)).map (·.launch) = some 0 := by
  decide +kernel

end Sys2Proof.Machine

namespace Sys2Proof.Safety

open Machine

/-- Refutes O41: a group takes the number of its launch from the launch itself. Where the launch stands under another number
(misnumbered), the groups of a workgroup that becomes resident do not name the launch of that workgroup. -/
theorem not_dealAndResidence : ¬ Obligations.DealAndResidence := by
  unfold Obligations.DealAndResidence
  rintro ⟨-, -, residence, -⟩
  obtain ⟨fits, idle⟩ := misnumbered_fits
  obtain ⟨t, ran, groups, -⟩ := residence 0 firstWaiting misnumbered rfl (by decide) idle fits
  obtain ⟨g, p, found, -, launch, -⟩ := groups 0 (by rw [misnumbered_groups]; exact Nat.one_pos)
  rw [execWgResident_eq] at ran
  have own := misnumbered_resident
  rw [Host.Outcome.next.inj ran, found, Option.map_some, launch] at own
  exact absurd own (by decide)

end Sys2Proof.Safety
end

section
/-! SUPPORT. Rung 2 (R144, R185): a freeze takes a tile form back, which writes the scratchpad and so marks the operands of every
group that names the bytes, of whatever slice. The statement TimeSharing has groups of another slice stay as they are. -/

namespace Sys2Proof.Machine

/-- A group of slice 0 on core 0 with a store of class I2 that has not left its partition: a freeze drops it (R185). -/
def unsentStore : Group := { log := [{ cls := 2, cyc := 5 }] }

/-- A saved group of slice 1, whose matrix operation has the first byte of core 0's scratchpad among its operands. -/
def operandHolder : Group := { slice := 1, place := .saved, log := [{ rng := [(0, 0, 1)] }] }

/-- Slice 0 at rung 1 of a quiesce. Its group has a checkpoint of the store's cycle, and wrote the first byte of the scratchpad by a
tile form of that cycle. -/
def atGrace : State :=
  { State.reset with
    groups := [(0, unsentStore), (1, operandHolder)], slices := [(0, { st := .active, migBusy := true, migRung := 1 })],
    cores := [(0, { undo := [{ cyc := 5, spad := [(0, 7, 0)] }] })],
    dies := [(0, { cyc := 5, history := [{ cyc := 5, groups := [(0, {})] }] })],
    cycle := ({} : Slice).grace * 1000 }

theorem atGrace_due : (atGrace.groups.map (·.1)).Nodup ∧ (atGrace.slice 0).migBusy = true ∧ (atGrace.slice 0).migRung = 1 ∧
    (atGrace.slice 0).ladderAt + (atGrace.slice 0).grace * 1000 ≤ atGrace.cycle := by decide +kernel

theorem atGrace_expires : exec (.ladderGraceExpiry 0) atGrace = .next (atGrace.rung2 0) :=
  congrArg Host.Outcome.next (if_pos (by decide +kernel))

/-- The freeze of slice 0's group leaves the accumulator of slice 1's operation undefined (R225). -/
theorem atGrace_marks : ((atGrace.rung2 0).group 1).log = [{ rng := [(0, 0, 1)], undef := true }] := by decide +kernel

end Sys2Proof.Machine

namespace Sys2Proof.Safety

open Machine

/-- Refutes O49: rung 2 leaves a group of another slice as it was only where no freeze takes a tile form back. In atGrace the freeze of
slice 0's group drops a store that has not left, undoes the byte that a tile form has written since, and so marks the matrix
operation of slice 1's saved group. -/
theorem not_timeSharing : ¬ Obligations.TimeSharing := by
  unfold Obligations.TimeSharing
  rintro ⟨-, -, -, -, -, -, -, -, -, grace, -⟩
  obtain ⟨nodup, busy, rung, due⟩ := atGrace_due
  obtain ⟨t, ran, -, -, -, others, -⟩ := grace 0 atGrace nodup busy rung due
  have stays := others 1 operandHolder rfl (by decide)
  rw [← Host.Outcome.next.inj (atGrace_expires.symm.trans ran)] at stays
  have marked := atGrace_marks
  rw [State.group_of_find stays] at marked
  exact absurd marked (by decide)

end Sys2Proof.Safety
end

section
/-! SUPPORT. What the deal of work afresh and the move of work between slices leave of every slice (R153 to R156, R404): all but its
work, its clusters, its counters, its rings, EFLOOR and a mark of poison consumed. -/

namespace Sys2Proof.Machine

/-- A slice but for what a deal afresh or a move of work changes of it. -/
def Slice.standing (x : Slice) : Slice :=
  { x.settings with
    clusters := [], launches := [], nextLaunch := 0, ctxs := [], queues := [], pending := [], nextPkt := 0, consumed := none }

/-- The standing of every slice. -/
def State.standing (s : State) : Nat → Slice := fun t => (s.slice t).standing

namespace State

theorem standing_of_slices {s t : State} (h : t.slices = s.slices) : t.standing = s.standing :=
  congrArg (fun (l : Tbl Slice) k => (Tbl.get l {} k).standing) h

theorem standing_of_placing {s t : State} (h : t.placing = s.placing) : t.standing = s.standing :=
  congrArg (fun (p : Tbl Group × Tbl Stack × (Nat → Slice)) k => (p.2.2 k).standing) h

theorem standing_ite {c : Prop} [Decidable c] {s t u : State} (ht : t.standing = s.standing) (hu : u.standing = s.standing) :
    (if c then t else u).standing = s.standing := by
  split <;> assumption

variable (s : State)

theorem standing_modSlice {f : Slice → Slice} (t : Nat) (h : ∀ x, (f x).standing = x.standing) :
    (s.modSlice t f).standing = s.standing := by
  funext u
  unfold State.standing
  rw [modSlice_slice]
  split
  · next same => rw [h, same]
  · rfl

/-! ## Bytes that an engine writes -/

theorem standing_publishBytes (a : Nat) (l : List Byte) : (s.publishBytes a l).standing = s.standing := standing_ite rfl rfl

theorem standing_of_engineBytes {s u : State} {t die va : Nat} {l : List Byte} (h : s.engineBytes t die va l = some u) :
    u.standing = s.standing := by
  induction l generalizing s va with
  | nil => cases h; rfl
  | cons b l ih =>
    unfold State.engineBytes at h
    split at h
    · cases h
    · split at h
      · exact (ih h).trans (standing_publishBytes ..)
      · split at h
        · exact (ih h).trans rfl
        · cases h

theorem standing_writeMarks (t : Nat) (as : List Nat) : (s.writeMarks t as).standing = s.standing := by
  unfold State.writeMarks
  dsimp only
  split
  · exact standing_modSlice _ _ fun _ => rfl
  · exact standing_modSlice _ _ fun _ => rfl
  · rfl

/-- A write that may fail, with what is done then. -/
theorem standing_engineWrite_getD {s v : State} (t die va : Nat) (l : List Byte) (h : v.standing = s.standing) :
    ((s.engineWrite t die va l).getD v).standing = s.standing := by
  cases written : s.engineWrite t die va l with
  | none => exact h
  | some u =>
    obtain ⟨w, bytes, rfl⟩ := Option.map_eq_some_iff.mp written
    have same := standing_of_engineBytes bytes
    exact standing_ite same ((standing_writeMarks ..).trans same)

/-! ## The deal afresh (R115, R153, R154) -/

theorem standing_placeWg (t : Nat) (w : WgRes) : (s.placeWg t w).standing = s.standing := rfl

theorem standing_placeWaiting (t : Nat) (w : Waiting) : (s.placeWaiting t w).standing = s.standing := by
  unfold State.placeWaiting
  split <;> rfl

theorem standing_putCopy (t : Nat) (p : Nat × Nat) (j : CopyJob) : (s.putCopy t p j).standing = s.standing := rfl
theorem standing_putColl (t d : Nat) (j : CollJob) : (s.putColl t d j).standing = s.standing := rfl
theorem standing_putBin (t d : Nat) (b : Bin) : (s.putBin t d b).standing = s.standing := rfl
theorem standing_clearDies (t : Nat) : (s.clearDies t).standing = s.standing := rfl

theorem standing_moveEngines (t : Nat) (old : List Nat) : (s.moveEngines t old).standing = s.standing := by
  unfold State.moveEngines
  extract_lets cleared copies colls bins
  have copied : copies.standing = cleared.standing := foldl_keeps standing (by exact fun _ _ => standing_putCopy ..) ..
  have collected : colls.standing = copies.standing := foldl_keeps standing (by exact fun _ _ => standing_putColl ..) ..
  have binned : bins.standing = colls.standing := foldl_keeps standing (by exact fun _ _ => standing_putBin ..) ..
  refine Eq.trans ?_ (binned.trans (collected.trans (copied.trans (s.standing_clearDies t))))
  exact standing_modSlice _ _ fun _ => rfl

theorem standing_redeal (t : Nat) (wgs : List WgRes) (waiting : List Waiting) (old : List Nat) :
    (s.redeal t wgs waiting old).standing = s.standing :=
  (standing_moveEngines ..).trans ((foldl_keeps standing (fun u w => u.standing_placeWaiting t w) ..).trans
    ((foldl_keeps standing (fun u w => u.standing_placeWg t w) ..).trans (standing_modSlice _ _ fun _ => rfl)))

theorem standing_strip (t : Nat) : (s.strip t).standing = s.standing := rfl

theorem standing_scrubCore (c owner : Nat) : (s.scrubCore c owner).standing = s.standing :=
  standing_of_placing (placing_scrubCore ..)

/-- A slice takes the clusters of its deckle: its own work and the cores change, and no slice besides (R114, R154, R160). -/
theorem standing_recast (t : Nat) (old : List Nat) : (s.recast t old).standing = s.standing := by
  refine (standing_redeal ..).trans ((standing_of_placing (placing_setEfloor ..)).trans
    ((foldl_keeps standing (fun u c => standing_ite rfl (u.standing_scrubCore c t)) ..).trans
      ((foldl_keeps standing (fun u c => u.standing_scrubCore c 31) ..).trans
        ((standing_of_placing (placing_fuseFailed ..)).trans (standing_modSlice _ _ fun _ => rfl)))))

/-! ## The move of work (R155, R156, R404) -/

theorem standing_setOwner (f o : Nat) : (s.setOwner f o).standing = s.standing := rfl

theorem standing_dropTlb (t : Nat) : (s.dropTlb t).standing = s.standing := rfl

theorem standing_moveWork (u t : Nat) (cm qm : List (Nat × Nat)) : (s.moveWork u t cm qm).standing = s.standing := by
  unfold State.moveWork
  extract_lets x off pk f mine ids gids job framed renamed windowed moved taken
  have frames : framed.standing = s.standing := foldl_keeps standing (fun v e => ?frame) ..
  case frame =>
    split
    · exact (standing_engineWrite_getD _ _ _ _ rfl).trans (standing_engineWrite_getD _ _ _ _ rfl)
    · rfl
  have names : windowed.standing = framed.standing := standing_of_slices rfl
  have takes : taken.standing = windowed.standing := standing_modSlice _ _ fun _ => rfl
  refine Eq.trans ?_ (takes.trans (names.trans frames))
  exact standing_modSlice _ _ fun _ => rfl

end State
end Sys2Proof.Machine
end

section
/-! SUPPORT. Migration (R147 to R156): what each operation answers and does to its slice, under the check that decides it, and the
statement MigrationOperations. -/

namespace Sys2Proof.Machine

namespace Slice

/-! ## What the operations make of a slice -/

/-- QUIESCED, and no kill takes the slice down (R147). -/
def stands (x : Slice) : Prop := x.st = .active ∧ x.quiesced = true ∧ x.killing = false

theorem stands_iff (x : Slice) : x.stands ↔ (x.st == .active && x.quiesced && !x.killing) = true := by
  simp [stands, and_assoc]

theorem not_stands_iff (x : Slice) : ¬ x.stands ↔ (x.st != .active || !x.quiesced || x.killing) = true := by
  simp [stands, or_iff_not_imp_left]

theorem not_stands_of {x : Slice} (h : x.st ≠ .active ∨ x.quiesced = false ∨ x.killing = true) : ¬ x.stands := by
  rintro ⟨st, quiesced, alive⟩
  simp [st, quiesced, alive] at h

/-- CONFIG, ACTIVATE under way or not (R59). -/
def configures (x : Slice) : Prop := x.st = .config ∨ x.st = .activating

/-- Out of QUIESCED (R148). -/
def resumed (x : Slice) : Slice := { x with quiesced := false, engStop := false, wasDies := none, stale := false }

/-- The deckle as it is now counts (R154). -/
def reshaped (x : Slice) : Slice := { x with err := 0, wasDies := none }

/-- A ream of n bytes under a key has been written (R149, R150). -/
def exported (x : Slice) (key n : Nat) : Slice :=
  { x with exportKey := some key, exportLen := n, stale := false, migSize := (n + 65535) / 65536 }

/-- A ream of n bytes has been read (R150, R153). -/
def imported (x : Slice) (n : Nat) : Slice :=
  { x with exportKey := none, exportLen := 0, importKey := none, migSize := (n + 65535) / 65536 }

/-- The slice that a merge leaves empty (R155). -/
def freed (x : Slice) : Slice :=
  { x with
    st := .free, key := 0, tdi := .configUnlocked, mergeOk := 0, clusters := [], quiesced := false, engStop := false,
    migRung := 0, exportKey := none, exportLen := 0, importKey := none, stale := false, wasDies := none, session := false,
    queues := [], pending := [], launches := [], ctxs := [], tokens := [] }

/-- The slice that a merge fills (R155, R403). -/
def merged (x : Slice) : Slice := { x with mergeOk := 0, exportKey := none, exportLen := 0, stale := true, wasDies := none }

/-- The slice that a split takes resources from (R156, R403). -/
def parted (y x : Slice) : Slice := { without x y with exportKey := none, exportLen := 0, stale := true }

/-- The slice that a split makes (R156). -/
def taken (x : Slice) : Slice := { x with st := .active, quiesced := true, engStop := true, err := 0 }

end Slice

namespace State

theorem migEnd_slice (s : State) (k r : Nat) : (s.migEnd_ k r).slice k = { s.slice k with migRes := r } := modSlice_slice_self ..

theorem migEnd_slice_ne (s : State) {k u : Nat} (r : Nat) (ne : k ≠ u) : (s.migEnd_ k r).slice u = s.slice u :=
  (modSlice_slice ..).trans (if_neg ne)

theorem goActive_slice (s : State) (k u : Nat) :
    (s.goActive k).slice u = if k = u then (s.slice k).resumed else s.slice u :=
  s.modSlice_slice k u Slice.resumed

theorem quiesced_of_standing {s t : State} (h : t.standing = s.standing) (k : Nat) :
    (t.slice k).quiesced = (s.slice k).quiesced := (congrArg Slice.quiesced (congrFun h k) :)

/-- NO_FIT with the code of R59 in DCTL.ERR. -/
def unfit (s : State) (k : Nat) : State := (s.modSlice k (fun x => { x with err := s.activateErr k })).migEnd_ k 3

/-- The ream that an EXPORT of a slice writes (R149, R151). -/
def reamOf (s : State) (k : Nat) : Ream := { key := s.m.keys, iv := s.m.ivs, plain := (s.snapshot k).plain, snap := s.snapshot k }

/-- A ream stands at an address; its key and its initialization vector are used up (R149). -/
def withReam (s : State) (a : Nat) (r : Ream) : State :=
  (s.setMem a r.bytes).modM (fun m => { m with keys := m.keys + 1, ivs := m.ivs + 1, reams := m.reams ++ [r] })

theorem memByte_withReam (s : State) (a b : Nat) (r : Ream) :
    (s.withReam a r).memByte b = if a ≤ b ∧ b < a + r.bytes.length then r.bytes.getD (b - a) 0 else s.memByte b := by
  rw [withReam, modM_memByte, memByte_setMem]

theorem withReam_groups (s : State) (a : Nat) (r : Ream) : (s.withReam a r).groups = s.groups := rfl
theorem withReam_hostMem (s : State) (a : Nat) (r : Ream) : (s.withReam a r).hostMem = s.hostMem := rfl
theorem withReam_reams (s : State) (a : Nat) (r : Ream) : (s.withReam a r).m.reams = s.m.reams ++ [r] := rfl

section
variable {s : State} {k u : Nat}

theorem reDeckle_unfit (err : s.activateErr k ≠ 0) : s.reDeckle k = .error (s.unfit k) := if_pos err

theorem reDeckle_fits (fits : s.activateErr k = 0) :
    s.reDeckle k = .ok ((s.recast k (s.slice k).oldDies).modSlice k Slice.reshaped) := if_neg (not_not.mpr fits)

variable (idle : (s.slice k).migBusy = false)
include idle

theorem not_busy : ¬ (s.slice k).migBusy = true := by rw [idle]; decide

/-! ## RESUME (R148) -/

theorem resume_refused (no : ¬ (s.slice k).stands ∨ (s.slice k).exportKey ≠ none) : s.resume k = s.migEnd_ k 1 := by
  refine (if_neg (not_busy idle)).trans (if_pos (Bool.or_eq_true_iff.mpr (no.imp (Slice.not_stands_iff _).mp fun key => ?_)))
  exact Option.isSome_iff_ne_none.mpr key

theorem resume_opens (stands : (s.slice k).stands) (key : (s.slice k).exportKey = none) :
    ((s.slice k).wasDies = none → s.resume k = (s.goActive k).migEnd_ k 0) ∧
    ((s.slice k).wasDies ≠ none → s.activateErr k ≠ 0 → s.resume k = s.unfit k) ∧
    ((s.slice k).wasDies ≠ none → s.activateErr k = 0 →
      ∃ v : State, s.resume k = ((v.modSlice k Slice.reshaped).goActive k).migEnd_ k 0) := by
  have run : s.resume k = _ := (if_neg (not_busy idle)).trans (if_neg (mt Bool.or_eq_true_iff.mp ?allowed))
  case allowed =>
    rintro (no | given)
    · exact (Slice.not_stands_iff _).mpr no stands
    · rw [key] at given; cases given
  refine ⟨fun same => run.trans (if_pos (Option.isNone_iff_eq_none.mpr same)), fun changed err => ?_, fun changed fits => ?_⟩
  · rw [run, if_neg (mt Option.isNone_iff_eq_none.mp changed), reDeckle_unfit err]
  · rw [run, if_neg (mt Option.isNone_iff_eq_none.mp changed), reDeckle_fits fits]
    exact ⟨_, rfl⟩

/-! ## RESHAPE and EXPORT (R149, R154) -/

theorem reshape_refused (no : ¬ (s.slice k).stands) : s.reshape_ k = s.migEnd_ k 1 :=
  (if_neg (not_busy idle)).trans (if_pos ((Slice.not_stands_iff _).mp no))

theorem reshape_opens (stands : (s.slice k).stands) :
    (s.activateErr k ≠ 0 → s.reshape_ k = s.unfit k) ∧
    (s.activateErr k = 0 → s.reshape_ k = ((s.recast k (s.slice k).oldDies).modSlice k Slice.reshaped).migEnd_ k 0) := by
  have run : s.reshape_ k = _ := (if_neg (not_busy idle)).trans (if_neg fun no => (Slice.not_stands_iff _).mpr no stands)
  refine ⟨fun err => ?_, fun fits => ?_⟩
  · rw [run, reDeckle_unfit err]
  · rw [run, reDeckle_fits fits]

theorem export_refused (no : ¬ (s.slice k).stands) : s.export_ k = s.migEnd_ k 1 :=
  (if_neg (not_busy idle)).trans (if_pos ((Slice.not_stands_iff _).mp no))

theorem export_opens (stands : (s.slice k).stands) :
    (s.pfRoom (s.slice k).migAddr.toNat (s.reamOf k).length = false → s.export_ k = s.migEnd_ k 5) ∧
    (s.pfRoom (s.slice k).migAddr.toNat (s.reamOf k).length = true → s.export_ k =
      ((s.withReam (s.slice k).migAddr.toNat (s.reamOf k)).modSlice k
        (fun x => x.exported (Config.drawnKey (s.reamOf k).key).toNat (s.reamOf k).length)).migEnd_ k 0) := by
  have run : s.export_ k = _ := (if_neg (not_busy idle)).trans (if_neg fun no => (Slice.not_stands_iff _).mpr no stands)
  refine ⟨fun full => run.trans (if_pos ?_), fun room => run.trans (if_neg ?_)⟩
  · show (!s.pfRoom (s.slice k).migAddr.toNat (s.reamOf k).length) = true
    rw [full]; rfl
  · show ¬ (!s.pfRoom (s.slice k).migAddr.toNat (s.reamOf k).length) = true
    rw [room]; decide

/-! ## IMPORT (R153) -/

theorem import_refused (no : (s.slice k).importKey = none ∨ (s.slice k).st = .free) : s.import_ k = s.migEnd_ k 1 := by
  refine (if_neg (not_busy idle)).trans (if_pos ?_)
  rcases no with key | st
  · rw [key, Option.isNone_none, Bool.or_true]
  · rw [st]; rfl

theorem import_opens {key : Nat} (configures : (s.slice k).configures) (alive : (s.slice k).killing = false)
    (given : (s.slice k).importKey = some key) :
    (s.reamAt (s.slice k).migAddr.toNat key = none → s.import_ k = s.migEnd_ k 2) ∧
    ∀ r, s.reamAt (s.slice k).migAddr.toNat key = some r →
      (s.activateErr k ≠ 0 → s.import_ k = s.unfit k) ∧
      (s.activateErr k = 0 → r.1.fits = false → s.import_ k = s.migEnd_ k 3) ∧
      (s.activateErr k = 0 → r.1.fits = true →
        ∃ v : State, s.import_ k = ((v.modSlice k (fun x => x.imported r.2)).goActive k).migEnd_ k 0) := by
  have run : s.import_ k = _ := (if_neg (not_busy idle)).trans (if_neg ?allowed)
  case allowed =>
    rw [alive, given]
    rcases configures with st | st <;> rw [st] <;> simp
  rw [given, Option.getD_some] at run
  refine ⟨fun absent => ?_, fun r ream => ⟨fun err => ?_, fun fits bad => ?_, fun fits good => ?_⟩⟩
  · rw [run, absent]
  · rw [run, ream]
    exact if_pos err
  · rw [run, ream]
    exact (if_neg (not_not.mpr fits)).trans (if_pos (by rw [bad]; rfl))
  · rw [run, ream]
    refine ⟨_, (if_neg (not_not.mpr fits)).trans (if_neg ?_)⟩
    rw [good]; decide

/-! ## MERGE (R155) -/

theorem merge_refused (no : ¬ (s.slice k).stands ∨ ¬ (s.slice u).stands) : s.merge_ k u = s.migEnd_ k 1 := by
  refine (if_neg (not_busy idle)).trans (if_pos ?_)
  rw [Slice.stands_iff, Slice.stands_iff] at no
  rcases no with no | no <;> simp [no]

section
variable (ne : k ≠ u) (hu : u < 16) (stands : (s.slice k).stands)
include ne hu stands

theorem merge_opens (other : (s.slice u).stands) :
    ((s.consents k u = false ∨ s.consents u k = false) → s.merge_ k u = s.migEnd_ k 4) ∧
    (s.consents k u = true → s.consents u k = true →
      (s.mergeUnfit k u = true → s.merge_ k u = s.migEnd_ k 3) ∧
      (s.mergeUnfit k u = false → ∃ v w : State, w.standing = (v.modSlice u Slice.freed).standing ∧
        s.merge_ k u = (w.modSlice k Slice.merged).migEnd_ k 0)) := by
  have run : s.merge_ k u = _ := (if_neg (not_busy idle)).trans (if_neg ?allowed)
  case allowed =>
    rw [(Slice.stands_iff _).mp stands, (Slice.stands_iff _).mp other, decide_eq_false ne, decide_eq_false (Nat.not_le.mpr hu)]
    decide
  refine ⟨fun no => run.trans (if_pos ?_), fun mine yours => ⟨fun bad => ?_, fun good => ?_⟩⟩
  · rcases no with no | no <;> simp [no]
  · rw [run, mine, yours]
    exact (if_neg (by decide)).trans (if_pos bad)
  · rw [mine, yours] at run
    exact ⟨_, _, standing_recast .., run.trans ((if_neg (by decide)).trans (if_neg (by rw [good]; decide)))⟩

end

/-! ## SPLIT (R156) -/

theorem split_refused (no : ¬ (s.slice k).stands) : s.split_ k u = s.migEnd_ k 1 := by
  refine (if_neg (not_busy idle)).trans (if_pos ?_)
  rw [Slice.stands_iff] at no
  simp [no]

/-- A split that lists no queue and no frame. -/
theorem split_opens (ne : k ≠ u) (hu : u < 16) (stands : (s.slice k).stands) (configures : (s.slice u).configures)
    (inside : within (s.slice u) (s.slice k) = true) (rest : (without (s.slice k) (s.slice u)).sound = true)
    (sound : (s.slice u).sound = true) (helm : (s.others u).any (fun z => z.helm == (s.slice u).helm) = false)
    (list : s.splitList (s.slice k).migAddr.toNat = ([], [])) :
    (s.consents k u = false → s.split_ k u = s.migEnd_ k 4) ∧
    (s.consents k u = true → ∃ v w z : State, v.standing = s.standing ∧
      w.standing = (v.modSlice k (Slice.parted (s.slice u))).standing ∧ z.standing = (w.modSlice u Slice.taken).standing ∧
      s.split_ k u = z.migEnd_ k 0) := by
  have run : s.split_ k u = _ := (if_neg (not_busy idle)).trans (if_neg ?allowed)
  case allowed =>
    have st : ((s.slice u).st == .config || (s.slice u).st == .activating) = true := by
      rcases configures with st | st <;> rw [st] <;> decide
    simp [(Slice.stands_iff _).mp stands, st, ne, hu, inside, rest, sound, helm, list]
  refine ⟨fun no => run.trans (if_pos ?refused), fun yes => ⟨_, _, _, ?moved, (standing_recast ..).trans (standing_strip ..),
    (standing_redeal ..).trans (standing_recast ..), run.trans (if_neg (by rw [yes]; decide))⟩⟩
  case refused => rw [no]; rfl
  case moved =>
    exact (standing_dropTlb ..).trans ((foldl_keeps standing (fun v f => v.standing_setOwner f u) ..).trans (standing_moveWork ..))

end
end State
end Sys2Proof.Machine

namespace Sys2Proof.Safety

open Machine

/-! ## What an operation gives -/

section
variable {i : Instr} {s u : State} {k : Nat} (hr : s.m.recovery = false) (run : exec i s = .next (s.bar0 u))
include hr run

/-- An operation that answers its RES and does nothing else. -/
theorem gives_migRes {r : Nat} (h : u = s.migEnd_ k r) :
    Gives i s (fun t => t.slice k = { s.slice k with migRes := r } ∧ OnlySlice k s t) :=
  gives_bar0 hr run h ⟨s.migEnd_slice k r, onlySlice_modSlice ..⟩

/-- An operation that finds its deckle unfit (R59). -/
theorem gives_unfit (h : u = s.unfit k) :
    Gives i s (fun t => t.slice k = { s.slice k with err := s.activateErr k, migRes := 3 } ∧ OnlySlice k s t) := by
  refine gives_bar0 hr run h ⟨?_, rfl, fun e other => ?_⟩
  · rw [State.unfit, State.migEnd_slice, State.modSlice_slice_self]
  · exact (State.migEnd_slice_ne _ 3 (Ne.symm other)).trans ((onlySlice_modSlice ..).others e other)

end

/-- Every operation of MIGCMD but QUIESCE answers INPROG while another is under way (R147). -/
theorem exec_migration_busy {k u : Nat} {i : Instr} (h : i = .migResume k ∨ i = .reshape k ∨ i = .exportReam k ∨ i = .importReam k ∨
    i = .mergeSlices k u ∨ i = .splitSlice k u) (s : State) :
    ∃ t, exec i s = .next (s.bar0 t) ∧ ((s.slice k).migBusy = true → t = s.migEnd_ k 7) := by
  rcases h with rfl | rfl | rfl | rfl | rfl | rfl <;> exact ⟨_, rfl, fun busy => if_pos busy⟩

/-- Every one but IMPORT answers BAD_STATE outside QUIESCED (R148 to R156). -/
theorem exec_migration_refused {k u : Nat} {i : Instr} (h : i = .migResume k ∨ i = .reshape k ∨ i = .exportReam k ∨
    i = .mergeSlices k u ∨ i = .splitSlice k u) {s : State} (idle : (s.slice k).migBusy = false) (no : ¬ (s.slice k).stands) :
    exec i s = .next (s.bar0 (s.migEnd_ k 1)) := by
  rcases h with rfl | rfl | rfl | rfl | rfl
  · rw [← State.resume_refused idle (.inl no)]; rfl
  · rw [← State.reshape_refused idle no]; rfl
  · rw [← State.export_refused idle no]; rfl
  · rw [← State.merge_refused (u := u) idle (.inl no)]; rfl
  · rw [← State.split_refused (u := u) idle no]; rfl

section
variable {k : Nat} {s : State} (hr : s.m.recovery = false) (idle : (s.slice k).migBusy = false)
include hr idle

section
variable (stands : (s.slice k).stands)
include stands

/-- A slice with its deckle as it was goes on (R148). -/
theorem gives_resumed (key : (s.slice k).exportKey = none) (same : (s.slice k).wasDies = none) : Gives (.migResume k) s (fun t =>
    t.slice k = { (s.slice k).resumed with migRes := 0 } ∧ (∀ e, e ≠ k → t.slice e = s.slice e) ∧
    (∀ h g, Tbl.find s.groups h = some g → Tbl.find t.groups h = some
      (if g.slice = k ∧ g.place = .saved ∧ g.dbgHeld = false then { g with wants := true } else g)) ∧
    t.mem = s.mem ∧ t.cores = s.cores) := by
  obtain ⟨goes, -, -⟩ := State.resume_opens idle stands key
  refine gives_bar0 hr rfl (goes same) ⟨?_, fun e other => ?_, fun h g found => ?_, rfl, rfl⟩
  · rw [State.migEnd_slice, State.goActive_slice, if_pos rfl]
  · rw [State.migEnd_slice_ne _ 0 (Ne.symm other), State.goActive_slice, if_neg (Ne.symm other)]
  · refine (Tbl.find_map _ s.groups h).trans ?_
    rw [found, Option.map_some]
    simp only [Bool.and_eq_true, beq_iff_eq, Bool.not_eq_true', and_assoc]

/-- A slice whose deckle has changed is dealt afresh and goes on (R148, log 24). -/
theorem gives_resumed_recast (key : (s.slice k).exportKey = none) (changed : (s.slice k).wasDies ≠ none)
    (fits : s.activateErr k = 0) : Gives (.migResume k) s (fun t => (t.slice k).migRes = 0 ∧ (t.slice k).err = 0 ∧
      (t.slice k).quiesced = false ∧ (t.slice k).wasDies = none) := by
  obtain ⟨-, -, recast⟩ := State.resume_opens idle stands key
  obtain ⟨v, run⟩ := recast changed fits
  refine gives_bar0 hr rfl run ?_
  rw [State.migEnd_slice, State.goActive_slice, if_pos rfl, State.modSlice_slice_self]
  exact ⟨rfl, rfl, rfl, rfl⟩

theorem gives_reshaped (fits : s.activateErr k = 0) : Gives (.reshape k) s (fun t => (t.slice k).migRes = 0 ∧
    (t.slice k).err = 0 ∧ (t.slice k).wasDies = none ∧ (t.slice k).quiesced = true) := by
  obtain ⟨-, reshapes⟩ := State.reshape_opens idle stands
  obtain ⟨-, quiesced, -⟩ := stands
  refine gives_bar0 hr rfl (reshapes fits) ?_
  rw [State.migEnd_slice, State.modSlice_slice_self]
  exact ⟨rfl, rfl, rfl, (State.quiesced_of_standing (s.standing_recast ..) k).trans quiesced⟩

/-- The ream stands in memory at MIGADDR, and its key is the slice's (R149). -/
theorem gives_exported (room : s.pfRoom (s.slice k).migAddr.toNat (s.reamOf k).length = true) : Gives (.exportReam k) s (fun t =>
    (∀ b, t.memByte b = if (s.slice k).migAddr.toNat ≤ b ∧ b < (s.slice k).migAddr.toNat + (s.reamOf k).bytes.length then
      (s.reamOf k).bytes.getD (b - (s.slice k).migAddr.toNat) 0 else s.memByte b) ∧
    (t.slice k).exportKey = some (Config.drawnKey (s.reamOf k).key).toNat ∧ (t.slice k).exportLen = (s.reamOf k).length ∧
    (t.slice k).migRes = 0 ∧ t.m.reams = s.m.reams ++ [s.reamOf k] ∧ t.groups = s.groups ∧ t.hostMem = s.hostMem) := by
  obtain ⟨-, writes⟩ := State.export_opens idle stands
  refine gives_bar0 hr rfl (writes room) ?_
  rw [State.migEnd_slice, State.modSlice_slice_self]
  simp only [State.migEnd_, State.modSlice_memByte, State.modSlice_m, State.modSlice_groups, State.modSlice_hostMem,
    State.memByte_withReam, State.withReam_reams, State.withReam_groups, State.withReam_hostMem, Slice.exported, implies_true,
    and_self]

end

theorem gives_imported {key : Nat} {r : Snapshot × Nat} (configures : (s.slice k).configures) (alive : (s.slice k).killing = false)
    (given : (s.slice k).importKey = some key) (ream : s.reamAt (s.slice k).migAddr.toNat key = some r)
    (fits : s.activateErr k = 0) (good : r.1.fits = true) : Gives (.importReam k) s (fun t => (t.slice k).migRes = 0 ∧
      (t.slice k).quiesced = false ∧ (t.slice k).engStop = false ∧ (t.slice k).importKey = none ∧
      (t.slice k).migSize = (r.2 + 65535) / 65536) := by
  obtain ⟨-, opened⟩ := State.import_opens idle configures alive given
  obtain ⟨-, -, loads⟩ := opened r ream
  obtain ⟨v, run⟩ := loads fits good
  refine gives_bar0 hr rfl run ?_
  rw [State.migEnd_slice, State.goActive_slice, if_pos rfl, State.modSlice_slice_self]
  exact ⟨rfl, rfl, rfl, rfl, rfl⟩

end

section
variable {k u : Nat} {s : State} (hr : s.m.recovery = false) (ne : k ≠ u)
include hr ne

/-- The slice that is merged is left free: neither the deal afresh nor the end of the operation gives it anything back. -/
theorem gives_merged {v w : State} (freed : w.standing = (v.modSlice u Slice.freed).standing)
    (run : s.merge_ k u = (w.modSlice k Slice.merged).migEnd_ k 0) : Gives (.mergeSlices k u) s (fun t =>
      (t.slice k).migRes = 0 ∧ (t.slice k).exportKey = none ∧ (t.slice k).mergeOk = 0 ∧ (t.slice u).st = .free ∧
      (t.slice u).key = 0) := by
  have other : (w.slice u).standing = (v.slice u).freed.standing := by
    rw [← State.modSlice_slice_self v u Slice.freed]; exact congrFun freed u
  refine gives_bar0 hr rfl run ?_
  rw [State.migEnd_slice, State.migEnd_slice_ne _ 0 ne, State.modSlice_slice_self, State.modSlice_slice, if_neg ne]
  exact ⟨rfl, rfl, rfl, (congrArg Slice.st other :), (congrArg Slice.key other :)⟩

/-- The slice that a split makes stands quiesced beside the one it came from. -/
theorem gives_split {v w z : State} (moved : v.standing = s.standing)
    (parted : w.standing = (v.modSlice k (Slice.parted (s.slice u))).standing)
    (taken : z.standing = (w.modSlice u Slice.taken).standing) (run : s.split_ k u = z.migEnd_ k 0) :
    Gives (.splitSlice k u) s (fun t => (t.slice k).migRes = 0 ∧ (t.slice k).exportKey = none ∧
      (t.slice k).mergeOk = (s.slice k).mergeOk ∧ (t.slice u).st = .active ∧ (t.slice u).quiesced = true) := by
  have mine : (z.slice k).standing = (w.slice k).standing := by
    rw [← (onlySlice_modSlice w u Slice.taken).others k ne]; exact congrFun taken k
  have other : (z.slice u).standing = (w.slice u).taken.standing := by
    rw [← State.modSlice_slice_self w u Slice.taken]; exact congrFun taken u
  have left : (w.slice k).standing = (Slice.parted (s.slice u) (v.slice k)).standing := by
    rw [← State.modSlice_slice_self v k (Slice.parted _)]; exact congrFun parted k
  have kept : (v.slice k).mergeOk = (s.slice k).mergeOk := (congrArg Slice.mergeOk (congrFun moved k) :)
  refine gives_bar0 hr rfl run ?_
  rw [State.migEnd_slice, State.migEnd_slice_ne _ 0 ne]
  exact ⟨rfl, (congrArg Slice.exportKey (mine.trans left) :), (congrArg Slice.mergeOk (mine.trans left) :).trans kept,
    (congrArg Slice.st other :), (congrArg Slice.quiesced other :)⟩

end

/-- Settles O50: each operation is one equation above for each answer of its checks; a deal afresh and a move of work keep all of a
slice that the statement speaks of. -/
theorem migrationOperations : Obligations.MigrationOperations := by
  refine ⟨fun k u i s op => ?busy, fun k u i s op hr idle no => ?refused, fun k s hr idle st quiesced alive => ?resume,
    fun k s hr idle st quiesced alive => ?reshape, fun k s hr idle no => ?importRefused,
    fun k key s hr idle configures alive given => ?importOpened, fun k u s hr idle ne _ hu _ _ _ no => ?mergeRefused,
    fun k u s hr idle ne _ hu st quiesced alive st' quiesced' alive' => ?merge,
    fun k u s hr idle ne _ hu st quiesced alive configures inside rest sound helm list => ?split⟩
  case busy =>
    obtain ⟨t, run, busy⟩ := exec_migration_busy op s
    refine ⟨fun recovery => ?_, fun hr at_work => gives_migRes hr run (busy at_work)⟩
    exact run.trans (congrArg Host.Outcome.next (if_pos recovery))
  case refused => exact gives_migRes hr (exec_migration_refused op idle (Slice.not_stands_of no)) rfl
  case resume =>
    have stands : (s.slice k).stands := ⟨st, quiesced, alive⟩
    refine ⟨fun key => ?_, fun key changed err => ?_, gives_resumed_recast hr idle stands, gives_resumed hr idle stands⟩
    · exact gives_migRes hr rfl (State.resume_refused idle (.inr key))
    · obtain ⟨-, unfit, -⟩ := State.resume_opens idle stands key
      exact gives_unfit hr rfl (unfit changed err)
  case reshape =>
    have stands : (s.slice k).stands := ⟨st, quiesced, alive⟩
    obtain ⟨unfit, -⟩ := State.reshape_opens idle stands
    obtain ⟨noRoom, -⟩ := State.export_opens idle stands
    exact ⟨fun err => gives_unfit hr rfl (unfit err), gives_reshaped hr idle stands,
      fun full => gives_migRes hr rfl (noRoom full), gives_exported hr idle stands⟩
  case importRefused => exact gives_migRes hr rfl (State.import_refused idle no)
  case importOpened =>
    obtain ⟨absent, opened⟩ := State.import_opens idle configures alive given
    refine ⟨fun no => gives_migRes hr rfl (absent no), fun r ream err => ?_, fun r ream fits bad => ?_,
      fun r ream => gives_imported hr idle configures alive given ream⟩
    · obtain ⟨unfit, -, -⟩ := opened r ream
      exact gives_unfit hr rfl (unfit err)
    · obtain ⟨-, misfit, -⟩ := opened r ream
      exact gives_migRes hr rfl (misfit fits bad)
  case mergeRefused => exact gives_migRes hr rfl (State.merge_refused idle (.inr (Slice.not_stands_of no)))
  case merge =>
    obtain ⟨no, consent⟩ := State.merge_opens idle ne hu ⟨st, quiesced, alive⟩ ⟨st', quiesced', alive'⟩
    refine ⟨fun missing => gives_migRes hr rfl (no missing), fun mine yours bad => ?_, fun mine yours good => ?_⟩
    · obtain ⟨unfit, -⟩ := consent mine yours
      exact gives_migRes hr rfl (unfit bad)
    · obtain ⟨-, merges⟩ := consent mine yours
      obtain ⟨v, w, freed, run⟩ := merges good
      exact gives_merged hr ne freed run
  case split =>
    obtain ⟨no, yes⟩ := State.split_opens idle ne hu ⟨st, quiesced, alive⟩ configures inside rest sound helm list
    refine ⟨fun missing => gives_migRes hr rfl (no missing), fun consent => ?_⟩
    obtain ⟨v, w, z, moved, parted, taken, run⟩ := yes consent
    exact gives_split hr ne moved parted taken run

end Sys2Proof.Safety
end

section
/-! SUPPORT. The issuing group after an issue (R162, R379): what a change of it leaves of the rest of the machine, the division of a
split, and the statement Branches. -/

namespace Sys2Proof.Machine

/-! ## Division (R162) -/

theorem length_modSplits (l : List Split) (b : Nat) (f : Split → Split) : (modSplits l b f).length = l.length := by
  induction l with
  | nil => rfl
  | cons q l ih =>
    rw [modSplits]
    split
    · rfl
    · rw [List.length_cons, ih, List.length_cons]

/-- A change that keeps the state of a split keeps the number of those in RUN or SLEEP. -/
theorem Group.busy_modSplit (g : Group) (b : Nat) {f : Split → Split} (state : ∀ q, (f q).st = q.st) :
    (g.modSplit b f).busy = g.busy := by
  have same (l : List Split) : ((modSplits l b f).filter (fun q => q.st == .run || q.st == .sleep)).length =
      (l.filter (fun q => q.st == .run || q.st == .sleep)).length := by
    induction l with
    | nil => rfl
    | cons q l ih =>
      rw [modSplits]
      split
      · rw [List.filter_cons, List.filter_cons, state]; split <;> rfl
      · rw [List.filter_cons, List.filter_cons]
        split
        · rw [List.length_cons, ih, List.length_cons]
        · exact ih
  exact same g.splits

/-- A split that goes on at an address with the lanes of a mask, under another stack. -/
def Split.narrowed (taken : Word) (stack : List Word) (target : DWord) (q : Split) : Split :=
  { q with mask := q.mask &&& taken, stack := stack, pc := target }

/-- The new split of a division: the lanes not taken, at the next instruction, in RUN or at the tail of the WAIT list. -/
def Split.leaves (q : Split) (g : Group) (made : Nat) (taken : Word) (next : DWord) : Split :=
  let r := { q with
    born := g.nextBorn, made := made, mask := q.mask &&& ~~~taken, stack := q.mask :: q.stack, pc := next, passed := 0,
    starve := 0, held := 0 }
  if g.busy < 4 then { r with st := .run } else { r with st := .wait, queued := g.nextQueued }

theorem Group.divide_eq {g : Group} {q : Split} {b made : Nat} {taken : Word} {target next : DWord} (found : g.split? b = some q) :
    g.divide b made taken target next = { g with
      splits := modSplits g.splits b (Split.narrowed taken (q.mask :: q.stack) target) ++ [q.leaves g made taken next]
      nextBorn := g.nextBorn + 1 } := by
  have busy := Group.busy_modSplit g b (f := Split.narrowed taken (q.mask :: q.stack) target) (fun _ => rfl)
  unfold Split.leaves
  rw [← busy]
  unfold Group.divide
  rw [found]
  rfl

/-- A split more has been made (R125). -/
def State.countMade (s : State) : State := { s with made := s.made + 1 }

theorem Split.leaves_born (q : Split) (g : Group) (made : Nat) (taken : Word) (next : DWord) :
    (q.leaves g made taken next).born = g.nextBorn := by
  unfold Split.leaves
  split <;> rfl

end Sys2Proof.Machine

namespace Sys2Proof.Safety

open Machine

variable {i : Instr} {s t : State} {gid : Nat} {g x : Group} {p : Split}

/-! ## One group that has changed -/

/-- Of all groups and memories a state has changed one group, which is now x. -/
structure Regroups (s t : State) (gid : Nat) (x : Group) : Prop where
  memory : SameMemory s t
  groups : ∀ h, h ≠ gid → Tbl.find t.groups h = Tbl.find s.groups h
  found : Tbl.find t.groups gid = some x

theorem Regroups.group (w : Regroups s t gid x) : t.group gid = x := State.group_of_find w.found

/-- The state that issue itself leaves. -/
theorem regroups_after (h : Issues i s gid g p) : Regroups s (afterIssue i s gid g p) gid (issuedGroup i s g p) :=
  ⟨after_same i s gid g p, fun k hk => by rw [after_groups h.group, if_neg (Ne.symm hk)],
    by rw [after_groups h.group, if_pos rfl]⟩

/-- The group is changed once more. -/
theorem Regroups.modGroup (w : Regroups s t gid x) (f : Group → Group) : Regroups s (t.modGroup gid f) gid (f x) :=
  ⟨w.memory.trans (sameMemory_modGroup _ _ _), fun k hk => by rw [State.find_modGroup, if_neg (Ne.symm hk), w.groups k hk],
    by rw [State.find_modGroup, if_pos rfl, w.found]; rfl⟩

theorem Regroups.countMade (w : Regroups s t gid x) : Regroups s t.countMade gid x :=
  ⟨⟨w.memory.mem, w.memory.host, w.memory.spad, w.memory.tile, w.memory.lines, w.memory.unpub⟩, w.groups, w.found⟩

/-- A group with the registers of another. -/
structure SameFiles (g x : Group) : Prop where
  v : x.v = g.v
  s : x.s = g.s
  p : x.p = g.p
  fmode : x.fmode = g.fmode

theorem SameFiles.trans {y : Group} (a : SameFiles g x) (b : SameFiles x y) : SameFiles g y :=
  ⟨b.v.trans a.v, b.s.trans a.s, b.p.trans a.p, b.fmode.trans a.fmode⟩

theorem SameFiles.regs (a : SameFiles g x) : KeepsRegs [] g x := by
  constructor <;> intros
  · unfold Group.vReg; rw [a.v]
  · unfold Group.sReg; rw [a.s]
  · unfold Group.pReg; rw [a.p]

/-- A group that differs from another in its splits and its counts of issue alone. -/
structure SplitsAside (g x : Group) : Prop extends SameFiles g x where
  rest : rest x = rest g

theorem SplitsAside.trans {y : Group} (a : SplitsAside g x) (b : SplitsAside x y) : SplitsAside g y :=
  ⟨a.toSameFiles.trans b.toSameFiles, b.rest.trans a.rest⟩

theorem splitsAside_splits (g : Group) (l : List Split) : SplitsAside g { g with splits := l } := ⟨⟨rfl, rfl, rfl, rfl⟩, rfl⟩

theorem splitsAside_issued (i : Instr) (s : State) (g : Group) (p : Split) : SplitsAside g (issuedGroup i s g p) :=
  ⟨⟨rfl, rfl, rfl, rfl⟩, rfl⟩

theorem Regroups.regsOnly (w : Regroups s t gid x) (a : SplitsAside g x) : RegsOnly [] s t gid g :=
  ⟨w.memory, w.groups, by rw [w.group]; exact a.regs, by rw [w.group]; exact a.rest⟩

theorem Regroups.fmode (w : Regroups s t gid x) (a : SameFiles g x) : (t.group gid).fmode = g.fmode := by rw [w.group, a.fmode]

/-! ## The issuing split -/

/-- The split of an instruction as its issue leaves it. -/
def afterSplit (i : Instr) (s : State) (g : Group) (p : Split) : Split := issuedSplit p (s.now g.core) (view i).w (instrLen i)

/-- The split of an instruction that issues, and the others, after one more change of it. -/
theorem issuedGroup_modSplit (h : Issues i s gid g p) (f : Split → Split) (born : ∀ q, (f q).born = q.born) (b : Nat) :
    ((issuedGroup i s g p).modSplit p.born f).split? b = if p.born = b then some (f (afterSplit i s g p)) else g.split? b := by
  have issued : (issuedGroup i s g p).split? b = _ := Group.split?_modSplit g p.born b
    (fun q => issuedSplit q (s.now g.core) (view i).w (instrLen i)) (fun _ => rfl)
  rw [Group.split?_modSplit _ _ _ f born, issued]
  split
  next same => rw [← same, h.split]; rfl
  · rfl

theorem issuedGroup_split (h : Issues i s gid g p) : (issuedGroup i s g p).split? p.born = some (afterSplit i s g p) := by
  have same := issuedGroup_modSplit h id (fun _ => rfl) p.born
  rw [if_pos rfl, Group.split?_modSplit _ _ _ id (fun _ => rfl), if_pos rfl, Option.map_id] at same
  exact same

/-- An instruction that only changes its split besides issuing. -/
theorem gives_modSplit (h : Issues i s gid g p) (f : Split → Split) (born : ∀ q, (f q).born = q.born)
    (run : exec i s = .next ((afterIssue i s gid g p).modSplit gid p.born f)) :
    Gives i s (fun t => (t.group gid).fmode = g.fmode ∧ RegsOnly [] s t gid g ∧
      (t.group gid).split? p.born = some (f (afterSplit i s g p)) ∧ ∀ b, b ≠ p.born → (t.group gid).split? b = g.split? b) := by
  have w := (regroups_after h).modGroup (·.modSplit p.born f)
  have splits := issuedGroup_modSplit h f born
  have group : ((afterIssue i s gid g p).modSplit gid p.born f).group gid = _ := w.group
  have aside := (splitsAside_issued i s g p).trans (splitsAside_splits _ (modSplits (issuedGroup i s g p).splits p.born f))
  refine ⟨_, run, w.fmode aside.toSameFiles, w.regsOnly aside, ?_, fun b hb => ?_⟩
  · rw [group, splits, if_pos rfl]
  · rw [group, splits, if_neg (Ne.symm hb)]

/-- The whole split moves to an address. -/
theorem gives_goto (h : Issues i s gid g p) {a : DWord}
    (run : exec i s = .next ((afterIssue i s gid g p).modSplit gid p.born (fun q => { q with pc := a }))) :
    Gives i s (fun t => (t.group gid).fmode = g.fmode ∧ RegsOnly [] s t gid g ∧ MovesTo i s g p (t.group gid) a) := by
  obtain ⟨t, ran, fmode, regs, split, others⟩ := gives_modSplit h (fun q => { q with pc := a }) (fun _ => rfl) run
  exact ⟨t, ran, fmode, regs, ⟨_, split, rfl, rfl, rfl, rfl, rfl, rfl⟩, others⟩

/-- An instruction of 32 bits without an effect of its own. -/
theorem gives_after (h : Issues i s gid g p) (len : instrLen i = 4) (run : exec i s = .next (afterIssue i s gid g p)) :
    Gives i s (fun t => (t.group gid).fmode = g.fmode ∧ RegsOnly [] s t gid g ∧ MovesTo i s g p (t.group gid) (p.pc + 4)) := by
  have goes := (wrote_after h).goesOn h.split
  rw [GoesOn, len] at goes
  exact ⟨_, run, fmode_after h, (wrote_after h).regsOnly, goes⟩

/-! ## Branches (R379) -/

/-- The target of a branch of a view with such an offset. -/
theorem ctx_target {off : BitVec 16} (imm : (view i).imm = off.toNat) :
    (ctx i s gid g p).target = p.pc + BitVec.ofInt 64 (2 * off.toInt) := by
  show p.pc + BitVec.ofInt 64 (2 * sext 16 (view i).imm) = _
  rw [imm, sext_toNat (by decide)]

/-- The two parts of a divided split. -/
theorem gives_division (h : Issues i s gid g p) {made : Nat} {taken : Word} {target : DWord} (own : p.mask &&& taken = taken)
    (run : exec i s = .next ((afterIssue i s gid g p).countMade.modGroup gid
      (fun x => x.divide p.born made taken target (p.pc + 4)))) : Gives i s (fun t =>
      let g' := t.group gid
      (∃ q, g'.split? p.born = some q ∧ q.mask = taken ∧ q.pc = target ∧ q.stack = p.mask :: p.stack ∧ q.st = p.st ∧
        q.readyAt = s.now g.core + 1 + (view i).w) ∧
      (∃ q, g'.splits.getLast? = some q ∧ q.born = g.nextBorn ∧ q.mask = p.mask &&& ~~~taken ∧ q.pc = p.pc + 4 ∧
        q.stack = p.mask :: p.stack ∧ q.st = (if g.busy < 4 then .run else .wait) ∧
        q.readyAt = s.now g.core + 1 + (view i).w) ∧
      g'.splits.length = g.splits.length + 1 ∧ (∀ b, b ≠ p.born → b ≠ g.nextBorn → g'.split? b = g.split? b) ∧
      g'.fmode = g.fmode ∧ SameMemory s t ∧ KeepsRegs [] g g' ∧ (∀ h, h ≠ gid → Tbl.find t.groups h = Tbl.find s.groups h)) := by
  have w := (regroups_after h).countMade.modGroup (fun x => x.divide p.born made taken target (p.pc + 4))
  have divided := Group.divide_eq (made := made) (taken := taken) (target := target) (next := p.pc + 4) (issuedGroup_split h)
  rw [divided] at w
  have busy : (issuedGroup i s g p).busy = g.busy := Group.busy_modSplit g p.born (fun _ => rfl)
  have splits (b : Nat) := issuedGroup_modSplit h
    (Split.narrowed taken ((afterSplit i s g p).mask :: (afterSplit i s g p).stack) target) (fun _ => rfl) b
  have place (b : Nat) (other : b ≠ g.nextBorn) :
      [(afterSplit i s g p).leaves (issuedGroup i s g p) made taken (p.pc + 4)].find? (fun q => q.born == b) = none := by
    rw [List.find?_singleton, Split.leaves_born, if_neg]
    exact fun same => other (beq_iff_eq.mp same).symm
  refine ⟨_, run, ?_⟩
  dsimp only
  rw [w.group]
  refine ⟨⟨(afterSplit i s g p).narrowed taken (p.mask :: p.stack) target, ?_, own, rfl, rfl, rfl, rfl⟩,
    ⟨_, List.getLast?_concat, Split.leaves_born .., ?_⟩, ?_, fun b self other => ?_,
    rfl, w.memory, SameFiles.regs ⟨rfl, rfl, rfl, rfl⟩, w.groups⟩
  · exact (List.find?_append ..).trans (congrArg (Option.or · _) ((splits p.born).trans (if_pos rfl)))
  · unfold Split.leaves
    rw [busy]
    split <;> exact ⟨rfl, rfl, rfl, rfl, rfl⟩
  · refine (List.length_append ..).trans (congrArg (· + 1) ?_)
    exact (length_modSplits ..).trans (length_modSplits ..)
  · refine (List.find?_append ..).trans ?_
    rw [place b other, Option.or_none]
    exact (splits b).trans (if_neg (Ne.symm self))

theorem execBra_eq (f : CB) (s : State) : exec (.bra f) s = issue (.bra f) s (fun c t => c.goto t c.target) := rfl

theorem execBrAny_eq (f : CB) (s : State) : exec (.brAny f) s = issue (.brAny f) s (fun c t =>
    if c.mask &&& c.cond = 0 then .ok t else c.goto t c.target) := rfl

theorem execBrAll_eq (f : CB) (s : State) : exec (.brAll f) s = issue (.brAll f) s (fun c t =>
    if c.mask &&& ~~~c.cond = 0 then c.goto t c.target else .ok t) := rfl

theorem execBrP_eq (f : CB) (s : State) : exec (.brP f) s = issue (.brP f) s (fun c t =>
    if c.mask &&& c.cond = c.mask then c.goto t c.target
    else if c.mask &&& c.cond = 0 then .ok t
    else if 8 ≤ c.sp.stack.length then c.illegal 5
    else .ok (t.countMade.modGroup c.gid (fun g =>
      g.divide c.born t.made (c.mask &&& c.cond) c.target (c.sp.pc + 4)))) := rfl

section
variable (h : Issues i s gid g p) {body : Cx → State → Res} (e : exec i s = issue i s body) {off : BitVec 16}
  (imm : (view i).imm = off.toNat)
include h e imm

/-- A branch whose body goes to its target. -/
theorem gives_taken (taken : body (ctx i s gid g p) (afterIssue i s gid g p) =
      (ctx i s gid g p).goto (afterIssue i s gid g p) (ctx i s gid g p).target) :
    Gives i s (fun t => (t.group gid).fmode = g.fmode ∧ RegsOnly [] s t gid g ∧
      MovesTo i s g p (t.group gid) (p.pc + BitVec.ofInt 64 (2 * off.toInt))) := by
  rw [← ctx_target imm]
  exact gives_goto h (ok_of e taken h)

/-- A branch of the whole split, which is taken or not. -/
theorem gives_branch {taken : Prop} [Decidable taken] (len : instrLen i = 4)
    (yes : taken → body (ctx i s gid g p) (afterIssue i s gid g p) =
      (ctx i s gid g p).goto (afterIssue i s gid g p) (ctx i s gid g p).target)
    (no : ¬ taken → body (ctx i s gid g p) (afterIssue i s gid g p) = .ok (afterIssue i s gid g p)) :
    Gives i s (fun t => (t.group gid).fmode = g.fmode ∧ RegsOnly [] s t gid g ∧
      MovesTo i s g p (t.group gid) (if taken then p.pc + BitVec.ofInt 64 (2 * off.toInt) else p.pc + 4)) := by
  split
  next hit => exact gives_taken h e imm (yes hit)
  next miss => exact gives_after h len (ok_of e (no miss) h)

end

/-- Settles O10: a branch goes to its target, goes on or divides its split, by the lanes in which its condition holds. -/
theorem branches : Obligations.Branches := by
  refine ⟨fun f s gid g p => ⟨fun h => ?_, fun h => ?_, fun h => ?_⟩, fun f s gid g p h => ?_⟩
  · exact gives_taken h (execBra_eq f s) rfl rfl
  · exact gives_branch h (execBrAny_eq f s) rfl rfl (fun any => if_neg any) (fun none_ => if_pos (not_not.mp none_))
  · exact gives_branch h (execBrAll_eq f s) rfl rfl (fun all => if_pos all) (fun some_ => if_neg some_)
  · refine ⟨fun all => ?_, fun some_ none_ => ?_, fun some_ any room => ?_, fun some_ any full => ?_⟩
    · exact gives_taken h (execBrP_eq f s) rfl (if_pos all)
    · exact gives_after h rfl (ok_of (execBrP_eq f s) ((if_neg some_).trans (if_pos none_)) h)
    · refine gives_division h (made := (afterIssue (.brP f) s gid g p).made) ?_
        (ok_of (execBrP_eq f s) (((if_neg some_).trans (if_neg any)).trans ?_) h)
      · rw [← BitVec.and_assoc, BitVec.and_self]
      · rw [← ctx_target (i := .brP f) rfl]
        exact if_neg (Nat.not_le.mpr room)
    · exact trap_of (execBrP_eq f s) (((if_neg some_).trans (if_neg any)).trans (if_pos full)) h

end Sys2Proof.Safety
end

section
/-! SUPPORT. Splits that are settled after a form (R161, R164): without a parked split, the head of the WAIT list alone may enter RUN.
The statements ExitAndSleep and HandlerForms. -/

namespace Sys2Proof.Machine

/-! ## Splits that enter RUN (R161) -/

/-- A split as it was, or in RUN. -/
def Split.woken (q r : Split) : Prop := r = q ∨ r = { q with st := .run }

theorem Split.woken_self (q : Split) : q.woken q := .inl rfl

theorem Split.woken.run {q r : Split} (w : q.woken r) : q.woken { r with st := .run } := by
  rcases w with rfl | rfl
  · exact .inr rfl
  · exact .inr rfl

theorem Split.woken.unparked {q r : Split} (w : q.woken r) (h : q.st ≠ .park) : r.st ≠ .park := by
  rcases w with rfl | rfl
  · exact h
  · exact nofun

/-- What a split keeps when it enters RUN. -/
theorem Split.woken.keeps {q r : Split} (w : q.woken r) : r.born = q.born ∧ r.mask = q.mask ∧ r.held = q.held ∧ r.pc = q.pc ∧
    r.stack = q.stack ∧ (q.st = .run → r.st = .run) := by
  rcases w with rfl | rfl
  · exact ⟨rfl, rfl, rfl, rfl, rfl, id⟩
  · exact ⟨rfl, rfl, rfl, rfl, rfl, fun _ => rfl⟩

theorem woken_modSplits {k l : List Split} (w : List.Forall₂ Split.woken k l) (b : Nat) :
    List.Forall₂ Split.woken k (modSplits l b (fun q => { q with st := .run })) := by
  induction w with
  | nil => exact .nil
  | cons first others ih =>
    rw [modSplits]
    split
    · exact .cons first.run others
    · exact .cons first ih

theorem Group.fillRun_woken (n : Nat) {k : List Split} {g : Group} (w : List.Forall₂ Split.woken k g.splits) :
    ∃ l, g.fillRun n = { g with splits := l } ∧ List.Forall₂ Split.woken k l := by
  induction n generalizing g with
  | zero => exact ⟨g.splits, rfl, w⟩
  | succ n ih =>
    rw [fillRun]
    split
    · split
      · exact ⟨g.splits, rfl, w⟩
      next p _ => exact ih (g := g.modSplit p.born (fun q => { q with st := .run })) (woken_modSplits w p.born)
    · exact ⟨g.splits, rfl, w⟩

/-- The split of a number among splits of which some have entered RUN. -/
theorem find_woken {k l : List Split} (w : List.Forall₂ Split.woken k l) (b : Nat) :
    (k.find? (fun q => q.born == b) = none ∧ l.find? (fun q => q.born == b) = none) ∨
      ∃ q r, k.find? (fun q => q.born == b) = some q ∧ l.find? (fun q => q.born == b) = some r ∧ q.woken r := by
  induction w with
  | nil => exact .inl ⟨rfl, rfl⟩
  | cons first others ih =>
    obtain ⟨born, -⟩ := first.keeps
    rw [List.find?_cons, List.find?_cons, born]
    split
    · exact .inr ⟨_, _, rfl, rfl, first⟩
    · exact ih

section
variable {g : Group} {l : List Split} (w : List.Forall₂ Split.woken g.splits l) {b : Nat}
include w

theorem Group.split?_woken {q : Split} (found : g.split? b = some q) :
    ∃ r, ({ g with splits := l } : Group).split? b = some r ∧ q.woken r := by
  rcases find_woken w b with ⟨none_, -⟩ | ⟨u, r, same, here, woken⟩
  · exact nomatch found.symm.trans none_
  · exact ⟨r, here, Option.some.inj (same.symm.trans found) ▸ woken⟩

theorem Group.split?_woken_none (gone : g.split? b = none) : ({ g with splits := l } : Group).split? b = none := by
  rcases find_woken w b with ⟨-, none_⟩ | ⟨u, r, same, -, -⟩
  · exact none_
  · exact nomatch gone.symm.trans same

end

theorem unparked_woken {k l : List Split} (w : List.Forall₂ Split.woken k l) (h : ∀ q ∈ k, q.st ≠ .park) :
    ∀ r ∈ l, r.st ≠ .park := by
  induction w with
  | nil => exact h
  | cons first others ih =>
    obtain ⟨head, tail⟩ := List.forall_mem_cons.mp h
    exact List.forall_mem_cons.mpr ⟨first.unparked head, ih tail⟩

/-! ## A group without a parked split (R164) -/

theorem Group.mergeAll_unparked {g : Group} (h : ∀ q ∈ g.splits, q.st ≠ .park) (n : Nat) : g.mergeAll n = g := by
  cases n with
  | zero => rfl
  | succ n =>
    have none_parked : g.splits.find? (fun q => q.st == .park && g.mergeReady q) = none :=
      List.find?_eq_none.mpr fun q hq => by simp [h q hq]
    rw [mergeAll, none_parked]

theorem Group.stuck_unparked {g : Group} (h : ∀ q ∈ g.splits, q.st ≠ .park) : g.stuck = false := by
  unfold stuck
  cases list : g.splits with
  | nil => rfl
  | cons q l => simp [h q (list ▸ List.mem_cons_self)]

/-- The head of the WAIT list may enter RUN, and nothing else is settled. -/
theorem State.settleParked_unparked {s : State} {gid : Nat} {g : Group} (found : Tbl.find s.groups gid = some g)
    (h : ∀ q ∈ g.splits, q.st ≠ .park) : s.settleParked gid = s.refill gid := by
  obtain ⟨l, filled, woken⟩ := Group.fillRun_woken 32 (List.forall₂_same.mpr fun q (_ : q ∈ g.splits) => q.woken_self)
  have after : Tbl.find (s.refill gid).groups gid = some { g with splits := l } := by
    rw [refill, State.find_modGroup, if_pos rfl, found, ← filled]; rfl
  rw [settleParked, modGroup_fixed found (Group.mergeAll_unparked h 32), after]
  exact if_neg (by rw [Group.stuck_unparked (unparked_woken woken h)]; decide)

/-! ## Lists of splits -/

theorem mem_modSplits {l : List Split} {b : Nat} {f : Split → Split} {r : Split} (h : r ∈ modSplits l b f) :
    r ∈ l ∨ ∃ q ∈ l, r = f q := by
  induction l with
  | nil => exact .inl h
  | cons q l ih =>
    rw [modSplits] at h
    split at h <;> rcases List.mem_cons.mp h with rfl | h
    · exact .inr ⟨q, List.mem_cons_self, rfl⟩
    · exact .inl (List.mem_cons_of_mem _ h)
    · exact .inl List.mem_cons_self
    · exact (ih h).imp (List.mem_cons_of_mem _) fun ⟨u, hu, e⟩ => ⟨u, List.mem_cons_of_mem _ hu, e⟩

theorem unparked_modSplits {l : List Split} (b : Nat) {f : Split → Split} (keeps : ∀ q, (f q).st = q.st)
    (h : ∀ q ∈ l, q.st ≠ .park) :
    ∀ q ∈ modSplits l b f, q.st ≠ .park := by
  intro r hr
  rcases mem_modSplits hr with old | ⟨q, hq, rfl⟩
  · exact h r old
  · rw [keeps]; exact h q hq

/-- A change that keeps the lanes of a split keeps the live lanes of its group. -/
theorem Group.live_modSplit (g : Group) (b : Nat) {f : Split → Split} (mask : ∀ q, (f q).mask = q.mask)
    (held : ∀ q, (f q).held = q.held) :
    (g.modSplit b f).live = g.live := by
  have same (l : List Split) : (modSplits l b f).foldr (fun p m => p.mask ||| p.held ||| m) 0 =
      l.foldr (fun p m => p.mask ||| p.held ||| m) 0 := by
    induction l with
    | nil => rfl
    | cons q l ih =>
      rw [modSplits]
      split
      · rw [List.foldr_cons, List.foldr_cons, mask, held]
      · rw [List.foldr_cons, ih, List.foldr_cons]
  exact same g.splits

/-- The splits after a change of them all. -/
theorem find_map_splits (l : List Split) {f : Split → Split} (born : ∀ q, (f q).born = q.born) (b : Nat) :
    (l.map f).find? (fun q => q.born == b) = (l.find? (fun q => q.born == b)).map f := by
  rw [List.find?_map]
  congr 2
  funext q
  exact congrArg (· == b) (born q)

/-! ## exit (R383) -/

/-- A split without the lanes of a mask in its stack. -/
def Split.without (m : Word) (q : Split) : Split := { q with stack := q.stack.map (fun k => k &&& ~~~m) }

theorem Group.split?_exited (g : Group) (b c : Nat) (m : Word) :
    ((g.dropSplit b).clearStacks m).split? c = if b = c then none else (g.split? c).map (Split.without m) := by
  have cleared : ((g.dropSplit b).clearStacks m).split? c = ((g.dropSplit b).split? c).map (Split.without m) :=
    find_map_splits (g.splits.filter (fun q => q.born != b)) (f := Split.without m) (fun _ => rfl) c
  have dropped : (g.dropSplit b).split? c = g.splits.find? (fun q => !decide (q.born = b) && decide (q.born = c)) := by
    simp [split?, dropSplit, List.find?_filter]
  rw [cleared, dropped]
  split
  next same =>
    rw [List.find?_eq_none.mpr fun q _ => by simp [same]]; rfl
  next other =>
    refine congrArg (Option.map (Split.without m)) (congrArg (List.find? · g.splits) (funext fun q => ?_))
    by_cases here : q.born = c
    · simp [here, Ne.symm other]
    · simp [here]

/-- exit of a split outside a handler whose group has no entry. -/
theorem State.exitSplit_plain {s : State} {gid born : Nat} {g : Group} {p : Split} (found : Tbl.find s.groups gid = some g)
    (free : g.inh = false) (held : p.held = 0) (log : g.log = []) : s.exitSplit gid born p =
      (s.modGroup gid (fun x => (x.dropSplit born).clearStacks p.mask)).settleParked gid := by
  have own : (s.group gid).handling p = false := by
    rw [State.group_of_find found, Group.handling, free]; rfl
  have keep : (p.held != 0) = false := by rw [held]; rfl
  have empty : ((s.modGroup gid (fun x => (x.dropSplit born).clearStacks p.mask)).group gid).log = [] :=
    (congrArg Group.log (State.group_modGroup _ found)).trans log
  unfold State.exitSplit
  simp only [own, keep, Bool.false_eq_true, if_false, Bool.not_false, if_true]
  unfold State.settleOrphans
  rw [empty]
  rfl

/-! ## Handlers (R386, R387) -/

theorem Group.handling_iff {g : Group} {p : Split} : g.handling p = true ↔ g.inh = true ∧ p.lanes &&& g.trap.smask ≠ 0 := by
  unfold handling Split.lanes
  rw [Bool.and_eq_true, bne_iff_ne]

/-- The split that resumes after its handler. -/
def Split.resumed (a : DWord) (m : Word) (q : Split) : Split := { q with pc := a, mask := m, held := 0, st := .run, why := .awake }

/-- The group that has left its handler: a split goes on at TRAP.RPC with the lanes of a mask. -/
def Group.returned (g : Group) (born : Nat) (m : Word) : Group :=
  { (g.modSplit born (Split.resumed (g.trap.rpc &&& ~~~1) m)).unstall with inh := false, trap := { g.trap with ctl := 0 } }

theorem Group.split?_returned (g : Group) (born : Nat) (m : Word) : (g.returned born m).split? born =
    (g.split? born).map (fun q => { q.resumed (g.trap.rpc &&& ~~~1) m with stalled := false }) := by
  have unstalled : (g.returned born m).split? born = ((g.modSplit born (Split.resumed (g.trap.rpc &&& ~~~1) m)).split? born).map
      (fun q => { q with stalled := false }) :=
    find_map_splits _ (f := fun q => { q with stalled := false }) (fun _ => rfl) born
  rw [unstalled, Group.split?_modSplit g born born (Split.resumed (g.trap.rpc &&& ~~~1) m) (fun _ => rfl), if_pos rfl,
    Option.map_map]
  rfl

theorem Group.unparked_returned {g : Group} (born : Nat) (m : Word) (h : ∀ q ∈ g.splits, q.st ≠ .park) :
    ∀ q ∈ (g.returned born m).splits, q.st ≠ .park := by
  intro r hr
  obtain ⟨q, hq, rfl⟩ := List.mem_map.mp hr
  rcases mem_modSplits hq with old | ⟨u, -, rfl⟩
  · exact h q old
  · exact nofun

/-- The return of a handler with DROP 0 and without a failed entry. -/
theorem State.returnFrom_plain {s : State} {gid born : Nat} {g : Group} (found : Tbl.find s.groups gid = some g)
    (keep : g.trap.ctl.getLsbD 0 = false) (sound : g.failedOf = []) : s.returnFrom gid born =
      (s.modGroup gid (fun x => x.returned born (g.trap.smask &&& g.live))).settleParked gid := by
  unfold State.returnFrom State.returnAs
  rw [State.group_of_find found]
  simp only [keep, Bool.false_eq_true, if_false, State.group_of_find found, sound, List.foldl_nil]
  rfl

end Sys2Proof.Machine

namespace Sys2Proof.Safety

open Machine

variable {i : Instr} {s t : State} {gid : Nat} {g x : Group} {p : Split}

/-- A group without a parked split that is settled: splits of the WAIT list may enter RUN. -/
theorem Regroups.settleParked (w : Regroups s t gid x) (h : ∀ q ∈ x.splits, q.st ≠ .park) :
    ∃ l, Regroups s (t.settleParked gid) gid { x with splits := l } ∧ List.Forall₂ Split.woken x.splits l := by
  obtain ⟨l, filled, woken⟩ := Group.fillRun_woken 32 (List.forall₂_same.mpr fun q (_ : q ∈ x.splits) => q.woken_self)
  refine ⟨l, ?_, woken⟩
  rw [State.settleParked_unparked w.found h, ← filled]
  exact w.modGroup _

theorem issuedGroup_unparked (h : ∀ q ∈ g.splits, q.st ≠ .park) : ∀ q ∈ (issuedGroup i s g p).splits, q.st ≠ .park :=
  unparked_modSplits p.born (fun _ => rfl) h

theorem issuedGroup_live : (issuedGroup i s g p).live = g.live := Group.live_modSplit g p.born (fun _ => rfl) (fun _ => rfl)

/-! ## exit (R162, R383) -/

theorem execExitLanes_eq (f : RG) (s : State) :
    exec (.exitLanes f) s = issue (.exitLanes f) s (fun c t => .ok (t.exitSplit c.gid c.born c.sp)) := rfl

/-- The group that an exit outside a handler leaves. -/
theorem regroups_exit (h : Issues i s gid g p) (free : g.inh = false) (held : p.held = 0) (log : g.log = [])
    (unparked : ∀ q ∈ g.splits, q.st ≠ .park) :
    let x := ((issuedGroup i s g p).dropSplit p.born).clearStacks p.mask
    SplitsAside g x ∧ ∃ l, Regroups s ((afterIssue i s gid g p).exitSplit gid p.born p) gid { x with splits := l } ∧
      List.Forall₂ Split.woken x.splits l := by
  have issued := regroups_after h
  rw [State.exitSplit_plain issued.found free held log]
  refine ⟨(splitsAside_issued i s g p).trans (splitsAside_splits _ _),
    (issued.modGroup (fun x => (x.dropSplit p.born).clearStacks p.mask)).settleParked fun r hr => ?_⟩
  obtain ⟨q, hq, rfl⟩ := List.mem_map.mp hr
  exact issuedGroup_unparked unparked q (List.mem_filter.mp hq).1

/-- The splits of a group after another has exited. -/
theorem gives_exit (h : Issues i s gid g p) (free : g.inh = false) (held : p.held = 0) (log : g.log = [])
    (unparked : ∀ q ∈ g.splits, q.st ≠ .park) (run : exec i s = .next ((afterIssue i s gid g p).exitSplit gid p.born p)) :
    Gives i s (fun t => (t.group gid).split? p.born = none ∧
      (∀ b q, b ≠ p.born → g.split? b = some q → ∃ r, (t.group gid).split? b = some r ∧ r.mask = q.mask ∧ r.pc = q.pc ∧
        r.stack = q.stack.map (fun m => m &&& ~~~p.mask)) ∧
      (t.group gid).fmode = g.fmode ∧ RegsOnly [] s t gid g) := by
  obtain ⟨aside, l, w, woken⟩ := regroups_exit h free held log unparked
  have exited (b : Nat) := (issuedGroup i s g p).split?_exited p.born b p.mask
  have aside := aside.trans (splitsAside_splits _ l)
  refine ⟨_, run, ?_, fun b q other found => ?_, w.fmode aside.toSameFiles, w.regsOnly aside⟩
  · rw [w.group]
    exact Group.split?_woken_none woken ((exited p.born).trans (if_pos rfl))
  · have same : (issuedGroup i s g p).split? b = some q :=
      (Group.split?_modSplit g p.born b (fun q => issuedSplit q (s.now g.core) (view i).w (instrLen i)) (fun _ => rfl)).trans
        ((if_neg (Ne.symm other)).trans found)
    rw [w.group]
    obtain ⟨r, here, kept⟩ := Group.split?_woken woken ((exited b).trans ((if_neg (Ne.symm other)).trans (congrArg _ same)))
    obtain ⟨-, mask, -, pc, stack, -⟩ := kept.keeps
    exact ⟨r, here, mask, pc, stack⟩

/-! ## The sleep forms (R384) -/

theorem execSleepUntil_eq (f : RG) (s : State) :
    exec (.sleepUntil f) s = issue (.sleepUntil f) s (fun c t => c.sleepTo t (c.sp2 c.vw.a).toNat) := rfl

theorem execSleepNs_eq (f : RG) (s : State) : exec (.sleepNs f) s = issue (.sleepNs f) s (fun c t =>
    c.sleepTo t (min (t.cycle + (c.sp2 c.vw.a).toNat) (2 ^ 64 - 1))) := rfl

theorem execSleepYield_eq (f : RG) (s : State) : exec (.sleepYield f) s = issue (.sleepYield f) s (fun c t =>
    .ok (t.modSplit c.gid c.born (fun p => { p with st := .sleep, why := .idle, deadline := c.now + 256, pc := c.sp.pc }))) := rfl

/-- A sleep until a deadline, which gives none when it has passed. -/
theorem gives_sleepTo (h : Issues i s gid g p) {body : Cx → State → Res} (e : exec i s = issue i s body) (len : instrLen i = 4) {d : Nat}
    (sleeps : body (ctx i s gid g p) (afterIssue i s gid g p) = (ctx i s gid g p).sleepTo (afterIssue i s gid g p) d) :
    (d ≤ s.cycle → Gives i s (fun t => (t.group gid).fmode = g.fmode ∧ RegsOnly [] s t gid g ∧ GoesOn i s g p (t.group gid))) ∧
    (s.cycle < d → Gives i s (fun t => (t.group gid).fmode = g.fmode ∧ RegsOnly [] s t gid g ∧
      ∃ q, (t.group gid).split? p.born = some q ∧ q.st = .sleep ∧ q.why = .time ∧ q.deadline = d ∧ q.pc = p.pc ∧
        q.mask = p.mask ∧ q.stack = p.stack)) := by
  unfold Cx.sleepTo at sleeps
  rw [after_cycle] at sleeps
  refine ⟨fun past => ?_, fun future => ?_⟩
  · rw [if_pos past] at sleeps
    unfold GoesOn
    rw [len]
    exact gives_after h len (ok_of e sleeps h)
  · rw [if_neg (Nat.not_le.mpr future)] at sleeps
    obtain ⟨t, run, fmode, regs, split, -⟩ := gives_modSplit h
      (fun q => { q with st := .sleep, why := .time, deadline := d, pc := p.pc }) (fun _ => rfl) (ok_of e sleeps h)
    exact ⟨t, run, fmode, regs, _, split, rfl, rfl, rfl, rfl, rfl, rfl⟩

/-- Settles O13: exit drops its split and settles a group without a parked one; a sleep changes its split alone. -/
theorem exitAndSleep : Obligations.ExitAndSleep := by
  refine ⟨fun f s gid g p h free held log unparked => ?_, fun f i s gid g p h d form => ?_, fun f s gid g p h => ?_⟩
  · exact gives_exit h free held log unparked (ok_of (execExitLanes_eq f s) rfl h)
  · rcases form with ⟨rfl, rfl⟩ | ⟨rfl, rfl⟩
    · exact gives_sleepTo h (execSleepUntil_eq f s) rfl rfl
    · refine gives_sleepTo h (execSleepNs_eq f s) rfl ?_
      rw [after_cycle]
      rfl
  · obtain ⟨t, run, fmode, regs, split, -⟩ := gives_modSplit h
      (fun q => { q with st := .sleep, why := .idle, deadline := s.now g.core + 256, pc := p.pc }) (fun _ => rfl)
      (ok_of (execSleepYield_eq f s) rfl h)
    exact ⟨t, run, fmode, regs, _, split, rfl, rfl, rfl, rfl, rfl, rfl⟩

/-! ## rfe, mask.rd and mask.wr (R171, R386, R387) -/

theorem execRfe_eq (f : RG) (s : State) : exec (.rfe f) s = issue (.rfe f) s (fun c t =>
    if !c.g.inh then c.illegal 7
    else if c.outside ≠ 0 then c.illegal 6
    else .ok (t.returnFrom c.gid c.born)) := rfl

theorem execMaskRd_eq (f : RG) (s : State) :
    exec (.maskRd f) s = issue (.maskRd f) s (fun c t => .ok (c.writeS t c.vw.d c.mask)) := rfl

theorem execMaskWr_eq (f : RG) (s : State) : exec (.maskWr f) s = issue (.maskWr f) s (fun c t =>
    let m := c.s c.vw.a &&& c.g.live &&& c.g.trap.smask
    if !c.g.handling c.sp then c.priv
    else if m = 0 || c.outside != 0 then c.illegal 2
    else .ok (t.modSplit c.gid c.born (fun p => { p with mask := m, held := p.lanes &&& ~~~m }))) := rfl

theorem sameFiles_returned (g : Group) (born : Nat) (m : Word) (l : List Split) :
    SameFiles g { g.returned born m with splits := l } := ⟨rfl, rfl, rfl, rfl⟩

/-- The group that a return leaves which drops no entry and replays none. -/
theorem regroups_return (h : Issues i s gid g p) (keep : g.trap.ctl.getLsbD 0 = false) (sound : g.failedOf = [])
    (unparked : ∀ q ∈ g.splits, q.st ≠ .park) :
    let x := (issuedGroup i s g p).returned p.born (g.trap.smask &&& g.live)
    ∃ l, Regroups s ((afterIssue i s gid g p).returnFrom gid p.born) gid { x with splits := l } ∧
      List.Forall₂ Split.woken x.splits l := by
  have issued := regroups_after h
  have returns : (afterIssue i s gid g p).returnFrom gid p.born = _ := State.returnFrom_plain issued.found keep sound
  rw [returns, issuedGroup_live]
  exact (issued.modGroup (fun x => x.returned p.born (g.trap.smask &&& g.live))).settleParked
    (Group.unparked_returned _ _ (issuedGroup_unparked unparked))

/-- What a return keeps of its group. -/
theorem returned_keeps (x : Group) (born : Nat) (m : Word) (l : List Split) :
    let y : Group := { x.returned born m with splits := l }
    y.inh = false ∧ y.trap = { x.trap with ctl := 0 } ∧ y.log = x.log := ⟨rfl, rfl, rfl⟩

theorem issuedGroup_keeps (i : Instr) (s : State) (g : Group) (p : Split) :
    (issuedGroup i s g p).trap = g.trap ∧ (issuedGroup i s g p).log = g.log := ⟨rfl, rfl⟩

theorem afterSplit_stack (i : Instr) (s : State) (g : Group) (p : Split) : (afterSplit i s g p).stack = p.stack := rfl

/-- The split that returns, when splits may have entered RUN. -/
theorem split_returned (h : Issues i s gid g p) (m : Word) {l : List Split}
    (woken : List.Forall₂ Split.woken ((issuedGroup i s g p).returned p.born m).splits l) :
    ∃ q, ({ (issuedGroup i s g p).returned p.born m with splits := l } : Group).split? p.born = some q ∧
      q.pc = g.trap.rpc &&& ~~~1 ∧ q.mask = m ∧ q.held = 0 ∧ q.st = .run ∧ q.stack = p.stack := by
  have own := Group.split?_returned (issuedGroup i s g p) p.born m
  rw [issuedGroup_split h] at own
  obtain ⟨r, here, kept⟩ := Group.split?_woken woken own
  obtain ⟨-, mask, held, pc, stack, runs⟩ := kept.keeps
  exact ⟨r, here, pc, mask, held, runs rfl, stack.trans (afterSplit_stack i s g p)⟩

/-- A return that drops no entry and replays none. -/
theorem gives_return (h : Issues i s gid g p) (keep : g.trap.ctl.getLsbD 0 = false) (sound : g.failedOf = [])
    (unparked : ∀ q ∈ g.splits, q.st ≠ .park) (run : exec i s = .next ((afterIssue i s gid g p).returnFrom gid p.born)) :
    Gives i s (fun t =>
      let g' := t.group gid
      (∃ q, g'.split? p.born = some q ∧ q.pc = g.trap.rpc &&& ~~~1 ∧ q.mask = g.trap.smask &&& g.live ∧ q.held = 0 ∧
        q.st = .run ∧ q.stack = p.stack) ∧
      g'.inh = false ∧ g'.trap = { g.trap with ctl := 0 } ∧ g'.fmode = g.fmode ∧ g'.log = g.log ∧ KeepsRegs [] g g' ∧
      SameMemory s t ∧ (∀ h, h ≠ gid → Tbl.find t.groups h = Tbl.find s.groups h)) := by
  obtain ⟨l, w, woken⟩ := regroups_return h keep sound unparked
  have files := (splitsAside_issued i s g p).toSameFiles.trans
    (sameFiles_returned (issuedGroup i s g p) p.born (g.trap.smask &&& g.live) l)
  obtain ⟨inh, trap, log⟩ := returned_keeps (issuedGroup i s g p) p.born (g.trap.smask &&& g.live) l
  obtain ⟨sameTrap, sameLog⟩ := issuedGroup_keeps i s g p
  rw [sameTrap] at trap
  rw [sameLog] at log
  refine ⟨_, run, ?_⟩
  dsimp only
  rw [w.group]
  exact ⟨split_returned h _ woken, inh, trap, files.fmode, log, files.regs, w.memory, w.groups⟩

/-- Settles O16: rfe and mask.wr raise their causes by their tests in order; else the one leaves the handler and the other changes the
lanes of its split. -/
theorem handlerForms : Obligations.HandlerForms := by
  refine ⟨fun f s gid g p h => ⟨fun free => ?_, fun inside out => ?_, fun inside within keep sound unparked => ?_⟩,
    fun f => ?_, fun f s gid g p h => ⟨fun free => ?_, fun inside bad => ?_, fun inside some_ within => ?_⟩⟩
  · exact trap_of (execRfe_eq f s) (if_pos (by rw [show (ctx (.rfe f) s gid g p).g.inh = false from free]; rfl)) h
  · refine trap_of (execRfe_eq f s) ((if_neg ?_).trans (if_pos out)) h
    rw [show (ctx (.rfe f) s gid g p).g.inh = true from inside]; decide
  · refine gives_return h keep sound unparked (ok_of (execRfe_eq f s) ((if_neg ?_).trans (if_neg (not_not.mpr within))) h)
    rw [show (ctx (.rfe f) s gid g p).g.inh = true from inside]; decide
  · exact givesScalar_plain fun s gid g p h => ok_of (execMaskRd_eq f s) rfl h
  · exact trap_of (execMaskWr_eq f s) (if_pos (by rw [Bool.not_eq_true', ← Bool.not_eq_true]; exact mt Group.handling_iff.mp free)) h
  · refine trap_of (execMaskWr_eq f s) ((if_neg ?_).trans (if_pos ?_)) h
    · rw [Bool.not_eq_true', Bool.not_eq_false]; exact Group.handling_iff.mpr inside
    · exact Bool.or_eq_true_iff.mpr (bad.imp decide_eq_true bne_iff_ne.mpr)
  · have handles : ¬ (!(ctx (.maskWr f) s gid g p).g.handling (ctx (.maskWr f) s gid g p).sp) = true := by
      rw [Bool.not_eq_true', Bool.not_eq_false]; exact Group.handling_iff.mpr inside
    have sound : ¬ (decide _ || _ != _) = true :=
      fun bad => (Bool.or_eq_true_iff.mp bad).elim (some_ ∘ of_decide_eq_true) (bne_iff_ne.mp · within)
    obtain ⟨t, run, fmode, regs, split, -⟩ := gives_modSplit h (fun q => { q with
        mask := (ctx (.maskWr f) s gid g p).s f.a.toNat &&& g.live &&& g.trap.smask
        held := q.lanes &&& ~~~((ctx (.maskWr f) s gid g p).s f.a.toNat &&& g.live &&& g.trap.smask) }) (fun _ => rfl)
      (ok_of (execMaskWr_eq f s) ((if_neg handles).trans (if_neg sound)) h)
    exact ⟨t, run, ⟨_, split, rfl, rfl, rfl, rfl, rfl⟩, fmode, regs⟩

end Sys2Proof.Safety
end

section
/-! SUPPORT. Traps (R166 to R174, R231, R274, R278): the group that enters its handler, the checks before an issue, the scoreboard, and
the statements TrapsAreTaken and SoftwareTraps. -/

namespace Sys2Proof.Machine

/-! ## Handler entry (R170) -/

/-- The split that runs a handler from its address. -/
def Split.handles (a : DWord) (q : Split) : Split := { q with pc := a, st := .run, why := .awake, wait := none, mark := none }

/-- The split at the next instruction. -/
def Split.passes (q : Split) : Split := { q with pc := q.pc + 4, why := .awake }

/-- The group whose split has entered the handler, with its record. -/
def Group.handled (g : Group) (p : Split) (a : Nat) (r : TrapInfo) : Group :=
  { g.modSplit p.born (Split.handles (BitVec.ofNat 64 a)) with trap := r.record p, inh := true, hmark := g.nextNum }

theorem Group.split?_trapped (x : Group) (t : TrapRec) (n b : Nat) :
    ({ x with trap := t, inh := true, hmark := n } : Group).split? b = x.split? b := rfl

theorem Group.split?_handled (g : Group) (p : Split) (a : Nat) (r : TrapInfo) (b : Nat) : (g.handled p a r).split? b =
    if p.born = b then (g.split? b).map (Split.handles (BitVec.ofNat 64 a)) else g.split? b :=
  (Group.split?_trapped (g.modSplit p.born (Split.handles (BitVec.ofNat 64 a))) ..).trans
    (Group.split?_modSplit g p.born b (Split.handles (BitVec.ofNat 64 a)) (fun _ => rfl))

section
variable {s : State} {gid : Nat} {g : Group} {p : Split} (found : Tbl.find s.groups gid = some g) (split : g.split? p.born = some p)
  (free : g.inh = false) {r : TrapInfo}
include found split free

/-- A cause outside a handler that neither kills, stops nor faults a page. -/
theorem State.takeTrap_handler (named : s.handlerOf g ≠ 0) (kill : r.cause ≠ 14) (stop : r.cause ≠ 16) (page : r.cause ≠ 8) :
    s.takeTrap gid p.born r = s.enterHandler gid p.born { r with fix := s.fixWord g r.pc.toNat } := by
  have outside : g.handling p = false := by rw [Group.handling, free]; rfl
  unfold takeTrap
  rw [State.group_of_find found]
  dsimp only
  rw [split]
  dsimp only
  rw [if_neg kill, if_neg stop, free, Bool.false_and, if_neg Bool.false_ne_true, if_neg page, outside, if_neg Bool.false_ne_true, if_pos named]

variable (fresh : g.skipBrk ≠ some p.born) (closed : (s.slice g.slice).dbg.ctl.getLsbD 31 = false) (stop : r.cause = 16)
include fresh closed stop

/-- BREAK with no debug session open. -/
theorem State.takeTrap_break : s.takeTrap gid p.born r =
    if s.handlerOf g ≠ 0 then s.enterHandler gid p.born { r with fix := s.fixWord g r.pc.toNat } else s.goOn gid p.born := by
  have silent : s.dbgEn g.slice = false := closed
  have runs : s.dbgStop g.slice = false := by rw [dbgStop, silent]; rfl
  have kill : r.cause ≠ 14 := by rw [stop]; decide
  have promise : decide (r.cause = 13) = false := by rw [stop]; rfl
  have other : (g.skipBrk == some p.born) = false := beq_eq_false_iff_ne.mpr fresh
  unfold takeTrap
  rw [State.group_of_find found]
  dsimp only
  rw [split]
  dsimp only
  rw [if_neg kill, if_pos stop]
  unfold takeBreak noHandler
  simp only [free, other, silent, runs, promise, Bool.false_and, Bool.false_eq_true, if_false]
  rw [if_pos stop]

end

end Sys2Proof.Machine

namespace Sys2Proof.Safety

open Machine

variable {i : Instr} {s t : State} {gid : Nat} {g x : Group} {p : Split} {r : TrapInfo}

theorem regroups_refl (found : Tbl.find s.groups gid = some g) : Regroups s s gid g :=
  ⟨by constructor <;> intros <;> rfl, fun _ _ => rfl, found⟩

/-- Whether a split is in a slot concerns no group and no memory. -/
theorem Regroups.of_idle (w : Regroups { s with cur := none } t gid x) : Regroups s t gid x :=
  ⟨⟨w.memory.mem, w.memory.host, w.memory.spad, w.memory.tile, w.memory.lines, w.memory.unpub⟩, w.groups, w.found⟩

theorem regroups_enterHandler (found : Tbl.find s.groups gid = some g) (split : g.split? p.born = some p) (r : TrapInfo) :
    Regroups s (s.enterHandler gid p.born r) gid (g.handled p (s.handlerOf g) r) := by
  have w : Regroups s (s.enterHandler gid p.born r) gid _ := (regroups_refl found).modGroup _
  simp only [split, State.group_of_find found] at w
  exact w

theorem sameFiles_handled (g : Group) (p : Split) (a : Nat) (r : TrapInfo) : SameFiles g (g.handled p a r) := ⟨rfl, rfl, rfl, rfl⟩

/-- What a group in its handler keeps, and what it saves. -/
theorem handled_keeps (g : Group) (p : Split) (a : Nat) (r : TrapInfo) :
    (g.handled p a r).trap = r.record p ∧ (g.handled p a r).inh = true ∧ (g.handled p a r).log = g.log := ⟨rfl, rfl, rfl⟩

theorem split_handled (split : g.split? p.born = some p) (a : Nat) (r : TrapInfo) :
    (g.handled p a r).split? p.born = some (p.handles (BitVec.ofNat 64 a)) := by
  rw [Group.split?_handled, if_pos rfl, split, Option.map_some]

/-- The group of a split that has entered its handler. -/
structure Handles (s t : State) (gid : Nat) (g : Group) (p : Split) (r : TrapInfo) : Prop where
  regroups : Regroups s t gid (t.group gid)
  trap : (t.group gid).trap = r.record p
  inh : (t.group gid).inh = true
  log : (t.group gid).log = g.log
  files : SameFiles g (t.group gid)
  split : (t.group gid).split? p.born = some (p.handles (BitVec.ofNat 64 (s.handlerOf g)))
  others : ∀ b, b ≠ p.born → (t.group gid).split? b = g.split? b

theorem handles_enterHandler (found : Tbl.find s.groups gid = some g) (split : g.split? p.born = some p) (r : TrapInfo) :
    Handles s (s.enterHandler gid p.born r) gid g p r := by
  have w := regroups_enterHandler found split r
  obtain ⟨trap, inh, log⟩ := handled_keeps g p (s.handlerOf g) r
  constructor
  all_goals rw [w.group]
  · exact w
  · exact trap
  · exact inh
  · exact log
  · exact sameFiles_handled ..
  · exact split_handled split ..
  · intro b other
    rw [Group.split?_handled, if_neg other.symm]

/-- A cause of an instruction that the handler takes. -/
theorem handles_takeTrap (found : Tbl.find s.groups gid = some g) (split : g.split? p.born = some p) (free : g.inh = false)
    (named : s.handlerOf g ≠ 0) (kill : r.cause ≠ 14) (stop : r.cause ≠ 16) (page : r.cause ≠ 8) :
    Handles s (s.takeTrap gid p.born r) gid g p { r with fix := s.fixWord g r.pc.toNat } := by
  rw [State.takeTrap_handler found split free named kill stop page]
  exact handles_enterHandler found split _

/-! ## trap and brk (R385) -/

theorem execSwTrap_eq (f : RG) (s : State) : exec (.swTrap f) s = issue (.swTrap f) s (fun c _ => .trap (c.early 15 c.mask)) := rfl

theorem execBrk_eq (f : RG) (s : State) : exec (.brk f) s = issue (.brk f) s (fun c _ => .trap (c.early 16 c.mask)) := rfl

/-- TRAP.CAUSE of an early cause without DETAIL or INFO (R169). -/
theorem early_word (c : Cx) (n : Nat) (mask fix : Word) :
    ({ c.early n mask with fix := fix } : TrapInfo).word = BitVec.ofNat 32 (0xFC000000 + n % 32) := by
  simp [TrapInfo.word, Cx.early]

/-- An instruction whose early cause the handler takes. -/
theorem gives_handled {n : Nat} {fix : Word} (run : exec i s = .next t)
    (w : Handles { s with cur := none } t gid g p { (ctx i s gid g p).early n p.mask with fix := fix }) :
    Gives i s (fun t =>
      (t.group gid).trap.cause = BitVec.ofNat 32 (0xFC000000 + n % 32) ∧ (t.group gid).trap.mask = p.mask ∧
      (t.group gid).trap.pc = p.pc ∧ (t.group gid).trap.rpc = p.pc ∧ (t.group gid).inh = true ∧
      ∃ q, (t.group gid).split? p.born = some q ∧ q.pc = BitVec.ofNat 64 (s.handlerOf g) ∧ q.mask = p.mask) := by
  refine ⟨t, run, ?_⟩
  dsimp only
  rw [w.trap]
  exact ⟨early_word .., rfl, rfl, rfl, w.inh, _, w.split, rfl, rfl⟩

/-- A split that passes its instruction. -/
theorem goOn_keeps (found : Tbl.find s.groups gid = some g) (split : g.split? p.born = some p) :
    ((s.goOn gid p.born).group gid).split? p.born = some p.passes ∧ ((s.goOn gid p.born).group gid).fmode = g.fmode ∧
      RegsOnly [] s (s.goOn gid p.born) gid g := by
  have w : Regroups s (s.goOn gid p.born) gid (g.modSplit p.born Split.passes) := (regroups_refl found).modGroup _
  have aside := splitsAside_splits g (modSplits g.splits p.born Split.passes)
  refine ⟨?_, w.fmode aside.toSameFiles, w.regsOnly aside⟩
  rw [w.group, Group.split?_modSplit g p.born p.born Split.passes (fun _ => rfl), if_pos rfl, split, Option.map_some]

/-- Settles O15: trap raises SWTRAP and brk BREAK, which a handler takes; without one, and with no session, brk goes on. -/
theorem softwareTraps : Obligations.SoftwareTraps := by
  refine ⟨fun f s gid g p h => ?_, fun f s gid g p h free fresh closed => ?_⟩
  · have run := trap_of (execSwTrap_eq f s) rfl h
    exact ⟨run, fun free named => gives_handled run
      (handles_takeTrap h.group h.split free named (show 15 ≠ 14 by decide) (show 15 ≠ 16 by decide) (show 15 ≠ 8 by decide))⟩
  · have run := trap_of (execBrk_eq f s) rfl h
    have breaks := State.takeTrap_break (s := { s with cur := none }) h.group h.split free fresh closed
      (r := (ctx (.brk f) s gid g p).early 16 p.mask) rfl
    refine ⟨fun named => ?_, fun unnamed => ?_⟩
    · exact gives_handled (run.trans (congrArg _ (breaks.trans (if_pos named))))
        (handles_enterHandler (s := { s with cur := none }) h.group h.split _)
    · obtain ⟨split, fmode, regs⟩ := goOn_keeps (s := { s with cur := none }) h.group h.split
      exact ⟨_, run.trans (congrArg _ (breaks.trans (if_neg (not_not.mpr unnamed)))), ⟨p.passes, split, rfl, rfl, rfl⟩, fmode,
        ⟨⟨regs.memory.mem, regs.memory.host, regs.memory.spad, regs.memory.tile, regs.memory.lines, regs.memory.unpub⟩,
          regs.groups, regs.regs, regs.rest⟩⟩

/-! ## The checks before an issue (R124, R278) -/

/-- Every form that is not an event is an effect that may issue. -/
theorem exec_issues (form : (view i).lay ≠ .event) : ∃ body, ∀ s, exec i s = issue i s body := by
  cases i
  any_goals exact absurd rfl form
  all_goals exact ⟨_, fun _ => rfl⟩

/-- The effect of a form of slot V raises no cause and waits for nothing. -/
theorem exec_effect (slot : (view i).slot = .v) :
    ∃ effect : Cx → State → State, ∀ s, exec i s = issue i s (fun c t => .ok (effect c t)) := by
  cases i
  all_goals cases slot
  all_goals exact ⟨_, fun _ => rfl⟩

/-- A form that stops before its issue. -/
theorem exec_of_stop (form : (view i).lay ≠ .event) (stop : begin_ i s = .stop t) : exec i s = .next t := by
  obtain ⟨body, e⟩ := exec_issues form
  rw [e, issue, stop]

theorem live_of_ready (ready : s.ready gid g p i = true) : s.live1 g p = true := by
  unfold State.ready State.ready4 at ready
  obtain ⟨⟨⟨⟨⟨⟨⟨⟨live, -⟩, -⟩, -⟩, -⟩, -⟩, -⟩, -⟩, -⟩ := by simpa only [Bool.and_eq_true] using ready
  exact live

/-- A split that is ready is in the middle of no form. -/
theorem wait_of_ready (ready : s.ready gid g p i = true) : p.wait = none := State.wait_of_live1 (live_of_ready ready)

section
variable (cur : s.cur = some (gid, p.born)) (found : Tbl.find s.groups gid = some g) (split : g.split? p.born = some p)
include cur found split

theorem begin_illegal (fresh : p.wait = none) (bad : illegalDetail i g.regs ≠ 0) : begin_ i s =
    .stop (State.takeTrap { s with cur := none } gid p.born ((ctx i s gid g p).early 1 p.mask (illegalDetail i g.regs))) := by
  unfold begin_
  simp only [cur, found, split, fresh]
  exact if_pos bad

theorem begin_unready (fresh : p.wait = none) (legal : illegalDetail i g.regs = 0) (busy : s.ready gid g p i = false) :
    begin_ i s = .stop { s with cur := none } := by
  unfold begin_
  simp only [cur, found, split, fresh, legal, busy, Bool.false_and, Bool.not_false, if_true]
  rfl

theorem begin_other {w : Wait} (waits : p.wait = some w) (other : w.insn ≠ i) : begin_ i s = .stop { s with cur := none } := by
  unfold begin_
  simp only [cur, found, split, waits]
  exact if_neg other

theorem begin_ready (legal : illegalDetail i g.regs = 0) (ready : s.ready gid g p i = true)
    (powered : slotPowered (s.die (dieOf g.core)) (view i).slot = true) (pays : s.canPay gid g p i = true) :
    begin_ i s = .go (ctx i s gid g p) (afterIssue i s gid g p) := by
  unfold begin_
  simp only [cur, found, split, wait_of_ready ready, legal, ready, powered, pays, ne_eq, not_true_eq_false, Bool.and_self,
    Bool.not_true, Bool.false_eq_true, if_false]
  rfl

end

/-! ## SCOREBOARD (R274) -/

/-- A register of the form in the window of an F-class writer is not settled. -/
theorem ctx_unsettled (check : g.fmode.getLsbD 15 = true) {h : Hazard} (mem : h ∈ g.hz) (fixed : h.fixed = true)
    (later : h.cyc < s.now g.core) (within : s.now g.core ≤ h.cyc + 3) (named : h.reg ∈ readsOf i ∨ h.reg ∈ writesOf i) :
    (ctx i s gid g p).unsettled = true := by
  have opens : h.open_ (s.now g.core) = true := by
    rw [Hazard.open_, fixed, decide_eq_true later, decide_eq_true within]; rfl
  have listed : (readsOf i ++ writesOf i).contains h.reg = true :=
    List.contains_iff_mem.mpr (List.mem_append.mpr named)
  exact Bool.and_eq_true_iff.mpr ⟨check, List.any_eq_true.mpr ⟨h, mem, Bool.and_eq_true_iff.mpr ⟨opens, listed⟩⟩⟩

/-- What an unsettled register leaves of an effect: SCOREBOARD, or a cause of a lower code. -/
theorem Cx.checked_unsettled {c : Cx} (open_ : c.unsettled = true) (res : Res) :
    ∃ r, c.checked res = .trap r ∧ (r = c.early 3 c.mask ∨ r.cause < 3) := by
  unfold Cx.checked
  rw [open_, Bool.not_true, if_neg Bool.false_ne_true]
  cases res with
  | ok u => exact ⟨_, rfl, .inl rfl⟩
  | hold => exact ⟨_, rfl, .inl rfl⟩
  | trap r =>
    dsimp only
    split
    next low => exact ⟨_, rfl, .inr low⟩
    · exact ⟨_, rfl, .inl rfl⟩

theorem Cx.checked_ok {c : Cx} (open_ : c.unsettled = true) (u : State) : c.checked (.ok u) = .trap (c.early 3 c.mask) := by
  unfold Cx.checked
  rw [open_, Bool.not_true, if_neg Bool.false_ne_true]

/-- An effect that the checks after it turn into a cause. -/
theorem issue_traps {body : Cx → State → Res} (go : begin_ i s = .go (ctx i s gid g p) (afterIssue i s gid g p))
    (raised : (ctx i s gid g p).checked (body (ctx i s gid g p) (afterIssue i s gid g p)) = .trap r) :
    issue i s body = .next (State.takeTrap { s with cur := none } gid p.born r) := by
  rw [issue, go]
  dsimp only
  rw [raised]
  rfl

/-- Settles O14: a cause that a handler takes writes its record; the checks before an issue stop it; an unsettled register raises
SCOREBOARD unless the effect raises a lower code. -/
theorem trapsAreTaken : Obligations.TrapsAreTaken := by
  refine ⟨fun s gid g p r found split free named page kill stop => ?_,
    fun i s gid g p form cur found split => ⟨fun fresh bad => ?_, fun fresh legal busy => ?_, fun w waits other => ?_⟩,
    fun i s gid g p form cur found split legal ready powered pays check ⟨h, mem, fixed, later, within, named⟩ => ?_⟩
  · have w := handles_takeTrap found split free named kill stop page
    dsimp only
    rw [w.trap]
    exact ⟨rfl, rfl, rfl, rfl, rfl, rfl, rfl, rfl, w.inh, ⟨_, w.split, rfl, rfl, rfl, rfl⟩, w.others, w.files.fmode, w.log,
      w.files.regs, w.regroups.memory, w.regroups.groups⟩
  · exact exec_of_stop form (begin_illegal cur found split fresh bad)
  · exact exec_of_stop form (begin_unready cur found split fresh legal busy)
  · exact exec_of_stop form (begin_other cur found split waits other)
  · have open_ : (ctx i s gid g p).unsettled = true := ctx_unsettled check mem fixed later within named
    have go := begin_ready cur found split legal ready powered pays
    refine ⟨fun slot => ?_, ?_⟩
    · obtain ⟨effect, e⟩ := exec_effect slot
      exact (e s).trans (issue_traps go (Cx.checked_ok open_ _))
    · obtain ⟨body, e⟩ := exec_issues form
      obtain ⟨r, raised, low⟩ := Cx.checked_unsettled open_ (body (ctx i s gid g p) (afterIssue i s gid g p))
      exact ⟨r, (e s).trans (issue_traps go raised), low⟩

end Sys2Proof.Safety
end

section
/-! SUPPORT. Splits of one number (R161, R382): a split that parks, and another of its number at the head of the WAIT list. The statement
ParkMergeAndYield does not ask that the splits of a group have different numbers. -/

namespace Sys2Proof.Machine

/-- The group of the load with three splits of one lane each: the first issues, the second has the first's number and waits, and the
third runs. -/
def bornTwice : State := State.reset.boot.modGroup 0 (fun g => { g with
  splits := [{ pc := 0x20000, mask := 1, stack := [3] }, { mask := 2, st := .wait }, { born := 1, mask := 4 }] })

/-- The split of bornTwice that issues. -/
def firstTwin : Split := { pc := 0x20000, mask := 1, stack := [3] }

/-- A rcv. -/
def plainRcv : Instr := .rcv { b := 0, a := 0, d := 0, x := 0, w := 0, s := false }

theorem bornTwice_issues : bornTwice.cur = some (0, firstTwin.born) ∧ Tbl.find bornTwice.groups 0 = some (bornTwice.group 0) ∧
    (bornTwice.group 0).split? firstTwin.born = some firstTwin ∧ illegalDetail plainRcv (bornTwice.group 0).regs = 0 ∧
    bornTwice.ready 0 (bornTwice.group 0) firstTwin plainRcv = true ∧
    slotPowered (bornTwice.die (dieOf (bornTwice.group 0).core)) (view plainRcv).slot = true ∧
    (bornTwice.group 0).fmode.getLsbD 15 = false ∧ bornTwice.canPay 0 (bornTwice.group 0) firstTwin plainRcv = true := by
  decide +kernel

theorem bornTwice_parts : (∀ q ∈ (bornTwice.group 0).splits, q.st ≠ .park) ∧
    (∃ q ∈ (bornTwice.group 0).splits, q.born ≠ firstTwin.born) ∧
    (bornTwice.group 0).mergeSet firstTwin &&& ~~~firstTwin.lanes ≠ 0 := by decide +kernel

/-- The state of the split that the group finds under the number of the one that rcv parks. -/
def parkedState : Host.Outcome State Fault Refusal → Option SplitState
  | .next t => ((t.group 0).split? firstTwin.born).map (·.st)
  | _ => none

/-- The head of the WAIT list is to enter RUN, and its number is that of the parked split. -/
theorem bornTwice_runs : parkedState (exec plainRcv bornTwice) = some .run := by decide +kernel

end Sys2Proof.Machine

namespace Sys2Proof.Safety

open Machine

theorem issues_bornTwice : Issues plainRcv bornTwice 0 (bornTwice.group 0) firstTwin := by
  obtain ⟨cur, group, split, legal, ready, powered, unchecked, pays⟩ := bornTwice_issues
  exact ⟨cur, group, split, legal, ready, powered, by rw [unchecked, Bool.false_and], pays⟩

/-- Refutes O12: a group finds a split by its number alone. In bornTwice the split that rcv parks shares its number with the head of the
WAIT list, so that the entry of the head into RUN takes the parked split there again. -/
theorem not_parkMergeAndYield : ¬ Obligations.ParkMergeAndYield := by
  unfold Obligations.ParkMergeAndYield
  rintro ⟨⟨park, -⟩, -⟩
  obtain ⟨unparked, other, open_⟩ := bornTwice_parts
  obtain ⟨t, ran, ⟨q, found, parked, -⟩, -⟩ := park _ plainRcv bornTwice 0 _ firstTwin (.inl rfl) issues_bornTwice unparked other open_
  have runs := bornTwice_runs
  rw [ran, parkedState, found, Option.map_some, parked] at runs
  exact absurd runs (by decide)

end Sys2Proof.Safety
end

section
/-! SUPPORT. Splits that sleep (R341, R347, R384): what each of their events does to a split, and the statement SleepersWake. -/

namespace Sys2Proof.Machine

namespace State

variable {s : State} {gid born : Nat} {g : Group} {p : Split} {w : Wait} (found : Tbl.find s.groups gid = some g)
  (split : g.split? born = some p)
include found split

/-! ## A wait (R347) -/

theorem wakeWait_idle (h : p.wait = none ∨ p.st ≠ .sleep) : s.wakeWait gid born = s := by
  unfold wakeWait
  simp only [found, split]
  cases wait : p.wait with
  | none => rfl
  | some w =>
    have awake : p.st ≠ .sleep := h.resolve_left (by rw [wait]; exact nofun)
    simp [awake]

section
variable (asleep : p.st = .sleep) (why : p.why = .cond) (resident : g.place = .resident) (waits : p.wait = some w)
include asleep why resident waits

theorem wakeWait_late (late : (g.lateCause p).isSome = true) : s.wakeWait gid born = s.stopWait gid born := by
  simp [wakeWait, found, split, waits, asleep, why, resident, late]

theorem wakeWait_turn (early : g.lateCause p = none) (turn : isWait w.insn = false) :
    s.wakeWait gid born = if s.struck g.core then s else { s with cur := some (gid, born) } := by
  simp [wakeWait, found, split, waits, asleep, why, resident, early, turn]

theorem wakeWait_try (early : g.lateCause p = none) (wait : isWait w.insn = true) :
    (∀ u, s.tryWait gid born g p w = .done u → s.wakeWait gid born = u) ∧
      (∀ u, s.tryWait gid born g p w = .pending u → s.wakeWait gid born = u) ∧
      (∀ r, s.tryWait gid born g p w = .trap r → s.wakeWait gid born = s.takeTrap gid born r) := by
  refine ⟨fun u h => ?_, fun u h => ?_, fun r h => ?_⟩
  all_goals simp [wakeWait, found, split, waits, asleep, why, resident, early, wait, h]

end

/-! ## Deadlines (R341, R384) -/

theorem promiseDue_eq (asleep : p.st = .sleep) (why : p.why = .promise) :
    s.promiseDue gid born = if p.deadline ≤ s.cycle then s.modSplit gid born (fun p => { p with st := .run }) else s := by
  simp [promiseDue, found, split, asleep, why]

theorem wakeSleep_due (resident : g.place = .resident) (due : s.sleepDue gid g p = true) :
    s.wakeSleep gid born = s.waitOver gid born := by
  simp [wakeSleep, found, split, resident, due]

theorem wakeSleep_early (early : s.sleepDue gid g p = false) : s.wakeSleep gid born = s := by
  simp [wakeSleep, found, split, early]

omit found split

theorem sleepDue_time (asleep : p.st = .sleep) (why : p.why = .time) : s.sleepDue gid g p = decide (p.deadline ≤ s.cycle) := by
  simp [sleepDue, asleep, why]

theorem sleepDue_idle (asleep : p.st = .sleep) (why : p.why = .idle) (alone : s.otherReady gid p.born = false) :
    s.sleepDue gid g p = true := by
  simp [sleepDue, asleep, why, alone]

end State

end Sys2Proof.Machine

namespace Sys2Proof.Safety

open Machine

variable {s : State} {gid born : Nat} {g : Group} {p : Split}

/-- A change of one split of a group, which keeps its number. -/
theorem modSplit_keeps (found : Tbl.find s.groups gid = some g) (split : g.split? born = some p) (f : Split → Split)
    (same : ∀ q, (f q).born = q.born) :
    ((s.modSplit gid born f).group gid).split? born = some (f p) ∧
      (∀ b, b ≠ born → ((s.modSplit gid born f).group gid).split? b = g.split? b) ∧ OnlyGroup gid s (s.modSplit gid born f) := by
  have group : (s.modSplit gid born f).group gid = g.modSplit born f := State.group_modGroup _ found
  rw [group]
  refine ⟨?_, fun b other => ?_, onlyGroup_modGroup ..⟩
  · rw [Group.split?_modSplit _ _ _ f same, if_pos rfl, split, Option.map_some]
  · rw [Group.split?_modSplit _ _ _ f same, if_neg (Ne.symm other)]

theorem execWaitWake_eq (gid born : Nat) (s : State) : exec (.waitWake gid born) s = .next (s.wakeWait gid born) := rfl

theorem execPromiseDeadline_eq (gid born : Nat) (s : State) : exec (.promiseDeadline gid born) s = .next (s.promiseDue gid born) := rfl

theorem execSleepDeadline_eq (gid born : Nat) (s : State) : exec (.sleepDeadline gid born) s = .next (s.wakeSleep gid born) := rfl

/-- A sleep that is over. -/
theorem gives_waitOver (found : Tbl.find s.groups gid = some g) (split : g.split? born = some p) (resident : g.place = .resident)
    (due : s.sleepDue gid g p = true) : Gives (.sleepDeadline gid born) s (fun t =>
      (t.group gid).split? born = some { p with st := .run, why := .awake, wait := none, mark := none, pc := p.pc + 4 } ∧
      (∀ b, b ≠ born → (t.group gid).split? b = g.split? b) ∧ OnlyGroup gid s t) :=
  ⟨_, congrArg Host.Outcome.next (State.wakeSleep_due found split resident due), modSplit_keeps found split _ (fun _ => rfl)⟩

/-- Settles O44: each event of a sleeping split ends its sleep, takes up its form or leaves it as its wait and its deadline say. -/
theorem sleepersWake : Obligations.SleepersWake := by
  intro gid born g p s found split
  refine ⟨fun w asleep why resident waits late => ?_, fun w asleep why resident waits early turn => ?_,
    fun w asleep why resident waits early wait => ?_, fun idle => ?_, fun asleep why past => ?_, fun asleep why future => ?_,
    fun asleep why resident past => ?_, fun asleep why future => ?_, fun asleep why resident alone => ?_⟩
  · exact congrArg _ (State.wakeWait_late found split asleep why resident waits late)
  · exact congrArg _ (State.wakeWait_turn found split asleep why resident waits early turn)
  · obtain ⟨done, pending, traps⟩ := State.wakeWait_try found split asleep why resident waits early wait
    exact ⟨fun u h => congrArg _ (done u h), fun u h => congrArg _ (pending u h), fun r h => congrArg _ (traps r h)⟩
  · exact congrArg _ (State.wakeWait_idle found split idle)
  · exact ⟨_, congrArg Host.Outcome.next ((State.promiseDue_eq found split asleep why).trans (if_pos past)),
      modSplit_keeps found split _ (fun _ => rfl)⟩
  · exact congrArg _ ((State.promiseDue_eq found split asleep why).trans (if_neg (Nat.not_le.mpr future)))
  · exact gives_waitOver found split resident ((State.sleepDue_time asleep why).trans (decide_eq_true past))
  · exact congrArg _ (State.wakeSleep_early found split
      ((State.sleepDue_time asleep why).trans (decide_eq_false (Nat.not_le.mpr future))))
  · obtain ⟨t, ran, own, -, only⟩ := gives_waitOver found split resident
      (State.sleepDue_idle asleep why ((State.split?_born split).symm ▸ alone))
    exact ⟨t, ran, own, only⟩

end Sys2Proof.Safety
end

section
/-! SUPPORT. The logbook of a resident group (R179, R180): what a change and the end of an entry do to the group, what the words of a
result do to its registers, and what a book-keeping step leaves of the rest of the machine. -/

namespace Sys2Proof.Machine

/-! ## Masks of one lane -/

theorem maskOf_single : ∀ l < 32, lanesOf (maskOf [l]) = [l] ∧ (maskOf [l]).getLsbD l = true ∧ maskOf [l] ≠ 0 := by decide

/-! ## Entries of a logbook -/

theorem Group.entry?_modEntry (g : Group) (id : Nat) {f : Entry → Entry} (same : ∀ e, (f e).id = e.id) :
    (g.modEntry id f).entry? id = (g.entry? id).map f := by
  have key : (fun e : Entry => e.id == id) ∘ (fun e => if e.id == id then f e else e) = fun e => e.id == id := by
    funext e
    dsimp only [Function.comp]
    split
    · rw [same]
    · rfl
  unfold modEntry entry?
  dsimp only
  rw [List.find?_map, key]
  cases found : g.log.find? (fun e => e.id == id) with
  | none => rfl
  | some e => rw [Option.map_some, Option.map_some, if_pos (by simpa using List.find?_some found)]

theorem Group.entry?_changed {g : Group} {id : Nat} {e : Entry} (found : g.entry? id = some e) (f : Entry → Entry)
    (same : ∀ e, (f e).id = e.id) : (g.modEntry id f).entry? id = some (f e) := by
  rw [entry?_modEntry g id same, found, Option.map_some]

theorem Group.entry?_congr {x y : Group} (log : x.log = y.log) (id : Nat) : x.entry? id = y.entry? id := by
  rw [entry?, log]
  rfl

theorem Group.entry?_freeEntry (g : Group) (id : Nat) : (g.freeEntry id).entry? id = none :=
  List.find?_eq_none.mpr fun e he => by simpa using (List.mem_filter.mp he).2

/-! ## Results in registers (R323) -/

/-- A group with the words of a result in consecutive lane registers of a lane, from a register on. -/
structure Delivers (g y : Group) (l d : Nat) (ws : List Nat) : Prop where
  words : ∀ j < ws.length, y.vReg (d + j) l = BitVec.ofNat 32 (ws.getD j 0)
  others : ∀ r i, r < 64 → i < 32 → ¬(i = l ∧ d ≤ r ∧ r < d + ws.length) → y.vReg r i = g.vReg r i
  s : y.s = g.s
  p : y.p = g.p
  splits : y.splits = g.splits

/-- Nothing is delivered. -/
theorem delivers_nil (g : Group) (l d : Nat) : Delivers g g l d [] := ⟨nofun, fun _ _ _ _ _ => rfl, rfl, rfl, rfl⟩

/-- The logbook does not matter, of the group before. -/
theorem Delivers.of_modEntry {g y : Group} {l d id : Nat} {f : Entry → Entry} {ws : List Nat} (h : Delivers (g.modEntry id f) y l d ws) :
    Delivers g y l d ws := ⟨h.words, h.others, h.s, h.p, h.splits⟩

section
variable {g y : Group} {l d : Nat} {ws : List Nat} (h : Delivers g y l d ws)
include h

/-- The logbook does not matter, of the group after. -/
theorem Delivers.modEntry (id : Nat) (f : Entry → Entry) : Delivers g (y.modEntry id f) l d ws := ⟨h.words, h.others, h.s, h.p, h.splits⟩

theorem Delivers.freeEntry (id : Nat) : Delivers g (y.freeEntry id) l d ws := ⟨h.words, h.others, h.s, h.p, h.splits⟩

end

theorem Delivers.snoc {g y : Group} {l d w : Nat} {ws : List Nat} (h : Delivers g y l d ws) (lane : l < 32) :
    Delivers g (y.setV (d + ws.length) l (BitVec.ofNat 32 w)) l d (ws ++ [w]) := by
  have reads (r i : Nat) (hi : i < 32) := Safety.vReg_setV y (d + ws.length) l r i (BitVec.ofNat 32 w) lane hi
  refine ⟨fun j hj => ?_, fun r i hr hi out => ?_, h.s, h.p, h.splits⟩
  · rw [List.length_append, List.length_singleton] at hj
    rw [reads _ _ lane]
    rcases Nat.lt_succ_iff_lt_or_eq.mp hj with old | rfl
    · rw [if_neg (by omega), h.words j old, List.getD_append _ _ _ _ old]
    · rw [if_pos ⟨rfl, rfl⟩, List.getD_append_right _ _ _ _ le_rfl, Nat.sub_self]
      rfl
  · rw [List.length_append, List.length_singleton] at out
    rw [reads r i hi, if_neg (by omega), h.others r i hr hi (by omega)]

theorem Group.deliver_snoc (g : Group) (e : Entry) (l : Nat) (ws : List Nat) (w : Nat) :
    g.deliver e l (ws ++ [w]) = (g.deliver e l ws).deliverWord e l ws.length (BitVec.ofNat 32 w) := by
  unfold deliver
  rw [List.length_append, List.length_singleton, List.range_succ, List.zip_append List.length_range, List.foldl_append]
  rfl

theorem Group.deliverWord_lane {e : Entry} {k : Nat} (whole : e.spoil = []) (room : e.dreg + k < 64) (g : Group) (l : Nat) (v : Word) :
    g.deliverWord e l k v = g.setV (e.dreg + k) l v := by
  unfold deliverWord
  rw [if_neg (by omega), if_neg (by omega), whole]
  rfl

/-- A result that no window spoils goes to its registers, and nothing else of the group changes. -/
theorem Group.deliver_lane {e : Entry} {l : Nat} (whole : e.spoil = []) (lane : l < 32) (g : Group) (ws : List Nat)
    (room : e.dreg + ws.length ≤ 64) :
    Delivers g (g.deliver e l ws) l e.dreg ws ∧ (g.deliver e l ws).place = g.place ∧ (g.deliver e l ws).log = g.log := by
  induction ws using List.reverseRecOn with
  | nil => exact ⟨delivers_nil .., rfl, rfl⟩
  | append_singleton ws w ih =>
    rw [List.length_append, List.length_singleton] at room
    obtain ⟨delivered, place, log⟩ := ih (by omega)
    rw [deliver_snoc, deliverWord_lane whole (by omega)]
    exact ⟨delivered.snoc lane, place, log⟩

/-! ## Entries of a resident group -/

namespace State

variable {s : State} {gid id : Nat} {g : Group} {e : Entry}

section
variable (found : Tbl.find s.groups gid = some g) (resident : g.place = .resident)
include found resident

/-- Only a saved group has a frame to keep in step. -/
theorem syncFrame_resident : s.syncFrame gid = s := by
  unfold syncFrame
  rw [found]
  dsimp only
  rw [resident]

theorem modEntry_resident (id : Nat) (f : Entry → Entry) : s.modEntry gid id f = s.modGroup gid (·.modEntry id f) :=
  syncFrame_resident (g := g.modEntry id f) (by rw [State.find_modGroup, if_pos rfl, found, Option.map_some]) resident

theorem freeEntry_resident (id : Nat) : s.freeEntry gid id = s.modGroup gid (·.freeEntry id) :=
  syncFrame_resident (g := g.freeEntry id) (by rw [State.find_modGroup, if_pos rfl, found, Option.map_some]) resident

end

theorem freeIfDone_open (found : Tbl.find s.groups gid = some g) (entry : g.entry? id = some e) (left : e.complete = false) :
    s.freeIfDone gid id = s := by
  unfold freeIfDone
  rw [State.group_of_find found, entry]
  dsimp only
  rw [left, if_neg Bool.false_ne_true]

theorem freeIfDone_complete (found : Tbl.find s.groups gid = some g) (entry : g.entry? id = some e) (ended : e.complete = true) :
    s.freeIfDone gid id = if e.cls = 1 then (s.freeEntry gid id).unrecord g.slice e.wmark.toNat else s.freeEntry gid id := by
  unfold freeIfDone
  rw [State.group_of_find found, entry]
  dsimp only
  rw [if_pos ended]

end State

end Sys2Proof.Machine

namespace Sys2Proof.Safety

open Machine

/-! ## Book-keeping -/

/-- A state with the memories and the requests to peers of another, in which a group is as given. -/
structure Booked (s t : State) (gid : Nat) (y : Group) : Prop where
  work : SameWork { s with groups := t.groups } t
  peers : t.m.peers = s.m.peers
  found : Tbl.find t.groups gid = some y

variable {s t : State} {gid id : Nat} {g y : Group} {e : Entry}

theorem booked_refl (found : Tbl.find s.groups gid = some g) : Booked s s gid g := ⟨⟨rfl, rfl, rfl, rfl, rfl⟩, rfl, found⟩

/-- The checkpoints alone take in what an entry delivered. -/
theorem syncHistory_aside (s : State) (gid : Nat) (e : Entry) : SameWork s (s.syncHistory gid e) ∧ (s.syncHistory gid e).m = s.m := by
  unfold State.syncHistory
  split
  · exact ⟨⟨rfl, rfl, rfl, rfl, rfl⟩, rfl⟩
  · exact ⟨⟨rfl, rfl, rfl, rfl, rfl⟩, rfl⟩

namespace Booked

theorem group (w : Booked s t gid y) : t.group gid = y := State.group_of_find w.found

theorem modGroup (w : Booked s t gid y) (f : Group → Group) : Booked s (t.modGroup gid f) gid (f y) :=
  ⟨⟨rfl, w.work.mem, w.work.host, w.work.spad, w.work.tile⟩, w.peers,
    by rw [State.find_modGroup, if_pos rfl, w.found, Option.map_some]⟩

/-- A change outside groups and memories. -/
theorem of_aside {u : State} (w : Booked s t gid y) (work : SameWork t u) (peers : u.m.peers = t.m.peers) : Booked s u gid y :=
  ⟨⟨rfl, work.mem.trans w.work.mem, work.host.trans w.work.host, work.spad.trans w.work.spad, work.tile.trans w.work.tile⟩,
    peers.trans w.peers, by rw [work.groups, w.found]⟩

theorem modEntry (w : Booked s t gid y) (resident : y.place = .resident) (f : Entry → Entry) :
    Booked s (t.modEntry gid id f) gid (y.modEntry id f) := by
  rw [State.modEntry_resident w.found resident]
  exact w.modGroup _

/-- The end of an entry whose lanes have all completed. -/
theorem freeIfDone (w : Booked s t gid y) (resident : y.place = .resident) (entry : y.entry? id = some e) (ended : e.complete = true) :
    Booked s (t.freeIfDone gid id) gid (y.freeEntry id) := by
  have freed := w.modGroup (·.freeEntry id)
  rw [State.freeIfDone_complete w.found entry ended, State.freeEntry_resident w.found resident]
  split
  · exact freed.of_aside ⟨rfl, rfl, rfl, rfl, rfl⟩ rfl
  · exact freed

theorem syncHistory (w : Booked s t gid y) (e : Entry) : Booked s (t.syncHistory gid e) gid y :=
  w.of_aside (syncHistory_aside t gid e).1 (congrArg Module.peers (syncHistory_aside t gid e).2)

end Booked

end Sys2Proof.Safety
end

section
/-! SUPPORT. Loads and stores of one lane (R323, R324): the piece at its place, the step of its entry, and what the step leaves. -/

namespace Sys2Proof.Machine

theorem and_not_zero (m : Word) : m &&& ~~~(0 : Word) = m := by
  rw [show ~~~(0 : Word) = BitVec.allOnes 32 by decide, BitVec.and_allOnes]

/-- An entry that has left its partition. -/
def Entry.leaves (e : Entry) : Entry := { e with sent := true, replay := false }

/-- An entry of which one more lane is done. -/
def Entry.ends (l : Nat) (e : Entry) : Entry := { e with done := e.done ||| e.laneBits l }

/-- An entry that stands for the access of one piece by one lane, none of which has been done. -/
structure Entry.Single (e : Entry) (l : Nat) (a : Acc) : Prop where
  lane : l < 32
  mask : e.mask = maskOf [l]
  done : e.done = 0
  perf : e.perf = 0
  one : e.one = false
  acc : e.acc = [a]
  own : a.lane = l
  off : a.off = 0

namespace Entry.Single

variable {e : Entry} {l : Nat} {a : Acc} (h : e.Single l a)
include h

theorem leaves : e.leaves.Single l a := ⟨h.lane, h.mask, h.done, h.perf, h.one, h.acc, h.own, h.off⟩

theorem pieces : lanePieces e.acc l = [a] := by
  rw [h.acc, lanePieces, List.filter_cons, if_pos (beq_iff_eq.mpr h.own)]
  rfl

theorem laneBits : e.laneBits l = e.mask := by
  rw [Entry.laneBits, h.one, if_neg Bool.false_ne_true, h.mask]

theorem todo (asked : e.asked = 0) : e.todo = [l] := by
  obtain ⟨lanes, -, -⟩ := maskOf_single l h.lane
  unfold Entry.todo
  rw [h.done, h.perf, asked, h.one, h.mask]
  simp only [BitVec.or_self, Bool.false_eq_true, if_false]
  rw [and_not_zero, lanes]

/-- With its lane done the entry is complete. -/
theorem ends_complete : (e.ends l).complete = true := by
  have over_ : e.mask &&& ~~~(e.done ||| e.laneBits l) = 0 := by
    rw [h.laneBits, h.done]
    simp
  exact beq_iff_eq.mpr over_

theorem incomplete : e.complete = false := by
  obtain ⟨-, -, some_⟩ := maskOf_single l h.lane
  rw [Entry.complete, h.done, and_not_zero, h.mask]
  exact beq_eq_false_iff_ne.mpr some_

end Entry.Single

/-- A load of a piece may be performed, at a place of this module, and finds bytes there. -/
structure State.ReadsHere (s : State) (g : Group) (a : Acc) (bs : List Byte) : Prop where
  near : a.remote = false
  room : s.evictOk g false a = true
  owned : s.ctlOwner g a = true
  clean : s.readsPoison g a = none
  bytes : s.readLoc g a.loc a.size = bs
  home : ∀ sc, s.homeRead g sc a.loc a.size = bs
  still : ∀ (t : State) gid h, t.touchLoc gid h a.loc = t

namespace State

variable {s : State} {gid l pa : Nat} {g : Group} {e : Entry} {a : Acc} {bs : List Byte}

theorem readsHere_home (loc : a.loc = .home pa 2) (owner : s.owner (pa / 65536) = g.slice) (clean : s.poisonIn pa a.size = none) :
    s.ReadsHere g a (s.memBytes pa a.size) := by
  constructor <;> intros
  · simp [Acc.remote, loc]
  · simp [evictOk, loc]
  · simp [ctlOwner, loc, owner]
  · simp [readsPoison, loc, clean]
  · simp [readLoc, loc]
  · simp [homeRead, inL1, loc]
  · simp [touchLoc, loc]

theorem readsHere_host (loc : a.loc = .host pa) : s.ReadsHere g a (s.hostBytes pa a.size) := by
  constructor <;> intros
  · simp [Acc.remote, loc]
  · simp [evictOk, loc]
  · simp [ctlOwner, loc]
  · simp [readsPoison, locPoison, loc]
  · simp [readLoc, loc]
  · simp [homeRead, inL1, readLoc, loc]
  · simp [touchLoc, loc]

/-! ## Loads -/

theorem loadDatum_here (h : e.Single l a) (reads : s.ReadsHere g a bs) : s.loadDatum g e l = ofLe bs := by
  unfold loadDatum
  rw [h.pieces, List.map_singleton, List.foldr_cons, List.foldr_nil, reads.near, if_neg Bool.false_ne_true, h.off]
  split
  · rw [reads.home]; omega
  · rw [reads.bytes]; omega

/-- The load of a lane whose piece is at hand. -/
theorem loadLane_here (found : Tbl.find s.groups gid = some g) (entry : g.entry? e.id = some e)
    (h : e.Single l a) (reads : s.ReadsHere g a bs)
    (place : (g.deliver e l (loadWords e.instr (ofLe bs))).place = .resident) :
    s.loadLane gid e.id l = s.modGroup gid (fun g => (g.deliver e l (loadWords e.instr (ofLe bs))).modEntry e.id (Entry.ends l)) := by
  unfold loadLane loadHere
  rw [State.group_of_find found]
  dsimp only
  rw [entry]
  dsimp only
  rw [h.pieces, loadDatum_here h reads]
  simp only [List.isEmpty_cons, List.any_cons, List.any_nil, List.all_cons, List.all_nil, List.findSome?_cons, List.findSome?_nil,
    List.foldl_cons, List.foldl_nil, reads.near, reads.room, reads.owned, reads.clean, reads.still, Bool.or_self, Bool.and_self,
    Bool.not_true, Bool.false_eq_true, if_false, ite_self]
  exact syncFrame_resident (g := (g.deliver e l (loadWords e.instr (ofLe bs))).modEntry e.id (Entry.ends l))
    (by rw [State.find_modGroup, if_pos rfl, found, Option.map_some]; rfl) place

end State

/-! ## Entries carried forward (R179) -/

namespace State

variable {s : State} {gid : Nat} {g : Group} {e : Entry} (found : Tbl.find s.groups gid = some g) (entry : g.entry? e.id = some e)
include found entry

theorem entryDone_eq : s.entryDone gid e.id = (s.entryStep gid e.id).syncHistory gid e := by
  unfold entryDone
  rw [found, Option.bind_some, entry]

theorem entryStep_waits (kind : e.kind = 1) (may : s.entryMay g e = false) : s.entryStep gid e.id = s := by
  simp [entryStep, found, entry, kind, may]

theorem entryStep_load (kind : e.kind = 1) (may : s.entryMay g e = true) :
    s.entryStep gid e.id = (s.modEntry gid e.id Entry.leaves).loadStep gid e := by
  unfold entryStep
  simp only [found, entry, kind, may, Nat.reduceEqDiff, Bool.or_self, Bool.not_true, Bool.false_eq_true, decide_false, if_false]
  rfl

theorem entryStep_store (kind : e.kind = 2) (may : s.entryMay g e = true) :
    s.entryStep gid e.id = (s.modEntry gid e.id Entry.leaves).storeStep gid e := by
  unfold entryStep
  simp only [found, entry, kind, may, Nat.reduceEqDiff, Bool.or_self, Bool.not_true, Bool.false_eq_true, decide_false, if_false]
  rfl

end State

end Sys2Proof.Machine

namespace Sys2Proof.Safety

open Machine

variable {s t : State} {gid l pa : Nat} {g y : Group} {e : Entry} {a : Acc} {bs : List Byte}

/-! ## Loads (R323) -/

theorem execEntryComplete_eq (gid id : Nat) (s : State) : exec (.entryComplete gid id) s = .next (s.entryDone gid id) := rfl

/-- A load of one lane whose piece is at hand. -/
theorem gives_load (found : Tbl.find s.groups gid = some g) (resident : g.place = .resident) (entry : g.entry? e.id = some e)
    (h : e.Single l a) (whole : e.spoil = []) (kind : e.kind = 1) (asked : e.asked = 0) (may : s.entryMay g e = true)
    (reads : (s.modGroup gid (·.modEntry e.id Entry.leaves)).ReadsHere (g.modEntry e.id Entry.leaves) a bs)
    (room : e.dreg + (loadWords e.instr (ofLe bs)).length ≤ 64) :
    Gives (.entryComplete gid e.id) s (fun t => ∃ y, Booked s t gid y ∧ Delivers g y l e.dreg (loadWords e.instr (ofLe bs)) ∧
      y.entry? e.id = none) := by
  have sent := (booked_refl found).modGroup (·.modEntry e.id Entry.leaves)
  have left := Group.entry?_changed entry Entry.leaves (fun _ => rfl)
  obtain ⟨delivered, place, log⟩ := Group.deliver_lane (e := e.leaves) whole h.lane (g.modEntry e.id Entry.leaves)
    (loadWords e.instr (ofLe bs)) room
  have resident' := place.trans resident
  have loads := State.loadLane_here sent.found left h.leaves reads resident'
  have ended := sent.modGroup (fun g => (g.deliver e.leaves l (loadWords e.instr (ofLe bs))).modEntry e.id (Entry.ends l))
  have entry' := Group.entry?_changed ((Group.entry?_congr log e.id).trans left) (Entry.ends l) (fun _ => rfl)
  have freed := (ended.freeIfDone resident' entry' h.leaves.ends_complete).syncHistory e
  have steps : s.entryDone gid e.id = (((s.modGroup gid (·.modEntry e.id Entry.leaves)).modGroup gid (fun g =>
      (g.deliver e.leaves l (loadWords e.instr (ofLe bs))).modEntry e.id (Entry.ends l))).freeIfDone gid e.id).syncHistory gid e := by
    rw [State.entryDone_eq found entry, State.entryStep_load found entry kind may, State.loadStep, h.todo asked, List.foldl_cons,
      List.foldl_nil, State.modEntry_resident found resident]
    exact congrArg (fun t => (t.freeIfDone gid e.id).syncHistory gid e) loads
  have gone := Group.entry?_freeEntry
    (((g.modEntry e.id Entry.leaves).deliver e.leaves l (loadWords e.instr (ofLe bs))).modEntry e.id (Entry.ends l)) e.id
  exact ⟨_, (execEntryComplete_eq ..).trans (congrArg Host.Outcome.next steps), _, freed,
    (delivered.of_modEntry.modEntry ..).freeEntry _, gone⟩

end Sys2Proof.Safety
end

section
/-! SUPPORT. Stores of one lane (R324): the piece at its place, the step of its entry, and what the step leaves. -/

namespace Sys2Proof.Machine

/-- An entry of which one more lane has been performed: it is done, too, unless the lane waits for a publication. -/
def Entry.stored (waits : Bool) (l : Nat) (e : Entry) : Entry :=
  { e with perf := e.perf ||| e.laneBits l, done := if waits then e.done else e.done ||| e.laneBits l }

theorem Entry.Single.not_behind {e : Entry} {l : Nat} {a : Acc} (h : e.Single l a) (ps : List Acc) : e.behind l ps = false := by
  simp [Entry.behind, h.acc, h.own]

/-- A store of a piece may be performed, at a place of this module. -/
structure State.WritesHere (s : State) (g : Group) (e : Entry) (a : Acc) : Prop where
  near : a.remote = false
  room : s.evictOk g true a = true
  owned : s.ctlOwner g a = true
  clean : s.storePoison g e a = none

namespace State

variable {s : State} {gid l pa : Nat} {g : Group} {e : Entry} {a : Acc}

/-! ## Poison -/

theorem not_poisoned {n : Nat} (some_ : n ≠ 0) (clean : s.poisonIn pa n = none) : lineNo pa ∉ s.m.poison := by
  unfold poisonIn at clean
  split at clean
  next bare =>
    rw [List.isEmpty_iff.mp (Bool.and_eq_true_iff.mp bare).1]
    exact List.not_mem_nil
  next =>
    have first := List.find?_eq_none.mp clean (max pa ((pa / 8 + 0) * 8))
      (List.mem_map.mpr ⟨0, List.mem_range.mpr (by omega), rfl⟩)
    rw [Nat.max_eq_left (by omega), poisoned, Bool.or_eq_true, not_or, List.contains_iff_mem] at first
    exact first.1

/-! ## Places -/

theorem writesHere_home (loc : a.loc = .home pa 2) (owner : s.owner (pa / 65536) = g.slice) (some_ : a.size ≠ 0)
    (clean : s.poisonIn pa a.size = none) : s.WritesHere g e a := by
  constructor
  · simp [Acc.remote, loc]
  · simp [evictOk, loc]
  · simp [ctlOwner, loc, owner]
  · simp [storePoison, loc, not_poisoned some_ clean, clean]

theorem writesHere_host (loc : a.loc = .host pa) : s.WritesHere g e a := by
  constructor
  · simp [Acc.remote, loc]
  · simp [evictOk, loc]
  · simp [ctlOwner, loc]
  · simp [storePoison, loc]

theorem putPiece_home (loc : a.loc = .home pa 2) :
    ∃ m, s.putPiece gid g a = { s.setMem pa (leBytes a.size a.v) with m := m } := by
  obtain ⟨m, published⟩ := s.publishBytes_whole pa (leBytes a.size a.v)
  have written : s.writeLoc gid g a.loc a.priv (leBytes a.size a.v) = { s.setMem pa (leBytes a.size a.v) with m := m } := by
    rw [← published, loc]
    rfl
  unfold putPiece
  dsimp only
  rw [written, loc]
  unfold clearPiece
  rw [loc]
  dsimp only [Loc.pa?]
  split
  · exact ⟨_, rfl⟩
  · split <;> exact ⟨_, rfl⟩

theorem putPiece_host (loc : a.loc = .host pa) : s.putPiece gid g a = s.setHost pa (leBytes a.size a.v) := by
  unfold putPiece clearPiece
  rw [loc]
  exact ite_self _

/-- The store of a lane whose place is at hand. -/
theorem storeLane_here (found : Tbl.find s.groups gid = some g) (entry : g.entry? e.id = some e) (h : e.Single l a)
    (writes : s.WritesHere g e a) :
    s.storeLane gid e.id l = (s.putPiece gid g a).modEntry gid e.id (Entry.stored (publishable a) l) := by
  unfold storeLane
  rw [State.group_of_find found]
  dsimp only
  rw [entry]
  dsimp only
  rw [h.pieces]
  have own : [a].filter (fun a => !a.remote) = [a] := by rw [List.filter_singleton, writes.near]; rfl
  rw [own, h.not_behind]
  simp only [List.isEmpty_cons, List.any_cons, List.any_nil, List.all_cons, List.all_nil, List.findSome?_cons, List.findSome?_nil,
    List.foldl_cons, List.foldl_nil, writes.near, writes.room, writes.owned, writes.clean, Bool.or_false, Bool.and_self,
    Bool.not_true, Bool.false_eq_true, if_false]
  have stays : (s.putPiece gid g a).sendLane gid g e [a] = s.putPiece gid g a := by
    rw [sendLane, List.filter_singleton, writes.near]; rfl
  rw [stays]
  rfl

end State

end Sys2Proof.Machine

namespace Sys2Proof.Safety

open Machine

variable {s t u : State} {gid l pa : Nat} {g y : Group} {e : Entry} {a : Acc}

/-- A store of one lane whose place is at hand: from the state with the piece written, only the books change. -/
theorem gives_store (found : Tbl.find s.groups gid = some g) (resident : g.place = .resident) (entry : g.entry? e.id = some e)
    (h : e.Single l a) (kind : e.kind = 2) (asked : e.asked = 0) (may : s.entryMay g e = true)
    (writes : (s.modGroup gid (·.modEntry e.id Entry.leaves)).WritesHere (g.modEntry e.id Entry.leaves) e.leaves a)
    (put : (s.modGroup gid (·.modEntry e.id Entry.leaves)).putPiece gid (g.modEntry e.id Entry.leaves) a = u)
    (groups : u.groups = (s.modGroup gid (·.modEntry e.id Entry.leaves)).groups) :
    Gives (.entryComplete gid e.id) s (fun t => ∃ y, Booked u t gid y ∧ Delivers g y l e.dreg [] ∧
      (publishable a = false → y.entry? e.id = none)) := by
  have sent := (booked_refl found).modGroup (·.modEntry e.id Entry.leaves)
  have left := Group.entry?_changed entry Entry.leaves (fun _ => rfl)
  have stores := State.storeLane_here sent.found left h.leaves writes
  have performed : Booked u (u.modEntry gid e.id (Entry.stored (publishable a) l)) gid
      ((g.modEntry e.id Entry.leaves).modEntry e.id (Entry.stored (publishable a) l)) :=
    (booked_refl (g := g.modEntry e.id Entry.leaves) (by rw [groups]; exact sent.found)).modEntry resident _
  have entry' := Group.entry?_changed left (Entry.stored (publishable a) l) (fun _ => rfl)
  have steps : s.entryDone gid e.id =
      ((u.modEntry gid e.id (Entry.stored (publishable a) l)).freeIfDone gid e.id).syncHistory gid e := by
    rw [State.entryDone_eq found entry, State.entryStep_store found entry kind may, State.storeStep, h.todo asked, List.foldl_cons,
      List.foldl_nil, State.modEntry_resident found resident]
    rw [put] at stores
    exact congrArg (fun t => (t.freeIfDone gid e.id).syncHistory gid e) stores
  have kept := ((delivers_nil g l e.dreg).modEntry e.id Entry.leaves).modEntry e.id (Entry.stored (publishable a) l)
  have run := (execEntryComplete_eq gid e.id s).trans (congrArg Host.Outcome.next steps)
  cases waits : publishable a with
  | true =>
    rw [waits] at performed entry' kept run
    rw [State.freeIfDone_open performed.found entry' h.incomplete] at run
    exact ⟨_, run, _, performed.syncHistory e, kept, nofun⟩
  | false =>
    rw [waits] at performed entry' kept run
    have freed := (performed.freeIfDone resident entry' h.ends_complete).syncHistory e
    exact ⟨_, run, _, freed, kept.freeEntry e.id, fun _ => Group.entry?_freeEntry _ _⟩

end Sys2Proof.Safety
end

section
/-! SUPPORT. Atomics of one lane at their home (R183, R331, R348). -/

namespace Sys2Proof.Machine

namespace State

variable {s : State} {gid l pa mt home : Nat} {g : Group} {e : Entry} {a : Acc}

theorem window?_record (s : State) (mod owner wm lane v : Nat) : (s.record mod owner wm lane v).window? mod owner wm lane = some v := by
  simp [record, window?]

/-- Where the last atomics on some bytes were at the same home, the bytes of the next are not mixed (R212). -/
theorem mixHomes_same {bs : List Byte}
    (same : ∀ b h, pa ≤ b → b < pa + bs.length → Tbl.find s.m.atomAt b = some h → h = home) :
    ∃ m, s.mixHomes home (.home pa mt) bs = ({ s with m := m }, bs) := by
  have unmixed : (List.range bs.length).any
      (fun i => match Tbl.find s.m.atomAt (pa + i) with | some h => h != home | none => false) = false := by
    refine List.any_eq_false.mpr fun i hi => ?_
    split
    next h found => simp [same _ h (Nat.le_add_right ..) (by have := List.mem_range.mp hi; omega) found]
    · exact Bool.false_ne_true
  refine ⟨_, Prod.ext rfl ?_⟩
  exact if_neg (Bool.eq_false_iff.mp unmixed)

/-- An operation on uncached device memory is written at its controller. -/
theorem homeWrite_home {bs : List Byte} {sc : Nat}
    (same : ∀ b h, pa ≤ b → b < pa + bs.length → Tbl.find s.m.atomAt b = some h → h = 1) :
    ∃ m, s.homeWrite gid g sc (.home pa 2) bs = { s.setMem pa bs with m := m } := by
  obtain ⟨m, mix⟩ := mixHomes_same (mt := 2) same
  obtain ⟨m', published⟩ := publishBytes_whole { s with m := m } pa bs
  refine ⟨m', ?_⟩
  have controller : s.homeOf g sc (.home pa 2) = 1 := rfl
  unfold homeWrite
  rw [controller, mix]
  exact published

/-- The atomics and reductions. -/
def isAtomic (i : Instr) : Prop := ∃ f, i = .atomA f ∨ i = .atomB f ∨ i = .atomC f ∨ i = .red f

theorem homeOp_atomic (h : e.Single l a) (atomic : isAtomic e.instr) (kind : e.kind = 6) (loc : a.loc = .home pa 2) :
    s.homeOp gid g e l = (s.homeWrite gid g (effScope e.sc a.loc) (.home pa 2)
      (leBytes a.size (atomNew e.instr (ofLe (s.memBytes pa a.size)) a.v a.v2)), ofLe (s.memBytes pa a.size)) := by
  obtain ⟨f, form⟩ := atomic
  unfold homeOp
  rw [h.pieces]
  rcases form with i | i | i | i
  all_goals
    rw [i]
    dsimp only
    rw [if_pos kind, loc]
    rfl

/-- The request of a lane at its home, whose piece is at hand: the home performs it unless it has its answer. -/
theorem homeStep_eq (found : Tbl.find s.groups gid = some g) (h : e.Single l a) (asked : e.asked = 0) (rel : e.rel = false)
    (kind : e.kind = 6) (loc : a.loc = .home pa 2) (owner : s.owner (pa / 65536) = g.slice) (clean : s.poisonIn pa a.size = none) :
    s.homeStep gid e l = if (s.answer g e l).isSome then s
      else (s.homeOp gid g e l).1.record ownModule g.slice e.wmark.toNat l (s.homeOp gid g e l).2 := by
  have turn : s.laneTurn g e l = true := by simp [laneTurn, h.acc, h.own]
  have leads : e.leads l = true := by simp [Entry.leads, h.acc, h.own]
  have released : g.entryReleased e = true := by simp [Group.entryReleased, rel]
  have due : (e.mask &&& ~~~e.done &&& ~~~e.asked).getLsbD l = true := by
    rw [h.done, asked, and_not_zero, and_not_zero, h.mask]
    exact (maskOf_single l h.lane).2.1
  have near : a.remote = false := by simp [Acc.remote, loc]
  have silent : e.stores = false := by simp [Entry.stores, kind]
  have outside : s.inL1 g e.sc a.loc = false := by simp [inL1, loc]
  have room : s.evictOk g false a true = true := by simp [evictOk, loc]
  have owned : s.ctlOwner g a = true := by simp [ctlOwner, loc, owner]
  have sound : s.locPoison a.loc a.size = none := by simp [locPoison, loc, clean]
  have lane : e.winLane l = l := by simp [Entry.winLane, h.one]
  unfold homeStep
  rw [State.group_of_find found, h.pieces]
  simp only [turn, leads, released, due, near, silent, rel, outside, room, owned, sound, lane, List.any_cons, List.any_nil, List.all_cons,
    List.all_nil, List.findSome?_cons, List.findSome?_nil, Bool.not_true, Bool.not_false, Bool.or_self, Bool.and_self, Bool.false_and,
    Bool.false_eq_true, if_false]

theorem homeRequest_eq (found : Tbl.find s.groups gid = some g) (entry : g.entry? e.id = some e) (kind : e.kind = 6)
    (may : s.entryMay g e = true) : s.homeRequest gid e.id l = (s.modEntry gid e.id Entry.leaves).homeStep gid e l := by
  unfold homeRequest
  simp only [found, entry, kind, may, Nat.reduceEqDiff, Bool.not_true, Bool.false_eq_true, if_false, decide_true, decide_false,
    Bool.or_true, Bool.true_or, if_true]
  rfl

end State

end Sys2Proof.Machine

namespace Sys2Proof.Safety

open Machine

variable {s : State} {gid l pa : Nat} {g : Group} {e : Entry} {a : Acc}

theorem Booked.record {t : State} {y : Group} (w : Booked s t gid y) (mod owner wm lane v : Nat) :
    Booked s (t.record mod owner wm lane v) gid y := w.of_aside ⟨rfl, rfl, rfl, rfl, rfl⟩ rfl

theorem execI1HomeRequest_eq (gid id l : Nat) (s : State) : exec (.i1HomeRequest gid id l) s = .next (s.homeRequest gid id l) := rfl

section
variable (found : Tbl.find s.groups gid = some g) (resident : g.place = .resident) (entry : g.entry? e.id = some e)
  (h : e.Single l a) (asked : e.asked = 0) (rel : e.rel = false) (kind : e.kind = 6) (may : s.entryMay g e = true)
  (loc : a.loc = .home pa 2) (owner : s.owner (pa / 65536) = g.slice) (clean : s.poisonIn pa a.size = none)
include found resident entry h asked rel kind may loc owner clean

/-- The step of a request at a home, once its entry has left its partition. -/
theorem homeRequest_step : s.homeRequest gid e.id l =
    let u := s.modGroup gid (·.modEntry e.id Entry.leaves)
    let r := u.homeOp gid (g.modEntry e.id Entry.leaves) e l
    if (s.answer g e l).isSome then u else r.1.record ownModule g.slice e.wmark.toNat l r.2 := by
  have sent := (booked_refl found).modGroup (·.modEntry e.id Entry.leaves)
  rw [State.homeRequest_eq found entry kind may, State.modEntry_resident found resident]
  exact State.homeStep_eq (g := g.modEntry e.id Entry.leaves) sent.found h asked rel kind loc owner clean

/-- A request repeated finds the answer. -/
theorem gives_answered (answered : s.answer g e l ≠ none) : Gives (.i1HomeRequest gid e.id l) s (fun t =>
    t.m = s.m ∧ ∃ y, Booked s t gid y ∧ Delivers g y l e.dreg []) := by
  have sent := (booked_refl found).modGroup (·.modEntry e.id Entry.leaves)
  have step := (homeRequest_step found resident entry h asked rel kind may loc owner clean).trans
    (if_pos (Option.isSome_iff_ne_none.mpr answered))
  exact ⟨_, (execI1HomeRequest_eq ..).trans (congrArg _ step), rfl, _, sent, (delivers_nil ..).modEntry ..⟩

/-- An atomic is performed at its home, which keeps its answer. -/
theorem gives_atomic (atomic : State.isAtomic e.instr)
    (same : ∀ b h, pa ≤ b → b < pa + a.size → Tbl.find s.m.atomAt b = some h → h = 1) (unanswered : s.answer g e l = none) :
    let old := ofLe (s.memBytes pa a.size)
    Gives (.i1HomeRequest gid e.id l) s (fun t => t.window? ownModule g.slice e.wmark.toNat l = some old ∧
      ∃ m y, Booked { s.setMem pa (leBytes a.size (atomNew e.instr old a.v a.v2)) with m := m } t gid y ∧
        Delivers g y l e.dreg []) := by
  have sent := (booked_refl found).modGroup (·.modEntry e.id Entry.leaves)
  have step := (homeRequest_step found resident entry h asked rel kind may loc owner clean).trans
    (if_neg (by rw [unanswered]; exact Bool.false_ne_true))
  obtain ⟨m, written⟩ := State.homeWrite_home (s := s.modGroup gid (·.modEntry e.id Entry.leaves)) (gid := gid)
    (g := g.modEntry e.id Entry.leaves) (pa := pa) (sc := effScope e.sc a.loc)
    (bs := leBytes a.size (atomNew e.instr (ofLe (s.memBytes pa a.size)) a.v a.v2)) (by rw [leBytes_length]; exact same)
  rw [State.homeOp_atomic h atomic kind loc] at step
  have performed := step.trans (congrArg (fun t => t.record ownModule g.slice e.wmark.toNat l (ofLe (s.memBytes pa a.size))) written)
  have books := (booked_refl (s := { (s.modGroup gid (·.modEntry e.id Entry.leaves)).setMem pa
    (leBytes a.size (atomNew e.instr (ofLe (s.memBytes pa a.size)) a.v a.v2)) with m := m }) sent.found).record
      ownModule g.slice e.wmark.toNat l (ofLe (s.memBytes pa a.size))
  exact ⟨_, (execI1HomeRequest_eq ..).trans (congrArg _ performed), State.window?_record .., m, _,
    ⟨books.work, books.peers, books.found⟩, (delivers_nil ..).modEntry ..⟩

end

end Sys2Proof.Safety
end

section
/-! SUPPORT. Answers and the silence of a peer (R48, R49): a lane of one piece completes, or its entry fails. -/

namespace Sys2Proof.Machine

/-- An entry of which some lanes are done. -/
def Entry.takes (lanes : Word) (e : Entry) : Entry := { e with done := e.done ||| lanes }

/-- An entry with a part of a lane's datum. -/
def Entry.gets (key v : Nat) (e : Entry) : Entry := { e with got := Tbl.put e.got key v }

/-- An entry some lanes of which have failed: the lowest cause wins (R168). -/
def Entry.fails (cause info : Nat) (lanes : Word) (e : Entry) : Entry :=
  if !e.failed || cause < e.cause then { e with failed := true, cause := cause, info := info, failMask := lanes }
  else if cause = e.cause then { e with failMask := e.failMask ||| lanes }
  else e

/-- The mark of a failure without an address of its own, as lateFail sets it. -/
theorem Entry.fails_eq (cause info : Nat) (lanes : Word) : (fun e : Entry =>
    if !e.failed || cause < e.cause then
      { e with failed := true, cause := cause, info := info, failMask := lanes, addr := if (0 : DWord) = 0 then e.addr else 0 }
    else if cause = e.cause then { e with failMask := e.failMask ||| lanes }
    else e) = Entry.fails cause info lanes := rfl

theorem Entry.takes_eq (lanes : Word) : (fun e : Entry => { e with done := e.done ||| lanes }) = Entry.takes lanes := rfl

theorem Entry.gets_eq (key v : Nat) : (fun e : Entry => { e with got := Tbl.put e.got key v }) = Entry.gets key v := rfl

theorem Entry.fails_id (cause info : Nat) (lanes : Word) (e : Entry) : (e.fails cause info lanes).id = e.id := by
  unfold fails
  split
  · rfl
  · split <;> rfl

theorem Entry.fails_first {e : Entry} (sound : e.failed = false) (cause info : Nat) (lanes : Word) :
    e.fails cause info lanes = { e with failed := true, cause := cause, info := info, failMask := lanes } := by
  rw [fails, sound]
  rfl

theorem Entry.fails_mask {e : Entry} (sound : e.failed = false) (cause info : Nat) (lanes : Word) :
    (e.fails cause info lanes).mask = e.mask := by rw [fails_first sound]

namespace State

variable {s : State} {gid l v : Nat} {g : Group} {e : Entry} {a : Acc} {q : PeerReq}

/-! ## Failures (R168) -/

/-- A failure that a live lane can take marks its entry and nothing else. -/
theorem lateFail_live (found : Tbl.find s.groups gid = some g) (resident : g.place = .resident) (entry : g.entry? e.id = some e)
    (sound : e.failed = false) (live : e.mask &&& g.live ≠ 0) (cause info : Nat) (lanes : Word) :
    s.lateFail gid e.id cause info lanes = s.modGroup gid (·.modEntry e.id (Entry.fails cause info lanes)) := by
  have failed := Group.entry?_changed entry (Entry.fails cause info lanes) (Entry.fails_id cause info lanes)
  have group := State.group_modGroup (·.modEntry e.id (Entry.fails cause info lanes)) found
  unfold lateFail
  rw [Entry.fails_eq, modEntry_resident found resident]
  dsimp only
  rw [group, failed]
  dsimp only
  rw [Entry.fails_mask sound]
  exact if_pos (bne_iff_ne.mpr live)

/-! ## Answers (R48) -/

/-- The answer of a request finds the entry that has asked. -/
theorem awaits_entry (found : Tbl.find s.groups q.gid = some g) (resident : g.place = .resident) (entry : g.entry? q.ent = some e)
    (late : q.late = false) (num : q.num = e.num) (asked : e.asked.getLsbD q.lane = true) (done : e.done = 0) :
    s.awaits q = some (g, e) := by
  have open_ : e.done.getLsbD q.lane = false := by rw [done]; exact BitVec.getLsbD_zero
  unfold awaits
  rw [found]
  dsimp only
  rw [entry]
  dsimp only
  rw [late, num, resident, asked, open_]
  simp

theorem awaits_late (late : q.late = true) : s.awaits q = none := by
  unfold awaits
  split
  · rfl
  · split
    · rfl
    · simp [late]

/-- The datum of a lane is what its peer has returned. -/
theorem loadDatum_got (h : e.Single l a) (far : a.remote = true) : s.loadDatum g (e.gets (partKey l 0) v) l = v := by
  unfold loadDatum
  have pieces : lanePieces (e.gets (partKey l 0) v).acc l = [a] := h.pieces
  rw [pieces, List.map_singleton, List.foldr_cons, List.foldr_nil, if_pos far, h.off]
  simp [Entry.gets, Tbl.get_eq]

theorem answered_got (h : e.Single l a) : (e.gets (partKey l 0) v).answered l = true := by
  have pieces : lanePieces (e.gets (partKey l 0) v).acc l = [a] := h.pieces
  rw [Entry.answered, pieces]
  simp [Entry.gets, h.off, Tbl.find_put]

/-- An image comes to no split for a form that reads none. -/
theorem imageBack_plain (form : (view e.instr).lay = .mr → (view e.instr).op < 24) : s.imageBack gid e v = s := by
  unfold imageBack
  split
  · rfl
  · refine if_neg fun image => ?_
    rw [Bool.and_eq_true, beq_iff_eq, decide_eq_true_eq] at image
    exact absurd (form image.1) (Nat.not_lt.mpr image.2)

/-- The datum of a lane of one remote piece goes to its registers, and the lane is done. -/
theorem peerData_one (found : Tbl.find s.groups q.gid = some g) (resident : g.place = .resident) (entry : g.entry? e.id = some e)
    (h : e.Single q.lane a) (far : a.remote = true) (off : q.off = 0) (silent : e.stores = false)
    (form : (view e.instr).lay = .mr → (view e.instr).op < 24) :
    s.peerData q g e v = ((s.modGroup q.gid (·.modEntry e.id (Entry.gets (partKey q.lane 0) v))).modGroup q.gid
      (fun g => g.deliver e q.lane (loadWords e.instr v))).lanesDone q.gid e.id (e.laneBits q.lane) := by
  have got := modEntry_resident found resident e.id (Entry.gets (partKey q.lane 0) v)
  have group := State.group_modGroup (·.modEntry e.id (Entry.gets (partKey q.lane 0) v)) found
  have held := Group.entry?_changed entry (Entry.gets (partKey q.lane 0) v) (fun _ => rfl)
  have near : (lanePieces e.acc q.lane).any (fun a => !a.remote) = false := by rw [h.pieces, List.any_cons, far]; rfl
  unfold peerData
  rw [off, Entry.gets_eq, got]
  dsimp only
  rw [group, held]
  dsimp only
  rw [answered_got h, near, loadDatum_got h far, silent, imageBack_plain form]
  simp only [Bool.not_true, Bool.and_false, Bool.false_eq_true, if_false]

end State

end Sys2Proof.Machine

namespace Sys2Proof.Safety

open Machine

variable {s t : State} {gid l id req : Nat} {g y : Group} {e : Entry} {a : Acc} {q : PeerReq}

/-! ## The end of an answered lane (R220, R330) -/

theorem openL1_aside (s : State) (core : Nat) : SameWork s (s.openL1 core) ∧ (s.openL1 core).m = s.m := by
  unfold State.openL1
  induction s.l1Cores core generalizing s with
  | nil => exact ⟨⟨rfl, rfl, rfl, rfl, rfl⟩, rfl⟩
  | cons c cs ih =>
    obtain ⟨work, m⟩ := ih (s.modCore c (fun c => { c with lines := openLines c.lines }))
    exact ⟨⟨work.groups, work.mem, work.host, work.spad, work.tile⟩, m⟩

theorem Booked.openAt (w : Booked s t gid y) (sc : Nat) : Booked s (t.openAt gid sc) gid y := by
  unfold State.openAt
  split
  · obtain ⟨work, m⟩ := openL1_aside t (t.group gid).core
    exact w.of_aside work (congrArg Module.peers m)
  · exact w

/-- The last lane of an entry completes. -/
theorem Booked.lanesDone (w : Booked s t gid y) (resident : y.place = .resident) (entry : y.entry? id = some e) (lanes : Word)
    (ended : (e.takes lanes).complete = true) :
    Booked s (t.lanesDone gid id lanes) gid ((y.modEntry id (Entry.takes lanes)).freeEntry id) := by
  have taken := w.modGroup (·.modEntry id (Entry.takes lanes))
  have entry' := Group.entry?_changed entry (Entry.takes lanes) (fun _ => rfl)
  have steps : t.lanesDone gid id lanes = (if (e.takes lanes).complete && (e.takes lanes).acq
      then (t.modGroup gid (·.modEntry id (Entry.takes lanes))).openAt gid (e.takes lanes).scope
      else t.modGroup gid (·.modEntry id (Entry.takes lanes))).freeIfDone gid id := by
    have marked := State.modEntry_resident w.found resident id (Entry.takes lanes)
    have group := State.group_modGroup (·.modEntry id (Entry.takes lanes)) w.found
    unfold State.lanesDone
    rw [Entry.takes_eq, marked]
    dsimp only
    rw [group, entry']
  rw [steps]
  split
  · exact (taken.openAt _).freeIfDone resident entry' ended
  · exact taken.freeIfDone resident entry' ended

/-! ## Answers (R48, R49) -/

theorem execPeerResponse_eq (peer : Tbl.find s.m.peers req = some q) (own : q.job = none) (r : PeerResp) :
    exec (.peerResponse req r) s = .next (s.peerAnswer req r) := by
  show execPeerResponse req r s = _
  unfold execPeerResponse
  rw [peer]
  dsimp only
  rw [own]
  rfl

theorem execPeerTimeout_eq (peer : Tbl.find s.m.peers req = some q) (own : q.job = none) :
    exec (.peerTimeout req) s = .next (if s.cycle < q.sentAt + 50000 then s else s.peerSilent req) := by
  show execPeerTimeout req s = _
  unfold execPeerTimeout
  rw [peer]
  dsimp only
  rw [own]
  rfl

/-- A request that is not known has neither an answer nor a silence. -/
theorem idles_unknown (unknown : Tbl.find s.m.peers req = none) (r : PeerResp) :
    Idles (.peerResponse req r) s ∧ Idles (.peerTimeout req) s := by
  constructor
  · show execPeerResponse req r s = _
    unfold execPeerResponse
    rw [unknown]
  · show execPeerTimeout req s = _
    unfold execPeerTimeout
    rw [unknown]

/-- The state without a request. -/
def answered (s : State) (req : Nat) : State := s.modM (fun m => { m with peers := Tbl.del m.peers req })

/-- The state after the silence of a request: one that still waits at its port is sent still. -/
def unanswered (s : State) (req : Nat) (out : Bool) : State := s.modM (fun m => { m with
  peers := if out then Tbl.del m.peers req else Tbl.upd m.peers req (fun q => { q with late := true }) })

/-- The answer of a request given up is discarded. -/
theorem gives_discarded (peer : Tbl.find s.m.peers req = some q) (own : q.job = none) (late : q.late = true) (r : PeerResp) :
    exec (.peerResponse req r) s = .next (answered s req) := by
  have none_ : (answered s req).awaits q = none := State.awaits_late late
  rw [execPeerResponse_eq peer own]
  unfold State.peerAnswer
  rw [peer]
  dsimp only
  rw [show (s.modM fun m => { m with peers := Tbl.del m.peers req }) = answered s req from rfl, none_]

section
variable (found : Tbl.find s.groups gid = some g) (resident : g.place = .resident) (entry : g.entry? e.id = some e)
  (peer : Tbl.find s.m.peers req = some q) (own : q.job = none) (group : q.gid = gid) (ent : q.ent = e.id) (num : q.num = e.num)
  (lane : q.lane = l) (late : q.late = false) (asked : e.asked.getLsbD l = true) (silent : e.stores = false) (h : e.Single l a)
include found resident entry peer own group ent num lane late asked silent h

/-- The data of a lane's one piece come back. -/
theorem gives_data (far : a.remote = true) (off : q.off = 0) (form : (view e.instr).lay = .mr → (view e.instr).op < 24)
    (whole : e.spoil = []) (v : BitVec 128) (room : e.dreg + (loadWords e.instr v.toNat).length ≤ 64) :
    Gives (.peerResponse req (.ok v)) s (fun t => ∃ y, Booked (answered s req) t gid y ∧
      Delivers g y l e.dreg (loadWords e.instr v.toNat) ∧ y.entry? e.id = none) := by
  subst group lane
  have books := (booked_refl (s := answered s req) found).modGroup (·.modEntry e.id (Entry.gets (partKey q.lane 0) v.toNat))
  have held := Group.entry?_changed entry (Entry.gets (partKey q.lane 0) v.toNat) (fun _ => rfl)
  obtain ⟨delivered, place, log⟩ := Group.deliver_lane (e := e) whole h.lane
    (g.modEntry e.id (Entry.gets (partKey q.lane 0) v.toNat)) (loadWords e.instr v.toNat) room
  have done := (books.modGroup (fun g => g.deliver e q.lane (loadWords e.instr v.toNat))).lanesDone (place.trans resident)
    ((Group.entry?_congr log e.id).trans held) (e.laneBits q.lane) h.ends_complete
  have await := State.awaits_entry (s := answered s req) found resident (ent.symm ▸ entry) late num asked h.done
  have steps : s.peerAnswer req (.ok v) = (answered s req).peerData q g e v.toNat := by
    unfold State.peerAnswer
    rw [peer]
    dsimp only
    rw [show (s.modM fun m => { m with peers := Tbl.del m.peers req }) = answered s req from rfl, await]
    rfl
  rw [State.peerData_one (s := answered s req) found resident entry h far off silent form] at steps
  exact ⟨_, (execPeerResponse_eq peer own _).trans (congrArg _ steps), _, done, (delivered.of_modEntry.modEntry ..).freeEntry _,
    Group.entry?_freeEntry ..⟩

variable (sound : e.failed = false) (live : e.mask &&& g.live ≠ 0)
include sound live

/-- A NAK fails the entry. -/
theorem gives_peerNak (c : Nat) : Gives (.peerResponse req (.nak c)) s (fun t =>
    Booked (answered s req) t gid (g.modEntry e.id (Entry.fails 11 c (e.laneBits l)))) := by
  subst group lane
  have await := State.awaits_entry (s := answered s req) found resident (ent.symm ▸ entry) late num asked h.done
  have steps : s.peerAnswer req (.nak c) = (answered s req).lateFail q.gid e.id 11 c (e.laneBits q.lane) := by
    unfold State.peerAnswer
    rw [peer]
    dsimp only
    rw [show (s.modM fun m => { m with peers := Tbl.del m.peers req }) = answered s req from rfl, await]
    exact if_neg (by rw [silent]; exact Bool.false_ne_true)
  rw [State.lateFail_live (s := answered s req) found resident entry sound live] at steps
  exact ⟨_, (execPeerResponse_eq peer own _).trans (congrArg _ steps), (booked_refl (s := answered s req) found).modGroup _⟩

/-- 50 us of silence fail the entry. -/
theorem gives_silence (past : q.sentAt + 50000 ≤ s.cycle) : Gives (.peerTimeout req) s (fun t =>
    Booked (unanswered s req q.out) t gid (g.modEntry e.id (Entry.fails 12 0 (e.laneBits l)))) := by
  subst group lane
  have await := State.awaits_entry (s := unanswered s req q.out) found resident (ent.symm ▸ entry) late num asked h.done
  have steps : s.peerSilent req = (unanswered s req q.out).lateFail q.gid e.id 12 0 (e.laneBits q.lane) := by
    unfold State.peerSilent
    rw [peer]
    dsimp only
    unfold unanswered at await
    rw [await]
    exact if_neg (by rw [silent]; exact Bool.false_ne_true)
  rw [State.lateFail_live (s := unanswered s req q.out) found resident entry sound live] at steps
  exact ⟨_, ((execPeerTimeout_eq peer own).trans (congrArg _ (if_neg (Nat.not_lt.mpr past)))).trans (congrArg _ steps),
    (booked_refl (s := unanswered s req q.out) found).modGroup _⟩

end

end Sys2Proof.Safety
end

section
/-! SUPPORT. The statement EntriesComplete. -/

namespace Sys2Proof.Safety

open Machine

variable {s t : State} {gid l d pa size v : Nat} {g y : Group} {ws : List Nat}

section
variable (w : Booked s t gid y) (h : Delivers g y l d ws)
include w h

/-- What the step of an entry leaves of its group outside the logbook. -/
theorem Booked.keeps : (∀ r i, r < 64 → i < 32 → ¬(i = l ∧ d ≤ r ∧ r < d + ws.length) → (t.group gid).vReg r i = g.vReg r i) ∧
    (t.group gid).s = g.s ∧ (t.group gid).p = g.p ∧ (t.group gid).splits = g.splits := by
  rw [w.group]
  exact ⟨h.others, h.s, h.p, h.splits⟩

theorem Booked.words : ∀ j < ws.length, (t.group gid).vReg (d + j) l = BitVec.ofNat 32 (ws.getD j 0) := by
  rw [w.group]
  exact h.words

end

/-- The bytes of memory after a piece has been written at its home. -/
theorem Booked.memByte {m : Module} (w : Booked { s.setMem pa (leBytes size v) with m := m } t gid y) (b : Nat) :
    t.memByte b = if pa ≤ b ∧ b < pa + size then BitVec.ofNat 8 (v / 2 ^ (8 * (b - pa))) else s.memByte b := by
  rw [← State.memByte_setMem_leBytes s pa b size v, State.memByte, w.work.mem]
  rfl

/-- The bytes of host memory after a piece has been written there. -/
theorem Booked.hostByte (w : Booked (s.setHost pa (leBytes size v)) t gid y) (b : Nat) :
    t.hostByte b = if pa ≤ b ∧ b < pa + size then BitVec.ofNat 8 (v / 2 ^ (8 * (b - pa))) else s.hostByte b := by
  have bytes : t.hostByte b = (s.setHost pa (leBytes size v)).hostByte b := by
    rw [State.hostByte, w.work.host]
    rfl
  rw [bytes, State.hostByte_setHost, leBytes_length]
  split
  · exact leBytes_getD v (by omega)
  · rfl

/-- The entry of a lane that has failed. -/
theorem Booked.failed {e : Entry} {a : Acc} {cause info : Nat}
    (w : Booked s t gid (g.modEntry e.id (Entry.fails cause info (e.laneBits l)))) (h : e.Single l a)
    (entry : g.entry? e.id = some e) (sound : e.failed = false) : ∃ f, (t.group gid).entry? e.id = some f ∧ f.failed = true ∧
      f.cause = cause ∧ f.info = info ∧ f.failMask = maskOf [l] := by
  rw [w.group, ← h.mask, ← h.laneBits]
  refine ⟨_, Group.entry?_changed entry (Entry.fails cause info (e.laneBits l)) (Entry.fails_id cause info _), ?_⟩
  rw [Entry.fails_first sound]
  exact ⟨rfl, rfl, rfl, rfl⟩

/-- A request after its silence. -/
theorem find_unanswered (s : State) (req : Nat) (out : Bool) : Tbl.find (unanswered s req out).m.peers req =
    if out then none else (Tbl.find s.m.peers req).map (fun q => { q with late := true }) := by
  unfold unanswered
  rw [State.modM_m]
  cases out with
  | true => exact (Tbl.find_del ..).trans (if_pos rfl)
  | false => exact (Tbl.find_upd ..).trans (if_pos rfl)

/-- Settles O43: an entry that may be performed is carried forward at the place of its piece, and a peer's answer or silence ends it. -/
theorem entriesComplete : Obligations.EntriesComplete := by
  intro gid l g e a s found entry resident lane mask done perf one acc own off priv whole
  have h : e.Single l a := ⟨lane, mask, done, perf, one, acc, own, off⟩
  refine ⟨fun kind may => ?_, fun kind asked may pa loc owner clean => ?_, fun kind asked may pa loc => ?_,
    fun kind asked _ some_ may pa loc owner clean => ?_, fun kind asked _ may pa loc => ?_,
    fun kind asked rel may atomic pa loc owner clean same => ⟨fun unanswered => ?_, fun answered => ?_⟩,
    fun req q peer job group ent num lane' off' late far form asked silent sound live =>
      ⟨fun v room => ?_, fun c => ?_, fun past => ?_, fun early => ?_⟩,
    fun req r q peer job late => ?_, fun req r unknown => idles_unknown unknown r⟩
  · have aside := (syncHistory_aside s gid e).1
    have steps : s.entryDone gid e.id = s.syncHistory gid e := by
      rw [State.entryDone_eq found entry, State.entryStep_waits found entry kind may]
    exact ⟨_, (execEntryComplete_eq ..).trans (congrArg _ steps), aside.groups, aside.mem⟩
  · intro ws room
    obtain ⟨t, run, y, w, delivers, gone⟩ := gives_load found resident entry h whole kind asked may
      (State.readsHere_home (s := s.modGroup gid (·.modEntry e.id Entry.leaves)) loc owner clean) room
    exact ⟨t, run, w.words delivers, w.keeps delivers, by rw [w.group, gone], w.work.mem, w.work.host, w.work.spad⟩
  · intro ws room
    obtain ⟨t, run, y, w, delivers, gone⟩ := gives_load found resident entry h whole kind asked may
      (State.readsHere_host (s := s.modGroup gid (·.modEntry e.id Entry.leaves)) loc) room
    exact ⟨t, run, w.words delivers, w.keeps delivers, by rw [w.group, gone], w.work.mem, w.work.host, w.work.spad⟩
  · obtain ⟨m, put⟩ := State.putPiece_home (s := s.modGroup gid (·.modEntry e.id Entry.leaves)) (gid := gid)
      (g := g.modEntry e.id Entry.leaves) loc
    obtain ⟨t, run, y, w, delivers, -⟩ := gives_store found resident entry h kind asked may
      (State.writesHere_home (s := s.modGroup gid (·.modEntry e.id Entry.leaves)) loc owner some_ clean) put rfl
    have w' : Booked { s.setMem pa (leBytes a.size a.v) with m := m } t gid y := ⟨w.work, w.peers, w.found⟩
    exact ⟨t, run, w'.memByte, w.keeps delivers, w.work.host, w.work.spad⟩
  · have put := State.putPiece_host (s := s.modGroup gid (·.modEntry e.id Entry.leaves)) (gid := gid)
      (g := g.modEntry e.id Entry.leaves) loc
    obtain ⟨t, run, y, w, delivers, freed⟩ := gives_store found resident entry h kind asked may
      (State.writesHere_host (s := s.modGroup gid (·.modEntry e.id Entry.leaves)) loc) put rfl
    have gone := freed (by rw [publishable, loc, Bool.and_false])
    have w' : Booked (s.setHost pa (leBytes a.size a.v)) t gid y := ⟨w.work, w.peers, w.found⟩
    exact ⟨t, run, w'.hostByte, w.keeps delivers, by rw [w.group, gone], w.work.mem, w.work.spad⟩
  · obtain ⟨t, run, window, m, y, w, delivers⟩ := gives_atomic found resident entry h asked rel kind may loc owner clean atomic same
      unanswered
    exact ⟨t, run, w.memByte, window, w.keeps delivers, w.work.host, w.work.spad⟩
  · obtain ⟨t, run, m, y, w, delivers⟩ := gives_answered found resident entry h asked rel kind may loc owner clean answered
    exact ⟨t, run, w.work.mem, m, w.keeps delivers, w.work.host, w.work.spad⟩
  · obtain ⟨t, run, y, w, delivers, gone⟩ := gives_data found resident entry peer job group ent num lane' late asked silent h far off'
      form whole v room
    exact ⟨t, run, w.words delivers, w.keeps delivers, by rw [w.group, gone], by
      rw [w.peers]; exact (Tbl.find_del ..).trans (if_pos rfl)⟩
  · obtain ⟨t, run, w⟩ := gives_peerNak found resident entry peer job group ent num lane' late asked silent h sound live c
    exact ⟨t, run, ⟨w.failed h entry sound, ⟨rfl, w.work.mem, w.work.host, w.work.spad, w.work.tile⟩⟩, by
      rw [w.peers]; exact (Tbl.find_del ..).trans (if_pos rfl)⟩
  · obtain ⟨t, run, w⟩ := gives_silence found resident entry peer job group ent num lane' late asked silent h sound live past
    exact ⟨t, run, ⟨w.failed h entry sound, ⟨rfl, w.work.mem, w.work.host, w.work.spad, w.work.tile⟩⟩, by
      rw [w.peers, find_unanswered, peer]; rfl⟩
  · exact (execPeerTimeout_eq peer job).trans (congrArg _ (if_pos early))
  · exact ⟨_, gives_discarded peer job late r, rfl⟩

end Sys2Proof.Safety
end

section
/-! SUPPORT. What keeps the memories canonical: the rules of the constructs that the model is written in. -/

namespace Sys2Proof.Safety

open Machine

variable {s t : State}

/-- An update of the other parts of the state. -/
theorem Canonical.same (h : Canonical s)
    {cycle ptp dies cores slices groups hbm m tile nextGid nextWg nextJob made cur agenda free} :
    Canonical { s with
      cycle := cycle, ptp := ptp, dies := dies, cores := cores, slices := slices, groups := groups, hbm := hbm, m := m,
      tile := tile, nextGid := nextGid, nextWg := nextWg, nextJob := nextJob, made := made, cur := cur, agenda := agenda,
      free := free } :=
  h

theorem Canonical.ite {c : Prop} {_ : Decidable c} (hs : Canonical s) (ht : Canonical t) : Canonical (if c then s else t) := by
  split
  · exact hs
  · exact ht

theorem Canonical.foldl {α : Type} {f : State → α → State} {l : List α} (h : Canonical s)
    (hf : ∀ {t} (x : α), Canonical t → Canonical (f t x)) : Canonical (l.foldl f s) := by
  induction l generalizing s with
  | nil => exact h
  | cons x r ih => exact ih (hf x h)

theorem Canonical.foldr {α : Type} {f : α → State → State} {l : List α} (h : Canonical s)
    (hf : ∀ {t} (x : α), Canonical t → Canonical (f x t)) : Canonical (l.foldr f s) := by
  induction l with
  | nil => exact h
  | cons x r ih => exact hf x ih

theorem Canonical.getD {o : Option State} (ho : ∀ t, o = some t → Canonical t) (h : Canonical s) :
    Canonical (o.getD s) := by
  cases o with
  | none => exact h
  | some t => exact ho t rfl

theorem Canonical.fst {α : Type} {p : State × α} {x : α} (h : Canonical p.1) (e : p = (t, x)) : Canonical t := by
  rwa [e] at h

theorem Canonical.setMem (h : Canonical s) {a l} : Canonical (s.setMem a l) := by
  obtain ⟨h1, h2, h3⟩ := h
  exact ⟨Memory.wf_writeList _ _ _ _ h1, h2, h3⟩

theorem Canonical.setHost (h : Canonical s) {a l} : Canonical (s.setHost a l) := by
  obtain ⟨h1, h2, h3⟩ := h
  exact ⟨h1, Memory.wf_writeList _ _ _ _ h2, h3⟩

theorem Canonical.loadSpad (h : Canonical s) {c a l} : Canonical (s.loadSpad c a l) := by
  obtain ⟨h1, h2, h3⟩ := h
  exact ⟨h1, h2, Memory.wf_writeList _ _ _ _ h3⟩

/-- Bytes of device memory go back to what they read as unwritten. -/
theorem Canonical.filterMem (h : Canonical s) {p} : Canonical { s with mem := s.mem.filter p } := by
  obtain ⟨h1, h2, h3⟩ := h
  exact ⟨Memory.wf_filter _ _ _ h1, h2, h3⟩

/-- Scratchpad bytes go back to what they read as unwritten. -/
theorem Canonical.filterSpad (h : Canonical s) {p} : Canonical { s with spad := s.spad.filter p } := by
  obtain ⟨h1, h2, h3⟩ := h
  exact ⟨h1, h2, Memory.wf_filter _ _ _ h3⟩

/-- The state that an effect leaves is canonical. -/
def CanonicalRes (r : Res) : Prop := ∀ t, r = .ok t → Canonical t

theorem Canonical.ok (h : Canonical s) : CanonicalRes (.ok s) := fun _ e => Res.ok.inj e ▸ h
theorem CanonicalRes.trap {r : TrapInfo} : CanonicalRes (.trap r) := fun _ e => nomatch e
theorem CanonicalRes.hold : CanonicalRes .hold := fun _ e => nomatch e
theorem CanonicalRes.illegal {c : Cx} {d : Nat} : CanonicalRes (c.illegal d) := .trap
theorem CanonicalRes.chartTrap {c : Cx} {a f} : CanonicalRes (c.chartTrap a f) := .trap
theorem CanonicalRes.priv {c : Cx} : CanonicalRes c.priv := .trap

theorem CanonicalRes.ite {c : Prop} {_ : Decidable c} {q r : Res} (hq : CanonicalRes q) (hr : CanonicalRes r) :
    CanonicalRes (if c then q else r) := by
  split
  · exact hq
  · exact hr

/-- The outcome is a next state, which is canonical when the state that the step starts from is. -/
def Keeps (s : State) (o : Host.Outcome State Fault Refusal) : Prop := ∃ t, o = .next t ∧ (Canonical s → Canonical t)

theorem Keeps.next (h : Canonical s → Canonical t) : Keeps s (.next t) := ⟨t, rfl, h⟩

theorem Keeps.ite {c : Prop} {_ : Decidable c} {o q : Host.Outcome State Fault Refusal} (ho : Keeps s o) (hq : Keeps s q) :
    Keeps s (if c then o else q) := by
  split
  · exact ho
  · exact hq

theorem Keeps.after {o : Host.Outcome State Fault Refusal} (k : Keeps s o) (h : Canonical s) : Canonical (after s o) := by
  obtain ⟨t, rfl, ht⟩ := k
  exact ht h

/-- A split is the one that issues: it exists, and so does its group. -/
def Issuing (s : State) : Prop :=
  ∃ gid born g p, s.cur = some (gid, born) ∧ Tbl.find s.groups gid = some g ∧ g.split? born = some p

/-- What the checks before an issue leave is canonical. -/
def CanonicalStart (r : Start) : Prop :=
  match r with
  | .none_ => True
  | .stop t => Canonical t
  | .go _ t => Canonical t

/-- The state that the try of a wait leaves is canonical. -/
def CanonicalWait (r : WaitRes) : Prop :=
  match r with
  | .pending t => Canonical t
  | .done t => Canonical t
  | .trap _ => True

theorem CanonicalWait.ite {c : Prop} {_ : Decidable c} {q r : WaitRes} (hq : CanonicalWait q) (hr : CanonicalWait r) :
    CanonicalWait (if c then q else r) := by
  split
  · exact hq
  · exact hr

theorem Canonical.pending (h : Canonical s) : CanonicalWait (.pending s) := h
theorem Canonical.done (h : Canonical s) : CanonicalWait (.done s) := h
theorem CanonicalWait.trap {r : TrapInfo} : CanonicalWait (.trap r) := trivial

theorem CanonicalWait.of_pending {r : WaitRes} (h : CanonicalWait r) (e : r = .pending t) : Canonical t := by
  rwa [e] at h

theorem CanonicalWait.of_done {r : WaitRes} (h : CanonicalWait r) (e : r = .done t) : Canonical t := by
  rwa [e] at h

theorem CanonicalStart.of_stop {r : Start} (h : CanonicalStart r) (e : r = .stop t) : Canonical t := by
  rwa [e] at h

theorem CanonicalStart.of_go {r : Start} {c : Cx} (h : CanonicalStart r) (e : r = .go c t) : Canonical t := by
  rwa [e] at h

theorem begin_ne_none {i} (hs : Issuing s) : begin_ i s ≠ .none_ := by
  obtain ⟨gid, born, g, p, hc, hg, hp⟩ := hs
  unfold begin_
  simp only [hc, hg, hp]
  split
  · split <;> nofun
  · split
    · nofun
    · split
      · nofun
      · split <;> nofun

end Sys2Proof.Safety
end

section
/-! SUPPORT. The operations of the state keep the memories canonical: its parts, the caches, records, what ends, and traps. -/

namespace Sys2Proof.Safety

open Machine

variable {s t : State}

/-! ## The parts of the state and the bytes -/

theorem Canonical.modDie (h : Canonical s) {d f} : Canonical (s.modDie d f) := h.same

theorem Canonical.modCore (h : Canonical s) {c f} : Canonical (s.modCore c f) := h.same

theorem Canonical.modSlice (h : Canonical s) {t f} : Canonical (s.modSlice t f) := h.same

theorem Canonical.modGroup (h : Canonical s) {g f} : Canonical (s.modGroup g f) := h.same

theorem Canonical.modStack (h : Canonical s) {k f} : Canonical (s.modStack k f) := h.same

theorem Canonical.modM (h : Canonical s) {f} : Canonical (s.modM f) := h.same

theorem Canonical.post (h : Canonical s) {i} : Canonical (s.post i) := h.same

theorem Canonical.modSplit (h : Canonical s) {gid b f} : Canonical (s.modSplit gid b f) := h.modGroup

theorem Canonical.markOperand (h : Canonical s) {core off n} : Canonical (s.markOperand core off n) := .ite h.same h

theorem Canonical.setSpad (h : Canonical s) {core off l} : Canonical (s.setSpad core off l) := h.markOperand.loadSpad

theorem Canonical.bar0 (h : Canonical s) (ht : Canonical t) : Canonical (s.bar0 t) := .ite h ht

theorem Canonical.markBad (h : Canonical s) {w} : Canonical (s.markBad w) := h.modM

theorem Canonical.clearBad (h : Canonical s) {p} : Canonical (s.clearBad p) := h.modM

/-! ## Translations, lines and copies -/

theorem Canonical.fillTlb (h : Canonical s) {t core va} : Canonical (s.fillTlb t core va) := by
  dsimp only [State.fillTlb]
  split
  · exact h
  · exact h.modCore.modDie

theorem Canonical.fillTlbs (h : Canonical s) {t core l} : Canonical (s.fillTlbs t core l) := by
  induction l generalizing s with
  | nil => exact h
  | cons va r ih => exact ih h.fillTlb

theorem Canonical.dropOwners (h : Canonical s) {frame} : Canonical (s.dropOwners frame) := h.same

theorem Canonical.setUnpub (h : Canonical s) {core gid pa also v bad} : Canonical (s.setUnpub core gid pa also v bad) :=
  h.modDie

theorem Canonical.dropCopies (h : Canonical s) {cores pa n} : Canonical (s.dropCopies cores pa n) := .ite h h.modDie

theorem Canonical.ownedByte (h : Canonical s) {t pa v} : Canonical (s.ownedByte t pa v) := .ite h.setMem h

theorem Canonical.moveMarks (h : Canonical s) {l p} : Canonical (s.moveMarks l p) :=
  h.foldl fun _ h1 => .ite h1.markBad h1

theorem Canonical.copyOut (h : Canonical s) {pa b bad} : Canonical (s.copyOut pa b bad) :=
  h.foldl fun _ h1 => .ite h1.setUnpub h1.setUnpub

theorem Canonical.spill (h : Canonical s) {l} : Canonical (s.spill l) :=
  (Canonical.ite h.moveMarks h).foldl fun _ h1 => .ite (.ite h1.ownedByte h1.copyOut) h1

theorem Canonical.allocLine (h : Canonical s) {t core gid va pa priv} :
    Canonical (s.allocLine t core gid va pa priv) := by
  dsimp only [State.allocLine]
  split
  · exact h
  · split
    · exact h.modCore
    · exact h.spill.modCore

theorem Canonical.modLine (h : Canonical s) {t core va priv f} : Canonical (s.modLine t core va priv f) := h.modCore

theorem Canonical.fillLine (h : Canonical s) {t core gid va pa priv} : Canonical (s.fillLine t core gid va pa priv) :=
  h.allocLine.modLine

theorem Canonical.takeLine (h : Canonical s) {t core va priv} : Canonical (s.takeLine t core va priv) := by
  dsimp only [State.takeLine]
  split
  · exact h
  · exact .ite h.spill.modLine h

theorem Canonical.cachedPut (h : Canonical s) {cores t core gid va pa priv bs} :
    Canonical (s.cachedPut cores t core gid va pa priv bs) :=
  .ite h.takeLine.allocLine.modLine h.takeLine.allocLine.modLine.dropCopies

theorem Canonical.cachedWrite (h : Canonical s) {t core gid va pa priv bs} :
    Canonical (s.cachedWrite t core gid va pa priv bs) :=
  h.cachedPut

theorem Canonical.unpoison (h : Canonical s) {a n} : Canonical (s.unpoison a n) := .ite h h.modM.clearBad

theorem Canonical.publishBytes (h : Canonical s) {pa bs} : Canonical (s.publishBytes pa bs) := h.setMem.unpoison

theorem Canonical.publishLines (h : Canonical s) {hc gid p} : Canonical (s.publishLines hc gid p) :=
  (h.foldl fun _ h1 => .ite h1 (h1.moveMarks.foldl fun _ h2 => .ite h2.ownedByte h2)).modCore

theorem Canonical.publishCopies (h : Canonical s) {d gid p} : Canonical (s.publishCopies d gid p) :=
  (h.foldl fun _ h1 => .ite (.ite h1.ownedByte.markBad h1.ownedByte) h1).modDie

theorem Canonical.publishIf (h : Canonical s) {gid p} : Canonical (s.publishIf gid p) :=
  (h.foldl fun _ h1 => h1.publishCopies).foldl fun _ h1 => h1.publishLines

theorem Canonical.publish (h : Canonical s) {gid} : Canonical (s.publish gid) := h.publishIf

theorem Canonical.withdraw (h : Canonical s) {gid} : Canonical (s.withdraw gid) :=
  (h.foldl fun _ h1 => h1.modCore).foldl fun _ h1 => h1.modDie

theorem Canonical.openL1 (h : Canonical s) {core} : Canonical (s.openL1 core) := h.foldl fun _ h1 => h1.modCore

theorem Canonical.flushL1 (h : Canonical s) {core} : Canonical (s.flushL1 core) :=
  (h.foldl fun _ h1 => h1.spill).modCore

theorem Canonical.dropPrivate (h : Canonical s) {gid writeBack} : Canonical (s.dropPrivate gid writeBack) :=
  h.foldl fun _ h1 => (Canonical.ite (h1.foldl fun _ h2 => h2.spill) h1).modCore

theorem Canonical.touchLoc (h : Canonical s) {gid g loc} : Canonical (s.touchLoc gid g loc) := by
  dsimp only [State.touchLoc]
  split
  · exact h.fillLine
  · exact h

theorem Canonical.writeLoc (h : Canonical s) {gid g loc priv bs} : Canonical (s.writeLoc gid g loc priv bs) := by
  dsimp only [State.writeLoc]
  split
  · exact h.cachedWrite
  · exact .ite (h.foldl fun _ h1 => h1.setUnpub) h.publishBytes
  · exact h.setHost
  · exact h.setSpad
  · exact h
  · exact h

theorem Canonical.engineBytes (h : Canonical s) {t die va l} :
    ∀ u, s.engineBytes t die va l = some u → Canonical u := by
  induction l generalizing s va with
  | nil => exact fun u e => Option.some.inj e ▸ h
  | cons b r ih =>
    intro u e
    simp only [State.engineBytes] at e
    split at e
    · cases e
    · split at e
      · exact ih h.publishBytes u e
      · split at e
        · exact ih h.setHost u e
        · cases e

theorem Canonical.writeMarks (h : Canonical s) {t as} : Canonical (s.writeMarks t as) := by
  dsimp only [State.writeMarks]
  split
  · exact h.modSlice
  · exact h.modSlice
  · exact h.modM.clearBad

theorem Canonical.engineWrite (h : Canonical s) {t die va l} :
    ∀ u, s.engineWrite t die va l = some u → Canonical u := by
  intro u e
  obtain ⟨w, ew, rfl⟩ := Option.map_eq_some_iff.mp e
  exact .ite (h.engineBytes w ew) (h.engineBytes w ew).writeMarks

/-! ## Records, counters and entries -/

theorem Canonical.postRecordAt (h : Canonical s) {d fn ring r} : Canonical (s.postRecordAt d fn ring r) :=
  .ite h.modM h.modSlice

theorem Canonical.postRecord (h : Canonical s) {fn ring r} : Canonical (s.postRecord fn ring r) := h.postRecordAt

theorem Canonical.postPf (h : Canonical s) {code data} : Canonical (s.postPf code data) := h.postRecord

theorem Canonical.postVf (h : Canonical s) {t code data} : Canonical (s.postVf t code data) := h.postRecord

theorem Canonical.objLost (h : Canonical s) {t src object addr} : Canonical (s.objLost t src object addr) :=
  h.postRecord

theorem Canonical.unrecord (h : Canonical s) {owner wm} : Canonical (s.unrecord owner wm) := h.modM

theorem Canonical.forget (h : Canonical s) {owner l} : Canonical (s.forget owner l) := h.foldl fun _ h1 => h1.unrecord

theorem Canonical.drawMark (h : Canonical s) {ctx ld d} : Canonical (s.drawMark ctx ld d).1 := h.modDie

theorem Canonical.objWait (h : Canonical s) {w} : Canonical (s.objWait w) := h.modM

theorem Canonical.counterAdd (h : Canonical s) {t die ctx addr n src} :
    Canonical (s.counterAdd t die ctx addr n src) := by
  dsimp only [State.counterAdd]
  split
  · exact h
  · split
    · exact h.objWait
    · split
      · exact h.drawMark.objLost
      · exact .getD h.drawMark.engineWrite h.drawMark.objLost

theorem Canonical.counterError (h : Canonical s) {t die addr word src} :
    Canonical (s.counterError t die addr word src) := by
  dsimp only [State.counterError]
  split
  · exact h
  · split
    · exact h.objWait
    · split
      · exact h.objLost
      · exact .ite h (.getD h.engineWrite h.objLost)

theorem Canonical.objWrite (h : Canonical s) {t die addr l src object} :
    Canonical (s.objWrite t die addr l src object) :=
  .ite h.objWait (.getD h.engineWrite h.objLost)

theorem Canonical.objAgain (h : Canonical s) {w} : Canonical (s.objAgain w) := by
  dsimp only [State.objAgain]
  split
  · exact h.counterAdd
  · exact h.counterError
  · exact h.objWrite

theorem Canonical.setArrival (h : Canonical s) {core off arrival a} : Canonical (s.setArrival core off arrival a) :=
  .ite h.setSpad h.setSpad

theorem Canonical.syncFrame (h : Canonical s) {gid} : Canonical (s.syncFrame gid) := by
  dsimp only [State.syncFrame]
  split
  · exact h
  · split
    · split
      · exact h
      · exact .getD (h.engineWrite _ ‹_›).engineWrite (h.engineWrite _ ‹_›)
    · exact h

theorem Canonical.freeEntry (h : Canonical s) {gid id} : Canonical (s.freeEntry gid id) := h.modGroup.syncFrame

theorem Canonical.modEntry (h : Canonical s) {gid id f} : Canonical (s.modEntry gid id f) := h.modGroup.syncFrame

theorem Canonical.modArrive (h : Canonical s) {t w arrival f} : Canonical (s.modArrive t w arrival f) := by
  dsimp only [State.modArrive]
  split
  · exact h
  · exact .ite h.modSlice h.setArrival

theorem Canonical.modEngine (h : Canonical s) {die e f} : Canonical (s.modEngine die e f) := h.modDie

theorem Canonical.modCopy (h : Canonical s) {die e id f} : Canonical (s.modCopy die e id f) := h.modEngine

theorem Canonical.dropCopy (h : Canonical s) {die e id} : Canonical (s.dropCopy die e id) := h.modEngine

theorem Canonical.failEntry (h : Canonical s) {gid id cause info lanes addr} :
    Canonical (s.failEntry gid id cause info lanes addr) :=
  h.modEntry

theorem Canonical.settleEntry (h : Canonical s) {who stopped prog addr} :
    Canonical (s.settleEntry who stopped prog addr) := by
  dsimp only [State.settleEntry]
  split
  · exact h
  · split
    · exact h
    · split
      · exact h
      · split
        · exact h.freeEntry
        · exact .ite h.freeEntry h.modEntry.failEntry

theorem Canonical.packetDone (h : Canonical s) {t q num} : Canonical (s.packetDone t q num) := by
  dsimp only [State.packetDone]
  split
  · exact h
  · exact h.modSlice

theorem Canonical.pktStart (h : Canonical s) {t q num} : Canonical (s.pktStart t q num) := by
  dsimp only [State.pktStart]
  split
  · exact h
  · exact h.modSlice

theorem Canonical.finishCopy (h : Canonical s) {die e j} : Canonical (s.finishCopy die e j) := by
  dsimp only [State.finishCopy]
  split
  · exact h.counterAdd.dropCopy.settleEntry.packetDone
  · exact h.counterError.modArrive.dropCopy.settleEntry.packetDone

theorem Canonical.stopCopy (h : Canonical s) {die e j cause nak addr} :
    Canonical (s.stopCopy die e j cause nak addr) :=
  .ite h.finishCopy h.modCopy

theorem Canonical.finishColl (h : Canonical s) {die j} : Canonical (s.finishColl die j) := by
  dsimp only [State.finishColl]
  split
  · split
    · exact h.counterAdd.modEntry.modDie.settleEntry.packetDone
    · exact h.counterError.modArrive.modEntry.modDie.settleEntry.packetDone
  · split
    · exact h.counterAdd.modDie.settleEntry.packetDone
    · exact h.counterError.modArrive.modDie.settleEntry.packetDone

theorem Canonical.stopColl (h : Canonical s) {die j cause nak} : Canonical (s.stopColl die j cause nak) := h.finishColl

/-! ## Groups and slices that end -/

theorem Canonical.settle (h : Canonical s) {d} : Canonical (s.settle d) :=
  (Canonical.ite h (h.foldl fun _ h1 => h1.modSlice)).modDie

theorem Canonical.watchClaims (h : Canonical s) {d} : Canonical (s.watchClaims d) := (Canonical.ite h h.settle).modDie

theorem Canonical.dropEmptyWgs (h : Canonical s) {core} : Canonical (s.dropEmptyWgs core) := h.modCore

theorem Canonical.stopJobsOf (h : Canonical s) {gid cause} : Canonical (s.stopJobsOf gid cause) := by
  refine h.foldl fun _ h1 => .foldl (h1.foldl fun _ h2 => h2.foldl fun _ h3 => ?_) fun _ h2 => ?_
  · split
    · exact .ite h3.stopCopy h3
    · exact h3
  · split
    · exact .ite h2.stopColl h2
    · exact h2

theorem Canonical.sendLeft (h : Canonical s) {gid g e a group off} : Canonical (s.sendLeft gid g e a group off) :=
  h.modM

theorem Canonical.finishI2 (h : Canonical s) {gid g} : Canonical (s.finishI2 gid g) :=
  h.foldl fun _ h1 =>
    h1.foldl fun _ h2 => by
      split
      · exact .ite h2 h2.setHost
      · exact .ite h2 h2.sendLeft
      · exact h2

theorem Canonical.discardGroup (h : Canonical s) {gid cause} : Canonical (s.discardGroup gid cause) := by
  dsimp only [State.discardGroup]
  split
  · exact h
  · exact h.finishI2.stopJobsOf.publishIf.withdraw.forget.dropPrivate.same.dropEmptyWgs.watchClaims

theorem Canonical.launchError (h : Canonical s) {t l cause} : Canonical (s.launchError t l cause) := h.counterError

theorem Canonical.abortLaunch (h : Canonical s) {t id cause} : Canonical (s.abortLaunch t id cause) :=
  .ite h (h.foldl fun _ h1 => h1.discardGroup).same.same.modSlice.launchError.packetDone

theorem Canonical.abortDomain (h : Canonical s) {t ctx domain cause} : Canonical (s.abortDomain t ctx domain cause) :=
  h.foldl fun _ h1 => h1.abortLaunch

theorem Canonical.retainCounts (h : Canonical s) {core owner} : Canonical (s.retainCounts core owner) :=
  .ite h (Canonical.ite h.modSlice h).modCore

theorem Canonical.scrubCore (h : Canonical s) {core owner} : Canonical (s.scrubCore core owner) :=
  (h.retainCounts.flushL1.filterSpad.same (tile := _)).clearBad.modCore

theorem Canonical.undefRange (h : Canonical s) {t die va n} : Canonical (s.undefRange t die va n) :=
  (h.foldl fun _ h1 => .getD h1.engineWrite h1).same

theorem Canonical.dropWork (h : Canonical s) {t cause} : Canonical (s.dropWork t cause) :=
  h.foldl (fun _ h1 => h1.discardGroup)
    |>.foldl (fun _ h1 =>
      h1.foldl (fun _ h2 => h2.foldl fun _ h3 => .ite h3.counterError.dropCopy h3)
        |>.foldl (fun _ h2 => .ite h2.counterError h2)
        |>.modDie)
    |>.foldl (fun _ h1 => .ite h1.counterError h1)
    |>.foldl (fun _ h1 => .ite h1 h1.launchError)
    |>.foldl (fun _ h1 => h1.foldl fun _ h2 => h2.undefRange)
    |>.foldl (fun _ h1 => h1.modCore.scrubCore)
    |>.modSlice
    |>.modSlice

theorem Canonical.startKill (h : Canonical s) {t cause frame} : Canonical (s.startKill t cause frame) :=
  .ite h h.dropWork.modSlice

theorem Canonical.consumePoison (h : Canonical s) {t a} : Canonical (s.consumePoison t a) := h.startKill

theorem Canonical.terminal (h : Canonical s) {gid t} : Canonical (s.terminal gid t) := h.postRecord.abortDomain

/-! ## Traps -/

theorem Canonical.trace (h : Canonical s) {g kind cat slot split ord data} :
    Canonical (s.trace g kind cat slot split ord data) :=
  .ite h.modSlice h

theorem Canonical.traceStop (h : Canonical s) {g kind slot p} : Canonical (s.traceStop g kind slot p) := h.trace

theorem Canonical.postFault (h : Canonical s) {t d host r} : Canonical (s.postFault t d host r).1 := by
  dsimp only [State.postFault]
  split
  · split
    · exact h
    · split
      · exact h
      · exact h.modSlice.postRecordAt
  · split
    · exact h
    · split
      · exact h
      · exact h.modSlice.postRecordAt

theorem Canonical.enterHandler (h : Canonical s) {gid born t} : Canonical (s.enterHandler gid born t) := h.modGroup

theorem Canonical.pageFault (h : Canonical s) {gid born t} : Canonical (s.pageFault gid born t).1 := by
  dsimp only [State.pageFault]
  split
  · exact h
  · split
    · exact .fst h.postFault ‹_›
    · exact (Canonical.fst h.postFault ‹_›).modGroup

theorem Canonical.promiseSleep (h : Canonical s) {gid born t} : Canonical (s.promiseSleep gid born t) := h.modSplit

theorem Canonical.breakStop (h : Canonical s) {gid born} : Canonical (s.breakStop gid born) := h.modGroup

theorem Canonical.goOn (h : Canonical s) {gid born} : Canonical (s.goOn gid born) := h.modSplit

theorem Canonical.noHandler (h : Canonical s) {gid born t} : Canonical (s.noHandler gid born t) :=
  .ite h.promiseSleep (.ite h.goOn h.terminal)

theorem Canonical.takeBreak (h : Canonical s) {gid g p t} : Canonical (s.takeBreak gid g p t) :=
  have traced {c : Prop} {_ : Decidable c} {k n} : Canonical (if c then s.traceStop g k n p else s) := h.traceStop.ite h
  .ite h.modSplit (.ite h.goOn.modGroup (.ite traced.goOn
    (.ite traced.breakStop (.ite traced.enterHandler traced.noHandler))))

theorem Canonical.takeTrap (h : Canonical s) {gid born t0} : Canonical (s.takeTrap gid born t0) := by
  dsimp only [State.takeTrap]
  split
  · exact h
  · split
    · exact h.startKill
    · split
      · exact h.takeBreak
      · split
        · exact h.modSplit
        · split
          · split
            · next e => exact .fst h.pageFault e
            · next e =>
              have faulted := Canonical.fst h.pageFault e
              exact .ite faulted.terminal (.ite faulted.enterHandler faulted.noHandler)
          · exact .ite h.terminal (.ite h.enterHandler h.noHandler)

end Sys2Proof.Safety
end

section
/-! SUPPORT. The issue of a word, accesses, waits and the matrix array keep the memories canonical. -/

namespace Sys2Proof.Safety

open Machine

variable {s t : State}

/-! ## The issue of a word -/

theorem Canonical.toLanes (h : Canonical s) {c : Cx} {fixed n f} : Canonical (c.toLanes fixed s n f) := h.modGroup

theorem Canonical.toScalar (h : Canonical s) {c : Cx} {fixed n v} : Canonical (c.toScalar fixed s n v) := h.modGroup

theorem Canonical.toPred (h : Canonical s) {c : Cx} {fixed n f} : Canonical (c.toPred fixed s n f) := .ite h h.modGroup

theorem Canonical.writeV (h : Canonical s) {c : Cx} {n f} : Canonical (c.writeV s n f) := h.toLanes

theorem Canonical.writeVp (h : Canonical s) {c : Cx} {n f} : Canonical (c.writeVp s n f) := h.writeV.writeV

theorem Canonical.writeS (h : Canonical s) {c : Cx} {n v} : Canonical (c.writeS s n v) := h.toScalar

theorem Canonical.writeSp (h : Canonical s) {c : Cx} {n v} : Canonical (c.writeSp s n v) := h.writeS.writeS

theorem Canonical.writeP (h : Canonical s) {c : Cx} {n f} : Canonical (c.writeP s n f) := h.toPred

theorem Canonical.giveV (h : Canonical s) {c : Cx} {n f} : Canonical (c.giveV s n f) := h.toLanes

theorem Canonical.giveS (h : Canonical s) {c : Cx} {n v} : Canonical (c.giveS s n v) := h.toScalar

theorem Canonical.giveSp (h : Canonical s) {c : Cx} {n v} : Canonical (c.giveSp s n v) := h.giveS.giveS

theorem Canonical.giveP (h : Canonical s) {c : Cx} {n f} : Canonical (c.giveP s n f) := h.toPred

theorem Canonical.flags (h : Canonical s) {c : Cx} {fl} : Canonical (c.flags s fl) := h.modGroup

theorem Canonical.passed (h : Canonical s) {gid born} : Canonical (s.passed gid born) := h.modSplit.modCore

theorem Canonical.charge (h : Canonical s) {g i} : Canonical (s.charge g i) := .ite h.modCore h.modCore.modDie

theorem Canonical.countWatch (h : Canonical s) {g} : Canonical (s.countWatch g) := h.modSlice

theorem Canonical.sample (h : Canonical s) {g p i} : Canonical (s.sample g p i) :=
  .ite h (.ite h.modCore.trace h.modCore)

theorem Canonical.issued (h : Canonical s) {gid g p i} : Canonical (s.issued gid g p i) :=
  h.charge.countWatch.sample.modGroup.same

theorem Canonical.defer (h : Canonical s) {c : Cx} : Canonical (s.defer c) := h.modSplit

theorem Canonical.goesOn (h : Canonical s) {gid g p i} : Canonical (s.goesOn gid g p i) := h.modSplit.same

theorem Canonical.begin_ (h : Canonical s) (hs : Issuing s) {i} : CanonicalStart (begin_ i s) := by
  obtain ⟨gid, born, g, p, hc, hg, hp⟩ := hs
  unfold Machine.begin_
  simp only [hc, hg, hp]
  split
  · split
    · exact Canonical.goesOn h.same
    · exact h.same
  · split
    · exact Canonical.takeTrap h.same
    · split
      · exact h.same
      · split
        · exact Canonical.passed h.same
        · exact Canonical.issued h.same

theorem CanonicalRes.checked {c : Cx} {r : Res} (h : CanonicalRes r) : CanonicalRes (c.checked r) := by
  unfold Cx.checked
  refine .ite h ?_
  split
  · exact .ite .trap .trap
  · exact .trap

/-- A word that a split issues leaves a next state: that of its effect, of its trap or of its wait. -/
theorem Keeps.issue (hs : Issuing s) {i} {body : Cx → State → Res}
    (hb : ∀ {c t}, Canonical t → CanonicalRes (body c t)) : Keeps s (issue i s body) := by
  have start (h : Canonical s) := h.begin_ hs (i := i)
  unfold Machine.issue
  split
  · exact absurd ‹_› (begin_ne_none hs)
  · exact .next fun h => (start h).of_stop ‹_›
  · next e =>
    split
    · exact .next fun h => (hb ((start h).of_go e)).checked _ ‹_›
    · exact .next fun h => Canonical.takeTrap h.same
    · exact .next fun h => Canonical.defer ((start h).of_go e)

/-! ## Accesses at their home -/

theorem Canonical.touch (h : Canonical s) {g accs} : Canonical (s.touch g accs) := h.fillTlbs

theorem Canonical.countBanks (h : Canonical s) {core accs} : Canonical (s.countBanks core accs) := .ite h h.modCore

theorem Canonical.takeMark (h : Canonical s) {g} : Canonical (s.takeMark g).1 := h.drawMark

theorem Canonical.enter (h : Canonical t) {c : Cx} {kind cls mask accs} :
    Canonical (c.enter t kind cls mask accs) := by
  dsimp only [Cx.enter]
  split
  · exact h.takeMark.modGroup
  · exact h.modGroup

theorem Canonical.cxRecord (h : Canonical t) {c : Cx} {kind cls accs} : Canonical (c.record t kind cls accs) :=
  h.enter.touch.countBanks

theorem Canonical.sendDirty (h : Canonical s) {g loc} : Canonical (s.sendDirty g loc) := by
  dsimp only [State.sendDirty]
  split
  · split
    · exact h
    · exact h.spill.modCore
  · exact h

theorem Canonical.mixHomes (h : Canonical s) {home loc bs} : Canonical (s.mixHomes home loc bs).1 := by
  unfold State.mixHomes
  split
  · exact h.modM
  · exact h

theorem Canonical.homeWrite (h : Canonical s) {gid g sc loc bs} : Canonical (s.homeWrite gid g sc loc bs) := by
  dsimp only [State.homeWrite]
  split
  · split
    · exact h.mixHomes.cachedPut
    · exact h.mixHomes.writeLoc
  · split
    · exact h.mixHomes.sendDirty.publishBytes
    · exact h.mixHomes.publishBytes
    · exact h.mixHomes.writeLoc

theorem Canonical.record (h : Canonical s) {mod owner wm lane v} : Canonical (s.record mod owner wm lane v) := h.modM

theorem Canonical.homeOp (h : Canonical s) {gid g e l} : Canonical (s.homeOp gid g e l).1 := by
  have bar (a : Acc) : Canonical (State.homeOp.barOp s gid g e a).1 := h.homeWrite
  have arr (a : Acc) : Canonical (State.homeOp.arrOp s a).1 := by
    unfold State.homeOp.arrOp
    split
    · exact h.setArrival
    · exact h
  unfold State.homeOp
  split
  · exact h
  · split
    · exact bar _
    · exact bar _
    · exact arr _
    · exact arr _
    · exact h.homeWrite
    · split
      · exact h.homeWrite
      · exact h.writeLoc

theorem Canonical.lateFail (h : Canonical s) {gid id cause info lanes addr} :
    Canonical (s.lateFail gid id cause info lanes addr) := by
  dsimp only [State.lateFail]
  split
  · exact h.modEntry
  · exact .ite h.modEntry (.ite h.modEntry.freeEntry (.ite h.modEntry.startKill h.modEntry.terminal))

theorem Canonical.accFill (h : Canonical s) {core a rule} : Canonical (s.accFill core a rule) := h.same.modCore

/-! ## Phases and waits -/

theorem Canonical.publishChecked (h : Canonical s) {gid} : Canonical (s.publishChecked gid) := by
  dsimp only [State.publishChecked]
  split
  · exact h.publish
  · split
    · exact h.consumePoison
    · exact h.consumePoison
    · exact h.modM.clearBad.publish

theorem Canonical.ownedStores (h : Canonical s) {gid mark} : Canonical (s.ownedStores gid mark) :=
  h.foldl fun _ h1 => by
    split
    · exact h1
    · exact h1.lateFail

theorem Canonical.freeIfDone (h : Canonical s) {gid id} : Canonical (s.freeIfDone gid id) := by
  dsimp only [State.freeIfDone]
  split
  · exact h
  · exact .ite (.ite h.freeEntry.unrecord h.freeEntry) h

theorem Canonical.publishAt (h : Canonical s) {gid mark sc} : Canonical (s.publishAt gid mark sc) :=
  (Canonical.ite h.ownedStores.publishChecked h).foldl fun _ h1 => h1.modEntry.freeIfDone

theorem Canonical.openAt (h : Canonical s) {gid sc} : Canonical (s.openAt gid sc) := .ite h.openL1 h

theorem Canonical.noteNak (h : Canonical s) {gid sc code} : Canonical (s.noteNak gid sc code) := h.modGroup

theorem Canonical.waitOver (h : Canonical s) {gid born} : Canonical (s.waitOver gid born) := h.modSplit

theorem Canonical.acquire (h : Canonical s) {gid sc o} : Canonical (s.acquire gid sc o) := .ite h.openAt h

/-- What the try of a wait leaves is canonical: the split goes on, after an acquire or a publication, or sleeps. -/
theorem Canonical.tryWait (h : Canonical s) {gid born g p w} : CanonicalWait (s.tryWait gid born g p w) := by
  have reads {k : WaitRes} (hk : CanonicalWait k) : CanonicalWait
      (match s.waitPoison g w with | some pa => .pending (s.consumePoison g.slice pa) | none => k) := by
    split
    · exact h.consumePoison
    · exact hk
  dsimp only [State.tryWait]
  split
  · refine .ite (Canonical.waitOver (.ite (Canonical.openAt (.ite h.publishAt h)) (.ite h.publishAt h))).done h.pending
  · exact .ite h.openAt.waitOver.done h.pending
  · split
    · exact .ite h.openAt.waitOver.done h.pending
    · exact .ite h.openAt.waitOver.done h.pending
  · split
    · exact .ite h.publishAt.modSplit.pending h.pending
    · exact reads (.ite h.acquire.waitOver.done h.pending)
  · split
    · exact h.waitOver
    · exact .ite h.acquire.freeIfDone.waitOver.done h.pending
  · refine reads (.ite h.pending ?_)
    split
    · exact .trap
    · exact .ite h.waitOver.done (.ite .trap h.pending)
  · exact reads (.ite h.pending (.ite .trap (.ite h.waitOver.done h.pending)))
  · split
    · exact .trap
    · exact .ite (Canonical.waitOver
        (h.foldl fun _ h1 => Canonical.freeEntry (.ite (h1.foldl fun _ h2 => h2.accFill) h1))).done h.pending
  · exact .ite h.waitOver.done h.pending
  · exact .ite h.pending h.waitOver.done
  · exact h.waitOver

theorem Canonical.await (h : Canonical t) {c : Cx} {w rel} : CanonicalRes (c.await t w rel) := by
  dsimp only [Cx.await]
  split
  · exact h.modSplit.ok
  · split
    · exact (h.modSplit.tryWait.of_pending ‹_›).ok
    · exact (h.modSplit.tryWait.of_done ‹_›).ok
    · exact .trap

/-! ## Accesses elsewhere -/

theorem Canonical.sendPeer (h : Canonical s) {gid g e a} : Canonical (s.sendPeer gid g e a) := h.modM.modEntry

theorem Canonical.sendLane (h : Canonical s) {gid g e ps} : Canonical (s.sendLane gid g e ps) :=
  h.foldl fun _ h1 => h1.sendPeer

theorem Canonical.giveUp (h : Canonical s) {gid p} : Canonical (s.giveUp gid p) := h.modM

theorem Canonical.loadHere (h : Canonical s) {gid g e l} : Canonical (s.loadHere gid g e l) := by
  dsimp only [State.loadHere]
  split
  · exact h.lateFail
  · split
    · exact h.consumePoison
    · exact (h.foldl fun _ h1 => .ite h1.touchLoc h1).modGroup.syncFrame

theorem Canonical.loadLane (h : Canonical s) {gid id l} : Canonical (s.loadLane gid id l) := by
  dsimp only [State.loadLane]
  split
  · exact h
  · exact .ite h (.ite h.sendLane (.ite h h.loadHere))

theorem Canonical.plain (h : Canonical s) {pa n} : Canonical (s.plain pa n) := h.modM

theorem Canonical.clearPiece (h : Canonical s) {a} : Canonical (s.clearPiece a) := by
  have clear (pa : Nat) : Canonical (State.clearPiece.clear s a pa) := h.modM.clearBad
  unfold State.clearPiece
  refine .ite h ?_
  split
  · exact clear _
  · exact h
  · exact .ite (clear _) h
  · exact h.clearBad
  · exact h

theorem Canonical.putPiece (h : Canonical s) {gid g a} : Canonical (s.putPiece gid g a) := by
  dsimp only [State.putPiece]
  split
  · exact h.writeLoc.plain.clearPiece
  · exact h.writeLoc.clearPiece

theorem Canonical.storeLane (h : Canonical s) {gid id l} : Canonical (s.storeLane gid id l) := by
  dsimp only [State.storeLane]
  split
  · exact h
  · split
    · exact h
    · split
      · exact h
      · split
        · exact h.lateFail
        · split
          · exact h
          · split
            · exact h.consumePoison
            · exact .ite (h.foldl fun _ h1 => h1.putPiece).sendLane (h.foldl fun _ h1 => h1.putPiece).sendLane.modEntry

theorem Canonical.loadStep (h : Canonical s) {gid e} : Canonical (s.loadStep gid e) :=
  (h.foldl fun _ h1 => h1.loadLane).freeIfDone

theorem Canonical.storeStep (h : Canonical s) {gid e} : Canonical (s.storeStep gid e) :=
  (h.foldl fun _ h1 => h1.storeLane).freeIfDone

theorem Canonical.collectStep (h : Canonical s) {gid e} : Canonical (s.collectStep gid e) := by
  dsimp only [State.collectStep]
  split
  · exact h.modGroup
  · split
    · exact h.modGroup
    · exact .ite (Canonical.ite h.modGroup.openAt h.modGroup).freeIfDone h.modGroup

theorem Canonical.closeStep (h : Canonical s) {gid e} : Canonical (s.closeStep gid e) := by
  dsimp only [State.closeStep]
  split
  · exact h
  · split
    · exact h.publishAt.modGroup.lateFail
    · exact h.publishAt.modEntry.freeIfDone

theorem Canonical.homeStep (h : Canonical s) {gid e l} : Canonical (s.homeStep gid e l) := by
  dsimp only [State.homeStep]
  split
  · exact h
  · split
    · exact (Canonical.ite h.publishAt h).storeLane
    · split
      · exact (Canonical.ite h.publishAt h).sendLane
      · split
        · split
          · exact h.publishAt
          · split
            · exact h
            · split
              · exact h.publishAt.lateFail
              · split
                · exact h.publishAt.consumePoison
                · exact .ite (h.publishAt.foldl fun _ h1 => h1.putPiece).record h.publishAt.homeOp.record
        · split
          · exact h
          · split
            · exact h
            · split
              · exact h.lateFail
              · split
                · exact h.consumePoison
                · exact .ite (h.foldl fun _ h1 => h1.putPiece).record h.homeOp.record

theorem Canonical.lanesDone (h : Canonical s) {gid id lanes} : Canonical (s.lanesDone gid id lanes) := by
  dsimp only [State.lanesDone]
  split
  · exact (Canonical.ite h.modEntry.openAt h.modEntry).freeIfDone
  · exact h.modEntry

theorem Canonical.storeNak (h : Canonical s) {q e code} : Canonical (s.storeNak q e code) := h.noteNak.lanesDone

theorem Canonical.imageBack (h : Canonical s) {gid e v} : Canonical (s.imageBack gid e v) := by
  dsimp only [State.imageBack]
  split
  · exact h
  · exact .ite h.modSplit h

theorem Canonical.peerData (h : Canonical s) {q g e v} : Canonical (s.peerData q g e v) := by
  dsimp only [State.peerData]
  split
  · exact h.modEntry
  · exact .ite h.modEntry (.ite h.modEntry.loadHere.freeIfDone
      (Canonical.ite h.modEntry h.modEntry.modGroup.imageBack).lanesDone)

theorem Canonical.peerAnswer (h : Canonical s) {req r} : Canonical (s.peerAnswer req r) := by
  dsimp only [State.peerAnswer]
  split
  · exact h
  · split
    · exact h.modM
    · split
      · exact h.modM.peerData
      · exact .ite h.modM.storeNak h.modM.lateFail
      · exact h.modM

theorem Canonical.peerSilent (h : Canonical s) {req} : Canonical (s.peerSilent req) := by
  dsimp only [State.peerSilent]
  split
  · exact h
  · split
    · exact h.modM
    · exact .ite h.modM.storeNak h.modM.lateFail

/-! ## The tile store and the matrix array -/

theorem Canonical.markAcc (h : Canonical s) {core a} : Canonical (s.markAcc core a) := .ite h.same h

theorem Canonical.markRivals (h : Canonical s) {core gid ent accs} : Canonical (s.markRivals core gid ent accs) := by
  dsimp only [State.markRivals]
  split
  · exact h
  · split
    · exact h
    · exact h.foldl fun _ h1 => h1.modEntry

theorem Canonical.takeTile (h : Canonical s) {core wg} : Canonical (s.takeTile core wg) := by
  dsimp only [State.takeTile]
  split
  · exact h
  · exact h.modCore.foldl fun _ h1 => h1.accFill

theorem Canonical.writeTile (h : Canonical s) {g f d q b fs} : Canonical (s.writeTile g f d q b fs) := h.same

theorem Canonical.modMma (h : Canonical s) {cores gid ent f} : Canonical (s.modMma cores gid ent f) :=
  h.foldl fun _ h1 => h1.modCore

theorem Canonical.dropMma (h : Canonical s) {cores gid ent} : Canonical (s.dropMma cores gid ent) :=
  h.foldl fun _ h1 => h1.modCore

theorem Canonical.mmaStart (h : Canonical s) {core} : Canonical (s.mmaStart core) := by
  dsimp only [State.mmaStart]
  split
  · exact h
  · split
    · exact h
    · exact h.modMma.modEntry

theorem Canonical.payArray (h : Canonical s) {c price g} : Canonical (s.payArray c price g) := h.modCore.modDie

theorem Canonical.arrayCycle (h : Canonical s) {core} : Canonical (s.arrayCycle core) := by
  dsimp only [State.arrayCycle]
  split
  · exact h
  · exact .ite h (.ite h.modMma (.ite (h.foldl fun _ h1 => h1.payArray).modMma (h.foldl fun _ h1 => h1.modCore).modMma))

theorem Canonical.mmaOver (h : Canonical s) {gid ent} : Canonical (s.mmaOver gid ent) := by
  dsimp only [State.mmaOver]
  split
  · exact h
  · exact .ite (Canonical.ite (h.modEntry.foldl fun _ h1 => h1.accFill) h.modEntry).freeEntry h.modEntry

theorem Canonical.tileWritten (h : Canonical s) {core p} : Canonical (s.tileWritten core p) := .ite h h.clearBad

theorem Canonical.arrayTile (h : Canonical s) {core faults} : Canonical (s.arrayTile core faults) := by
  dsimp only [State.arrayTile]
  split
  · exact h
  · refine .ite h (.ite h.startKill (.ite h.modMma (.ite h.dropMma.lateFail ?_)))
    refine .ite (Canonical.mmaOver (Canonical.dropMma (Canonical.markRivals ?_)))
      (Canonical.modMma (Canonical.markRivals ?_))
    all_goals exact (h.foldl fun _ h1 => h1.writeTile.tileWritten).modEntry

theorem Canonical.askImage (h : Canonical t) {c : Cx} {size a} : Canonical (c.askImage t size a) :=
  h.enter.modGroup.defer

theorem Canonical.readBlock (h : Canonical t) {c : Cx} {peer size k} (hk : ∀ {accs b}, CanonicalRes (k accs b)) :
    CanonicalRes (c.readBlock t peer size k) := by
  unfold Cx.readBlock
  split
  · exact .trap
  · split
    · exact hk
    · refine .ite .hold ?_
      split
      · exact .hold
      · refine .ite (.ite .hold h.askImage.ok) (.ite .hold (.ite .trap ?_))
        split
        · exact h.consumePoison.ok
        · exact hk

theorem Canonical.mmaIssue (h : Canonical t) {c : Cx} {cl} : CanonicalRes (c.mmaIssue t cl) :=
  .ite .illegal (.ite .hold (h.readBlock fun {_ _} => .ite .illegal (.ite .trap (by
    dsimp only
    generalize worstFail _ = worst
    cases worst with
    | some _ => exact .trap
    | none => exact .ite .hold (h.takeTile.touch.enter.modGroup.foldl fun _ h1 => h1.modCore).ok))))

theorem keeps_execTileTld (hs : Issuing s) {f} : Keeps s (execTileTld f s) :=
  .issue hs fun h => by
    dsimp only
    split
    · exact .hold
    · split
      · exact .illegal
      · split
        · exact .trap
        · exact h.takeTile.cxRecord.ok

theorem keeps_execTileTst (hs : Issuing s) {f} : Keeps s (execTileTst f s) :=
  .issue hs fun h => by
    dsimp only
    split
    · exact .hold
    · split
      · exact .illegal
      · split
        · exact .trap
        · exact .ite h.takeTile.startKill.ok h.takeTile.cxRecord.ok

theorem Canonical.keepUndo (h : Canonical s) {core u} : Canonical (s.keepUndo core u) := h.modCore

theorem keeps_execTileTcvt (hs : Issuing s) {f} : Keeps s (execTileTcvt f s) :=
  .issue hs fun h => by
    dsimp only
    split
    · exact .hold
    · split
      · exact .illegal
      · split
        · exact .illegal
        · split
          · exact .trap
          · split
            · exact .trap
            · split
              · exact .trap
              · refine .ite .hold (.ite h.takeTile.startKill.ok (.ite h.takeTile.startKill.ok ?_))
                exact (h.takeTile.foldl fun _ h1 => h1.setSpad).keepUndo.countBanks.modSplit.ok

theorem Canonical.tldStep (h : Canonical s) {gid e} : Canonical (s.tldStep gid e) := by
  dsimp only [State.tldStep]
  split
  · exact h
  · split
    · exact h.lateFail
    · split
      · exact h.startKill
      · split
        · exact h.consumePoison
        · exact (h.markAcc.foldl fun _ h1 => (h1.foldl fun _ h2 => h2.same).touchLoc).tileWritten.modEntry.freeIfDone

theorem Canonical.tstStep (h : Canonical s) {gid e} : Canonical (s.tstStep gid e) := h.storeStep

end Sys2Proof.Safety
end

section
/-! SUPPORT. The engines, the splits, containers and the steps of an entry keep the memories canonical. -/

namespace Sys2Proof.Safety

open Machine

variable {s t : State}

/-! ## Copy engines -/

theorem Canonical.writePromise (h : Canonical s) {d e j} : Canonical (s.writePromise d e j) := h.objWrite.modCopy

theorem Canonical.acceptCopy (h : Canonical s) {d e j} : Canonical (s.acceptCopy d e j).1 :=
  .ite h.same.modEngine.writePromise h.same.modEngine

theorem Canonical.flushPromises (h : Canonical s) {d} : Canonical (s.flushPromises d) :=
  h.foldl fun _ h1 => h1.foldl fun _ h2 => .ite h2.writePromise h2

theorem Canonical.pieceFails (h : Canonical s) {d e j dst a r} : Canonical (s.pieceFails d e j dst a r) := by
  dsimp only [State.pieceFails]
  split
  · exact h.stopCopy
  · exact h.stopCopy
  · split
    · split
      · exact h
      · split
        · exact (Canonical.fst h.postFault ‹_›).modCopy
        · exact (Canonical.fst h.postFault ‹_›).stopCopy
    · exact h.stopCopy
  · exact h

theorem Canonical.sendPiece (h : Canonical s) {d e j off n peer addr route op img} :
    Canonical (s.sendPiece d e j off n peer addr route op img) :=
  h.same

theorem Canonical.startPiece (h : Canonical s) {d e} : Canonical (s.startPiece d e) := by
  dsimp only [State.startPiece]
  split
  · exact h
  · split
    · split
      · exact h.stopCopy
      · split
        · exact h.stopCopy
        · split
          · split
            · exact h.stopCopy
            · split
              · exact h
              · split
                · exact h.modEngine.modCopy.pktStart.sendPiece
                · exact h.modEngine.modCopy.pktStart
          · exact h.pieceFails
    · exact h.pieceFails

theorem Canonical.pieceWrite (h : Canonical s) {l bs} : Canonical (s.pieceWrite l bs) := by
  dsimp only [State.pieceWrite]
  split
  · exact h.publishBytes.modM
  · exact h.setHost
  · exact h.setSpad
  · exact h

theorem Canonical.unitDone (h : Canonical s) {d e} : Canonical (s.unitDone d e) := .ite h h.modEngine

theorem Canonical.pieceDone (h : Canonical s) {d e j p good} : Canonical (s.pieceDone d e j p good) := by
  dsimp only [State.pieceDone]
  split
  · split
    · split
      · exact h.modCopy.unitDone.modArrive.modEntry.finishCopy
      · exact h.modCopy.unitDone.modArrive.finishCopy
    · split
      · exact h.modCopy.unitDone.modArrive.modEntry
      · exact h.modCopy.unitDone.modArrive
  · split
    · split
      · exact h.modCopy.modEntry.finishCopy
      · exact h.modCopy.finishCopy
    · split
      · exact h.modCopy.modEntry
      · exact h.modCopy

theorem Canonical.pieceStop (h : Canonical s) {d e j p cause nak a} : Canonical (s.pieceStop d e j p cause nak a) :=
  h.modCopy.pieceDone

theorem Canonical.landData (h : Canonical s) {d e j p l} : Canonical (s.landData d e j p l) := by
  dsimp only [State.landData]
  split
  · split
    · exact h.pieceStop
    · exact h.sendPiece.modCopy
  · split
    · exact h.consumePoison
    · exact h.pieceWrite.pieceDone.same

theorem Canonical.landPiece (h : Canonical s) {d e} : Canonical (s.landPiece d e) := by
  dsimp only [State.landPiece]
  split
  · exact h
  · split
    · exact h.pieceStop
    · split
      · exact h.pieceStop
      · split
        · exact h.landData
        · split
          · exact h.consumePoison
          · exact h.landData

theorem Canonical.pieceAnswer (h : Canonical s) {q r} : Canonical (s.pieceAnswer q r) := by
  dsimp only [State.pieceAnswer]
  split
  · exact h
  · split
    · exact h.modCopy
    · exact h.modCopy
    · exact h.pieceStop
    · exact h.pieceDone

theorem Canonical.pieceSilent (h : Canonical s) {q} : Canonical (s.pieceSilent q) := by
  dsimp only [State.pieceSilent]
  split
  · exact h
  · exact h.pieceStop

theorem Canonical.copyIssue (h : Canonical t) {c : Cx} {ty} : CanonicalRes (c.copyIssue t ty) := by
  dsimp only [Cx.copyIssue]
  split
  · exact .illegal
  · split
    · exact .hold
    · split
      · exact .priv
      · exact h.readBlock
            (by
              intro _ _
              split
              · exact .illegal
              · split
                · exact .priv
                · split
                  · exact .trap
                  · exact h.touch.acceptCopy.enter.modGroup.giveSp.ok)

theorem keeps_execCpRekey (hs : Issuing s) {f} : Keeps s (execCpRekey f s) :=
  .issue hs fun h => by
    dsimp only
    split
    · exact .illegal
    · exact .ite .priv h.giveSp.ok

theorem keeps_execCpCancel (hs : Issuing s) {f} : Keeps s (execCpCancel f s) :=
  .issue hs fun h => by
    dsimp only
    split
    · exact .illegal
    · split
      · exact .priv
      · split
        · exact .ite h.modCopy.giveSp.ok h.giveSp.ok
        · exact h.giveSp.ok

theorem Canonical.flushCancels (h : Canonical s) {d} : Canonical (s.flushCancels d) :=
  h.foldl fun _ h1 => h1.foldl fun _ h2 => .ite (Canonical.ite h2.writePromise h2).stopCopy h2

/-! ## Collectives -/

theorem Canonical.acceptColl (h : Canonical s) {d j} : Canonical (s.acceptColl d j).1 :=
  .ite h.same.modDie h.same.modDie.modSlice

theorem Canonical.collWrite (h : Canonical s) {d j a bs} : ∀ u, s.collWrite d j a bs = .ok u → Canonical u := by
  intro u e
  unfold State.collWrite at e
  split at e
  · split at e
    · cases e
    · split at e
      · cases e
      · split at e
        · cases e
        · cases e; exact h.setSpad
  · split at e
    · cases e
    · cases e; exact .getD h.engineWrite h

theorem Canonical.leaveParts (h : Canonical s) {j l} : Canonical (s.leaveParts j l) := h.foldl fun _ h1 => h1.modDie

theorem Canonical.tileDown (h : Canonical s) {d j t} : Canonical (s.tileDown d j t) := by
  dsimp only [State.tileDown]
  split
  · split
    · split
      · exact h.modDie.unitDone.modArrive.modEntry.leaveParts.finishColl
      · exact h.modDie.unitDone.modArrive.leaveParts.finishColl
    · split
      · exact h.modDie.unitDone.modArrive.modEntry.stopColl
      · exact h.modDie.unitDone.modArrive.stopColl
    · split
      · exact h.modDie.unitDone.modArrive.modEntry.consumePoison
      · exact h.modDie.unitDone.modArrive.consumePoison
    · split
      · exact h.modDie.unitDone.modArrive.modEntry
      · exact h.modDie.unitDone.modArrive
  · split
    · exact h.modDie.unitDone.modArrive.modEntry
    · exact h.modDie.unitDone.modArrive

theorem Canonical.modColl (h : Canonical s) {d id f} : Canonical (s.modColl d id f) := h.modDie

theorem Canonical.sendTiles (h : Canonical s) {d id t l} : ∀ u, State.sendTiles d id t l s = .ok u → Canonical u := by
  induction l generalizing s with
  | nil => intro u e; cases e; exact h
  | cons m r ih =>
    intro u e
    simp only [State.sendTiles] at e
    split at e
    · cases e
    · split at e
      · split at e
        · cases e; exact h
        · exact ih (h.modSlice.modColl.pktStart) u e
      · cases e

theorem Canonical.badPart (h : Canonical s) {p} : Canonical (s.badPart p) := by
  dsimp only [State.badPart]
  split
  · exact h.stopColl
  · exact h.consumePoison
  · exact h

theorem Canonical.startGivers (h : Canonical s) {j l} : Canonical (s.startGivers j l) :=
  h.foldl fun _ h1 => by
    split
    · exact h1.pktStart
    · exact h1

theorem Canonical.putTile (h : Canonical s) {d j t} : Canonical (s.putTile d j t) := by
  dsimp only [State.putTile]
  split
  · exact h.badPart
  · split
    · exact h.stopColl
    · exact h.consumePoison
    · exact (h.startGivers.pktStart.collWrite _ ‹_›).tileDown

theorem Canonical.landTile (h : Canonical s) {d id t} : Canonical (s.landTile d id t) := by
  dsimp only [State.landTile]
  split
  · exact h
  · split
    · exact h
    · split
      · exact h.stopColl
      · split
        · exact h.stopColl.foldl fun _ h1 => h1.stopColl
        · split
          · exact h.finishColl
          · split
            · exact h
            · split
              · exact h.badPart
              · split
                · exact h.sendTiles _ ‹_›
                · exact .ite (h.sendTiles _ ‹_›) (h.sendTiles _ ‹_›).putTile

theorem keeps_execCollIssue (hs : Issuing s) {f} : Keeps s (execCollIssue f s) :=
  .issue hs fun h =>
    h.readBlock
      (by
        intro _ _
        split
        · exact .illegal
        · split
          · exact .trap
          · exact h.touch.acceptColl.enter.modGroup.giveSp.ok)

theorem Canonical.signalStep (h : Canonical s) {gid e} : Canonical (s.signalStep gid e) := by
  dsimp only [State.signalStep]
  split
  · exact h.freeEntry
  · split
    · exact h.freeEntry.unrecord
    · split
      · exact h.record.freeEntry.unrecord
      · exact h.modDie.record.freeEntry.unrecord

theorem Canonical.reissue (h : Canonical s) {gid id} : Canonical (s.reissue gid id) := by
  dsimp only [State.reissue]
  split
  · exact h
  · split
    · exact h
    · exact .ite h.modEntry.acceptCopy (.ite h.modEntry.acceptColl h.modEntry)

/-! ## Splits and control -/

theorem Canonical.refill (h : Canonical s) {gid} : Canonical (s.refill gid) := h.modGroup

theorem Canonical.settleParked (h : Canonical s) {gid} : Canonical (s.settleParked gid) := by
  dsimp only [State.settleParked]
  split
  · exact h.modGroup.refill
  · split
    · split
      · exact h.modGroup.refill
      · exact h.modGroup.refill.takeTrap
    · exact h.modGroup.refill

theorem Canonical.releaseEntry (h : Canonical s) {gid id} : Canonical (s.releaseEntry gid id) := by
  dsimp only [State.releaseEntry]
  split
  · exact h
  · exact .ite h.freeEntry.unrecord h.freeEntry

theorem Canonical.settleOrphans (h : Canonical s) {gid} : Canonical (s.settleOrphans gid) :=
  h.foldl fun _ h1 => .ite (.ite h1.releaseEntry (.ite h1.startKill h1.terminal)) (.ite h1.releaseEntry h1)

theorem Canonical.dropEntry (h : Canonical s) {gid id} : Canonical (s.dropEntry gid id) := by
  dsimp only [State.dropEntry]
  split
  · exact h
  · exact h.modGroup.releaseEntry

theorem Canonical.mmaAgain (h : Canonical s) {gid e} : Canonical (s.mmaAgain gid e) :=
  .ite h (h.foldl fun _ h1 => h1.modCore)

theorem Canonical.replayFailed (h : Canonical s) {gid id} : Canonical (s.replayFailed gid id) := by
  dsimp only [State.replayFailed]
  split
  · exact h
  · exact .ite h.releaseEntry (.ite h.reissue (.ite h.modEntry.mmaAgain h.giveUp.modEntry))

theorem Canonical.resumeAt (h : Canonical s) {gid born mask} : Canonical (s.resumeAt gid born mask) :=
  h.modGroup.settleParked

theorem Canonical.returnAs (h : Canonical s) {gid born mask} : Canonical (s.returnAs gid born mask) :=
  ((Canonical.ite h.dropEntry h).foldl fun _ h1 => h1.replayFailed).resumeAt

theorem Canonical.returnFrom (h : Canonical s) {gid born} : Canonical (s.returnFrom gid born) := h.returnAs

theorem Canonical.exitSplit (h : Canonical s) {gid born p} : Canonical (s.exitSplit gid born p) :=
  .settleParked (.settleOrphans (.ite h.modGroup (.ite (h.modGroup.foldl fun _ h1 => h1.dropEntry).modGroup
    (.ite h.modGroup.returnAs h.modGroup))))

theorem Canonical.goto (h : Canonical t) {c : Cx} {a} : CanonicalRes (c.goto t a) := h.modSplit.ok

theorem Canonical.jump (h : Canonical t) {c : Cx} {a} : CanonicalRes (c.jump t a) := .ite .trap h.goto

theorem Canonical.park (h : Canonical t) {c : Cx} {resync} : Canonical (c.park t resync) := h.modSplit.settleParked

theorem Canonical.sleepTo (h : Canonical t) {c : Cx} {d} : CanonicalRes (c.sleepTo t d) := .ite h.ok h.modSplit.ok

theorem Canonical.gate (h : Canonical t) {c : Cx} {shut} : Canonical (c.gate t shut) := .ite h.modCore h

theorem keeps_execChartSel (hs : Issuing s) {f} : Keeps s (execChartSel f s) :=
  .issue hs fun h => .ite .illegal (by
    split
    · exact h.giveSp.ok
    · split
      · exact .chartTrap
      · exact h.consumePoison.ok
      · exact h.giveSp.ok)

theorem keeps_execChartRd (hs : Issuing s) {f} : Keeps s (execChartRd f s) :=
  .issue hs fun h => .ite .illegal (.ite h.giveS.ok (by
    split
    · exact h.giveS.ok
    · split
      · exact .chartTrap
      · exact h.consumePoison.ok
      · exact h.giveS.ok))

/-! ## Containers -/

theorem Canonical.gatherLost (h : Canonical s) {t l entry f} : Canonical (s.gatherLost t l entry f) :=
  h.postRecord.abortDomain

theorem Canonical.formBin (h : Canonical s) {d k} : Canonical (s.formBin d k) := by
  dsimp only [State.formBin]
  split
  · exact h
  · split
    · exact h.modDie
    · split
      · exact h.gatherLost
      · exact (Canonical.getD h.same.engineWrite h).modSlice.modDie

theorem Canonical.formBins (h : Canonical s) {d t launch} : Canonical (s.formBins d t launch) :=
  h.foldl fun _ h1 => h1.formBin

theorem Canonical.closeForms (h : Canonical s) {gid sc} : Canonical (s.closeForms gid sc) := .ite h.formBins h

theorem Canonical.putRecord (h : Canonical s) {d k b r} : Canonical (s.putRecord d k b r) :=
  .ite h.modDie.formBin h.modDie

theorem Canonical.flushCouch (h : Canonical s) {gid} : Canonical (s.flushCouch gid) := .ite h h.formBins.modGroup

theorem Canonical.couchStep (h : Canonical s) {gid e} : Canonical (s.couchStep gid e) := by
  dsimp only [State.couchStep]
  split
  on_goal 1 => refine h.foldl fun _ h1 => ?_
  on_goal 2 => refine .ite (.flushCouch (.unrecord (.freeEntry (h.foldl fun _ h1 => ?_)))) (h.foldl fun _ h1 => ?_)
  all_goals
    refine .ite h1 (.ite h1.modEntry ?_)
    split
    · exact h1
    · exact h1.record.putRecord.modEntry

/-! ## The memory forms and the steps of an entry -/

theorem Canonical.cxLoad (h : Canonical t) {c : Cx} {size} : CanonicalRes (c.load t size) := by
  dsimp only [Cx.load]
  split
  · exact .trap
  · exact h.cxRecord.ok

theorem Canonical.store (h : Canonical t) {c : Cx} {size n} : CanonicalRes (c.store t size n) := by
  dsimp only [Cx.store]
  split
  · exact .trap
  · exact h.cxRecord.ok

theorem Canonical.loadS (h : Canonical t) {c : Cx} {size} : CanonicalRes (c.loadS t size) := by
  dsimp only [Cx.loadS]
  split
  · exact .trap
  · exact h.cxRecord.ok

theorem Canonical.storeS (h : Canonical t) {c : Cx} {size} : CanonicalRes (c.storeS t size) := by
  dsimp only [Cx.storeS]
  split
  · exact .trap
  · exact h.cxRecord.ok

theorem Canonical.prefetch (h : Canonical t) {c : Cx} {l} : Canonical (c.prefetch t l) := by
  dsimp only [Cx.prefetch]
  split
  · exact h
  · split
    · exact h
    · exact .ite h.fillTlb.fillLine h.fillTlb
    · exact h.fillTlb

theorem Canonical.atomic (h : Canonical t) {c : Cx} {size host v v2} : CanonicalRes (c.atomic t size host v v2) := by
  dsimp only [Cx.atomic]
  split
  · exact .trap
  · exact h.cxRecord.ok

theorem Canonical.reads (h : Canonical t) {c : Cx} {n accs k} (hk : CanonicalRes k) :
    CanonicalRes (c.reads t n accs k) := by
  unfold Cx.reads
  split
  · exact h.consumePoison.ok
  · exact hk

theorem CanonicalRes.barrier {c : Cx} {acc k} (hk : ∀ {accs}, CanonicalRes (k accs)) :
    CanonicalRes (c.barrier t acc k) := by
  unfold Cx.barrier
  split
  · exact .trap
  · exact hk

theorem Canonical.spoil (h : Canonical t) {c : Cx} {accs} : Canonical (c.spoil t accs) := by
  dsimp only [Cx.spoil]
  split
  · exact h
  · exact .ite h.homeWrite h

theorem keeps_execBarArriveWait (hs : Issuing s) {f} : Keeps s (execBarArriveWait f s) :=
  .issue hs fun h => by
    split
    · exact h.await
    · exact .barrier h.cxRecord.await

theorem CanonicalRes.objects {c : Cx} {acc k} (hk : ∀ {accs}, CanonicalRes (k accs)) :
    CanonicalRes (c.objects t acc k) := by
  unfold Cx.objects
  split
  · exact .trap
  · exact hk

theorem CanonicalRes.counter {c : Cx} {acc k} (hk : ∀ {accs}, CanonicalRes (k accs)) :
    CanonicalRes (c.counter t acc k) := by
  unfold Cx.counter
  split
  · exact .trap
  · exact hk

theorem CanonicalRes.fabric {c : Cx} {k} (hk : ∀ {accs}, CanonicalRes (k accs)) : CanonicalRes (c.fabric t k) :=
  .ite hk .trap

theorem Canonical.entryStep (h : Canonical s) {gid id} : Canonical (s.entryStep gid id) := by
  dsimp only [State.entryStep]
  split
  · exact h
  · split
    · exact h
    · split
      · exact .ite h.collectStep h
      · split
        · exact h
        · split
          · exact h.modEntry.loadStep
          · exact h.modEntry.closeStep
          · exact .ite h.modEntry h.modEntry.signalStep
          · split
            · exact h.modEntry.tldStep
            · exact h.modEntry.tstStep
            · exact h.modEntry
          · exact h.modEntry.couchStep
          · exact h.modEntry
          · exact h.modEntry
          · exact h.modEntry.storeStep

theorem Canonical.syncHistory (h : Canonical s) {gid e} : Canonical (s.syncHistory gid e) := .ite h h.modDie

theorem Canonical.entryDone (h : Canonical s) {gid id} : Canonical (s.entryDone gid id) := by
  dsimp only [State.entryDone]
  split
  · exact h.entryStep.syncHistory
  · exact h.entryStep

theorem Canonical.homeRequest (h : Canonical s) {gid id lane} : Canonical (s.homeRequest gid id lane) := by
  dsimp only [State.homeRequest]
  split
  · exact h
  · split
    · exact h
    · exact .ite h (.ite h.modEntry.homeStep (.ite h.modEntry.signalStep (.ite h.modEntry.couchStep h.modEntry)))

theorem Canonical.stopWait (h : Canonical s) {gid born} : Canonical (s.stopWait gid born) := h.modSplit

theorem Canonical.wakeWait (h : Canonical s) {gid born} : Canonical (s.wakeWait gid born) := by
  unfold State.wakeWait
  split
  · exact h
  · split
    · exact h
    · split
      · exact h
      · refine .ite h (.ite h.stopWait (.ite (.ite h h.same) ?_))
        split
        · exact h.tryWait.of_pending ‹_›
        · exact h.tryWait.of_done ‹_›
        · exact h.takeTrap

theorem Canonical.promiseDue (h : Canonical s) {gid born} : Canonical (s.promiseDue gid born) := by
  dsimp only [State.promiseDue]
  split
  · exact h
  · split
    · exact h
    · exact .ite (.ite h.modSplit h) h.wakeWait

theorem Canonical.wakeSleep (h : Canonical s) {gid born} : Canonical (s.wakeSleep gid born) := by
  dsimp only [State.wakeSleep]
  split
  · exact h
  · split
    · exact h
    · exact .ite h.waitOver h

theorem keeps_execPeerResponse {req r} : Keeps s (execPeerResponse req r s) :=
  .next fun h => by
    split
    · exact h
    · exact .ite h.modM.pieceAnswer h.peerAnswer

theorem keeps_execPeerTimeout {req} : Keeps s (execPeerTimeout req s) :=
  .next fun h => by
    split
    · exact h
    · exact .ite h (.ite h.modM.pieceSilent h.peerSilent)

end Sys2Proof.Safety
end

section
/-! SUPPORT. Power, links, slices, queues and containment keep the memories canonical. -/

namespace Sys2Proof.Safety

open Machine

variable {s t : State}

/-! ## Power -/

theorem Canonical.locked (h : Canonical s) {off} : Canonical (s.locked off) := h.modM

theorem Canonical.writeWays (h : Canonical s) {d v} : Canonical (s.writeWays d v) := (Canonical.ite h.locked h).modDie

theorem Canonical.beginFall (h : Canonical s) {d exhausted} : Canonical (s.beginFall d exhausted) :=
  h.watchClaims.settle.modDie

theorem keeps_execBoostRise {die} : Keeps s (execBoostRise die s) :=
  .next fun h => .ite h.watchClaims.modDie h

theorem Canonical.grantBoost (h : Canonical s) {d old} : Canonical (s.grantBoost d old) :=
  .ite h.modDie (.ite (Canonical.ite h.beginFall h).modDie h.modDie)

theorem Canonical.writePower (h : Canonical s) {d v} : Canonical (s.writePower d v) := by
  dsimp only [State.writePower]
  split
  · exact h.modDie
  · exact h.modDie.grantBoost.modDie

theorem Canonical.powerOff (h : Canonical s) {d} : Canonical (s.powerOff d) := by
  obtain ⟨mem, host, spad⟩ := h
  exact ⟨mem, host, Memory.wf_filter _ _ _ spad⟩

theorem Canonical.emptyDie (h : Canonical s) {d} : Canonical (s.emptyDie d) := h.same

theorem Canonical.hardenRepairs (h : Canonical s) {d} : Canonical (s.hardenRepairs d) := h.same

theorem keeps_execHostStateTransitionDone {die} : Keeps s (execHostStateTransitionDone die s) :=
  .next fun h =>
    have hardened {c : Prop} {_ : Decidable c} : Canonical (if c then s.hardenRepairs die else s) := h.hardenRepairs.ite h
    .ite hardened (.modDie (.ite hardened.powerOff (.ite hardened.emptyDie hardened)))

theorem Canonical.dropDebt (h : Canonical s) {t} : Canonical (s.dropDebt t) := h.same

theorem Canonical.writeTherm (h : Canonical s) {d v} : Canonical (s.writeTherm d v) := h.modDie

/-! ## Links and the requests of peers -/

theorem Canonical.chargeMeter (h : Canonical s) {t k payload} :
    ∀ u, s.chargeMeter t k payload = some u → Canonical u := by
  intro u e
  dsimp only [State.chargeMeter] at e
  split at e
  · cases e; exact h
  · split at e
    · cases e; exact h.modSlice
    · cases e

theorem Canonical.sendUal (h : Canonical s) {t} : Canonical (s.sendUal t) := by
  dsimp only [State.sendUal]
  split
  · exact h
  · split
    · exact h
    · exact (h.chargeMeter _ ‹_›).modM

theorem Canonical.sendEth (h : Canonical s) {t} : Canonical (s.sendEth t) := by
  dsimp only [State.sendEth]
  split
  · exact h
  · split
    · exact h
    · exact (h.chargeMeter _ ‹_›).modM

theorem keeps_execFabricPacketSend {slice ual} : Keeps s (execFabricPacketSend slice ual s) :=
  .next fun h => .ite h.sendUal h.sendEth

theorem Canonical.hold (h : Canonical s) {w} : Canonical (s.hold w) := h.modM

theorem Canonical.peerStore (h : Canonical s) {t va a e bs} : Canonical (s.peerStore t va a e bs) :=
  .ite (.getD h.engineWrite h) (Canonical.getD h.engineWrite h).plain

theorem Canonical.peerAtomic (h : Canonical s) {e a bs} : Canonical (s.peerAtomic e a bs) :=
  .ite h.setHost h.mixHomes.publishBytes

theorem Canonical.peerPerform (h : Canonical s) {r va e a} : Canonical (s.peerPerform r va e a).1 := by
  dsimp only [State.peerPerform]
  split
  · split
    · exact h
    · exact h.peerAtomic
  · exact h.peerStore
  · exact h.peerStore
  · exact h

theorem Canonical.pruneWindows (h : Canonical s) {r} : Canonical (s.pruneWindows r) := .ite h h.modM

theorem Canonical.peerInbound (h : Canonical s) {r} : Canonical (s.peerInbound r) := by
  dsimp only [State.peerInbound]
  split
  · exact Canonical.modM (.ite h.postPf h.postRecord)
  · split
    · exact Canonical.modM (.ite h.postPf h.postRecord)
    · refine .ite h.hold ?_
      split
      · exact h.pruneWindows.modM
      · split
        · exact h.pruneWindows.consumePoison
        · exact Canonical.modM (.ite h.pruneWindows.peerPerform.record h.pruneWindows.peerPerform)

theorem Canonical.writeMcjoin (h : Canonical s) {slice entry word v} : Canonical (s.writeMcjoin slice entry word v) :=
  .ite h h.modM

theorem Canonical.bar2 (h : Canonical s) {op off size data data2} : Canonical (s.bar2 op off size data data2) := by
  dsimp only [State.bar2]
  split
  · exact h.modM.modM
  · split
    · exact h.hold
    · split
      · exact (Canonical.ite h h.locked).modM
      · split
        · exact h.modM
        · split
          · exact h.postPf.modM
          · split
            · split
              · exact h.publishBytes.plain
              · exact h
            · split
              · exact h.publishBytes.plain.modM
              · exact h.modM

theorem Canonical.rdma (h : Canonical s) {slice r} : Canonical (s.rdma slice r) := by
  dsimp only [State.rdma]
  split
  · exact .ite (.ite h.hold (.getD h.engineWrite h)) h
  · split
    · split
      · split
        · exact h.hold
        · split
          · exact h.consumePoison
          · split
            · exact h.modM
            · exact h
      · exact h
    · split
      · split
        · exact h.hold
        · split
          · exact h.consumePoison
          · split
            · exact h.modM
            · exact h
      · exact h
  · exact .ite h.modM h

theorem Canonical.tryWaiting (h : Canonical s) : Canonical (s.tryWaiting) := by
  refine .foldl (.modM (.foldl h.modM fun _ h1 => ?_)) fun _ h1 => h1.objAgain
  split
  · exact h1.peerInbound
  · exact h1.bar2
  · exact h1.rdma

/-! ## Frames, slices and functions -/

theorem Canonical.setOwner (h : Canonical s) {f o} : Canonical (s.setOwner f o) := h.setMem

theorem Canonical.zeroFrame (h : Canonical s) {f} : Canonical (s.zeroFrame f) := .ite h h.filterMem.modDie.modM

theorem Canonical.garble (h : Canonical s) {f} : Canonical (s.garble f) := h.setMem

theorem Canonical.drawKey (h : Canonical s) {t} : Canonical (s.drawKey t) := h.modSlice.modM

theorem Canonical.ownDone (h : Canonical s) {res f} : Canonical (s.ownDone res f) := h.modM

theorem Canonical.ownGo (h : Canonical s) {mode f owner} : Canonical (s.ownGo mode f owner) :=
  .ite h.modM.modM (.ite h.modM.ownDone h.modM.modM)

theorem Canonical.ownEffect (h : Canonical s) {j} : Canonical (s.ownEffect j) := by
  dsimp only [State.ownEffect]
  split
  · exact h.zeroFrame.setOwner
  · exact h.setOwner
  · exact h.zeroFrame.setOwner
  · exact h

theorem Canonical.ownFinish (h : Canonical s) : Canonical (s.ownFinish) := by
  dsimp only [State.ownFinish]
  split
  · exact h
  · exact h.ownEffect.dropOwners.modM.ownDone

theorem Canonical.setEfloorOn (h : Canonical s) {t ks} : Canonical (s.setEfloorOn t ks) := h.modSlice

theorem Canonical.setEfloor (h : Canonical s) {t} : Canonical (s.setEfloor t) := h.setEfloorOn

theorem Canonical.fuseFailed (h : Canonical s) {cores} : Canonical (s.fuseFailed cores) :=
  h.foldl fun _ h1 => .ite h1.modM.modCore.postPf h1.modM.modCore

theorem Canonical.create (h : Canonical s) {t} : Canonical (s.create t) := .ite h.modSlice.drawKey h

theorem Canonical.activate (h : Canonical s) {t} : Canonical (s.activate t) :=
  .ite h (.ite h.modSlice (h.modSlice.fuseFailed.foldl fun _ h1 => .ite h1 h1.scrubCore).setEfloor)

theorem Canonical.release (h : Canonical s) {f} : Canonical (s.release f) := h.zeroFrame.setOwner.dropOwners

theorem Canonical.dissolve (h : Canonical s) {t} : Canonical (s.dissolve t) :=
  .ite h.locked (.ite h (h.dropWork.dropDebt.modSlice.foldl fun _ h1 => h1.release))

theorem Canonical.freeCores (h : Canonical s) {t} : Canonical (s.freeCores t) := h.foldl fun _ h1 => h1.scrubCore

theorem Canonical.writeDeckle (h : Canonical s) {t off v} : Canonical (s.writeDeckle t off v) := by
  dsimp only [State.writeDeckle]
  split
  · split
    · exact (Canonical.ite h.modSlice (.ite h.locked h)).create
    · exact (Canonical.ite h.modSlice (.ite h.locked h)).activate
    · exact (Canonical.ite h.modSlice (.ite h.locked h)).dissolve
    · exact .ite h.modSlice (.ite h.locked h)
  · exact .ite h.modSlice h.locked

theorem Canonical.bandWindow (h : Canonical s) {k want} : Canonical (s.bandWindow k want) := h.modStack.same

theorem keeps_execHbmThermalLevelChange {stack temp} : Keeps s (execHbmThermalLevelChange stack temp s) :=
  .next fun h => .ite h.modStack (h.modStack.foldl fun _ h1 => .ite h1.setEfloorOn.postVf h1.setEfloorOn)

theorem Canonical.regenerate (h : Canonical s) {t} : Canonical (s.regenerate t) :=
  .ite (h.drawKey.foldl fun _ h1 => h1.garble).same h

theorem Canonical.startFlr (h : Canonical s) {t} : Canonical (s.startFlr t) := by
  dsimp only [State.startFlr]
  split
  · exact h
  · split
    · split
      · exact (Canonical.ite h.ownFinish h).modSlice
      · exact h.modSlice
    · split
      · exact (Canonical.ite h.ownFinish h).dropWork.dropDebt.regenerate.modSlice
      · exact h.dropWork.dropDebt.regenerate.modSlice

theorem Canonical.endFlr (h : Canonical s) {t} : Canonical (s.endFlr t) := h.modSlice

theorem Canonical.nextVfReset (h : Canonical s) {n} : Canonical (s.nextVfReset n) := by
  induction n generalizing s with
  | zero => exact h
  | succ n ih => exact .ite h (.ite h.modM (.ite h.startFlr (ih h.startFlr.modM)))

theorem Canonical.spdmReply (h : Canonical s) {fn code l} : Canonical (s.spdmReply fn code l) := h.modSlice.modM

theorem Canonical.spdmIf (h : Canonical s) {fn ok} (ht : Canonical t) : Canonical (s.spdmIf fn ok t) :=
  .ite h (.ite ht h.modM)

theorem keeps_execGetMeasurements {fn index} : Keeps s (execGetMeasurements fn index s) :=
  .next fun h => by
    split
    · exact h.spdmIf h.spdmReply
    · exact h.spdmIf h

theorem Canonical.tdisp (h : Canonical s) {fn m} : Canonical (s.tdisp fn m) := by
  dsimp only [State.tdisp]
  split
  · exact .ite h.modSlice.spdmReply (h.spdmIf h)
  · exact .ite h.modSlice.spdmReply (h.spdmIf h)
  · exact h.spdmReply.startFlr
  · exact h.spdmReply
  · exact h.spdmReply

theorem keeps_execSetImportKey {fn body} : Keeps s (execSetImportKey fn body s) :=
  .next fun h => h.spdmIf (.ite h.spdmReply (.ite h.spdmReply (.ite h.spdmReply h.modSlice.spdmReply)))

theorem Canonical.moduleReset (h : Canonical s) : Canonical s.moduleReset := by
  obtain ⟨-, host, -⟩ := h
  exact ⟨rfl, host, rfl⟩

theorem Canonical.fwload (h : Canonical s) {len} : Canonical (s.fwload len) :=
  .ite h.modM (.ite h.modM h.modM.modM.same)

theorem Canonical.flashDone (h : Canonical s) : Canonical (s.flashDone) := by
  dsimp only [State.flashDone]
  split
  · exact h
  · exact .ite h (.ite h.modM.moduleReset h.modM)

/-! ## Command queues -/

theorem Canonical.modQueue (h : Canonical s) {t k f} : Canonical (s.modQueue t k f) := h.modSlice

theorem Canonical.stopQueue (h : Canonical s) {t k err tag} : Canonical (s.stopQueue t k err tag) := h.modQueue.postVf

theorem Canonical.acceptHead (h : Canonical s) {t k d rd slot} : Canonical (s.acceptHead t k d rd slot) :=
  (Canonical.getD (Canonical.getD h.engineWrite h).engineWrite (.getD h.engineWrite h)).modQueue.modDie.unitDone

theorem Canonical.addPending (h : Canonical s) {t k d rd b} : Canonical (s.addPending t k d rd b) := h.modSlice

theorem Canonical.startCadd (h : Canonical s) {t k p} : Canonical (s.startCadd t k p) := h.same.counterAdd

theorem Canonical.startMarker (h : Canonical s) {t k p} : Canonical (s.startMarker t k p) :=
  (Canonical.ite h h.objWrite).startCadd

theorem Canonical.startRegion (h : Canonical s) {t p} : Canonical (s.startRegion t p) :=
  have put {u} (hu : Canonical u) {c : Prop} {_ : Decidable c} {a l} :
      Canonical (if c then (u.engineWrite t p.die a l).getD u else u) :=
    .ite (.getD hu.engineWrite hu) hu
  put (put (put h))

theorem Canonical.startPkt (h : Canonical s) {t k p} : Canonical (s.startPkt t k p) := by
  dsimp only [State.startPkt]
  split
  · exact h.pktStart
  · exact h.startCadd.packetDone
  · exact h.startMarker.packetDone
  · exact h.startRegion.packetDone
  · exact h

theorem Canonical.startNext (h : Canonical s) {t k} : Canonical (s.startNext t k) := by
  dsimp only [State.startNext]
  split
  · exact .ite h.startPkt h
  · exact h

theorem Canonical.acceptLaunch (h : Canonical s) {t k num d b} : Canonical (s.acceptLaunch t k num d b) := by
  unfold State.acceptLaunch
  split
  · exact h.modSlice
  · exact h

theorem Canonical.parse (h : Canonical s) {t k ty take} (ht : ∀ {u n d b}, Canonical u → Canonical (take u n d b)) :
    Canonical (s.parse t k ty take) := by
  unfold State.parse
  split
  · refine .ite h (.ite h.stopQueue ?_)
    split
    · exact h.consumePoison
    · exact (ht h.acceptHead.addPending).startNext
  · exact h

theorem Canonical.queueCopy (h : Canonical s) {t k num d b} : Canonical (s.queueCopy t k num d b) := h.same.acceptCopy

theorem Canonical.parseCwait (h : Canonical s) {t k} : Canonical (s.parseCwait t k) := by
  dsimp only [State.parseCwait]
  split
  · split
    · exact h
    · split
      · exact h.stopQueue
      · split
        · exact h.consumePoison
        · exact h.stopQueue
        · exact .ite h.stopQueue (.ite h.acceptHead h)
  · exact h

theorem keeps_execPktRegion {slice k} : Keeps s (execPktRegion slice k s) :=
  .next fun h => h.parse (fun h1 => h1)

theorem keeps_execPktBadType {slice k} : Keeps s (execPktBadType slice k s) :=
  .next fun h => by
    split
    · exact h
    · exact h.consumePoison
    · exact h.stopQueue
    · exact .ite h.stopQueue h

theorem Canonical.writeQueue (h : Canonical s) {t k v} : Canonical (s.writeQueue t k v) := .ite h.modQueue h

/-! ## Poison, strikes and tests -/

theorem Canonical.postPoison (h : Canonical s) {a} : Canonical (s.postPoison a) := .ite h.postPf.postRecord h.postPf

theorem Canonical.poisonSite (h : Canonical s) {site} : Canonical (s.poisonSite site) := by
  dsimp only [State.poisonSite]
  split
  · exact h.modM.postPoison
  · exact h.modCore
  · exact h.markBad

theorem Canonical.unpair (h : Canonical s) {j} : Canonical (s.unpair j) :=
  h.foldl fun _ h1 => by
    split
    · exact h1
    · exact h1.modSlice.same

theorem Canonical.dropMade (h : Canonical s0) {gid g ck cyc} : Canonical (s0.dropMade gid g ck cyc) :=
  (h.foldl fun _ h1 => h1.unpair).same

theorem Canonical.rollGroup (h : Canonical s) {now cyc gid ck} : Canonical (s.rollGroup now cyc gid ck) := by
  dsimp only [State.rollGroup]
  split
  · exact h
  · exact .ite h h.dropMade.modGroup.modSlice

theorem Canonical.undo (h : Canonical s) {core u} : Canonical (s.undo core u) := by
  dsimp only [State.undo]
  split
  · exact h.foldl fun _ h1 => .ite h1.setSpad h1
  · exact (h.foldl fun _ h1 => .ite h1.setSpad h1).same.modCore

theorem Canonical.undoSince (h : Canonical s) {core cyc gid} : Canonical (s.undoSince core cyc gid) :=
  (h.foldl fun _ h1 => h1.undo).modCore

theorem Canonical.rollCore (h : Canonical s) {now core ck} : Canonical (s.rollCore now core ck) :=
  h.modCore.modCore.undoSince.foldl fun _ h1 => by
    split
    · exact h1.rollGroup
    · exact h1

theorem Canonical.dropHeld (h : Canonical s) {now cores} : Canonical (s.dropHeld now cores) := h.same

theorem Canonical.countStrike (h : Canonical s) {d cl} : Canonical (s.countStrike d cl) :=
  .ite h.modDie.modDie.postPf h.modDie

theorem Canonical.strike (h : Canonical s) {d cl} : Canonical (s.strike d cl) := by
  dsimp only [State.strike]
  split
  · exact h.dropHeld.modDie.same.countStrike
  · exact (h.foldl fun _ h1 => h1.rollCore).modDie.dropHeld.modDie.same.countStrike

theorem Canonical.strikeEnd (h : Canonical s) {d cl} : Canonical (s.strikeEnd d cl) := h.modDie

theorem Canonical.failEngine (h : Canonical s) {t d eng} : Canonical (s.failEngine t d eng) :=
  .ite h.same (.ite (h.foldl fun _ h1 => h1.stopCopy) (h.foldl fun _ h1 => h1.stopColl))

theorem Canonical.mismatch (h : Canonical s) {t eng} : Canonical (s.mismatch t eng) := by
  dsimp only [State.mismatch]
  split
  · exact h
  · exact .ite h (.ite h.modEngine h.failEngine.modEngine.postPf)

theorem Canonical.askRetire (h : Canonical s) {k ch bank} : Canonical (s.askRetire k ch bank) :=
  .ite h h.modStack.postPf

theorem Canonical.startRepair (h : Canonical s) {k r} : Canonical (s.startRepair k r) :=
  .ite h.askRetire (.ite h (.ite (.ite h.modStack h.askRetire) (.ite h.modStack h.askRetire)))

theorem Canonical.endRepair (h : Canonical s) {k} : Canonical (s.endRepair k) := by
  dsimp only [State.endRepair]
  split
  · exact h
  · exact h.modStack.postPf

theorem keeps_execRepairDone {stack} : Keeps s (execRepairDone stack s) :=
  .next fun h => h.endRepair

theorem Canonical.retireBank (h : Canonical s) {k v} : Canonical (s.retireBank k v) :=
  .ite h.modStack (.ite h.modStack (.ite h.modStack (h.foldl fun _ h1 => h1.setOwner).modStack.modStack))

theorem Canonical.checkKernels (h : Canonical s) : Canonical (s.checkKernels) := h.modM

theorem Canonical.startTest (h : Canonical s) {core} : Canonical (s.startTest core) :=
  .ite h.checkKernels.modCore.modDie h

theorem Canonical.abandonTest (h : Canonical s) {core} : Canonical (s.abandonTest core) := .ite h h.modCore.scrubCore

end Sys2Proof.Safety
end

section
/-! SUPPORT. Residence, saves, migration, rings, debug and the registers keep the memories canonical. -/

namespace Sys2Proof.Safety

open Machine

variable {s t : State}

/-! ## Residence and saves -/

theorem Canonical.deal (h : Canonical s) {t id} : Canonical (s.deal t id) := by
  dsimp only [State.deal]
  split
  · exact h
  · split
    · exact h
    · split
      · exact h
      · exact h.abandonTest.modCore.modSlice

theorem Canonical.setMode (h : Canonical s) {core fused} : Canonical (s.setMode core fused) :=
  .ite h ((h.foldl fun _ h1 => h1.flushL1).foldl fun _ h1 => h1.modCore)

theorem Canonical.addGroups (h : Canonical s) {core l} : Canonical (s.addGroups core l) := h.same.modDie

theorem Canonical.freshSpad (h : Canonical s) {core base size} : Canonical (s.freshSpad core base size) :=
  .ite h h.loadSpad.same

theorem Canonical.makeResident (h : Canonical s) {core w} : Canonical (s.makeResident core w) :=
  h.setMode.same.freshSpad.addGroups.modCore

theorem Canonical.passEarlier (h : Canonical s) {core gathers} : Canonical (s.passEarlier core gathers) :=
  h.same.modSlice

theorem Canonical.residentStep (h : Canonical s) {core} : Canonical (s.residentStep core) := by
  dsimp only [State.residentStep]
  split
  · exact h
  · exact .ite h.abandonTest h.makeResident.modCore.passEarlier

theorem Canonical.gatherStep (h : Canonical s) {t id} : Canonical (s.gatherStep t id) := by
  dsimp only [State.gatherStep]
  split
  · exact h
  · split
    · exact h
    · split
      · exact h.abandonTest
      · split
        · exact h.gatherLost
        · exact h.setMode.same.addGroups.modCore.modSlice.passEarlier

theorem Canonical.firstLook (h : Canonical s) {core part} : Canonical (s.firstLook core part) := .ite h h.modCore

theorem Canonical.fillSlot (h : Canonical s) {core part slot} : Canonical (s.fillSlot core part slot) :=
  (h.foldl fun _ h1 => .ite h1 h1.passed).modCore.same

theorem Canonical.slotStep (h : Canonical s) {core part slot} : Canonical (s.slotStep core part slot) :=
  h.firstLook.fillSlot

theorem Canonical.flagStarving (h : Canonical s) {gid born} : Canonical (s.flagStarving gid born) := h.modSplit.modCore

theorem Canonical.payCore (h : Canonical s) {core} : Canonical (s.payCore core) := .ite h.modDie h.modDie.modCore

theorem Canonical.refill1 (h : Canonical s) {d} : Canonical (s.refill1 d) := .ite h (h.foldl fun _ h1 => h1.payCore)

theorem Canonical.emptyBuckets (h : Canonical s) {d cl} : Canonical (s.emptyBuckets d cl) :=
  h.foldl fun _ h1 => h1.modCore

theorem Canonical.grant (h : Canonical s) {d} : Canonical (s.grant d) := by
  dsimp only [State.grant]
  split
  · split
    · exact h
    · split
      · exact h
      · exact h.modDie
  · split
    · exact h
    · split
      · exact h
      · exact h.modDie

theorem Canonical.dropUnsent (h : Canonical s) {gid} : Canonical (s.dropUnsent gid) := by
  dsimp only [State.dropUnsent]
  split
  · exact h
  · split
    · exact h.undoSince.rollGroup
    · exact h

theorem Canonical.dropFaulted (h : Canonical s) {d} : Canonical (s.dropFaulted d) :=
  h.foldl fun _ h1 => h1.dropUnsent.modGroup

theorem Canonical.freeze (h : Canonical s) {gid why} : Canonical (s.freeze gid why) :=
  .ite h.modGroup (.ite h h.modGroup.dropUnsent)

theorem Canonical.evict (h : Canonical s) {core n} : Canonical (s.evict core n) := by
  dsimp only [State.evict]
  split
  · exact h
  · exact (h.foldl fun _ h1 => h1.freeze.modGroup).same.modCore

theorem keeps_execEvictFor {core wg} : Keeps s (execEvictFor core wg s) :=
  .next fun h => by
    split
    · exact h
    · exact .ite h.evict h

theorem Canonical.tidyCtxs (h : Canonical s) {t} : Canonical (s.tidyCtxs t) := .ite h h.modSlice.modM

theorem Canonical.launchDone (h : Canonical s) {t id} : Canonical (s.launchDone t id) := by
  dsimp only [State.launchDone]
  split
  · exact h
  · exact .ite h.counterAdd.modSlice.packetDone.tidyCtxs h

theorem Canonical.leaveSlot (h : Canonical s) {gid g} : Canonical (s.leaveSlot gid g) := h.modCore

theorem Canonical.retire (h : Canonical s) {gid} : Canonical (s.retire gid) := by
  dsimp only [State.retire]
  split
  · exact h
  · refine .ite h (.ite ?_ (.ite (.launchDone (.modSlice ?_))
      (.launchDone (.ite (.foldl (.modSlice ?_) fun _ h1 => h1.formBins) (.modSlice ?_)))))
    all_goals exact h.dropPrivate.leaveSlot.same.dropEmptyWgs.watchClaims

theorem Canonical.presetUsage (h : Canonical s) {t id} : Canonical (s.presetUsage t id) :=
  h.foldl fun _ h1 => h1.modSlice

theorem Canonical.releaseDue (h : Canonical s) {t} : Canonical (s.releaseDue t) :=
  .ite h (.ite h (h.foldl fun _ h1 => h1.presetUsage).modSlice.same)

theorem Canonical.areaLost (h : Canonical s) {gid f} : Canonical (s.areaLost gid f) := h.terminal.releaseDue

theorem Canonical.rung3 (h : Canonical s) {t} : Canonical (s.rung3 t) := h.modSlice.startKill

theorem Canonical.tieJobs (h : Canonical s) {t core w} : Canonical (s.tieJobs t core w) := h.same

theorem Canonical.markImage (h : Canonical s) {w core a} : Canonical (s.markImage w core a) :=
  h.foldl fun _ h1 => h1.markBad

theorem Canonical.markLoaded (h : Canonical s) {t core a base size n} :
    Canonical (s.markLoaded t core a base size n) :=
  .ite h (h.foldl fun _ h1 => .ite h1.markBad h1)

theorem Canonical.saveWhole (h : Canonical s) {core w slot} : Canonical (s.saveWhole core w slot) := by
  have put {t u : State} (ht : Canonical t) {l : List Byte} {d a}
      (e : (if l.isEmpty then .ok t
        else match t.spanFail w.slice d a l.length .store with
          | some f => Except.error f
          | none => .ok ((t.engineWrite w.slice d a l).getD t)) = .ok u) : Canonical u := by
    split at e
    · cases e
      exact ht
    · split at e
      · cases e
      · cases e
        exact .getD ht.engineWrite ht
  dsimp only [State.saveWhole]
  split
  · exact h.tieJobs.same
  · split
    · exact h.areaLost
    · next u e =>
      have hu := put h e
      split
      · exact h.areaLost
      · next v e =>
        have hv := put hu e
        exact Canonical.same (Canonical.tieJobs (Canonical.markImage (.ite hv.undefRange hv)))

theorem Canonical.chargeLate (h : Canonical s) {g} : Canonical (s.chargeLate g) := .ite h.modSlice h

theorem Canonical.sweepCore (h : Canonical s) {core p} : Canonical (s.sweepCore core p) :=
  h.foldl fun _ h1 => .ite h1 h1.saveWhole

theorem Canonical.saveGroup (h : Canonical s) {gid} : Canonical (s.saveGroup gid) := by
  unfold State.saveGroup
  split
  · exact h
  · refine .ite h ?_
    split
    · exact h
    · refine .ite h ?_
      split
      · exact h.areaLost
      · exact (Canonical.getD h.engineWrite h).withdraw.dropPrivate.modGroup.chargeLate.releaseDue.watchClaims.sweepCore

theorem Canonical.untieJobs (h : Canonical s) {w nums b1} : Canonical (s.untieJobs w nums b1) := h.same

theorem Canonical.loadTile (h : Canonical s) {core img} : Canonical (s.loadTile core img) :=
  (h.foldl fun _ h1 => h1.accFill).same

theorem Canonical.loadWhole (h : Canonical s) {core gid w} : Canonical (s.loadWhole core gid w) := by
  dsimp only [State.loadWhole]
  split
  · exact h
  · split
    · exact h.areaLost
    · refine Canonical.same (.modCore (.untieJobs (.ite (.markLoaded ?_) ?_)))
      all_goals exact .ite h.loadSpad.clearBad.loadTile.modCore h.loadSpad

theorem Canonical.countReplays (h : Canonical s) {core n} : Canonical (s.countReplays core n) := h.modCore

theorem Canonical.failedFault (h : Canonical s) {gid} : Canonical (s.failedFault gid) := by
  dsimp only [State.failedFault]
  split
  · exact h
  · exact .ite h (.ite h.terminal (.ite h.enterHandler h.noHandler))

theorem Canonical.replayEntry (h : Canonical s) {gid id} : Canonical (s.replayEntry gid id) := by
  dsimp only [State.replayEntry]
  split
  · exact h
  · split
    · exact h
    · split
      · exact h.lateFail
      · split
        · exact h.modEntry
        · split
          · exact h.modEntry.lateFail
          · split
            · exact (Canonical.fst h.modEntry.pageFault ‹_›).modGroup
            · exact (Canonical.fst h.modEntry.pageFault ‹_›).lateFail

theorem Canonical.reenter (h : Canonical s) {gid f} : Canonical (s.reenter gid f) := by
  refine .ite (.failedFault ?_) ?_
  all_goals exact h.setMode.addGroups.giveUp.countReplays.openAt
    |>.foldl (fun _ h1 => h1.unrecord)
    |>.foldl (fun _ h1 => h1.mmaAgain)
    |>.foldl (fun _ h1 => h1.replayEntry)

theorem Canonical.passBefore (h : Canonical s) {core at_} : Canonical (s.passBefore core at_) := h.same

theorem Canonical.restore (h : Canonical s) {gid} : Canonical (s.restore gid) := by
  dsimp only [State.restore]
  split
  · exact h
  · split
    · exact h
    · split
      · exact h.abandonTest
      · split
        · split
          · split
            · exact h.passBefore.loadWhole.areaLost
            · exact h.passBefore.areaLost
          · split
            · split
              · split
                · exact h.passBefore.loadWhole.consumePoison
                · exact h.passBefore.consumePoison
              · split
                · exact h.passBefore.loadWhole.reenter
                · exact h.passBefore.reenter
            · split
              · exact h.passBefore.loadWhole
              · exact h.passBefore
        · split
          · exact h.passBefore.loadWhole
          · exact h.passBefore

theorem Canonical.toTail (h : Canonical s) {t ys} : Canonical (s.toTail t ys) := h.same

theorem Canonical.tickSlice (h : Canonical s) {t} : Canonical (s.tickSlice t) :=
  .ite h (h.modSlice.foldl fun _ h1 => h1.freeze).toTail.releaseDue

theorem Canonical.tickDeadline (h : Canonical s) {t} : Canonical (s.tickDeadline t) := by
  dsimp only [State.tickDeadline]
  split
  · exact h
  · exact .ite h (.ite h.modSlice.rung3 (.ite h.modSlice h.modSlice.modSlice))

theorem Canonical.rung2 (h : Canonical s) {t} : Canonical (s.rung2 t) := (h.modSlice.foldl fun _ h1 => h1.freeze).same

theorem Canonical.quiesce (h : Canonical s) {t} : Canonical (s.quiesce t) :=
  .ite h.modSlice (.ite h.modSlice (.ite h.modSlice.rung2 h.modSlice))

theorem Canonical.saveRest (h : Canonical s) {t} : Canonical (s.saveRest t) := h.foldl fun _ h1 => h1.sweepCore

theorem Canonical.dropFaults (h : Canonical s) {t} : Canonical (s.dropFaults t) := h.modSlice.modSlice.same

theorem Canonical.quiesceEnd (h : Canonical s) {t} : Canonical (s.quiesceEnd t) :=
  .ite h (.ite h.saveRest.dropFaults.modSlice h.saveRest)

theorem Canonical.evDeny (h : Canonical s) {t e} : Canonical (s.evDeny t e) := h.modM

theorem Canonical.writeEvsel (h : Canonical s) {t k v} : Canonical (s.writeEvsel t k v) := .ite h.evDeny h.modSlice

theorem Canonical.writeAllow (h : Canonical s) {t mode w v} : Canonical (s.writeAllow t mode w v) := h.modSlice

theorem Canonical.loadProfile (h : Canonical s) {t f} : Canonical (s.loadProfile t f) :=
  h.modSlice.modSlice.foldl fun _ h1 => .ite h1.evDeny h1

/-! ## Migration -/

theorem Canonical.migEnd_ (h : Canonical s) {t res} : Canonical (s.migEnd_ t res) := h.modSlice

theorem Canonical.placeWg (h : Canonical s) {t w} : Canonical (s.placeWg t w) := h.modCore.same

theorem Canonical.placeWaiting (h : Canonical s) {t w} : Canonical (s.placeWaiting t w) := by
  dsimp only [State.placeWaiting]
  split
  · exact h.modCore
  · exact h

theorem Canonical.clearDies (h : Canonical s) {t} : Canonical (s.clearDies t) := h.same

theorem Canonical.putCopy (h : Canonical s) {t p j} : Canonical (s.putCopy t p j) := h.modEngine

theorem Canonical.putColl (h : Canonical s) {t d j} : Canonical (s.putColl t d j) := h.modDie

theorem Canonical.putBin (h : Canonical s) {t d b} : Canonical (s.putBin t d b) := h.modDie

theorem Canonical.moveEngines (h : Canonical s) {t old} : Canonical (s.moveEngines t old) :=
  (((h.clearDies.foldl fun _ h1 => h1.putCopy).foldl fun _ h1 => h1.putColl).foldl fun _ h1 => h1.putBin).modSlice

theorem Canonical.redeal (h : Canonical s) {t wgs waiting old} : Canonical (s.redeal t wgs waiting old) :=
  ((h.modSlice.foldl fun _ h1 => h1.placeWg).foldl fun _ h1 => h1.placeWaiting).moveEngines

theorem Canonical.strip (h : Canonical s) {t} : Canonical (s.strip t) := h.same

theorem Canonical.recast (h : Canonical s) {t old} : Canonical (s.recast t old) :=
  ((h.strip.modSlice.fuseFailed.foldl fun _ h1 => h1.scrubCore).foldl fun _ h1 => .ite h1 h1.scrubCore).setEfloor.redeal

theorem Canonical.goActive (h : Canonical s) {t} : Canonical (s.goActive t) := h.modSlice.same

theorem Canonical.reDeckle (h : Canonical s) {t} :
    (∀ u, s.reDeckle t = .error u → Canonical u) ∧ ∀ u, s.reDeckle t = .ok u → Canonical u := by
  dsimp only [State.reDeckle]
  constructor <;> intro u e <;> split at e <;> cases e
  · exact h.modSlice.migEnd_
  · exact h.recast.modSlice

theorem Canonical.resume (h : Canonical s) {t} : Canonical (s.resume t) := by
  unfold State.resume
  refine .ite h.migEnd_ (.ite h.migEnd_ (.ite h.goActive.migEnd_ ?_))
  split
  · exact h.reDeckle.1 _ ‹_›
  · exact (h.reDeckle.2 _ ‹_›).goActive.migEnd_

theorem Canonical.reshape_ (h : Canonical s) {t} : Canonical (s.reshape_ t) := by
  unfold State.reshape_
  refine .ite h.migEnd_ (.ite h.migEnd_ ?_)
  split
  · exact h.reDeckle.1 _ ‹_›
  · exact (h.reDeckle.2 _ ‹_›).migEnd_

theorem Canonical.export_ (h : Canonical s) {t} : Canonical (s.export_ t) :=
  .ite h.migEnd_ (.ite h.migEnd_ (.ite h.migEnd_ h.setMem.modM.modSlice.migEnd_))

theorem Canonical.discardHeld (h : Canonical s) {t} : Canonical (s.discardHeld t) :=
  h.strip.clearDies.same.modM.modSlice

theorem Canonical.load (h : Canonical s) {t n} : Canonical (s.load t n) := by
  refine .redeal (.foldl (.foldl ?_ fun _ h1 => ?_) fun _ h1 => ?_)
  · exact Canonical.same h |>.modM |>.modSlice
      |>.foldl (fun _ h1 => h1.putCopy)
      |>.foldl (fun _ h1 => h1.putColl)
      |>.foldl (fun _ h1 => h1.putBin)
  · split
    · split
      · exact .getD h1.engineWrite h1
      · exact h1
    · exact h1
  · split
    · exact .getD h1.engineWrite h1
    · exact h1

theorem Canonical.import_ (h : Canonical s) {t} : Canonical (s.import_ t) := by
  dsimp only [State.import_]
  split
  · exact h.migEnd_
  · split
    · exact h.migEnd_
    · split
      · exact h.migEnd_
      · split
        · exact h.modSlice.migEnd_
        · split
          · exact h.migEnd_
          · split
            · exact (Canonical.ite h.discardHeld h).modSlice.recast.load.loadProfile.modSlice.goActive.migEnd_
            · exact (Canonical.ite h.discardHeld h).modSlice.recast.load.modSlice.goActive.migEnd_

theorem Canonical.renumQueues (h : Canonical s) {t m} : Canonical (s.renumQueues t m) := h.modSlice.same

theorem Canonical.moveWork (h : Canonical s) {u t cm qm} : Canonical (s.moveWork u t cm qm) := by
  refine .modSlice (.modSlice (.modM (.same (.foldl h fun _ h1 => ?_))))
  split
  · exact .getD (Canonical.getD h1.engineWrite h1).engineWrite (.getD h1.engineWrite h1)
  · exact h1

theorem Canonical.dropTlb (h : Canonical s) {t} : Canonical (s.dropTlb t) := h.same

theorem Canonical.merge_ (h : Canonical s) {t u} : Canonical (s.merge_ t u) :=
  .ite h.migEnd_ (.ite h.migEnd_ (.ite h.migEnd_ (.ite h.migEnd_
    (h.renumQueues.moveWork.modSlice
      |>.foldl (fun _ h1 => h1.setOwner)
      |>.dropTlb.dropTlb.modM.modSlice.recast.modSlice.migEnd_))))

theorem Canonical.split_ (h : Canonical s) {t u} : Canonical (s.split_ t u) :=
  .ite h.migEnd_ (.ite h.migEnd_ (.ite h.migEnd_
    (h.moveWork
      |>.foldl (fun _ h1 => h1.setOwner)
      |>.dropTlb.modSlice.strip.recast.modSlice.recast.redeal.migEnd_)))

/-! ## Translation, rings and debug -/

theorem keeps_execPageWalk {core va acc} : Keeps s (execPageWalk core va acc s) :=
  .next fun h => by
    split
    · exact h
    · exact h.fillTlb

theorem Canonical.modTlbinv (h : Canonical s) {t host f} : Canonical (s.modTlbinv t host f) := h.modSlice

theorem Canonical.startTlbinv (h : Canonical s) {t host} : Canonical (s.startTlbinv t host) := h.modTlbinv

theorem Canonical.invalidate (h : Canonical s) {t host} : Canonical (s.invalidate t host) := by
  refine .ite h (.ite ?_ (.modTlbinv ?_))
  all_goals exact h.same.foldl fun _ h1 => h1.foldl fun _ h2 => h2.stopWait

theorem Canonical.modRing (h : Canonical s) {fn ring f} : Canonical (s.modRing fn ring f) :=
  .ite h.modSlice (.ite h h.modSlice)

theorem Canonical.writeRing (h : Canonical s) {fn ring bytes} :
    ∀ u, s.writeRing fn ring bytes = some u → Canonical u := by
  intro u e
  obtain ⟨w, ew, rfl⟩ := Option.map_eq_some_iff.mp e
  refine Canonical.modRing ?_
  split at ew
  · split at ew
    · cases ew; exact h.publishBytes
    · cases ew
  · exact h.engineWrite w ew

theorem Canonical.retryHeld (h : Canonical s) {fn ring} : Canonical (s.retryHeld fn ring) := .ite h h.same.modM

theorem Canonical.writeRctl (h : Canonical s) {fn ring v} : Canonical (s.writeRctl fn ring v) :=
  .ite h h.modRing.retryHeld

theorem Canonical.writeRhead (h : Canonical s) {fn ring v} : Canonical (s.writeRhead fn ring v) := h.modRing.retryHeld

theorem Canonical.writeRbase (h : Canonical s) {fn ring hi v} : Canonical (s.writeRbase fn ring hi v) :=
  h.modRing.retryHeld

theorem Canonical.takeToken (h : Canonical s) {fn token} : ∀ u, s.takeToken fn token = some u → Canonical u := by
  intro u e
  unfold State.takeToken at e
  split at e
  · cases e; exact h.modSlice
  · cases e

theorem Canonical.freeWaiters (h : Canonical s) {fn token why} : Canonical (s.freeWaiters fn token why) :=
  h.foldl fun _ h1 => by
    split
    · exact .getD h1.modGroup.engineWrite h1.modGroup
    · exact h1.modGroup

theorem Canonical.faultRetry (h : Canonical s) {fn token} : Canonical (s.faultRetry fn token) := by
  dsimp only [State.faultRetry]
  split
  · exact h
  · exact (h.takeToken _ ‹_›).freeWaiters.foldl fun _ h1 => h1.modCopy

theorem Canonical.faultFail (h : Canonical s) {fn token} : Canonical (s.faultFail fn token) := by
  dsimp only [State.faultFail]
  split
  · exact h
  · exact (h.takeToken _ ‹_›).freeWaiters.foldl fun _ h1 => h1.modCopy.stopCopy

theorem Canonical.putRecord_ (h : Canonical s) {fn ring die bytes} : Canonical (s.putRecord_ fn ring die bytes) := by
  dsimp only [State.putRecord_]
  refine .ite (.ite h.faultFail h.modRing) ?_
  split
  · rename_i e
    split at e
    · cases e
    · exact h.writeRing _ e
  · exact .ite h.modDie h.modRing

theorem Canonical.report_ (h : Canonical s) : Canonical (s.report_) := by
  dsimp only [State.report_]
  split
  · exact h
  · split
    · exact h
    · exact h.modM.putRecord_

theorem Canonical.dbgGo (h : Canonical s) {gid stepping} : Canonical (s.dbgGo gid stepping) := h.modGroup

theorem Canonical.dbgCommand (h : Canonical s) {t p stepping} : Canonical (s.dbgCommand t p stepping) :=
  .ite h (h.foldl fun _ h1 => h1.dbgGo)

theorem Canonical.dump (h : Canonical s) {t} : Canonical (s.dump t) := .ite h h.same

theorem Canonical.dumpLate (h : Canonical s) {gid} : Canonical (s.dumpLate gid) := by
  dsimp only [State.dumpLate]
  split
  · exact h
  · exact .ite h h.trace.freeze.modGroup

theorem Canonical.putTrace (h : Canonical s) {fn bytes} : Canonical (s.putTrace fn bytes) := by
  dsimp only [State.putTrace]
  split
  · rename_i e
    split at e
    · cases e
    · exact h.writeRing _ e
  · exact h.modRing

theorem Canonical.tellLost (h : Canonical s) {fn} : Canonical (s.tellLost fn) := by
  dsimp only [State.tellLost]
  split
  · exact h
  · split
    · exact (h.writeRing _ ‹_›).modRing
    · exact h

theorem Canonical.flushTrace (h : Canonical s) {t} : Canonical (s.flushTrace t) :=
  .ite h.tellLost (h.tellLost.modSlice.foldl fun _ h1 => h1.putTrace)

/-! ## The registers of BAR0 -/

theorem Canonical.give (h : Canonical s) {v} : Canonical (s.give v) := h.modM

theorem Canonical.readLo (h : Canonical s) {fn off} : Canonical (s.readLo fn off) := by
  dsimp only [State.readLo]
  split
  · exact h.give
  · split
    · exact h
    · exact h.give.modSlice

theorem Canonical.readHi (h : Canonical s) {fn off} : Canonical (s.readHi fn off) := by
  dsimp only [State.readHi]
  split
  · exact h.give
  · split
    · exact h
    · exact .ite h.give h.give

theorem Canonical.writeDbgcmd (h : Canonical s) {t v} : Canonical (s.writeDbgcmd t v) := by
  dsimp only [State.writeDbgcmd]
  split
  · exact h.modSlice
  · split
    · exact h.modSlice.dbgCommand
    · exact h.modSlice.dbgCommand
    · exact h.modSlice.dump
    · exact h.modSlice.dbgCommand
    · exact h.modSlice

theorem Canonical.writeTlbinv (h : Canonical s) {t host k v} : Canonical (s.writeTlbinv t host k v) := by
  dsimp only [State.writeTlbinv]
  split
  · exact h.modTlbinv
  · exact h.modTlbinv
  · exact .ite h.modTlbinv.startTlbinv h.modTlbinv
  · exact h

theorem Canonical.faultAck (h : Canonical s) {fn v} : Canonical (s.faultAck fn v) := by
  dsimp only [State.faultAck]
  split
  · exact h.faultRetry
  · exact h.faultFail
  · exact h

theorem Canonical.writeRingReg (h : Canonical s) {fn ring k v} : Canonical (s.writeRingReg fn ring k v) := by
  dsimp only [State.writeRingReg]
  split
  · exact h.writeRbase
  · exact h.writeRbase
  · exact h.writeRctl
  · exact h.writeRhead
  · exact h

theorem Canonical.writeQtab (h : Canonical s) {t k w v} : Canonical (s.writeQtab t k w v) := by
  dsimp only [State.writeQtab]
  split
  · exact h.modQueue
  · exact h.modQueue
  · exact h.writeQueue
  · exact h

theorem Canonical.writeDbg (h : Canonical s) {t off v} : Canonical (s.writeDbg t off v) := by
  dsimp only [State.writeDbg]
  split
  · exact h.modSlice
  · exact h.writeDbgcmd
  · exact h.modSlice
  · exact h.writeRbase
  · exact h.writeRbase
  · exact h.writeRctl
  · exact h.writeRhead
  · exact h

theorem Canonical.writeVf (h : Canonical s) {t off v} : Canonical (s.writeVf t off v) :=
  .ite h (.ite h.writeRingReg (.ite h.modSlice (.ite h.modSlice (.ite h.writeTlbinv (.ite h.faultAck
    (.ite h.modSlice (.ite h.writeQtab (.ite h.writeDbg (.ite h.modSlice (.ite h.writeEvsel h))))))))))

theorem Canonical.window_ (h : Canonical s) {t write o v} : Canonical (s.window_ t write o v) :=
  .ite (.ite h.locked h.give) (.ite h.writeVf (.ite h.readLo (.ite h.readHi h.give)))

theorem Canonical.writePferr (h : Canonical s) {v} : Canonical (s.writePferr v) := h.modM

theorem Canonical.writeDieReg (h : Canonical s) {d k v} : Canonical (s.writeDieReg d k v) := by
  dsimp only [State.writeDieReg]
  split
  · exact h.writePower
  · exact h.writeTherm
  · exact h.writeWays
  · exact h

theorem Canonical.writeOwncmd (h : Canonical s) {v} : Canonical (s.writeOwncmd v) := .ite h.ownGo h.modM

theorem Canonical.writeMig (h : Canonical s) {t k v} : Canonical (s.writeMig t k v) := by
  dsimp only [State.writeMig]
  split
  · split
    · exact h.modSlice
    · split
      · exact h.modSlice.quiesce
      · exact h.modSlice.export_
      · exact h.modSlice.import_
      · exact h.modSlice.resume
      · exact h.modSlice.reshape_
      · exact h.modSlice.merge_
      · exact h.modSlice.split_
      · exact h.modSlice
  · exact h.modSlice
  · exact h.modSlice
  · exact h

theorem Canonical.writeGang (h : Canonical s) {t k v} : Canonical (s.writeGang t k v) :=
  .ite h (.ite h.modSlice h.locked)

theorem Canonical.writeHtroot (h : Canonical s) {t hi v} : Canonical (s.writeHtroot t hi v) := .ite h.modSlice h.locked

theorem Canonical.writeAllowBlock (h : Canonical s) {t o v} : Canonical (s.writeAllowBlock t o v) :=
  .ite h.writeAllow (.ite h.writeAllow (.ite h.modSlice (.ite h.modSlice h)))

theorem Canonical.writeRoute (h : Canonical s) {t p v} : Canonical (s.writeRoute t p v) := .ite h.locked h.modM

theorem Canonical.writePf (h : Canonical s) {off v} : Canonical (s.writePf off v) := by
  have window : Canonical (match windowPlace off with | some (t, o) => s.window_ t true o v | none => s) := by
    split
    · exact h.window_
    · exact h
  exact .ite h <| .ite h.fwload <| .ite h <| .ite h.writeDieReg <| .ite h.modM <| .ite h.modM <| .ite h.writePferr <|
    .ite h.writeOwncmd <| .ite (.ite h.startKill h) <| .ite h.retireBank <| .ite h.modM <| .ite h.writeMig <|
    .ite h.writeGang <| .ite h.writeRingReg <| .ite h.faultAck <| .ite h.writeHtroot <| .ite h.writeTlbinv <| .ite h.modM <|
    .ite h.writeAllowBlock <| .ite h.writeDeckle <| .ite h.writeRoute <| .ite h.writeMcjoin window

theorem Canonical.readRegister (h : Canonical s) {fn off} : Canonical (s.readRegister fn off) := by
  dsimp only [State.readRegister]
  split
  · exact .ite h.give h
  · split
    · exact h.readLo
    · split
      · exact h.readHi
      · split
        · exact .ite h.give h
        · split <;> exact h.give

theorem Canonical.writeRegister (h : Canonical s) {off v} : Canonical (s.writeRegister off v) :=
  .ite h.writePf (.ite (h.bar0 h.writeVf) h)

end Sys2Proof.Safety
end

section
/-! SUPPORT. A cycle, an instruction and a step keep the memories canonical. -/

namespace Sys2Proof.Safety

open Machine

variable {s t : State}

/-! ## A cycle of a die -/

theorem Canonical.takeLate (h : Canonical s) {gid p e} : Canonical (s.takeLate gid p e) :=
  .ite h.takeTrap.freeEntry h.takeTrap

theorem Canonical.clearSkip (h : Canonical t) {gid born} : Canonical (s.clearSkip t gid born) := .ite h.modGroup h

theorem Canonical.countSlots (h : Canonical s) {d} : Canonical (s.countSlots d) := h.same

theorem Canonical.mark (h : Canonical s) {d} : Canonical (s.mark d) := h.same.modDie

theorem Canonical.turnTile (h : Canonical s) {d} : Canonical (s.turnTile d) := by
  dsimp only [State.turnTile]
  split
  · exact h.modDie
  · exact h

theorem Canonical.evictions (h : Canonical s) {d} : Canonical (s.evictions d) :=
  h.foldl fun _ h1 => h1.sweepCore.foldl fun _ h2 => Keeps.after keeps_execEvictFor h2

theorem Canonical.leaveHorizon (h : Canonical s) {d} : Canonical (s.leaveHorizon d) :=
  h.flushPromises.flushCancels.foldl fun _ h1 => .ite h1.flushCouch h1

theorem Canonical.dieCycle (h : Canonical s) {d} : Canonical (s.dieCycle d) :=
  h.countSlots.modDie.mark
    |>.foldl (fun _ h1 => h1.strikeEnd)
    |>.foldl (fun _ h1 => h1.arrayTile.arrayCycle)
    |>.dropFaulted.evictions.leaveHorizon.watchClaims
    |>.foldl (fun _ h1 => h1.flushTrace)
    |>.turnTile.same

theorem Canonical.parseHead (h : Canonical s) {t k} : Canonical (s.parseHead t k) := by
  dsimp only [State.parseHead]
  split
  · exact h
  · exact Keeps.after keeps_execPktBadType h
  · exact Keeps.after keeps_execPktBadType h
  · split
    · exact h.post
    · exact h.post
    · exact h.post
    · exact h.post
    · exact h.post
    · exact h.post
    · exact h.post
    · exact Keeps.after keeps_execPktRegion h
    · exact Keeps.after keeps_execPktBadType h

theorem Canonical.serveQueues (h : Canonical s) {t} : Canonical (s.serveQueues t) :=
  h.foldl fun _ h1 => by
    split
    · exact h1.parseHead
    · exact h1

theorem Canonical.startQueues (h : Canonical s) {t} : Canonical (s.startQueues t) := h.foldl fun _ h1 => h1.startNext

theorem Canonical.dealNext (h : Canonical s) {t} : Canonical (s.dealNext t) := by
  dsimp only [State.dealNext]
  split
  · exact h
  · split
    · exact h
    · exact h.post.modDie

theorem Canonical.tickEvents (h : Canonical s) : Canonical (s.tickEvents) := h.same

theorem Canonical.deadlines (h : Canonical s) : Canonical (s.deadlines) :=
  h.foldl (fun _ h1 => Keeps.after keeps_execPeerTimeout h1)
    |>.foldl (fun _ h1 => h1.dumpLate)
    |>.foldl (fun _ h1 => Keeps.after keeps_execRepairDone h1)
    |>.foldl (fun _ h1 => .ite (Keeps.after keeps_execBoostRise h1) h1)

theorem Canonical.sendPackets (h : Canonical s) : Canonical (s.sendPackets) :=
  (h.foldl fun _ h1 => Keeps.after keeps_execFabricPacketSend h1).foldl fun _ h1 => Keeps.after keeps_execFabricPacketSend h1

theorem Canonical.killConsumed (h : Canonical s) {t} : Canonical (s.killConsumed t) := by
  dsimp only [State.killConsumed]
  split
  · exact h
  · exact h.modSlice.startKill

/-! ## The forms of the lanes -/

theorem Canonical.lane (h : Canonical t) {c : Cx} {f} : CanonicalRes (c.lane t f) := h.writeV.ok

theorem Canonical.laneF (h : Canonical t) {c : Cx} {f} : CanonicalRes (c.laneF t f) := h.writeV.flags.ok

theorem Canonical.laneV (h : Canonical t) {c : Cx} {f} : CanonicalRes (c.laneV t f) := h.giveV.flags.ok

theorem Canonical.predF (h : Canonical t) {c : Cx} {f} : CanonicalRes (c.predF t f) := h.writeP.flags.ok

theorem Canonical.scalar (h : Canonical t) {c : Cx} {v} : CanonicalRes (c.scalar t v) := h.writeS.ok

/-! ## The nanosecond -/

theorem Canonical.nanosecond (h : Canonical s) : Canonical s.nanosecond := by
  dsimp only [State.nanosecond]
  refine Canonical.flashDone (Canonical.same (Canonical.foldl (Canonical.foldl ?_ fun _ h1 => ?_) fun _ h1 => h1.tidyCtxs))
  · exact Canonical.tickEvents (Canonical.sendPackets (Canonical.deadlines (Canonical.tryWaiting h.same)))
  · exact h1.killConsumed.serveQueues.startQueues.dealNext

theorem Canonical.idle (h : Canonical s) : Canonical s.idle := by
  unfold State.idle
  split
  · exact h.dieCycle
  · exact h.nanosecond

/-! ## The stage before issue -/

/-- At a fix the debugger stops the split, makes a record only, or does nothing (R231 to R233, R396). -/
theorem atFix_cases (s : State) (gid : Nat) (g : Group) (p : Split) :
    (∃ k n, s.atFix gid g p = (some ((s.traceStop g k n p).breakStop gid p.born), s)) ∨
      (∃ k n, s.atFix gid g p = (none, s.traceStop g k n p)) ∨ s.atFix gid g p = (none, s) := by
  dsimp only [State.atFix]
  split
  · exact .inr (.inr rfl)
  · split
    · exact .inr (.inr rfl)
    · split
      · exact .inl ⟨_, _, rfl⟩
      · split
        · split
          · exact .inr (.inl ⟨_, _, rfl⟩)
          · exact .inr (.inr rfl)
        · split
          · exact .inl ⟨_, _, rfl⟩
          · split
            · split
              · exact .inl ⟨_, _, rfl⟩
              · exact .inr (.inl ⟨_, _, rfl⟩)
            · exact .inr (.inr rfl)

/-- A stop at a fix leaves a canonical state. -/
theorem Canonical.atFix_stop (h : Canonical s) {gid g p u} (e : s.atFix gid g p = (some t, u)) : Canonical t := by
  rcases atFix_cases s gid g p with ⟨k, n, q⟩ | ⟨k, n, q⟩ | q <;> cases q.symm.trans e
  exact h.traceStop.breakStop

/-- A split that no fix stops issues in a state that is canonical and has the same groups. -/
theorem atFix_pass {gid g p u} (e : s.atFix gid g p = (none, u)) :
    (Canonical s → Canonical u) ∧ SameButCounts s u := by
  rcases atFix_cases s gid g p with ⟨k, n, q⟩ | ⟨k, n, q⟩ | q <;> cases q.symm.trans e
  · exact ⟨fun h => h.traceStop, sameButCounts_trace ..⟩
  · exact ⟨id, .refl s⟩

/-- What the stage before issue answers is canonical, and a split issues in it when it is to execute an instruction. -/
def FrontKeeps (s : State) (f : Front) : Prop :=
  match f with
  | .done t => Canonical s → Canonical t
  | .run _ t => Issuing t ∧ (Canonical s → Canonical t)

theorem frontKeeps {gid born} (cur : s.cur = some (gid, born)) : FrontKeeps s (s.front gid born) := by
  dsimp only [State.front]
  split
  · exact fun h => h.same
  · next g found =>
    split
    · exact fun h => h.same
    · next p split_ =>
      split
      · split
        · split
          · exact ⟨⟨gid, born, g, p, cur, found, split_⟩, id⟩
          · exact fun h => h.same
        · exact fun h => Canonical.stopWait h.same
      · split
        · exact fun h => h.same
        · split
          · exact fun h => Canonical.takeLate h.same
          · split
            · next e => exact fun h => (h.atFix_stop e).same
            · next u e =>
              obtain ⟨keeps, counts⟩ := atFix_pass e
              split
              · exact fun h => Canonical.consumePoison (keeps h).same
              · split
                · exact fun h => Canonical.takeTrap (keeps h).same
                · exact fun h => Canonical.takeTrap (keeps h).same
                · exact fun h => h.same
                · exact ⟨⟨gid, born, g, p, counts.cur.trans cur, counts.groups ▸ found, split_⟩, keeps⟩

/-! ## One step -/

/-- Every instruction and event answers a next state and keeps the memories canonical; a word does so where a split issues. -/
theorem keeps_exec (i : Instr) (hs : (view i).lay ≠ .event → Issuing s) : Keeps s (exec i s) := by
  cases i with
  | pfRegisterWrite => exact .next fun h => h.writeRegister
  | counterLoRead => exact .next fun h => h.readRegister
  | counterHiRead => exact .next fun h => h.bar0 h.readHi
  | pwrctlWrite => exact .next fun h => h.bar0 h.writePower
  | hostStateTransitionDone => exact keeps_execHostStateTransitionDone
  | vfChangeDone => exact .next fun h => h.modDie
  | l2waydisWrite => exact .next fun h => h.bar0 h.writeWays
  | l2WayDisableDone => exact .next fun h => h.modDie
  | boostRise => exact keeps_execBoostRise
  | permitDebit => exact .next fun h => .ite h (.ite h.beginFall h.watchClaims.modDie)
  | fallToNominal => exact .next fun h => .ite h.modDie h
  | fallComplete => exact .next fun h => .ite h.modDie h
  | permitRefill => exact .next fun h => .ite h.modDie h
  | currentSlopeTick => exact .next fun h => .ite h.modDie (.ite h.modDie.modSlice.modDie h.modDie.modM)
  | thermUpdate => exact .next fun h => .ite h.modDie.postPf h.modDie
  | thermWrite => exact .next fun h => h.bar0 h.writeTherm
  | powerCapTick => exact .next fun h => h.modM
  | meridianRefill => exact .next fun h => h.refill1
  | bar2Access => exact .next fun h => h.bar2
  | vfWindowAccess => exact .next fun h => h.bar0 h.window_
  | pferrWrite => exact .next fun h => h.bar0 h.writePferr
  | tdiStop => exact .next fun h => .ite h.startFlr h
  | vfTlpReceive => exact .next fun h => .ite h (.ite h.modSlice h.modSlice.modM)
  | ptpCorrection => exact .next fun h => h.same
  | ptpLockLoss => exact .next fun h => h.same.postPf
  | fabricMeterTick => exact .next fun h => h.foldl fun _ h1 => .ite h1 h1.modSlice
  | fabricPacketSend => exact keeps_execFabricPacketSend
  | inboundPeerRequest => exact .next fun h => h.peerInbound
  | peerResponse => exact keeps_execPeerResponse
  | peerTimeout => exact keeps_execPeerTimeout
  | mcjoinWrite => exact .next fun h => h.bar0 h.writeMcjoin
  | collTileLand => exact .next fun h => h.landTile
  | ucieRetrain => exact .next fun h => .ite h.modM.postPf h.modM
  | ucieFlitFail => exact .next fun h => h.foldl fun _ h1 => .ite h1.startKill h1
  | createSlice => exact .next fun h => h.bar0 h.create
  | activateSlice => exact .next fun h => h.bar0 h.activate
  | activateDone => exact .next fun h => h.modSlice
  | dissolveSlice => exact .next fun h => h.bar0 h.dissolve
  | dissolveDone => exact .next fun h => .ite h.freeCores.modSlice h
  | deckleWrite => exact .next fun h => h.bar0 (.ite h.writeDeckle h)
  | assignFrame => exact .next fun h => h.bar0 h.ownGo
  | rekeyFrame => exact .next fun h => h.bar0 h.ownGo
  | releaseFrame => exact .next fun h => h.bar0 h.ownGo
  | queryFrame => exact .next fun h => h.bar0 h.ownGo
  | owncmdDone => exact .next fun h => h.ownFinish
  | bwWindow => exact .next fun h => h.bandWindow
  | hbmThermalLevelChange => exact keeps_execHbmThermalLevelChange
  | functionLevelReset => exact .next fun h => .ite h.startFlr h
  | flrComplete => exact .next fun h => .ite (Canonical.ite h.endFlr h).modM.nextVfReset (.ite h.endFlr h)
  | vfEnableClear => exact .next fun h => .ite h.modM.nextVfReset h
  | vfEnableSet => exact .next fun h => .ite h h.modM
  | getVersion => exact .next fun h => h.spdmIf h.modSlice.spdmReply
  | getCapabilities => exact .next fun h => h.spdmIf h.modSlice.spdmReply
  | negotiateAlgorithms => exact .next fun h => h.spdmIf h.modSlice.spdmReply
  | getDigests => exact .next fun h => h.spdmIf h.spdmReply
  | getCertificate => exact .next fun h => h.spdmIf h.spdmReply
  | spdmChallenge => exact .next fun h => h.spdmIf h.spdmReply
  | getMeasurements => exact keeps_execGetMeasurements
  | keyExchange => exact .next fun h => h.spdmIf h.modSlice.spdmReply
  | spdmFinish => exact .next fun h => h.spdmIf h.modSlice.spdmReply
  | spdmHeartbeat => exact .next fun h => h.spdmIf h.spdmReply
  | spdmEndSession => exact .next fun h => h.spdmIf h.modSlice.spdmReply
  | ideKm => exact .next fun h => h.spdmIf h.spdmReply
  | tdispMessage => exact .next fun h => h.spdmIf h.tdisp
  | getExportKey => exact .next fun h => h.spdmIf h.spdmReply
  | setImportKey => exact keeps_execSetImportKey
  | moduleReset => exact .next fun h => h.moduleReset
  | fwloadWrite => exact .next fun h => h.fwload
  | qtabCtlWrite => exact .next fun h => h.bar0 h.writeQueue
  | pktLaunch => exact .next fun h => h.parse (fun h1 => h1.acceptLaunch)
  | pktCopy => exact .next fun h => h.parse (fun h1 => h1.queueCopy)
  | pktCopy2d => exact .next fun h => h.parse (fun h1 => h1.queueCopy)
  | pktColl => exact .next fun h => h.parse (fun h1 => h1.same.acceptColl)
  | pktCwait => exact .next fun h => h.parseCwait
  | pktCadd => exact .next fun h => h.parse (fun h1 => h1)
  | pktMarker => exact .next fun h => h.parse (fun h1 => h1)
  | pktRegion => exact keeps_execPktRegion
  | wgDeal => exact .next fun h => h.deal
  | wgResident => exact .next fun h => h.residentStep
  | copyPieceStart => exact .next fun h => h.startPiece
  | copyPieceLand => exact .next fun h => h.landPiece
  | patrolScrub => exact .next fun h => .ite h.poisonSite h
  | dkill => exact .next fun h => h.bar0 (.ite h.startKill h)
  | killComplete => exact .next fun h => .ite h h.modSlice.dropDebt.postRecord.postRecord
  | strikeReport => exact .next fun h => .ite h.strike h
  | strikeResume => exact .next fun h => h.strikeEnd
  | engineCompareMismatch => exact .next fun h => h.mismatch
  | correctedError => exact .next fun h => .ite h.modStack h.modStack.modStack.startRepair
  | repairDone => exact keeps_execRepairDone
  | bankRetire => exact .next fun h => h.bar0 (.ite h.retireBank h)
  | infieldTestStart => exact .next fun h => h.startTest
  | infieldTestDone => exact .next fun h => .ite h (.ite h.modCore.modM h.modCore.modM.postPf)
  | slotIssue => exact .next fun h => h.slotStep
  | starvationFlag => exact .next fun h => h.flagStarving
  | clusterIdle => exact .next fun h => .ite h.emptyBuckets.modDie h
  | admissionGrant => exact .next fun h => h.grant
  | binForm => exact .next fun h => h.formBin
  | gatheredResident => exact .next fun h => h.gatherStep
  | evictFor => exact keeps_execEvictFor
  | groupRestore => exact .next fun h => h.restore
  | switchTick => exact .next fun h => h.tickSlice
  | tickSaveDeadline => exact .next fun h => h.tickDeadline
  | ladderGraceExpiry => exact .next fun h => .ite h.rung2 h
  | ladderKillExpiry => exact .next fun h => .ite h.rung3 h
  | i2DrainTimeout => exact .next fun h => .ite h.rung3 h
  | freezeComplete => exact .next fun h => h.modGroup
  | quiesce => exact .next fun h => h.bar0 h.quiesce
  | quiesceDone => exact .next fun h => h.quiesceEnd
  | exportReam => exact .next fun h => h.bar0 h.export_
  | importReam => exact .next fun h => h.bar0 h.import_
  | migResume => exact .next fun h => h.bar0 h.resume
  | reshape => exact .next fun h => h.bar0 h.reshape_
  | mergeSlices => exact .next fun h => h.bar0 h.merge_
  | splitSlice => exact .next fun h => h.bar0 h.split_
  | splitMerge => exact .next fun h => h.modGroup.settleParked
  | groupSave => exact .next fun h => h.saveGroup
  | groupRetire => exact .next fun h => h.retire
  | entryComplete => exact .next fun h => h.entryDone
  | i1HomeRequest => exact .next fun h => h.homeRequest
  | scrubDone => exact .next fun h => h.modCore
  | pageWalk => exact keeps_execPageWalk
  | tlbinvStart => exact .next fun h => h.bar0 h.startTlbinv
  | tlbinvDone => exact .next fun h => h.invalidate
  | ringCtlWrite => exact .next fun h => h.bar0 h.writeRctl
  | ringHeadWrite => exact .next fun h => h.bar0 h.writeRhead
  | ringBaseWrite => exact .next fun h => h.bar0 h.writeRbase
  | reportGrant => exact .next fun h => h.report_
  | faultackRetry => exact .next fun h => h.bar0 h.faultRetry
  | faultackFail => exact .next fun h => h.bar0 h.faultFail
  | dbgResume => exact .next fun h => h.bar0 h.dbgCommand
  | dbgStep => exact .next fun h => h.bar0 h.dbgCommand
  | dbgDump => exact .next fun h => h.bar0 h.dump
  | dbgResumeAll => exact .next fun h => h.bar0 h.dbgCommand
  | dumpTimeout => exact .next fun h => h.dumpLate
  | evselWrite => exact .next fun h => h.bar0 h.writeEvsel
  | allowWrite => exact .next fun h => h.bar0 h.writeAllow
  | waitWake => exact .next fun h => h.wakeWait
  | promiseDeadline => exact .next fun h => h.promiseDue
  | sleepDeadline => exact .next fun h => h.wakeSleep
  | mmaOpStart => exact .next fun h => h.mmaStart
  | arrayTileWrite => exact .next fun h => h.arrayTile
  | nopH => exact .issue (hs nofun) fun h => h.ok
  | mov16 => exact .issue (hs nofun) fun h => h.lane
  | addI3216 => exact .issue (hs nofun) fun h => h.laneF
  | subI3216 => exact .issue (hs nofun) fun h => h.laneF
  | addF3216 => exact .issue (hs nofun) fun h => h.laneF
  | subF3216 => exact .issue (hs nofun) fun h => h.laneF
  | mulF3216 => exact .issue (hs nofun) fun h => h.laneF
  | maxF3216 => exact .issue (hs nofun) fun h => h.laneF
  | minF3216 => exact .issue (hs nofun) fun h => h.laneF
  | and16 => exact .issue (hs nofun) fun h => h.lane
  | or16 => exact .issue (hs nofun) fun h => h.lane
  | xor16 => exact .issue (hs nofun) fun h => h.lane
  | shl16 => exact .issue (hs nofun) fun h => h.lane
  | shr16 => exact .issue (hs nofun) fun h => h.lane
  | mulI3216 => exact .issue (hs nofun) fun h => h.laneF
  | maxI3216 => exact .issue (hs nofun) fun h => h.laneF
  | addF16x216 => exact .issue (hs nofun) fun h => h.laneF
  | movi => exact .issue (hs nofun) fun h => h.lane
  | movhi => exact .issue (hs nofun) fun h => h.lane
  | addiI32 => exact .issue (hs nofun) fun h => h.lane
  | muliI32 => exact .issue (hs nofun) fun h => h.lane
  | andi => exact .issue (hs nofun) fun h => h.lane
  | ori => exact .issue (hs nofun) fun h => h.lane
  | xori => exact .issue (hs nofun) fun h => h.lane
  | shli => exact .issue (hs nofun) fun h => h.lane
  | addiF32 => exact .issue (hs nofun) fun h => h.laneF
  | muliF32 => exact .issue (hs nofun) fun h => h.laneF
  | moviF16x2 => exact .issue (hs nofun) fun h => h.lane
  | addiF16x2 => exact .issue (hs nofun) fun h => h.laneF
  | muliF16x2 => exact .issue (hs nofun) fun h => h.laneF
  | addiBf16x2 => exact .issue (hs nofun) fun h => h.laneF
  | muliBf16x2 => exact .issue (hs nofun) fun h => h.laneF
  | moviF8x4 => exact .issue (hs nofun) fun h => h.lane
  | add => exact .issue (hs nofun) fun h => h.laneF
  | sub => exact .issue (hs nofun) fun h => h.laneF
  | mul => exact .issue (hs nofun) fun h => h.laneF
  | fma => exact .issue (hs nofun) fun h => h.laneF
  | minL => exact .issue (hs nofun) fun h => h.laneF
  | maxL => exact .issue (hs nofun) fun h => h.laneF
  | andL => exact .issue (hs nofun) fun h => h.lane
  | orL => exact .issue (hs nofun) fun h => h.lane
  | xorL => exact .issue (hs nofun) fun h => h.lane
  | andn => exact .issue (hs nofun) fun h => h.lane
  | shl => exact .issue (hs nofun) fun h => h.lane
  | shr => exact .issue (hs nofun) fun h => h.lane
  | sar => exact .issue (hs nofun) fun h => h.lane
  | rol => exact .issue (hs nofun) fun h => h.lane
  | mulhHi => exact .issue (hs nofun) fun h => h.lane
  | mulhWide => exact .issue (hs nofun) fun h => h.writeVp.ok
  | rcp => exact .issue (hs nofun) fun h => h.laneV
  | rsq => exact .issue (hs nofun) fun h => h.laneV
  | sqrt => exact .issue (hs nofun) fun h => h.laneV
  | exp2 => exact .issue (hs nofun) fun h => h.laneV
  | log2 => exact .issue (hs nofun) fun h => h.laneV
  | sin => exact .issue (hs nofun) fun h => h.laneV
  | cos => exact .issue (hs nofun) fun h => h.laneV
  | tanh => exact .issue (hs nofun) fun h => h.laneV
  | cvt => exact .issue (hs nofun) fun h => h.laneF
  | pk => exact .issue (hs nofun) fun h => h.laneF
  | upk => exact .issue (hs nofun) fun h => h.laneF
  | cmpI32 => exact .issue (hs nofun) fun h => h.predF
  | cmpN32 => exact .issue (hs nofun) fun h => h.predF
  | cmpF32 => exact .issue (hs nofun) fun h => h.predF
  | cmpxF32 => exact .issue (hs nofun) fun h => h.predF
  | sel => exact .issue (hs nofun) fun h => h.lane
  | dp4 => exact .issue (hs nofun) fun h => h.lane
  | dp2 => exact .issue (hs nofun) fun h => h.laneF
  | popc => exact .issue (hs nofun) fun h => h.lane
  | clz => exact .issue (hs nofun) fun h => h.lane
  | brev => exact .issue (hs nofun) fun h => h.lane
  | ffs => exact .issue (hs nofun) fun h => h.lane
  | bfe => exact .issue (hs nofun) fun h => h.lane
  | bfi => exact .issue (hs nofun) fun h => h.lane
  | perm => exact .issue (hs nofun) fun h => h.lane
  | shfl => exact .issue (hs nofun) fun h => h.lane
  | voteAll => exact .issue (hs nofun) fun h => h.writeP.ok
  | voteAny => exact .issue (hs nofun) fun h => h.writeP.ok
  | voteBallot => exact .issue (hs nofun) fun h => h.scalar
  | voteEq => exact .issue (hs nofun) fun h => h.writeP.ok
  | gred => exact .issue (hs nofun) fun h => h.giveS.flags.ok
  | xmovVs => exact .issue (hs nofun) fun h => h.lane
  | xmovSv => exact .issue (hs nofun) fun h => h.scalar
  | xmovVp => exact .issue (hs nofun) fun h => h.lane
  | xmovPv => exact .issue (hs nofun) fun h => h.writeP.ok
  | sadd => exact .issue (hs nofun) fun h => h.scalar
  | ssub => exact .issue (hs nofun) fun h => h.scalar
  | smul => exact .issue (hs nofun) fun h => h.scalar
  | sand => exact .issue (hs nofun) fun h => h.scalar
  | sor => exact .issue (hs nofun) fun h => h.scalar
  | sxor => exact .issue (hs nofun) fun h => h.scalar
  | sshl => exact .issue (hs nofun) fun h => h.scalar
  | sshr => exact .issue (hs nofun) fun h => h.scalar
  | scmp => exact .issue (hs nofun) fun h => h.scalar
  | add64 => exact .issue (hs nofun) fun h => h.writeVp.ok
  | sub64 => exact .issue (hs nofun) fun h => h.writeVp.ok
  | sadd64 => exact .issue (hs nofun) fun h => h.writeSp.ok
  | mad64 => exact .issue (hs nofun) fun h => h.writeVp.ok
  | ldB => exact .issue (hs nofun) fun h => h.cxLoad
  | ldBn => exact .issue (hs nofun) fun h => h.cxLoad
  | ldH => exact .issue (hs nofun) fun h => h.cxLoad
  | ldHn => exact .issue (hs nofun) fun h => h.cxLoad
  | ldW => exact .issue (hs nofun) fun h => h.cxLoad
  | ldD => exact .issue (hs nofun) fun h => h.cxLoad
  | ldQ => exact .issue (hs nofun) fun h => h.cxLoad
  | stB => exact .issue (hs nofun) fun h => h.store
  | stH => exact .issue (hs nofun) fun h => h.store
  | stW => exact .issue (hs nofun) fun h => h.store
  | stD => exact .issue (hs nofun) fun h => h.store
  | stQ => exact .issue (hs nofun) fun h => h.store
  | ldsW => exact .issue (hs nofun) fun h => h.loadS
  | ldsD => exact .issue (hs nofun) fun h => h.loadS
  | stsW => exact .issue (hs nofun) fun h => h.storeS
  | pf => exact .issue (hs nofun) fun h => (h.foldl fun _ h1 => h1.prefetch).ok
  | atomA => exact .issue (hs nofun) fun h => h.atomic
  | atomB => exact .issue (hs nofun) fun h => h.atomic
  | atomC => exact .issue (hs nofun) fun h => .ite h.atomic h.atomic
  | red => exact .issue (hs nofun) fun h => h.atomic
  | fence => exact .issue (hs nofun) fun h => h.await
  | phaseClose => exact .issue (hs nofun) fun h => h.enter.closeForms.ok
  | phaseOpen => exact .issue (hs nofun) fun h => h.await
  | phaseCycle => exact .issue (hs nofun) fun h => h.enter.closeForms.await
  | phaseTest => exact .issue (hs nofun) fun h => h.giveP.ok
  | barArrive => exact .issue (hs nofun) fun h => .barrier h.cxRecord.ok
  | barWait => exact .issue (hs nofun) fun h => .barrier h.spoil.touch.await
  | barArriveWait => exact keeps_execBarArriveWait (hs nofun)
  | barCount => exact .issue (hs nofun) fun h => .barrier (.ite .hold (h.reads h.spoil.touch.giveS.acquire.ok))
  | arrArrive => exact .issue (hs nofun) fun h => .objects h.cxRecord.ok
  | arrExpect => exact .issue (hs nofun) fun h => .objects h.cxRecord.ok
  | arrTest => exact .issue (hs nofun) fun h => .objects (.ite .hold (h.reads h.countBanks.giveP.ok))
  | arrWait => exact .issue (hs nofun) fun h => .objects h.countBanks.await
  | cpIssue => exact .issue (hs nofun) fun h => h.copyIssue
  | cpIssue2d => exact .issue (hs nofun) fun h => h.copyIssue
  | cpRekey => exact keeps_execCpRekey (hs nofun)
  | cpCancel => exact keeps_execCpCancel (hs nofun)
  | stMc => exact .issue (hs nofun) fun h => .fabric h.enter.ok
  | ldRedAddF32 => exact .issue (hs nofun) fun h => .fabric h.enter.ok
  | ldRedAddBf16 => exact .issue (hs nofun) fun h => .fabric h.enter.ok
  | ldRedMaxF32 => exact .issue (hs nofun) fun h => .fabric h.enter.ok
  | cntAdd => exact .issue (hs nofun) fun h => .counter h.cxRecord.ok
  | cntRd => exact .issue (hs nofun) fun h => .counter h.cxRecord.ok
  | cntWait => exact .issue (hs nofun) fun h => .counter h.touch.await
  | cntTest => exact .issue (hs nofun) fun h => .counter (.ite .hold (h.reads h.touch.giveSp.ok))
  | tileTld => exact keeps_execTileTld (hs nofun)
  | tileTst => exact keeps_execTileTst (hs nofun)
  | tileTzero => exact .issue (hs nofun) fun h => .ite .hold h.takeTile.keepUndo.markAcc.accFill.tileWritten.modGroup.ok
  | tileTcvt => exact keeps_execTileTcvt (hs nofun)
  | mmaIssueCore => exact .issue (hs nofun) fun h => h.mmaIssue
  | mmaIssueCl => exact .issue (hs nofun) fun h => h.mmaIssue
  | mmaWait => exact .issue (hs nofun) fun h => .ite h.takeTile.await .hold
  | mmaFence => exact .issue (hs nofun) fun h => h.takeTile.await
  | collIssue => exact keeps_execCollIssue (hs nofun)
  | collWait => exact .issue (hs nofun) fun h => h.await
  | collTest => exact .issue (hs nofun) fun h => h.giveP.ok
  | collSignal => exact .issue (hs nofun) fun h => h.enter.ok
  | contEmit => exact .issue (hs nofun) fun h => .ite .priv (.ite .trap (.ite .trap (.ite .hold h.enter.modGroup.ok)))
  | contFlush => exact .issue (hs nofun) fun h => h.modGroup.ok
  | bra => exact .issue (hs nofun) fun h => h.goto
  | brP => exact .issue (hs nofun) fun h => .ite h.goto (.ite h.ok (.ite .illegal h.same.modGroup.ok))
  | brAny => exact .issue (hs nofun) fun h => .ite h.ok h.goto
  | brAll => exact .issue (hs nofun) fun h => .ite h.goto h.ok
  | call => exact .issue (hs nofun) fun h => h.writeSp.goto
  | ret => exact .issue (hs nofun) fun h => h.jump
  | jmpR => exact .issue (hs nofun) fun h => h.jump
  | rcv => exact .issue (hs nofun) fun h => h.park.ok
  | yieldSplit => exact .issue (hs nofun) fun h => .ite h.ok h.modGroup.refill.ok
  | resync => exact .issue (hs nofun) fun h => h.park.ok
  | exitLanes => exact .issue (hs nofun) fun h => h.exitSplit.ok
  | swTrap => exact .issue (hs nofun) fun _ => .trap
  | sleepUntil => exact .issue (hs nofun) fun h => h.sleepTo
  | sleepNs => exact .issue (hs nofun) fun h => h.sleepTo
  | sleepYield => exact .issue (hs nofun) fun h => h.modSplit.ok
  | srRd => exact .issue (hs nofun) fun h => .ite h.giveV.ok (.ite h.giveSp.ok h.giveS.ok)
  | srWr => exact .issue (hs nofun) fun h => .ite h.modGroup.ok (.ite h.modGroup.ok (.ite h.modGroup.ok .priv))
  | ctrRd => exact .issue (hs nofun) fun h => h.giveSp.ok
  | ctrStart => exact .issue (hs nofun) fun h => h.gate.ok
  | ctrStop => exact .issue (hs nofun) fun h => h.gate.ok
  | ctrMark => exact .issue (hs nofun) fun h => (Canonical.ite h.trace h).ok
  | brk => exact .issue (hs nofun) fun _ => .trap
  | boostClaim => exact .issue (hs nofun) fun h => h.modGroup.watchClaims.ok
  | boostRelease => exact .issue (hs nofun) fun h => h.modGroup.watchClaims.ok
  | boostQuery => exact .issue (hs nofun) fun h => h.giveS.ok
  | rfe => exact .issue (hs nofun) fun h => .ite .illegal (.ite .illegal h.returnFrom.ok)
  | nop => exact .issue (hs nofun) fun h => h.ok
  | nopWaitsb => exact .issue (hs nofun) fun h => h.ok
  | maskRd => exact .issue (hs nofun) fun h => h.writeS.ok
  | maskWr => exact .issue (hs nofun) fun h => .ite .priv (.ite .illegal h.modSplit.ok)
  | pand => exact .issue (hs nofun) fun h => h.writeP.ok
  | por => exact .issue (hs nofun) fun h => h.writeP.ok
  | pxor => exact .issue (hs nofun) fun h => h.writeP.ok
  | pnot => exact .issue (hs nofun) fun h => h.writeP.ok
  | chartSel => exact keeps_execChartSel (hs nofun)
  | chartRd => exact keeps_execChartRd (hs nofun)
  | pktBadType => exact keeps_execPktBadType
  | rdmaInbound => exact .next fun h => h.rdma

theorem Keeps.closeIssue {o : Host.Outcome State Fault Refusal} (k : Keeps t o) (ht : Canonical s → Canonical t) {gid born} :
    Keeps s (closeIssue t gid born o) := by
  obtain ⟨u, rfl, hu⟩ := k
  exact .next fun h => (hu (ht h)).clearSkip

theorem lay_of_posted {i : Instr} (h : Instr.posted i = true) : (view i).lay = .event :=
  eq_of_beq (Bool.and_eq_true_iff.mp h).1

/-- A step that goes on from another canonical state. -/
theorem Keeps.comp {o : Host.Outcome State Fault Refusal} (k : Keeps t o) (ht : Canonical s → Canonical t) : Keeps s o := by
  obtain ⟨u, rfl, hu⟩ := k
  exact .next (hu ∘ ht)

/-- A step is one of five: what the stage before issue leaves, the instruction that it answers, the event posted first, an event
that is dropped, or the passing of time. -/
theorem keeps_step (s : State) : Keeps s (step s) := by
  unfold step
  split
  · next gid born cur =>
    have front := frontKeeps cur
    split
    · next e =>
      rw [e] at front
      exact .next front
    · next i t e =>
      rw [e] at front
      obtain ⟨issuing, keeps⟩ := front
      exact (keeps_exec i fun _ => issuing).closeIssue keeps
  · split
    · split
      · next posted =>
        exact (keeps_exec _ fun word => absurd (lay_of_posted posted) word).comp fun h => h.same
      · exact .next fun h => h.same
    · exact .next fun h => h.idle

/-- Settles O58: the three memories list no byte at reset. -/
theorem resetIsCanonical : Obligations.ResetIsCanonical := by
  unfold Obligations.ResetIsCanonical
  exact ⟨rfl, rfl, rfl⟩

/-- Settles O59: every byte is written through the operations that keep the canonical form, and an instruction is
executed only where a split issues it. -/
theorem everyStepKeepsTheMemoriesCanonical : Obligations.EveryStepKeepsTheMemoriesCanonical := by
  unfold Obligations.EveryStepKeepsTheMemoriesCanonical
  exact keeps_step

end Sys2Proof.Safety
end

section
/-! SUPPORT. The statement AccessChecks. -/

namespace Sys2Proof.Safety

open Machine

/-! ## The windows (R187) -/

theorem windowOf_bad {a : Nat} (h : 0x0200000000000000 ≤ a) : windowOf a = .bad := if_pos h

theorem windowOf_spad {a : Nat} (low : 0x01FFFFFFFF000000 ≤ a) (high : a < 0x0200000000000000) : windowOf a = .spad :=
  (if_neg high.not_ge).trans (if_pos low)

theorem windowOf_priv {a : Nat} (low : 0x01FFFFFF00000000 ≤ a) (high : a < 0x01FFFFFFFF000000) : windowOf a = .priv :=
  (if_neg (by omega)).trans ((if_neg high.not_ge).trans (if_pos low))

theorem windowOf_glob {a : Nat} (h : a < 0x01FFFFFF00000000) : windowOf a = .glob :=
  (if_neg (by omega)).trans ((if_neg (by omega)).trans (if_neg h.not_ge))

/-! ## The checks of one lane (R188, R189, R192) -/

section
variable {s : State} {g : Group} {o : AccOpt} {size lane : Nat} {ea : DWord}

theorem checkLane_misaligned (h : ea.toNat % size ≠ 0) :
    s.checkLane g o size lane ea = .error { cause := 4, info := Nat.log2 size } :=
  if_pos h

section
variable (aligned : ea.toNat % size = 0)
include aligned

theorem checkLane_bad (w : windowOf ea.toNat = .bad) : s.checkLane g o size lane ea = .error { cause := 5 } := by
  simp only [State.checkLane, aligned, ne_eq, not_true_eq_false, if_false, w]

theorem checkLane_glob_refused (w : windowOf ea.toNat = .glob) (refused : o.glob = false) :
    s.checkLane g o size lane ea = .error { cause := 5 } := by
  simp only [State.checkLane, aligned, ne_eq, not_true_eq_false, if_false, w, refused, Bool.not_false, if_true]

theorem checkLane_priv (w : windowOf ea.toNat = .priv) : s.checkLane g o size lane ea =
    if o.priv then s.checkPriv g o lane ea.toNat size ea else .error { cause := 5 } := by
  cases allowed : o.priv <;>
    simp only [State.checkLane, aligned, ne_eq, not_true_eq_false, if_false, w, allowed, Bool.not_false, Bool.not_true, if_true,
      Bool.false_eq_true]

theorem checkLane_spad (w : windowOf ea.toNat = .spad) : s.checkLane g o size lane ea =
    if o.spad then (s.checkSpad g ea.toNat size).map (fun loc => [{ lane := lane, ea := ea, size := size, loc := loc }])
    else .error { cause := 5 } := by
  cases allowed : o.spad <;>
    simp only [State.checkLane, aligned, ne_eq, not_true_eq_false, if_false, w, allowed, Bool.not_false, Bool.not_true, if_true,
      Bool.false_eq_true]

end

/-- An access past the words of a lane is a bounds failure (R192). -/
theorem checkPriv_past {a : Nat} (h : g.privWords.toNat < (a - 0x01FFFFFF00000000) / 4 + (size + 3) / 4) :
    s.checkPriv g o lane a size ea = .error { cause := 7 } :=
  if_neg h.not_ge

/-- An access to the scratchpad slot of the group's own core stays below the limit of its work-group. -/
theorem checkSpad_own {a : Nat} (own : (a - 0x01FFFFFFFF000000) / 4194304 = g.lCore) : s.checkSpad g a size =
    if (a - 0x01FFFFFFFF000000) % 4194304 + size ≤ g.spadLimit.toNat then
      .ok (.spad g.core (g.spadBase.toNat + (a - 0x01FFFFFFFF000000) % 4194304))
    else .error { cause := 6 } :=
  if_pos own

/-- A slot of a core that the cluster does not have is no address. -/
theorem checkSpad_absent {a : Nat} (other : (a - 0x01FFFFFFFF000000) / 4194304 ≠ g.lCore)
    (absent : (s.clusterCores g.core).length ≤ (a - 0x01FFFFFFFF000000) / 4194304) :
    s.checkSpad g a size = .error { cause := 5 } := by
  simp only [State.checkSpad, other, if_false, List.getElem?_eq_none absent]

/-- The scratchpad window begins at a multiple of the size of a slot. -/
theorem spad_offset {a : Nat} (h : 0x01FFFFFFFF000000 ≤ a) : (a - 0x01FFFFFFFF000000) % 4194304 = a % 4194304 := by
  omega

end

/-- Settles O20: alignment comes first, then the window of the address decides which check answers. -/
theorem accessChecks : Obligations.AccessChecks := by
  intro s g o size lane ea _ _
  refine ⟨checkLane_misaligned, fun aligned bad => ?_, fun aligned glob refused => ?_, fun aligned low high refused => ?_,
    fun aligned low high allowed past => ?_, fun aligned low high refused => ?_, fun aligned low high allowed own => ?_,
    fun aligned low high allowed other absent => ?_⟩
  · exact checkLane_bad aligned (windowOf_bad bad)
  · exact checkLane_glob_refused aligned (windowOf_glob glob) refused
  · rw [checkLane_priv aligned (windowOf_priv low high), refused, if_neg Bool.false_ne_true]
  · rw [checkLane_priv aligned (windowOf_priv low high), allowed, if_pos rfl, checkPriv_past past]
  · rw [checkLane_spad aligned (windowOf_spad low high), refused, if_neg Bool.false_ne_true]
  · rw [checkLane_spad aligned (windowOf_spad low high), allowed, if_pos rfl, checkSpad_own own, spad_offset low]
    split <;> rfl
  · rw [checkLane_spad aligned (windowOf_spad low high), allowed, if_pos rfl, checkSpad_absent other absent]
    rfl

end Sys2Proof.Safety
end

section
/-! SUPPORT. Walks, invalidations and rings (R199 to R203). -/

namespace Sys2Proof.Machine

/-- A table of which every value is changed by a function that leaves the default as it is. -/
theorem Tbl.get_map_default {α : Type} {f : α → α} {d : α} (h : f d = d) (t : Tbl α) (k : Nat) :
    Tbl.get (t.map (fun e => (e.1, f e.2))) d k = f (Tbl.get t d k) := by
  rw [Tbl.get_eq, Tbl.get_eq, Tbl.find_map (fun e => f e.2)]
  cases Tbl.find t k with
  | none => exact h.symm
  | some a => rfl

/-! ## Walks (R200) -/

theorem mem_tlbKeep (sets ways : Nat) (l : List TlbEntry) (e : TlbEntry) : e ∈ tlbKeep sets ways l e := by
  unfold tlbKeep
  split
  · next held => exact List.contains_iff_mem.mp held
  · exact List.mem_cons_self

namespace State

variable {s : State} {t c va : Nat} {e : TlbEntry}

/-- An address that passes the checks of its page has a translation. -/
theorem translate_of_checkPage {acc : Access} (h : s.checkPage t c va acc = .ok e) : s.translate t c va = .ok e := by
  unfold checkPage at h
  cases found : s.translate t c va with
  | error f =>
    rw [found] at h
    cases h
  | ok f =>
    rw [found] at h
    dsimp only at h
    split_ifs at h
    exact h

/-- The translation goes to the TLB of the core and to that of its die; the die's walker keeps what the walk read. -/
theorem fillTlb_of_translate (h : s.translate t c va = .ok e) : ∃ read : List Upper → List Upper, s.fillTlb t c va =
    (s.modCore c (fun x => { x with tlb := tlbKeep 64 8 x.tlb e })).modDie (dieOf c)
      (fun d => { d with stlb := tlbKeep 1024 16 d.stlb e, upper := read d.upper }) := by
  refine ⟨fun l => (if (tlbFind (s.core c).tlb t va).isSome || (tlbFind (s.die (dieOf c)).stlb t va).isSome then []
    else s.walked t (dieOf c) va).foldl keepUpper l, ?_⟩
  unfold fillTlb
  rw [h]

/-! ## TLBINV (R201) -/

/-- The invalidation registers of a stage after a change of them. -/
theorem tlbinv_modTlbinv (s : State) (k : Nat) (host : Bool) (f : Tlbinv → Tlbinv) :
    ((s.modTlbinv k host f).slice k).tlbinv host = f ((s.slice k).tlbinv host) := by
  rw [modTlbinv, modSlice_slice_self]
  cases host <;> rfl

/-- A change that leaves the registers as they are leaves their slice as it is. -/
theorem slice_modTlbinv_same {k : Nat} {host : Bool} {f : Tlbinv → Tlbinv}
    (h : f ((s.slice k).tlbinv host) = (s.slice k).tlbinv host) :
    (s.modTlbinv k host f).slice k = s.slice k := by
  rw [modTlbinv, modSlice_slice_self]
  cases host with
  | false => exact congrArg (fun v => { s.slice k with inv := v }) h
  | true => exact congrArg (fun v => { s.slice k with hinv := v }) h

/-- The caches without the range of an invalidation. -/
def withoutRange (s : State) (k : Nat) (host : Bool) (v : Tlbinv) : State :=
  { s with
    cores := s.cores.map (fun c => (c.1, { c.2 with tlb := c.2.tlb.filter (fun e => !v.hits k host e) })),
    dies := s.dies.map (fun d => (d.1,
      { d.2 with stlb := d.2.stlb.filter (fun e => !v.hits k host e), upper := d.2.upper.filter (fun u => !v.drops k host u) })) }

/-- The splits whose waits an invalidation makes stale execute them again. -/
def awakeStale (s : State) (k : Nat) (host : Bool) (v : Tlbinv) : State :=
  s.groups.foldl (fun u e => (e.2.splits.filter (s.staleWait k host v e.2)).foldl (fun u p => u.stopWait e.1 p.born) u) s

theorem invalidate_idle {k : Nat} {host : Bool} (h : ((s.slice k).tlbinv host).busy = false) : s.invalidate k host = s :=
  if_pos (by rw [h]; rfl)

theorem invalidate_busy {k : Nat} {host : Bool} {v : Tlbinv} (eq : (s.slice k).tlbinv host = v) (busy : v.busy = true) :
    s.invalidate k host =
      if s.usesRange k host v then (s.withoutRange k host v).awakeStale k host v
      else ((s.withoutRange k host v).awakeStale k host v).modTlbinv k host (fun v => { v with busy := false }) := by
  subst eq
  exact if_neg (by rw [busy]; decide)

theorem core_withoutRange (s : State) (k : Nat) (host : Bool) (v : Tlbinv) (c : Nat) : (s.withoutRange k host v).core c =
    { s.core c with tlb := (s.core c).tlb.filter (fun e => !v.hits k host e) } :=
  Tbl.get_map_default (f := fun x : Core => { x with tlb := x.tlb.filter (fun e => !v.hits k host e) }) rfl ..

theorem die_withoutRange (s : State) (k : Nat) (host : Bool) (v : Tlbinv) (d : Nat) : (s.withoutRange k host v).die d =
    { s.die d with
      stlb := (s.die d).stlb.filter (fun e => !v.hits k host e), upper := (s.die d).upper.filter (fun u => !v.drops k host u) } :=
  Tbl.get_map_default (f := fun x : Die =>
    { x with stlb := x.stlb.filter (fun e => !v.hits k host e), upper := x.upper.filter (fun u => !v.drops k host u) }) rfl ..

/-- The state but for its groups. -/
def ungrouped (s : State) : State := { s with groups := [] }

theorem awakeStale_ungrouped (s : State) (k : Nat) (host : Bool) (v : Tlbinv) : (s.awakeStale k host v).ungrouped = s.ungrouped :=
  foldl_keeps ungrouped (fun u (e : Nat × Group) => foldl_keeps ungrouped (f := fun u (p : Split) => u.stopWait e.1 p.born)
    (fun _ _ => rfl) (e.2.splits.filter (s.staleWait k host v e.2)) u) s.groups s

/-- A split that waits for nothing has no stale wait. -/
theorem staleWait_awake {k : Nat} {host : Bool} {v : Tlbinv} {g : Group} {p : Split} (h : p.wait = none) :
    s.staleWait k host v g p = false := by
  rw [staleWait, h, Bool.and_false]

theorem awakeStale_awake {k : Nat} {host : Bool} {v : Tlbinv} (h : ∀ g ∈ s.groups, ∀ p ∈ g.2.splits, p.wait = none) :
    s.awakeStale k host v = s := by
  unfold awakeStale
  have none_ (e : Nat × Group) (he : e ∈ s.groups) : e.2.splits.filter (s.staleWait k host v e.2) = [] :=
    List.filter_eq_nil_iff.mpr fun p hp => by rw [staleWait_awake (h e he p hp)]; decide
  calc _ = s.groups.foldl (fun u _ => u) s := List.foldl_ext _ _ _ fun u e he => by rw [none_ e he]; rfl
    _ = s := List.foldl_fixed' (fun _ => rfl) _

/-- The one split of the one group. -/
theorem awakeStale_single {k gid : Nat} {host : Bool} {v : Tlbinv} {g : Group} {p : Split} (one : s.groups = [(gid, g)])
    (split : g.splits = [p]) : (s.awakeStale k host v).groups = [(gid, if s.staleWait k host v g p = true then
      { g with splits := [{ p with st := .run, why := .awake, wait := none, mark := none }] } else g)] := by
  unfold awakeStale
  rw [one, List.foldl_cons, List.foldl_nil, split, List.filter_cons, List.filter_nil]
  split
  · rw [List.foldl_cons, List.foldl_nil, stopWait, modSplit, modGroup, one, Tbl.upd, if_pos rfl, Group.modSplit, split, modSplits,
      if_pos rfl]
  · rw [List.foldl_nil, one]

/-! ## Rings (R202) -/

variable {fn ring : Nat}

theorem ringOf_slice (h : ring < 3) : s.ringOf fn ring = (s.slice (fnSlice fn)).ring ring := if_pos h

theorem modRing_slice (h : ring < 3) (f : Ring → Ring) : s.modRing fn ring f =
    s.modSlice (fnSlice fn) (fun x => { x with rings := Tbl.put x.rings ring (f (x.ring ring)) }) := if_pos h

theorem ringOf_modRing (h : ring < 3) (f : Ring → Ring) : (s.modRing fn ring f).ringOf fn ring = f (s.ringOf fn ring) := by
  rw [ringOf_slice h, modRing_slice h, modSlice_slice_self, ringOf_slice h]
  exact Tbl.get_put_self ..

/-- Records are held for ring 0 alone. -/
theorem retryHeld_other (h : ring ≠ 0) : s.retryHeld fn ring = s := if_pos h

theorem writeRctl_bad {v : Word} (h : v.toNat % 32 < 4 ∨ (ring < 3 ∧ 16 < v.toNat % 32)) : s.writeRctl fn ring v = s := by
  refine if_pos ?_
  rcases h with low | ⟨small, high⟩
  · simp only [low, decide_true, Bool.true_or]
  · simp only [small, if_true, high, decide_true, Bool.or_true]

theorem writeRctl_good {v : Word} (low : 4 ≤ v.toNat % 32) (high : v.toNat % 32 ≤ 16) (small : ring < 3) (some_ : ring ≠ 0) :
    s.writeRctl fn ring v =
      s.modRing fn ring (fun r => { r with en := v.getLsbD 31, ovf := r.ovf && !v.getLsbD 30, log2n := v.toNat % 32 }) := by
  refine (if_neg ?_).trans (retryHeld_other some_)
  simp only [small, if_true, low.not_gt, high.not_gt, decide_false, Bool.or_self, Bool.false_eq_true, not_false_eq_true]

end State

/-- The mask of a page keeps the bits above its offset. -/
theorem toNat_and_page (v : Word) : (v &&& 0xFFFFF000).toNat = v.toNat / 2 ^ 12 * 2 ^ 12 := by
  have mask : (0xFFFFF000 : Word).toNat = (2 ^ 20 - 1) * 2 ^ 12 := rfl
  rw [BitVec.toNat_and, mask]
  refine Nat.eq_of_testBit_eq fun i => ?_
  rw [Nat.testBit_and, Nat.testBit_mul_two_pow, Nat.testBit_mul_two_pow, Nat.testBit_two_pow_sub_one, Nat.testBit_div_two_pow]
  by_cases low : 12 ≤ i
  · by_cases high : i - 12 < 20
    · simp only [low, high, decide_true, Bool.and_true, Bool.true_and, Nat.sub_add_cancel low]
    · have beyond : v.toNat.testBit i = false := Nat.testBit_lt_two_pow (v.isLt.trans_le (Nat.pow_le_pow_right two_pos (by omega)))
      simp only [Nat.sub_add_cancel low, beyond, Bool.false_and, Bool.and_false]
  · simp only [low, decide_false, Bool.false_and, Bool.and_false]

/-- The low half of an address of pages is replaced; the high half stays. -/
theorem halfWrite_low (old : DWord) (n : Nat) (v : Word) :
    halfWrite old false 12 n v = old.extractLsb' 32 32 ++ (v &&& 0xFFFFF000) := by
  have hold := old.isLt
  have hv := v.isLt
  have low := toNat_and_page v
  have append := (BitVec.toNat_append (old.extractLsb' 32 32) _).trans
    (Nat.shiftLeft_add_eq_or_of_lt (v &&& 0xFFFFF000).isLt _).symm
  refine BitVec.eq_of_toNat_eq (Eq.trans ?_ append.symm)
  simp only [halfWrite, Bool.false_eq_true, if_false, BitVec.toNat_ofNat, BitVec.extractLsb'_toNat, Nat.shiftRight_eq_div_pow,
    Nat.shiftLeft_eq]
  omega

/-- The high half of an address of 57 bits is replaced; the low half stays. -/
theorem halfWrite_high (old : DWord) (lo : Nat) (v : Word) :
    halfWrite old true lo 25 v = (v &&& 0x1FFFFFF) ++ old.extractLsb' 0 32 := by
  have hold := old.isLt
  have high : (v &&& 0x1FFFFFF).toNat = v.toNat % 2 ^ 25 :=
    (BitVec.toNat_and ..).trans (Nat.and_two_pow_sub_one_eq_mod v.toNat 25)
  have append := (BitVec.toNat_append (v &&& 0x1FFFFFF) (old.extractLsb' 0 32)).trans
    (Nat.shiftLeft_add_eq_or_of_lt (old.extractLsb' 0 32).isLt _).symm
  refine BitVec.eq_of_toNat_eq (Eq.trans ?_ append.symm)
  simp only [halfWrite, if_true, BitVec.toNat_ofNat, BitVec.extractLsb'_toNat, Nat.shiftRight_eq_div_pow, Nat.shiftLeft_eq, high]
  omega

end Sys2Proof.Machine

namespace Sys2Proof.Safety

open Machine

theorem onlySlice_modTlbinv (s : State) (k : Nat) (host : Bool) (f : Tlbinv → Tlbinv) : OnlySlice k s (s.modTlbinv k host f) :=
  onlySlice_modSlice ..

theorem onlySlice_modRing {ring : Nat} (s : State) (fn : Nat) (h : ring < 3) (f : Ring → Ring) :
    OnlySlice (fnSlice fn) s (s.modRing fn ring f) := by
  rw [State.modRing_slice h]
  exact onlySlice_modSlice ..

/-- A write that changes one register of ring 1 or 2. -/
theorem gives_ring {i : Instr} {s u : State} {fn ring : Nat} {f : Ring → Ring} {y : Ring} (hr : s.m.recovery = false)
    (small : ring < 3) (run : exec i s = .next (s.bar0 u)) (h : u = s.modRing fn ring f) (same : f (s.ringOf fn ring) = y) :
    Gives i s (fun t => OnlySlice (fnSlice fn) s t ∧ t.ringOf fn ring = y) :=
  gives_bar0 hr run h ⟨onlySlice_modRing s fn small f, (State.ringOf_modRing small f).trans same⟩

end Sys2Proof.Safety
end

section
/-! SUPPORT. The reporting port and the answers to faults (R203, R206). -/

namespace Sys2Proof.Machine

namespace State

variable {s : State} {fn ring die gid tok : Nat} {g : Group}

/-! ## The reporting port (R203) -/

theorem grantKind_lt (pos : Nat) : grantKind pos < 3 := by
  unfold grantKind
  split
  · decide
  · split <;> decide

/-- With one record pending, its kind is the first that has one. -/
theorem pendingKind_single {r : Nat × Nat × Nat × List Byte} (one : s.m.records = [r]) (kind : r.1 < 3) {k : Nat} (hk : k < 3) :
    s.pendingKind k = some r.1 := by
  have found : ∀ k < 3, ∀ j < 3, [k, (k + 1) % 3, (k + 2) % 3].find? (fun i => j == i) = some j := by decide
  rw [pendingKind, one]
  simp only [List.any_cons, List.any_nil, Bool.or_false]
  exact found k hk r.1 kind

/-- With one record pending, its function has the turn. -/
theorem turnFn_single {r : Nat × Nat × Nat × List Byte} (one : s.m.records = [r]) (fn : r.2.1 < 17) : s.turnFn r.1 = r.2.1 := by
  unfold turnFn
  simp only [one, List.filter_cons, List.filter_nil, beq_self_eq_true, if_true, List.map_cons, List.map_nil]
  generalize Tbl.get s.m.rrRing 0 r.1 = start
  cases found : ((List.range 17).map (fun i => (start + i) % 17)).find? (fun f => [r.2.1].contains f) with
  | none =>
    have turn : r.2.1 ∈ (List.range 17).map (fun i => (start + i) % 17) :=
      List.mem_map.mpr ⟨(r.2.1 + 17 - start % 17) % 17, List.mem_range.mpr (Nat.mod_lt _ (by decide)), by omega⟩
    exact absurd (List.contains_iff_mem.mpr List.mem_cons_self) (List.find?_eq_none.mp found _ turn)
  | some f => exact List.mem_singleton.mp (List.contains_iff_mem.mp (List.find?_some found :))

theorem report_nothing (h : s.m.records = []) : s.report_ = s := by
  have none_ : s.pendingKind (grantKind s.m.rrPos) = none := by
    rw [pendingKind, h]
    rfl
  rw [report_, none_]

/-- The one record pending is taken from those pending and put. -/
theorem report_single {r : Nat × Nat × Nat × List Byte} (one : s.m.records = [r]) (kind : r.1 < 3) (fn : r.2.1 < 17) :
    ∃ m : Module, m.records = [] ∧ s.report_ = { s with m := m }.putRecord_ r.2.1 r.1 r.2.2.1 r.2.2.2 := by
  refine ⟨{ s.m with records := [], rrPos := (s.m.rrPos + 1) % 7, rrRing := Tbl.put s.m.rrRing r.1 ((r.2.1 + 1) % 17) }, rfl, ?_⟩
  have record : [r].find? (fun x => x.1 == r.1 && x.2.1 == r.2.1) = some r :=
    List.find?_cons_of_pos (by rw [beq_self_eq_true, beq_self_eq_true]; rfl)
  unfold report_
  rw [pendingKind_single one kind (grantKind_lt _)]
  dsimp only
  rw [turnFn_single one fn, one, record]
  dsimp only [modM]
  rw [one, List.erase_cons_head]

theorem putRecord_full {bytes : List Byte} (en : (s.ringOf fn ring).en = true) (full : (s.ringOf fn ring).full = true)
    (some_ : ring ≠ 0) : s.putRecord_ fn ring die bytes = s.modRing fn ring Ring.drop := by
  unfold putRecord_
  simp only [en, full, Bool.not_true, Bool.false_eq_true, if_false, if_true, some_]

theorem putRecord_writes {bytes : List Byte} {u : State} (en : (s.ringOf fn ring).en = true)
    (full : (s.ringOf fn ring).full = false) (write : s.writeRing fn ring bytes = some u) : s.putRecord_ fn ring die bytes = u := by
  unfold putRecord_
  simp only [en, full, Bool.not_true, Bool.false_eq_true, if_false, write]

/-- The PF's ring lies in frames that the PF owns. -/
theorem writeRing_pf {bytes : List Byte} {a : Nat}
    (place : (s.ringOf 0 ring).base.toNat + bytes.length * ((s.ringOf 0 ring).tail.toNat % 2 ^ (s.ringOf 0 ring).log2n) = a)
    (fits : a + bytes.length ≤ 0x7FFF800000) (owner : s.owner (a / 65536) = 16) :
    s.writeRing 0 ring bytes = some ((s.publishBytes a bytes).modRing 0 ring (fun r => { r with tail := r.tail + 1 })) := by
  subst place
  unfold writeRing
  simp only [if_true, fits, owner, decide_true, beq_self_eq_true, Bool.and_self, Option.map_some]

theorem records_publishBytes (a : Nat) (l : List Byte) : (s.publishBytes a l).m.records = s.m.records := by
  unfold publishBytes unpoison
  split <;> rfl

/-! ## What an engine writes leaves the groups -/

theorem groups_of_engineBytes {s u : State} {t va : Nat} {l : List Byte} (h : s.engineBytes t die va l = some u) :
    u.groups = s.groups := by
  induction l generalizing s va with
  | nil => cases h; rfl
  | cons b l ih =>
    unfold engineBytes at h
    split at h
    · cases h
    · next e a _ =>
      split at h
      · obtain ⟨m, published⟩ := publishBytes_whole s a [b]
        exact (ih h).trans (by rw [published]; rfl)
      · split at h
        · exact (ih h).trans rfl
        · cases h

theorem groups_writeMarks (s : State) (t : Nat) (as : List Nat) : (s.writeMarks t as).groups = s.groups := by
  unfold writeMarks
  dsimp only
  split <;> rfl

/-- A write that may fail, with what is done then. -/
theorem groups_engineWrite_getD {s v : State} (t die va : Nat) (l : List Byte) (h : v.groups = s.groups) :
    ((s.engineWrite t die va l).getD v).groups = s.groups := by
  cases written : s.engineWrite t die va l with
  | none => exact h
  | some u =>
    obtain ⟨w, bytes, rfl⟩ := Option.map_eq_some_iff.mp written
    have same := groups_of_engineBytes bytes
    rw [Option.getD_some]
    split
    · exact same
    · exact (groups_writeMarks ..).trans same

/-! ## Answers to faults (R206) -/

/-- The tokens of a function without one. -/
def withoutToken (s : State) (fn tok : Nat) : State :=
  s.modSlice (fnSlice fn) (fun x => { x with tokens := x.tokens.filter (fun e => e.1 != tok) })

theorem takeToken_stale (h : ∀ e ∈ (s.slice (fnSlice fn)).tokens, e.1 ≠ tok) : s.takeToken fn tok = none :=
  if_neg fun any => by
    obtain ⟨e, he, same⟩ := List.any_eq_true.mp any
    exact h e he (beq_iff_eq.mp same)

theorem takeToken_held (h : ∃ p, (tok, p) ∈ (s.slice (fnSlice fn)).tokens) : s.takeToken fn tok = some (s.withoutToken fn tok) := by
  obtain ⟨p, held⟩ := h
  exact if_pos (List.any_eq_true.mpr ⟨(tok, p), held, beq_self_eq_true tok⟩)

theorem tokens_withoutToken (s : State) (fn tok : Nat) : ∀ e ∈ ((s.withoutToken fn tok).slice (fnSlice fn)).tokens, e.1 ≠ tok := by
  intro e he
  rw [withoutToken, modSlice_slice_self] at he
  exact bne_iff_ne.mp (List.mem_filter.mp he).2

theorem faultRetry_stale (h : ∀ e ∈ (s.slice (fnSlice fn)).tokens, e.1 ≠ tok) : s.faultRetry fn tok = s := by
  rw [faultRetry, takeToken_stale h]

theorem faultFail_stale (h : ∀ e ∈ (s.slice (fnSlice fn)).tokens, e.1 ≠ tok) : s.faultFail fn tok = s := by
  rw [faultFail, takeToken_stale h]

section
variable (held : ∃ p, (tok, p) ∈ (s.slice (fnSlice fn)).tokens) (copies : s.tokenCopies fn tok = [])
include held copies

/-- A token on which no copy waits. -/
theorem faultRetry_groups : s.faultRetry fn tok = (s.withoutToken fn tok).freeWaiters fn tok none := by
  rw [faultRetry, takeToken_held held, copies]
  rfl

theorem faultFail_groups : s.faultFail fn tok = (s.withoutToken fn tok).freeWaiters fn tok (some 4) := by
  rw [faultFail, takeToken_held held, copies]
  rfl

end

section
variable (one : s.groups = [(gid, g)]) (waits : g.token = some (fn, tok))
include one waits

/-- The one group waits for the token: it is freed without a reason of its own. -/
theorem freeWaiters_retry :
    s.freeWaiters fn tok none = s.modGroup gid (fun g => { g with token := none, wants := true, why := g.why }) := by
  have waiter : s.groups.filter (fun e => e.2.token == some (fn, tok)) = [(gid, g)] := by
    rw [one]
    exact List.filter_cons_of_pos (by rw [waits]; exact beq_self_eq_true _)
  unfold freeWaiters
  rw [waiter]
  rfl

/-- It is freed with a reason, which its frame takes where it is saved. -/
theorem freeWaiters_fail (w : Nat) :
    (s.freeWaiters fn tok (some w)).groups = [(gid, { g with token := none, wants := true, why := w })] ∧
      (s.freeWaiters fn tok (some w)).standing = s.standing := by
  have waiter : s.groups.filter (fun e => e.2.token == some (fn, tok)) = [(gid, g)] := by
    rw [one]
    exact List.filter_cons_of_pos (by rw [waits]; exact beq_self_eq_true _)
  have freed : (s.modGroup gid fun g => { g with token := none, wants := true, why := w }).groups =
      [(gid, { g with token := none, wants := true, why := w })] := by
    rw [modGroup, one, Tbl.upd, if_pos rfl]
  unfold freeWaiters
  rw [waiter, List.foldl_cons, List.foldl_nil]
  dsimp only [Option.getD_some]
  split
  · exact ⟨(groups_engineWrite_getD _ _ _ _ rfl).trans freed, standing_engineWrite_getD _ _ _ _ rfl⟩
  · exact ⟨freed, rfl⟩

end

end State

end Sys2Proof.Machine
end

section
/-! SUPPORT. The statement TranslationAndRings. -/

namespace Sys2Proof.Safety

open Machine

variable {s : State}

/-! ## Walks and TLBINV -/

/-- A walk that gives a translation puts it in the two TLBs and changes nothing else but them and the die's walker. -/
theorem gives_pageWalk {c : Nat} {va : DWord} {acc : Access} {e : TlbEntry}
    (page : s.checkPage (s.core c).owner c va.toNat acc = .ok e) : Gives (.pageWalk c va acc) s (fun t =>
      e ∈ (t.core c).tlb ∧ e ∈ (t.die (dieOf c)).stlb ∧ (∀ k, k ≠ c → t.core k = s.core k) ∧ SameWork s t ∧ t.slices = s.slices) := by
  obtain ⟨read, fill⟩ := State.fillTlb_of_translate (State.translate_of_checkPage page)
  have run : exec (.pageWalk c va acc) s = .next (s.fillTlb (s.core c).owner c va.toNat) := by
    show execPageWalk c va acc s = _
    unfold execPageWalk
    dsimp only
    rw [page]
  refine ⟨_, run.trans (congrArg _ fill), ?_, ?_, fun k other => ?_, ⟨rfl, rfl, rfl, rfl, rfl⟩, rfl⟩
  · rw [State.modDie_core, State.modCore_core_self]
    exact mem_tlbKeep ..
  · rw [State.modDie_die_self]
    exact mem_tlbKeep ..
  · rw [State.modDie_core, State.modCore_core, if_neg (Ne.symm other)]

/-- A second GO is taken away; recovery takes every one away. -/
theorem gives_tlbinvStart_busy {k : Nat} {h : Bool} (busy : ((s.slice k).tlbinv h).busy = true) :
    Gives (.tlbinvStart k h) s (fun t => t.slice k = s.slice k ∧ OnlySlice k s t) := by
  refine ⟨_, rfl, ?_⟩
  unfold State.bar0
  split
  · exact ⟨rfl, .refl k s⟩
  · exact ⟨State.slice_modTlbinv_same (if_pos busy), onlySlice_modTlbinv ..⟩

theorem gives_tlbinvStart_idle {k : Nat} {h : Bool} (hr : s.m.recovery = false) (idle : ((s.slice k).tlbinv h).busy = false) :
    Gives (.tlbinvStart k h) s (fun t => OnlySlice k s t ∧
      (t.slice k).tlbinv h = { (s.slice k).tlbinv h with
        busy := true, endAt := s.cycle + 20000, rAll := ((s.slice k).tlbinv h).all, rLo := ((s.slice k).tlbinv h).addr.toNat,
        rHi := ((s.slice k).tlbinv h).addr.toNat + ((s.slice k).tlbinv h).count * 65536 }) :=
  gives_bar0 hr rfl rfl ⟨onlySlice_modTlbinv ..,
    (State.tlbinv_modTlbinv ..).trans (if_neg (by rw [idle]; exact Bool.false_ne_true))⟩

/-- What stands after an invalidation that is in progress has run to its end: the caches without the range, the splits whose waits
it made stale, and BUSY as long as an access holds on to the range. -/
theorem invalidate_parts {k : Nat} {h : Bool} {v : Tlbinv} (eq : (s.slice k).tlbinv h = v) (busy : v.busy = true) :
    let t := s.invalidate k h
    let u := s.withoutRange k h v
    t.ungrouped = { u.ungrouped with slices := t.slices } ∧ t.groups = (u.awakeStale k h v).groups ∧
      ((t.slice k).tlbinv h).busy = s.usesRange k h v := by
  have aside := State.awakeStale_ungrouped (s.withoutRange k h v) k h v
  have slices : ((s.withoutRange k h v).awakeStale k h v).slices = s.slices := (congrArg State.slices aside :)
  rw [State.invalidate_busy eq busy]
  split
  · next used =>
    have same : (((s.withoutRange k h v).awakeStale k h v).slice k).tlbinv h = v := by rw [State.slice, slices]; exact eq
    exact ⟨aside.trans (by rw [slices]; rfl), rfl, by rw [same, used, busy]⟩
  · next unused =>
    exact ⟨congrArg (fun x : State => { x with
      slices := (((s.withoutRange k h v).awakeStale k h v).modTlbinv k h fun v => { v with busy := false }).slices }) aside, rfl,
      by rw [State.tlbinv_modTlbinv]; exact (Bool.eq_false_iff.mpr unused).symm⟩

theorem gives_tlbinvDone {k : Nat} {h : Bool} (busy : ((s.slice k).tlbinv h).busy = true) : Gives (.tlbinvDone k h) s (fun t =>
    (∀ c, ∀ e ∈ (t.core c).tlb, ((s.slice k).tlbinv h).hits k h e = false) ∧
    (∀ d, ∀ e ∈ (t.die d).stlb, ((s.slice k).tlbinv h).hits k h e = false) ∧
    (∀ d, ∀ e ∈ (t.die d).upper, ((s.slice k).tlbinv h).drops k h e = false) ∧
    ((t.slice k).tlbinv h).busy = s.usesRange k h ((s.slice k).tlbinv h) ∧
    t.mem = s.mem ∧ t.hostMem = s.hostMem ∧ t.spad = s.spad ∧ t.tile = s.tile ∧
    ((∀ g ∈ s.groups, ∀ p ∈ g.2.splits, p.wait = none) → t.groups = s.groups) ∧
    (∀ gid g p, s.groups = [(gid, g)] → g.splits = [p] →
      t.groups = [(gid, if ({ s with cores := t.cores, dies := t.dies } : State).staleWait k h ((s.slice k).tlbinv h) g p = true then
          { g with splits := [{ p with st := .run, why := .awake, wait := none, mark := none }] }
        else g)])) := by
  obtain ⟨aside, groups, ends⟩ := invalidate_parts rfl busy
  generalize (s.slice k).tlbinv h = v at aside groups ends busy ⊢
  have cores : (s.invalidate k h).cores = (s.withoutRange k h v).cores := (congrArg State.cores aside :)
  have dies : (s.invalidate k h).dies = (s.withoutRange k h v).dies := (congrArg State.dies aside :)
  refine ⟨_, rfl, fun c e he => ?_, fun d e he => ?_, fun d e he => ?_, ends, (congrArg State.mem aside :),
    (congrArg State.hostMem aside :), (congrArg State.spad aside :), (congrArg State.tile aside :),
    fun awake => ?_, fun gid g p one split => ?_⟩
  · rw [State.core, cores, ← State.core, State.core_withoutRange] at he
    simpa using (List.mem_filter.mp he).2
  · rw [State.die, dies, ← State.die, State.die_withoutRange] at he
    simpa using (List.mem_filter.mp he).2
  · rw [State.die, dies, ← State.die, State.die_withoutRange] at he
    simpa using (List.mem_filter.mp he).2
  · exact groups.trans (congrArg State.groups (State.awakeStale_awake (s := s.withoutRange k h v) awake) :)
  · rw [cores, dies]
    exact groups.trans (State.awakeStale_single (s := s.withoutRange k h v) one split)

/-! ## The reporting port -/

/-- A record of a ring that is full is dropped, and counted in LOST. -/
theorem gives_report_full {r : Nat × Nat × Nat × List Byte} (one : s.m.records = [r]) (kind : r.1 < 3) (some_ : 1 ≤ r.1)
    (fn : r.2.1 < 17) (en : (s.ringOf r.2.1 r.1).en = true) (full : (s.ringOf r.2.1 r.1).full = true) :
    Gives .reportGrant s (fun t => t.m.records = [] ∧
      t.ringOf r.2.1 r.1 = { s.ringOf r.2.1 r.1 with lost := (s.ringOf r.2.1 r.1).lost + 1, ovf := true } ∧ t.mem = s.mem) := by
  obtain ⟨m, empty, report⟩ := State.report_single one kind fn
  have put := State.putRecord_full (s := { s with m := m }) (die := r.2.2.1) (bytes := r.2.2.2) en full (by omega)
  refine ⟨_, congrArg Host.Outcome.next (report.trans put), ?_, State.ringOf_modRing (s := { s with m := m }) kind Ring.drop, ?_⟩
  · rw [State.modRing_slice kind]; exact empty
  · rw [State.modRing_slice kind]; rfl

/-- A record of the PF's ring is written at its TAIL. -/
theorem gives_report_pf {r : Nat × Nat × Nat × List Byte} {a : Nat} (one : s.m.records = [r]) (kind : r.1 < 3) (pf : r.2.1 = 0)
    (en : (s.ringOf 0 r.1).en = true) (room : (s.ringOf 0 r.1).full = false)
    (place : (s.ringOf 0 r.1).base.toNat + r.2.2.2.length * ((s.ringOf 0 r.1).tail.toNat % 2 ^ (s.ringOf 0 r.1).log2n) = a)
    (fits : a + r.2.2.2.length ≤ 0x7FFF800000) (owner : s.owner (a / 65536) = 16) :
    Gives .reportGrant s (fun t => t.m.records = [] ∧ (t.ringOf 0 r.1).tail = (s.ringOf 0 r.1).tail + 1 ∧
      (∀ b, t.memByte b = if a ≤ b ∧ b < a + r.2.2.2.length then r.2.2.2.getD (b - a) 0 else s.memByte b) ∧
      t.hostMem = s.hostMem ∧ t.groups = s.groups) := by
  obtain ⟨m, empty, report⟩ := State.report_single one kind (by omega)
  rw [pf] at report
  have put := State.putRecord_writes (s := { s with m := m }) (die := r.2.2.1) en room
    (State.writeRing_pf (s := { s with m := m }) place fits owner)
  obtain ⟨m', published⟩ := State.publishBytes_whole { s with m := m } a r.2.2.2
  refine ⟨_, congrArg Host.Outcome.next (report.trans put), ?_, ?_, fun b => ?_, ?_, ?_⟩
  · rw [State.modRing_slice kind]
    exact (State.records_publishBytes ..).trans empty
  · rw [State.ringOf_modRing kind, published]
    rfl
  · rw [State.modRing_slice kind, published]
    exact State.memByte_setMem s a b r.2.2.2
  · rw [State.modRing_slice kind, published]
    rfl
  · rw [State.modRing_slice kind, published]
    rfl

/-! ## Answers to faults -/

section
variable {fn tok gid : Nat} {g : Group} (hr : s.m.recovery = false)
  (held : ∃ p, (tok % 16777216, p) ∈ (s.slice (fnSlice fn)).tokens) (copies : s.tokenCopies fn (tok % 16777216) = [])
  (one : s.groups = [(gid, g)]) (waits : g.token = some (fn, tok % 16777216))
include hr held copies one waits

theorem gives_faultackRetry : Gives (.faultackRetry fn tok) s (fun t => t.group gid = { g with token := none, wants := true } ∧
    (∀ e ∈ (t.slice (fnSlice fn)).tokens, e.1 ≠ tok % 16777216) ∧ t.mem = s.mem) := by
  have found : Tbl.find (s.withoutToken fn (tok % 16777216)).groups gid = some g :=
    (congrArg (Tbl.find · gid) one).trans (if_pos rfl)
  exact gives_bar0 hr rfl ((State.faultRetry_groups held copies).trans (State.freeWaiters_retry one waits))
    ⟨State.group_modGroup _ found, State.tokens_withoutToken s fn _, rfl⟩

theorem gives_faultackFail : Gives (.faultackFail fn tok) s (fun t =>
    t.group gid = { g with token := none, wants := true, why := 4 } ∧
    (∀ e ∈ (t.slice (fnSlice fn)).tokens, e.1 ≠ tok % 16777216)) := by
  obtain ⟨groups, standing⟩ := State.freeWaiters_fail (s := s.withoutToken fn (tok % 16777216)) one waits 4
  have tokens := congrArg Slice.tokens (congrFun standing (fnSlice fn))
  refine gives_bar0 hr rfl (State.faultFail_groups held copies) ⟨State.group_of_find ?_, fun e he => ?_⟩
  · rw [groups]
    exact if_pos rfl
  · exact State.tokens_withoutToken s fn _ e (tokens ▸ he)

end

/-- Bits 4 to 0 of a word. -/
theorem toNat_log2n (v : Word) : (v.extractLsb' 0 5).toNat = v.toNat % 32 := by
  rw [BitVec.extractLsb'_toNat, Nat.shiftRight_zero]

/-- In recovery a command of BAR0 does nothing. -/
theorem idles_recovery {i : Instr} {u : State} (hr : s.m.recovery = true) (run : exec i s = .next (s.bar0 u)) : Idles i s :=
  run.trans (congrArg _ (if_pos hr))

/-- Settles O51: each event is the equation above for the state it reaches. -/
theorem translationAndRings : Obligations.TranslationAndRings := by
  refine ⟨fun c va acc f s fails => ?noWalk, fun c va acc e s page => gives_pageWalk page,
    fun k h s busy => gives_tlbinvStart_busy busy, fun k h s hr idle => gives_tlbinvStart_idle hr idle,
    fun k h s idle => congrArg _ (State.invalidate_idle idle), fun k h s busy => gives_tlbinvDone busy,
    fun fn r v s bad => ?badCtl, fun k h fn r b v tok s hr => ?recovery, fun fn r v s hr ring low high => ?ctl,
    fun fn r v s hr ring => ?head, fun fn r v s hr ring => ?baseLow, fun fn r v s hr ring => ?baseHigh,
    fun s none_ => congrArg _ (State.report_nothing none_),
    fun r s one kind some_ fn en full => gives_report_full one kind some_ fn en full,
    fun r s one kind some_ pf en room => fun fits owner => gives_report_pf one kind pf en room rfl fits owner,
    fun fn tok s stale => ⟨idles_bar0 rfl (State.faultRetry_stale stale), idles_bar0 rfl (State.faultFail_stale stale)⟩,
    fun fn tok gid g s hr held copies one waits =>
      ⟨gives_faultackRetry hr held copies one waits, gives_faultackFail hr held copies one waits⟩⟩
  case noWalk =>
    show execPageWalk c va acc s = _
    unfold execPageWalk
    dsimp only
    rw [fails]
  case badCtl =>
    rw [toNat_log2n] at bad
    exact idles_bar0 rfl (State.writeRctl_bad bad)
  case recovery =>
    exact ⟨idles_recovery hr rfl, idles_recovery hr rfl, idles_recovery hr rfl, idles_recovery hr rfl, idles_recovery hr rfl,
      idles_recovery hr rfl⟩
  case ctl =>
    rw [toNat_log2n] at low high ⊢
    exact gives_ring hr (by omega) rfl (State.writeRctl_good low high (by omega) (by omega)) rfl
  case head => exact gives_ring hr (by omega) rfl (State.retryHeld_other (by omega)) rfl
  case baseLow =>
    rw [← halfWrite_low _ 25]
    exact gives_ring hr (by omega) rfl (State.retryHeld_other (by omega)) rfl
  case baseHigh =>
    rw [← halfWrite_high _ 12]
    exact gives_ring hr (by omega) rfl (State.retryHeld_other (by omega)) rfl

end Sys2Proof.Safety
end

section
/-! SUPPORT. Fences and phase operations (R217, R220, R332 to R334): what an open does to an L1, how a form that waits falls asleep and
goes on, and the statement FencesAndPhases. -/

namespace Sys2Proof.Machine

/-! ## What an issue leaves of the L1s and the couches -/

/-- The cores whose clusters share an L1 and the bins of every couch stand as they were. -/
structure SameBins (s t : State) : Prop where
  fused : ∀ c, (t.core c).fused = (s.core c).fused
  couch : ∀ d, (t.die d).couch = (s.die d).couch

theorem SameBins.refl (s : State) : SameBins s s := ⟨fun _ => rfl, fun _ => rfl⟩

theorem SameBins.trans {s t u : State} (a : SameBins s t) (b : SameBins t u) : SameBins s u :=
  ⟨fun c => (b.fused c).trans (a.fused c), fun d => (b.couch d).trans (a.couch d)⟩

theorem sameBins_modCore (s : State) (c : Nat) (f : Core → Core) (keeps : ∀ x, (f x).fused = x.fused) : SameBins s (s.modCore c f) := by
  refine ⟨fun e => ?_, fun _ => rfl⟩
  rw [State.modCore_core]
  split
  next same => rw [keeps, same]
  · rfl

theorem sameBins_modDie (s : State) (d : Nat) (f : Die → Die) (keeps : ∀ x, (f x).couch = x.couch) : SameBins s (s.modDie d f) := by
  refine ⟨fun _ => rfl, fun e => ?_⟩
  rw [State.modDie_die]
  split
  next same => rw [keeps, same]
  · rfl

theorem sameBins_modSlice (s : State) (n : Nat) (f : Slice → Slice) : SameBins s (s.modSlice n f) := ⟨fun _ => rfl, fun _ => rfl⟩

theorem sameBins_modGroup (s : State) (n : Nat) (f : Group → Group) : SameBins s (s.modGroup n f) := ⟨fun _ => rfl, fun _ => rfl⟩

theorem sameBins_charge (s : State) (g : Group) (i : Instr) : SameBins s (s.charge g i) := by
  unfold State.charge
  dsimp only
  split
  · exact sameBins_modCore _ _ _ (fun _ => rfl)
  · refine SameBins.trans (sameBins_modCore _ _ _ ?_) (sameBins_modDie _ _ _ ?_)
    · exact fun _ => rfl
    · exact fun _ => rfl

theorem sameBins_trace (s : State) (g : Group) (a b c d e f : Nat) : SameBins s (s.trace g a b c d e f) := by
  unfold State.trace
  split
  · exact sameBins_modSlice ..
  · exact .refl s

theorem sameBins_sample (s : State) (g : Group) (p : Split) (i : Instr) : SameBins s (s.sample g p i) := by
  unfold State.sample
  dsimp only
  split
  · exact .refl s
  · split
    · refine SameBins.trans (sameBins_modCore _ _ _ ?_) (sameBins_trace ..)
      exact fun _ => rfl
    · exact sameBins_modCore _ _ _ (fun _ => rfl)

/-- What an issue does before the issuing group itself is changed. -/
theorem sameBins_issue (s : State) (g : Group) (p : Split) (i : Instr) :
    SameBins s (((s.charge g i).countWatch g).sample g p i) :=
  (sameBins_charge s g i).trans ((sameBins_modSlice _ _ _).trans (sameBins_sample _ _ _ _))

theorem sameBins_takeMark (s : State) (g : Group) : SameBins s (s.takeMark g).1 := by
  unfold State.takeMark State.drawMark
  exact sameBins_modDie s _ (fun x => { x with seq := _ }) (fun _ => rfl)

theorem sameBins_enter (c : Cx) (s : State) (kind : Nat) (mask : Word) (accs : List Acc) :
    SameBins s (c.enter s kind 1 mask accs) := (sameBins_takeMark s c.g).trans (sameBins_modGroup ..)

/-! ## The open of an L1 (R193, R217) -/

theorem openLines_dirty (ls : List Line) : ∀ l ∈ openLines ls, l.priv = true ∨ ∀ e ∈ l.bytes, e.2.dirty = true := by
  intro l hl
  obtain ⟨x, -, rfl⟩ := List.mem_map.mp (List.mem_filter.mp hl).1
  split
  next own => exact .inl own
  · exact .inr fun e he => (List.mem_filter.mp he).2

namespace State

variable {s : State} {gid born : Nat} {g : Group} {p : Split} {sc : Nat}

theorem openAt_narrow (narrow : sc < 5) : s.openAt gid sc = s := if_neg (Nat.not_le.mpr narrow)

/-- An open of an L1 of one core leaves its dirty bytes alone of the global lines. -/
theorem openAt_dirty (found : Tbl.find s.groups gid = some g) (wide : 5 ≤ sc) (unfused : (s.core g.core).fused = false) :
    ∀ l ∈ ((s.openAt gid sc).core g.core).lines, l.priv = true ∨ ∀ e ∈ l.bytes, e.2.dirty = true := by
  have opened : s.openAt gid sc = s.modCore g.core (fun c => { c with lines := openLines c.lines }) := by
    unfold openAt openL1 l1Cores
    rw [if_pos wide, group_of_find found, unfused]
    rfl
  rw [opened, modCore_core_self]
  exact openLines_dirty _

/-! ## The couch at a close (R120) -/

/-- A close forms no bin at a scope narrower than the die, nor where no bin is of its launch. -/
theorem closeForms_none (found : Tbl.find s.groups gid = some g)
    (none_ : sc < 6 ∨ ∀ b ∈ (s.die (dieOf g.core)).couch, b.2.slice ≠ g.slice ∨ b.2.launch ≠ g.launch) : s.closeForms gid sc = s := by
  unfold closeForms
  rw [group_of_find found]
  dsimp only
  split
  next wide =>
    have other := none_.resolve_left (Nat.not_lt.mpr wide)
    have empty : (s.die (dieOf g.core)).couch.filter (fun b => b.2.slice == g.slice && b.2.launch == g.launch) = [] := by
      refine List.filter_eq_nil_iff.mpr fun b hb own => ?_
      obtain ⟨slice, launch⟩ := Bool.and_eq_true_iff.mp own
      rcases other b hb with h | h
      · exact h (beq_iff_eq.mp slice)
      · exact h (beq_iff_eq.mp launch)
    rw [formBins, empty]
    rfl
  · rfl

/-! ## How a wait stands (R332 to R334) -/

theorem tryWait_acquire {f : MA} {n : Nat} (acquires : f.x = 0) (back : g.valuesBack n = true) :
    s.tryWait gid born g p { insn := .fence f, num := n } = .done ((s.openAt gid f.sc.toNat).waitOver gid born) := by
  simp [tryWait, acquires, fenceRel, fenceAcq, back]

/-- A release waits for the horizon at least. -/
theorem tryWait_release {f : MA} {n : Nat} (releases : f.x ≠ 0) (early : pastHorizon p (s.now g.core) = false) :
    s.tryWait gid born g p { insn := .fence f, num := n } = .pending s := by
  have x : f.x.toNat ≠ 0 := fun zero => releases (BitVec.eq_of_toNat_eq zero)
  simp [tryWait, fenceRel, x, early]

theorem tryWait_open {f : MA} {n : Nat} (back : g.valuesBack n = true) :
    s.tryWait gid born g p { insn := .phaseOpen f, num := n } = .done ((s.openAt gid f.sc.toNat).waitOver gid born) := by
  simp [tryWait, back]

/-- A cycle waits while its entry stands and has not failed. -/
theorem tryWait_cycle {f : MA} {n id : Nat} {e : Entry} (entry : g.entry? id = some e) (sound : e.failed = false) :
    s.tryWait gid born g p { insn := .phaseCycle f, num := n, ent := some id } = .pending s := by
  simp [tryWait, entry, sound]

end State

/-! ## A form that waits (R347) -/

/-- A split that falls asleep at its instruction. -/
def Split.dozes (pc : DWord) (w : Wait) (mark : Option Nat) (q : Split) : Split :=
  { q with st := .sleep, why := .cond, pc := pc, wait := some w, mark := mark }

/-- A split that goes on after its sleep. -/
def Split.wakes (q : Split) : Split := { q with st := .run, why := .awake, wait := none, mark := none, pc := q.pc + 4 }

/-- The state in which the split of a context has fallen asleep. -/
def Cx.sleeps (c : Cx) (t : State) (w : Wait) (mark : Option Nat) : State := t.modSplit c.gid c.born (Split.dozes c.sp.pc w mark)

/-- A form whose wait is met goes on, and one whose wait is not stays asleep. -/
theorem Cx.await_eq {c : Cx} {t u : State} {x : Group} {q : Split} {w v : Wait} {rel : Bool} {mark : Option Nat}
    (found : Tbl.find t.groups c.gid = some x) (split : x.split? c.born = some q) (num : { w with num := x.nextNum } = v)
    (marks : (if rel then some x.nextNum else none) = mark)
    (tried :
      let r := (c.sleeps t v mark).tryWait c.gid c.born (x.modSplit c.born (Split.dozes c.sp.pc v mark)) (q.dozes c.sp.pc v mark) v
      r = .pending u ∨ r = .done u) : c.await t w rel = .ok u := by
  have slept : (c.sleeps t v mark).group c.gid = _ := State.group_modGroup (·.modSplit c.born (Split.dozes c.sp.pc v mark)) found
  have own := (Group.split?_modSplit x c.born c.born (Split.dozes c.sp.pc v mark) (fun _ => rfl)).trans
    ((if_pos rfl).trans (congrArg _ split))
  subst num marks
  unfold sleeps Split.dozes at slept tried
  unfold Split.dozes at own
  unfold await
  dsimp only at slept tried own ⊢
  rw [State.group_of_find found, slept, own, Option.map_some]
  dsimp only
  rcases tried with tried | tried
  · rw [tried]
  · rw [tried]

end Sys2Proof.Machine

namespace Sys2Proof.Safety

open Machine

variable {i : Instr} {s t u : State} {gid : Nat} {g x : Group} {p q : Split} {w : Wait} {mark : Option Nat}

theorem drawn_modGroup_core (t : State) (gid n : Nat) (f : Group → Group) (c : Nat) :
    ({ t.modGroup gid f with free := n } : State).core c = t.core c := rfl

theorem after_core (i : Instr) (s : State) (gid : Nat) (g : Group) (p : Split) (c : Nat) :
    (afterIssue i s gid g p).core c = (beforeGroup i s g p).core c :=
  (congrArg (State.core · c) (after_eq i s gid g p)).trans (drawn_modGroup_core ..)

theorem sameBins_after (i : Instr) (s : State) (gid : Nat) (g : Group) (p : Split) : SameBins s (afterIssue i s gid g p) :=
  ⟨fun c => (congrArg Core.fused (after_core i s gid g p c)).trans ((sameBins_issue { s with cur := none } g p i).fused c),
    fun d => (congrArg Die.couch (after_die i s gid g p d)).trans ((sameBins_issue { s with cur := none } g p i).couch d)⟩

/-! ## Splits that fall asleep and go on -/

/-- The split of an instruction has issued, and the other splits are as they were. -/
structure SplitIssued (i : Instr) (s : State) (g : Group) (p : Split) (x : Group) : Prop where
  own : x.split? p.born = some (afterSplit i s g p)
  others : ∀ b, b ≠ p.born → x.split? b = g.split? b

theorem splitIssued (h : Issues i s gid g p) : SplitIssued i s g p (issuedGroup i s g p) := by
  refine ⟨issuedGroup_split h, fun b other => ?_⟩
  exact (Group.split?_modSplit g p.born b (fun q => issuedSplit q (s.now g.core) (view i).w (instrLen i)) (fun _ => rfl)).trans
    (if_neg (Ne.symm other))

theorem SplitIssued.of_splits {y : Group} (k : SplitIssued i s g p x) (same : y.splits = x.splits) : SplitIssued i s g p y :=
  ⟨(split_find same _).trans k.own, fun b other => (split_find same b).trans (k.others b other)⟩

theorem SplitIssued.sleepsAt (k : SplitIssued i s g p x) (w : Wait) (mark : Option Nat) :
    SleepsAt g p (x.modSplit p.born (Split.dozes p.pc w mark)) w mark := by
  have splits := Group.split?_modSplit x p.born (f := Split.dozes p.pc w mark) (h := fun _ => rfl)
  refine ⟨⟨(afterSplit i s g p).dozes p.pc w mark, ?_, rfl, rfl, rfl, rfl, rfl, rfl, rfl⟩, fun b other => ?_⟩
  · rw [splits, if_pos rfl, k.own, Option.map_some]
  · rw [splits, if_neg (Ne.symm other), k.others b other]

theorem waitOver_awake (sleeps : SleepsAt g p x w mark) : WaitOver p (x.modSplit p.born Split.wakes) := by
  obtain ⟨⟨q, own, -, -, pc, mask, stack, -, -⟩, -⟩ := sleeps
  refine ⟨q.wakes, ?_, rfl, congrArg (· + 4) pc, mask, stack, rfl, rfl⟩
  rw [Group.split?_modSplit x p.born p.born Split.wakes (fun _ => rfl), if_pos rfl, own, Option.map_some]

/-- A form that issues and stays asleep. -/
theorem Regroups.asleep (r : Regroups s t gid x) (k : SplitIssued i s g p x) (w : Wait) (mark : Option Nat) :
    let u := (ctx i s gid g p).sleeps t w mark
    Regroups s u gid (x.modSplit p.born (Split.dozes p.pc w mark)) ∧ SleepsAt g p (u.group gid) w mark := by
  have slept : Regroups s ((ctx i s gid g p).sleeps t w mark) gid _ := r.modGroup (·.modSplit p.born (Split.dozes p.pc w mark))
  refine ⟨slept, ?_⟩
  rw [slept.group]
  exact k.sleepsAt w mark

/-! ## fence (R332) -/

theorem execFence_eq (f : MA) (s : State) :
    exec (.fence f) s = issue (.fence f) s (fun c t => c.await t { insn := .fence f } (fenceRel f.x.toNat)) := rfl

/-- The horizon of an instruction is past its issue (R105). -/
theorem afterSplit_horizon (i : Instr) (s : State) (g : Group) (p : Split) (pc : DWord) (w : Wait) (mark : Option Nat) :
    pastHorizon ((afterSplit i s g p).dozes pc w mark) (s.now g.core) = false :=
  decide_eq_false (show ¬ s.now g.core + 1 + (view i).w + 63 ≤ s.now g.core by omega)

theorem gives_release {f : MA} (h : Issues (.fence f) s gid g p) (releases : f.x ≠ 0) : Gives (.fence f) s (fun t =>
    SleepsAt g p (t.group gid) { insn := .fence f, num := g.nextNum } (some g.nextNum) ∧
      (t.group gid).fmode = g.fmode ∧ RegsOnly [] s t gid g) := by
  have r := regroups_after h
  have k := splitIssued h
  have rel : fenceRel f.x.toNat = true := bne_iff_ne.mpr fun zero => releases (BitVec.eq_of_toNat_eq zero)
  obtain ⟨slept, sleeps⟩ := r.asleep k { insn := .fence f, num := g.nextNum } (some g.nextNum)
  have aside := (splitsAside_issued (.fence f) s g p).trans (splitsAside_splits _
    (modSplits (issuedGroup (.fence f) s g p).splits p.born (Split.dozes p.pc { insn := .fence f, num := g.nextNum } (some g.nextNum))))
  refine ⟨_, ok_of (execFence_eq f s) (Cx.await_eq r.found k.own rfl (if_pos rel) (.inl ?_)) h, sleeps,
    slept.fmode aside.toSameFiles, slept.regsOnly aside⟩
  refine State.tryWait_release releases ?_
  exact (congrArg (pastHorizon _) (after_now (.fence f) s gid g p g.core)).trans (afterSplit_horizon ..)

/-! ## phase.open and the acquire part of fence (R217, R334) -/

theorem execPhaseOpen_eq (f : MA) (s : State) :
    exec (.phaseOpen f) s = issue (.phaseOpen f) s (fun c t => c.await t { insn := .phaseOpen f } false) := rfl

/-- A form that opens the L1 of its group's core at a scope, and goes on. -/
structure Opens (s t : State) (gid : Nat) (g : Group) (p : Split) (sc : Nat) : Prop where
  goes : WaitOver p (t.group gid)
  group : t.group gid = { g with splits := (t.group gid).splits, lastCyc := s.now g.core, count_ := g.count_ + 1 }
  mem : ∀ a, t.memByte a = s.memByte a
  groups : ∀ h, h ≠ gid → Tbl.find t.groups h = Tbl.find s.groups h
  narrow : sc < 5 → SameMemory s t
  wide : 5 ≤ sc → (s.core g.core).fused = false → ∀ l ∈ (t.core g.core).lines, l.priv = true ∨ ∀ e ∈ l.bytes, e.2.dirty = true

theorem openAt_work (t : State) (gid sc : Nat) : SameWork t (t.openAt gid sc) := by
  unfold State.openAt
  split
  · exact (openL1_aside ..).1
  · exact ⟨rfl, rfl, rfl, rfl, rfl⟩

/-- The state in which a split that slept after its issue has opened the L1 and gone on. -/
theorem opens_waitOver (h : Issues i s gid g p) (w : Wait) (mark : Option Nat) (sc : Nat) :
    Opens s ((((ctx i s gid g p).sleeps (afterIssue i s gid g p) w mark).openAt gid sc).waitOver gid p.born) gid g p sc := by
  obtain ⟨slept, sleeps⟩ := (regroups_after h).asleep (splitIssued h) w mark
  generalize asleep : (ctx i s gid g p).sleeps (afterIssue i s gid g p) w mark = u at slept sleeps ⊢
  have work := openAt_work u gid sc
  have found : Tbl.find (u.openAt gid sc).groups gid = _ := (congrArg (Tbl.find · gid) work.groups).trans slept.found
  have awake : Regroups (u.openAt gid sc) ((u.openAt gid sc).waitOver gid p.born) gid _ :=
    (regroups_refl found).modGroup (·.modSplit p.born Split.wakes)
  constructor
  case goes =>
    rw [awake.group]
    exact waitOver_awake (slept.group ▸ sleeps)
  case group => rw [awake.group]; rfl
  case mem =>
    exact fun a => (awake.memory.mem a).trans ((congrArg (Memory.read memDefault · a) work.mem).trans (slept.memory.mem a))
  case groups =>
    exact fun k other => (awake.groups k other).trans ((congrArg (Tbl.find · k) work.groups).trans (slept.groups k other))
  case narrow =>
    intro narrow
    rw [State.openAt_narrow narrow] at awake ⊢
    exact slept.memory.trans awake.memory
  case wide =>
    intro wide unfused
    have issued : SameBins s u := asleep ▸ (sameBins_after i s gid g p).trans (sameBins_modGroup ..)
    have unfused : (u.core g.core).fused = false := (issued.fused g.core).trans unfused
    have dirty := State.openAt_dirty slept.found wide unfused
    rw [awake.memory.lines]
    exact dirty

theorem gives_acquire {f : MA} (h : Issues (.fence f) s gid g p) (acquires : f.x = 0) (back : g.valuesBack g.nextNum = true) :
    Gives (.fence f) s (fun t => Opens s t gid g p f.sc.toNat) := by
  have rel : fenceRel f.x.toNat = false := by rw [acquires]; rfl
  refine ⟨_, ok_of (execFence_eq f s) (Cx.await_eq (regroups_after h).found (splitIssued h).own rfl (if_neg (ne_true_of_eq_false rel))
    (.inr (State.tryWait_acquire acquires back))) h, opens_waitOver h ..⟩

theorem gives_open {f : MA} (h : Issues (.phaseOpen f) s gid g p) (back : g.valuesBack g.nextNum = true) :
    Gives (.phaseOpen f) s (fun t => Opens s t gid g p f.sc.toNat) :=
  ⟨_, ok_of (execPhaseOpen_eq f s) (Cx.await_eq (regroups_after h).found (splitIssued h).own rfl rfl
    (.inr (State.tryWait_open back))) h, opens_waitOver h ..⟩

/-! ## phase.close, phase.cycle and phase.test (R333, R334) -/

theorem execPhaseClose_eq (f : MA) (s : State) : exec (.phaseClose f) s =
    issue (.phaseClose f) s (fun c t => .ok ((c.enter t 7 1 c.mask []).closeForms c.gid f.sc.toNat)) := rfl

theorem execPhaseCycle_eq (f : MA) (s : State) : exec (.phaseCycle f) s = issue (.phaseCycle f) s (fun c t =>
    c.await ((c.enter t 7 1 c.mask []).closeForms c.gid f.sc.toNat) { insn := .phaseCycle f, ent := some (freePlace c.g.log) } false) := rfl

theorem execPhaseTest_eq (f : MA) (s : State) : exec (.phaseTest f) s = issue (.phaseTest f) s (fun c t =>
    .ok (c.giveP t c.vw.d (fun _ => c.g.log.all (fun e => covered c.g.core c.vw.sc e)))) := rfl

/-- The entry of a close or a cycle, and the state that records it. -/
def closeEntry (i : Instr) (s : State) (gid : Nat) (g : Group) (p : Split) : Entry :=
  entryOf (ctx i s gid g p) (afterIssue i s gid g p) 7 1 p.mask []

def closing (i : Instr) (s : State) (gid : Nat) (g : Group) (p : Split) : State :=
  (ctx i s gid g p).enter (afterIssue i s gid g p) 7 1 p.mask []

theorem logged_closing (h : Issues i s gid g p) : Logged i s (closing i s gid g p) gid g p (closeEntry i s gid g p) :=
  logged_enter h 7 1 p.mask []

theorem closing_closeForms (h : Issues i s gid g p) {sc : Nat}
    (none_ : sc < 6 ∨ ∀ b ∈ (s.die (dieOf g.core)).couch, b.2.slice ≠ g.slice ∨ b.2.launch ≠ g.launch) :
    (closing i s gid g p).closeForms gid sc = closing i s gid g p := by
  have logged := logged_closing h
  have bins : SameBins s (closing i s gid g p) := (sameBins_after i s gid g p).trans (sameBins_enter ..)
  refine State.closeForms_none (logged.found.trans (congrArg some logged.group)) (none_.imp_right fun other => ?_)
  have couch := bins.couch (dieOf g.core)
  exact couch ▸ other

theorem Logged.regroups {e : Entry} (l : Logged i s t gid g p e) :
    Regroups s t gid { issuedGroup i s g p with log := g.log ++ [e], nextNum := g.nextNum + 1 } :=
  ⟨l.memory, l.groups, l.found.trans (congrArg some l.group)⟩

/-- An entry whose place no other holds is the one found there. -/
theorem entry?_appended {e : Entry} (free : ∀ f ∈ g.log, f.id ≠ e.id) (logs : x.log = g.log ++ [e]) : x.entry? e.id = some e := by
  have none_ : g.log.find? (fun f => f.id == e.id) = none := List.find?_eq_none.mpr fun f hf same => free f hf (beq_iff_eq.mp same)
  rw [Group.entry?, logs, List.find?_append, none_, Option.none_or, List.find?_singleton, beq_self_eq_true, if_pos rfl]

theorem gives_cycle {f : MA} (h : Issues (.phaseCycle f) s gid g p)
    (none_ : f.sc.toNat < 6 ∨ ∀ b ∈ (s.die (dieOf g.core)).couch, b.2.slice ≠ g.slice ∨ b.2.launch ≠ g.launch)
    (free : ∀ e ∈ g.log, e.id ≠ freePlace g.log) : Gives (.phaseCycle f) s (fun t =>
      (∃ e, (t.group gid).log = g.log ++ [e] ∧ Fresh (.phaseCycle f) g p 7 1 [] e ∧ e.sc = f.sc.toNat) ∧
      SleepsAt g p (t.group gid) { insn := .phaseCycle f, num := g.nextNum + 1, ent := some (freePlace g.log) } none ∧
      restLog (t.group gid) = restLog g ∧ KeepsRegs [] g (t.group gid) ∧ SameMemory s t) := by
  have r := (logged_closing h).regroups
  have k : SplitIssued (.phaseCycle f) s g p _ := (splitIssued h).of_splits
    (y := { issuedGroup (.phaseCycle f) s g p with log := g.log ++ [closeEntry (.phaseCycle f) s gid g p], nextNum := g.nextNum + 1 }) rfl
  obtain ⟨slept, sleeps⟩ :=
    r.asleep k { insn := .phaseCycle f, num := g.nextNum + 1, ent := some (freePlace g.log) } none
  have waits : (ctx (.phaseCycle f) s gid g p).await ((closing (.phaseCycle f) s gid g p).closeForms gid f.sc.toNat)
      { insn := .phaseCycle f, ent := some (freePlace g.log) } false = .ok ((ctx (.phaseCycle f) s gid g p).sleeps
        (closing (.phaseCycle f) s gid g p) { insn := .phaseCycle f, num := g.nextNum + 1, ent := some (freePlace g.log) } none) := by
    rw [closing_closeForms h none_]
    exact Cx.await_eq r.found k.own rfl rfl
      (.inl (State.tryWait_cycle (entry?_appended (e := closeEntry (.phaseCycle f) s gid g p) free rfl) rfl))
  refine ⟨_, ok_of (execPhaseCycle_eq f s) waits h, ?_, sleeps, ?_, ?_, slept.memory⟩
  all_goals rw [slept.group]
  · exact ⟨closeEntry (.phaseCycle f) s gid g p, rfl, fresh_entryOf .., rfl⟩
  · rfl
  · exact SameFiles.regs ⟨rfl, rfl, rfl, rfl⟩

/-- A predicate result of class V without flags. -/
theorem givesPredV_plain {n : Cx → Nat} {val : Cx → Nat → Bool} (run : ∀ s gid g p, Issues i s gid g p → exec i s =
      .next ((ctx i s gid g p).giveP (afterIssue i s gid g p) (n (ctx i s gid g p)) (val (ctx i s gid g p)))) : GivesPred i n val := by
  intro s gid g p h
  have wrote := (wrote_after h).toPred (ctx i s gid g p) rfl false (n (ctx i s gid g p)) (val (ctx i s gid g p))
  exact ⟨_, run s gid g p h, toPred_holds h _ rfl rfl _ false _,
    withoutFlags h wrote ((toPred_fmode rfl (wrote_after h).found ..).trans (fmode_after h))⟩

/-- Settles O24: a release sleeps, for its horizon is not past; an acquire and an open find their values back and open the L1; a close
records its entry and forms no bin, and a cycle sleeps while that entry stands. -/
theorem fencesAndPhases : Obligations.FencesAndPhases := by
  refine ⟨fun f s gid g p h => ⟨fun acquires back => ?_, gives_release h⟩, fun f s gid g p h back => ?_,
    fun f s gid g p h none_ => ?_, fun f s gid g p h none_ free => gives_cycle h none_ free, fun f => ?_⟩
  · obtain ⟨t, run, opens⟩ := gives_acquire h acquires back
    exact ⟨t, run, opens.goes, opens.group, opens.mem, opens.groups⟩
  · obtain ⟨t, run, opens⟩ := gives_open h back
    exact ⟨t, run, opens.goes, opens.group, opens.mem, opens.groups, opens.narrow, opens.wide⟩
  · exact ⟨_, ok_of (execPhaseClose_eq f s) (congrArg Res.ok (closing_closeForms h none_)) h, _,
      (logged_closing h).records h, fresh_entryOf .., rfl⟩
  · exact givesPredV_plain fun s gid g p h => ok_of (execPhaseTest_eq f s) rfl h

end Sys2Proof.Safety
end

section
/-! SUPPORT. The statements EncodedInstructionsDecode and DecodedWordsEncodeBack: the tables of the decoder and the opcode map agree
row by row, and the fields of a word are its digits. -/

namespace Sys2Proof

open Machine Decode Encode

/-! ## The view of a row of each table -/

/-- The fields of a view are those of an instruction of layouts RG, MR and CS. -/
structure RgView (lay : Lay) (op : Nat) (f : RG) (v : View) : Prop where
  lay : v.lay = lay
  op : v.op = op
  b : v.b = f.b.toNat
  a : v.a = f.a.toNat
  d : v.d = f.d.toNat
  x : v.x = f.x.toNat
  w : v.w = f.w.toNat
  stop : v.stop = f.s

/-- The fields of a view are those of an instruction of layout MO. -/
structure MoView (op : Nat) (f : MO) (v : View) : Prop where
  lay : v.lay = .mo
  op : v.op = op
  off : v.imm = f.off.toNat
  a : v.a = f.a.toNat
  d : v.d = f.d.toNat
  w : v.w = f.w.toNat
  stop : v.stop = f.s

/-- The fields of a view are those of an instruction of layout MA. -/
structure MaView (op : Nat) (f : MA) (v : View) : Prop where
  lay : v.lay = .ma
  op : v.op = op
  o : v.o = f.o.toNat
  a : v.a = f.a.toNat
  d : v.d = f.d.toNat
  sc : v.sc = f.sc.toNat
  x : v.x = f.x.toNat
  w : v.w = f.w.toNat
  stop : v.stop = f.s

/-- The fields of a view are those of an instruction of layout CB. -/
structure CbView (op : Nat) (f : CB) (v : View) : Prop where
  lay : v.lay = .cb
  op : v.op = op
  off : v.imm = f.off.toNat
  n : v.n = f.n
  p : v.p = f.p.toNat
  w : v.w = f.w.toNat
  stop : v.stop = f.s

/-- The fields of a view are those of an instruction of layout RI. -/
structure RiView (op : Nat) (f : RI) (v : View) : Prop where
  lay : v.lay = .ri
  op : v.op = op
  i : v.imm = f.i.toNat
  d : v.d = f.d.toNat
  w : v.w = f.w.toNat

/-- The fields of a view are those of a 16-bit instruction. -/
structure H16View (op : Nat) (f : H16) (v : View) : Prop where
  lay : v.lay = .h16
  op : v.op = op
  b : v.b = f.b.toNat
  d : v.d = f.d.toNat
  w : v.w = if f.w then 4 else 0

/-- An instruction is well formed when its fixed fields hold their values. -/
def WfByFields (i : Instr) : Prop := i.wf = (fixedDetail (view i) == 0)

theorem rgRow_view {op x : Nat} {c : RG → Instr} (row : rgRow op x = some c) (f : RG) :
    RgView .rg op f (view (c f)) ∧ WfByFields (c f) ∧ op < 32 := by
  unfold rgRow at row
  split at row <;> cases row <;> exact ⟨⟨rfl, rfl, rfl, rfl, rfl, rfl, rfl, rfl⟩, rfl, by decide⟩

theorem mrRow_view {op x : Nat} {c : RG → Instr} (row : mrRow op x = some c) (f : RG) :
    RgView .mr op f (view (c f)) ∧ WfByFields (c f) ∧ 16 ≤ op ∧ op < 32 ∧ maRow op x = none := by
  unfold mrRow at row
  split at row <;> cases row <;> exact ⟨⟨rfl, rfl, rfl, rfl, rfl, rfl, rfl, rfl⟩, rfl, by decide, by decide, rfl⟩

theorem csRow_view {op x : Nat} {c : RG → Instr} (row : csRow op x = some c) (f : RG) :
    RgView .cs op f (view (c f)) ∧ WfByFields (c f) ∧ 5 ≤ op ∧ op < 32 := by
  unfold csRow at row
  split at row <;> cases row <;> exact ⟨⟨rfl, rfl, rfl, rfl, rfl, rfl, rfl, rfl⟩, rfl, by decide, by decide⟩

theorem maRow_view {op x : Nat} {c : MA → Instr} (row : maRow op x = some c) (f : MA) :
    MaView op f (view (c f)) ∧ WfByFields (c f) ∧ 16 ≤ op ∧ op < 32 := by
  unfold maRow at row
  split at row <;> cases row <;> exact ⟨⟨rfl, rfl, rfl, rfl, rfl, rfl, rfl, rfl, rfl⟩, rfl, by decide, by decide⟩

theorem moRow_view {op : Nat} {c : MO → Instr} (row : moRow op = some c) (f : MO) :
    MoView op f (view (c f)) ∧ WfByFields (c f) ∧ op < 16 := by
  unfold moRow at row
  split at row <;> cases row <;> exact ⟨⟨rfl, rfl, rfl, rfl, rfl, rfl, rfl⟩, rfl, by decide⟩

theorem cbRow_view {op : Nat} {c : CB → Instr} (row : cbRow op = some c) (f : CB) :
    CbView op f (view (c f)) ∧ WfByFields (c f) ∧ op < 5 := by
  unfold cbRow at row
  split at row <;> cases row <;> exact ⟨⟨rfl, rfl, rfl, rfl, rfl, rfl, rfl⟩, rfl, by decide⟩

theorem riRow_view {op : Nat} (h : op < 16) (f : RI) : RiView op f (view (riRow op f)) ∧ WfByFields (riRow op f) := by
  interval_cases op <;> exact ⟨⟨rfl, rfl, rfl, rfl, rfl⟩, rfl⟩

theorem h16Row_view {op : Nat} (h : op < 16) (f : H16) : H16View op f (view (h16Row op f)) := by
  interval_cases op <;> exact ⟨rfl, rfl, rfl, rfl, rfl⟩

/-! ## Every instruction stands in its table -/

/-- The tables of the decoder hold an instruction under its own opcode and X; an operation or event of the part has no word. -/
inductive Listed (i : Instr) : Prop
  | event (lay : (view i).lay = .event)
  | nopH (h : i = .nopH)
  | h16 (f : H16) (lt : (view i).op < 16) (wf : i.wf = true) (h : i = h16Row (view i).op f)
  | ri (f : RI) (lt : (view i).op < 16) (h : i = riRow (view i).op f)
  | rg (f : RG) (c : RG → Instr) (row : rgRow (view i).op f.x.toNat = some c) (h : i = c f)
  | mr (f : RG) (c : RG → Instr) (row : mrRow (view i).op f.x.toNat = some c) (h : i = c f)
  | cs (f : RG) (c : RG → Instr) (row : csRow (view i).op f.x.toNat = some c) (h : i = c f)
  | ma (f : MA) (c : MA → Instr) (row : maRow (view i).op f.x.toNat = some c) (h : i = c f)
  | mo (f : MO) (c : MO → Instr) (row : moRow (view i).op = some c) (h : i = c f)
  | cb (f : CB) (c : CB → Instr) (row : cbRow (view i).op = some c) (h : i = c f)

theorem lowDetail_eq_zero {a b : Nat} : lowDetail a b = 0 ↔ a = 0 ∧ b = 0 := by
  unfold lowDetail
  split <;> (try split) <;> omega

theorem xok_of_fixedDetail {v : View} (h : fixedDetail v = 0) : v.xok = true := by
  unfold fixedDetail lowOf at h
  have first := (lowDetail_eq_zero.mp h).1
  unfold need at first
  split at first
  · assumption
  · cases first

section
variable {i : Instr} (wf : i.wf = true) (fields : WfByFields i)
include wf fields

theorem fixedDetail_of_wf : fixedDetail (view i) = 0 := eq_of_beq (fields.symm.trans wf)

/-- X has the value that the form's list asks for. -/
theorem x_of_wf {x k : BitVec 2} (xok : (view i).xok = (x == k)) : x = k :=
  eq_of_beq (xok.symm.trans (xok_of_fixedDetail (fixedDetail_of_wf wf fields)))

theorem Listed.rgAt (f : RG) (k : BitVec 2) {c : RG → Instr} (xok : (view i).xok = (f.x == k))
    (row : rgRow (view i).op k.toNat = some c) (h : i = c f) : Listed i :=
  .rg f c (x_of_wf wf fields xok ▸ row) h

theorem Listed.mrAt (f : RG) (k : BitVec 2) {c : RG → Instr} (xok : (view i).xok = (f.x == k))
    (row : mrRow (view i).op k.toNat = some c) (h : i = c f) : Listed i :=
  .mr f c (x_of_wf wf fields xok ▸ row) h

theorem Listed.csAt (f : RG) (k : BitVec 2) {c : RG → Instr} (xok : (view i).xok = (f.x == k))
    (row : csRow (view i).op k.toNat = some c) (h : i = c f) : Listed i :=
  .cs f c (x_of_wf wf fields xok ▸ row) h

theorem Listed.maAt (f : MA) (k : BitVec 2) {c : MA → Instr} (xok : (view i).xok = (f.x == k))
    (row : maRow (view i).op k.toNat = some c) (h : i = c f) : Listed i :=
  .ma f c (x_of_wf wf fields xok ▸ row) h

/-- A form that takes two values of X, by X's upper bit. -/
theorem Listed.rgHalf (f : RG) (k : Nat) {c : RG → Instr} (xok : (view i).xok = (f.x.toNat / 2 == k))
    (row : ∀ x, x / 2 = k → rgRow (view i).op x = some c) (h : i = c f) : Listed i :=
  .rg f c (row _ (eq_of_beq (xok.symm.trans (xok_of_fixedDetail (fixedDetail_of_wf wf fields))))) h

end

theorem listed (i : Instr) (wf : i.wf = true) : Listed i := by
  cases i with
  | nopH => exact .nopH rfl
  | mov16 f | addI3216 f | subI3216 f | addF3216 f | subF3216 f | mulF3216 f | maxF3216 f | minF3216 f | and16 f | or16 f
  | xor16 f | shl16 f | shr16 f | mulI3216 f | maxI3216 f | addF16x216 f =>
    exact .h16 f (of_decide_eq_true rfl) wf rfl
  | movi f | movhi f | addiI32 f | muliI32 f | andi f | ori f | xori f | shli f | addiF32 f | muliF32 f | moviF16x2 f
  | addiF16x2 f | muliF16x2 f | addiBf16x2 f | muliBf16x2 f | moviF8x4 f =>
    exact .ri f (of_decide_eq_true rfl) rfl
  | add f | sub f | mul f | fma f | minL f | maxL f | cvt f | pk f | upk f | cmpI32 f | cmpN32 f | cmpF32 f | cmpxF32 f
  | sel f | dp4 f | dp2 f | shfl f | gred f | scmp f =>
    exact .rg f _ rfl rfl
  | andL f | shl f | rcp f | log2 f | popc f | voteAll f | xmovVs f | sadd f | sor f | add64 f =>
    exact .rgAt wf rfl f 0 rfl rfl rfl
  | orL f | shr f | rsq f | sin f | clz f | voteAny f | xmovSv f | ssub f | sxor f | sub64 f =>
    exact .rgAt wf rfl f 1 rfl rfl rfl
  | xorL f | sar f | sqrt f | cos f | brev f | bfi f | voteBallot f | xmovVp f | smul f | sshl f | sadd64 f =>
    exact .rgAt wf rfl f 2 rfl rfl rfl
  | andn f | rol f | exp2 f | tanh f | ffs f | perm f | voteEq f | xmovPv f | sand f | sshr f | mad64 f =>
    exact .rgAt wf rfl f 3 rfl rfl rfl
  | mulhHi f | bfe f =>
    refine .rgHalf wf rfl f 0 rfl (fun x hx => ?_) rfl
    obtain rfl | rfl : x = 0 ∨ x = 1 := by omega
    · rfl
    · rfl
  | mulhWide f =>
    refine .rgHalf wf rfl f 1 rfl (fun x hx => ?_) rfl
    obtain rfl | rfl : x = 2 ∨ x = 3 := by omega
    · rfl
    · rfl
  | ldB f | ldBn f | ldH f | ldHn f | ldW f | ldD f | ldQ f | stB f | stH f | stW f | stD f | stQ f | ldsW f | ldsD f
  | stsW f | pf f =>
    exact .mo f _ rfl rfl
  | atomA f | atomB f | atomC f | red f | fence f =>
    exact .ma f _ rfl rfl
  | phaseClose f | barArrive f | stMc f | cntAdd f =>
    exact .maAt wf rfl f 0 rfl rfl rfl
  | phaseOpen f | barWait f | ldRedAddF32 f | cntRd f =>
    exact .maAt wf rfl f 1 rfl rfl rfl
  | phaseCycle f | barArriveWait f | ldRedAddBf16 f | cntWait f =>
    exact .maAt wf rfl f 2 rfl rfl rfl
  | phaseTest f | barCount f | ldRedMaxF32 f | cntTest f =>
    exact .maAt wf rfl f 3 rfl rfl rfl
  | arrArrive f | cpIssue f | tileTld f | mmaIssueCore f | collIssue f | contEmit f =>
    exact .mrAt wf rfl f 0 rfl rfl rfl
  | arrExpect f | cpIssue2d f | tileTst f | mmaIssueCl f | collWait f | contFlush f =>
    exact .mrAt wf rfl f 1 rfl rfl rfl
  | arrTest f | cpRekey f | tileTzero f | mmaWait f | collTest f =>
    exact .mrAt wf rfl f 2 rfl rfl rfl
  | arrWait f | cpCancel f | tileTcvt f | mmaFence f | collSignal f =>
    exact .mrAt wf rfl f 3 rfl rfl rfl
  | bra f | brP f | brAny f | brAll f | call f =>
    exact .cb f _ rfl rfl
  | ret f | jmpR f | rcv f | exitLanes f | swTrap f | sleepUntil f | srRd f | srWr f | ctrRd f | brk f | boostClaim f
  | rfe f | nop f | maskRd f | pand f | chartSel f =>
    exact .csAt wf rfl f 0 rfl rfl rfl
  | yieldSplit f | sleepNs f | ctrStart f | boostRelease f | nopWaitsb f | maskWr f | por f | chartRd f =>
    exact .csAt wf rfl f 1 rfl rfl rfl
  | resync f | sleepYield f | ctrStop f | boostQuery f | pxor f =>
    exact .csAt wf rfl f 2 rfl rfl rfl
  | ctrMark f | pnot f =>
    exact .csAt wf rfl f 3 rfl rfl rfl
  | _ => exact .event rfl

/-! ## The fields of a word are its digits -/

theorem bit_eq_digit {b : Bool} {n : Nat} (h : n % 2 = bit b) : (n % 2 == 1) = b := by
  rw [h]; cases b <;> rfl

theorem bit_lt (b : Bool) : bit b < 2 := by cases b <;> decide

theorem ofNat_digit {n k v : Nat} {x : BitVec n} (hv : x.toNat = v) (h : k % 2 ^ n = v) : BitVec.ofNat n k = x :=
  BitVec.eq_of_toNat_eq (by rw [BitVec.toNat_ofNat, h, hv])

theorem bit_digit (n : Nat) : bit (n % 2 == 1) = n % 2 := by
  rcases Nat.mod_two_eq_zero_or_one n with h | h <;> rw [h] <;> rfl

/-- The word of a form of layout RG, MR or CS. -/
def rgCode (cls op : Nat) (f : RG) : Nat :=
  1 + 2 * cls + 8 * bit f.s + 16 * f.w.toNat + 128 * op + 4096 * f.x.toNat + 16384 * f.d.toNat + 1048576 * f.a.toNat +
    67108864 * f.b.toNat

def riCode (op : Nat) (f : RI) : Nat := 3 + 8 * f.w.toNat + 64 * op + 1024 * f.d.toNat + 65536 * f.i.toNat

def moCode (op : Nat) (f : MO) : Nat :=
  5 + 8 * bit f.s + 16 * f.w.toNat + 128 * op + 4096 * f.d.toNat + 262144 * f.a.toNat + 16777216 * f.off.toNat

def maCode (op : Nat) (f : MA) : Nat :=
  5 + 8 * bit f.s + 16 * f.w.toNat + 128 * op + 4096 * f.x.toNat + 16384 * f.sc.toNat + 262144 * f.d.toNat +
    16777216 * f.a.toNat + 1073741824 * f.o.toNat

def cbCode (op : Nat) (f : CB) : Nat :=
  7 + 8 * bit f.s + 16 * f.w.toNat + 128 * op + 4096 * f.p.toNat + 32768 * bit f.n + 65536 * f.off.toNat

def h16Code (op : Nat) (f : H16) : Nat := 2 * bit f.w + 4 * op + 64 * f.d.toNat + 2048 * f.b.toNat

section
variable {lay : Lay} {cls op : Nat} {v : View}

theorem rgWord_eq {f : RG} (r : RgView lay op f v) : rgWord cls v = rgCode cls op f := by
  unfold rgWord rgCode
  rw [r.stop, r.w, r.op, r.x, r.d, r.a, r.b]

theorem ofView_rg {f : RG} (r : RgView .rg op f v) : ofView v = some (32, rgCode 0 op f) := by
  unfold ofView
  rw [r.lay, ← rgWord_eq r]

theorem ofView_mr {f : RG} (r : RgView .mr op f v) : ofView v = some (32, rgCode 2 op f) := by
  unfold ofView
  rw [r.lay, ← rgWord_eq r]

theorem ofView_cs {f : RG} (r : RgView .cs op f v) : ofView v = some (32, rgCode 3 op f) := by
  unfold ofView
  rw [r.lay, ← rgWord_eq r]

theorem ofView_ri {f : RI} (r : RiView op f v) : ofView v = some (32, riCode op f) := by
  unfold ofView riCode
  rw [r.lay, r.w, r.op, r.d, r.i]

theorem ofView_mo {f : MO} (r : MoView op f v) : ofView v = some (32, moCode op f) := by
  unfold ofView moCode
  rw [r.lay, r.stop, r.w, r.op, r.d, r.a, r.off]

theorem ofView_ma {f : MA} (r : MaView op f v) : ofView v = some (32, maCode op f) := by
  unfold ofView maCode
  rw [r.lay, r.stop, r.w, r.op, r.x, r.sc, r.d, r.a, r.o]

theorem ofView_cb {f : CB} (r : CbView op f v) : ofView v = some (32, cbCode op f) := by
  unfold ofView cbCode
  rw [r.lay, r.stop, r.w, r.op, r.p, r.n, r.off]

theorem ofView_h16 {f : H16} (r : H16View op f v) : ofView v = some (16, h16Code op f) := by
  unfold ofView h16Code
  rw [r.lay, r.w, r.op, r.d, r.b]
  cases f.w <;> rfl

end

/-- A 32-bit word of a class and an opcode. -/
structure Digits (w cls op : Nat) : Prop where
  lt : w < 2 ^ 32
  odd : w % 2 = 1
  cls : w / 2 % 4 = cls
  op : w / 128 % 32 = op

section
variable {cls op : Nat}

theorem rgCode_digits (f : RG) (hc : cls < 4) (ho : op < 32) :
    Digits (rgCode cls op f) cls op ∧ rgCode cls op f / 4096 % 4 = f.x.toNat ∧ rgOf (rgCode cls op f) = f := by
  have hb := f.b.isLt
  have ha := f.a.isLt
  have hd := f.d.isLt
  have hx := f.x.isLt
  have hw := f.w.isLt
  have hs := bit_lt f.s
  unfold rgCode
  refine ⟨⟨by omega, by omega, by omega, by omega⟩, by omega, ?_⟩
  unfold rgOf
  rw [ofNat_digit (x := f.b) rfl (by omega), ofNat_digit (x := f.a) rfl (by omega), ofNat_digit (x := f.d) rfl (by omega),
    ofNat_digit (x := f.x) rfl (by omega), ofNat_digit (x := f.w) rfl (by omega), bit_eq_digit (b := f.s) (by omega)]

theorem moCode_digits (f : MO) (ho : op < 32) : Digits (moCode op f) 2 op ∧ moOf (moCode op f) = f := by
  have ho' := f.off.isLt
  have ha := f.a.isLt
  have hd := f.d.isLt
  have hw := f.w.isLt
  have hs := bit_lt f.s
  unfold moCode
  refine ⟨⟨by omega, by omega, by omega, by omega⟩, ?_⟩
  unfold moOf
  rw [ofNat_digit (x := f.off) rfl (by omega), ofNat_digit (x := f.a) rfl (by omega), ofNat_digit (x := f.d) rfl (by omega),
    ofNat_digit (x := f.w) rfl (by omega), bit_eq_digit (b := f.s) (by omega)]

theorem maCode_digits (f : MA) (ho : op < 32) :
    Digits (maCode op f) 2 op ∧ maCode op f / 4096 % 4 = f.x.toNat ∧ maOf (maCode op f) = f := by
  have ho' := f.o.isLt
  have ha := f.a.isLt
  have hd := f.d.isLt
  have hc := f.sc.isLt
  have hx := f.x.isLt
  have hw := f.w.isLt
  have hs := bit_lt f.s
  unfold maCode
  refine ⟨⟨by omega, by omega, by omega, by omega⟩, by omega, ?_⟩
  unfold maOf
  rw [ofNat_digit (x := f.o) rfl (by omega), ofNat_digit (x := f.a) rfl (by omega), ofNat_digit (x := f.d) rfl (by omega),
    ofNat_digit (x := f.sc) rfl (by omega), ofNat_digit (x := f.x) rfl (by omega), ofNat_digit (x := f.w) rfl (by omega),
    bit_eq_digit (b := f.s) (by omega)]

theorem cbCode_digits (f : CB) (ho : op < 32) : Digits (cbCode op f) 3 op ∧ cbOf (cbCode op f) = f := by
  have ho' := f.off.isLt
  have hp := f.p.isLt
  have hw := f.w.isLt
  have hn := bit_lt f.n
  have hs := bit_lt f.s
  unfold cbCode
  refine ⟨⟨by omega, by omega, by omega, by omega⟩, ?_⟩
  unfold cbOf
  rw [ofNat_digit (x := f.off) rfl (by omega), bit_eq_digit (b := f.n) (by omega), ofNat_digit (x := f.p) rfl (by omega),
    ofNat_digit (x := f.w) rfl (by omega), bit_eq_digit (b := f.s) (by omega)]

theorem riCode_digits (f : RI) (ho : op < 16) : riCode op f < 2 ^ 32 ∧ riCode op f % 2 = 1 ∧ riCode op f / 2 % 4 = 1 ∧
    riCode op f / 64 % 16 = op ∧ riOf (riCode op f) = f := by
  have hi := f.i.isLt
  have hd := f.d.isLt
  have hw := f.w.isLt
  unfold riCode
  refine ⟨by omega, by omega, by omega, by omega, ?_⟩
  unfold riOf
  rw [ofNat_digit (x := f.i) rfl (by omega), ofNat_digit (x := f.d) rfl (by omega), ofNat_digit (x := f.w) rfl (by omega)]

theorem h16Code_digits (f : H16) (ho : op < 16) : h16Code op f < 2 ^ 16 ∧ h16Code op f % 2 = 0 ∧ h16Code op f / 4 % 16 = op ∧
    h16Of (h16Code op f) = f := by
  have hb := f.b.isLt
  have hd := f.d.isLt
  have hw := bit_lt f.w
  unfold h16Code
  refine ⟨by omega, by omega, by omega, ?_⟩
  unfold h16Of
  rw [ofNat_digit (x := f.b) rfl (by omega), ofNat_digit (x := f.d) rfl (by omega), bit_eq_digit (b := f.w) (by omega)]

end

/-! ### The word of the fields of a word -/

section
variable {w : Nat} (lt : w < 2 ^ 32) (odd : w % 2 = 1)
include lt odd

theorem rgCode_rgOf : rgCode (w / 2 % 4) (w / 128 % 32) (rgOf w) = w := by
  unfold rgCode rgOf
  simp only [bit_digit, BitVec.toNat_ofNat]
  omega

theorem riCode_riOf (cls : w / 2 % 4 = 1) : riCode (w / 64 % 16) (riOf w) = w := by
  unfold riCode riOf
  simp only [BitVec.toNat_ofNat]
  omega

theorem moCode_moOf (cls : w / 2 % 4 = 2) : moCode (w / 128 % 32) (moOf w) = w := by
  unfold moCode moOf
  simp only [bit_digit, BitVec.toNat_ofNat]
  omega

theorem maCode_maOf (cls : w / 2 % 4 = 2) : maCode (w / 128 % 32) (maOf w) = w := by
  unfold maCode maOf
  simp only [bit_digit, BitVec.toNat_ofNat]
  omega

theorem cbCode_cbOf (cls : w / 2 % 4 = 3) : cbCode (w / 128 % 32) (cbOf w) = w := by
  unfold cbCode cbOf
  simp only [bit_digit, BitVec.toNat_ofNat]
  omega

end

theorem h16Code_h16Of {w : Nat} (lt : w < 2 ^ 16) (even : w % 2 = 0) : h16Code (w / 4 % 16) (h16Of w) = w := by
  unfold h16Code h16Of
  simp only [bit_digit, BitVec.toNat_ofNat]
  omega

/-! ## The row that a word names -/

section
variable {w op : Nat}

theorem row32_class0 (h : Digits w 0 op) : row32 w = (rgRow op (w / 4096 % 4)).map (· (rgOf w)) := by
  simp only [row32, h.cls, h.op]

theorem row32_class1 (cls : w / 2 % 4 = 1) : row32 w = some (riRow (w / 64 % 16) (riOf w)) := by
  simp only [row32, cls]

theorem row32_class2_low (h : Digits w 2 op) (low : op < 16) : row32 w = (moRow op).map (· (moOf w)) := by
  simp only [row32, h.cls, h.op, if_pos low]

theorem row32_class2_ma (h : Digits w 2 op) (high : 16 ≤ op) {c : MA → Instr} (row : maRow op (w / 4096 % 4) = some c) :
    row32 w = some (c (maOf w)) := by
  simp only [row32, h.cls, h.op, row, if_neg (not_lt.mpr high)]

theorem row32_class2_mr (h : Digits w 2 op) (high : 16 ≤ op) (row : maRow op (w / 4096 % 4) = none) :
    row32 w = (mrRow op (w / 4096 % 4)).map (· (rgOf w)) := by
  simp only [row32, h.cls, h.op, row, if_neg (not_lt.mpr high)]

theorem row32_class3_low (h : Digits w 3 op) (low : op < 5) : row32 w = (cbRow op).map (· (cbOf w)) := by
  simp only [row32, h.cls, h.op, if_pos low]

theorem row32_class3_high (h : Digits w 3 op) (high : 5 ≤ op) : row32 w = (csRow op (w / 4096 % 4)).map (· (rgOf w)) := by
  simp only [row32, h.cls, h.op, if_neg (not_lt.mpr high)]

end

/-- A 16-bit word and its instruction. -/
structure Short (i : Instr) (w : Nat) : Prop where
  enc : encode i = some (16, w)
  lt : w < 2 ^ 16
  even : w % 2 = 0
  dec : word16 w = i

/-- A 32-bit word and its instruction. -/
structure Long (i : Instr) (w : Nat) : Prop where
  enc : encode i = some (32, w)
  lt : w < 2 ^ 32
  odd : w % 2 = 1
  dec : row32 w = some i

theorem Digits.long {w cls op : Nat} {i : Instr} (h : Digits w cls op) (enc : encode i = some (32, w)) (dec : row32 w = some i) :
    Long i w := ⟨enc, h.lt, h.odd, dec⟩

/-- The halfword 0 is that of nop.h alone (R268). -/
theorem h16Code_ne_zero {op : Nat} {f : H16} (lt : op < 16) (wf : (h16Row op f).wf = true) : h16Code op f ≠ 0 := by
  intro zero
  unfold h16Code at zero
  obtain rfl : op = 0 := by omega
  have hw : f.w = false := by
    cases h : f.w with
    | false => rfl
    | true => rw [h] at zero; simp [bit] at zero
  have hb : f.b = 0 := BitVec.eq_of_toNat_eq (by simpa using (by omega : f.b.toNat = 0))
  have hd : f.d = 0 := BitVec.eq_of_toNat_eq (by simpa using (by omega : f.d.toNat = 0))
  have none_ : (f.b != 0 || f.d != 0 || f.w) = true := wf
  rw [hb, hd, hw] at none_
  cases none_

/-- Every well-formed instruction of the opcode map has a word, which names its row. -/
theorem has_word {i : Instr} (l : Listed i) : (view i).lay = .event ∨ (∃ w, Short i w) ∨ ∃ w, Long i w := by
  cases l with
  | event lay => exact .inl lay
  | nopH h => exact h ▸ .inr (.inl ⟨0, rfl, by decide, rfl, rfl⟩)
  | h16 f lt wf h =>
    generalize (view i).op = op at lt h
    subst h
    obtain ⟨bound, even, hop, hf⟩ := h16Code_digits f lt
    refine .inr (.inl ⟨h16Code op f, ofView_h16 (h16Row_view lt f), bound, even, ?_⟩)
    unfold word16
    rw [if_neg (h16Code_ne_zero lt wf), hop, hf]
  | ri f lt h =>
    generalize (view i).op = op at lt h
    subst h
    obtain ⟨bound, odd, cls, hop, hf⟩ := riCode_digits f lt
    refine .inr (.inr ⟨riCode op f, ofView_ri (riRow_view lt f).1, bound, odd, ?_⟩)
    rw [row32_class1 cls, hop, hf]
  | rg f c row h =>
    generalize (view i).op = op at row
    subst h
    obtain ⟨r, _, ho⟩ := rgRow_view row f
    obtain ⟨dg, hx, hf⟩ := rgCode_digits (cls := 0) f (by decide) ho
    refine .inr (.inr ⟨_, dg.long (ofView_rg r) ?_⟩)
    rw [row32_class0 dg, hx, row, hf]
    rfl
  | mr f c row h =>
    generalize (view i).op = op at row
    subst h
    obtain ⟨r, _, high, ho, noMa⟩ := mrRow_view row f
    obtain ⟨dg, hx, hf⟩ := rgCode_digits (cls := 2) f (by decide) ho
    refine .inr (.inr ⟨_, dg.long (ofView_mr r) ?_⟩)
    rw [row32_class2_mr dg high (by rw [hx, noMa]), hx, row, hf]
    rfl
  | cs f c row h =>
    generalize (view i).op = op at row
    subst h
    obtain ⟨r, _, high, ho⟩ := csRow_view row f
    obtain ⟨dg, hx, hf⟩ := rgCode_digits (cls := 3) f (by decide) ho
    refine .inr (.inr ⟨_, dg.long (ofView_cs r) ?_⟩)
    rw [row32_class3_high dg high, hx, row, hf]
    rfl
  | ma f c row h =>
    generalize (view i).op = op at row
    subst h
    obtain ⟨r, _, high, ho⟩ := maRow_view row f
    obtain ⟨dg, hx, hf⟩ := maCode_digits f ho
    refine .inr (.inr ⟨_, dg.long (ofView_ma r) ?_⟩)
    rw [row32_class2_ma dg high (hx ▸ row), hf]
  | mo f c row h =>
    generalize (view i).op = op at row
    subst h
    obtain ⟨r, _, low⟩ := moRow_view row f
    obtain ⟨dg, hf⟩ := moCode_digits (op := op) f (by omega)
    refine .inr (.inr ⟨_, dg.long (ofView_mo r) ?_⟩)
    rw [row32_class2_low dg low, row, hf]
    rfl
  | cb f c row h =>
    generalize (view i).op = op at row
    subst h
    obtain ⟨r, _, low⟩ := cbRow_view row f
    obtain ⟨dg, hf⟩ := cbCode_digits (op := op) f (by omega)
    refine .inr (.inr ⟨_, dg.long (ofView_cb r) ?_⟩)
    rw [row32_class3_low dg low, row, hf]
    rfl

/-- The row that a word names encodes to that word. -/
theorem encode_row32 {w : Nat} {i : Instr} (lt : w < 2 ^ 32) (odd : w % 2 = 1) (row : row32 w = some i) :
    encode i = some (32, w) ∧ WfByFields i := by
  have digits : ∀ {k}, w / 2 % 4 = k → Digits w k (w / 128 % 32) := fun h => ⟨lt, odd, h, rfl⟩
  obtain cls | cls | cls | cls : w / 2 % 4 = 0 ∨ w / 2 % 4 = 1 ∨ w / 2 % 4 = 2 ∨ w / 2 % 4 = 3 := by omega
  · rw [row32_class0 (digits cls)] at row
    obtain ⟨c, hc, rfl⟩ := Option.map_eq_some_iff.mp row
    obtain ⟨r, wf, _⟩ := rgRow_view hc (rgOf w)
    exact ⟨by rw [encode, ofView_rg r, ← cls, rgCode_rgOf lt odd], wf⟩
  · rw [row32_class1 cls] at row
    cases row
    obtain ⟨r, wf⟩ := riRow_view (op := w / 64 % 16) (by omega) (riOf w)
    exact ⟨by rw [encode, ofView_ri r, riCode_riOf lt odd cls], wf⟩
  · rcases Nat.lt_or_ge (w / 128 % 32) 16 with low | high
    · rw [row32_class2_low (digits cls) low] at row
      obtain ⟨c, hc, rfl⟩ := Option.map_eq_some_iff.mp row
      obtain ⟨r, wf, _⟩ := moRow_view hc (moOf w)
      exact ⟨by rw [encode, ofView_mo r, moCode_moOf lt odd cls], wf⟩
    · cases hm : maRow (w / 128 % 32) (w / 4096 % 4) with
      | some c =>
        rw [row32_class2_ma (digits cls) high hm] at row
        cases row
        obtain ⟨r, wf, _⟩ := maRow_view hm (maOf w)
        exact ⟨by rw [encode, ofView_ma r, maCode_maOf lt odd cls], wf⟩
      | none =>
        rw [row32_class2_mr (digits cls) high hm] at row
        obtain ⟨c, hc, rfl⟩ := Option.map_eq_some_iff.mp row
        obtain ⟨r, wf, _⟩ := mrRow_view hc (rgOf w)
        exact ⟨by rw [encode, ofView_mr r, ← cls, rgCode_rgOf lt odd], wf⟩
  · rcases Nat.lt_or_ge (w / 128 % 32) 5 with low | high
    · rw [row32_class3_low (digits cls) low] at row
      obtain ⟨c, hc, rfl⟩ := Option.map_eq_some_iff.mp row
      obtain ⟨r, wf, _⟩ := cbRow_view hc (cbOf w)
      exact ⟨by rw [encode, ofView_cb r, cbCode_cbOf lt odd cls], wf⟩
    · rw [row32_class3_high (digits cls) high] at row
      obtain ⟨c, hc, rfl⟩ := Option.map_eq_some_iff.mp row
      obtain ⟨r, wf, _⟩ := csRow_view hc (rgOf w)
      exact ⟨by rw [encode, ofView_cs r, ← cls, rgCode_rgOf lt odd], wf⟩

/-! ## Words, bytes and table words -/

theorem word32_eq_ok {w : Nat} {i : Instr} : word32 w = .ok i ↔ row32 w = some i ∧ fixedDetail (view i) = 0 := by
  unfold word32
  cases row32 w with
  | none => simp
  | some j =>
    dsimp only
    split
    · next zero => simp only [Except.ok.injEq, Option.some.injEq]; exact ⟨fun h => ⟨h, h ▸ zero⟩, And.left⟩
    · next some_ => simp only [reduceCtorEq, Option.some.injEq, false_iff]; rintro ⟨rfl, h⟩; exact some_ h

theorem Short.word {i : Instr} {w : Nat} (h : Short i w) : Decode.word w = .ok i := by
  unfold Decode.word
  rw [if_pos h.even, show w % 65536 = w from Nat.mod_eq_of_lt h.lt, h.dec]

theorem Long.word {i : Instr} {w : Nat} (h : Long i w) (wf : i.wf = true) : Decode.word w = .ok i := by
  have fields := (encode_row32 h.lt h.odd h.dec).2
  unfold Decode.word
  rw [if_neg (by rw [h.odd]; decide), word32_eq_ok]
  exact ⟨h.dec, fixedDetail_of_wf wf fields⟩

/-- Four bytes are read as the word that they hold, or as its lower half. -/
theorem bytes_short {w : Nat} (even : w % 2 = 0) (lt : w < 2 ^ 16) (rest : List Byte) :
    Decode.bytes (BitVec.ofNat 8 w :: BitVec.ofNat 8 (w / 256) :: rest) = .ok (word16 w, rest) := by
  unfold Decode.bytes
  simp only [BitVec.toNat_ofNat]
  rw [if_pos (by omega), show w % 2 ^ 8 + 256 * (w / 256 % 2 ^ 8) = w by omega]

theorem bytes_long {w : Nat} (odd : w % 2 = 1) (lt : w < 2 ^ 32) (rest : List Byte) :
    Decode.bytes (BitVec.ofNat 8 w :: BitVec.ofNat 8 (w / 256) :: BitVec.ofNat 8 (w / 65536) :: BitVec.ofNat 8 (w / 16777216) :: rest) =
      (word32 w).map (·, rest) := by
  unfold Decode.bytes
  simp only [BitVec.toNat_ofNat]
  rw [if_neg (by omega), show w % 2 ^ 8 + 256 * (w / 256 % 2 ^ 8) + 65536 * (w / 65536 % 2 ^ 8) + 16777216 * (w / 16777216 % 2 ^ 8) = w by
    omega]

theorem tableBytes_eq {n w : Nat} (le : n ≤ 32) (lt : w < 2 ^ n) : tableBytes n w =
    [BitVec.ofNat 8 w, BitVec.ofNat 8 (w / 256), BitVec.ofNat 8 (w / 65536), BitVec.ofNat 8 (w / 16777216)] := by
  unfold tableBytes
  rw [min_eq_left le, Nat.mod_eq_of_lt lt]

/-- What an instruction, its length and its word have in common (R266, R276, R278). -/
def Agree (i : Instr) (n w : Nat) : Prop :=
  (n = 16 ∨ n = 32) ∧ n = 8 * instrLen i ∧ w < 2 ^ n ∧ (encodeBytes i).length = instrLen i ∧ Decode.word w = .ok i ∧
    (∀ rest, Decode.bytes (encodeBytes i ++ rest) = .ok (i, rest)) ∧ decodeTableWord n w = some i

/-- The layout of the 16-bit forms is that of the 16-bit words. -/
theorem instrLen_of_encode {i : Instr} {n w : Nat} (h : encode i = some (n, w)) : n = 8 * instrLen i := by
  unfold encode ofView at h
  unfold instrLen
  split at h <;> cases h <;> simp_all

theorem Short.agree {i : Instr} {w : Nat} (h : Short i w) : Agree i 16 w := by
  have bytes_eq : encodeBytes i = [BitVec.ofNat 8 w, BitVec.ofNat 8 (w / 256)] := by
    simp only [encodeBytes, h.enc]
  have len := instrLen_of_encode h.enc
  refine ⟨.inl rfl, len, h.lt, by rw [bytes_eq, List.length_cons, List.length_singleton]; omega, h.word, fun rest => ?_, ?_⟩
  · rw [bytes_eq]
    exact (bytes_short h.even h.lt rest).trans (by rw [h.dec])
  · unfold decodeTableWord
    rw [tableBytes_eq (by decide) h.lt, bytes_short h.even h.lt, h.dec]

theorem Long.agree {i : Instr} {w : Nat} (h : Long i w) (wf : i.wf = true) : Agree i 32 w := by
  have bytes_eq : encodeBytes i =
      [BitVec.ofNat 8 w, BitVec.ofNat 8 (w / 256), BitVec.ofNat 8 (w / 65536), BitVec.ofNat 8 (w / 16777216)] := by
    simp only [encodeBytes, h.enc]
  have len := instrLen_of_encode h.enc
  have dec : word32 w = .ok i := word32_eq_ok.mpr ⟨h.dec, fixedDetail_of_wf wf (encode_row32 h.lt h.odd h.dec).2⟩
  refine ⟨.inr rfl, len, h.lt, by rw [bytes_eq]; simp only [List.length_cons, List.length_nil]; omega, h.word wf, fun rest => ?_, ?_⟩
  · rw [bytes_eq]
    exact (bytes_long h.odd h.lt rest).trans (by rw [dec]; rfl)
  · unfold decodeTableWord
    rw [tableBytes_eq (by decide) h.lt, bytes_long h.odd h.lt, dec]
    rfl

theorem agree_of_encode {i : Instr} {n w : Nat} (wf : i.wf = true) (enc : encode i = some (n, w)) : Agree i n w := by
  rcases has_word (listed i wf) with lay | ⟨v, h⟩ | ⟨v, h⟩
  · rw [encode, ofView, lay] at enc
    cases enc
  · cases h.enc.symm.trans enc
    exact h.agree
  · cases h.enc.symm.trans enc
    exact h.agree wf

theorem encode_eq_none_iff {i : Instr} : encode i = none ↔ (view i).lay = .event := by
  unfold encode ofView
  split <;> simp_all

/-- Settles O54: every instruction stands in its table under its opcode and X, and the fields of its word are the digits of the word. -/
theorem encodedInstructionsDecode : Obligations.EncodedInstructionsDecode := by
  unfold Obligations.EncodedInstructionsDecode
  refine ⟨fun i wf => ?_, fun i n w rest wf enc => ?_⟩
  · rw [encode_eq_none_iff, Instr.posted, wf, Bool.and_true, beq_iff_eq]
  · obtain ⟨size, len, lt, bytes_, word_, reads, table⟩ := agree_of_encode wf enc
    exact ⟨size, len, lt, bytes_, word_, reads rest, table⟩

/-! ## Words that the decoder accepts, and those that it does not -/

theorem need_le (c : Bool) (d : Nat) : need c d ≤ d := by
  unfold need
  split <;> omega

theorem lowDetail_le {a b n : Nat} (ha : a ≤ n) (hb : b ≤ n) : lowDetail a b ≤ n := by
  unfold lowDetail
  split
  · exact hb
  · split
    · exact ha
    · omega

theorem lowOf_le {l : List Nat} {n : Nat} (h : ∀ x ∈ l, x ≤ n) : lowOf l ≤ n := by
  induction l with
  | nil => exact Nat.zero_le n
  | cons a l ih => exact lowDetail_le (h a (by simp)) (ih fun x hx => h x (by simp [hx]))

theorem opdFixed_le (k : Opd) (f : Nat) : opdFixed k f ≤ 2 := by
  unfold opdFixed
  split
  · exact need_le ..
  · exact need_le ..
  · exact need_le ..
  · exact need_le ..
  · exact need_le ..
  · exact need_le ..
  · exact (need_le ..).trans (by decide)
  all_goals exact Nat.zero_le 2

theorem fixedDetail_le (v : View) : fixedDetail v ≤ 2 := by
  refine lowOf_le fun x hx => ?_
  simp only [List.mem_cons, List.not_mem_nil, or_false] at hx
  obtain rfl | rfl | rfl | rfl | rfl | rfl := hx
  · exact (need_le ..).trans (by decide)
  · exact opdFixed_le ..
  · exact opdFixed_le ..
  · exact opdFixed_le ..
  · split
    · exact lowDetail_le ((need_le ..).trans (by decide)) (need_le ..)
    · exact Nat.zero_le 2
  · split
    · exact need_le ..
    · exact Nat.zero_le 2

theorem limitDetail_le (i : Instr) : limitDetail i ≤ 2 := by
  unfold limitDetail
  split
  · exact need_le ..
  · exact (need_le ..).trans (by decide)
  · exact need_le ..
  · exact need_le ..
  · exact (need_le ..).trans (by decide)
  · exact (need_le ..).trans (by decide)
  · exact (need_le ..).trans (by decide)
  · exact (need_le ..).trans (by decide)
  · exact lowDetail_le ((need_le ..).trans (by decide)) (need_le ..)
  · exact lowDetail_le ((need_le ..).trans (by decide)) (need_le ..)
  · exact Nat.zero_le 2

theorem word32_error {w : Nat} {r : Reject} (h : word32 w = .error r) : r = .illegal 1 ∨ r = .illegal 2 := by
  unfold word32 at h
  split at h
  · cases h
    exact .inl rfl
  · next i _ =>
    split at h
    · cases h
    · next some_ =>
      cases h
      have le := lowDetail_le (fixedDetail_le (view i)) (limitDetail_le i)
      have ne : lowDetail (fixedDetail (view i)) (limitDetail i) ≠ 0 := fun zero => some_ (lowDetail_eq_zero.mp zero).1
      rcases Nat.lt_or_ge (lowDetail (fixedDetail (view i)) (limitDetail i)) 2 with one | two
      · exact .inl (congrArg Reject.illegal (by omega))
      · exact .inr (congrArg Reject.illegal (by omega))

theorem wf_h16Row {op : Nat} (lt : op < 16) {f : H16} (ne : h16Code op f ≠ 0) : (h16Row op f).wf = true := by
  interval_cases op
  · show (f.b != 0 || f.d != 0 || f.w) = true
    by_contra zero
    simp only [Bool.not_eq_true, Bool.or_eq_false_iff, bne_eq_false_iff_eq] at zero
    obtain ⟨⟨hb, hd⟩, hw⟩ := zero
    exact ne (by rw [h16Code, hb, hd, hw]; rfl)
  all_goals rfl

theorem word16_encodes {w : Nat} (lt : w < 2 ^ 16) (even : w % 2 = 0) :
    (word16 w).wf = true ∧ encode (word16 w) = some (16, w) := by
  unfold word16
  split
  · next zero => exact zero ▸ ⟨rfl, rfl⟩
  · next some_ =>
    have op : w / 4 % 16 < 16 := Nat.mod_lt _ (by decide)
    have code := h16Code_h16Of lt even
    exact ⟨wf_h16Row op (by rwa [code]), by rw [encode, ofView_h16 (h16Row_view op _), code]⟩

/-- A word that the decoder accepts is the word of its instruction. -/
theorem encode_of_word {w : Nat} {i : Instr} (lt : w < 2 ^ (if w % 2 = 0 then 16 else 32)) (h : Decode.word w = .ok i) :
    i.wf = true ∧ encode i = some (if w % 2 = 0 then 16 else 32, w) := by
  unfold Decode.word at h
  split at h
  · next even =>
    rw [if_pos even] at lt ⊢
    rw [show w % 65536 = w from Nat.mod_eq_of_lt lt] at h
    cases h
    exact word16_encodes lt even
  · next odd =>
    rw [if_neg odd] at lt ⊢
    obtain ⟨row, fixed⟩ := word32_eq_ok.mp h
    obtain ⟨enc, wf⟩ := encode_row32 lt (by omega) row
    exact ⟨wf.trans (beq_iff_eq.mpr fixed), enc⟩

/-- Settles O55: the row that a word names encodes to the word, and its reserved fields are refused with DETAIL 1 or 2. -/
theorem decodedWordsEncodeBack : Obligations.DecodedWordsEncodeBack := by
  unfold Obligations.DecodedWordsEncodeBack
  refine ⟨fun w i lt h => encode_of_word lt h, fun w r h => ?_, fun w v i hw hv dw dv => ?_⟩
  · unfold Decode.word at h
    split at h
    · cases h
    · next odd => exact ⟨by omega, word32_error h⟩
  · exact congrArg Prod.snd (Option.some.inj ((encode_of_word hw dw).2.symm.trans (encode_of_word hv dv).2))

end Sys2Proof
end

section
/-! SUPPORT. The statement RoundingIsRight. The codes of one sign, taken as natural numbers, have magnitudes that grow with the code
(R246, R249), so that a rounding is the choice between a code and the next one. -/

namespace Sys2Proof.Machine

/-- The exponent of the least magnitude of a format. -/
def Fmt.qmin (f : Fmt) : Int := 1 - (f.bias : Int) - f.fw

/-- The magnitude of a code without its sign, beyond the finite codes as well. -/
def Fmt.mag (f : Fmt) (c : Nat) : ℚ :=
  if c < 2 ^ f.fw then c * 2 ^ f.qmin else (2 ^ f.fw + c % 2 ^ f.fw : Nat) * 2 ^ (f.qmin + (c / 2 ^ f.fw - 1 : Nat))

/-- The exponent code from which on no code is finite. -/
def Fmt.top (f : Fmt) : Nat := if f.ieee then 2 ^ f.ew - 1 else 2 ^ f.ew

/-- The number of finite codes of one sign. -/
def Fmt.codes (f : Fmt) : Nat := f.top * 2 ^ f.fw

/-- The factor of a sign. -/
def signOf (neg : Bool) : ℚ := if neg then -1 else 1

variable {f : Fmt}

/-! ## Magnitudes -/

theorem two_zpow_pos (n : Int) : (0 : ℚ) < 2 ^ n := zpow_pos two_pos n

/-- A code written as an exponent and a mantissa, the mantissa up to the first of the next binade. -/
theorem Fmt.mag_eq {d k : Nat} (le : k ≤ 2 ^ (f.fw + 1)) (normal : d = 0 ∨ 2 ^ f.fw ≤ k) :
    f.mag (d * 2 ^ f.fw + k) = k * 2 ^ (f.qmin + d) := by
  have pos : 0 < 2 ^ f.fw := by positivity
  rw [pow_succ] at le
  unfold Fmt.mag
  rcases lt_or_ge k (2 ^ f.fw) with small | large
  · obtain rfl : d = 0 := by omega
    simp [small]
  · rw [if_neg (by nlinarith)]
    rcases Nat.lt_or_ge k (2 ^ f.fw * 2) with inside | edge
    · have hc : d * 2 ^ f.fw + k = 2 ^ f.fw * (d + 1) + (k - 2 ^ f.fw) := by
        obtain ⟨n, rfl⟩ := Nat.exists_eq_add_of_le large
        rw [Nat.add_sub_cancel_left]
        ring
      rw [hc, Nat.mul_add_mod, Nat.mod_eq_of_lt (by omega), Nat.mul_add_div pos, Nat.div_eq_of_lt (by omega),
        Nat.add_sub_cancel' large]
      congr 3
    · obtain rfl : k = 2 ^ f.fw * 2 := by omega
      have hc : d * 2 ^ f.fw + 2 ^ f.fw * 2 = 2 ^ f.fw * (d + 2) := by ring
      rw [hc, Nat.mul_mod_right, Nat.mul_div_cancel_left _ pos, show f.qmin + ((d + 2 - 1 : Nat) : Int) = f.qmin + d + 1 by omega,
        zpow_add_one₀ two_ne_zero]
      push_cast
      ring

/-- Every code is an exponent and a mantissa. -/
theorem Fmt.code_eq (f : Fmt) (c : Nat) : ∃ d k, c = d * 2 ^ f.fw + k ∧ k < 2 ^ (f.fw + 1) ∧ (d = 0 ∨ 2 ^ f.fw ≤ k) := by
  have pos : 0 < 2 ^ f.fw := by positivity
  have split_ := Nat.div_add_mod c (2 ^ f.fw)
  have lt := Nat.mod_lt c pos
  rw [pow_succ]
  rcases Nat.eq_zero_or_pos (c / 2 ^ f.fw) with none_ | some_
  · exact ⟨0, c, by omega, by rw [none_] at split_; omega, .inl rfl⟩
  · refine ⟨c / 2 ^ f.fw - 1, 2 ^ f.fw + c % 2 ^ f.fw, ?_, by omega, .inr (by omega)⟩
    obtain ⟨n, hn⟩ := Nat.exists_eq_add_of_le' some_
    rw [hn] at split_ ⊢
    rw [Nat.add_sub_cancel]
    linarith

theorem Fmt.mag_strictMono (f : Fmt) : StrictMono f.mag := by
  refine strictMono_nat_of_lt_succ fun c => ?_
  obtain ⟨d, k, rfl, lt, normal⟩ := f.code_eq c
  rw [add_assoc, Fmt.mag_eq lt.le normal, Fmt.mag_eq lt (by omega)]
  push_cast
  nlinarith [two_zpow_pos (f.qmin + d)]

theorem Fmt.mag_zero (f : Fmt) : f.mag 0 = 0 := by simp [Fmt.mag]

theorem Fmt.mag_nonneg (f : Fmt) (c : Nat) : 0 ≤ f.mag c := f.mag_zero ▸ f.mag_strictMono.monotone (Nat.zero_le c)

/-- The least normal magnitude. -/
theorem Fmt.mag_normal (f : Fmt) : f.mag (2 ^ f.fw) = 2 ^ (1 - (f.bias : Int)) := by
  have h := Fmt.mag_eq (f := f) (d := 0) (k := 2 ^ f.fw) (Nat.pow_le_pow_right two_pos (by omega)) (.inl rfl)
  rw [Nat.zero_mul, Nat.zero_add] at h
  rw [h, Nat.cast_pow, Nat.cast_ofNat, ← zpow_natCast, ← zpow_add₀ two_ne_zero]
  congr 1
  unfold Fmt.qmin
  push_cast
  ring

/-! ## Values of codes -/

theorem ratOf_eq (neg : Bool) (m : Nat) (e : Int) : Safety.ratOf neg m e = signOf neg * (m * 2 ^ e) := rfl

theorem abs_signOf_mul (neg : Bool) {x : ℚ} (h : 0 ≤ x) : |signOf neg * x| = x := by
  cases neg <;> simp [signOf, abs_of_nonneg h]

/-- The exponent and the fraction of a code are those of the code without its sign. -/
theorem Fmt.exponent_eq (f : Fmt) (c : Nat) : c / 2 ^ f.fw % 2 ^ f.ew = c % 2 ^ (f.ew + f.fw) / 2 ^ f.fw := by
  rw [Nat.add_comm, pow_add, Nat.mod_mul_right_div_self]

theorem Fmt.fraction_eq (f : Fmt) (c : Nat) : c % 2 ^ f.fw = c % 2 ^ (f.ew + f.fw) % 2 ^ f.fw := by
  rw [Nat.add_comm, pow_add, Nat.mod_mul_right_mod]

/-- A code is finite by its exponent. -/
theorem Fmt.lt_codes {j : Nat} : j < f.codes ↔ j / 2 ^ f.fw < f.top := by
  unfold Fmt.codes
  rw [Nat.div_lt_iff_lt_mul (by positivity)]

/-- The value of a finite code by its sign and the code without it. -/
theorem Fmt.value_of_lt {c : Nat} (h : c % 2 ^ (f.ew + f.fw) < f.codes) :
    ∃ k q, f.value false c = .fin (c / 2 ^ (f.ew + f.fw) % 2 == 1) k q ∧ (k : ℚ) * 2 ^ q = f.mag (c % 2 ^ (f.ew + f.fw)) := by
  have below : (f.ieee && c / 2 ^ f.fw % 2 ^ f.ew == 2 ^ f.ew - 1) = false := by
    rw [Fmt.lt_codes, ← f.exponent_eq, Fmt.top] at h
    split at h
    · rw [Bool.and_eq_false_iff, beq_eq_false_iff_ne]; exact .inr h.ne
    · next no => rw [Bool.and_eq_false_iff]; exact .inl (Bool.eq_false_iff.mpr no)
  unfold Fmt.value Fmt.mag
  simp only [below, Bool.false_eq_true, if_false, Bool.and_false]
  rw [f.exponent_eq, f.fraction_eq]
  generalize c % 2 ^ (f.ew + f.fw) = j
  split
  · next zero =>
    have lt : j < 2 ^ f.fw := (Nat.div_eq_zero_iff.mp zero).resolve_left (by positivity)
    exact ⟨_, _, rfl, by rw [if_pos lt, Nat.mod_eq_of_lt lt]; rfl⟩
  · next some_ =>
    have ge : ¬ j < 2 ^ f.fw := fun lt => some_ (Nat.div_eq_of_lt lt)
    refine ⟨_, _, rfl, ?_⟩
    rw [if_neg ge, Fmt.qmin]
    generalize j / 2 ^ f.fw = n at some_
    rw [show (n : Int) - f.bias - f.fw = 1 - (f.bias : Int) - f.fw + (n - 1 : Nat) by omega]

theorem Fmt.codes_of_value {c k : Nat} {neg : Bool} {q : Int} (h : f.value false c = .fin neg k q) :
    c % 2 ^ (f.ew + f.fw) < f.codes := by
  rw [Fmt.lt_codes, ← f.exponent_eq, Fmt.top]
  have lt : c / 2 ^ f.fw % 2 ^ f.ew < 2 ^ f.ew := Nat.mod_lt _ (by positivity)
  split
  · next ieee =>
    have ne : c / 2 ^ f.fw % 2 ^ f.ew ≠ 2 ^ f.ew - 1 := by
      intro eq
      unfold Fmt.value at h
      simp only [ieee, eq, beq_self_eq_true, Bool.and_self, if_true] at h
      split at h <;> cases h
    omega
  · exact lt

/-! ## The pieces of a rounding (R252) -/

/-- The exponent of the unit to which a value is rounded. -/
def Fmt.unit (f : Fmt) (m : Nat) (e : Int) : Int := max (e + (Nat.log2 m + 1 : Nat) - (f.fw + 1 : Nat)) f.qmin

/-- How many bits are cut off. -/
def Fmt.cut (f : Fmt) (m : Nat) (e : Int) : Nat := (f.unit m e - e).toNat

/-- The mantissa that is kept. -/
def Fmt.kept (f : Fmt) (m : Nat) (e : Int) : Nat :=
  if f.unit m e < e then m * 2 ^ (e - f.unit m e).toNat else m / 2 ^ f.cut m e

/-- What is cut off, in units of the value's own exponent. -/
def Fmt.rem (f : Fmt) (m : Nat) (e : Int) : Nat := if f.unit m e < e then 0 else m % 2 ^ f.cut m e

/-- Whether the kept mantissa is raised. -/
def Fmt.raised (f : Fmt) (mode : Nat) (neg : Bool) (m : Nat) (e : Int) : Bool :=
  f.cut m e != 0 && roundsUp mode neg (f.kept m e) (f.rem m e) (f.cut m e) false

/-- How far the unit lies above that of the least magnitude. -/
def Fmt.step (f : Fmt) (m : Nat) (e : Int) : Nat := (f.unit m e - f.qmin).toNat

/-- The code of the kept mantissa. -/
def Fmt.floor (f : Fmt) (m : Nat) (e : Int) : Nat := f.step m e * 2 ^ f.fw + f.kept m e

/-- The result of a rounding to a code, which is inexact or not. -/
def Fmt.result (f : Fmt) (mode : Nat) (neg : Bool) (k : Nat) (inexact : Bool) : Flagged :=
  if f.codes ≤ k then (f.overflow mode neg, 5)
  else (f.signBit neg + k, if inexact then (if k < 2 ^ f.fw then 3 else 1) else 0)

section
variable {m : Nat} {e : Int}

theorem Fmt.unit_eq (f : Fmt) (m : Nat) (e : Int) : f.unit m e = f.qmin + f.step m e := by
  have le : f.qmin ≤ f.unit m e := le_max_right ..
  unfold Fmt.step
  omega

/-- The value is the kept mantissa and a part of a unit. -/
theorem Fmt.scaled (f : Fmt) (m : Nat) (e : Int) :
    (m : ℚ) * 2 ^ e = (f.kept m e + f.rem m e / 2 ^ f.cut m e) * 2 ^ f.unit m e := by
  unfold Fmt.kept Fmt.rem
  split
  · next lt =>
    have h : e = f.unit m e + ((e - f.unit m e).toNat : Nat) := by omega
    conv_lhs => rw [h, zpow_add₀ two_ne_zero, zpow_natCast]
    push_cast
    ring
  · next ge =>
    have h : f.unit m e = e + (f.cut m e : Nat) := by unfold Fmt.cut; omega
    conv_rhs => rw [h, zpow_add₀ two_ne_zero, zpow_natCast]
    have whole : (m : ℚ) = 2 ^ f.cut m e * (m / 2 ^ f.cut m e : Nat) + (m % 2 ^ f.cut m e : Nat) := by
      exact_mod_cast (Nat.div_add_mod m (2 ^ f.cut m e)).symm
    have pos : (2 : ℚ) ^ f.cut m e ≠ 0 := by positivity
    field_simp
    linear_combination whole

theorem Fmt.rem_lt (f : Fmt) (m : Nat) (e : Int) : f.rem m e < 2 ^ f.cut m e := by
  unfold Fmt.rem
  split
  · positivity
  · exact Nat.mod_lt _ (by positivity)

section
variable (pos : m ≠ 0)
include pos

omit pos in
theorem Fmt.kept_lt (f : Fmt) : f.kept m e < 2 ^ (f.fw + 1) := by
  have le : e + (Nat.log2 m + 1 : Nat) - (f.fw + 1 : Nat) ≤ f.unit m e := le_max_left ..
  have hm : m < 2 ^ (Nat.log2 m + 1) := Nat.lt_log2_self
  unfold Fmt.kept
  split
  · next lt =>
    calc m * 2 ^ (e - f.unit m e).toNat < 2 ^ (Nat.log2 m + 1) * 2 ^ (e - f.unit m e).toNat :=
          Nat.mul_lt_mul_of_pos_right hm (by positivity)
      _ = 2 ^ (Nat.log2 m + 1 + (e - f.unit m e).toNat) := (pow_add ..).symm
      _ ≤ 2 ^ (f.fw + 1) := Nat.pow_le_pow_right two_pos (by omega)
  · next ge =>
    refine Nat.div_lt_of_lt_mul (hm.trans_le ?_)
    rw [← pow_add]
    exact Nat.pow_le_pow_right two_pos (by unfold Fmt.cut; omega)

/-- Above the least unit the kept mantissa is normal. -/
theorem Fmt.kept_normal (f : Fmt) : f.step m e = 0 ∨ 2 ^ f.fw ≤ f.kept m e := by
  rcases Nat.eq_zero_or_pos (f.step m e) with zero | some_
  · exact .inl zero
  · right
    have unit_ : f.unit m e = e + (Nat.log2 m + 1 : Nat) - (f.fw + 1 : Nat) := by
      unfold Fmt.step Fmt.unit at *
      omega
    have hm : 2 ^ Nat.log2 m ≤ m := Nat.log2_self_le pos
    unfold Fmt.kept
    split
    · next lt =>
      calc 2 ^ f.fw ≤ 2 ^ (Nat.log2 m + (e - f.unit m e).toNat) := Nat.pow_le_pow_right two_pos (by omega)
        _ = 2 ^ Nat.log2 m * 2 ^ (e - f.unit m e).toNat := pow_add ..
        _ ≤ m * 2 ^ (e - f.unit m e).toNat := Nat.mul_le_mul_right _ hm
    · next ge =>
      rw [Nat.le_div_iff_mul_le (by positivity), ← pow_add]
      exact (Nat.pow_le_pow_right two_pos (by unfold Fmt.cut; omega)).trans hm

theorem Fmt.mag_floor (f : Fmt) : f.mag (f.floor m e) = f.kept m e * 2 ^ f.unit m e := by
  rw [Fmt.floor, Fmt.mag_eq f.kept_lt.le (f.kept_normal pos), f.unit_eq]

theorem Fmt.mag_floor_succ (f : Fmt) : f.mag (f.floor m e + 1) = (f.kept m e + 1) * 2 ^ f.unit m e := by
  rw [Fmt.floor, add_assoc, Fmt.mag_eq f.kept_lt ((f.kept_normal pos).imp_right (·.trans (Nat.le_succ _))), f.unit_eq]
  push_cast
  rfl

end

/-- The code of a mantissa at an exponent, once the mantissa has been raised or not. -/
def Fmt.packed (f : Fmt) (mode : Nat) (neg : Bool) (k : Nat) (q : Int) (inexact : Bool) : Flagged :=
  let big := k == 2 ^ (f.fw + 1)
  let k2 := if big then 2 ^ f.fw else k
  let ex := (if big then q + 1 else q) + f.fw + f.bias
  if k2 < 2 ^ f.fw then (f.signBit neg + k2, if inexact then 3 else 0)
  else if f.top ≤ ex.toNat then (f.overflow mode neg, 5)
  else (f.signBit neg + ex.toNat * 2 ^ f.fw + (k2 - 2 ^ f.fw), if inexact then 1 else 0)

theorem Fmt.roundX_packed (f : Fmt) (pos : m ≠ 0) (mode : Nat) (neg : Bool) : f.roundX false mode neg m e false =
    f.packed mode neg (f.kept m e + b2n (f.raised mode neg m e)) (f.unit m e) (f.rem m e != 0) := by
  have raised_ : f.kept m e + b2n (f.raised mode neg m e) = (if f.cut m e = 0 then f.kept m e
      else if roundsUp mode neg (f.kept m e) (f.rem m e) (f.cut m e) false then f.kept m e + 1 else f.kept m e) := by
    unfold Fmt.raised
    by_cases none_ : f.cut m e = 0
    · simp [none_, b2n]
    · cases roundsUp mode neg (f.kept m e) (f.rem m e) (f.cut m e) false <;> simp [none_, b2n]
  rw [raised_]
  unfold Fmt.roundX
  simp only [pos, decide_false, Bool.false_and, Bool.and_false, Bool.or_false, Bool.false_eq_true, if_false]
  rfl

/-- The code is the mantissa counted from that of the least unit, so that a mantissa which is raised to the next binade needs no
other exponent. -/
theorem Fmt.packed_eq (expo : 0 < f.top) {k n : Nat} (le : k ≤ 2 ^ (f.fw + 1)) (normal : n = 0 ∨ 2 ^ f.fw ≤ k) (mode : Nat)
    (neg inexact : Bool) : f.packed mode neg k (f.qmin + n) inexact = f.result mode neg (n * 2 ^ f.fw + k) inexact := by
  have pos : 0 < 2 ^ f.fw := by positivity
  rw [pow_succ] at le
  have finite_iff : ∀ d : Nat, f.codes ≤ d ↔ f.top ≤ d / 2 ^ f.fw := fun d => by
    rw [← not_lt, Fmt.lt_codes, not_lt]
  unfold Fmt.packed Fmt.result
  simp only [finite_iff]
  rcases le.eq_or_lt with rfl | lt
  · have ex : (f.qmin + n + 1 + f.fw + f.bias).toNat = n + 2 := by unfold Fmt.qmin; omega
    have hc : n * 2 ^ f.fw + 2 ^ f.fw * 2 = 2 ^ f.fw * (n + 2) := by ring
    simp only [pow_succ, beq_self_eq_true, if_true, lt_irrefl, if_false, ex, hc, Nat.mul_div_cancel_left _ pos, Nat.sub_self]
    rw [if_neg (show ¬ 2 ^ f.fw * (n + 2) < 2 ^ f.fw by nlinarith), add_zero, Nat.mul_comm (n + 2)]
  · have small : (k == 2 ^ f.fw * 2) = false := beq_eq_false_iff_ne.mpr lt.ne
    simp only [pow_succ, small, Bool.false_eq_true, if_false]
    rcases Nat.lt_or_ge k (2 ^ f.fw) with sub | ge
    · obtain rfl : n = 0 := by omega
      rw [if_pos sub, Nat.zero_mul, Nat.zero_add, Nat.div_eq_of_lt sub, if_neg (not_le.mpr expo), if_pos sub]
    · have ex : (f.qmin + n + f.fw + f.bias).toNat = n + 1 := by unfold Fmt.qmin; omega
      obtain ⟨r, rfl⟩ := Nat.exists_eq_add_of_le ge
      have hc : n * 2 ^ f.fw + (2 ^ f.fw + r) = 2 ^ f.fw * (n + 1) + r := by ring
      rw [if_neg (not_lt.mpr ge), ex, hc, Nat.mul_add_div pos, Nat.div_eq_of_lt (by omega), add_zero, Nat.add_sub_cancel_left,
        if_neg (show ¬ 2 ^ f.fw * (n + 1) + r < 2 ^ f.fw by nlinarith), Nat.mul_comm (n + 1), add_assoc]

/-- A rounding gives the code of the kept mantissa or the next one. -/
theorem Fmt.roundX_eq (expo : 0 < f.top) (pos : m ≠ 0) (mode : Nat) (neg : Bool) : f.roundX false mode neg m e false =
    f.result mode neg (f.floor m e + b2n (f.raised mode neg m e)) (f.rem m e != 0) := by
  have lt := f.kept_lt (m := m) (e := e)
  have up : b2n (f.raised mode neg m e) ≤ 1 := by unfold b2n; split <;> decide
  rw [f.roundX_packed pos, f.unit_eq, Fmt.packed_eq expo (by omega)
    ((f.kept_normal pos).imp_right fun ge => ge.trans (Nat.le_add_right ..)), Fmt.floor, add_assoc]

end

/-! ## The code that the mode asks for -/

/-- How a rounding chooses between the greatest code that is not above a magnitude and the next one. -/
structure Fmt.Chosen (f : Fmt) (mode : Nat) (neg : Bool) (a : ℚ) (k : Nat) (up : Bool) : Prop where
  low : f.mag k ≤ a
  high : a < f.mag (k + 1)
  nearest : mode = 0 → (up = true ↔ f.mag (k + 1) - a < a - f.mag k ∨ (f.mag (k + 1) - a = a - f.mag k ∧ k % 2 = 1))
  toZero : mode = 1 → up = false
  down : mode = 2 → (up = true ↔ neg = true ∧ f.mag k ≠ a)
  up : mode = 3 → (up = true ↔ neg = false ∧ f.mag k ≠ a)

variable {m : Nat} {e : Int}

/-- Two numbers whose difference is another difference, scaled, compare as the other two do. -/
theorem compare_of_sub {x y a b c : ℚ} (pos : 0 < c) (gap : y - x = (a - b) * c) : (x < y ↔ b < a) ∧ (x = y ↔ a = b) := by
  constructor
  · rw [← sub_pos, gap, mul_pos_iff_of_pos_right pos, sub_pos]
  · rw [eq_comm, ← sub_eq_zero, gap, mul_eq_zero, or_iff_left pos.ne', sub_eq_zero]

/-- The part of a unit that is cut off. -/
theorem Fmt.cut_off (f : Fmt) (pos : m ≠ 0) : m * 2 ^ e - f.mag (f.floor m e) = f.rem m e / 2 ^ f.cut m e * 2 ^ f.unit m e := by
  rw [f.mag_floor pos, f.scaled]
  ring

theorem Fmt.mag_floor_eq_iff (f : Fmt) (pos : m ≠ 0) : f.mag (f.floor m e) = m * 2 ^ e ↔ f.rem m e = 0 := by
  have h := f.cut_off (e := e) pos
  have unit_ := two_zpow_pos (f.unit m e)
  have cut_ : (0 : ℚ) < 2 ^ f.cut m e := by positivity
  constructor
  · intro eq
    rw [eq, sub_self, eq_comm, mul_eq_zero, div_eq_zero_iff] at h
    exact_mod_cast (h.resolve_right unit_.ne').resolve_right cut_.ne'
  · intro zero
    rw [zero, Nat.cast_zero, zero_div, zero_mul] at h
    linarith

theorem Fmt.chosen (f : Fmt) (frac : 0 < f.fw) (pos : m ≠ 0) (mode : Nat) (neg : Bool) :
    f.Chosen mode neg (m * 2 ^ e) (f.floor m e) (f.raised mode neg m e) := by
  have scaled := f.scaled m e
  have unit_ := two_zpow_pos (f.unit m e)
  have lt : (f.rem m e : ℚ) < 2 ^ f.cut m e := by exact_mod_cast f.rem_lt m e
  have cut_ : (0 : ℚ) < 2 ^ f.cut m e := by positivity
  have part_lt : (f.rem m e : ℚ) / 2 ^ f.cut m e < 1 := (div_lt_one cut_).mpr lt
  have part_nonneg : (0 : ℚ) ≤ f.rem m e / 2 ^ f.cut m e := by positivity
  have none_iff := f.mag_floor_eq_iff (e := e) pos
  have parity : f.floor m e % 2 = f.kept m e % 2 := by
    obtain ⟨n, hn⟩ := Nat.exists_eq_add_of_le' frac
    rw [Fmt.floor, hn, pow_succ, ← mul_assoc, Nat.mul_add_mod_self_right]
  have uncut : f.cut m e = 0 → f.rem m e = 0 := fun zero => by
    have := f.rem_lt m e
    rw [zero] at this
    omega
  refine ⟨?_, ?_, ?_, ?_, ?_, ?_⟩
  · rw [f.mag_floor pos, scaled]
    nlinarith
  · rw [f.mag_floor_succ pos, scaled]
    nlinarith
  · rintro rfl
    rw [f.mag_floor_succ pos, f.mag_floor pos, scaled, parity]
    generalize f.unit m e = u at unit_
    rcases Nat.eq_zero_or_pos (f.cut m e) with zero | some_
    · simp only [Fmt.raised, zero, uncut zero, bne_self_eq_false, Bool.false_and, Bool.false_eq_true, false_iff]
      rintro (h | ⟨h, -⟩) <;> (norm_num at h; linarith)
    · obtain ⟨n, hn⟩ := Nat.exists_eq_add_of_le' some_
      have half : f.raised 0 neg m e = true ↔ 2 ^ n < f.rem m e ∨ f.rem m e = 2 ^ n ∧ f.kept m e % 2 = 1 := by
        simp [Fmt.raised, roundsUp, hn]
      have gap : ((f.kept m e : ℚ) + f.rem m e / 2 ^ f.cut m e) * 2 ^ u - f.kept m e * 2 ^ u -
          ((f.kept m e + 1) * 2 ^ u - (f.kept m e + f.rem m e / 2 ^ f.cut m e) * 2 ^ u) = (f.rem m e - 2 ^ n) * (2 ^ u / 2 ^ n) := by
        rw [hn, pow_succ]
        field_simp
        ring
      have scale : (0 : ℚ) < 2 ^ u / 2 ^ n := by positivity
      obtain ⟨less, tie⟩ := compare_of_sub scale gap
      rw [half, less, tie]
      norm_cast
  · rintro rfl
    simp [Fmt.raised, roundsUp]
  · rintro rfl
    rw [ne_eq, none_iff]
    simp only [Fmt.raised, roundsUp, Bool.or_false, Bool.and_eq_true, bne_iff_ne]
    exact ⟨And.right, fun h => ⟨mt uncut h.2, h⟩⟩
  · rintro rfl
    rw [ne_eq, none_iff]
    simp only [Fmt.raised, roundsUp, Bool.or_false, Bool.and_eq_true, bne_iff_ne, Bool.not_eq_true']
    exact ⟨And.right, fun h => ⟨mt uncut h.2, h⟩⟩

/-- A zero is the code 0 of its sign. -/
theorem Fmt.chosen_zero (f : Fmt) (mode : Nat) (neg : Bool) : f.Chosen mode neg 0 0 false := by
  have next : f.mag 0 < f.mag 1 := f.mag_strictMono one_pos
  rw [f.mag_zero] at next
  refine ⟨f.mag_zero.le, next, fun _ => ?_, fun _ => rfl, fun _ => ?_, fun _ => ?_⟩
  · rw [f.mag_zero, sub_zero, zero_add]
    simp [next.le]
  · simp [f.mag_zero]
  · simp [f.mag_zero]

section
variable {mode k j : Nat} {neg up : Bool} {a : ℚ} (h : f.Chosen mode neg a k up)
include h

theorem Fmt.Chosen.lt_mag (lt : k < j) : a < f.mag j := h.high.trans_le (f.mag_strictMono.monotone lt)

theorem Fmt.Chosen.le_of_mag_le (le : f.mag j ≤ a) : j ≤ k := not_lt.mp fun lt => (h.lt_mag lt).not_ge le

/-- Only an inexact value is raised. -/
theorem Fmt.Chosen.inexact (modes : mode < 4) (raised : up = true) : f.mag k < a := by
  refine h.low.lt_of_ne fun eq => ?_
  have high := h.high
  interval_cases mode
  · have near := (h.nearest rfl).mp raised
    rw [eq, sub_self] at near
    rcases near with lt | ⟨eq', -⟩ <;> linarith
  · exact absurd raised (by rw [h.toZero rfl]; decide)
  · exact ((h.down rfl).mp raised).2 eq
  · exact ((h.up rfl).mp raised).2 eq

/-- The result differs from the value where the value is no code. -/
theorem Fmt.Chosen.mag_eq_iff (modes : mode < 4) : f.mag (k + b2n up) = a ↔ f.mag k = a := by
  cases up with
  | false => rfl
  | true => exact ⟨fun eq => absurd eq h.high.ne', fun eq => absurd eq (h.inexact modes rfl).ne⟩

/-- Rounding to nearest: no code is nearer. -/
theorem Fmt.Chosen.near (nearest : mode = 0) (j : Nat) : |a - f.mag (k + b2n up)| ≤ |a - f.mag j| := by
  have low := h.low
  have high := h.high
  have best : |a - f.mag (k + b2n up)| ≤ a - f.mag k ∧ |a - f.mag (k + b2n up)| ≤ f.mag (k + 1) - a := by
    have choice := h.nearest nearest
    cases up with
    | false =>
      have far := not_or.mp (mt choice.mpr Bool.false_ne_true)
      have d : |a - f.mag k| = a - f.mag k := abs_of_nonneg (by linarith)
      exact ⟨d.le, d.le.trans (not_lt.mp far.1)⟩
    | true =>
      have d : |a - f.mag (k + 1)| = f.mag (k + 1) - a := by rw [abs_sub_comm]; exact abs_of_nonneg (by linarith)
      exact ⟨d.le.trans ((choice.mp rfl).elim le_of_lt fun h => h.1.le), d.le⟩
  rcases Nat.lt_or_ge k j with above | below
  · have mono := f.mag_strictMono.monotone above
    have d : |a - f.mag j| = f.mag j - a := by rw [abs_sub_comm]; exact abs_of_nonneg (by linarith)
    rw [d]
    linarith [best.2]
  · have mono := f.mag_strictMono.monotone below
    rw [abs_of_nonneg (a := a - f.mag j) (by linarith)]
    linarith [best.1]

/-- A tie goes to the even code. -/
theorem Fmt.Chosen.tie (nearest : mode = 0) (other : j ≠ k + b2n up) (eq : |a - f.mag (k + b2n up)| = |a - f.mag j|) :
    (k + b2n up) % 2 = 0 := by
  have low := h.low
  have high := h.high
  have choice := h.nearest nearest
  cases up with
  | false =>
    have far := not_or.mp (mt choice.mpr Bool.false_ne_true)
    change |a - f.mag k| = _ at eq
    rw [abs_of_nonneg (a := a - f.mag k) (by linarith)] at eq
    rcases Nat.lt_or_ge k j with above | below
    · have mono := f.mag_strictMono.monotone above
      rw [abs_sub_comm, abs_of_nonneg (by linarith)] at eq
      have := mt (And.intro (show f.mag (k + 1) - a = a - f.mag k by linarith [not_lt.mp far.1])) far.2
      show k % 2 = 0
      omega
    · have mono := f.mag_strictMono (show j < k from below.lt_of_ne other)
      rw [abs_of_nonneg (by linarith)] at eq
      linarith
  | true =>
    change |a - f.mag (k + 1)| = _ at eq
    rw [abs_sub_comm, abs_of_nonneg (a := f.mag (k + 1) - a) (by linarith)] at eq
    rcases Nat.lt_or_ge k j with above | below
    · have mono := f.mag_strictMono (show k + 1 < j from lt_of_le_of_ne above (Ne.symm other))
      rw [abs_sub_comm, abs_of_nonneg (by linarith)] at eq
      linarith
    · have mono := f.mag_strictMono.monotone below
      rw [abs_of_nonneg (by linarith)] at eq
      rcases choice.mp rfl with lt | ⟨-, odd⟩
      · linarith
      · show (k + 1) % 2 = 0
        omega

/-- Without a raise the result is the greatest magnitude that is not above. -/
theorem Fmt.Chosen.greatest (kept : up = false) :
    f.mag (k + b2n up) ≤ a ∧ ∀ j, f.mag j ≤ a → f.mag j ≤ f.mag (k + b2n up) := by
  subst kept
  exact ⟨h.low, fun j le => f.mag_strictMono.monotone (h.le_of_mag_le le)⟩

/-- With a raise of every inexact value it is the least that is not below. -/
theorem Fmt.Chosen.least (modes : mode < 4) (raised : up = true ↔ f.mag k ≠ a) :
    a ≤ f.mag (k + b2n up) ∧ ∀ j, a ≤ f.mag j → f.mag (k + b2n up) ≤ f.mag j := by
  cases up with
  | false =>
    have eq : f.mag k = a := not_not.mp (mt raised.mpr Bool.false_ne_true)
    exact ⟨eq.ge, fun j le => eq.le.trans le⟩
  | true =>
    exact ⟨h.high.le, fun j le => f.mag_strictMono.monotone (not_le.mp fun lt => (h.inexact modes rfl).not_ge
      (le.trans (f.mag_strictMono.monotone lt)))⟩

end

/-- Rounding a finite value. -/
theorem Fmt.round_eq (frac : 0 < f.fw) (expo : 0 < f.top) {mode : Nat} (modes : mode < 4) (neg : Bool) (m : Nat) (e : Int) :
    ∃ k up, f.Chosen mode neg (m * 2 ^ e) k up ∧ f.round false mode (.fin neg m e) =
      f.result mode neg (k + b2n up) (decide (f.mag (k + b2n up) ≠ m * 2 ^ e)) := by
  rcases eq_or_ne m 0 with rfl | pos
  · refine ⟨0, false, by simpa using f.chosen_zero mode neg, ?_⟩
    have codes : ¬ f.codes ≤ 0 := not_le.mpr (Nat.mul_pos expo (by positivity))
    show f.roundX false mode neg 0 e false = _
    simp [Fmt.roundX, Fmt.result, codes, b2n, f.mag_zero]
  · have h := f.chosen (e := e) frac pos mode neg
    refine ⟨_, _, h, (f.roundX_eq expo pos mode neg).trans (congrArg _ ?_)⟩
    have exact_ := (h.mag_eq_iff modes).trans (f.mag_floor_eq_iff pos)
    rw [Bool.eq_iff_iff, bne_iff_ne, decide_eq_true_iff, ne_eq, ne_eq, exact_]

/-! ## The statement -/

/-- A code and its finite value. -/
def Fmt.Finite (f : Fmt) (c : Nat) (x : ℚ) : Prop :=
  c < 2 ^ f.width ∧ ∃ n k q, f.value false c = .fin n k q ∧ x = Safety.ratOf n k q

theorem Fmt.codes_le (f : Fmt) : f.codes ≤ 2 ^ (f.ew + f.fw) := by
  unfold Fmt.codes Fmt.top
  rw [pow_add]
  refine Nat.mul_le_mul_right _ ?_
  split
  · exact Nat.sub_le ..
  · exact le_rfl

/-- A finite value is a magnitude with a sign. -/
theorem Fmt.Finite.mag {c : Nat} {x : ℚ} (h : f.Finite c x) : ∃ n j, j < f.codes ∧ x = signOf n * f.mag j := by
  obtain ⟨-, n, k, q, value, rfl⟩ := h
  have lt := Fmt.codes_of_value value
  obtain ⟨k', q', value', mag⟩ := Fmt.value_of_lt lt
  cases value.symm.trans value'
  exact ⟨_, _, lt, by rw [ratOf_eq, mag]⟩

theorem Fmt.signBit_lt (neg : Bool) {k : Nat} (lt : k < 2 ^ (f.ew + f.fw)) :
    f.signBit neg + k < 2 ^ f.width ∧ decide (2 ^ (f.ew + f.fw) ≤ f.signBit neg + k) = neg := by
  unfold Fmt.signBit Fmt.width
  rw [add_assoc, pow_add 2 1]
  cases neg
  · exact ⟨by simp only [Bool.false_eq_true, if_false]; omega, decide_eq_false (by simpa using lt)⟩
  · exact ⟨by simp only [if_true]; omega, decide_eq_true (by simp)⟩

/-- The code of a sign and a finite magnitude. -/
theorem Fmt.finite_signBit (neg : Bool) {k : Nat} (lt : k < f.codes) : f.Finite (f.signBit neg + k) (signOf neg * f.mag k) := by
  have bound := lt.trans_le f.codes_le
  refine ⟨(Fmt.signBit_lt neg bound).1, ?_⟩
  have low : (f.signBit neg + k) % 2 ^ (f.ew + f.fw) = k := by
    unfold Fmt.signBit
    cases neg
    · simpa using Nat.mod_eq_of_lt bound
    · simpa using Nat.mod_eq_of_lt bound
  have sign : ((f.signBit neg + k) / 2 ^ (f.ew + f.fw) % 2 == 1) = neg := by
    unfold Fmt.signBit
    cases neg
    · simp [Nat.div_eq_of_lt bound]
    · simp [Nat.add_div_left k (show 0 < 2 ^ (f.ew + f.fw) by positivity), Nat.div_eq_of_lt bound]
  obtain ⟨k', q, value, mag⟩ := Fmt.value_of_lt (low ▸ lt)
  rw [sign] at value
  rw [low] at mag
  exact ⟨neg, k', q, value, by rw [ratOf_eq, mag]⟩

theorem signOf_not (neg : Bool) : signOf (!neg) = -signOf neg := by cases neg <;> simp [signOf]

section
variable {mode k c : Nat} {neg up : Bool} {a x y : ℚ} (h : f.Chosen mode neg a k up) (ha : 0 ≤ a)
  (hx : x = signOf neg * f.mag (k + b2n up)) (hy : f.Finite c y)
include h ha hx hy

theorem Fmt.Chosen.abs_sub_le (nearest : mode = 0) : |signOf neg * a - x| ≤ |signOf neg * a - y| ∧
    (|signOf neg * a - x| = |signOf neg * a - y| → x ≠ y → (k + b2n up) % 2 = 0) := by
  obtain ⟨n, j, -, rfl⟩ := hy.mag
  have toX : |signOf neg * a - x| = |a - f.mag (k + b2n up)| := by
    rw [hx, ← mul_sub, abs_mul]
    cases neg <;> simp [signOf]
  have toY : |a - f.mag j| ≤ |signOf neg * a - signOf n * f.mag j| := by
    have := abs_abs_sub_abs_le (signOf neg * a) (signOf n * f.mag j)
    rwa [abs_signOf_mul neg ha, abs_signOf_mul n (f.mag_nonneg j)] at this
  rw [toX]
  refine ⟨(h.near nearest j).trans toY, fun eq ne => ?_⟩
  have eq' : |a - f.mag (k + b2n up)| = |a - f.mag j| := le_antisymm (h.near nearest j) (eq ▸ toY)
  by_cases same : j = k + b2n up
  · exfalso
    subst same
    have near_zero := h.near nearest 0
    rw [eq, f.mag_zero, sub_zero, abs_of_nonneg ha] at near_zero
    have nonneg := f.mag_nonneg (k + b2n up)
    have flipped : n = !neg := Bool.eq_not.mpr fun same => ne (hx.trans (by rw [same]))
    have sum : |signOf neg * a - signOf n * f.mag (k + b2n up)| = a + f.mag (k + b2n up) := by
      rw [flipped, signOf_not, neg_mul, sub_neg_eq_add, ← mul_add, abs_signOf_mul neg (add_nonneg ha nonneg)]
    have zero : f.mag (k + b2n up) = 0 := by linarith
    exact ne (by rw [hx, zero, mul_zero, mul_zero])
  · exact h.tie nearest same eq'

theorem Fmt.Chosen.abs_le_abs (kept : up = false) : |x| ≤ |signOf neg * a| ∧ (|y| ≤ |signOf neg * a| → |y| ≤ |x|) := by
  obtain ⟨n, j, -, rfl⟩ := hy.mag
  rw [hx, abs_signOf_mul neg ha, abs_signOf_mul n (f.mag_nonneg j), abs_signOf_mul neg (f.mag_nonneg _)]
  exact ⟨(h.greatest kept).1, (h.greatest kept).2 j⟩

theorem Fmt.Chosen.below (modes : mode < 4) (down : up = true ↔ neg = true ∧ f.mag k ≠ a) :
    x ≤ signOf neg * a ∧ (y ≤ signOf neg * a → y ≤ x) := by
  obtain ⟨n, j, -, rfl⟩ := hy.mag
  have nonneg := f.mag_nonneg j
  have nonneg' := f.mag_nonneg (k + b2n up)
  rw [hx]
  cases neg with
  | false =>
    obtain ⟨le, max_⟩ := h.greatest (Bool.eq_false_iff.mpr fun raised => Bool.false_ne_true (down.mp raised).1)
    have max_ := max_ j
    cases n <;> simp only [signOf, Bool.false_eq_true, if_true, if_false, one_mul, neg_mul] <;> refine ⟨le, fun le' => ?_⟩
    · exact max_ le'
    · linarith
  | true =>
    obtain ⟨le, min_⟩ := h.least modes (by simpa using down)
    have min_ := min_ j
    cases n <;> simp only [signOf, Bool.false_eq_true, if_true, if_false, one_mul, neg_mul] <;>
      refine ⟨neg_le_neg le, fun le' => ?_⟩
    · linarith [min_ (by linarith)]
    · linarith [min_ (by linarith)]

theorem Fmt.Chosen.above (modes : mode < 4) (upward : up = true ↔ neg = false ∧ f.mag k ≠ a) :
    signOf neg * a ≤ x ∧ (signOf neg * a ≤ y → x ≤ y) := by
  obtain ⟨n, j, -, rfl⟩ := hy.mag
  have nonneg := f.mag_nonneg j
  have nonneg' := f.mag_nonneg (k + b2n up)
  rw [hx]
  cases neg with
  | true =>
    obtain ⟨le, max_⟩ := h.greatest (Bool.eq_false_iff.mpr fun raised => Bool.false_ne_true (upward.mp raised).1.symm)
    have max_ := max_ j
    cases n <;> simp only [signOf, Bool.false_eq_true, if_true, if_false, one_mul, neg_mul] <;>
      refine ⟨neg_le_neg le, fun le' => ?_⟩
    · linarith
    · linarith [max_ (by linarith)]
  | false =>
    obtain ⟨le, min_⟩ := h.least modes (by simpa using upward)
    have min_ := min_ j
    cases n <;> simp only [signOf, Bool.false_eq_true, if_true, if_false, one_mul, neg_mul] <;> refine ⟨le, fun le' => ?_⟩
    · exact min_ le'
    · linarith [min_ (by linarith)]

end

theorem Fmt.overflow_eq {mode : Nat} (modes : mode < 4) (f : Fmt) (neg : Bool) : f.overflow mode neg =
    if f.ieee && (mode == 0 || mode == (if neg then 2 else 3)) then f.inf neg else f.largest neg := by
  unfold Fmt.overflow
  cases f.ieee
  · simp
  · interval_cases mode <;> cases neg <;> rfl

theorem Fmt.overflow_lt {mode : Nat} (modes : mode < 4) (f : Fmt) (neg : Bool) : ∃ k < 2 ^ (f.ew + f.fw), f.overflow mode neg = f.signBit neg + k := by
  have pos : 0 < 2 ^ (f.ew + f.fw) := by positivity
  have le : (2 ^ f.ew - 1) * 2 ^ f.fw < 2 ^ (f.ew + f.fw) := by
    rw [pow_add]
    exact Nat.mul_lt_mul_of_pos_right (Nat.sub_lt (by positivity) one_pos) (by positivity)
  have largest : ∃ k < 2 ^ (f.ew + f.fw), f.largest neg = f.signBit neg + k := by
    refine ⟨_, ?_, rfl⟩
    split <;> omega
  rw [Fmt.overflow_eq modes]
  generalize (f.ieee && _ : Bool) = infinite
  cases infinite
  · exact largest
  · exact ⟨_, le, rfl⟩

/-- The formats have a fraction and a finite exponent. -/
theorem format_sound : ∀ f ∈ [f32, f16, bf16, f8e4, f8e5, f6e3, f6e2, f4e2], 0 < f.fw ∧ 0 < f.top := by decide

/-- The value that a rounding gives where it does not overflow: the flags and, for each mode, the code that it asks for. -/
def Fmt.RightAt (f : Fmt) (mode code flags : Nat) (v x : ℚ) : Prop :=
  f.Finite code x ∧ flags = (if x = v then 0 else if |x| < Safety.ratOf false 1 (1 - f.bias) then 3 else 1) ∧
    (mode = 0 → ∀ c y, f.Finite c y → |v - x| ≤ |v - y| ∧ (|v - x| = |v - y| → x ≠ y → code % 2 = 0)) ∧
    (mode = 1 → |x| ≤ |v| ∧ ∀ c y, f.Finite c y → |y| ≤ |v| → |y| ≤ |x|) ∧
    (mode = 2 → x ≤ v ∧ ∀ c y, f.Finite c y → y ≤ v → y ≤ x) ∧
    (mode = 3 → v ≤ x ∧ ∀ c y, f.Finite c y → v ≤ y → x ≤ y)

section
variable {mode k : Nat} {neg up : Bool} {a : ℚ} (h : f.Chosen mode neg a k up) (ha : 0 ≤ a) (modes : mode < 4)
include h ha modes

theorem Fmt.Chosen.right (frac : 0 < f.fw) (lt : k + b2n up < f.codes) : f.RightAt mode (f.signBit neg + (k + b2n up))
    (if f.mag (k + b2n up) = a then 0 else if k + b2n up < 2 ^ f.fw then 3 else 1) (signOf neg * a)
    (signOf neg * f.mag (k + b2n up)) := by
  have finite := Fmt.finite_signBit neg lt
  have exact_ : signOf neg * f.mag (k + b2n up) = signOf neg * a ↔ f.mag (k + b2n up) = a :=
    mul_right_inj' (by cases neg <;> norm_num [signOf])
  have small : |signOf neg * f.mag (k + b2n up)| < Safety.ratOf false 1 (1 - f.bias) ↔ k + b2n up < 2 ^ f.fw := by
    rw [abs_signOf_mul neg (f.mag_nonneg _), ratOf_eq, signOf, if_neg Bool.false_ne_true, Nat.cast_one, one_mul, one_mul,
      ← f.mag_normal, f.mag_strictMono.lt_iff_lt]
  have even : (f.signBit neg + (k + b2n up)) % 2 = (k + b2n up) % 2 := by
    obtain ⟨n, hn⟩ := Nat.exists_eq_add_of_le' frac
    unfold Fmt.signBit
    cases neg
    · simp
    · rw [if_pos rfl, show f.ew + f.fw = f.ew + n + 1 by omega, pow_succ, Nat.mul_add_mod_self_right]
  refine ⟨finite, by simp only [exact_, small], fun zero c y hy => ?_, fun one => ?_, fun two => ?_, fun three => ?_⟩
  · rw [even]
    exact h.abs_sub_le ha rfl hy zero
  · exact ⟨(h.abs_le_abs ha rfl finite (h.toZero one)).1, fun c y hy => (h.abs_le_abs ha rfl hy (h.toZero one)).2⟩
  · exact ⟨(h.below ha rfl finite modes (h.down two)).1, fun c y hy => (h.below ha rfl hy modes (h.down two)).2⟩
  · exact ⟨(h.above ha rfl finite modes (h.up three)).1, fun c y hy => (h.above ha rfl hy modes (h.up three)).2⟩

omit ha in
/-- A value that overflows is beyond every finite one. -/
theorem Fmt.Chosen.beyond (past : f.codes ≤ k + b2n up) {c : Nat} {y : ℚ} (hy : f.Finite c y) : |y| < a := by
  obtain ⟨n, j, lt, rfl⟩ := hy.mag
  rw [abs_signOf_mul n (f.mag_nonneg j)]
  cases up with
  | false => exact (f.mag_strictMono (lt.trans_le past)).trans_le h.low
  | true => exact (f.mag_strictMono.monotone (Nat.le_of_lt_succ (lt.trans_le past))).trans_lt (h.inexact modes rfl)

end

/-- Settles O60: a rounding takes the greatest code that is not above the magnitude or the next one, as the mode asks. -/
theorem roundingIsRight : Obligations.RoundingIsRight := by
  unfold Obligations.RoundingIsRight
  intro f mem mode modes neg m e v r finite
  obtain ⟨frac, expo⟩ := format_sound f mem
  obtain ⟨k, up, h, eq⟩ := f.round_eq frac expo modes neg m e
  have ha : (0 : ℚ) ≤ m * 2 ^ e := by positivity
  rw [show r = _ from eq]
  rcases Nat.lt_or_ge (k + b2n up) f.codes with lt | past
  · rw [Fmt.result, if_neg (not_le.mpr lt)]
    obtain ⟨finite_, flags, right⟩ := h.right ha modes frac lt
    obtain ⟨bits, sign⟩ := f.signBit_lt neg (lt.trans_le f.codes_le)
    simp only [decide_not, Bool.not_eq_true', decide_eq_false_iff_not, ite_not]
    refine ⟨bits, sign, fun _ => ⟨_, finite_, flags, right⟩, fun yes => ?_⟩
    split at yes
    · cases yes
    · split at yes <;> cases yes
  · rw [Fmt.result, if_pos past]
    obtain ⟨c, lt, code⟩ := f.overflow_lt modes neg
    refine ⟨?_, ?_, fun no => absurd no (show ¬ 5 / 4 % 2 = 0 by decide), fun _ => ⟨rfl, fun c y hy => ?_, Fmt.overflow_eq modes f neg⟩⟩
    · exact code ▸ (Fmt.signBit_lt neg lt).1
    · exact code ▸ (Fmt.signBit_lt neg lt).2
    · exact (h.beyond modes past hy).trans_eq (abs_signOf_mul neg ha).symm

end Sys2Proof.Machine
end

section
/-! SUPPORT. The statements of lane arithmetic: LogicAndShifts, IntegerForms, FloatingArithmetic, FunctionsConversionsReductions. Every form
is the issue of one write of its context, so each clause is the shape of that write and the equation of its value. -/

namespace Sys2Proof.Safety

open Machine

section
variable {i : Instr}

/-! ## The shapes of a result -/

/-- A form whose effect is a lane result without flags. -/
theorem gives_lane {F val : Cx → Nat → Word} (e : ∀ s, exec i s = issue i s (fun c t => c.lane t (F c)))
    (v : ∀ s gid g p, F (ctx i s gid g p) = val (ctx i s gid g p)) : GivesLane i (fun _ => (view i).d) val :=
  givesLane_plain fun s gid g p h => ok_of (e s) (by rw [← v s gid g p]; rfl) h

/-- A form whose effect is a lane result with flags. -/
theorem gives_laneF {F val : Cx → Nat → Flagged} (e : ∀ s, exec i s = issue i s (fun c t => c.laneF t (F c)))
    (v : ∀ s gid g p, F (ctx i s gid g p) = val (ctx i s gid g p)) : GivesFlagged i (fun _ => (view i).d) val :=
  givesLane fun s gid g p h => ok_of (e s) (by rw [← v s gid g p]; rfl) h

/-- A form whose effect is a lane result of class V with flags. -/
theorem gives_laneV {F val : Cx → Nat → Flagged} (e : ∀ s, exec i s = issue i s (fun c t => c.laneV t (F c)))
    (v : ∀ s gid g p, F (ctx i s gid g p) = val (ctx i s gid g p)) : GivesFlagged i (fun _ => (view i).d) val :=
  givesLaneV fun s gid g p h => ok_of (e s) (by rw [← v s gid g p]; rfl) h

theorem allFlags_quiet {ls : List Nat} {F : Nat → Flagged} (quiet : ∀ l, (F l).2 = 0) : allFlags (ls.map F) = 0 := by
  induction ls with
  | nil => rfl
  | cons l ls ih =>
    show orFlags (F l).2 (allFlags (ls.map F)) = 0
    rw [ih, quiet]
    rfl

/-- A lane result of integers, which raises no flag. -/
theorem gives_laneF_quiet {F : Cx → Nat → Flagged} {val : Cx → Nat → Word}
    (e : ∀ s, exec i s = issue i s (fun c t => c.laneF t (F c)))
    (v : ∀ s gid g p l, F (ctx i s gid g p) l = ((val (ctx i s gid g p) l).toNat, 0)) : GivesLane i (fun _ => (view i).d) val :=
  givesLane fun s gid g p h => ok_of (e s) (by
    have flags : allFlags ((ctx i s gid g p).lanes.map (F (ctx i s gid g p))) = 0 :=
      allFlags_quiet fun l => by rw [v]
    have value : (fun l => BitVec.ofNat 32 (F (ctx i s gid g p) l).1) = val (ctx i s gid g p) := by
      funext l
      rw [v, BitVec.ofNat_toNat, BitVec.setWidth_eq]
    rw [Cx.laneF, flags, value]
    rfl) h

/-! ## Words as numbers -/

theorem shiftOf_eq (b : Word) : shiftOf b = (b.extractLsb' 0 5).toNat := by
  simp [shiftOf, BitVec.extractLsb'_toNat]

theorem sext_word (w : Word) : sext 32 w.toNat = w.toInt := sext_toNat (by decide) w

theorem wrap_eq (n : Nat) (x : Int) : wrap n x = (BitVec.ofInt n x).toNat := by
  rw [BitVec.toNat_ofInt, wrap]
  push_cast
  rfl

theorem w32_toNat (w : Word) : w32 w.toNat = w := by rw [w32, BitVec.ofNat_toNat, BitVec.setWidth_eq]

/-- A choice by the signed or the unsigned order. -/
theorem pickInt_signed (lo : Bool) (a b : Word) :
    pickInt true lo a.toNat b.toNat = (if a.toInt ≤ b.toInt then cond lo a b else cond lo b a).toNat := by
  unfold pickInt
  simp only [if_true, sext_word]
  cases lo <;> by_cases h : a.toInt ≤ b.toInt <;> simp [h]

theorem pickInt_unsigned (lo : Bool) (a b : Word) :
    pickInt false lo a.toNat b.toNat = (if a.toNat ≤ b.toNat then cond lo a b else cond lo b a).toNat := by
  unfold pickInt
  cases lo <;> by_cases h : a.toNat ≤ b.toNat <;> simp [h]

theorem addN_eq (a b : Word) : addN a.toNat b.toNat % 2 ^ 32 = (a + b).toNat := (BitVec.toNat_add ..).symm

theorem subN_eq (a b : Word) : subN a.toNat b.toNat % 2 ^ 32 = (a - b).toNat := by
  have := b.isLt
  rw [BitVec.toNat_sub, subN]
  congr 1
  omega

theorem mulN_eq (a b : Word) : mulN a.toNat b.toNat % 2 ^ 32 = (a * b).toNat := (BitVec.toNat_mul ..).symm

theorem fmaN_eq (a b d : Word) : (a.toNat * b.toNat + d.toNat) % 2 ^ 32 = (a * b + d).toNat := by
  rw [BitVec.toNat_add, BitVec.toNat_mul, Nat.mod_add_mod]

section
variable {x : BitVec 2} {ftz lo : Bool} {rm a b d : Nat} {iop : Nat → Nat → Nat} {fop : Fmt → Bool → Nat → Nat → Nat → Flagged}

theorem typed2_i32 (h : x = 0) : typed2 iop fop ftz rm x.toNat a b = (iop a b % 2 ^ 32, 0) := by subst h; rfl

theorem fmaX_i32 (h : x = 3) : fmaX ftz rm x.toNat a b d = ((a * b + d) % 2 ^ 32, 0) := by subst h; rfl

theorem minmaxX_i32 (h : x = 0) : minmaxX ftz lo x.toNat a b = (pickInt true lo a b, 0) := by subst h; rfl

theorem minmaxX_n32 (h : x = 1) : minmaxX ftz lo x.toNat a b = (pickInt false lo a b, 0) := by subst h; rfl

end

/-! ## Immediates -/

variable {s : State} {gid : Nat} {g : Group} {p : Split}

/-- The sign-extended immediate of a form of layout RI. -/
theorem simm_eq {f : RI} (imm : (view i).imm = f.i.toNat) : w32 (ctx i s gid g p).simm = f.i.signExtend 32 := by
  show w32 (wrap 32 (sext 16 (view i).imm)) = _
  rw [imm, sext_toNat (by decide), wrap_eq, w32_toNat]
  rfl

theorem append_halves (hi lo : BitVec 16) : w32 (hi.toNat * 65536 + lo.toNat) = hi ++ lo := by
  have := hi.isLt
  have := lo.isLt
  apply BitVec.eq_of_toNat_eq
  rw [BitVec.toNat_append, ← Nat.shiftLeft_add_eq_or_of_lt lo.isLt, Nat.shiftLeft_eq, w32, BitVec.toNat_ofNat]
  omega

end

/-! ## Reductions over the active lanes (R313) -/

theorem w32_sum (ws : List Word) : w32 ((ws.map BitVec.toNat).foldr (· + ·) 0 % 2 ^ 32) = ws.sum := by
  have mod (n : Nat) : w32 (n % 2 ^ 32) = w32 n := BitVec.eq_of_toNat_eq (by simp [w32])
  rw [mod]
  induction ws with
  | nil => rfl
  | cons w ws ih => rw [List.map_cons, List.foldr_cons, List.sum_cons, w32, BitVec.ofNat_add, ← ih, w32, BitVec.ofNat_toNat,
      BitVec.setWidth_eq]

/-- The lower or the higher of two signed words. -/
def pick (lo : Bool) (a b : Word) : Word := if a.toInt ≤ b.toInt then cond lo a b else cond lo b a

theorem foldr_pickInt (lo : Bool) (z : Word) (ws : List Word) :
    (ws.map BitVec.toNat).foldr (pickInt true lo) z.toNat = (ws.foldr (pick lo) z).toNat := by
  induction ws with
  | nil => rfl
  | cons w ws ih => rw [List.map_cons, List.foldr_cons, ih, pickInt_signed]; rfl

/-- Choosing in turn gives one of the words, which bounds them all. -/
theorem foldr_pick (lo : Bool) (z : Word) (ws : List Word) : ws.foldr (pick lo) z ∈ z :: ws ∧
    ∀ w ∈ z :: ws, cond lo ((ws.foldr (pick lo) z).toInt ≤ w.toInt) (w.toInt ≤ (ws.foldr (pick lo) z).toInt) := by
  induction ws with
  | nil => cases lo <;> simp
  | cons v ws ih =>
    obtain ⟨mem, bound⟩ := ih
    rw [List.foldr_cons]
    generalize ws.foldr (pick lo) z = r at mem bound
    have chosen : (pick lo v r = v ∨ pick lo v r = r) ∧ cond lo ((pick lo v r).toInt ≤ v.toInt) (v.toInt ≤ (pick lo v r).toInt) ∧
        cond lo ((pick lo v r).toInt ≤ r.toInt) (r.toInt ≤ (pick lo v r).toInt) := by
      unfold pick
      by_cases le : v.toInt ≤ r.toInt <;> cases lo <;> simp [le] <;> omega
    obtain ⟨one, leV, leR⟩ := chosen
    generalize pick lo v r = q at one leV leR
    constructor
    · rcases one with rfl | rfl
      · simp
      · simp only [List.mem_cons] at mem ⊢
        exact mem.imp_right .inr
    · intro w hw
      simp only [List.mem_cons] at hw bound
      rcases hw with rfl | rfl | hw
      · cases lo
        · exact (bound w (.inl rfl)).trans leR
        · exact leR.trans (bound w (.inl rfl))
      · exact leV
      · cases lo
        · exact (bound w (.inr hw)).trans leR
        · exact leR.trans (bound w (.inr hw))

section
variable {x : BitVec 2} (h : 2 ≤ x.toNat)
include h

theorem gredX_eq (ftz : Bool) (rm : Nat) (ns : List Nat) :
    gredX ftz rm x.toNat ns = (ns.foldr (pickInt true (decide (x ≠ 2))) (ns.headD 0), 0) := by
  have lt := x.isLt
  obtain two | three : x = 2 ∨ x = 3 := by
    rcases Nat.lt_or_ge x.toNat 3 with low | high
    · exact .inl (BitVec.eq_of_toNat_eq (show x.toNat = 2 by omega))
    · exact .inr (BitVec.eq_of_toNat_eq (show x.toNat = 3 by omega))
  · subst two; rfl
  · subst three; rfl

theorem gredX_quiet {ftz : Bool} {rm : Nat} {ns : List Nat} : (gredX ftz rm x.toNat ns).2 = 0 := by rw [gredX_eq h]

omit h in
theorem lanes_ne_nil (c : Cx) (active : c.mask ≠ 0) : c.lanes ≠ [] := fun none_ =>
  active (BitVec.eq_of_getLsbD_eq fun l _ => by
    have inactive := mt (mem_lanes c l).mpr (by rw [none_]; exact List.not_mem_nil)
    rw [Bool.eq_false_iff.mpr inactive]
    simp)

/-- The reduction gives the value of an active lane, which bounds those of all active lanes. -/
theorem gredX_extreme (c : Cx) {n : Nat} (active : c.mask ≠ 0) : ∃ l, c.mask.getLsbD l = true ∧
    w32 (gredX c.ftz c.rm x.toNat ((c.lanes.map (c.v n)).map BitVec.toNat)).1 = c.v n l ∧
    ∀ k, c.mask.getLsbD k = true → if x = 2 then (c.v n k).toInt ≤ (c.v n l).toInt else (c.v n l).toInt ≤ (c.v n k).toInt := by
  obtain ⟨j, js, lanes⟩ : ∃ j js, c.lanes = j :: js := List.exists_cons_of_ne_nil (lanes_ne_nil c active)
  obtain ⟨mem, bound⟩ := foldr_pick (decide (x ≠ 2)) (c.v n j) (c.lanes.map (c.v n))
  have mem' : (c.lanes.map (c.v n)).foldr (pick (decide (x ≠ 2))) (c.v n j) ∈ c.lanes.map (c.v n) := by
    rcases List.mem_cons.mp mem with eq | mem
    · rw [eq, lanes]
      exact List.mem_cons_self
    · exact mem
  obtain ⟨l, hl, value⟩ := List.mem_map.mp mem'
  refine ⟨l, (mem_lanes c l).mp hl, ?_, fun k hk => ?_⟩
  · have head : ((c.lanes.map (c.v n)).map BitVec.toNat).headD 0 = (c.v n j).toNat := by rw [lanes]; rfl
    rw [gredX_eq h, head, foldr_pickInt, w32_toNat, value]
  · have le := bound (c.v n k) (List.mem_cons_of_mem _ (List.mem_map_of_mem ((mem_lanes c k).mpr hk)))
    rw [← value] at le
    by_cases two : x = 2
    · simpa [two] using le
    · simpa [two] using le

end

/-- gred writes one group-scalar register. -/
theorem gives_gred {f : RG} {val : Cx → Word} {fl : Cx → Nat}
    (v : ∀ s gid g p, Issues (.gred f) s gid g p → let c := ctx (.gred f) s gid g p
      let r := gredX c.ftz c.rm f.x.toNat ((c.lanes.map (c.v f.a.toNat)).map BitVec.toNat)
      w32 r.1 = val c ∧ r.2 = fl c) : GivesScalar (.gred f) (fun _ => f.d.toNat) val fl :=
  givesScalarV fun s gid g p h => ok_of (show exec (.gred f) s = execGred f s from rfl) (by
    have one := (v s gid g p h).1
    have two := (v s gid g p h).2
    rw [List.map_map] at one two
    rw [← one, ← two]
    rfl) h

/-- Settles O1: each form writes its lanes once, and a shift count is the low five bits of b. -/
theorem logicAndShifts : Obligations.LogicAndShifts := by
  refine ⟨fun f => ?_, fun f => ?_, fun f => ?_, fun f => ?_, fun f => ?_, fun f => ?_, fun f => ?_, fun f => ?_, fun f => ?_,
    fun f => ?_, fun f => ?_, fun f => ?_, fun f => ?_⟩
  · exact gives_lane (fun _ => rfl) fun _ _ _ _ => rfl
  · exact gives_lane (fun _ => rfl) fun _ _ _ _ => rfl
  · exact gives_lane (fun _ => rfl) fun _ _ _ _ => rfl
  · exact gives_lane (fun _ => rfl) fun _ _ _ _ => rfl
  · exact gives_lane (fun _ => rfl) fun _ _ _ _ => funext fun l => congrArg (_ <<< ·) (shiftOf_eq _)
  · exact gives_lane (fun _ => rfl) fun _ _ _ _ => funext fun l => congrArg (_ >>> ·) (shiftOf_eq _)
  · exact gives_lane (fun _ => rfl) fun _ _ _ _ => funext fun l => congrArg (BitVec.sshiftRight _) (shiftOf_eq _)
  · exact gives_lane (fun _ => rfl) fun _ _ _ _ => funext fun l => congrArg (BitVec.rotateLeft _) (shiftOf_eq _)
  · exact gives_lane (fun _ => rfl) fun _ _ _ _ => rfl
  · exact gives_lane (fun _ => rfl) fun _ _ _ _ => rfl
  · exact gives_lane (fun _ => rfl) fun _ _ _ _ => rfl
  · exact gives_lane (fun _ => rfl) fun _ _ _ _ => funext fun l => congrArg (_ <<< ·) (shiftOf_eq _)
  · exact gives_lane (fun _ => rfl) fun _ _ _ _ => funext fun l => congrArg (_ >>> ·) (shiftOf_eq _)

/-- Settles O3: each form writes its lanes once and raises the flags of its lanes, with the values of the number formats. -/
theorem floatingArithmetic : Obligations.FloatingArithmetic := by
  refine ⟨fun f _ => ?_, fun f _ => ?_, fun f _ => ?_, fun f _ => ?_, fun f _ => ?_, fun f _ => ?_, fun f => ?_, fun f => ?_,
    fun f => ?_, fun f => ?_, fun f => ?_, fun f => ?_, fun f => ?_, fun f => ?_, fun f => ?_, fun f => ?_, fun f => ?_, fun f => ?_⟩
  · exact gives_laneF (fun _ => rfl) fun _ _ _ _ => rfl
  · exact gives_laneF (fun _ => rfl) fun _ _ _ _ => rfl
  · exact gives_laneF (fun _ => rfl) fun _ _ _ _ => rfl
  · exact gives_laneF (fun _ => rfl) fun _ _ _ _ => rfl
  · exact gives_laneF (fun _ => rfl) fun _ _ _ _ => rfl
  · exact gives_laneF (fun _ => rfl) fun _ _ _ _ => rfl
  · exact gives_laneF (fun _ => rfl) fun _ _ _ _ => rfl
  · exact gives_laneF (fun _ => rfl) fun _ _ _ _ => rfl
  · exact gives_laneF (fun _ => rfl) fun _ _ _ _ => rfl
  · exact gives_laneF (fun _ => rfl) fun _ _ _ _ => rfl
  · exact gives_laneF (fun _ => rfl) fun _ _ _ _ => rfl
  · exact gives_laneF (fun _ => rfl) fun _ _ _ _ => rfl
  · exact gives_laneF (fun _ => rfl) fun _ _ _ _ => rfl
  · exact gives_laneF (fun _ => rfl) fun _ _ _ _ => rfl
  · exact gives_laneF (fun _ => rfl) fun _ _ _ _ => rfl
  · exact gives_laneF (fun _ => rfl) fun _ _ _ _ => rfl
  · exact gives_laneF (fun _ => rfl) fun _ _ _ _ => rfl
  · exact gives_laneF (fun _ => rfl) fun _ _ _ _ => rfl

/-- Settles O2: each integer form writes its lanes once, its value the word of a sum, difference or product. -/
theorem integerForms : Obligations.IntegerForms := by
  have quiet : ∀ {a b : Nat}, a = b → ((a, 0) : Flagged) = (b, 0) := fun h => h ▸ rfl
  refine ⟨⟨fun f x => ?_, fun f x => ?_, fun f x => ?_, fun f x => ?_, fun f x => ?_, fun f x => ?_, fun f x => ?_, fun f x => ?_,
    fun f => ?_, fun f => ?_, fun f => ?_, fun f => ?_, fun f => ?_⟩, fun f => ?_, fun f => ?_, fun f => ?_, fun f => ?_,
    fun f => ?_, fun f => ?_, fun f => ?_, fun f => ?_, fun f => ?_, fun f => ?_⟩
  · exact gives_laneF_quiet (fun _ => rfl) fun _ _ _ _ _ => (typed2_i32 x).trans (quiet (addN_eq ..))
  · exact gives_laneF_quiet (fun _ => rfl) fun _ _ _ _ _ => (typed2_i32 x).trans (quiet (subN_eq ..))
  · exact gives_laneF_quiet (fun _ => rfl) fun _ _ _ _ _ => (typed2_i32 x).trans (quiet (mulN_eq ..))
  · exact gives_laneF_quiet (fun _ => rfl) fun _ _ _ _ _ => (fmaX_i32 x).trans (quiet (fmaN_eq ..))
  · exact gives_laneF_quiet (fun _ => rfl) fun _ _ _ _ _ => (minmaxX_i32 x).trans (quiet (pickInt_signed ..))
  · exact gives_laneF_quiet (fun _ => rfl) fun _ _ _ _ _ => (minmaxX_n32 x).trans (quiet (pickInt_unsigned ..))
  · exact gives_laneF_quiet (fun _ => rfl) fun _ _ _ _ _ => (minmaxX_i32 x).trans (quiet (pickInt_signed ..))
  · exact gives_laneF_quiet (fun _ => rfl) fun _ _ _ _ _ => (minmaxX_n32 x).trans (quiet (pickInt_unsigned ..))
  · exact gives_lane (fun _ => rfl) fun _ _ _ _ => rfl
  · exact gives_laneF_quiet (fun _ => rfl) fun _ _ _ _ _ => quiet (addN_eq ..)
  · exact gives_laneF_quiet (fun _ => rfl) fun _ _ _ _ _ => quiet (subN_eq ..)
  · exact gives_laneF_quiet (fun _ => rfl) fun _ _ _ _ _ => quiet (mulN_eq ..)
  · exact gives_laneF_quiet (fun _ => rfl) fun _ _ _ _ _ => quiet (pickInt_signed ..)
  · exact gives_lane (fun _ => rfl) fun _ _ _ _ => funext fun _ => simm_eq rfl
  · refine gives_lane (fun _ => rfl) fun s gid g p => funext fun l => ?_
    refine Eq.trans ?_ (append_halves ..)
    rw [BitVec.extractLsb'_toNat, Nat.shiftRight_zero]
    rfl
  · refine gives_lane (fun _ => rfl) fun s gid g p => funext fun l => ?_
    exact (BitVec.ofNat_add ..).trans (congrArg₂ (· + ·) (w32_toNat _) (simm_eq rfl))
  · refine gives_lane (fun _ => rfl) fun s gid g p => funext fun l => ?_
    exact (BitVec.ofNat_mul ..).trans (congrArg₂ (· * ·) (w32_toNat _) (simm_eq rfl))
  · exact gives_lane (fun _ => rfl) fun _ _ _ _ => funext fun _ => congrArg (_ &&& ·) (BitVec.ofNat_toNat ..)
  · exact gives_lane (fun _ => rfl) fun _ _ _ _ => funext fun _ => congrArg (_ ||| ·) (BitVec.ofNat_toNat ..)
  · exact gives_lane (fun _ => rfl) fun _ _ _ _ => funext fun _ => congrArg (_ ^^^ ·) (BitVec.ofNat_toNat ..)
  · refine gives_lane (fun _ => rfl) fun s gid g p => funext fun l => ?_
    have count : shiftOf (w32 f.i.toNat) = (f.i.extractLsb' 0 5).toNat := by
      rw [shiftOf, w32, BitVec.toNat_ofNat, BitVec.extractLsb'_toNat, Nat.shiftRight_zero]
      omega
    rw [← count]
    rfl
  · exact gives_lane (fun _ => rfl) fun _ _ _ _ => funext fun _ =>
      (congrArg w32 (show f.i.toNat * 65537 = f.i.toNat * 65536 + f.i.toNat by omega)).trans (append_halves ..)
  · exact gives_lane (fun _ => rfl) fun _ _ _ _ => funext fun _ =>
      (congrArg w32 (show f.i.toNat * 65537 = f.i.toNat * 65536 + f.i.toNat by omega)).trans (append_halves ..)

/-- Settles O4: each form writes its result once, with the values of the number formats; the greatest and the least are found by
comparing in turn. -/
theorem functionsConversionsReductions : Obligations.FunctionsConversionsReductions := by
  refine ⟨⟨fun f => ?_, fun f => ?_, fun f => ?_, fun f => ?_, fun f => ?_, fun f => ?_, fun f => ?_, fun f => ?_, fun f => ?_,
    fun f => ?_, fun f => ?_, fun f => ?_⟩, fun f x => ?_, fun f x => ?_, fun f x => ?_⟩
  · exact gives_laneV (fun _ => rfl) fun _ _ _ _ => rfl
  · exact gives_laneV (fun _ => rfl) fun _ _ _ _ => rfl
  · exact gives_laneV (fun _ => rfl) fun _ _ _ _ => rfl
  · exact gives_laneV (fun _ => rfl) fun _ _ _ _ => rfl
  · exact gives_laneV (fun _ => rfl) fun _ _ _ _ => rfl
  · exact gives_laneV (fun _ => rfl) fun _ _ _ _ => rfl
  · exact gives_laneV (fun _ => rfl) fun _ _ _ _ => rfl
  · exact gives_laneV (fun _ => rfl) fun _ _ _ _ => rfl
  · exact gives_laneF (fun _ => rfl) fun _ _ _ _ => rfl
  · exact gives_laneF (fun _ => rfl) fun _ _ _ _ => rfl
  · exact gives_laneF (fun _ => rfl) fun _ _ _ _ => rfl
  · exact gives_laneF (fun _ => rfl) fun _ _ _ _ => rfl
  · refine gives_gred fun s gid g p h => ?_
    rw [x]
    exact ⟨w32_sum _, rfl⟩
  · refine gives_gred fun s gid g p h => ?_
    dsimp only
    rw [x, List.map_map]
    exact ⟨rfl, rfl⟩
  · intro s gid g p h active
    obtain ⟨t, run, holds, flags, regs, goes⟩ := gives_gred (f := f)
      (val := fun c => w32 (gredX c.ftz c.rm f.x.toNat ((c.lanes.map (c.v f.a.toNat)).map BitVec.toNat)).1)
      (fl := fun c => (gredX c.ftz c.rm f.x.toNat ((c.lanes.map (c.v f.a.toNat)).map BitVec.toNat)).2)
      (fun _ _ _ _ _ => ⟨rfl, rfl⟩) s gid g p h
    refine ⟨t, run, ?_, ?_, regs, goes⟩
    · obtain ⟨l, mem, value, bound⟩ := gredX_extreme (n := f.a.toNat) x (ctx (.gred f) s gid g p) active
      dsimp only at holds
      rw [value] at holds
      exact ⟨l, mem, holds, bound⟩
    · dsimp only at flags
      rw [FlagsRaised, gredX_quiet x] at flags
      simpa using flags

end Sys2Proof.Safety
end

section
/-! SUPPORT. The statement SelectAndBits: selection, byte dot products, bit operations, bit fields and byte permutation, each as a
function of words. -/

namespace Sys2Proof.Safety

open Machine

/-! ## Bytes (R306, R310) -/

theorem elem_byte (w : Word) (i : Nat) : elem 8 w.toNat i = (w.extractLsb' (8 * i) 8).toNat := by
  rw [BitVec.extractLsb'_toNat, Nat.shiftRight_eq_div_pow]
  rfl

theorem byteOf_eq (signed : Bool) (w : Word) (i : Nat) :
    byteOf signed w i = if signed then sext 8 (elem 8 w.toNat i) else (elem 8 w.toNat i : Int) := by
  rw [elem_byte, sext_toNat (by decide)]
  rfl

theorem dp4X_eq (x : BitVec 2) (a b d : Word) : dp4X x.toNat a.toNat b.toNat d.toNat = BitVec.ofInt 32 (d.toNat +
    ((List.range 4).map (fun i => byteOf (x == 0 || x == 2) a i * byteOf (x == 0 || x == 1) b i)).sum) := by
  have named (k : BitVec 2) : (x == k) = decide (x.toNat = k.toNat) := by
    rw [beq_eq_decide, decide_eq_decide, BitVec.toNat_inj]
  have four (F : Nat → Int) : ((List.range 4).map F).sum = F 0 + F 1 + F 2 + F 3 := by
    simp [List.range_succ, add_assoc]
  simp only [dp4X, four, byteOf_eq, named]
  rfl

theorem permByte_eq (a : Word) (c : BitVec 4) : permByte a.toNat c.toNat = (permPick a c).toNat := by
  have low : c.toNat % 4 = (c.extractLsb' 0 2).toNat := by rw [BitVec.extractLsb'_toNat, Nat.shiftRight_zero]
  have high : c.toNat / 4 % 4 = (c.extractLsb' 2 2).toNat := by rw [BitVec.extractLsb'_toNat, Nat.shiftRight_eq_div_pow]
  unfold permByte permPick
  rw [low, high, elem_byte]
  generalize a.extractLsb' _ 8 = y
  generalize c.extractLsb' 2 2 = k
  obtain rfl | rfl | rfl | rfl : k = 0 ∨ k = 1 ∨ k = 2 ∨ k = 3 := by revert k; decide
  · rfl
  · rfl
  · show (if 128 ≤ y.toNat then 255 else 0) = (if y.msb then (0xFF : BitVec 8) else 0).toNat
    rw [BitVec.msb_eq_decide]
    by_cases h : 128 ≤ y.toNat <;> simp [h]
  · rfl

theorem toNat_append_byte {n : Nat} (hi : BitVec n) (lo : BitVec 8) : (hi ++ lo).toNat = hi.toNat * 256 + lo.toNat := by
  rw [BitVec.toNat_append, ← Nat.shiftLeft_add_eq_or_of_lt lo.isLt, Nat.shiftLeft_eq]

theorem permX_eq (a b : Word) : w32 (permX a.toNat b.toNat) = permPick a (b.extractLsb' 12 4) ++ permPick a (b.extractLsb' 8 4) ++
    permPick a (b.extractLsb' 4 4) ++ permPick a (b.extractLsb' 0 4) := by
  have nibble (i : Nat) : elem 4 b.toNat i = (b.extractLsb' (4 * i) 4).toNat := by
    rw [BitVec.extractLsb'_toNat, Nat.shiftRight_eq_div_pow]
    rfl
  apply BitVec.eq_of_toNat_eq
  simp only [permX, nibble, permByte_eq, toNat_append_byte, w32, Nat.mul_zero, Nat.mul_one, Nat.reduceMul, BitVec.toNat_ofNat]
  have := (permPick a (b.extractLsb' 0 4)).isLt
  have := (permPick a (b.extractLsb' 4 4)).isLt
  have := (permPick a (b.extractLsb' 8 4)).isLt
  have := (permPick a (b.extractLsb' 12 4)).isLt
  omega

/-! ## Bits (R308) -/

theorem nbit_word (a : Word) : nbit a.toNat = fun i => a.getLsbD i := funext (nbit_toNat a)

theorem popcN_eq (a : Word) : popcN a.toNat = (List.range 32).countP (fun i => a.getLsbD i) := by
  rw [popcN, nbit_word, List.countP_eq_length_filter]

theorem ffsN_eq (a : Word) : ffsN a.toNat = ((List.range 32).find? (fun i => a.getLsbD i)).getD 32 := by rw [ffsN, nbit_word]

theorem clzN_eq (a : Word) : w32 (clzN a.toNat) = if a = 0 then 32 else BitVec.ofNat 32 (31 - Nat.log2 a.toNat) := by
  by_cases zero : a = 0
  · subst zero; rfl
  · rw [if_neg zero, clzN, if_neg (show a.toNat ≠ 0 from fun n => zero (BitVec.eq_of_toNat_eq n))]
    rfl

/-- The sum that reverses a word is the sum that a lane mask is made of, from its other end. -/
theorem brevN_eq (a : Word) : w32 (brevN a.toNat) = a.reverse := by
  have mask : w32 (brevN a.toNat) = maskWhere (fun l => a.getLsbD (31 - l)) := by
    refine congrArg (BitVec.ofNat 32) ?_
    rw [brevN, nbit_word, ← (List.reverse_perm (List.range 32)).foldr_eq (lcomm := ⟨fun _ _ _ => by omega⟩),
      show (List.range 32).reverse = (List.range 32).map (31 - ·) from rfl, List.foldr_map]
    refine List.foldr_ext _ _ _ fun i hi r => ?_
    have := List.mem_range.mp hi
    dsimp only
    rw [show 31 - (31 - i) = i by omega]
  rw [mask]
  refine BitVec.eq_of_getLsbD_eq fun l hl => ?_
  rw [maskWhere_getLsbD, BitVec.getLsbD_reverse, BitVec.getMsbD_eq_getLsbD]

/-! ## Bit fields (R309) -/

/-- The position and the length of the field that a word names. -/
def posOf (b : Word) : Nat := (b.extractLsb' 0 5).toNat
def lenOf (b : Word) : Nat := min (b.extractLsb' 8 6).toNat (32 - posOf b)

theorem fieldPos_eq (b : Word) : fieldPos b.toNat = posOf b := by
  rw [posOf, BitVec.extractLsb'_toNat, Nat.shiftRight_zero]
  rfl

theorem fieldLen_eq (b : Word) : fieldLen b.toNat = lenOf b := by
  rw [fieldLen, fieldPos_eq, lenOf, BitVec.extractLsb'_toNat, Nat.shiftRight_eq_div_pow]

theorem bfeX_eq (signed : Bool) (a b : Word) : w32 (bfeX signed a.toNat b.toNat) =
    if signed then (a.extractLsb' (posOf b) (lenOf b)).signExtend 32 else (a.extractLsb' (posOf b) (lenOf b)).setWidth 32 := by
  rw [bfeX, fieldPos_eq, fieldLen_eq]
  generalize posOf b = pos
  generalize lenOf b = len
  have field : a.toNat / 2 ^ pos % 2 ^ len = (a.extractLsb' pos len).toNat := by
    rw [BitVec.extractLsb'_toNat, Nat.shiftRight_eq_div_pow]
  rw [field]
  generalize a.extractLsb' pos len = x
  rcases Nat.eq_zero_or_pos len with rfl | pos
  · have none_ : x = 0 := Subsingleton.elim ..
    subst none_
    cases signed <;> rfl
  · rw [if_neg (by omega)]
    cases signed
    · exact BitVec.ofNat_toNat ..
    · show w32 (wrap 32 (sext len x.toNat)) = x.signExtend 32
      rw [sext_toNat pos, wrap_eq, w32_toNat]
      rfl

theorem bfiX_eq (a b d : Word) : w32 (bfiX a.toNat b.toNat d.toNat) =
    let m := ((BitVec.allOnes (lenOf b)).setWidth 32) <<< posOf b
    (d &&& ~~~m) ||| ((a <<< posOf b) &&& m) := by
  rw [bfiX, fieldPos_eq, fieldLen_eq]
  generalize posOf b = pos
  generalize lenOf b = len
  refine BitVec.eq_of_getLsbD_eq fun i hi => ?_
  have layers : d.toNat % 2 ^ pos + a.toNat % 2 ^ len * 2 ^ pos + d.toNat / 2 ^ (pos + len) * 2 ^ (pos + len) =
      2 ^ pos * (2 ^ len * (d.toNat / 2 ^ (pos + len)) + a.toNat % 2 ^ len) + d.toNat % 2 ^ pos := by ring
  have bits (w : Word) (j : Nat) : w.toNat.testBit j = w.getLsbD j := rfl
  dsimp only
  rw [layers, w32, BitVec.getLsbD_ofNat, Nat.testBit_two_pow_mul_add _ (Nat.mod_lt _ (by positivity)),
    Nat.testBit_two_pow_mul_add _ (Nat.mod_lt _ (by positivity)), Nat.testBit_mod_two_pow, Nat.testBit_mod_two_pow,
    Nat.testBit_div_two_pow, bits, bits, bits]
  simp only [BitVec.getLsbD_or, BitVec.getLsbD_and, BitVec.getLsbD_not, BitVec.getLsbD_shiftLeft, BitVec.getLsbD_setWidth,
    BitVec.getLsbD_allOnes, hi, decide_true, Bool.true_and]
  by_cases below : i < pos
  · simp [below]
  · by_cases inside : i - pos < len
    · simp [below, inside, show i - pos < 32 by omega]
    · simp [below, inside, show i - pos - len + (pos + len) = i by omega]

/-- Settles O5: each form writes its lanes once, its value a function of the words of the lane. -/
theorem selectAndBits : Obligations.SelectAndBits := by
  refine ⟨fun f => ?_, fun f => ?_, fun f => ?_, fun f => ?_, fun f => ?_, fun f => ?_, fun f small => ?_, fun f => ?_, fun f => ?_⟩
  · exact gives_lane (fun _ => rfl) fun _ _ _ _ => rfl
  · exact gives_lane (fun _ => rfl) fun _ _ _ _ => funext fun _ => dp4X_eq ..
  · exact gives_lane (fun _ => rfl) fun _ _ _ _ => funext fun _ => congrArg w32 (popcN_eq _)
  · exact gives_lane (fun _ => rfl) fun _ _ _ _ => funext fun _ => clzN_eq _
  · exact gives_lane (fun _ => rfl) fun _ _ _ _ => funext fun _ => brevN_eq _
  · exact gives_lane (fun _ => rfl) fun _ _ _ _ => funext fun _ => congrArg w32 (ffsN_eq _)
  · refine gives_lane (fun _ => rfl) fun s gid g p => funext fun l => (bfeX_eq ..).trans ?_
    have signed : (((ctx (.bfe f) s gid g p).vw.x == 0) = true) = (f.x = 0) := propext
      (beq_iff_eq.trans (BitVec.toNat_inj (y := 0#2)))
    simp only [signed]
    rfl
  · exact gives_lane (fun _ => rfl) fun _ _ _ _ => funext fun _ => bfiX_eq ..
  · exact gives_lane (fun _ => rfl) fun _ _ _ _ => funext fun _ => permX_eq ..

end Sys2Proof.Safety
end

section
/-! SUPPORT. The statements CrossLaneForms, ScalarForms, WideForms and PredicateForms: each form is the issue of one write of its
context, and each value an equation of words. -/

namespace Sys2Proof.Safety

open Machine

section
variable {i : Instr}

/-! ## The shapes of a result -/

/-- A form whose effect is a predicate with flags. -/
theorem gives_predF {F : Cx → Nat → Bool × Nat} {val : Cx → Nat → Bool} {fl : Cx → Nat}
    (e : ∀ s, exec i s = issue i s (fun c t => c.predF t (F c)))
    (v : ∀ s gid g p l, (F (ctx i s gid g p) l).1 = val (ctx i s gid g p) l)
    (flags : ∀ s gid g p, let c := ctx i s gid g p
      (c.lanes.map (F c)).foldr (fun x a => orFlags x.2 a) 0 = fl c) : GivesPred i (fun _ => (view i).d) val fl :=
  givesPred fun s gid g p h => ok_of (e s) (by
    rw [Cx.predF, flags, show (fun l => (F (ctx i s gid g p) l).1) = _ from funext (v s gid g p)]
    rfl) h

/-- A form whose effect is a predicate without flags. -/
theorem gives_pred {F val : Cx → Nat → Bool} (e : ∀ s, exec i s = issue i s (fun c t => .ok (c.writeP t c.vw.d (F c))))
    (v : ∀ s gid g p l, F (ctx i s gid g p) l = val (ctx i s gid g p) l) : GivesPred i (fun _ => (view i).d) val :=
  givesPred_plain fun s gid g p h => ok_of (e s) (by
    rw [show F (ctx i s gid g p) = _ from funext (v s gid g p)]
    rfl) h

/-- A form whose effect is a group-scalar result. -/
theorem gives_scalar {F val : Cx → Word} (e : ∀ s, exec i s = issue i s (fun c t => c.scalar t (F c)))
    (v : ∀ s gid g p, F (ctx i s gid g p) = val (ctx i s gid g p)) : GivesScalar i (fun _ => (view i).d) val :=
  givesScalar_plain fun s gid g p h => ok_of (e s) (by
    rw [v]
    rfl) h

/-- A form whose effect is a lane pair. -/
theorem gives_lanePair {F val : Cx → Nat → DWord} (e : ∀ s, exec i s = issue i s (fun c t => .ok (c.writeVp t c.vw.d (F c))))
    (v : ∀ s gid g p l, F (ctx i s gid g p) l = val (ctx i s gid g p) l) : GivesLanePair i (fun _ => (view i).d) val :=
  givesLanePair fun s gid g p h => ok_of (e s) (by
    rw [show F (ctx i s gid g p) = _ from funext (v s gid g p)]
    rfl) h

end

/-! ## Comparisons (R304) -/

/-- The four relations on integers, chosen by X. -/
theorem relInt_eq (x : BitVec 2) (a b : Int) : relInt x.toNat a b =
    if x = 0 then a == b else if x = 1 then a != b else if x = 2 then decide (a < b) else decide (a ≤ b) := by
  obtain rfl | rfl | rfl | rfl : x = 0 ∨ x = 1 ∨ x = 2 ∨ x = 3 := by revert x; decide
  all_goals rfl

theorem relNat_eq (x : BitVec 2) (a b : Nat) : relNat x.toNat a b =
    if x = 0 then decide (a < b) else if x = 1 then decide (a ≤ b) else if x = 2 then decide (b < a) else decide (b ≤ a) := by
  obtain rfl | rfl | rfl | rfl : x = 0 ∨ x = 1 ∨ x = 2 ∨ x = 3 := by revert x; decide
  all_goals rfl

theorem rel_eq (f : Fmt) (ftz : Bool) {op : Nat} (lt : op < 8) (a b : Nat) :
    (f.rel ftz op a b).1 = relates (f.value ftz a) (f.value ftz b) op := by
  unfold Fmt.rel relates
  dsimp only
  generalize ((f.value ftz a).isNan || (f.value ftz b).isNan) = unordered
  generalize cmpNum (f.value ftz a) (f.value ftz b) = order
  cases unordered <;> interval_cases op <;> simp [beq_eq_decide, bne]

/-- A signalling NaN stands with and without FTZ. -/
theorem value_isSig (f : Fmt) (ftz : Bool) (a : Nat) : (f.value ftz a).isSig = (f.value false a).isSig := by
  unfold Fmt.value
  dsimp only
  split
  · rfl
  · split <;> rfl

theorem rel_flags (f : Fmt) (ftz : Bool) (op a b : Nat) :
    (f.rel ftz op a b).2 = if (f.value false a).isSig || (f.value false b).isSig then flagNV else 0 := by
  rw [← value_isSig f ftz a, ← value_isSig f ftz b]
  rfl

/-- NV of some lane is NV of the result. -/
theorem foldr_flagNV {ls : List Nat} {F : Nat → Bool × Nat} {q : Nat → Bool} (flag : ∀ l, (F l).2 = if q l then flagNV else 0) :
    (ls.map F).foldr (fun x a => orFlags x.2 a) 0 = if ls.any q then flagNV else 0 := by
  induction ls with
  | nil => rfl
  | cons l ls ih =>
    rw [List.map_cons, List.foldr_cons, ih, flag, List.any_cons]
    cases q l <;> cases ls.any q <;> rfl

theorem foldr_quiet {ls : List Nat} {F : Nat → Bool × Nat} (quiet : ∀ l, (F l).2 = 0) :
    (ls.map F).foldr (fun x a => orFlags x.2 a) 0 = 0 := by
  rw [foldr_flagNV (q := fun _ => false) quiet]
  simp

/-! ## Cross-lane forms (R311, R312, R314) -/

section
variable (c : Cx)

/-- The lane that shfl reads: the one named, when it is active, else its own. -/
theorem shfl_eq (x : BitVec 2) (n l : Nat) (b : Word) :
    c.v n (if c.mask.getLsbD (shflLane x.toNat l (b.toNat % 32)) then shflLane x.toNat l (b.toNat % 32) else l) =
      let src := shflSource x l (b.extractLsb' 0 5).toNat
      if 0 ≤ src ∧ src ≤ 31 ∧ c.mask.getLsbD src.toNat then c.v n src.toNat else c.v n l := by
  have count : (b.extractLsb' 0 5).toNat = b.toNat % 32 := by rw [BitVec.extractLsb'_toNat, Nat.shiftRight_zero]
  have inside {k : Nat} (active : c.mask.getLsbD k = true) : k ≤ 31 := by
    by_contra far
    rw [BitVec.getLsbD_of_ge _ _ (by omega)] at active
    cases active
  have named (k : Nat) : (if c.mask.getLsbD k then c.v n k else c.v n l) =
      if 0 ≤ (k : Int) ∧ (k : Int) ≤ 31 ∧ c.mask.getLsbD (k : Int).toNat then c.v n (k : Int).toNat else c.v n l := by
    have range : (0 ≤ (k : Int) ∧ (k : Int) ≤ 31 ∧ c.mask.getLsbD (k : Int).toNat = true) ↔ c.mask.getLsbD k = true :=
      ⟨fun h => h.2.2, fun h => ⟨by omega, by have := inside h; omega, h⟩⟩
    simp only [range]
    rfl
  have outside {k : Int} (far : ¬ (0 ≤ k ∧ k ≤ 31)) : (if c.mask.getLsbD 32 then c.v n 32 else c.v n l) =
      if 0 ≤ k ∧ k ≤ 31 ∧ c.mask.getLsbD k.toNat then c.v n k.toNat else c.v n l := by
    rw [if_neg (fun active => absurd (inside active) (by omega)), if_neg (fun h => far ⟨h.1, h.2.1⟩)]
  rw [apply_ite (c.v n), count]
  generalize b.toNat % 32 = t
  obtain rfl | rfl | rfl | rfl : x = 0 ∨ x = 1 ∨ x = 2 ∨ x = 3 := by revert x; decide
  · exact named t
  · show (if c.mask.getLsbD (if t ≤ l then l - t else 32) then c.v n (if t ≤ l then l - t else 32) else c.v n l) =
      if 0 ≤ (l : Int) - t ∧ (l : Int) - t ≤ 31 ∧ c.mask.getLsbD ((l : Int) - t).toNat then c.v n ((l : Int) - t).toNat else c.v n l
    by_cases within : t ≤ l
    · rw [if_pos within, named, Int.ofNat_sub within]
    · rw [if_neg within, outside (k := (l : Int) - t) (by omega)]
  · show (if c.mask.getLsbD (if l + t < 32 then l + t else 32) then c.v n (if l + t < 32 then l + t else 32) else c.v n l) =
      if 0 ≤ (l : Int) + t ∧ (l : Int) + t ≤ 31 ∧ c.mask.getLsbD ((l : Int) + t).toNat then c.v n ((l : Int) + t).toNat else c.v n l
    by_cases within : l + t < 32
    · rw [if_pos within, named, Nat.cast_add]
    · rw [if_neg within, outside (k := (l : Int) + t) (by omega)]
  · exact named (l ^^^ t)

/-- A word is 0 when none of its bits is 1. -/
theorem word_eq_zero (m : Word) : m = 0 ↔ ∀ l, m.getLsbD l = false := by
  refine ⟨fun h l => ?_, fun h => BitVec.eq_of_getLsbD_eq fun l _ => ?_⟩
  · rw [h, BitVec.ofNat_eq_ofNat, BitVec.getLsbD_zero]
  · rw [h, BitVec.ofNat_eq_ofNat, BitVec.getLsbD_zero]

theorem lanes_any (m : Word) : (c.lanes.any fun l => m.getLsbD l) = decide (c.mask &&& m ≠ 0) := by
  rw [Bool.eq_iff_iff, decide_eq_true_iff, List.any_eq_true, ne_eq, word_eq_zero]
  simp [mem_lanes]

theorem lanes_all (m : Word) : (c.lanes.all fun l => m.getLsbD l) = decide (c.mask &&& ~~~m = 0) := by
  rw [Bool.eq_iff_iff, decide_eq_true_iff, List.all_eq_true, word_eq_zero]
  refine forall_congr' fun l => ?_
  rw [mem_lanes]
  by_cases inside : l < 32
  · simp [inside]
  · simp [BitVec.getLsbD_of_ge _ l (by omega : 32 ≤ l)]

/-- All active lanes agree when they agree with the first. -/
theorem lanes_agree (F : Nat → Word) : (c.lanes.all fun l => F l == F (firstLane c.mask)) =
    c.lanes.all fun j => c.lanes.all fun k => F j == F k := by
  have first : firstLane c.mask = c.lanes.headD 32 := rfl
  rw [Bool.eq_iff_iff, first]
  simp only [List.all_eq_true, beq_iff_eq]
  generalize c.lanes = ls
  cases ls with
  | nil => simp
  | cons a ls =>
    exact ⟨fun same j hj k hk => (same j hj).trans (same k hk).symm, fun same j hj => same j hj a List.mem_cons_self⟩

end

theorem w32_bit (b : Bool) : w32 (b2n b) = if b then 1 else 0 := by cases b <;> rfl

/-- Settles O6: a comparison writes a predicate with the flags of its lanes, and the cross-lane forms read active lanes only. -/
theorem crossLaneForms : Obligations.CrossLaneForms := by
  refine ⟨fun f => ?_, fun f => ?_, fun f => ?_, fun f => ?_, fun f => ?_, fun f => ?_, fun f => ?_, fun f => ?_, fun f => ?_,
    fun f => ?_, fun f => ?_, fun f => ?_, fun f => ?_⟩
  · refine gives_predF (fun _ => rfl) (fun s gid g p l => ?_) fun s gid g p => foldr_quiet fun _ => rfl
    exact (relInt_eq ..).trans (by rw [Cx.va, Cx.vb, sext_word, sext_word]; rfl)
  · exact gives_predF (fun _ => rfl) (fun s gid g p l => relNat_eq ..) fun s gid g p => foldr_quiet fun _ => rfl
  · exact gives_predF (fun _ => rfl) (fun s gid g p l => rel_eq f32 _ (f.x.isLt.trans (by decide)) _ _)
      fun s gid g p => foldr_flagNV fun l => rel_flags ..
  · exact gives_predF (fun _ => rfl) (fun s gid g p l => rel_eq f32 _ (by have := f.x.isLt; exact Nat.add_lt_add_left this 4) _ _)
      fun s gid g p => foldr_flagNV fun l => rel_flags ..
  · exact gives_lane (fun _ => rfl) fun s gid g p => funext fun l => shfl_eq ..
  · exact gives_pred (fun _ => rfl) fun s gid g p l => lanes_all ..
  · exact gives_pred (fun _ => rfl) fun s gid g p l => lanes_any ..
  · exact gives_scalar (fun _ => rfl) fun _ _ _ _ => rfl
  · exact gives_pred (fun _ => rfl) fun s gid g p l => lanes_agree ..
  · exact gives_lane (fun _ => rfl) fun _ _ _ _ => rfl
  · exact gives_scalar (fun _ => rfl) fun _ _ _ _ => rfl
  · exact gives_lane (fun _ => rfl) fun s gid g p => funext fun l => w32_bit _
  · exact gives_pred (fun _ => rfl) fun _ _ _ _ _ => rfl

/-- Settles O7: each form writes its s register once. -/
theorem scalarForms : Obligations.ScalarForms := by
  refine ⟨fun f i mem => ?_, fun f => ?_, fun f => ?_, fun f => ?_, fun f => ?_, fun f => ?_, fun f => ?_, fun f => ?_, fun f => ?_,
    fun f => ?_⟩
  · simp only [List.mem_cons, List.not_mem_nil, or_false] at mem
    obtain rfl | rfl | rfl | rfl | rfl | rfl | rfl | rfl | rfl := mem <;> exact ⟨rfl, rfl, rfl, rfl, rfl⟩
  · exact gives_scalar (fun _ => rfl) fun _ _ _ _ => rfl
  · exact gives_scalar (fun _ => rfl) fun _ _ _ _ => rfl
  · exact gives_scalar (fun _ => rfl) fun _ _ _ _ => rfl
  · exact gives_scalar (fun _ => rfl) fun _ _ _ _ => rfl
  · exact gives_scalar (fun _ => rfl) fun _ _ _ _ => rfl
  · exact gives_scalar (fun _ => rfl) fun _ _ _ _ => rfl
  · exact gives_scalar (fun _ => rfl) fun _ _ _ _ => congrArg (_ <<< ·) (shiftOf_eq _)
  · exact gives_scalar (fun _ => rfl) fun _ _ _ _ => congrArg (_ >>> ·) (shiftOf_eq _)
  · refine gives_scalar (fun _ => rfl) fun s gid g p => ?_
    rw [w32_bit]
    exact congrArg (fun b : Bool => if b then (1 : Word) else 0) (relInt_eq ..)

/-! ## 64-bit forms (R299, R316) -/

theorem product_unsigned (a b : Word) : BitVec.ofNat 64 (a.toNat * b.toNat) = a.setWidth 64 * b.setWidth 64 := by
  rw [BitVec.ofNat_mul, BitVec.ofNat_toNat, BitVec.ofNat_toNat]

theorem product_eq (signed : Bool) (a b : Word) : product signed a.toNat b.toNat =
    if signed then a.signExtend 64 * b.signExtend 64 else a.setWidth 64 * b.setWidth 64 := by
  cases signed
  · exact product_unsigned a b
  · show BitVec.ofInt 64 (sext 32 a.toNat * sext 32 b.toNat) = _
    rw [sext_word, sext_word, BitVec.ofInt_mul]
    rfl

/-- X of a form names its value as a word and as a number. -/
theorem x_beq (x k : BitVec 2) : ((x.toNat == k.toNat) = true) = (x = k) := propext (beq_iff_eq.trans BitVec.toNat_inj)

/-- Settles O8: the product is exact, and a pair is written as two registers. -/
theorem wideForms : Obligations.WideForms := by
  refine ⟨fun f _ => ?_, fun f _ => ?_, fun f i mem => ?_, fun f => ?_, fun f => ?_, fun f => ?_, fun f => ?_⟩
  · refine gives_lane (fun _ => rfl) fun s gid g p => funext fun l => congrArg (BitVec.extractLsb' 32 32) ((product_eq ..).trans ?_)
    have signed : (((ctx (.mulhHi f) s gid g p).vw.x == 0) = true) = (f.x = 0) := x_beq f.x 0
    simp only [signed]
    rfl
  · refine gives_lanePair (fun _ => rfl) fun s gid g p l => (product_eq ..).trans ?_
    have signed : (((ctx (.mulhWide f) s gid g p).vw.x == 2) = true) = (f.x = 2) := x_beq f.x 2
    simp only [signed]
    rfl
  · simp only [List.mem_cons, List.not_mem_nil, or_false] at mem
    obtain rfl | rfl | rfl | rfl := mem <;> exact ⟨rfl, rfl⟩
  · exact gives_lanePair (fun _ => rfl) fun _ _ _ _ _ => rfl
  · exact gives_lanePair (fun _ => rfl) fun _ _ _ _ _ => rfl
  · exact givesScalarPair fun s gid g p h => ok_of (show exec (.sadd64 f) s = execSadd64 f s from rfl) rfl h
  · exact gives_lanePair (fun _ => rfl) fun s gid g p l => congrArg (_ + ·) (product_unsigned ..)

/-! ## Predicate forms (R391) -/

/-- A DETAIL of the list makes the word illegal. -/
theorem lowOf_ne_zero {ds : List Nat} {d : Nat} (mem : d ∈ ds) (bad : d ≠ 0) : lowOf ds ≠ 0 := by
  induction ds with
  | nil => cases mem
  | cons e ds ih =>
    intro zero
    obtain ⟨head, tail⟩ := lowDetail_eq_zero.mp (show lowDetail e (lowOf ds) = 0 from zero)
    rcases List.mem_cons.mp mem with rfl | mem
    · exact bad head
    · exact ih mem tail

theorem illegal_of_fixed {i : Instr} {r : Nat} (bad : fixedDetail (view i) ≠ 0) : illegalDetail i r ≠ 0 :=
  lowOf_ne_zero List.mem_cons_self bad

/-- Settles O9: each form writes its predicate once, lane by lane, and pnot wants B zero. -/
theorem predicateForms : Obligations.PredicateForms := by
  refine ⟨fun f i mem => ?_, fun f => ⟨rfl, rfl, rfl, fun r bad => ?_⟩, fun f => ?_, fun f => ?_, fun f => ?_, fun f => ?_⟩
  · simp only [List.mem_cons, List.not_mem_nil, or_false] at mem
    obtain rfl | rfl | rfl := mem <;> exact ⟨rfl, rfl, rfl, rfl⟩
  · refine illegal_of_fixed (lowOf_ne_zero (d := opdFixed .z f.b.toNat) (by simp [view, rg]) ?_)
    have nonzero : f.b.toNat ≠ 0 := fun zero => bad (BitVec.eq_of_toNat_eq zero)
    simp [opdFixed, need, nonzero]
  · exact gives_pred (fun _ => rfl) fun _ _ _ _ _ => BitVec.getLsbD_and ..
  · exact gives_pred (fun _ => rfl) fun _ _ _ _ _ => BitVec.getLsbD_or ..
  · exact gives_pred (fun _ => rfl) fun _ _ _ _ _ => BitVec.getLsbD_xor ..
  · exact gives_pred (fun _ => rfl) fun _ _ _ _ _ => rfl

end Sys2Proof.Safety
end

section
/-! SUPPORT. The statements CallsAndJumps, SpecialRegisters, CountersBoostAndNops and DecodesSpecWords: what an issue leaves of the
registers of a slice and of a core's gates, and results of class V. -/

namespace Sys2Proof.Machine

/-! ## What an issue leaves of the gates and the debug registers -/

/-- The gates of every core, and ALLOW, CTL and TCTL.EN of every slice, stand as they were. -/
structure SameGates (s t : State) : Prop where
  closed : ∀ c, (t.core c).closed = (s.core c).closed
  allow : ∀ k, (t.slice k).allow = (s.slice k).allow
  ctl : ∀ k, (t.slice k).dbg.ctl = (s.slice k).dbg.ctl
  traced : ∀ k, (t.slice k).dbg.trace.en = (s.slice k).dbg.trace.en

theorem SameGates.refl (s : State) : SameGates s s := ⟨fun _ => rfl, fun _ => rfl, fun _ => rfl, fun _ => rfl⟩

theorem SameGates.trans {s t u : State} (a : SameGates s t) (b : SameGates t u) : SameGates s u :=
  ⟨fun c => (b.closed c).trans (a.closed c), fun k => (b.allow k).trans (a.allow k), fun k => (b.ctl k).trans (a.ctl k),
    fun k => (b.traced k).trans (a.traced k)⟩

theorem sameGates_modCore (s : State) (c : Nat) (f : Core → Core) (keeps : ∀ x, (f x).closed = x.closed) :
    SameGates s (s.modCore c f) := by
  refine ⟨fun e => ?_, fun _ => rfl, fun _ => rfl, fun _ => rfl⟩
  rw [State.modCore_core]
  split
  next same => rw [keeps, same]
  · rfl

theorem sameGates_modDie (s : State) (d : Nat) (f : Die → Die) : SameGates s (s.modDie d f) :=
  ⟨fun _ => rfl, fun _ => rfl, fun _ => rfl, fun _ => rfl⟩

theorem sameGates_modSlice (s : State) (n : Nat) (f : Slice → Slice)
    (keeps : ∀ x, (f x).allow = x.allow ∧ (f x).dbg.ctl = x.dbg.ctl ∧ (f x).dbg.trace.en = x.dbg.trace.en) :
    SameGates s (s.modSlice n f) := by
  have slice (k : Nat) : ((s.modSlice n f).slice k).allow = (s.slice k).allow ∧
      ((s.modSlice n f).slice k).dbg.ctl = (s.slice k).dbg.ctl ∧
      ((s.modSlice n f).slice k).dbg.trace.en = (s.slice k).dbg.trace.en := by
    rw [State.modSlice_slice]
    split
    next same => rw [← same]; exact keeps _
    · exact ⟨rfl, rfl, rfl⟩
  exact ⟨fun _ => rfl, fun k => (slice k).1, fun k => (slice k).2.1, fun k => (slice k).2.2⟩

theorem sameGates_charge (s : State) (g : Group) (i : Instr) : SameGates s (s.charge g i) := by
  unfold State.charge
  dsimp only
  split
  · exact sameGates_modCore _ _ _ (fun _ => rfl)
  · refine SameGates.trans (sameGates_modCore _ _ _ ?_) (sameGates_modDie ..)
    exact fun _ => rfl

theorem sameGates_trace (s : State) (g : Group) (a b c d e f : Nat) : SameGates s (s.trace g a b c d e f) := by
  unfold State.trace
  split
  · exact sameGates_modSlice _ _ _ fun _ => ⟨rfl, rfl, rfl⟩
  · exact .refl s

theorem sameGates_sample (s : State) (g : Group) (p : Split) (i : Instr) : SameGates s (s.sample g p i) := by
  unfold State.sample
  dsimp only
  split
  · exact .refl s
  · split
    · refine SameGates.trans (sameGates_modCore _ _ _ ?_) (sameGates_trace ..)
      exact fun _ => rfl
    · exact sameGates_modCore _ _ _ (fun _ => rfl)

theorem sameGates_countWatch (s : State) (g : Group) : SameGates s (s.countWatch g) := by
  unfold State.countWatch
  exact sameGates_modSlice _ _ _ fun _ => ⟨rfl, rfl, rfl⟩

theorem sameGates_issue (s : State) (g : Group) (p : Split) (i : Instr) : SameGates s (((s.charge g i).countWatch g).sample g p i) :=
  (sameGates_charge s g i).trans ((sameGates_countWatch ..).trans (sameGates_sample ..))

/-! ## A trace record (R234) -/

theorem traceBytes_facts (s : State) (g : Group) (kind cat slot split ord data : Nat) :
    let r := s.traceBytes g kind cat slot split ord data
    r.length = 32 ∧ r.head? = (leBytes 1 kind).head? ∧ (r.drop 20).take 4 = leBytes 4 data := by
  have cut : s.traceBytes g kind cat slot split ord data = (leBytes 1 kind ++ leBytes 1 cat ++ leBytes 1 slot ++ leBytes 1 split ++
      leBytes 4 ord ++ leBytes 2 g.ctx ++ leBytes 2 (s.ktag g) ++ leBytes 4 g.place4 ++ leBytes 4 g.lin) ++
      (leBytes 4 data ++ leBytes 8 s.cycle) := by simp only [State.traceBytes, List.append_assoc]
  refine ⟨?_, rfl, ?_⟩
  · simp only [State.traceBytes, List.length_append, leBytes_length]
  · rw [cut, List.drop_left' (by simp only [List.length_append, leBytes_length]), List.take_left' (leBytes_length ..)]

end Sys2Proof.Machine

namespace Sys2Proof.Safety

open Machine

variable {i : Instr} {s t u : State} {gid : Nat} {g x : Group} {p : Split}

theorem drawn_modGroup_slice (t : State) (gid n : Nat) (f : Group → Group) (k : Nat) :
    ({ t.modGroup gid f with free := n } : State).slice k = t.slice k := rfl

theorem after_slice (i : Instr) (s : State) (gid : Nat) (g : Group) (p : Split) (k : Nat) :
    (afterIssue i s gid g p).slice k = (beforeGroup i s g p).slice k :=
  (congrArg (State.slice · k) (after_eq i s gid g p)).trans (drawn_modGroup_slice ..)

theorem sameGates_after (i : Instr) (s : State) (gid : Nat) (g : Group) (p : Split) : SameGates s (afterIssue i s gid g p) := by
  have issued := sameGates_issue { s with cur := none } g p i
  have slice := after_slice i s gid g p
  refine ⟨fun c => (congrArg Core.closed (after_core i s gid g p c)).trans (issued.closed c), fun k => ?_, fun k => ?_, fun k => ?_⟩
  · exact (congrArg Slice.allow (slice k)).trans (issued.allow k)
  · exact (congrArg (·.dbg.ctl) (slice k)).trans (issued.ctl k)
  · exact (congrArg (·.dbg.trace.en) (slice k)).trans (issued.traced k)

/-! ## call, ret and jmp.r (R381) -/

/-- The split of a form that wrote registers is moved. -/
theorem Wrote.movesTo {ex : List Nat} (w : Wrote ex i s t gid g p) (h : Issues i s gid g p) (a : DWord) :
    let u := t.modSplit gid p.born (fun q => { q with pc := a })
    RegsOnly ex s u gid g ∧ MovesTo i s g p (u.group gid) a ∧ SameFiles (t.group gid) (u.group gid) := by
  have group : (t.modSplit gid p.born (fun q => { q with pc := a })).group gid =
      (t.group gid).modSplit p.born (fun q => { q with pc := a }) := State.group_modGroup _ w.found
  have splits (b : Nat) : ((t.group gid).modSplit p.born (fun q => { q with pc := a })).split? b = _ :=
    (Group.split?_modSplit (t.group gid) p.born b (fun q => { q with pc := a }) (fun _ => rfl))
  have issued := (splitIssued h).of_splits w.splits
  refine ⟨⟨w.memory.trans (sameMemory_modGroup _ _ _), fun k other => ?_, ?_, ?_⟩, ⟨⟨{ afterSplit i s g p with pc := a }, ?_, rfl, rfl, rfl,
    rfl, rfl, rfl⟩, fun b other => ?_⟩, ?_⟩
  · exact (State.find_modGroup ..).trans ((if_neg (Ne.symm other)).trans (w.groups k other))
  · rw [group]; exact ⟨w.regs.v, w.regs.s, w.regs.p⟩
  · rw [group]; exact w.rest
  · rw [group, splits, if_pos rfl, issued.own, Option.map_some]
  · rw [group, splits, if_neg (Ne.symm other), issued.others b other]
  · rw [group]; exact ⟨rfl, rfl, rfl, rfl⟩

theorem execCall_eq (f : CB) (s : State) :
    exec (.call f) s = issue (.call f) s (fun c t => c.goto (c.writeSp t 30 (c.sp.pc + 4)) c.target) := rfl

theorem execRet_eq (f : RG) (s : State) : exec (.ret f) s = issue (.ret f) s (fun c t => c.jump t (c.sp2 30)) := rfl

theorem execJmpR_eq (f : RG) (s : State) : exec (.jmpR f) s = issue (.jmpR f) s (fun c t => c.jump t (c.sp2 c.vw.a)) := rfl

theorem gives_call {f : CB} (h : Issues (.call f) s gid g p) : Gives (.call f) s (fun t =>
    let c := ctx (.call f) s gid g p
    ScalarHolds c (t.group gid) 30 ((p.pc + 4).extractLsb' 0 32) ∧
    ScalarHolds c (t.group gid) 31 ((p.pc + 4).extractLsb' 32 32) ∧ (t.group gid).fmode = g.fmode ∧
    RegsOnly [94, 95] s t gid g ∧ MovesTo (.call f) s g p (t.group gid) (p.pc + BitVec.ofInt 64 (2 * f.off.toInt))) := by
  let c := ctx (.call f) s gid g p
  have issued := wrote_after h
  have low := issued.toScalar c rfl true 30 ((p.pc + 4).extractLsb' 0 32)
  have high := (low.toScalar c rfl true 31 ((p.pc + 4).extractLsb' 32 32)).weaken (ex' := [94, 95]) (by simp)
  obtain ⟨regs, moves, files⟩ := high.movesTo h (p.pc + BitVec.ofInt 64 (2 * f.off.toInt))
  rw [← ctx_target (i := .call f) (s := s) (gid := gid) (g := g) (p := p) rfl] at *
  refine ⟨_, ok_of (execCall_eq f s) rfl h, (files.regs.s 30 (by decide) (by simp)).trans ?_, (files.regs.s 31 (by decide) (by simp)).trans ?_,
    files.fmode.trans ?_, regs, moves⟩
  · exact (toScalar_group rfl low.found true 31 30 _).trans ((if_neg (by decide)).trans
      ((toScalar_group rfl issued.found true 30 30 _).trans (if_pos rfl)))
  · exact (toScalar_group rfl low.found true 31 31 _).trans (if_pos rfl)
  · exact (toScalar_fmode rfl low.found true 31 _).trans ((toScalar_fmode rfl issued.found true 30 _).trans (fmode_after h))

/-- A jump goes to an even target, and an odd one raises MISALIGN. -/
theorem gives_jump {body : Cx → State → Res} (h : Issues i s gid g p) (e : exec i s = issue i s body) {a : DWord}
    (jumps : body (ctx i s gid g p) (afterIssue i s gid g p) = (ctx i s gid g p).jump (afterIssue i s gid g p) a) :
    (a.getLsbD 0 = false → Gives i s (fun t => (t.group gid).fmode = g.fmode ∧ RegsOnly [] s t gid g ∧
      MovesTo i s g p (t.group gid) a)) ∧
    (a.getLsbD 0 = true → Raises i s gid g p { cause := 4, info := 1, addr := a }) := by
  unfold Cx.jump at jumps
  refine ⟨fun even => ?_, fun odd => ?_⟩
  · rw [even] at jumps
    exact gives_goto h (ok_of e jumps h)
  · rw [odd] at jumps
    exact trap_of e jumps h

/-- Settles O11: call writes its link as a pair and moves; ret and jmp.r move to an even target. -/
theorem callsAndJumps : Obligations.CallsAndJumps := by
  refine ⟨fun f s gid g p h => gives_call h, fun f => ⟨rfl, fun r bad => ?_⟩, fun f r odd => ?_,
    fun f s gid g p h => gives_jump h (execRet_eq f s) rfl, fun f s gid g p h => gives_jump h (execJmpR_eq f s) rfl⟩
  · refine illegal_of_fixed (lowOf_ne_zero (d := need (f.p.toNat == 0 && !f.n) 2) (by simp [view, cb]) ?_)
    have reserved : (f.p.toNat == 0 && !f.n) = false := by
      rcases bad with named | nonzero
      · simp [named]
      · have nonzero : f.p.toNat ≠ 0 := fun zero => nonzero (BitVec.eq_of_toNat_eq zero)
        simp [nonzero]
    rw [reserved]
    decide
  · refine lowOf_ne_zero (d := regsDetail (view (.jmpR f)) r) (by simp) (lowOf_ne_zero (d := opdRegs .sp r f.a.toNat) (by simp [view, rg]) ?_)
    simp [opdRegs, need, odd]

/-! ## sr.rd and sr.wr (R280, R281, R388) -/

/-- A form that changes its group, but none of its splits, besides issuing. -/
theorem gives_modGroup (h : Issues i s gid g p) (f : Group → Group) (splits : ∀ x, (f x).splits = x.splits)
    (run : exec i s = .next ((afterIssue i s gid g p).modGroup gid f)) : ∃ t, exec i s = .next t ∧
      Regroups s t gid (f (issuedGroup i s g p)) ∧ GoesOn i s g p (t.group gid) := by
  have w := (regroups_after h).modGroup f
  have issued := (splitIssued h).of_splits (splits _)
  refine ⟨_, run, w, ⟨afterSplit i s g p, ?_, rfl, rfl, rfl, rfl, rfl, rfl⟩, fun b other => ?_⟩
  · rw [w.group, issued.own]
  · rw [w.group, issued.others b other]

/-- A scalar result of class V. -/
theorem gives_giveS {v : Word} (h : Issues i s gid g p) (run : exec i s = .next ((ctx i s gid g p).giveS (afterIssue i s gid g p) (view i).d v)) :
    Gives i s (fun t => ScalarHolds (ctx i s gid g p) (t.group gid) (view i).d v ∧ (t.group gid).fmode = g.fmode ∧
      RegsOnly [64 + (view i).d] s t gid g ∧ GoesOn i s g p (t.group gid)) := by
  have w := (wrote_after h).toScalar (ctx i s gid g p) rfl false (view i).d v
  exact ⟨_, run, toScalar_holds h _ rfl _ false v, (toScalar_fmode rfl (wrote_after h).found false _ _).trans (fmode_after h),
    w.regsOnly, w.goesOn h.split⟩

/-- A lane result of class V. -/
theorem gives_giveV {F : Nat → Word} (h : Issues i s gid g p)
    (run : exec i s = .next ((ctx i s gid g p).giveV (afterIssue i s gid g p) (view i).d F)) :
    Gives i s (fun t => LaneHolds (ctx i s gid g p) (t.group gid) (view i).d F ∧ (t.group gid).fmode = g.fmode ∧
      RegsOnly [(view i).d] s t gid g ∧ GoesOn i s g p (t.group gid)) := by
  have w := (wrote_after h).toLanes (ctx i s gid g p) rfl false (view i).d F
  exact ⟨_, run, toLanes_holds h _ rfl rfl _ false F, (toLanes_fmode rfl (wrote_after h).found false _ _).trans (fmode_after h),
    w.regsOnly, w.goesOn h.split⟩

theorem execSrRd_eq (f : RG) (s : State) : exec (.srRd f) s = issue (.srRd f) s (fun c t =>
    if c.srNum = 8 then .ok (c.giveV t c.vw.d (fun l => BitVec.ofNat 32 l))
    else if srWide c.srNum then .ok (c.giveSp t c.vw.d (BitVec.ofNat 64 (t.srValue c.gid c.srNum)))
    else .ok (c.giveS t c.vw.d (BitVec.ofNat 32 (t.srValue c.gid c.srNum)))) := rfl

theorem execSrWr_eq (f : RG) (s : State) : exec (.srWr f) s = issue (.srWr f) s (fun c t =>
    if c.srNum = 0x30 then
      .ok (t.modGroup c.gid (fun g => { g with fmode := (g.fmode &&& ~~~fmodeBits) ||| (c.s c.vw.d &&& fmodeBits) }))
    else if c.srNum = 0x45 && c.g.handling c.sp then
      .ok (t.modGroup c.gid (fun g => { g with trap := { g.trap with rpc := c.sp2 c.vw.d } }))
    else if c.srNum = 0x47 && c.g.handling c.sp then
      .ok (t.modGroup c.gid (fun g => { g with trap := { g.trap with ctl := c.s c.vw.d &&& 1 } }))
    else c.priv) := rfl

section
variable {f : RG} (h : Issues (.srRd f) s gid g p)
include h

theorem gives_lane_number (lane : f.a.toNat * 64 + f.b.toNat = 8) : Gives (.srRd f) s (fun t =>
    LaneHolds (ctx (.srRd f) s gid g p) (t.group gid) f.d.toNat (fun l => BitVec.ofNat 32 l) ∧
      (t.group gid).fmode = g.fmode ∧ RegsOnly [f.d.toNat] s t gid g ∧ GoesOn (.srRd f) s g p (t.group gid)) :=
  gives_giveV h (ok_of (execSrRd_eq f s) (if_pos lane) h)

theorem gives_sr_pair (wide : srWide (f.a.toNat * 64 + f.b.toNat) = true) : Gives (.srRd f) s (fun t =>
    let v := (afterIssue (.srRd f) s gid g p).srValue gid (f.a.toNat * 64 + f.b.toNat)
    ScalarHolds (ctx (.srRd f) s gid g p) (t.group gid) f.d.toNat ((BitVec.ofNat 64 v).extractLsb' 0 32) ∧
      ScalarHolds (ctx (.srRd f) s gid g p) (t.group gid) (f.d.toNat + 1) ((BitVec.ofNat 64 v).extractLsb' 32 32) ∧
      (t.group gid).fmode = g.fmode ∧ RegsOnly [64 + f.d.toNat, 64 + f.d.toNat + 1] s t gid g ∧
      GoesOn (.srRd f) s g p (t.group gid)) := by
  have other : ¬ f.a.toNat * 64 + f.b.toNat = 8 := fun lane => by
    rw [lane] at wide
    exact absurd wide (by decide)
  obtain ⟨t, run, low, high, fmode, regs, goes, -⟩ :=
    gives_pair h (.refl _) (ok_of (execSrRd_eq f s) ((if_neg other).trans (if_pos wide)) h)
  exact ⟨t, run, low, high, fmode, regs, goes⟩

theorem gives_sr (other : f.a.toNat * 64 + f.b.toNat ≠ 8) (narrow : srWide (f.a.toNat * 64 + f.b.toNat) = false) :
    Gives (.srRd f) s (fun t => ScalarHolds (ctx (.srRd f) s gid g p) (t.group gid) f.d.toNat
        (BitVec.ofNat 32 ((afterIssue (.srRd f) s gid g p).srValue gid (f.a.toNat * 64 + f.b.toNat))) ∧
      (t.group gid).fmode = g.fmode ∧ RegsOnly [64 + f.d.toNat] s t gid g ∧ GoesOn (.srRd f) s g p (t.group gid)) :=
  gives_giveS h (ok_of (execSrRd_eq f s) ((if_neg other).trans (if_neg (ne_true_of_eq_false narrow))) h)

end

section
variable {f : RG} (h : Issues (.srWr f) s gid g p)
include h

theorem gives_fmode (own : f.a.toNat * 64 + f.b.toNat = 0x30) : Gives (.srWr f) s (fun t =>
    (t.group gid).fmode = (g.fmode &&& ~~~0x9F07) ||| ((ctx (.srWr f) s gid g p).s f.d.toNat &&& 0x9F07) ∧
      RegsOnly [] s t gid g ∧ GoesOn (.srWr f) s g p (t.group gid)) := by
  obtain ⟨t, run, w, goes⟩ := gives_modGroup h
    (fun x => { x with fmode := (x.fmode &&& ~~~fmodeBits) ||| ((ctx (.srWr f) s gid g p).s f.d.toNat &&& fmodeBits) }) (fun _ => rfl)
    (ok_of (execSrWr_eq f s) (if_pos own) h)
  refine ⟨t, run, ?_, ⟨w.memory, w.groups, ?_, ?_⟩, goes⟩
  all_goals rw [w.group]
  · rfl
  · constructor <;> intros <;> rfl
  · rfl

/-- A write of a part of the trap record. -/
theorem gives_trap {r : TrapRec → TrapRec}
    (run : exec (.srWr f) s = .next ((afterIssue (.srWr f) s gid g p).modGroup gid (fun x => { x with trap := r x.trap }))) :
    Gives (.srWr f) s (fun t => (t.group gid).trap = r g.trap ∧ (t.group gid).fmode = g.fmode ∧ KeepsRegs [] g (t.group gid) ∧
      SameMemory s t ∧ GoesOn (.srWr f) s g p (t.group gid)) := by
  obtain ⟨t, ran, w, goes⟩ := gives_modGroup h (fun x => { x with trap := r x.trap }) (fun _ => rfl) run
  refine ⟨t, ran, ?_, ?_, ?_, w.memory, goes⟩
  all_goals rw [w.group]
  · rfl
  · rfl
  · exact SameFiles.regs ⟨rfl, rfl, rfl, rfl⟩

end

/-- Settles O17: sr.rd gives its register by number, in the form of its width; sr.wr writes three registers. -/
theorem specialRegisters : Obligations.SpecialRegisters := by
  refine ⟨fun f s gid g p h => ⟨gives_lane_number h, gives_sr_pair h, gives_sr h, fun n => ?_, ?_⟩, fun f s gid g p h => ?_⟩
  · rw [n]
    exact after_cycle ..
  · unfold State.srValue
    rw [after_group h.group]
    refine ⟨?_, ?_, ?_, ?_, ?_, ?_, ?_, ?_, ?_, ?_, ?_, ?_, ?_, ?_, ?_, ?_, ?_⟩
    all_goals
      intro n
      rw [n]
      rfl
  · have handles : (ctx (.srWr f) s gid g p).g.handling (ctx (.srWr f) s gid g p).sp = true ↔ _ := Group.handling_iff
    have numbered {n k : Nat} (b : Bool) (same : n = k) (yes : b = true) : (decide (n = k) && b) = true := by rw [yes]; simpa using same
    refine ⟨gives_fmode h, fun n inside => ?_, fun n inside => ?_, fun fmode refused => ?_⟩
    · have other : ¬ f.a.toNat * 64 + f.b.toNat = 0x30 := by omega
      exact gives_trap h (r := fun r => { r with rpc := (ctx (.srWr f) s gid g p).sp2 f.d.toNat })
        (ok_of (execSrWr_eq f s) ((if_neg other).trans (if_pos (numbered _ n (handles.mpr inside)))) h)
    · have other : ¬ f.a.toNat * 64 + f.b.toNat = 0x30 := by omega
      have pc : ¬ (decide (f.a.toNat * 64 + f.b.toNat = 0x45) && (ctx (.srWr f) s gid g p).g.handling (ctx (.srWr f) s gid g p).sp) = true := by
        simp [n]
      exact gives_trap h (r := fun r => { r with ctl := (ctx (.srWr f) s gid g p).s f.d.toNat &&& 1 })
        (ok_of (execSrWr_eq f s) ((if_neg other).trans ((if_neg pc).trans (if_pos (numbered _ n (handles.mpr inside))))) h)
    · have denied {k : Nat} (kept : f.a.toNat * 64 + f.b.toNat = k → ¬ (g.inh = true ∧ p.lanes &&& g.trap.smask ≠ 0)) :
          ¬ (decide (f.a.toNat * 64 + f.b.toNat = k) && (ctx (.srWr f) s gid g p).g.handling (ctx (.srWr f) s gid g p).sp) = true := by
        rw [Bool.and_eq_true, decide_eq_true_iff, handles]
        exact fun both => kept both.1 both.2
      have pc := denied (k := 0x45) fun same => refused.elim id fun others => absurd same others.1
      have ctl := denied (k := 0x47) fun same => refused.elim id fun others => absurd same others.2
      exact trap_of (execSrWr_eq f s) ((if_neg fmode).trans ((if_neg pc).trans (if_neg ctl))) h

/-! ## Counters, marks and boost claims (R389, R390, R392) -/

/-- A form whose effect is in counts alone. -/
theorem counts_goesOn (h : Issues i s gid g p) (same : SameButCounts (afterIssue i s gid g p) t) :
    (t.group gid).fmode = g.fmode ∧ RegsOnly [] s t gid g ∧ GoesOn i s g p (t.group gid) := by
  have w := (wrote_after h).counts same
  have group : t.group gid = (afterIssue i s gid g p).group gid := congrArg (fun l : Tbl Group => Tbl.get l {} gid) same.groups
  exact ⟨(congrArg Group.fmode group).trans (fmode_after h), w.regsOnly, w.goesOn h.split⟩

theorem execCtrRd_eq (f : RG) (s : State) : exec (.ctrRd f) s = issue (.ctrRd f) s (fun c t =>
    .ok (c.giveSp t c.vw.d (BitVec.ofNat 64 (t.eventCount c.g.slice c.g.core c.srNum)))) := rfl

theorem execCtrMark_eq (f : RG) (s : State) : exec (.ctrMark f) s = issue (.ctrMark f) s (fun c t =>
    .ok (if t.dbgEn c.g.slice then
      t.trace c.g 5 0 2 (c.g.splitNo c.born) (t.attributed c.g c.sp.pc.toNat) (c.s c.vw.d).toNat else t)) := rfl

/-- A gate changes where ALLOW and the device permit the event, and nowhere else. -/
theorem gate_closed (c : Cx) (t : State) (shut : Bool) (k : Nat) : Tbl.get ((c.gate t shut).core c.g.core).closed false k =
    if k = c.srNum ∧ evPresent c.srNum = true ∧ (t.slice c.g.slice).allows c.srNum = true then shut
    else Tbl.get (t.core c.g.core).closed false k := by
  unfold Cx.gate
  dsimp only
  split
  next permitted =>
    rw [State.modCore_core_self]
    refine (Tbl.get_set ..).trans ?_
    simp only [Bool.and_eq_true] at permitted
    simp only [permitted, and_true, eq_comm]
  next denied =>
    rw [if_neg]
    exact fun all => denied (Bool.and_eq_true_iff.mpr all.2)

theorem sameButCounts_gate (c : Cx) (t : State) (shut : Bool) : SameButCounts t (c.gate t shut) := by
  unfold Cx.gate
  dsimp only
  split
  · exact sameButCounts_modCore _ _ _ (fun _ => rfl)
  · exact .refl t

/-- A gate form closes the gate of its event or opens it. -/
theorem gives_gate (h : Issues i s gid g p) {e : Nat} (named : (ctx i s gid g p).srNum = e) {shut : Bool}
    (run : exec i s = .next ((ctx i s gid g p).gate (afterIssue i s gid g p) shut)) : Gives i s (fun t =>
      (∀ k, Tbl.get (t.core g.core).closed false k =
        if k = e ∧ evPresent e = true ∧ (s.slice g.slice).allows e = true then shut else Tbl.get (s.core g.core).closed false k) ∧
      (t.group gid).fmode = g.fmode ∧ RegsOnly [] s t gid g ∧ GoesOn i s g p (t.group gid)) := by
  have gates := sameGates_after i s gid g p
  have allows : ((afterIssue i s gid g p).slice g.slice).allows e = (s.slice g.slice).allows e := by
    unfold Slice.allows
    rw [gates.allow]
  refine ⟨_, run, fun k => (gate_closed ..).trans ?_, counts_goesOn h (sameButCounts_gate ..)⟩
  rw [named]
  show (if k = e ∧ evPresent e = true ∧ ((afterIssue i s gid g p).slice g.slice).allows e = true then shut
    else Tbl.get ((afterIssue i s gid g p).core g.core).closed false k) = _
  rw [allows, gates.closed]

/-- A trace record stands last in the horizon buffer. -/
theorem trace_last (t : State) (g : Group) (kind cat slot split ord data : Nat) (traced : (t.slice g.slice).dbg.trace.en = true) :
    ((t.trace g kind cat slot split ord data).slice g.slice).dbg.held.getLast? =
      some (g.core * 2 ^ 64 + t.now g.core, t.traceBytes g kind cat slot split ord data) := by
  unfold State.trace
  rw [if_pos traced, State.modSlice_slice, if_pos rfl]
  exact List.getLast?_concat

theorem gives_mark {f : RG} (h : Issues (.ctrMark f) s gid g p) : Gives (.ctrMark f) s (fun t =>
    ((s.slice g.slice).dbg.ctl.getLsbD 31 = true → (s.slice g.slice).dbg.trace.en = true →
      ∃ r, (t.slice g.slice).dbg.held.getLast? = some (g.core * 2 ^ 64 + s.now g.core, r) ∧ r.length = 32 ∧ r.head? = some 5 ∧
        (r.drop 20).take 4 = leBytes 4 ((ctx (.ctrMark f) s gid g p).s f.d.toNat).toNat) ∧
    (t.group gid).fmode = g.fmode ∧ RegsOnly [] s t gid g ∧ GoesOn (.ctrMark f) s g p (t.group gid)) := by
  have gates := sameGates_after (.ctrMark f) s gid g p
  refine ⟨_, ok_of (execCtrMark_eq f s) rfl h, fun session traced => ?_, counts_goesOn h ?_⟩
  · have opened : (afterIssue (.ctrMark f) s gid g p).dbgEn g.slice = true := (congrArg (BitVec.getLsbD · 31) (gates.ctl _)).trans session
    rw [show (ctx (.ctrMark f) s gid g p).g.slice = g.slice from rfl, opened, if_pos rfl]
    have last := trace_last (afterIssue (.ctrMark f) s gid g p) g 5 0 2 (g.splitNo p.born)
      ((afterIssue (.ctrMark f) s gid g p).attributed g p.pc.toNat) ((ctx (.ctrMark f) s gid g p).s f.d.toNat).toNat
      ((gates.traced _).trans traced)
    rw [after_now] at last
    obtain ⟨length, head, data⟩ := traceBytes_facts (afterIssue (.ctrMark f) s gid g p) g 5 0 2 (g.splitNo p.born)
      ((afterIssue (.ctrMark f) s gid g p).attributed g p.pc.toNat) ((ctx (.ctrMark f) s gid g p).s f.d.toNat).toNat
    exact ⟨_, last, length, head, data⟩
  · split
    · exact sameButCounts_trace ..
    · exact .refl _

/-- A claim is set or cleared, and the watch of the claims counts in dies and slices. -/
theorem gives_claim (h : Issues i s gid g p) {claim : Bool} (run : exec i s = .next
      (((afterIssue i s gid g p).modGroup gid (fun x => { x with claim := claim })).watchClaims (dieOf g.core))) :
    Gives i s (fun t => (t.group gid).claim = claim ∧ (t.group gid).fmode = g.fmode ∧ KeepsRegs [] g (t.group gid) ∧
      SameMemory s t ∧ GoesOn i s g p (t.group gid)) := by
  have w := (regroups_after h).modGroup (fun x => { x with claim := claim })
  have issued := (splitIssued h).of_splits (y := { issuedGroup i s g p with claim := claim }) rfl
  generalize (afterIssue i s gid g p).modGroup gid (fun x => { x with claim := claim }) = u at run w
  have frame := watchClaims_frame u (dieOf g.core)
  have work := frame.work
  have group : (u.watchClaims (dieOf g.core)).group gid = { issuedGroup i s g p with claim := claim } :=
    (congrArg (fun l : Tbl Group => Tbl.get l {} gid) work.groups).trans w.group
  refine ⟨_, run, ?_, ?_, ?_, w.memory.trans ?_, ⟨afterSplit i s g p, ?_, rfl, rfl, rfl, rfl, rfl, rfl⟩, fun b other => ?_⟩
  · rw [group]
  · rw [group]; rfl
  · rw [group]; exact SameFiles.regs ⟨rfl, rfl, rfl, rfl⟩
  · refine ⟨fun a => congrArg (Memory.read memDefault · a) work.mem, fun a => congrArg (Memory.read zeroDefault · a) work.host,
      fun c o => congrArg (Memory.read zeroDefault · (spadKey c o)) work.spad, work.tile, fun c => ?_, fun d => ?_⟩
    · rw [frame.whole]; rfl
    · by_cases own : d = dieOf g.core
      · classical rw [own, watchClaims_die]
      · rw [frame.others d own]
  · rw [group, issued.own]
  · rw [group, issued.others b other]

theorem execBoostQuery_eq (f : RG) (s : State) : exec (.boostQuery f) s = issue (.boostQuery f) s (fun c t =>
    .ok (c.giveS t c.vw.d (BitVec.ofNat 32 (b2n (t.die (dieOf c.g.core)).boosting * 2 ^ 31 + b2n (t.die (dieOf c.g.core)).fall * 2 ^ 30 +
      b2n (t.clusterClaims (dieOf c.g.core) (clusterOf c.g.core) c.g.slice) * 2 ^ 29 +
      b2n c.g.claim * 2 ^ 28 + (t.die (dieOf c.g.core)).curvf.toNat * 2 ^ 24 + (t.die (dieOf c.g.core)).permits.toNat * 2 ^ 16)))) := rfl

/-- The fields of the word of boost.query. -/
theorem query_fields (boosting fall others claim : Bool) (curvf : BitVec 4) (permits : BitVec 8) :
    let w := BitVec.ofNat 32 (b2n boosting * 2 ^ 31 + b2n fall * 2 ^ 30 + b2n others * 2 ^ 29 + b2n claim * 2 ^ 28 +
      curvf.toNat * 2 ^ 24 + permits.toNat * 2 ^ 16)
    w.getLsbD 31 = boosting ∧ w.getLsbD 30 = fall ∧ w.getLsbD 28 = claim ∧ w.extractLsb' 24 4 = curvf ∧
      w.extractLsb' 16 8 = permits ∧ w.extractLsb' 0 16 = 0 := by
  have bit (b : Bool) : b2n b ≤ 1 ∧ (b2n b == 1) = b := by cases b <;> decide
  obtain ⟨le31, is31⟩ := bit boosting
  obtain ⟨le30, is30⟩ := bit fall
  obtain ⟨le29, -⟩ := bit others
  obtain ⟨le28, is28⟩ := bit claim
  have := curvf.isLt
  have := permits.isLt
  have flag (n : Nat) {v : Nat} {b : Bool} {k : Nat} (is : (k == 1) = b) (field : v % 2 ^ 32 / 2 ^ n % 2 = k) :
      (BitVec.ofNat 32 v).getLsbD n = b := by
    rw [← nbit_toNat, BitVec.toNat_ofNat, nbit, field, is]
  have part {m : Nat} (n : Nat) {v : Nat} {x : BitVec m} (field : v % 2 ^ 32 / 2 ^ n % 2 ^ m = x.toNat) :
      (BitVec.ofNat 32 v).extractLsb' n m = x :=
    BitVec.eq_of_toNat_eq (by rw [BitVec.extractLsb'_toNat, BitVec.toNat_ofNat, Nat.shiftRight_eq_div_pow, field])
  refine ⟨flag 31 is31 ?_, flag 30 is30 ?_, flag 28 is28 ?_, part 24 ?_, part 16 ?_, part 0 ?_⟩
  · omega
  · omega
  · omega
  · omega
  · omega
  · simp only [BitVec.ofNat_eq_ofNat, BitVec.toNat_ofNat]
    omega

/-- Settles O18: no-ops change nothing, a counter form reads, gates or marks, and the boost forms claim and read the die. -/
theorem countersBoostAndNops : Obligations.CountersBoostAndNops := by
  refine ⟨givesNothing fun s gid g p h => ok_of (show exec .nopH s = execNopH s from rfl) rfl h,
    fun f => givesNothing fun s gid g p h => ok_of (show exec (.nop f) s = execNop f s from rfl) rfl h,
    fun f => givesNothing fun s gid g p h => ok_of (show exec (.nopWaitsb f) s = execNopWaitsb f s from rfl) rfl h,
    fun f s gid g p h => ?_, fun f i s gid g p form h => ?_, fun f s gid g p h => gives_mark h, fun f i s gid g p form h => ?_,
    fun f s gid g p h => ?_⟩
  · obtain ⟨t, run, low, high, fmode, regs, goes, -⟩ := gives_pair h (.refl _) (ok_of (execCtrRd_eq f s) rfl h)
    exact ⟨t, run, low, high, fmode, regs, goes⟩
  · rcases form with rfl | rfl
    · rw [decide_eq_false (show ¬ Instr.ctrStart f = .ctrStop f from nofun)]
      exact gives_gate h rfl (ok_of (show exec (.ctrStart f) s = execCtrStart f s from rfl) rfl h)
    · rw [decide_eq_true rfl]
      exact gives_gate h rfl (ok_of (show exec (.ctrStop f) s = execCtrStop f s from rfl) rfl h)
  · rcases form with rfl | rfl
    · rw [decide_eq_true rfl]
      exact gives_claim h (ok_of (show exec (.boostClaim f) s = execBoostClaim f s from rfl) rfl h)
    · rw [decide_eq_false (show ¬ Instr.boostRelease f = .boostClaim f from nofun)]
      exact gives_claim h (ok_of (show exec (.boostRelease f) s = execBoostRelease f s from rfl) rfl h)
  · obtain ⟨t, run, holds, rest⟩ := gives_giveS h (ok_of (execBoostQuery_eq f s) rfl h)
    exact ⟨t, run, ⟨_, holds, query_fields ..⟩, rest⟩

/-- Settles O53: each word is decoded by evaluation. -/
theorem decodesSpecWords : Obligations.DecodesSpecWords :=
  ⟨rfl, rfl, rfl, rfl, rfl, rfl, rfl, rfl, rfl, rfl, rfl, rfl⟩

end Sys2Proof.Safety
end

section
/-! SUPPORT. The statements LoadsAreRecorded, StoresAreRecorded and AtomicsAreRecorded: a form checks its lanes, or its one address,
and records the pieces with the operands read at issue. -/

namespace Sys2Proof.Safety

open Machine

/-- What a form does with the result of its checks. -/
def afterCheck (r : Except TrapInfo (List Acc)) (k : List Acc → Res) : Res :=
  match r with
  | .error t => .trap t
  | .ok accs => k accs

section
variable {i : Instr} {body : Cx → State → Res} (e : ∀ s, exec i s = issue i s body) {o : AccOpt} {size : Nat}
  {kind : Group → List Acc → Nat × Nat} {data : Cx → List Acc → List Acc} (own : ∀ g l, (kind g l).1 < 9 ∨ 13 ≤ (kind g l).1)
include e own

/-- A form that records the pieces of its lanes. -/
theorem laneAccess_of {addr : Cx → Nat → DWord} (b : ∀ s gid g p, let c := ctx i s gid g p
      body c (afterIssue i s gid g p) = afterCheck (c.checkLanes (afterIssue i s gid g p) o size (addr c)) fun accs =>
        .ok (c.record (afterIssue i s gid g p) (kind g accs).1 (kind g accs).2 (data c accs))) :
    LaneAccess i o size addr kind data := by
  intro s gid g p h
  refine ⟨fun accs passed => recordsAs h (own g accs) (ok_of (e s) ?_ h), fun r failed => trap_of (e s) ?_ h⟩
  · rw [b, passed]; rfl
  · rw [b, failed]; rfl

/-- A form that records the pieces of its one address. -/
theorem oneAccess_of {addr : Cx → DWord} (b : ∀ s gid g p, let c := ctx i s gid g p
      body c (afterIssue i s gid g p) = afterCheck (c.checkOne (afterIssue i s gid g p) o size (addr c)) fun accs =>
        .ok (c.record (afterIssue i s gid g p) (kind g accs).1 (kind g accs).2 (data c accs))) :
    OneAccess i o size addr kind data := by
  intro s gid g p h
  refine ⟨fun accs passed => recordsAs h (own g accs) (ok_of (e s) ?_ h), fun r failed => trap_of (e s) ?_ h⟩
  · rw [b, passed]; rfl
  · rw [b, failed]; rfl

end

theorem load_kind (_ : Group) (_ : List Acc) : 1 < 9 ∨ 13 ≤ 1 := by decide
theorem atomic_kind (_ : Group) (_ : List Acc) : 6 < 9 ∨ 13 ≤ 6 := by decide
theorem object_kind (_ : Group) (_ : List Acc) : 8 < 9 ∨ 13 ≤ 8 := by decide

/-! ## Loads and stores (R320 to R326) -/

section
variable {i : Instr} {f : MO} {size : Nat} (a : (view i).a = f.a.toNat) (off : (view i).imm = f.off.toNat)
include a off

theorem load_records (e : ∀ s, exec i s = issue i s (fun c t => c.load t size)) :
    LaneAccess i {} size (moAt f.a f.off size) (fun _ _ => (1, 0)) (fun _ l => l) := by
  refine laneAccess_of e load_kind fun s gid g p => ?_
  dsimp only
  rw [← moAddr_eq a off]
  rfl

theorem loadS_records (e : ∀ s, exec i s = issue i s (fun c t => c.loadS t size)) :
    OneAccess i { priv := false } size (fun c => moAt f.a f.off size c 0) (fun _ _ => (1, 0)) (fun _ l => l) := by
  refine oneAccess_of e load_kind fun s gid g p => ?_
  dsimp only
  rw [← moAddr_eq a off]
  rfl

variable (d : (view i).d = f.d.toNat)
include d

/-- A store records the datum of its registers. -/
theorem store_records {n : Nat} {datum : Cx → Nat → Nat} (e : ∀ s, exec i s = issue i s (fun c t => c.store t size n))
    (v : ∀ (c : Cx) l, c.datum f.d.toNat n l = datum c l) :
    LaneAccess i { acc := .store } size (moAt f.a f.off size) storeEntry (fun c l => withData l (datum c)) := by
  refine laneAccess_of e storeEntry_kind fun s gid g p => ?_
  dsimp only
  rw [← moAddr_eq a off, ← funext (v (ctx i s gid g p)), ← d]
  rfl

theorem storeS_records (e : ∀ s, exec i s = issue i s (fun c t => c.storeS t size)) :
    OneAccess i { acc := .store, priv := false } size (fun c => moAt f.a f.off size c 0) storeEntry
      (fun c l => withData l (fun _ => (c.s f.d.toNat).toNat)) := by
  refine oneAccess_of e storeEntry_kind fun s gid g p => ?_
  dsimp only
  rw [← moAddr_eq a off, ← d]
  rfl

end

/-! ## Fabric forms (R344 to R346) -/

/-- When every lane passes, the pieces are those of the lanes, in their order. -/
theorem gather_passed {ls : List Nat} {ea : Nat → DWord} {F : Nat → Except LaneFail (List Acc)} {at_ : Nat → Acc}
    (pass : ∀ l ∈ ls, F l = .ok [at_ l]) : gather (ls.map fun l => (l, ea l, F l)) = (ls.map at_, []) := by
  induction ls with
  | nil => rfl
  | cons l ls ih =>
    have tail := ih fun k hk => pass k (List.mem_cons_of_mem _ hk)
    unfold gather at tail ⊢
    rw [List.map_cons, List.foldr_cons, tail, pass l List.mem_cons_self]
    rfl

theorem fabric_passed {c : Cx} {t : State} {at_ : Nat → Acc} {n : Nat} (a : c.vw.a = n)
    (pass : ∀ l ∈ c.lanes, t.checkMc c.g.slice l (c.addr n l) = .ok [at_ l]) (k : List Acc → Res) :
    c.fabric t k = k (c.lanes.map at_) := by
  unfold Cx.fabric
  rw [a, gather_passed pass]
  rfl

section
variable {i : Instr} {s : State} {gid : Nat} {g : Group} {p : Split} {f : MA} (h : Issues i s gid g p) (a : (view i).a = f.a.toNat)
  {at_ : Nat → Acc} (pass : ∀ l ∈ (ctx i s gid g p).lanes,
    (afterIssue i s gid g p).checkMc g.slice l ((ctx i s gid g p).addr f.a.toNat l) = .ok [at_ l])
include h a pass

theorem ldRed_records (e : exec i s = issue i s (fun c t => c.fabric t (fun accs => .ok (c.enter t 1 0 c.mask accs)))) :
    RecordsAs i s gid g p 1 0 ((ctx i s gid g p).lanes.map at_) :=
  entersAs h (by decide) (ok_of e (fabric_passed a pass _) h)

theorem stMc_records (e : exec i s = issue i s (fun c t => c.fabric t (fun accs =>
      .ok (c.enter t 14 2 c.mask (accs.map (fun a => { a with v := c.datum c.vw.d 1 a.lane })))))) (d : (view i).d = f.d.toNat) :
    RecordsAs i s gid g p 14 2 ((ctx i s gid g p).lanes.map (fun l =>
      { at_ l with v := ((ctx i s gid g p).v f.d.toNat (at_ l).lane).toNat })) := by
  refine entersAs h (by decide) (ok_of e ((fabric_passed a pass _).trans ?_) h)
  rw [List.map_map]
  refine congrArg (fun accs => Res.ok ((ctx i s gid g p).enter (afterIssue i s gid g p) 14 2 p.mask accs)) (List.map_congr_left fun l _ => ?_)
  show ({ at_ l with v := (ctx i s gid g p).datum (view i).d 1 (at_ l).lane } : Acc) = _
  rw [datum_one, d]

end

/-- Settles O21: each load checks its lanes, or its one address, and records their pieces. -/
theorem loadsAreRecorded : Obligations.LoadsAreRecorded := by
  refine ⟨fun f => load_records rfl rfl fun _ => rfl, fun f => load_records rfl rfl fun _ => rfl,
    fun f => load_records rfl rfl fun _ => rfl, fun f => load_records rfl rfl fun _ => rfl, fun f => load_records rfl rfl fun _ => rfl,
    fun f => load_records rfl rfl fun _ => rfl, fun f => load_records rfl rfl fun _ => rfl,
    fun f => loadS_records rfl rfl fun _ => rfl, fun f => loadS_records rfl rfl fun _ => rfl, fun f => ?_,
    fun f i s gid g p form h at_ pass => ?_⟩
  · exact oneAccess_of (fun s => show exec (.cntRd f) s = execCntRd f s from rfl) load_kind fun _ _ _ _ => rfl
  · rcases form with rfl | rfl | rfl
    · exact ldRed_records (f := f) h rfl pass rfl
    · exact ldRed_records (f := f) h rfl pass rfl
    · exact ldRed_records (f := f) h rfl pass rfl

/-- Settles O22: each store checks its lanes, or its one address, and records their pieces with its registers' data. -/
theorem storesAreRecorded : Obligations.StoresAreRecorded := by
  refine ⟨fun f => ?_, fun f => ?_, fun f => ?_, fun f => ?_, fun f => ?_, fun f => storeS_records rfl rfl rfl fun _ => rfl,
    fun f s gid g p h at_ pass => stMc_records h rfl pass rfl rfl⟩
  · exact store_records rfl rfl rfl (fun _ => rfl) fun c l => datum_one c _ l
  · exact store_records rfl rfl rfl (fun _ => rfl) fun c l => datum_one c _ l
  · exact store_records rfl rfl rfl (fun _ => rfl) fun c l => datum_one c _ l
  · exact store_records rfl rfl rfl (fun _ => rfl) fun c l => datum_two c _ l
  · exact store_records rfl rfl rfl (fun _ => rfl) fun c l => datum_four c _ l

/-! ## Atomics and objects (R328 to R342) -/

/-- An atomic records its operands at issue. -/
theorem atomic_records {i : Instr} {n size : Nat} {host : Bool} {body : Cx → State → Res} (v v2 : Cx → Nat → Nat) (a : (view i).a = n)
    (e : ∀ s, exec i s = issue i s body) (b : ∀ s gid g p, let c := ctx i s gid g p
      ∃ v' v2' : Nat → Nat, body c (afterIssue i s gid g p) = c.atomic (afterIssue i s gid g p) size host v' v2' ∧
        (∀ l, v' l = v c l) ∧ ∀ l, v2' l = v2 c l) :
    LaneAccess i { acc := .store, priv := false, host := host } size (fun c l => c.addr n l) (fun _ _ => (6, 1))
      (fun c l => l.map (fun a => { a with v := v c a.lane, v2 := v2 c a.lane })) := by
  refine laneAccess_of e atomic_kind fun s gid g p => ?_
  obtain ⟨v', v2', runs, first, second⟩ := b s gid g p
  dsimp only
  rw [runs, funext first, funext second, ← a]
  rfl

/-- X of an atomic chooses whether host memory performs it (R328). -/
theorem host_of_x (x k : BitVec 2) : (x.toNat == k.toNat) = (x == k) := by
  rw [Bool.eq_iff_iff, x_beq, beq_iff_eq]

/-- Settles O23: each form checks its lanes, or its one address, and records an entry of class I1 with its operands. -/
theorem atomicsAreRecorded : Obligations.AtomicsAreRecorded := by
  refine ⟨fun f => ?_, fun f => ?_, fun f x => ?_, fun f x => ?_, fun f x => ?_, fun f => ?_, fun f => ?_, fun f => ?_, fun f => ?_,
    fun f => ?_, fun f s gid g p h => ?_⟩
  · exact atomic_records (fun c l => (c.v (f.d.toNat + 1) l).toNat) (fun _ _ => 0) rfl
      (fun s => show exec (.atomA f) s = execAtomA f s from rfl) fun s gid g p =>
      ⟨_, _, congrArg (Cx.atomic _ _ 4 · _ _) (host_of_x f.x 0), fun l => datum_one .., fun _ => rfl⟩
  · exact atomic_records (fun c l => (c.v (f.d.toNat + 1) l).toNat) (fun _ _ => 0) rfl
      (fun s => show exec (.atomB f) s = execAtomB f s from rfl) fun s gid g p =>
      ⟨_, _, congrArg (Cx.atomic _ _ 4 · _ _) (host_of_x f.x 3), fun l => datum_one .., fun _ => rfl⟩
  · refine atomic_records (host := true) (fun c l => (c.v (f.d.toNat + 1) l).toNat) (fun c l => (c.v (f.d.toNat + 2) l).toNat) rfl
      (fun s => show exec (.atomC f) s = execAtomC f s from rfl) fun s gid g p => ?_
    have zero : (ctx (.atomC f) s gid g p).vw.x = 0 := congrArg BitVec.toNat x
    refine ⟨(ctx (.atomC f) s gid g p).datum (f.d.toNat + 1) 1, (ctx (.atomC f) s gid g p).datum (f.d.toNat + 2) 1, ?_,
      fun l => datum_one .., fun l => datum_one ..⟩
    rw [zero]
    rfl
  · refine atomic_records (host := false) (fun c l => (c.v (f.d.toNat + 1) l).toNat) (fun _ _ => 0) rfl
      (fun s => show exec (.atomC f) s = execAtomC f s from rfl) fun s gid g p => ?_
    have one : (ctx (.atomC f) s gid g p).vw.x = 1 ∨ (ctx (.atomC f) s gid g p).vw.x = 2 :=
      x.imp (congrArg BitVec.toNat) (congrArg BitVec.toNat)
    refine ⟨(ctx (.atomC f) s gid g p).datum (f.d.toNat + 1) 1, fun _ => 0, ?_, fun l => datum_one .., fun _ => rfl⟩
    rcases one with one | two
    · rw [one]; rfl
    · rw [two]; rfl
  · refine atomic_records (host := true) (fun c l => (c.vp (f.d.toNat + 2) l).toNat) (fun _ _ => 0) rfl
      (fun s => show exec (.atomC f) s = execAtomC f s from rfl) fun s gid g p => ?_
    have three : (ctx (.atomC f) s gid g p).vw.x = 3 := congrArg BitVec.toNat x
    refine ⟨(ctx (.atomC f) s gid g p).datum (f.d.toNat + 2) 2, fun _ => 0, ?_, fun l => datum_two .., fun _ => rfl⟩
    rw [three]
    rfl
  · exact atomic_records (fun c l => (c.v f.d.toNat l).toNat) (fun _ _ => 0) rfl
      (fun s => show exec (.red f) s = execRed f s from rfl) fun s gid g p =>
      ⟨_, _, congrArg (Cx.atomic _ _ 4 · _ _) (host_of_x f.x 0), fun l => datum_one .., fun _ => rfl⟩
  · exact oneAccess_of (fun s => show exec (.barArrive f) s = execBarArrive f s from rfl) object_kind fun _ _ _ _ => rfl
  · exact laneAccess_of (fun s => show exec (.arrArrive f) s = execArrArrive f s from rfl) object_kind fun _ _ _ _ => rfl
  · exact laneAccess_of (fun s => show exec (.arrExpect f) s = execArrExpect f s from rfl) object_kind fun _ _ _ _ => rfl
  · exact oneAccess_of (fun s => show exec (.cntAdd f) s = execCntAdd f s from rfl) object_kind fun _ _ _ _ => rfl
  · exact ⟨_, ok_of (show exec (.collSignal f) s = execCollSignal f s from rfl) rfl h, _, (logged_enter h ..).records h, fresh_entryOf ..⟩

end Sys2Proof.Safety
end

section
/-! SUPPORT. The statement WaitsAndTests: what the translations of an access and the sleep of a split leave of the values that a home
returns, and waits whose condition holds at once. -/

namespace Sys2Proof.Machine

/-! ## What a read of a home depends on (R212) -/

/-- What a home returns stands as it was. -/
structure SameReads (s t : State) : Prop where
  mem : t.mem = s.mem
  hostMem : t.hostMem = s.hostMem
  spad : t.spad = s.spad
  m : t.m = s.m
  free : t.free = s.free
  lines : ∀ c, (t.core c).lines = (s.core c).lines
  unpub : ∀ d, (t.die d).unpub = (s.die d).unpub
  fused : ∀ c, (t.core c).fused = (s.core c).fused
  operand : ∀ c o n, t.inOperand c o n = s.inOperand c o n

theorem SameReads.trans {s t u : State} (a : SameReads s t) (b : SameReads t u) : SameReads s u :=
  ⟨b.mem.trans a.mem, b.hostMem.trans a.hostMem, b.spad.trans a.spad, b.m.trans a.m, b.free.trans a.free,
    fun c => (b.lines c).trans (a.lines c), fun d => (b.unpub d).trans (a.unpub d), fun c => (b.fused c).trans (a.fused c),
    fun c o n => (b.operand c o n).trans (a.operand c o n)⟩

section
variable {s t : State} (r : SameReads s t)
include r

theorem SameReads.memByte (a : Nat) : t.memByte a = s.memByte a := congrArg (Memory.read memDefault · a) r.mem

theorem SameReads.spadByte (c o : Nat) : t.spadByte c o = s.spadByte c o := congrArg (Memory.read zeroDefault · (spadKey c o)) r.spad

theorem SameReads.clusterCores (c : Nat) : t.clusterCores c = s.clusterCores c := by
  have enabled : t.enabled = s.enabled := funext fun k => by rw [State.enabled, r.m, State.enabled]
  rw [State.clusterCores, enabled, State.clusterCores]

theorem SameReads.lineCore (c va : Nat) : t.lineCore c va = s.lineCore c va := by
  rw [State.lineCore, r.fused, r.clusterCores, State.lineCore]

theorem SameReads.line? (k c va : Nat) (priv : Bool) : t.line? k c va priv = s.line? k c va priv := by
  rw [State.line?, r.lineCore, r.lines, State.line?]

theorem SameReads.copy? (c pa : Nat) : t.copy? c pa = s.copy? c pa := by rw [State.copy?, r.unpub, State.copy?]

theorem SameReads.homeByte (c pa : Nat) : t.homeByte c pa = s.homeByte c pa := by
  rw [State.homeByte, r.copy?, r.memByte, State.homeByte]

theorem SameReads.lineByte (c : Nat) (l : Line) (k : Nat) : t.lineByte c l k = s.lineByte c l k := by
  unfold State.lineByte
  simp only [r.copy?]

theorem SameReads.cachedRead (k c va pa n : Nat) (priv : Bool) : t.cachedRead k c va pa n priv = s.cachedRead k c va pa n priv := by
  unfold State.cachedRead
  simp only [r.line?, r.lineByte, r.homeByte]

theorem SameReads.fusedByte (k c va pa : Nat) : t.fusedByte k c va pa = s.fusedByte k c va pa := by
  unfold State.fusedByte State.fusedByte.copies
  simp only [r.line?, r.clusterCores, r.copy?]

theorem SameReads.readLoc (g : Group) (loc : Loc) (n : Nat) : t.readLoc g loc n = s.readLoc g loc n := by
  unfold State.readLoc State.memBytes State.hostBytes State.hostByte State.spadRead
  simp only [r.cachedRead, r.homeByte, r.memByte, r.hostMem, r.operand, r.free, r.spadByte]

theorem SameReads.homeRead (g : Group) (sc : Nat) (loc : Loc) (n : Nat) : t.homeRead g sc loc n = s.homeRead g sc loc n := by
  unfold State.homeRead State.homeOf State.inL1 State.lastAtom State.memBytes
  simp only [r.readLoc, r.fused, r.m, r.fusedByte, r.lineCore, r.memByte]

theorem SameReads.locPoison (loc : Loc) (n : Nat) : t.locPoison loc n = s.locPoison loc n := by
  unfold State.locPoison State.poisonIn State.poisoned State.spadBad
  simp only [r.m]

theorem SameReads.arrivalsOf (accs : List Acc) : t.arrivalsOf accs = s.arrivalsOf accs := by
  unfold State.arrivalsOf State.arrival State.spadBytes
  simp only [r.spadByte]

end

/-- A home is read for the slice and the core of a group. -/
theorem homeRead_group (s : State) {g x : Group} (slice : x.slice = g.slice) (core : x.core = g.core) (sc : Nat) (loc : Loc) (n : Nat) :
    s.homeRead x sc loc n = s.homeRead g sc loc n := by
  unfold State.homeRead State.homeOf State.inL1 State.readLoc
  simp only [slice, core]

theorem Tbl.any_upd {α : Type} (t : Tbl α) (k : Nat) (f : α → α) (P : α → Bool) (keeps : ∀ a, P (f a) = P a) :
    (Tbl.upd t k f).any (fun e => P e.2) = t.any (fun e => P e.2) := by
  induction t with
  | nil => rfl
  | cons e t ih =>
    rw [Tbl.upd]
    split
    · rw [List.any_cons, List.any_cons, keeps]
    · rw [List.any_cons, List.any_cons, ih]

/-- A change of a group that keeps its logbook. -/
theorem sameReads_modGroup (s : State) (gid : Nat) (f : Group → Group) (keeps : ∀ x, (f x).log = x.log) :
    SameReads s (s.modGroup gid f) := by
  refine ⟨rfl, rfl, rfl, rfl, rfl, fun _ => rfl, fun _ => rfl, fun _ => rfl, fun c o n => ?_⟩
  exact Tbl.any_upd s.groups gid f (fun x => x.log.any (fun e => e.rng.any (meetsRange c o n))) fun x => by rw [keeps]

/-! ## What translations leave -/

/-- A part of the cores that no translation changes. -/
theorem view_fillTlbs {α : Type} (view : Core → α) (keeps : ∀ x l, view { x with tlb := l } = view x) (k core : Nat) (l : List Nat)
    (s : State) (c : Nat) : view ((s.fillTlbs k core l).core c) = view (s.core c) := by
  induction l generalizing s with
  | nil => rfl
  | cons va l ih =>
    refine (ih _).trans ?_
    unfold State.fillTlb
    split
    · rfl
    · dsimp only
      rw [State.modDie_core, State.modCore_core]
      split
      next same => rw [keeps, same]
      · rfl

theorem sameReads_of {s t : State} (same : Safety.SameButCounts s t) (fused : ∀ c, (t.core c).fused = (s.core c).fused) : SameReads s t :=
  ⟨same.mem, same.hostMem, same.spad, same.m, same.free, same.lines, same.unpub, fused,
    fun c o n => congrArg (fun l : Tbl Group => l.any fun e => e.2.log.any (fun f => f.rng.any (meetsRange c o n))) same.groups⟩

theorem sameReads_touch (s : State) (g : Group) (accs : List Acc) : SameReads s (s.touch g accs) :=
  sameReads_of (Safety.sameButCounts_touch s g accs) fun c => view_fillTlbs Core.fused (fun _ _ => rfl) _ _ _ s c

theorem sameReads_countBanks (s : State) (core : Nat) (accs : List Acc) : SameReads s (s.countBanks core accs) := by
  refine sameReads_of (Safety.sameButCounts_countBanks s core accs) fun c => ?_
  unfold State.countBanks
  dsimp only
  split
  · rfl
  · exact (sameBins_modCore s core (fun x => x.count 24 (spadExtra accs)) (fun _ => rfl)).fused c

/-! ## What a sleep leaves -/

theorem Cx.sleeps_reads (c : Cx) (t : State) (w : Wait) (mark : Option Nat) : SameReads t (c.sleeps t w mark) :=
  sameReads_modGroup t c.gid _ fun _ => rfl

end Sys2Proof.Machine
end

section
/-! SUPPORT. How each wait stands whose condition holds. -/

namespace Sys2Proof.Machine

namespace State

variable {s : State} {gid born : Nat} {g : Group} {p : Split} {w : Wait}

/-- A wait that meets no poison in its objects is tried. -/
theorem waitPoison_clean {F : Acc → Option Nat} (reads : s.waitPoison g w = if waitTurn g w.num w.accs then w.accs.findSome? F else none)
    (clean : w.accs.findSome? F = none) : s.waitPoison g w = none := by
  rw [reads, clean, ite_self]

theorem tryWait_barWait {f : MA} {n tgt : Nat} {accs : List Acc} (unmarked : p.mark = none)
    (clean : accs.findSome? (fun a => s.locPoison a.loc 8) = none) (turn : waitTurn g n accs = true)
    (back : f.o.toNat = 0 ∨ g.valuesBack n = true) (passed : s.genAt g f.sc.toNat accs ≠ tgt) :
    s.tryWait gid born g p { insn := .barWait f, num := n, accs := accs, tgt := tgt } =
      .done ((s.acquire gid f.sc.toNat f.o.toNat).waitOver gid born) := by
  have sound : s.waitPoison g { insn := .barWait f, num := n, accs := accs, tgt := tgt } = none := waitPoison_clean rfl clean
  have opens : (f.o.toNat % 2 == 0 || g.valuesBack n) = true := by
    rcases back with zero | back
    · rw [zero]; rfl
    · rw [back, Bool.or_true]
  simp [tryWait, unmarked, sound, turn, opens, passed]

/-- bar.arrive_wait waits while its arrival has not completed. -/
theorem tryWait_barArriveWait {f : MA} {n id : Nat} {accs : List Acc} {e : Entry} (entry : g.entry? id = some e)
    (under : e.complete = false) :
    s.tryWait gid born g p { insn := .barArriveWait f, num := n, accs := accs, ent := some id } = .pending s := by
  simp [tryWait, entry, under]

theorem tryWait_arrWait {f : RG} {n tgt prom : Nat} {accs : List Acc} (clean : accs.findSome? (fun a => s.locPoison a.loc 16) = none)
    (turn : waitTurn g n accs = true) (all : ∀ x ∈ s.arrivalsOf accs, x.2.err = 0 ∧ reached x.2.gen tgt = true) :
    s.tryWait gid born g p { insn := .arrWait f, num := n, accs := accs, tgt := tgt, prom := prom } = .done (s.waitOver gid born) := by
  have sound : s.waitPoison g { insn := .arrWait f, num := n, accs := accs, tgt := tgt, prom := prom } = none := waitPoison_clean rfl clean
  have good : (s.arrivalsOf accs).find? (fun x => x.2.err != 0) = none :=
    List.find?_eq_none.mpr fun x hx => by simp [(all x hx).1]
  have past : ((s.arrivalsOf accs).all fun x => reached x.2.gen tgt) = true := List.all_eq_true.mpr fun x hx => (all x hx).2
  simp [tryWait, sound, turn, good, past]

theorem tryWait_cntWait {f : MA} {n tgt : Nat} {accs : List Acc} (clean : accs.findSome? (fun a => s.locPoison a.loc 16) = none)
    (turn : waitTurn g n accs = true) (sound : nbit (s.counterAt g f.sc.toNat accs).2 63 = false)
    (reached : tgt ≤ (s.counterAt g f.sc.toNat accs).1) :
    s.tryWait gid born g p { insn := .cntWait f, num := n, accs := accs, tgt := tgt } = .done (s.waitOver gid born) := by
  have clean : s.waitPoison g { insn := .cntWait f, num := n, accs := accs, tgt := tgt } = none := waitPoison_clean rfl clean
  simp [tryWait, clean, turn, sound, reached]

theorem tryWait_collWait {f : RG} {n tgt : Nat}
    (ended : (g.log.any fun e => e.kind == 11 && isColl e.instr && e.acc.any fun a => a.ea.toNat == tgt) = false) :
    s.tryWait gid born g p { insn := .collWait f, num := n, tgt := tgt } = .done (s.waitOver gid born) := by
  simp [tryWait, ended]

theorem tryWait_mmaWait {f : RG} {n : Nat}
    (none_ : g.log.filter (fun e => e.kind == 12 && isMma e.instr && (view e.instr).d == f.d.toNat) = []) :
    s.tryWait gid born g p { insn := .mmaWait f, num := n } = .done (s.waitOver gid born) := by
  unfold tryWait
  simp only [none_]
  rfl

theorem tryWait_mmaFence {f : RG} {n : Nat} (fenced : (g.older n).all (mmaFenced g.core f.b.toNat) = true)
    (zeroed : g.zeroed (s.now g.core) = true) (converted : g.converted n = true) :
    s.tryWait gid born g p { insn := .mmaFence f, num := n } = .done (s.waitOver gid born) := by
  simp [tryWait, fenced, zeroed, converted]

end State

end Sys2Proof.Machine

namespace Sys2Proof.Safety

open Machine

variable {i : Instr} {s t u : State} {gid : Nat} {g x : Group} {p : Split} {w : Wait}

/-! ## A wait that is met at once (R347) -/

theorem Regroups.counts (r : Regroups s t gid x) (same : SameButCounts t u) : Regroups s u gid x :=
  ⟨r.memory.trans same.same, fun k other => by rw [same.groups, r.groups k other], by rw [same.groups, r.found]⟩

/-- The group whose split has fallen asleep after its issue. -/
def dozing (i : Instr) (s : State) (g : Group) (p : Split) (w : Wait) : Group :=
  (issuedGroup i s g p).modSplit p.born (Split.dozes p.pc w none)

/-- How its wait stands then. -/
def standing (i : Instr) (s : State) (gid : Nat) (g : Group) (p : Split) (t : State) (w : Wait) : WaitRes :=
  ((ctx i s gid g p).sleeps t w none).tryWait gid p.born (dozing i s g p w) ((afterSplit i s g p).dozes p.pc w none) w

theorem splitsAside_dozing (i : Instr) (s : State) (g : Group) (p : Split) (w : Wait) : SplitsAside g (dozing i s g p w) :=
  (splitsAside_issued i s g p).trans (splitsAside_splits _ _)

section
variable (h : Issues i s gid g p) (same : SameButCounts (afterIssue i s gid g p) t)
include h same

theorem asleep_after (w : Wait) : let u := (ctx i s gid g p).sleeps t w none
    Regroups s u gid (dozing i s g p w) ∧ SleepsAt g p (dozing i s g p w) w none := by
  obtain ⟨slept, sleeps⟩ := ((regroups_after h).counts same).asleep (splitIssued h) w none
  rw [slept.group] at sleeps
  exact ⟨slept, sleeps⟩

/-- A wait of a form whose base state differs in counts alone. -/
theorem await_of {v : Wait} (num : { v with num := g.nextNum } = w)
    (tried : standing i s gid g p t w = .pending u ∨ standing i s gid g p t w = .done u) : (ctx i s gid g p).await t v false = .ok u :=
  Cx.await_eq ((regroups_after h).counts same).found (splitIssued h).own num rfl tried

/-- The split goes on, in a state that differs from that of its sleep in dies and lines at most. -/
theorem woken_work (work : SameWork ((ctx i s gid g p).sleeps t w none) u) : let v := u.waitOver gid p.born
    WaitOver p (v.group gid) ∧ SplitsAside g (v.group gid) ∧ ∀ a, v.memByte a = s.memByte a := by
  obtain ⟨slept, sleeps⟩ := asleep_after h same w
  have found : Tbl.find u.groups gid = some (dozing i s g p w) := (congrArg (Tbl.find · gid) work.groups).trans slept.found
  have awake : Regroups u (u.waitOver gid p.born) gid _ := (regroups_refl found).modGroup (·.modSplit p.born Split.wakes)
  dsimp only
  rw [awake.group]
  refine ⟨waitOver_awake sleeps, (splitsAside_dozing i s g p w).trans (splitsAside_splits _ _), fun a => ?_⟩
  exact (awake.memory.mem a).trans ((congrArg (Memory.read memDefault · a) work.mem).trans (slept.memory.mem a))

/-- The split goes on, and nothing but it has changed. -/
theorem woken : let v := ((ctx i s gid g p).sleeps t w none).waitOver gid p.born
    WaitOver p (v.group gid) ∧ (v.group gid).fmode = g.fmode ∧ RegsOnly [] s v gid g := by
  obtain ⟨slept, sleeps⟩ := asleep_after h same w
  have awake : Regroups s (((ctx i s gid g p).sleeps t w none).waitOver gid p.born) gid _ := slept.modGroup (·.modSplit p.born Split.wakes)
  have aside := (splitsAside_dozing i s g p w).trans (splitsAside_splits _ (modSplits (dozing i s g p w).splits p.born Split.wakes))
  refine ⟨?_, awake.fmode aside.toSameFiles, awake.regsOnly aside⟩
  rw [awake.group]
  exact waitOver_awake sleeps

/-- A form that waits, whose condition holds. -/
theorem gives_woken {body : Cx → State → Res} {v : Wait} (e : exec i s = issue i s body)
    (waits : body (ctx i s gid g p) (afterIssue i s gid g p) = (ctx i s gid g p).await t v false) (num : { v with num := g.nextNum } = w)
    (met : standing i s gid g p t w = .done (((ctx i s gid g p).sleeps t w none).waitOver gid p.born)) :
    Gives i s (fun t => WaitOver p (t.group gid) ∧ (t.group gid).fmode = g.fmode ∧ RegsOnly [] s t gid g) :=
  ⟨_, ok_of e (waits.trans (await_of h same num (.inr met))) h, woken h same⟩

end

theorem acquire_work (t : State) (gid sc o : Nat) : SameWork t (t.acquire gid sc o) := by
  unfold State.acquire
  split
  · exact openAt_work t gid sc
  · exact ⟨rfl, rfl, rfl, rfl, rfl⟩

theorem Cx.reads_clean {c : Cx} {t : State} {n : Nat} {accs : List Acc} (clean : accs.findSome? (fun a => t.locPoison a.loc n) = none)
    (k : Res) : c.reads t n accs k = k := by
  unfold Machine.Cx.reads
  rw [clean]

theorem after_view {α : Type} (view : Core → α) (paid : ∀ x b n w, view { x with bkt := b, issued := n, winSpent := w } = view x)
    (sampled : ∀ x n, view { x with samples := n } = view x) (i : Instr) (s : State) (gid : Nat) (g : Group) (p : Split) (c : Nat) :
    view ((afterIssue i s gid g p).core c) = view (s.core c) := by
  have mod (t : State) (k : Nat) (f : Core → Core) (keeps : ∀ x, view (f x) = view x) : view ((t.modCore k f).core c) = view (t.core c) := by
    rw [State.modCore_core]
    split
    next same => rw [keeps, same]
    · rfl
  have charge (t : State) : view ((t.charge g i).core c) = view (t.core c) := by
    unfold State.charge
    dsimp only
    split <;> exact mod _ _ _ fun x => paid x ..
  have sample (t : State) : view ((t.sample g p i).core c) = view (t.core c) := by
    unfold State.sample State.trace
    dsimp only
    split
    · rfl
    · split
      · split <;> exact mod _ _ _ fun x => sampled x _
      · exact mod _ _ _ fun x => sampled x _
  exact (congrArg view (after_core i s gid g p c)).trans ((sample _).trans (charge _))

end Sys2Proof.Safety
end

section
/-! SUPPORT. The statement WaitsAndTests: its waits, tests and counts, form by form. -/

namespace Sys2Proof.Safety

open Machine

variable {i : Instr} {s t u : State} {gid : Nat} {g x : Group} {p : Split} {w : Wait} {a : Acc} {accs : List Acc}

/-! ## Objects and their values -/

theorem barrier_ok {c : Cx} {acc : Access} {k : List Acc → Res} (check : c.checkOne t (barOpt acc) 8 c.addr1 = .ok accs) :
    c.barrier t acc k = k accs := by
  rw [Cx.barrier, check]

theorem objects_ok {c : Cx} {acc : Access} {k : List Acc → Res}
    (check : c.checkLanes t { acc := acc, glob := false, priv := false } 16 (fun l => c.addr c.vw.a l) = .ok accs) :
    c.objects t acc k = k accs := by
  rw [Cx.objects, check]

theorem counter_ok {c : Cx} {acc : Access} {k : List Acc → Res}
    (check : c.checkOne t { acc := acc, priv := false, spad := false, peer := false } 16 c.addr1 = .ok accs) :
    c.counter t acc k = k accs := by
  rw [Cx.counter, check]

/-- A well-formed barrier object stays defined. -/
theorem spoil_sound {c : Cx} (sound : barBad (ofLe (t.homeRead c.g c.vw.sc a.loc 8)) = false) : c.spoil t [a] = t :=
  if_neg (ne_true_of_eq_false sound)

section
variable (reads : SameReads (afterIssue i s gid g p) t)
include reads

/-- What a home returns while the split sleeps. -/
theorem homeRead_slept (sc : Nat) (loc : Loc) (n : Nat) : ((ctx i s gid g p).sleeps t w none).homeRead (dozing i s g p w) sc loc n =
    (afterIssue i s gid g p).homeRead g sc loc n :=
  ((reads.trans (Cx.sleeps_reads ..)).homeRead ..).trans (homeRead_group _ rfl rfl sc loc n)

theorem clean_slept {n : Nat} (clean : accs.findSome? (fun a => (afterIssue i s gid g p).locPoison a.loc n) = none) :
    accs.findSome? (fun a => ((ctx i s gid g p).sleeps t w none).locPoison a.loc n) = none := by
  simp only [(reads.trans (Cx.sleeps_reads (ctx i s gid g p) t w none)).locPoison]
  exact clean

theorem arrivals_slept : ((ctx i s gid g p).sleeps t w none).arrivalsOf accs = (afterIssue i s gid g p).arrivalsOf accs :=
  (reads.trans (Cx.sleeps_reads ..)).arrivalsOf accs

end

theorem clean_one {n : Nat} (clean : t.locPoison a.loc n = none) : [a].findSome? (fun a => t.locPoison a.loc n) = none := by
  rw [List.findSome?_cons, clean]
  rfl

/-! ## bar.wait (R336) -/

theorem execBarWait_eq (f : MA) (s : State) : exec (.barWait f) s = issue (.barWait f) s (fun c t => c.barrier t .load (fun accs =>
    c.await ((c.spoil t accs).touch c.g accs)
      { insn := .barWait f, accs := accs, tgt := (c.s c.vw.d).toNat % 2 ^ 20 } (f.o.toNat / 2 == 1))) := rfl

theorem gives_barWait {f : MA} (h : Issues (.barWait f) s gid g p) (plain : f.o.toNat < 2) :
    let c := ctx (.barWait f) s gid g p
    let u := afterIssue (.barWait f) s gid g p
    let v := ofLe (u.homeRead g f.sc.toNat a.loc 8)
    c.checkOne u { priv := false, peer := false, host := false } 8 (c.addr f.a.toNat (firstLane c.mask)) = .ok [a] →
    barBad v = false → barGen v ≠ (c.s f.d.toNat).toNat % 2 ^ 20 → waitTurn g g.nextNum [a] = true →
    u.locPoison a.loc 8 = none → (f.o.toNat = 0 ∨ g.valuesBack g.nextNum = true) →
    Gives (.barWait f) s (fun t => WaitOver p (t.group gid) ∧ KeepsRegs [] g (t.group gid) ∧ KeepsRest g (t.group gid) ∧
      ∀ x, t.memByte x = s.memByte x) := by
  intro c u v check sound passed turn clean back
  let w : Wait := { insn := .barWait f, num := g.nextNum, accs := [a], tgt := (c.s f.d.toNat).toNat % 2 ^ 20 }
  have same : SameButCounts u (u.touch g [a]) := sameButCounts_touch u g [a]
  have reads : SameReads u (u.touch g [a]) := sameReads_touch u g [a]
  have unreleased : (f.o.toNat / 2 == 1) = false := beq_eq_false_iff_ne.mpr (by omega)
  have met : standing (.barWait f) s gid g p (u.touch g [a]) w =
      .done (((c.sleeps (u.touch g [a]) w none).acquire gid f.sc.toNat f.o.toNat).waitOver gid p.born) :=
    State.tryWait_barWait rfl (clean_slept reads (clean_one clean)) turn back
      (ne_of_eq_of_ne (congrArg (fun b => barGen (ofLe b)) (homeRead_slept reads f.sc.toNat a.loc 8)) passed)
  have waits : c.barrier u .load (fun accs => c.await ((c.spoil u accs).touch c.g accs)
      { insn := .barWait f, accs := accs, tgt := (c.s c.vw.d).toNat % 2 ^ 20 } (f.o.toNat / 2 == 1)) =
        .ok (((c.sleeps (u.touch g [a]) w none).acquire gid f.sc.toNat f.o.toNat).waitOver gid p.born) := by
    rw [barrier_ok check, spoil_sound (c := c) (t := u) sound, unreleased]
    exact await_of h same rfl (.inr met)
  obtain ⟨goes, aside, bytes⟩ := woken_work h same (acquire_work (c.sleeps (u.touch g [a]) w none) gid f.sc.toNat f.o.toNat)
  exact ⟨_, ok_of (execBarWait_eq f s) waits h, goes, aside.toSameFiles.regs, aside.rest, bytes⟩

/-! ## bar.arrive_wait (R336) -/

theorem execBarArriveWait_eq (f : MA) (s : State) : exec (.barArriveWait f) s = issue (.barArriveWait f) s (fun c t =>
    match c.arrived with
    | some e => c.await t { insn := .barArriveWait f, accs := e.acc, ent := some e.id } false
    | none => c.barrier t .store (fun accs =>
        c.await (c.record t 8 1 accs) { insn := .barArriveWait f, accs := accs, ent := some (freePlace c.g.log) } false)) := rfl

theorem gives_arriveWait {f : MA} (h : Issues (.barArriveWait f) s gid g p) :
    let c := ctx (.barArriveWait f) s gid g p
    let u := afterIssue (.barArriveWait f) s gid g p
    c.arrived = none →
    c.checkOne u { acc := .store, priv := false, peer := false, host := false } 8 (c.addr f.a.toNat (firstLane c.mask)) = .ok [a] →
    (∀ e ∈ g.log, e.id ≠ freePlace g.log) → p.mask ≠ 0 →
    Gives (.barArriveWait f) s (fun t =>
      (∃ e, (t.group gid).log = g.log ++ [e] ∧ Fresh (.barArriveWait f) g p 8 1 [a] e) ∧
      SleepsAt g p (t.group gid)
        { insn := .barArriveWait f, num := g.nextNum + 1, accs := [a], ent := some (freePlace g.log) } none ∧
      restLog (t.group gid) = restLog g ∧ KeepsRegs [] g (t.group gid) ∧ SameMemory s t) := by
  intro c u new check free lanes
  let e := entryOf c u 8 1 p.mask [a]
  let w : Wait := { insn := .barArriveWait f, num := g.nextNum + 1, accs := [a], ent := some (freePlace g.log) }
  have r := (logged_record h 8 1 [a]).regroups
  have k : SplitIssued (.barArriveWait f) s g p _ := (splitIssued h).of_splits
    (y := { issuedGroup (.barArriveWait f) s g p with log := g.log ++ [e], nextNum := g.nextNum + 1 }) rfl
  obtain ⟨slept, sleeps⟩ := r.asleep k w none
  have under : e.complete = false := by
    refine beq_eq_false_iff_ne.mpr fun zero => lanes ?_
    have zero : p.mask &&& ~~~(0#32) = 0#32 := zero
    rwa [BitVec.not_zero, BitVec.and_allOnes] at zero
  have waits : c.await (c.record u 8 1 [a]) { insn := .barArriveWait f, accs := [a], ent := some (freePlace g.log) } false =
      .ok (c.sleeps (c.record u 8 1 [a]) w none) :=
    Cx.await_eq r.found k.own rfl rfl (.inl (State.tryWait_barArriveWait (entry?_appended (e := e) free rfl) under))
  refine ⟨_, ok_of (execBarArriveWait_eq f s) ?_ h, ?_, sleeps, ?_, ?_, slept.memory⟩
  · rw [show (ctx (.barArriveWait f) s gid g p).arrived = none from new]
    exact (barrier_ok check).trans waits
  all_goals rw [slept.group]
  · exact ⟨e, rfl, fresh_entryOf ..⟩
  · rfl
  · exact SameFiles.regs ⟨rfl, rfl, rfl, rfl⟩

theorem gives_arrivedWait {f : MA} {e : Entry} (h : Issues (.barArriveWait f) s gid g p)
    (arrived : (ctx (.barArriveWait f) s gid g p).arrived = some e) (entry : g.entry? e.id = some e) (under : e.complete = false) :
    Gives (.barArriveWait f) s (fun t =>
      SleepsAt g p (t.group gid) { insn := .barArriveWait f, num := g.nextNum, accs := e.acc, ent := some e.id } none ∧
      (t.group gid).log = g.log ∧ (t.group gid).fmode = g.fmode ∧ RegsOnly [] s t gid g) := by
  let w : Wait := { insn := .barArriveWait f, num := g.nextNum, accs := e.acc, ent := some e.id }
  obtain ⟨slept, sleeps⟩ := asleep_after h (.refl _) w
  have aside := splitsAside_dozing (.barArriveWait f) s g p w
  refine ⟨_, ok_of (execBarArriveWait_eq f s) ?_ h, slept.group ▸ sleeps, ?_, slept.fmode aside.toSameFiles, slept.regsOnly aside⟩
  · rw [arrived]
    exact await_of h (.refl _) (w := w) rfl (.inl (State.tryWait_barArriveWait (g := dozing (.barArriveWait f) s g p w) entry under))
  · rw [slept.group]
    rfl

/-! ## Results on a state that differs in counts alone -/

/-- A predicate result. -/
theorem gives_counted_pred {F : Nat → Bool} (h : Issues i s gid g p) (same : SameButCounts (afterIssue i s gid g p) t)
    (run : exec i s = .next ((ctx i s gid g p).giveP t (view i).d F)) : Gives i s (fun t =>
      PredHolds (ctx i s gid g p) (t.group gid) (view i).d F ∧ RegsOnly [96 + (view i).d] s t gid g ∧ GoesOn i s g p (t.group gid)) := by
  have w := (wrote_after h).counts same
  have group : t.group gid = (afterIssue i s gid g p).group gid := congrArg (fun l : Tbl Group => Tbl.get l {} gid) same.groups
  have written := w.toPred (ctx i s gid g p) rfl false (view i).d F
  refine ⟨_, run, fun l lt => ?_, written.regsOnly, written.goesOn h.split⟩
  refine (toPred_group rfl w.found false _ F l lt).trans ?_
  have file : (t.group (ctx i s gid g p).gid).pReg (view i).d = (ctx i s gid g p).g.pReg (view i).d :=
    (congrArg (Group.pReg · _) group).trans (pReg_after h _)
  rw [file]

/-- A group-scalar result, and what the acquire part of its form then opens (R220). -/
theorem gives_acquired_scalar {v : Word} (h : Issues i s gid g p) (same : SameButCounts (afterIssue i s gid g p) t) {u : State}
    (work : SameWork ((ctx i s gid g p).giveS t (view i).d v) u) (run : exec i s = .next u) : Gives i s (fun t =>
      ScalarHolds (ctx i s gid g p) (t.group gid) (view i).d v ∧ KeepsRegs [64 + (view i).d] g (t.group gid) ∧
        KeepsRest g (t.group gid) ∧ GoesOn i s g p (t.group gid) ∧ ∀ x, t.memByte x = s.memByte x) := by
  have w := (wrote_after h).counts same
  have written := w.toScalar (ctx i s gid g p) rfl false (view i).d v
  have group : u.group gid = ((ctx i s gid g p).giveS t (view i).d v).group gid :=
    congrArg (fun l : Tbl Group => Tbl.get l {} gid) work.groups
  refine ⟨u, run, ?_⟩
  dsimp only
  rw [group]
  refine ⟨(toScalar_group rfl w.found false _ _ v).trans (if_pos rfl), written.regs, written.rest, written.goesOn h.split, fun x => ?_⟩
  exact (congrArg (Memory.read memDefault · x) work.mem).trans (written.memory.mem x)

/-! ## bar.count, arr.test and cnt.test (R336, R340, R342) -/

theorem execBarCount_eq (f : MA) (s : State) : exec (.barCount f) s = issue (.barCount f) s (fun c t => c.barrier t .load (fun accs =>
    if !waitTurn c.g c.num accs || (c.vw.o % 2 == 1 && !c.g.valuesBack c.num) then .hold
    else c.reads t 8 accs <|
      let v := match accs with | [] => 0 | a :: _ => ofLe (t.homeRead c.g c.vw.sc a.loc 8)
      let t1 := c.giveS ((c.spoil t accs).touch c.g accs) c.vw.d (BitVec.ofNat 32 (barPend v))
      .ok (t1.acquire c.gid c.vw.sc c.vw.o))) := rfl

theorem execArrTest_eq (f : RG) (s : State) : exec (.arrTest f) s = issue (.arrTest f) s (fun c t => c.objects t .load (fun accs =>
    if !waitTurn c.g c.num accs then .hold
    else c.reads t 16 accs <|
      let l := t.arrivalsOf accs
      let tgt := (c.s c.vw.b).toNat % 65536
      .ok (c.giveP (t.countBanks c.g.core accs) c.vw.d (fun n => match l.find? (fun x => x.1 == n) with
        | some x => reached x.2.gen tgt
        | none => false)))) := rfl

theorem execCntTest_eq (f : MA) (s : State) : exec (.cntTest f) s = issue (.cntTest f) s (fun c t => c.counter t .load (fun accs =>
    if !waitTurn c.g c.num accs then .hold
    else c.reads t 16 accs <|
      let w := t.counterAt c.g c.vw.sc accs
      let r := if nbit w.2 63 then 2 else b2n (decide ((c.sp2 c.vw.d).toNat ≤ w.1))
      .ok (c.giveSp (t.touch c.g accs) c.vw.d (BitVec.ofNat 64 r)))) := rfl

/-- A read of objects whose turn has come and that meets no poison is made. -/
theorem turn_reads {c : Cx} {n : Nat} {accs : List Acc} {held : Bool} {k : Res} (turn : waitTurn c.g c.num accs = true)
    (unheld : held = false) (clean : accs.findSome? (fun a => t.locPoison a.loc n) = none) :
    (if (!waitTurn c.g c.num accs || held) = true then .hold else c.reads t n accs k) = k := by
  rw [turn, unheld]
  exact Cx.reads_clean clean k

theorem gives_barCount {f : MA} (h : Issues (.barCount f) s gid g p) :
    let c := ctx (.barCount f) s gid g p
    let u := afterIssue (.barCount f) s gid g p
    let v := ofLe (u.homeRead g f.sc.toNat a.loc 8)
    c.checkOne u { priv := false, peer := false, host := false } 8 (c.addr f.a.toNat (firstLane c.mask)) = .ok [a] →
    barBad v = false → waitTurn g g.nextNum [a] = true → u.locPoison a.loc 8 = none → (f.o.toNat % 2 = 0 ∨ g.valuesBack g.nextNum = true) →
    Gives (.barCount f) s (fun t => ScalarHolds c (t.group gid) f.d.toNat (BitVec.ofNat 32 (barPend v)) ∧
      KeepsRegs [64 + f.d.toNat] g (t.group gid) ∧ KeepsRest g (t.group gid) ∧ GoesOn (.barCount f) s g p (t.group gid) ∧
      ∀ x, t.memByte x = s.memByte x) := by
  intro c u v check sound turn clean back
  have num : c.num = g.nextNum := ctx_num h
  have unheld : (f.o.toNat % 2 == 1 && !g.valuesBack c.num) = false := by
    rw [num]
    rcases back with even | back
    · rw [even]; rfl
    · rw [back]; exact Bool.and_false _
  refine gives_acquired_scalar h (sameButCounts_touch u g [a]) (acquire_work _ gid f.sc.toNat f.o.toNat)
    (ok_of (execBarCount_eq f s) ((barrier_ok check).trans ((turn_reads ?_ unheld (clean_one clean)).trans ?_)) h)
  · rw [num]; exact turn
  · rw [spoil_sound (c := c) (t := u) sound]
    rfl

theorem gives_arrTest {f : RG} (h : Issues (.arrTest f) s gid g p) :
    let c := ctx (.arrTest f) s gid g p
    let u := afterIssue (.arrTest f) s gid g p
    let tgt := (c.s f.b.toNat).toNat % 65536
    c.checkLanes u { glob := false, priv := false } 16 (fun l => c.addr f.a.toNat l) = .ok accs →
    waitTurn g g.nextNum accs = true → accs.findSome? (fun a => u.locPoison a.loc 16) = none →
    Gives (.arrTest f) s (fun t => PredHolds c (t.group gid) f.d.toNat (fun l =>
        match (u.arrivalsOf accs).find? (fun x => x.1 == l) with | some x => reached x.2.gen tgt | none => false) ∧
      RegsOnly [96 + f.d.toNat] s t gid g ∧ GoesOn (.arrTest f) s g p (t.group gid)) := by
  intro c u tgt check turn clean
  have num : c.num = g.nextNum := ctx_num h
  refine gives_counted_pred h (sameButCounts_countBanks u g.core accs) (ok_of (execArrTest_eq f s) ((objects_ok check).trans ?_) h)
  have turn : waitTurn c.g c.num accs = true := by rw [num]; exact turn
  rw [turn]
  exact Cx.reads_clean clean _

theorem gives_cntTest {f : MA} (h : Issues (.cntTest f) s gid g p) :
    let c := ctx (.cntTest f) s gid g p
    let u := afterIssue (.cntTest f) s gid g p
    let b := u.homeRead g f.sc.toNat a.loc 16
    c.checkOne u { priv := false, spad := false, peer := false } 16 (c.addr f.a.toNat (firstLane c.mask)) = .ok [a] →
    waitTurn g g.nextNum [a] = true → u.locPoison a.loc 16 = none →
    Gives (.cntTest f) s (fun t =>
      ScalarHolds c (t.group gid) f.d.toNat (if nbit (field b 8 8) 63 then 2
        else if (c.sp2 f.d.toNat).toNat ≤ field b 0 8 then 1 else 0) ∧
      ScalarHolds c (t.group gid) (f.d.toNat + 1) 0 ∧ (t.group gid).fmode = g.fmode ∧
      RegsOnly [64 + f.d.toNat, 64 + f.d.toNat + 1] s t gid g ∧ GoesOn (.cntTest f) s g p (t.group gid)) := by
  intro c u b check turn clean
  have num : c.num = g.nextNum := ctx_num h
  have turn : waitTurn c.g c.num [a] = true := by rw [num]; exact turn
  let r := if nbit (field b 8 8) 63 then 2 else b2n (decide ((c.sp2 f.d.toNat).toNat ≤ field b 0 8))
  obtain ⟨t, run, low, high, fmode, regs, goes, -⟩ := gives_pair (v := BitVec.ofNat 64 r) h (sameButCounts_touch u g [a])
    (ok_of (execCntTest_eq f s) ((counter_ok check).trans (by rw [turn]; exact Cx.reads_clean (clean_one clean) _)) h)
  have halves : (BitVec.ofNat 64 r).extractLsb' 0 32 = (if nbit (field b 8 8) 63 then 2
      else if (c.sp2 f.d.toNat).toNat ≤ field b 0 8 then 1 else 0 : Word) ∧ (BitVec.ofNat 64 r).extractLsb' 32 32 = 0 := by
    dsimp only [r]
    split
    · decide
    · unfold b2n
      split <;> simp_all
  rw [halves.1] at low
  rw [halves.2] at high
  exact ⟨t, run, low, high, fmode, regs, goes⟩

/-! ## arr.wait, cnt.wait and coll.wait (R341, R343, R373) -/

theorem execArrWait_eq (f : RG) (s : State) : exec (.arrWait f) s = issue (.arrWait f) s (fun c t => c.objects t .load (fun accs =>
    c.await (t.countBanks c.g.core accs) { insn := .arrWait f, accs := accs, tgt := (c.s c.vw.d).toNat % 65536, prom := c.promise } false)) :=
  rfl

theorem execCntWait_eq (f : MA) (s : State) : exec (.cntWait f) s = issue (.cntWait f) s (fun c t => c.counter t .load (fun accs =>
    c.await (t.touch c.g accs) { insn := .cntWait f, accs := accs, tgt := (c.sp2 c.vw.d).toNat } false)) := rfl

theorem execCollWait_eq (f : RG) (s : State) :
    exec (.collWait f) s = issue (.collWait f) s (fun c t => c.await t { insn := .collWait f, tgt := c.addr1.toNat } false) := rfl

theorem execCollTest_eq (f : RG) (s : State) : exec (.collTest f) s = issue (.collTest f) s (fun c t =>
    let held := c.g.log.any (fun e => e.kind == 11 && isColl e.instr && e.acc.any (fun a => a.ea == c.addr1))
    .ok (c.giveP t c.vw.d (fun _ => !held))) := rfl

theorem gives_arrWait {f : RG} (h : Issues (.arrWait f) s gid g p) :
    let c := ctx (.arrWait f) s gid g p
    let u := afterIssue (.arrWait f) s gid g p
    let tgt := (c.s f.d.toNat).toNat % 65536
    c.checkLanes u { glob := false, priv := false } 16 (fun l => c.addr f.a.toNat l) = .ok accs →
    waitTurn g g.nextNum accs = true → accs.findSome? (fun a => u.locPoison a.loc 16) = none →
    (∀ x ∈ u.arrivalsOf accs, x.2.err = 0 ∧ reached x.2.gen tgt = true) →
    Gives (.arrWait f) s (fun t => WaitOver p (t.group gid) ∧ (t.group gid).fmode = g.fmode ∧ RegsOnly [] s t gid g) := by
  intro c u tgt check turn clean all
  have reads : SameReads u (u.countBanks g.core accs) := sameReads_countBanks u g.core accs
  refine gives_woken (w := { insn := .arrWait f, num := g.nextNum, accs := accs, tgt := tgt, prom := c.promise }) h
    (sameButCounts_countBanks u g.core accs) (execArrWait_eq f s) (objects_ok check) rfl ?_
  refine State.tryWait_arrWait (clean_slept reads clean) turn fun x mem => all x ?_
  rwa [arrivals_slept reads] at mem

theorem gives_cntWait {f : MA} (h : Issues (.cntWait f) s gid g p) :
    let c := ctx (.cntWait f) s gid g p
    let u := afterIssue (.cntWait f) s gid g p
    let b := u.homeRead g f.sc.toNat a.loc 16
    c.checkOne u { priv := false, spad := false, peer := false } 16 (c.addr f.a.toNat (firstLane c.mask)) = .ok [a] →
    waitTurn g g.nextNum [a] = true → u.locPoison a.loc 16 = none → nbit (field b 8 8) 63 = false → (c.sp2 f.d.toNat).toNat ≤ field b 0 8 →
    Gives (.cntWait f) s (fun t => WaitOver p (t.group gid) ∧ (t.group gid).fmode = g.fmode ∧ RegsOnly [] s t gid g) := by
  intro c u b check turn clean sound reached
  have reads : SameReads u (u.touch g [a]) := sameReads_touch u g [a]
  refine gives_woken (w := { insn := .cntWait f, num := g.nextNum, accs := [a], tgt := (c.sp2 f.d.toNat).toNat }) h
    (sameButCounts_touch u g [a]) (execCntWait_eq f s) (counter_ok check) rfl ?_
  have value : ((ctx (.cntWait f) s gid g p).sleeps (u.touch g [a])
      { insn := .cntWait f, num := g.nextNum, accs := [a], tgt := (c.sp2 f.d.toNat).toNat } none).counterAt (dozing (.cntWait f) s g p
        { insn := .cntWait f, num := g.nextNum, accs := [a], tgt := (c.sp2 f.d.toNat).toNat }) f.sc.toNat [a] = (field b 0 8, field b 8 8) := by
    unfold State.counterAt
    dsimp only
    rw [homeRead_slept reads]
  refine State.tryWait_cntWait (clean_slept reads (clean_one clean)) turn ?_ ?_
  · rw [value]; exact sound
  · rw [value]; exact reached

theorem gives_collWait {f : RG} (h : Issues (.collWait f) s gid g p)
    (ended : ∀ e ∈ g.log, e.kind ≠ 11 ∨ isColl e.instr = false ∨ ∀ a ∈ e.acc, a.ea ≠ (ctx (.collWait f) s gid g p).addr1) :
    Gives (.collWait f) s (fun t => WaitOver p (t.group gid) ∧ (t.group gid).fmode = g.fmode ∧ RegsOnly [] s t gid g) := by
  refine gives_woken (w := { insn := .collWait f, num := g.nextNum, tgt := (ctx (.collWait f) s gid g p).addr1.toNat }) h (.refl _)
    (execCollWait_eq f s) rfl rfl (State.tryWait_collWait ?_)
  refine List.any_eq_false.mpr fun e held => ?_
  have unnamed (away : ∀ a ∈ e.acc, a.ea ≠ (ctx (.collWait f) s gid g p).addr1) :
      (e.acc.any fun a => a.ea.toNat == (ctx (.collWait f) s gid g p).addr1.toNat) = false :=
    List.any_eq_false.mpr fun a mem same => away a mem (BitVec.eq_of_toNat_eq (beq_iff_eq.mp same))
  rcases ended e held with kind | other | away
  · simp [kind]
  · simp [other]
  · simp [unnamed away]

/-! ## mma.wait and mma.fence (R360, R361) -/

theorem execMmaWait_eq (f : RG) (s : State) : exec (.mmaWait f) s = issue (.mmaWait f) s (fun c t =>
    if t.tileMine c.g.core c.g.wg then c.await (t.takeTile c.g.core c.g.wg) { insn := .mmaWait f } false else .hold) := rfl

theorem execMmaFence_eq (f : RG) (s : State) :
    exec (.mmaFence f) s = issue (.mmaFence f) s (fun c t => c.await (t.takeTile c.g.core c.g.wg) { insn := .mmaFence f } false) := rfl

theorem after_tileWg (i : Instr) (s : State) (gid : Nat) (g : Group) (p : Split) (k : Nat) :
    ((afterIssue i s gid g p).core k).tileWg = (s.core k).tileWg := after_view Core.tileWg (fun _ _ _ _ => rfl) (fun _ _ => rfl) ..

/-- A tile store that a workgroup holds is taken by none. -/
theorem takeTile_held {core wg v : Nat} (held : (s.core core).tileWg = some v) : s.takeTile core wg = s := by
  rw [State.takeTile, held]

theorem tileMine_held {core wg : Nat} (held : (s.core core).tileWg = some wg) : s.tileMine core wg = true := by
  rw [State.tileMine, held]
  exact beq_self_eq_true wg

theorem gives_mmaWait {f : RG} (h : Issues (.mmaWait f) s gid g p) (held : (s.core g.core).tileWg = some g.wg)
    (ended : ∀ e ∈ g.log, e.kind ≠ 12 ∨ isMma e.instr = false ∨ (view e.instr).d ≠ f.d.toNat) :
    Gives (.mmaWait f) s (fun t => WaitOver p (t.group gid) ∧ (t.group gid).fmode = g.fmode ∧ RegsOnly [] s t gid g) := by
  have held := (after_tileWg (.mmaWait f) s gid g p g.core).trans held
  refine gives_woken (v := { insn := .mmaWait f }) (w := { insn := .mmaWait f, num := g.nextNum }) h (.refl _) (execMmaWait_eq f s) ?_ rfl
    (State.tryWait_mmaWait ?_)
  · exact (if_pos (tileMine_held held)).trans (congrArg (Cx.await _ · _ _) (takeTile_held held))
  · refine List.filter_eq_nil_iff.mpr fun e mem => ?_
    rcases ended e mem with kind | other | away
    · simp [kind]
    · simp [other]
    · simp [away]

/-- A split that falls asleep at an mma.fence holds no conversion up. -/
theorem converted_dozing {f : RG} {n mark : Nat} (converted : g.converted mark = true) :
    (dozing i s g p { insn := .mmaFence f, num := n }).converted mark = true := by
  refine List.all_eq_true.mpr fun q mem => ?_
  rcases mem_modSplits mem with issued | ⟨q, -, rfl⟩
  · rcases mem_modSplits issued with old | ⟨q, -, rfl⟩
    · exact List.all_eq_true.mp converted q old
    · rfl
  · rfl

theorem gives_mmaFence {f : RG} {v : Nat} (h : Issues (.mmaFence f) s gid g p) (held : (s.core g.core).tileWg = some v)
    (fenced : ∀ e ∈ g.log, e.num < g.nextNum → mmaFenced g.core f.b.toNat e = true) (zeroed : g.zeroed (s.now g.core) = true)
    (converted : g.converted g.nextNum = true) :
    Gives (.mmaFence f) s (fun t => WaitOver p (t.group gid) ∧ (t.group gid).fmode = g.fmode ∧ RegsOnly [] s t gid g) := by
  have held := (after_tileWg (.mmaFence f) s gid g p g.core).trans held
  refine gives_woken (w := { insn := .mmaFence f, num := g.nextNum }) h (.refl _) (execMmaFence_eq f s)
    (congrArg (Cx.await _ · _ _) (takeTile_held held)) rfl (State.tryWait_mmaFence ?_ ?_ (converted_dozing converted))
  · refine List.all_eq_true.mpr fun e mem => ?_
    obtain ⟨held, older⟩ := List.mem_filter.mp mem
    exact fenced e held (of_decide_eq_true older)
  · have now : ((ctx (.mmaFence f) s gid g p).sleeps (afterIssue (.mmaFence f) s gid g p)
        { insn := .mmaFence f, num := g.nextNum } none).now g.core = s.now g.core := after_now (.mmaFence f) s gid g p g.core
    exact now ▸ zeroed

/-- Settles O25: a wait whose condition holds is tried as soon as its split sleeps, and wakes it; a test writes what the home returns
at its issue. -/
theorem waitsAndTests : Obligations.WaitsAndTests := by
  refine ⟨fun f s gid g p a h plain => gives_barWait h plain,
    fun f s gid g p a h => ⟨gives_arriveWait h, fun e arrived => gives_arrivedWait h arrived⟩, fun f s gid g p a h => gives_barCount h,
    fun f s gid g p accs h => gives_arrTest h, fun f s gid g p accs h => gives_arrWait h, fun f s gid g p a h => gives_cntWait h,
    fun f s gid g p a h => gives_cntTest h, fun f s gid g p h => gives_collWait h, fun f => ?_,
    fun f s gid g p w h held mine => gives_mmaWait h (held.trans (congrArg some mine)),
    fun f s gid g p w h held => gives_mmaFence h held⟩
  exact givesPredV_plain fun s gid g p h => ok_of (execCollTest_eq f s) rfl h

end Sys2Proof.Safety
end

section
/-! SUPPORT. The statement CouchAndPrefetch: what a fill of an L1 line leaves alone, and the continuation forms. -/

namespace Sys2Proof.Machine

/-! ## A line that is filled (R193, R327) -/

/-- The groups, the host's memory, the scratchpads and the tile store. -/
def State.goods (s : State) : Tbl Group × List Host.Cell × List Host.Cell × Tbl Word := (s.groups, s.hostMem, s.spad, s.tile)

/-- The same with the cores and the cores that are fused out. -/
def State.works (s : State) : (Tbl Group × List Host.Cell × List Host.Cell × Tbl Word) × Tbl Core × List Nat :=
  (s.goods, s.cores, s.m.fusedCores)

theorem State.works_ite {c : Prop} [Decidable c] {s t u : State} (ht : t.works = s.works) (hu : u.works = s.works) :
    (if c then t else u).works = s.works := by
  split <;> assumption

namespace State

variable (s : State)

theorem works_spill (l : Line) : (s.spill l).works = s.works := by
  have marked : (s.moveMarks l fun _ => true).works = s.works := foldl_keeps works (fun _ _ => by exact works_ite rfl rfl) ..
  have owned (t : State) (k pa : Nat) (v : Byte) : (t.ownedByte k pa v).works = t.works := works_ite rfl rfl
  have copied (t : State) (pa : Nat) (b : LByte) (bad : Bool) : (t.copyOut pa b bad).works = t.works :=
    foldl_keeps works (fun _ _ => by exact works_ite rfl rfl) ..
  refine (foldl_keeps works (fun t e => ?_) ..).trans (works_ite marked rfl)
  exact works_ite (works_ite (owned ..) (copied ..)) rfl

/-- The core that holds a line depends on which cores are fused. -/
theorem lineCore_congr {s t : State} (fused : ∀ c, (t.core c).fused = (s.core c).fused) (out : t.m.fusedCores = s.m.fusedCores)
    (core va : Nat) : t.lineCore core va = s.lineCore core va := by
  have enabled : t.enabled = s.enabled := funext fun k => by rw [enabled, out, State.enabled]
  rw [lineCore, fused, clusterCores, enabled, lineCore, clusterCores]

theorem fused_modCore (k : Nat) {f : Core → Core} (keeps : ∀ x, (f x).fused = x.fused) (c : Nat) :
    ((s.modCore k f).core c).fused = (s.core c).fused := by
  rw [modCore_core]
  split
  next same => rw [keeps, same]
  · rfl

theorem line?_isSome {t core va : Nat} {priv : Bool} : (s.line? t core va priv).isSome = true ↔
    ∃ l ∈ (s.core (s.lineCore core va)).lines, l.is t va priv = true := List.find?_isSome

variable (t core gid va pa : Nat) (priv : Bool)

/-- A line is there, or it is put into a core once another has left its set. -/
theorem allocLine_cases : (s.line? t core va priv).isSome = true ∧ s.allocLine t core gid va pa priv = s ∨
    ∃ (u : State) (f : Core → Core), u.works = s.works ∧ (∀ x, (f x).fused = x.fused) ∧ (∀ x, ∃ l ∈ (f x).lines, l.is t va priv = true) ∧
      s.allocLine t core gid va pa priv = u.modCore (s.lineCore core va) f := by
  unfold allocLine
  dsimp only
  split
  next held => exact .inl ⟨s.line?_isSome.mpr (List.any_eq_true.mp held), rfl⟩
  · refine .inr ⟨_, _, ?_, fun _ => ?_, fun x => ⟨_, List.mem_cons_self, ?_⟩, rfl⟩
    · split
      · rfl
      · exact s.works_spill _
    · rfl
    · simp [Line.is]

theorem fused_of_works {s u : State} (same : u.works = s.works) (c : Nat) : (u.core c).fused = (s.core c).fused :=
  congrArg (fun w : _ × Tbl Core × List Nat => (Tbl.get w.2.1 {} c).fused) same

theorem goods_allocLine : (s.allocLine t core gid va pa priv).goods = s.goods := by
  rcases s.allocLine_cases t core gid va pa priv with ⟨-, same⟩ | ⟨u, f, works, -, -, made⟩
  · rw [same]
  · rw [made]; exact congrArg Prod.fst works

/-- A line that has been allocated is found. -/
theorem line?_allocLine : ((s.allocLine t core gid va pa priv).line? t core va priv).isSome = true := by
  rcases s.allocLine_cases t core gid va pa priv with ⟨held, same⟩ | ⟨u, f, works, fused, new, made⟩
  · rw [same]; exact held
  · have place : (u.modCore (s.lineCore core va) f).lineCore core va = s.lineCore core va :=
      lineCore_congr (fun c => (u.fused_modCore _ fused c).trans (fused_of_works works c)) (congrArg (·.2.2) works) core va
    rw [made, line?_isSome, place, modCore_core_self]
    exact new _

theorem goods_fillLine : (s.fillLine t core gid va pa priv).goods = s.goods := s.goods_allocLine t core gid va pa priv

/-- A line that is changed stays where it is. -/
theorem line?_modLine {f : Line → Line} (keeps : ∀ l, (f l).is t va priv = l.is t va priv)
    (held : (s.line? t core va priv).isSome = true) : ((s.modLine t core va priv f).line? t core va priv).isSome = true := by
  obtain ⟨l, mem, named⟩ := s.line?_isSome.mp held
  have place : (s.modLine t core va priv f).lineCore core va = s.lineCore core va := by
    refine lineCore_congr (fun c => s.fused_modCore _ (fun x => ?_) c) rfl core va
    rfl
  rw [line?_isSome, place]
  unfold modLine
  rw [modCore_core_self]
  refine ⟨_, List.mem_map_of_mem mem, ?_⟩
  rw [if_pos named]
  exact (keeps l).trans named

theorem line?_fillLine : ((s.fillLine t core gid va pa priv).line? t core va priv).isSome = true := by
  refine line?_modLine _ _ _ _ _ (fun l => ?_) (s.line?_allocLine t core gid va pa priv)
  simp only [Line.is]

end State

/-! ## A prefetch (R327) -/

theorem goods_fillTlb (s : State) (t core va : Nat) : (s.fillTlb t core va).goods = s.goods := by
  have same := Safety.sameButCounts_fillTlb s t core va
  rw [State.goods, same.groups, same.hostMem, same.spad, same.tile]
  rfl

theorem goods_prefetch (c : Cx) (t : State) (l : Nat) : (c.prefetch t l).goods = t.goods := by
  unfold Cx.prefetch
  dsimp only
  split
  · rfl
  · split
    · rfl
    · split
      · exact (State.goods_fillLine ..).trans (goods_fillTlb ..)
      · exact goods_fillTlb ..
    · exact goods_fillTlb ..

/-- A prefetch to the L2 alone fills a translation. -/
theorem prefetch_counts {c : Cx} (far : c.vw.d ≠ 1) (t : State) (l : Nat) : Safety.SameButCounts t (c.prefetch t l) := by
  unfold Cx.prefetch
  dsimp only
  split
  · exact .refl t
  · split
    · exact .refl t
    · rw [if_neg (by simp [far])]
      exact Safety.sameButCounts_fillTlb ..
    · exact Safety.sameButCounts_fillTlb ..

theorem prefetches_counts {c : Cx} (far : c.vw.d ≠ 1) (ls : List Nat) (t : State) :
    Safety.SameButCounts t (ls.foldl (fun t l => c.prefetch t l) t) := by
  induction ls generalizing t with
  | nil => exact .refl t
  | cons l ls ih => exact (prefetch_counts far t l).trans (ih _)

/-- A prefetch to the L1 that nothing forbids finds its line there. -/
theorem line?_prefetch {c : Cx} {t : State} {l va pa : Nat} (near : c.vw.d = 1) (glob : windowOf (c.moAddr 128 l).toNat = .glob)
    (checked : t.checkGlobal c.g { host := false, peer := false } ((c.moAddr 128 l).toNat / 128 * 128) false = .ok (.cached va pa false))
    (room : t.evictOk c.g false { loc := .cached va pa false } = true) :
    ((c.prefetch t l).line? c.g.slice c.g.core va false).isSome = true := by
  have filled : c.prefetch t l = (t.fillTlb c.g.slice c.g.core ((c.moAddr 128 l).toNat / 128 * 128)).fillLine
      c.g.slice c.g.core c.gid va pa false := by
    unfold Cx.prefetch
    dsimp only
    rw [glob, checked]
    dsimp only
    rw [near, room]
    rfl
  rw [filled]
  exact State.line?_fillLine ..

end Sys2Proof.Machine

namespace Sys2Proof.Safety

open Machine

variable {i : Instr} {s t u : State} {gid : Nat} {g x : Group} {p : Split}

/-! ## cont.emit and cont.flush (R374, R375) -/

theorem execContEmit_eq (f : RG) (s : State) : exec (.contEmit f) s = issue (.contEmit f) s (fun c t =>
    let entry := c.addr1
    let l := t.launchOf c.g
    if l.contBase = 0 then c.priv
    else if entry.toNat % 2 ≠ 0 then .trap (c.early 4 c.mask 0 1 entry)
    else if windowOf entry.toNat ≠ .glob then .trap (c.early 5 c.mask 0 0 entry)
    else if !t.binReady c.g entry then .hold
    else
      let words := c.lanes.flatMap (fun n => (List.range 14).flatMap (fun k => leBytes 4 (c.v (c.vw.d + k) n).toNat))
      .ok ((c.enter t 13 1 c.mask []).modGroup c.gid (fun g => g.modEntry (freePlace c.g.log) (fun e =>
        { e with img := words, addr := entry })))) := rfl

theorem execContFlush_eq (f : RG) (s : State) : exec (.contFlush f) s = issue (.contFlush f) s (fun c t =>
    .ok (t.modGroup c.gid (fun g => { g with flush := g.flush ++ [(g.nextNum, c.now)] }))) := rfl

theorem execPf_eq (f : MO) (s : State) :
    exec (.pf f) s = issue (.pf f) s (fun c t => .ok (c.lanes.foldl (fun t l => c.prefetch t l) t)) := rfl

/-- The launches of a slice stand while an instruction issues. -/
theorem launches_after (i : Instr) (s : State) (gid : Nat) (g : Group) (p : Split) (k : Nat) :
    ((afterIssue i s gid g p).slice k).launches = (s.slice k).launches := by
  have mod (t : State) (n : Nat) {f : Slice → Slice} (keeps : ∀ x, (f x).launches = x.launches) :
      ((t.modSlice n f).slice k).launches = (t.slice k).launches := by
    rw [State.modSlice_slice]
    split
    next same => rw [keeps, same]
    · rfl
  have traced (t : State) (a b c d e f : Nat) : ((t.trace g a b c d e f).slice k).launches = (t.slice k).launches := by
    unfold State.trace
    split
    · exact mod t _ fun _ => rfl
    · rfl
  have sampled (t : State) : ((t.sample g p i).slice k).launches = (t.slice k).launches := by
    unfold State.sample
    dsimp only
    split
    · rfl
    · split
      · exact traced ..
      · rfl
  have charged (t : State) : ((t.charge g i).slice k).launches = (t.slice k).launches := by
    unfold State.charge
    dsimp only
    split <;> rfl
  have watched (t : State) : ((t.countWatch g).slice k).launches = (t.slice k).launches := mod t _ fun _ => rfl
  exact (congrArg Slice.launches (after_slice i s gid g p k)).trans ((sampled _).trans ((watched _).trans (charged _)))

theorem launchOf_after (i : Instr) (s : State) (gid : Nat) (g : Group) (p : Split) :
    (afterIssue i s gid g p).launchOf g = s.launchOf g :=
  congrArg (fun l : Tbl Launch => Tbl.get l {} g.launch) (launches_after i s gid g p g.slice)

section
variable {f : RG} (h : Issues (.contEmit f) s gid g p)
include h

theorem gives_emit (based : (s.launchOf g).contBase ≠ 0) :
    let c := ctx (.contEmit f) s gid g p
    let u := afterIssue (.contEmit f) s gid g p
    let entry := c.addr f.a.toNat (firstLane c.mask)
    entry.toNat % 2 = 0 → windowOf entry.toNat = .glob → u.areaFull g.slice g.launch = false →
    (∃ k, u.binFor (dieOf g.core) g.slice g.launch entry = some k) → (∀ n ∈ g.log, n.id ≠ freePlace g.log) →
    Gives (.contEmit f) s (fun t => ∃ e, Records (.contEmit f) s t gid g p e ∧ Fresh (.contEmit f) g p 13 1 [] e ∧
      e.addr = entry ∧ e.img = c.lanes.flatMap (fun l => (List.range 14).flatMap (fun k =>
        leBytes 4 (c.v (f.d.toNat + k) l).toNat))) := by
  intro c u entry even glob room bin free
  have based : (u.launchOf c.g).contBase ≠ 0 := ne_of_eq_of_ne (congrArg Launch.contBase (launchOf_after ..)) based
  obtain ⟨k, bin⟩ := bin
  have ready : u.binReady c.g c.addr1 = true := by
    have found : (!u.areaFull g.slice g.launch && (u.binFor (dieOf g.core) g.slice g.launch entry).isSome) = true := by rw [room, bin]; rfl
    exact (congrArg (_ || ·) found).trans (Bool.or_true _)
  let words := c.lanes.flatMap (fun n => (List.range 14).flatMap (fun k => leBytes 4 (c.v (f.d.toNat + k) n).toNat))
  have logged := (logged_enter h 13 1 p.mask []).modEntry free (fun e => { e with img := words, addr := entry })
  refine ⟨_, ok_of (execContEmit_eq f s) ((if_neg based).trans ((if_neg (not_not_intro even)).trans
    ((if_neg (not_not_intro glob)).trans ?_))) h, _, logged.records h, ?_, rfl, rfl⟩
  · exact if_neg (ne_true_of_eq_false (congrArg not ready))
  · constructor <;> rfl

theorem emit_refused (unbased : (s.launchOf g).contBase = 0) : Raises (.contEmit f) s gid g p { cause := 2 } :=
  trap_of (execContEmit_eq f s) (if_pos ((congrArg Launch.contBase (launchOf_after ..)).trans unbased)) h

theorem emit_misaligned (based : (s.launchOf g).contBase ≠ 0) : let c := ctx (.contEmit f) s gid g p
    let entry := c.addr f.a.toNat (firstLane c.mask)
    entry.toNat % 2 = 1 → Raises (.contEmit f) s gid g p { cause := 4, info := 1, addr := entry } := by
  intro c entry odd
  have based := ne_of_eq_of_ne (congrArg Launch.contBase (launchOf_after (.contEmit f) s gid g p)) based
  exact trap_of (execContEmit_eq f s) ((if_neg based).trans (if_pos (show entry.toNat % 2 ≠ 0 by omega))) h

theorem emit_outside (based : (s.launchOf g).contBase ≠ 0) : let c := ctx (.contEmit f) s gid g p
    let entry := c.addr f.a.toNat (firstLane c.mask)
    entry.toNat % 2 = 0 → windowOf entry.toNat ≠ .glob → Raises (.contEmit f) s gid g p { cause := 5, addr := entry } := by
  intro c entry even outside
  have based := ne_of_eq_of_ne (congrArg Launch.contBase (launchOf_after (.contEmit f) s gid g p)) based
  exact trap_of (execContEmit_eq f s) ((if_neg based).trans ((if_neg (not_not_intro even)).trans (if_pos outside))) h

end

theorem gives_flush {f : RG} (h : Issues (.contFlush f) s gid g p) : Gives (.contFlush f) s (fun t =>
    t.group gid = { g with splits := (t.group gid).splits, flush := g.flush ++ [(g.nextNum, s.now g.core)],
                           lastCyc := s.now g.core, count_ := g.count_ + 1 } ∧
      SameMemory s t ∧ GoesOn (.contFlush f) s g p (t.group gid)) := by
  obtain ⟨t, run, w, goes⟩ := gives_modGroup h (fun g => { g with flush := g.flush ++ [(g.nextNum, (ctx (.contFlush f) s gid _ p).now)] })
    (fun _ => rfl) (ok_of (execContFlush_eq f s) rfl h)
  refine ⟨t, run, ?_, w.memory, goes⟩
  rw [w.group]
  rfl

/-! ## pf (R327) -/

theorem gives_pf {f : MO} (h : Issues (.pf f) s gid g p) : Gives (.pf f) s (fun t =>
    t.group gid = { g with splits := (t.group gid).splits, lastCyc := s.now g.core, count_ := g.count_ + 1 } ∧
    GoesOn (.pf f) s g p (t.group gid) ∧ (∀ h, h ≠ gid → Tbl.find t.groups h = Tbl.find s.groups h) ∧
    t.hostMem = s.hostMem ∧ t.spad = s.spad ∧ t.tile = s.tile ∧ (f.d.toNat ≠ 1 → SameMemory s t) ∧
    (∀ l va pa, f.d.toNat = 1 → p.mask = maskOf [l] → l < 32 →
      let c := ctx (.pf f) s gid g p
      let u := afterIssue (.pf f) s gid g p
      let a := (moAt f.a f.off 128 c l).toNat
      windowOf a = .glob → u.checkGlobal g { host := false, peer := false } (a / 128 * 128) false = .ok (.cached va pa false) →
      u.evictOk g false { loc := .cached va pa false } = true → (t.line? g.slice g.core va false).isSome = true)) := by
  let c := ctx (.pf f) s gid g p
  let u := afterIssue (.pf f) s gid g p
  let t := c.lanes.foldl (fun t l => c.prefetch t l) u
  have goods : t.goods = u.goods := foldl_keeps State.goods (goods_prefetch c) ..
  have groups : t.groups = u.groups := congrArg Prod.fst goods
  have issued := sameButCounts_issue { s with cur := none } g p (.pf f)
  have w := wrote_after h
  have r := regroups_after h
  have group : t.group gid = issuedGroup (.pf f) s g p := State.group_of_find ((congrArg (Tbl.find · gid) groups).trans r.found)
  refine ⟨t, ok_of (execPf_eq f s) rfl h, ?_, ?_, fun k other => ?_, ?_, ?_, ?_, fun far => ?_, ?_⟩
  · rw [group]; rfl
  · rw [group, ← after_group h.group]; exact w.goesOn h.split
  · rw [groups]; exact r.groups k other
  · exact (congrArg (·.2.1) goods).trans issued.hostMem
  · exact (congrArg (·.2.2.1) goods).trans issued.spad
  · exact (congrArg (·.2.2.2) goods).trans r.memory.tile
  · exact r.memory.trans (prefetches_counts far c.lanes u).same
  · intro l va pa near lane lt c u a glob checked room
    have one : c.lanes = [l] := (congrArg lanesOf lane).trans (maskOf_single l lt).1
    have at_ : (c.moAddr 128 l).toNat = a :=
      congrArg (fun F : Nat → DWord => (F l).toNat) (moAddr_eq (i := .pf f) (f := f) rfl rfl 128)
    have run : t = c.prefetch u l := congrArg (List.foldl (fun t l => c.prefetch t l) u) one
    rw [run]
    rw [← at_] at glob checked
    exact line?_prefetch near glob checked room

/-- Settles O28: cont.emit ends at the first of its checks that fails, or records an entry with its words; a flush is an item of its
group; a prefetch changes lines, translations and bytes at homes alone. -/
theorem couchAndPrefetch : Obligations.CouchAndPrefetch :=
  ⟨fun _ _ _ _ _ h => ⟨emit_refused h, emit_misaligned h, emit_outside h, gives_emit h⟩,
    fun _ _ _ _ _ h => gives_flush h, fun _ _ _ _ _ h => gives_pf h⟩

end Sys2Proof.Safety
end

section
/-! SUPPORT. The statement MatrixForms, its first part: an operation that the arrays queue, and the pieces of the tile forms. -/

namespace Sys2Proof.Machine

/-! ## Accesses that name no peer (R189, R320) -/

theorem locOf_near {e : TlbEntry} {a : Acc} {va : Nat} {priv : Bool} {r : Nat × Nat} (near : e.target ≠ 2) (at_ : a.loc = locOf e va priv r) :
    a.remote = false := by
  unfold Acc.remote
  rw [at_, locOf, if_neg near]
  split_ifs <;> rfl

theorem checkGlobal_near {s : State} {g : Group} {o : AccOpt} {va : Nat} {priv : Bool} {a : Acc} (alone : o.peer = false)
    (ok : s.checkGlobal g o va priv = .ok a.loc) : a.remote = false := by
  unfold State.checkGlobal at ok
  split at ok
  · cases ok
  · split at ok
    · rw [alone] at ok
      cases ok
    next near =>
      split at ok
      · cases ok
      · exact locOf_near near (Except.ok.inj ok).symm

theorem checkSpad_near {s : State} {g : Group} {v n : Nat} {a : Acc} (ok : s.checkSpad g v n = .ok a.loc) : a.remote = false := by
  obtain ⟨c, o, place⟩ : ∃ c o, a.loc = .spad c o := by
    unfold State.checkSpad at ok
    dsimp only at ok
    split at ok
    · split at ok
      · exact ⟨_, _, (Except.ok.inj ok).symm⟩
      · cases ok
    · split at ok
      · cases ok
      · split at ok
        · exact ⟨_, _, (Except.ok.inj ok).symm⟩
        · cases ok
  unfold Acc.remote
  rw [place]

/-- The piece of an access of one place, where peers and private words are not allowed. -/
theorem checkOne_near {c : Cx} {s : State} {o : AccOpt} {n : Nat} {ea : DWord} {a : Acc} (alone : o.peer = false) (shared : o.priv = false)
    (ok : c.checkOne s o n ea = .ok [a]) : a.remote = false := by
  have checked : s.checkLane c.g o n (firstLane c.mask) ea = .ok [a] := by
    unfold Cx.checkOne at ok
    split at ok
    next l found => rw [found, Except.ok.inj ok]
    · cases ok
  unfold State.checkLane at checked
  dsimp only at checked
  split at checked
  · cases checked
  · split at checked
    · cases checked
    · split at checked
      · cases checked
      · cases found : s.checkSpad c.g ea.toNat n with
        | error e => rw [found] at checked; cases checked
        | ok loc =>
          rw [found] at checked
          cases checked
          exact checkSpad_near found
    · rw [shared] at checked
      cases checked
    · split at checked
      · cases checked
      · cases found : s.checkGlobal c.g o ea.toNat false with
        | error e => rw [found] at checked; cases checked
        | ok loc =>
          rw [found] at checked
          cases checked
          exact checkGlobal_near alone found

/-! ## The queues of the arrays (R352) -/

/-- An operation enters the queues of its cores. -/
def State.queueMma (s : State) (op : MmaOp) (cores : List Nat) : State :=
  cores.foldl (fun s k => s.modCore k (fun x => { x with queue := x.queue ++ [op] })) s

theorem State.queueMma_queue (s : State) (op : MmaOp) (cores : List Nat) (k : Nat) :
    ((s.queueMma op cores).core k).queue = (s.core k).queue ++ List.replicate (cores.count k) op := by
  induction cores generalizing s with
  | nil => simp [queueMma]
  | cons c cores ih =>
    refine (ih _).trans ?_
    rw [State.modCore_core, List.count_cons]
    by_cases same : c = k
    · subst same
      rw [if_pos rfl, List.append_assoc, beq_self_eq_true, if_pos rfl, Nat.add_comm, List.replicate_add]
      rfl
    · rw [if_neg same, if_neg (by simpa using same), Nat.add_zero]

theorem State.queueMma_counts (s : State) (op : MmaOp) (cores : List Nat) : Safety.SameButCounts s (s.queueMma op cores) := by
  induction cores generalizing s with
  | nil => exact .refl s
  | cons c cores ih =>
    refine Safety.SameButCounts.trans (Safety.sameButCounts_modCore s c _ ?_) (ih _)
    exact fun _ => rfl

/-! ## mma.issue (R353 to R357) -/

/-- The ranges of a matrix operation in the scratchpads. -/
def State.mmaRanges (s : State) (g : Group) (f : Fb) : List (Nat × Nat × Nat) :=
  (s.operandRanges g f).map (fun r => ((s.spadPlace g r.1).1, (s.spadPlace g r.1).2, r.2))

/-- The operation of a context. -/
def Cx.mmaOp (c : Cx) (t : State) (cl : Bool) (b : List Byte) : MmaOp :=
  { gid := c.gid, ent := freePlace c.g.log, acc := c.vw.d, cluster := cl, cores := t.mmaCores c.g (Fb.of b), block := b }

/-- The state with the entry of the operation. -/
def Cx.mmaEntered (c : Cx) (t : State) (accs : List Acc) (b : List Byte) : State :=
  (c.enter (t.touch c.g accs) 12 0 c.mask []).modGroup c.gid (·.modEntry (freePlace c.g.log) (fun e =>
    { e with img := b, rng := t.mmaRanges c.g (Fb.of b) }))

/-- A format block within its limits, without gathered rows, whose operands pass their checks, is taken. -/
theorem Cx.mmaIssue_good {c : Cx} {t : State} {cl : Bool} {b : List Byte} {accs : List Acc} (quad : cl = true → c.vw.d % 4 = 0)
    (mine : (t.core c.g.core).tileWg = some c.g.wg) (read : ∀ k, c.readBlock t false 64 k = k accs b)
    (ok : (Fb.of b).ok b cl = true) (plain : (Fb.of b).gather = false)
    (operands : t.operandFails c.g (t.operandRanges c.g (Fb.of b)) = [])
    (room : ∀ k ∈ t.mmaCores c.g (Fb.of b), (t.core k).queue.length < 8) :
    c.mmaIssue t cl = .ok ((c.mmaEntered t accs b).queueMma (c.mmaOp t cl b) (t.mmaCores c.g (Fb.of b))) := by
  have quad : (cl && decide (c.vw.d % 4 ≠ 0)) = false := by
    cases cl
    · rfl
    · simp [quad rfl]
  have rows : t.gatherFails c.g (Fb.of b) = [] := by rw [State.gatherFails, plain]; rfl
  have room : t.arrayRoom (t.mmaCores c.g (Fb.of b)) = true := List.all_eq_true.mpr fun k mem => decide_eq_true (room k mem)
  unfold Cx.mmaIssue
  rw [read, Safety.tileMine_held mine, quad]
  simp only [ok, plain, rows, room, Safety.takeTile_held mine, List.isEmpty_nil, if_true, operands, List.nil_append, worstFail]
  rfl

end Sys2Proof.Machine
end

section
namespace Sys2Proof.Safety

open Machine

variable {i : Instr} {s t u : State} {gid : Nat} {g x : Group} {p : Split} {a : Acc} {b : List Byte} {accs : List Acc}

/-! ## mma.issue -/

theorem exec_mmaForm {f : RG} {cl : Bool} (form : i = .mmaIssueCore f ∧ cl = false ∨ i = .mmaIssueCl f ∧ cl = true) (s : State) :
    exec i s = issue i s (fun c t => c.mmaIssue t cl) ∧ (view i).d = f.d.toNat ∧ (view i).a = f.a.toNat := by
  rcases form with ⟨rfl, rfl⟩ | ⟨rfl, rfl⟩ <;> exact ⟨rfl, rfl, rfl⟩

theorem queue_after (i : Instr) (s : State) (gid : Nat) (g : Group) (p : Split) (k : Nat) :
    ((afterIssue i s gid g p).core k).queue = (s.core k).queue := after_view Core.queue (fun _ _ _ _ => rfl) (fun _ _ => rfl) ..

/-- The queues stand while the entry of an operation is made. -/
theorem mmaEntered_queue (c : Cx) (t : State) (accs : List Acc) (b : List Byte) (k : Nat) :
    ((c.mmaEntered t accs b).core k).queue = (t.core k).queue := view_fillTlbs Core.queue (fun _ _ => rfl) _ _ _ t k

theorem logged_mma (h : Issues i s gid g p) (free : ∀ n ∈ g.log, n.id ≠ freePlace g.log) (accs : List Acc) (b : List Byte) :
    let c := ctx i s gid g p
    let u := afterIssue i s gid g p
    Logged i s (c.mmaEntered u accs b) gid g p
      { entryOf c (u.touch g accs) 12 0 p.mask [] with img := b, rng := u.mmaRanges g (Fb.of b) } :=
  (logged_enter_counts h (sameButCounts_touch _ g accs) 12 0 []).modEntry free _

theorem gives_mma {f : RG} {cl : Bool} (form : i = .mmaIssueCore f ∧ cl = false ∨ i = .mmaIssueCl f ∧ cl = true)
    (h : Issues i s gid g p) (quad : cl = true → f.d.toNat % 4 = 0) (mine : (s.core g.core).tileWg = some g.wg) :
    let c := ctx i s gid g p
    let u := afterIssue i s gid g p
    (∀ k ∈ u.mmaCores g (Fb.of b), (u.core k).queue.length < 8) →
    c.checkOne u { priv := false, peer := false } 64 (c.addr f.a.toNat (firstLane c.mask)) = .ok [a] →
    waitTurn g g.nextNum [a] = true → u.frameBusy g.slice a = false → u.ctlOwner g a = true → u.readsPoison g a = none → b = u.readLoc g a.loc 64 →
    (Fb.of b).ok b cl = true → (Fb.of b).gather = false → u.operandFails g (u.operandRanges g (Fb.of b)) = [] →
    (∀ n ∈ g.log, n.id ≠ freePlace g.log) →
    Gives i s (fun t =>
      (∃ n, (t.group gid).log = g.log ++ [n] ∧ n.kind = 12 ∧ n.cls = 0 ∧ n.mask = p.mask ∧ n.pc = p.pc ∧ n.img = b ∧
        n.done = 0) ∧
      (∀ k, k ∈ u.mmaCores g (Fb.of b) → (u.mmaCores g (Fb.of b)).count k = 1 → (t.core k).queue = (s.core k).queue ++
        [{ gid := gid, ent := freePlace g.log, acc := f.d.toNat, cluster := cl, cores := u.mmaCores g (Fb.of b), block := b }]) ∧
      (∀ k, k ∉ u.mmaCores g (Fb.of b) → (t.core k).queue = (s.core k).queue) ∧
      KeepsRegs [] g (t.group gid) ∧ restLog (t.group gid) = restLog g ∧ SameMemory s t ∧ GoesOn i s g p (t.group gid)) := by
  intro c u room one turn calm own clean image ok plain operands free
  obtain ⟨run, dest, base⟩ := exec_mmaForm form s
  have mine : (u.core g.core).tileWg = some g.wg := (after_tileWg i s gid g p g.core).trans mine
  have at_ : c.addr1 = c.addr f.a.toNat (firstLane c.mask) := congrArg (c.addr · (firstLane c.mask)) base
  have one : c.checkOne u { priv := false, peer := false } 64 c.addr1 = .ok [a] := at_ ▸ one
  have read (k : List Acc → List Byte → Res) : c.readBlock u false 64 k = k [a] b := by
    rw [image]
    exact readBlock_reads h one (checkOne_near rfl rfl one) turn calm own clean
  have taken : c.mmaIssue u cl = .ok ((c.mmaEntered u [a] b).queueMma (c.mmaOp u cl b) (u.mmaCores g (Fb.of b))) :=
    Cx.mmaIssue_good (fun wide => dest ▸ quad wide) mine read ok plain operands room
  have w := ((logged_mma h free [a] b).counts ((c.mmaEntered u [a] b).queueMma_counts (c.mmaOp u cl b) (u.mmaCores g (Fb.of b)))).records h
  have op : c.mmaOp u cl b = { gid := gid, ent := freePlace g.log, acc := f.d.toNat, cluster := cl, cores := u.mmaCores g (Fb.of b), block := b } :=
    congrArg (fun n => ({ gid := gid, ent := freePlace g.log, acc := n, cluster := cl, cores := u.mmaCores g (Fb.of b), block := b } : MmaOp)) dest
  have queue (k : Nat) : (((c.mmaEntered u [a] b).queueMma (c.mmaOp u cl b) (u.mmaCores g (Fb.of b))).core k).queue =
      (s.core k).queue ++ List.replicate ((u.mmaCores g (Fb.of b)).count k) (c.mmaOp u cl b) := by
    rw [State.queueMma_queue, mmaEntered_queue, queue_after]
  refine ⟨_, ok_of run taken h, ⟨_, w.log, rfl, rfl, rfl, rfl, rfl, rfl⟩, fun k _ once => ?_, fun k out => ?_, w.regs, w.rest, w.memory, w.goes⟩
  · rw [queue, once, op]
    rfl
  · rw [queue, List.count_eq_zero_of_not_mem out]
    exact List.append_nil _

/-! ## tile.tld and tile.tst (R362, R363) -/

/-- A form that moves a tile, as far as the checks of its word and its rows go. -/
def tileForm (c : Cx) (t : State) (acc : Access) (w : Nat) (k : List Acc → Res) : Res :=
  if !t.tileMine c.g.core c.g.wg then .hold
  else if !(tileOk w (4 * tileCols w) && w % 512 == 0) then c.illegal 2
  else match c.tileCheck t acc w with
    | .error r => .trap r
    | .ok accs => k accs

theorem execTileTld_eq (f : RG) (s : State) : exec (.tileTld f) s = issue (.tileTld f) s (fun c t =>
    tileForm c t .load (c.s c.vw.b).toNat (fun accs => .ok (c.record (t.takeTile c.g.core c.g.wg) 12 0 accs))) := rfl

theorem execTileTst_eq (f : RG) (s : State) : exec (.tileTst f) s = issue (.tileTst f) s (fun c t =>
    tileForm c t .store (c.s c.vw.b).toNat (fun accs =>
      let t1 := t.takeTile c.g.core c.g.wg
      if t1.tileReads c.g.core c.vw.d (c.s c.vw.b).toNat then .ok (t1.startKill c.g.slice 9 0)
      else .ok (c.record t1 12 0 (accs.map (fun a => { a with v := t1.tileBytes c.g.core c.vw.d a }))))) := rfl

/-- The limits of a tile word of tile.tld and tile.tst. -/
def tileGood (w : Nat) : Prop := tilePitch w ≠ 0 ∧ tileCols w ≤ 192 ∧ 4 * tileCols w ≤ tilePitch w ∧ w % 512 = 0

theorem tileOk_iff (w : Nat) : (tileOk w (4 * tileCols w) && w % 512 == 0) = true ↔ tileGood w := by
  simp [tileOk, tileGood, and_assoc]

theorem mine_after (i : Instr) (gid : Nat) (p : Split) (mine : (s.core g.core).tileWg = some g.wg) :
    ((afterIssue i s gid g p).core g.core).tileWg = some g.wg := (after_tileWg i s gid g p g.core).trans mine

section
variable {acc : Access} {w : Nat} {k : List Acc → Res} (mine : (s.core g.core).tileWg = some g.wg)
include mine

theorem tileForm_limits : let c := ctx i s gid g p
    let u := afterIssue i s gid g p
    (¬ tileGood w → tileForm c u acc w k = c.illegal 2) ∧ (∀ accs, tileGood w → c.tileCheck u acc w = .ok accs → tileForm c u acc w k = k accs) ∧
      ∀ r, tileGood w → c.tileCheck u acc w = .error r → tileForm c u acc w k = .trap r := by
  intro c u
  have free : u.tileMine c.g.core c.g.wg = true := tileMine_held (mine_after i gid p mine)
  unfold tileForm
  rw [free]
  refine ⟨fun bad => ?_, fun accs good ok => ?_, fun r good fails => ?_⟩
  · rw [Bool.eq_false_iff.mpr (mt (tileOk_iff w).mp bad)]
    rfl
  · rw [(tileOk_iff w).mpr good, ok]
    rfl
  · rw [(tileOk_iff w).mpr good, fails]
    rfl

theorem tld_steps {f : RG} (h : Issues (.tileTld f) s gid g p) : let c := ctx (.tileTld f) s gid g p
    let u := afterIssue (.tileTld f) s gid g p
    let w := (c.s f.b.toNat).toNat
    (¬ tileGood w → Raises (.tileTld f) s gid g p { cause := 1, detail := 2 }) ∧
    (∀ accs, tileGood w → c.tileCheck u .load w = .ok accs → Gives (.tileTld f) s (fun t =>
      ∃ e, Records (.tileTld f) s t gid g p e ∧ Fresh (.tileTld f) g p 12 0 accs e)) ∧
    (∀ r, tileGood w → c.tileCheck u .load w = .error r → Traps (.tileTld f) s gid p r) := by
  intro c u w
  have held : u.takeTile g.core g.wg = u := takeTile_held (mine_after (.tileTld f) gid p mine)
  obtain ⟨limits, good, fails⟩ := tileForm_limits (i := .tileTld f) (gid := gid) (p := p) (acc := .load) (w := w)
    (k := fun accs => .ok (c.record (u.takeTile g.core g.wg) 12 0 accs)) mine
  refine ⟨fun bad => trap_of (execTileTld_eq f s) (limits bad) h, fun accs ok checked => ?_,
    fun r ok checked => trap_of (execTileTld_eq f s) (fails r ok checked) h⟩
  have run := (good accs ok checked).trans (congrArg (fun t => Res.ok (c.record t 12 0 accs)) held)
  exact ⟨_, ok_of (execTileTld_eq f s) run h, _, (logged_record h 12 0 accs).records h, fresh_entryOf ..⟩

theorem tst_steps {f : RG} (h : Issues (.tileTst f) s gid g p) : let c := ctx (.tileTst f) s gid g p
    let u := afterIssue (.tileTst f) s gid g p
    let w := (c.s f.b.toNat).toNat
    (¬ tileGood w → Raises (.tileTst f) s gid g p { cause := 1, detail := 2 }) ∧
    (∀ accs, tileGood w → c.tileCheck u .store w = .ok accs → u.tileReads g.core f.d.toNat w = false → Gives (.tileTst f) s (fun t =>
      ∃ e, Records (.tileTst f) s t gid g p e ∧ Fresh (.tileTst f) g p 12 0
        (accs.map (fun a => { a with v := u.tileBytes g.core f.d.toNat a })) e)) ∧
    (∀ r, tileGood w → c.tileCheck u .store w = .error r → Traps (.tileTst f) s gid p r) := by
  intro c u w
  have held : u.takeTile g.core g.wg = u := takeTile_held (mine_after (.tileTst f) gid p mine)
  let store (t1 : State) (accs : List Acc) : Res := if t1.tileReads g.core f.d.toNat w then .ok (t1.startKill g.slice 9 0)
    else .ok (c.record t1 12 0 (accs.map (fun a => { a with v := t1.tileBytes g.core f.d.toNat a })))
  obtain ⟨limits, good, fails⟩ := tileForm_limits (i := .tileTst f) (gid := gid) (p := p) (acc := .store) (w := w)
    (k := store (u.takeTile g.core g.wg)) mine
  refine ⟨fun bad => trap_of (execTileTst_eq f s) (limits bad) h, fun accs ok checked clean => ?_,
    fun r ok checked => trap_of (execTileTst_eq f s) (fails r ok checked) h⟩
  have run := (good accs ok checked).trans ((congrArg (store · accs) held).trans (if_neg (ne_true_of_eq_false clean)))
  exact ⟨_, ok_of (execTileTst_eq f s) run h, _, (logged_record h 12 0 _).records h, fresh_entryOf ..⟩

end

end Sys2Proof.Safety
end

section
/-! SUPPORT. The statement MatrixForms, its last part: the accumulator that tile.tzero clears, and the rows that tile.tcvt writes. -/

namespace Sys2Proof.Machine

/-! ## Accumulators (R351, R364) -/

theorem Tbl.find_filter {α : Type} (t : Tbl α) (P : Nat → Bool) (k : Nat) :
    Tbl.find (t.filter fun e => P e.1) k = if P k then Tbl.find t k else none := by
  induction t with
  | nil => simp
  | cons e t ih =>
    obtain ⟨j, v⟩ := e
    rw [List.filter_cons, Tbl.find_cons j v t k]
    by_cases same : j = k
    · subst same
      cases kept : P j <;> simp [kept, ih, Tbl.find_cons]
    · cases kept : P j <;> simp [ih, Tbl.find_cons, same]

/-- An element of an accumulator has its place in it. -/
theorem tileKey_acc {core a row col : Nat} (r : row < 128) (c : col < 192) : tileKey core a row col / 24576 = core * 8 + a := by
  unfold tileKey
  omega

namespace State

variable {s t : State} {core d a row col : Nat}

theorem accElem_congr (tile : t.tile = s.tile) (rule : (t.core core).accInit = (s.core core).accInit) (a row col : Nat) :
    t.accElem core a row col = s.accElem core a row col := by
  unfold accElem
  rw [tile, rule]

/-- A filled accumulator follows its rule. -/
theorem accElem_filled (rule : Nat) (r : row < 128) (c : col < 192) : (s.accFill core d rule).accElem core d row col =
    (match rule with | 0 => 0 | n + 1 => Config.freeWord n (tileKey core d row col) 0) := by
  have gone : Tbl.find (s.accFill core d rule).tile (tileKey core d row col) = none := by
    refine (Tbl.find_filter s.tile (fun k => k / 24576 != core * 8 + d) _).trans (if_neg ?_)
    simp [tileKey_acc r c]
  unfold accElem
  rw [gone]
  unfold accFill
  rw [modCore_core_self]
  dsimp only
  rw [Tbl.get, Tbl.find_put_self]
  rfl

/-- The other accumulators of its core stand. -/
theorem accElem_unfilled (rule : Nat) (other : a ≠ d) (r : row < 128) (c : col < 192) :
    (s.accFill core d rule).accElem core a row col = s.accElem core a row col := by
  have kept : Tbl.find (s.accFill core d rule).tile (tileKey core a row col) = Tbl.find s.tile (tileKey core a row col) := by
    refine (Tbl.find_filter s.tile (fun k => k / 24576 != core * 8 + d) _).trans (if_pos ?_)
    simp [tileKey_acc r c, other]
  have ruled : Tbl.get ((s.accFill core d rule).core core).accInit 0 a = Tbl.get (s.core core).accInit 0 a := by
    unfold accFill
    rw [modCore_core_self]
    dsimp only
    rw [Tbl.get, Tbl.find_put, if_neg (Ne.symm other)]
    rfl
  unfold accElem
  rw [kept, ruled]

theorem markAcc_idle (idle : s.accInFlight core a = false) : s.markAcc core a = s := if_neg (ne_true_of_eq_false idle)

/-- The state in which an accumulator has been cleared, with the marks that are left, and its group changed. -/
def emptied (s : State) (core d : Nat) (old : Undo) (m : Module) (gid : Nat) (f : Group → Group) : State :=
  modGroup { (s.keepUndo core old).accFill core d 0 with m := m } gid f

section
variable (s : State) (core d : Nat) (old : Undo) (m : Module) (gid : Nat) (f : Group → Group)

theorem emptied_memByte (x : Nat) : (s.emptied core d old m gid f).memByte x = s.memByte x := rfl

theorem emptied_spadByte (k x : Nat) : (s.emptied core d old m gid f).spadByte k x = s.spadByte k x := rfl

theorem emptied_group {x : Group} (found : Tbl.find s.groups gid = some x) : (s.emptied core d old m gid f).group gid = f x :=
  group_modGroup f found

variable {row col : Nat} (r : row < 128) (c : col < 192)
include r c

theorem emptied_elem : (s.emptied core d old m gid f).accElem core d row col = 0 := accElem_filled 0 r c

theorem emptied_elem_other {a : Nat} (other : a ≠ d) : (s.emptied core d old m gid f).accElem core a row col = s.accElem core a row col := by
  have rules : ((s.keepUndo core old).core core).accInit = (s.core core).accInit := by
    rw [keepUndo, modCore_core_self]
  exact (accElem_unfilled (s := s.keepUndo core old) 0 other r c).trans (accElem_congr (s := s) (t := s.keepUndo core old) rfl rules a row col)

end

/-- Marks of words that have been written whole are the only thing that goes. -/
theorem tileWritten_marks (s : State) (core : Nat) (P : Nat → Bool) : ∃ m, s.tileWritten core P = { s with m := m } := by
  unfold tileWritten
  split
  · exact ⟨s.m, rfl⟩
  · exact ⟨_, rfl⟩

end State

end Sys2Proof.Machine

namespace Sys2Proof.Safety

open Machine

variable {i : Instr} {s t u : State} {gid : Nat} {g x : Group} {p : Split}

/-! ## tile.tzero (R364) -/

/-- What tile.tzero leaves of its accumulator. -/
def Undo.cleared (c : Cx) (t : State) : Undo :=
  { gid := c.gid, cyc := c.now, acc := some (c.vw.d, Tbl.get (t.core c.g.core).accInit 0 c.vw.d,
                                 t.tile.filter (fun e => e.1 / 24576 == c.g.core * 8 + c.vw.d)) }

/-- The state in which it has cleared it. -/
def clears (c : Cx) (t : State) : State :=
  ((((t.keepUndo c.g.core (Undo.cleared c t)).markAcc c.g.core c.vw.d).accFill c.g.core c.vw.d 0).tileWritten c.g.core (fun p =>
    p / 24576 == c.vw.d)).modGroup c.gid (fun g => { g with accBusy := Tbl.put g.accBusy c.vw.d (c.now + 48) })

theorem execTileTzero_eq (f : RG) (s : State) : exec (.tileTzero f) s = issue (.tileTzero f) s (fun c t =>
    if !t.tileMine c.g.core c.g.wg then .hold else .ok (clears c (t.takeTile c.g.core c.g.wg))) := rfl

theorem groups_after (i : Instr) (s : State) (gid : Nat) (g : Group) (p : Split) : (afterIssue i s gid g p).groups =
    Tbl.upd s.groups gid (fun h => { h.modSplit p.born (fun q => issuedSplit q (s.now g.core) (view i).w (instrLen i)) with
      lastCyc := s.now g.core, count_ := h.count_ + 1 }) :=
  congrArg (Tbl.upd · gid _) (sameButCounts_issue { s with cur := none } g p i).groups

/-- No matrix operation is in flight that was not before. -/
theorem inFlight_after (i : Instr) (s : State) (gid : Nat) (g : Group) (p : Split) (core a : Nat) :
    (afterIssue i s gid g p).accInFlight core a = s.accInFlight core a := by
  unfold State.accInFlight
  rw [groups_after]
  exact Tbl.any_upd s.groups gid _ (fun x => x.core == core && x.log.any (fun f => f.kind == 12 && (mmaAccs f.instr).contains a))
    fun _ => rfl

theorem accInit_after (i : Instr) (s : State) (gid : Nat) (g : Group) (p : Split) (k : Nat) :
    ((afterIssue i s gid g p).core k).accInit = (s.core k).accInit := after_view Core.accInit (fun _ _ _ _ => rfl) (fun _ _ => rfl) ..

/-- A group that has changed besides issuing, its splits as the issue left them. -/
theorem goesOn_splits (h : Issues i s gid g p) (splits : x.splits = (issuedGroup i s g p).splits) : GoesOn i s g p x := by
  have issued := (splitIssued h).of_splits splits
  exact ⟨⟨afterSplit i s g p, issued.own, rfl, rfl, rfl, rfl, rfl, rfl⟩, issued.others⟩

theorem gives_tzero {f : RG} (h : Issues (.tileTzero f) s gid g p) (mine : (s.core g.core).tileWg = some g.wg)
    (idle : s.accInFlight g.core f.d.toNat = false) : Gives (.tileTzero f) s (fun t =>
      (∀ row < 128, ∀ col < 192, t.accElem g.core f.d.toNat row col = 0) ∧
      (∀ a < 8, a ≠ f.d.toNat → ∀ row < 128, ∀ col < 192, t.accElem g.core a row col = s.accElem g.core a row col) ∧
      (∀ k, Tbl.get (t.group gid).accBusy 0 k = if k = f.d.toNat then s.now g.core + 48 else Tbl.get g.accBusy 0 k) ∧
      KeepsRegs [] g (t.group gid) ∧ (t.group gid).log = g.log ∧ (t.group gid).fmode = g.fmode ∧
      (∀ x, t.memByte x = s.memByte x) ∧ (∀ k x, t.spadByte k x = s.spadByte k x) ∧
      GoesOn (.tileTzero f) s g p (t.group gid)) := by
  let c := ctx (.tileTzero f) s gid g p
  let u := afterIssue (.tileTzero f) s gid g p
  let v := u.keepUndo g.core (Undo.cleared c u)
  have mine : (u.core g.core).tileWg = some g.wg := mine_after (.tileTzero f) gid p mine
  have unmarked : v.markAcc g.core f.d.toNat = v := State.markAcc_idle ((inFlight_after (.tileTzero f) s gid g p g.core _).trans idle)
  obtain ⟨m, written⟩ := (v.accFill g.core f.d.toNat 0).tileWritten_marks g.core (fun p => p / 24576 == f.d.toNat)
  let busy (x : Group) : Group := { x with accBusy := Tbl.put x.accBusy f.d.toNat (s.now g.core + 48) }
  have cleared : clears c u = u.emptied g.core f.d.toNat (Undo.cleared c u) m gid busy := by
    refine congrArg (fun w : State => w.modGroup gid busy) (Eq.trans ?_ written)
    exact congrArg (fun w : State => (w.accFill g.core f.d.toNat 0).tileWritten g.core (fun p => p / 24576 == f.d.toNat)) unmarked
  have body : (if !u.tileMine c.g.core c.g.wg then Res.hold else .ok (clears c (u.takeTile c.g.core c.g.wg))) =
      .ok (u.emptied g.core f.d.toNat (Undo.cleared c u) m gid busy) := by
    rw [tileMine_held (core := c.g.core) (wg := c.g.wg) mine, takeTile_held (core := c.g.core) mine, cleared]
    rfl
  have r := regroups_after h
  have group := u.emptied_group g.core f.d.toNat (Undo.cleared c u) m gid busy r.found
  refine ⟨_, ok_of (execTileTzero_eq f s) body h, fun row lr col lc => ?_, fun a _ other row lr col lc => ?_, fun k => ?_, ?_, ?_, ?_,
    fun x => ?_, fun k x => ?_, goesOn_splits h (by rw [group])⟩
  · exact u.emptied_elem g.core f.d.toNat (Undo.cleared c u) m gid busy lr lc
  · exact (u.emptied_elem_other g.core f.d.toNat (Undo.cleared c u) m gid busy lr lc other).trans
      (State.accElem_congr r.memory.tile (accInit_after ..) a row col)
  · rw [group]
    dsimp only [busy]
    rw [Tbl.get, Tbl.find_put]
    simp only [eq_comm (a := f.d.toNat)]
    split <;> rfl
  · rw [group]; exact SameFiles.regs ⟨rfl, rfl, rfl, rfl⟩
  · rw [group]; rfl
  · rw [group]; rfl
  · exact (u.emptied_memByte ..).trans (r.memory.mem x)
  · exact (u.emptied_spadByte ..).trans (r.memory.spad k x)

end Sys2Proof.Safety
end

section
namespace Sys2Proof.Machine

/-! ## Bytes written to a scratchpad row by row (R190, R365) -/

namespace State

variable {s : State} {core o pitch : Nat} {bytes : Nat → List Byte}

/-- A part of a range that no operand meets meets none. -/
theorem inOperand_within {n a m : Nat} (free : s.inOperand core o n = false) (low : o ≤ a) (high : a + m ≤ o + n) :
    s.inOperand core a m = false := by
  refine Bool.eq_false_iff.mpr fun met => Bool.eq_false_iff.mp free ?_
  unfold inOperand at met ⊢
  simp only [List.any_eq_true, meetsRange, Bool.and_eq_true, decide_eq_true_eq] at met ⊢
  obtain ⟨e, group, f, entry, r, range, ⟨same, start⟩, stop⟩ := met
  exact ⟨e, group, f, entry, r, range, ⟨same, by omega⟩, by omega⟩

/-- A byte of a scratchpad after a write. -/
theorem spadByte_setSpad (s : State) (core o k x : Nat) (l : List Byte) : (s.setSpad core o l).spadByte k x =
    if spadKey core o ≤ spadKey k x ∧ spadKey k x < spadKey core o + l.length then l.getD (spadKey k x - spadKey core o) 0
    else s.spadByte k x := by
  have same : (s.markOperand core o l.length).spad = s.spad := by
    unfold markOperand
    split <;> rfl
  refine (Memory.read_writeList ..).trans ?_
  rw [same]
  rfl

/-- n rows of a scratchpad have been written. -/
def rowsWritten (s : State) (core o pitch : Nat) (bytes : Nat → List Byte) (n : Nat) : State :=
  (List.range n).foldl (fun u i => u.setSpad core (o + pitch * i) (bytes i)) s

theorem rowsWritten_succ (n : Nat) : s.rowsWritten core o pitch bytes (n + 1) =
    (s.rowsWritten core o pitch bytes n).setSpad core (o + pitch * n) (bytes n) := by
  rw [rowsWritten, List.range_succ, List.foldl_append]
  rfl

variable (fits : ∀ i, (bytes i).length ≤ pitch)
include fits

/-- Only scratchpads and marks change, where no operand is met. -/
theorem rowsWritten_frame {n : Nat} (free : s.inOperand core o (pitch * n) = false) :
    ∃ spad m, s.rowsWritten core o pitch bytes n = { s with spad := spad, m := m } := by
  induction n with
  | zero => exact ⟨s.spad, s.m, rfl⟩
  | succ n ih =>
    have last : o + pitch * n + pitch = o + pitch * (n + 1) := by rw [Nat.mul_succ, Nat.add_assoc]
    obtain ⟨spad, m, before⟩ := ih (inOperand_within free (Nat.le_refl o) (by omega))
    have unmet : s.inOperand core (o + pitch * n) (bytes n).length = false :=
      inOperand_within free (Nat.le_add_right ..) (by have := fits n; omega)
    have written : s.rowsWritten core o pitch bytes (n + 1) =
        ({ s with spad := spad, m := m } : State).loadSpad core (o + pitch * n) (bytes n) := by
      rw [rowsWritten_succ, before, setSpad, markOperand]
      exact congrArg (loadSpad · core (o + pitch * n) (bytes n)) (if_neg (ne_true_of_eq_false unmet))
    exact ⟨_, _, written⟩

/-- The bytes outside the rows stand. -/
theorem rowsWritten_outside {n k x : Nat} (inside : o + pitch * n ≤ 4194304) (out : k ≠ core ∨ x < o ∨ o + pitch * n ≤ x) (lt : x < 4194304) :
    (s.rowsWritten core o pitch bytes n).spadByte k x = s.spadByte k x := by
  induction n with
  | zero => rfl
  | succ n ih =>
    have last : o + pitch * n + pitch = o + pitch * (n + 1) := by rw [Nat.mul_succ, Nat.add_assoc]
    have fit := fits n
    rw [rowsWritten_succ, spadByte_setSpad, if_neg (by unfold spadKey; omega)]
    exact ih (by omega) (by omega)

/-- Each row holds its bytes. -/
theorem rowsWritten_row {n i j : Nat} (inside : o + pitch * n ≤ 4194304) (row : i < n) (byte : j < (bytes i).length) :
    (s.rowsWritten core o pitch bytes n).spadByte core (o + pitch * i + j) = (bytes i).getD j 0 := by
  induction n with
  | zero => omega
  | succ n ih =>
    have last : o + pitch * n + pitch = o + pitch * (n + 1) := by rw [Nat.mul_succ, Nat.add_assoc]
    rw [rowsWritten_succ, spadByte_setSpad]
    rcases Nat.lt_succ_iff_lt_or_eq.mp row with earlier | rfl
    · have next : o + pitch * i + pitch ≤ o + pitch * n := by
        rw [Nat.add_assoc, ← Nat.mul_succ]
        exact Nat.add_le_add_left (Nat.mul_le_mul_left _ earlier) _
      have fit := fits i
      rw [if_neg (by unfold spadKey; omega)]
      exact ih (by omega) earlier
    · rw [if_pos (by unfold spadKey; omega)]
      congr 1
      unfold spadKey
      omega

theorem rowsWritten_bytes {n i : Nat} (inside : o + pitch * n ≤ 4194304) (row : i < n) :
    (s.rowsWritten core o pitch bytes n).spadBytes core (o + pitch * i) (bytes i).length = bytes i := by
  refine List.ext_getElem (by simp [spadBytes]) fun j _ lt => ?_
  simp only [spadBytes, List.getElem_map, List.getElem_range]
  rw [rowsWritten_row fits inside row lt, List.getD_eq_getElem _ _ lt]

end State

/-! ## Operands in the own scratchpad (R189, R355) -/

theorem mem_blockStarts {a n b : Nat} (mem : b ∈ blockStarts a n) : a ≤ b ∧ b < a + n := by
  unfold blockStarts at mem
  split at mem
  · cases mem
  · rcases List.mem_cons.mp mem with rfl | later
    · omega
    · obtain ⟨listed, lt⟩ := List.mem_filter.mp later
      obtain ⟨i, -, rfl⟩ := List.mem_map.mp listed
      exact ⟨by omega, of_decide_eq_true lt⟩

theorem State.operandFails_none {s : State} {g : Group} {rs : List (Nat × Nat)}
    (ok : ∀ r ∈ rs, ∀ b, r.1 ≤ b → b < r.1 + r.2 → s.operandByte g b = none) : s.operandFails g rs = [] := by
  refine List.filterMap_eq_nil_iff.mpr fun r mem => List.findSome?_eq_none_iff.mpr fun b start => ?_
  obtain ⟨low, high⟩ := mem_blockStarts start
  rw [ok r mem b low high]
  rfl

theorem State.operandByte_own {s : State} {g : Group} {b : Nat} (window : windowOf b = .spad)
    (own : (b - 0x01FFFFFFFF000000) / 4194304 = g.lCore) (limit : (b - 0x01FFFFFFFF000000) % 4194304 + 1 ≤ g.spadLimit.toNat) :
    s.operandByte g b = none := by
  have checked : s.checkSpad g b 1 = .ok (.spad g.core (g.spadBase.toNat + (b - 0x01FFFFFFFF000000) % 4194304)) :=
    (if_pos own).trans (if_pos limit)
  unfold State.operandByte
  rw [if_neg (not_not_intro window), checked]

/-! ## tile.tcvt (R365) -/

/-- The tile word of a context. -/
def Cx.tile (c : Cx) : Nat := (c.s c.vw.b).toNat

/-- The place of its first row in the scratchpad. -/
def Cx.tilePlace (c : Cx) : Nat := c.g.spadBase.toNat + (c.addr1.toNat - 0x01FFFFFFFF000000) % 4194304

/-- The rows that tile.tcvt writes, as generic addresses and lengths. -/
def Cx.tileSpan (c : Cx) (row : Nat) : List (Nat × Nat) := (List.range (tileRows c.tile)).map fun i => (c.addr1.toNat + tilePitch c.tile * i, row)

/-- The bytes of a row. -/
def Cx.tileRow (c : Cx) (t : State) (row i : Nat) : List Byte :=
  packRow (tcvtBits (tileFmt c.tile)) row ((List.range (tileCols c.tile)).map (fun j =>
    tcvtVal (tileFmt c.tile) (tileShift c.tile) (t.accRead c.g.core c.vw.d i j)))

/-- The state in which all are written. -/
def Cx.tileStored (c : Cx) (t : State) (row : Nat) : State :=
  t.rowsWritten c.g.core c.tilePlace (tilePitch c.tile) (c.tileRow t row) (tileRows c.tile)

/-- What tile.tcvt leaves of the bytes that it writes. -/
def Cx.tileUndo (c : Cx) (t : State) (row : Nat) : Undo :=
  { gid := c.gid, cyc := c.now, spad := (c.tileSpan row).flatMap (fun r => (List.range row).map (fun k =>
      (c.tilePlace + (r.1 - c.addr1.toNat) + k, t.spadByte c.g.core (c.tilePlace + (r.1 - c.addr1.toNat) + k),
        (c.tileStored t row).spadByte c.g.core (c.tilePlace + (r.1 - c.addr1.toNat) + k)))) }

/-- The pieces of its rows. -/
def Cx.tilePieces (c : Cx) (row : Nat) : List Acc := (c.tileSpan row).map (fun r =>
  { lane := firstLane c.mask, size := row, loc := .spad c.g.core (c.tilePlace + (r.1 - c.addr1.toNat)) })

/-- The state that tile.tcvt leaves. -/
def Cx.tileConverted (c : Cx) (t : State) (row : Nat) : State :=
  (((c.tileStored t row).keepUndo c.g.core (c.tileUndo t row)).countBanks c.g.core (c.tilePieces row)).modSplit c.gid c.born (fun p =>
    { p with readyAt := max p.readyAt (c.now + 1 + ceilDiv (tileRows c.tile * tileCols c.tile) 128) })

/-- The failures of its rows: those of their bytes, and rows that leave the scratchpad of their core. -/
def Cx.tileFails (c : Cx) (t : State) (row : Nat) : List (Nat × Nat) :=
  t.operandFails c.g (c.tileSpan row) ++
    ((c.tileSpan row).filter (fun r => (r.1 + row - 1 - 0x01FFFFFFFF000000) / 4194304 != c.g.lCore)).map (fun r =>
      (5, max r.1 (0x01FFFFFFFF000000 + (c.g.lCore + 1) * 4194304)))

/-- tile.tcvt with all its checks passed. -/
theorem tcvt_converts (f : RG) : ∃ body : Cx → State → Res, (∀ s, exec (.tileTcvt f) s = issue (.tileTcvt f) s body) ∧
    ∀ (c : Cx) (t : State) (row : Nat), (t.core c.g.core).tileWg = some c.g.wg → cvtRow c.tile = some row → tileOk c.tile row = true →
      c.addr1.toNat % 16 = 0 → windowOf c.addr1.toNat = .spad → (c.addr1.toNat - 0x01FFFFFFFF000000) / 4194304 = c.g.lCore →
      c.tileFails t row = [] → waitTurn c.g c.num (c.tilePieces row) = true → t.tileReads c.g.core c.vw.d c.tile = false →
      (c.tileSpan row).any (fun r => t.spadCut c.g.core (c.tilePlace + (r.1 - c.addr1.toNat)) row) = false →
      body c t = .ok (c.tileConverted t row) := by
  refine ⟨_, fun s => rfl, fun c t row mine fmt ok aligned window own clear turn clean whole => ?_⟩
  have mine_ : t.tileMine c.g.core c.g.wg = true := Safety.tileMine_held mine
  unfold Cx.tile at fmt ok clean
  unfold Cx.tileFails Cx.tileSpan Cx.tile at clear
  unfold Cx.tilePieces Cx.tileSpan Cx.tilePlace Cx.tile at turn
  unfold Cx.tileSpan Cx.tilePlace Cx.tile at whole
  simp only [mine_, fmt, ok, aligned, window, own, clear, turn, clean, whole, Safety.takeTile_held mine, worstFail,
    beq_self_eq_true, Bool.and_self, Bool.not_true, Bool.false_eq_true, if_false, ne_eq, not_true_eq_false]
  rfl

end Sys2Proof.Machine

namespace Sys2Proof.Safety

open Machine

variable {i : Instr} {s t u : State} {gid : Nat} {g x : Group} {p : Split}

theorem tileRow_length (c : Cx) (t : State) (row i : Nat) : (c.tileRow t row i).length = row := leBytes_length ..

/-- The bytes of a row are some, for a row of a format that there is. -/
theorem cvtRow_pos {w row : Nat} (fmt : cvtRow w = some row) : 0 < row := by
  unfold cvtRow at fmt
  dsimp only at fmt
  have cols : 0 < tileCols w := Nat.succ_pos _
  split at fmt <;> simp only [Option.some.injEq, Option.ite_none_right_eq_some, reduceCtorEq] at fmt <;> omega

/-- No operand range is met that was not before. -/
theorem inOperand_after (i : Instr) (s : State) (gid : Nat) (g : Group) (p : Split) (core o n : Nat) :
    (afterIssue i s gid g p).inOperand core o n = s.inOperand core o n := by
  unfold State.inOperand
  rw [groups_after]
  exact Tbl.any_upd s.groups gid _ (fun x => x.log.any (fun f => f.rng.any (meetsRange core o n))) fun _ => rfl

/-- Where the rows of a tile lie: all within the scratchpad of the group, below its limit. -/
structure TileInside (c : Cx) (row : Nat) : Prop where
  fits : row ≤ tilePitch c.tile
  some_ : 0 < row
  low : 0x01FFFFFFFF000000 ≤ c.addr1.toNat
  high : c.addr1.toNat + tilePitch c.tile * tileRows c.tile ≤ 0x01FFFFFFFF000000 + (c.g.lCore + 1) * 4194304
  own : (c.addr1.toNat - 0x01FFFFFFFF000000) / 4194304 = c.g.lCore
  core : c.g.lCore < 4
  limit : (c.addr1.toNat - 0x01FFFFFFFF000000) % 4194304 + tilePitch c.tile * tileRows c.tile ≤ c.g.spadLimit.toNat

namespace TileInside

variable {c : Cx} {t : State} {row : Nat} (k : TileInside c row)
include k

/-- A row ends where the next begins, at the latest. -/
theorem row_end {i : Nat} (lt : i < tileRows c.tile) : tilePitch c.tile * i + row ≤ tilePitch c.tile * tileRows c.tile := by
  have next : tilePitch c.tile * (i + 1) ≤ tilePitch c.tile * tileRows c.tile := Nat.mul_le_mul_left _ lt
  rw [Nat.mul_succ] at next
  have := k.fits
  omega

theorem window {b : Nat} (from_ : c.addr1.toNat ≤ b) (to_ : b < c.addr1.toNat + tilePitch c.tile * tileRows c.tile) : windowOf b = .spad := by
  obtain ⟨-, -, low, high, -, core, -⟩ := k
  unfold windowOf
  rw [if_neg (by omega), if_pos (by omega)]

theorem byte_own {b : Nat} (from_ : c.addr1.toNat ≤ b) (to_ : b < c.addr1.toNat + tilePitch c.tile * tileRows c.tile) :
    (b - 0x01FFFFFFFF000000) / 4194304 = c.g.lCore ∧ (b - 0x01FFFFFFFF000000) % 4194304 + 1 ≤ c.g.spadLimit.toNat := by
  obtain ⟨-, -, low, high, own, -, limit⟩ := k
  generalize tilePitch c.tile * tileRows c.tile = size at *
  omega

theorem no_fails : c.tileFails t row = [] := by
  have bytes : t.operandFails c.g (c.tileSpan row) = [] := State.operandFails_none fun r mem b from_ to_ => by
    obtain ⟨i, lt, rfl⟩ := List.mem_map.mp mem
    have ends := k.row_end (List.mem_range.mp lt)
    have from_ : c.addr1.toNat ≤ b := (Nat.le_add_right ..).trans from_
    have to_ : b < c.addr1.toNat + tilePitch c.tile * tileRows c.tile := by dsimp only at to_; omega
    obtain ⟨own, limit⟩ := k.byte_own from_ to_
    exact State.operandByte_own (k.window from_ to_) own limit
  have ends : (c.tileSpan row).filter (fun r => (r.1 + row - 1 - 0x01FFFFFFFF000000) / 4194304 != c.g.lCore) = [] :=
    List.filter_eq_nil_iff.mpr fun r mem => by
      obtain ⟨i, lt, rfl⟩ := List.mem_map.mp mem
      have ends := k.row_end (List.mem_range.mp lt)
      have some_ := k.some_
      obtain ⟨own, -⟩ := k.byte_own (b := c.addr1.toNat + tilePitch c.tile * i + row - 1) (by omega) (by omega)
      simp [own]
  unfold Cx.tileFails
  rw [bytes, ends]
  rfl

end TileInside

section
variable (c : Cx) (t : State) (row : Nat)

theorem tileConverted_spadByte (k x : Nat) : (c.tileConverted t row).spadByte k x = (c.tileStored t row).spadByte k x :=
  congrArg (Memory.read zeroDefault · (spadKey k x)) (sameButCounts_countBanks ((c.tileStored t row).keepUndo c.g.core (c.tileUndo t row)) ..).spad

variable {c t row} (fits : row ≤ tilePitch c.tile) (free : t.inOperand c.g.core c.tilePlace (tilePitch c.tile * tileRows c.tile) = false)
include fits free

theorem tileConverted_frame : (∀ x, (c.tileConverted t row).memByte x = t.memByte x) ∧ (c.tileConverted t row).tile = t.tile ∧
    ∀ x, Tbl.find t.groups c.gid = some x → ∃ l, (c.tileConverted t row).group c.gid = { x with splits := l } := by
  obtain ⟨spad, m, stored⟩ := State.rowsWritten_frame (s := t) (core := c.g.core) (o := c.tilePlace) (pitch := tilePitch c.tile)
    (bytes := c.tileRow t row) (fun i => (tileRow_length c t row i).le.trans fits) free
  have mem : (c.tileStored t row).mem = t.mem := (congrArg State.mem stored : _)
  have tile : (c.tileStored t row).tile = t.tile := (congrArg State.tile stored : _)
  have groups : (c.tileStored t row).groups = t.groups := (congrArg State.groups stored : _)
  have counts := sameButCounts_countBanks ((c.tileStored t row).keepUndo c.g.core (c.tileUndo t row)) c.g.core (c.tilePieces row)
  refine ⟨fun x => ?_, ?_, fun x found => ⟨_, State.group_modGroup _ ?_⟩⟩
  · exact congrArg (Memory.read memDefault · x) (counts.mem.trans mem)
  · exact counts.tile.trans tile
  · exact (congrArg (Tbl.find · c.gid) (counts.groups.trans groups)).trans found

end

theorem gives_tcvt {f : RG} {row : Nat} (h : Issues (.tileTcvt f) s gid g p) (mine : (s.core g.core).tileWg = some g.wg) :
    let c := ctx (.tileTcvt f) s gid g p
    let u := afterIssue (.tileTcvt f) s gid g p
    let w := (c.s f.b.toNat).toNat
    let a := (c.addr f.a.toNat (firstLane c.mask)).toNat
    let o := g.spadBase.toNat + (a - 0x01FFFFFFFF000000) % 4194304
    cvtRow w = some row → tilePitch w ≠ 0 → tileCols w ≤ 192 → row ≤ tilePitch w → a % 16 = 0 →
    0x01FFFFFFFF000000 ≤ a → a + tilePitch w * tileRows w ≤ 0x01FFFFFFFF000000 + (g.lCore + 1) * 4194304 →
    (a - 0x01FFFFFFFF000000) / 4194304 = g.lCore → g.lCore < 4 →
    (a - 0x01FFFFFFFF000000) % 4194304 + tilePitch w * tileRows w ≤ g.spadLimit.toNat → g.log = [] →
    o + tilePitch w * tileRows w ≤ 4194304 → s.inOperand g.core o (tilePitch w * tileRows w) = false →
    u.tileReads g.core f.d.toNat w = false → (∀ i < tileRows w, u.spadCut g.core (o + tilePitch w * i) row = false) →
    Gives (.tileTcvt f) s (fun t =>
      (∀ k x, (k ≠ g.core ∨ x < o ∨ o + tilePitch w * tileRows w ≤ x) → x < 4194304 → t.spadByte k x = s.spadByte k x) ∧
      (∀ i < tileRows w, t.spadBytes g.core (o + tilePitch w * i) row =
        packRow (tcvtBits (tileFmt w)) row ((List.range (tileCols w)).map (fun j =>
          tcvtVal (tileFmt w) (tileShift w) (u.accRead g.core f.d.toNat i j)))) ∧
      (∀ x, t.memByte x = s.memByte x) ∧ t.tile = s.tile ∧ KeepsRegs [] g (t.group gid) ∧ (t.group gid).fmode = g.fmode) := by
  intro c u w a o fmt pitch cols fits aligned low high own core limit empty inside free clean whole
  have k : TileInside c row := ⟨fits, cvtRow_pos fmt, low, high, own, core, limit⟩
  have ok : tileOk c.tile row = true := by
    have fits : row ≤ tilePitch c.tile := fits
    have pitch : tilePitch c.tile ≠ 0 := pitch
    have cols : tileCols c.tile ≤ 192 := cols
    simp [tileOk, fits, pitch, cols]
  have rows : 0 < tileRows w := Nat.succ_pos _
  have window : windowOf c.addr1.toNat = .spad := k.window (Nat.le_refl _)
    (Nat.lt_add_of_pos_right (Nat.mul_pos (Nat.pos_of_ne_zero pitch) rows))
  have turn : waitTurn c.g c.num (c.tilePieces row) = true := by
    have none_ : c.g.older c.num = [] := (congrArg (List.filter _) empty : _)
    rw [waitTurn, none_]
    rfl
  have whole : (c.tileSpan row).any (fun r => u.spadCut c.g.core (c.tilePlace + (r.1 - c.addr1.toNat)) row) = false := by
    refine List.any_eq_false.mpr fun r mem => ?_
    obtain ⟨i, lt, rfl⟩ := List.mem_map.mp mem
    dsimp only
    rw [Nat.add_sub_cancel_left]
    exact ne_true_of_eq_false (whole i (List.mem_range.mp lt))
  obtain ⟨body, run, converts⟩ := tcvt_converts f
  have free : u.inOperand c.g.core c.tilePlace (tilePitch c.tile * tileRows c.tile) = false :=
    (inOperand_after (.tileTcvt f) s gid g p ..).trans free
  have lengths (i : Nat) : (c.tileRow u row i).length ≤ tilePitch c.tile := (tileRow_length c u row i).le.trans fits
  have r := regroups_after h
  obtain ⟨bytes, tile, group⟩ := tileConverted_frame fits free
  obtain ⟨l, group⟩ := group _ r.found
  have group : (c.tileConverted u row).group gid = { issuedGroup (.tileTcvt f) s g p with splits := l } := group
  refine ⟨c.tileConverted u row, ok_of (run s) (converts c u row (mine_after (.tileTcvt f) gid p mine) fmt ok aligned window own k.no_fails turn
    clean whole) h, fun j x out lt => ?_, fun i lt => ?_, fun x => (bytes x).trans (r.memory.mem x), tile.trans r.memory.tile, ?_, ?_⟩
  · exact (tileConverted_spadByte c u row j x).trans ((State.rowsWritten_outside lengths inside out lt).trans (r.memory.spad j x))
  · have stored := State.rowsWritten_bytes (s := u) (core := c.g.core) (o := c.tilePlace) lengths inside lt
    rw [tileRow_length] at stored
    refine Eq.trans (List.map_congr_left fun j _ => ?_) stored
    exact tileConverted_spadByte c u row _ _
  · rw [group]; exact SameFiles.regs ⟨rfl, rfl, rfl, rfl⟩
  · rw [group]; rfl

/-- Settles O27: an operation whose block, operands and queues pass their checks is queued on its cores with its entry; the tile forms
record their pieces; tile.tzero gives its accumulator the rule of zeros; the rows of tile.tcvt lie apart, so that each keeps its bytes. -/
theorem matrixForms : Obligations.MatrixForms := by
  refine ⟨fun f i cl s gid g p a b form h quad mine => gives_mma form h quad mine, fun f s gid g p h mine => tld_steps mine h,
    fun f s gid g p h mine => tst_steps mine h, fun f s gid g p h mine idle _ => gives_tzero h mine idle,
    fun f s gid g p row h mine => gives_tcvt h mine⟩

end Sys2Proof.Safety
end

section
/-! SUPPORT. The statement DebugAndCounters fails: what the freeze of a DUMP undoes can mark an operation of another group. -/

namespace Sys2Proof.Safety

open Machine

/-- A DUMP's 100 us end for group 1, which has a store of class I2 that has not left, so that the bytes of its last tile.tcvt are undone
(R105, R185); group 2 of its core has since issued a matrix operation on that byte. -/
def dumpedState : State :=
  { State.reset with
    cycle := 1
    dies := [(0, { history := [{ cyc := 0, groups := [(1, {})] }] })]
    cores := [(0, { undo := [{ gid := 1, cyc := 0, spad := [(0, 5, 0)] }] })]
    groups := [(1, { dumpAt := 1, log := [{ kind := 14, cls := 2 }] }), (2, { log := [{ kind := 12, rng := [(0, 0, 8)] }] })] }

/-- Whether the operations of a group are undefined. -/
def undefs (s : State) (gid : Nat) : Option (List Bool) := (Tbl.find s.groups gid).map (fun g => g.log.map (·.undef))

theorem undefs_before : undefs dumpedState 2 = some [false] := rfl

theorem undefs_after : undefs (dumpedState.dumpLate 1) 2 = some [true] := rfl

/-- Refutes O52: a DUMP that ends its 100 us freezes a group, and the bytes of its tile.tcvt that the freeze undoes lie in an operand range of
another group, whose operation becomes undefined; the statement says that every other group stands as it was. -/
theorem not_debugAndCounters : ¬ Obligations.DebugAndCounters := by
  intro h
  obtain ⟨-, -, -, -, -, -, timeout, -⟩ := h
  obtain ⟨t, run, -, -, -, -, -, -, others⟩ :=
    timeout 1 { dumpAt := 1, log := [{ kind := 14, cls := 2 }] } dumpedState rfl (by decide) (by decide) rfl rfl rfl
  have reached : t = dumpedState.dumpLate 1 := (Host.Outcome.next.inj run).symm
  have same : undefs (dumpedState.dumpLate 1) 2 = undefs dumpedState 2 := by
    rw [← reached, undefs, others 2 (by decide), undefs]
  rw [undefs_before, undefs_after] at same
  exact absurd same (by decide)

end Sys2Proof.Safety
end
